-- ==== Sys2Proof/Word.lean ====
section
/-! DEFINITION. Word.lean: the widths the manual uses (R5) and the index types of the module's numbered resources (R2, R37). -/

namespace Sys2Proof

/-- One byte of memory. -/
abbrev Byte := BitVec 8
/-- A register or a 64-bit field (R11). -/
abbrev Word := BitVec 64
/-- Partition P0 to P3 (R37). -/
abbrev PartIx := Fin 4
/-- Core C0 to C15 (R2). -/
abbrev CoreIx := Fin 16
/-- Engine E0 to E7 of a core (R2). -/
abbrev EngIx := Fin 8
/-- Graticule port G0 to G9 (R260). -/
abbrev PortIx := Fin 10
/-- A link: 0 to 9 the Graticule ports, 10 the Ferrule port (R275, R276). -/
abbrev LinkIx := Fin 11
/-- Hardware context 0 to 16,383 (R37). -/
abbrev CtxIx := Fin 16384

end Sys2Proof
end

