-- ==== Sys2Proof/Syntax.lean ====
section
/-! DEFINITION. Syntax.lean: the commands of the module, one constructor for each row of spec/opcode_table.json, with
operands chosen for the row (the table gives none; log entry 12). A command that stands for an event of the part names the
unit it happens in, and carries what the environment presents; everything else it reads from the state. -/

namespace Sys2Proof

/-- The four agents that reach register space (R11, R355). -/
inductive Agent where
  | ferrule | onaut | mgmt | firmware
deriving DecidableEq, Repr

/-- A Chart packet (R229); `bad` says that a reserved bit is set (R230). -/
structure Packet where
  dst     : BitVec 12
  src     : BitVec 12
  part    : PartIx
  cls     : BitVec 2
  opcode  : BitVec 8
  status  : BitVec 8
  len64   : BitVec 4
  poison  : Bool
  tag     : BitVec 32
  nonce   : BitVec 32
  addr    : Word
  epoch   : BitVec 16
  retry   : BitVec 16
  aux     : BitVec 32
  pmask   : BitVec 128
  payload : List Byte
  bad     : Bool
deriving DecidableEq, Repr

/-- A Ferrule message (R277); `bad` says that a reserved bit is set (R278). -/
structure FMsg where
  cls     : BitVec 2
  opcode  : BitVec 6
  linesM1 : BitVec 3
  status  : BitVec 4
  mask    : BitVec 16
  tag     : BitVec 32
  addr    : Word
  lines   : List Byte
  bad     : Bool
deriving DecidableEq, Repr

/-- The lane operation of a control word (R266). -/
inductive LaneOp where
  | none | spareReq | spareDone | halfReq | reserved
deriving DecidableEq, Repr

/-- The codewords that a receiver takes in for one link frame (R264, R265): the two of the frame, and a codeword with MARKER where one
falls among them; each as the symbols that the nine physical lanes brought. -/
structure RxFrame where
  words : List (List (List Nat))
deriving DecidableEq, Repr

/-- The identity word of step 7 of R269 (R276 for the Ferrule link). -/
structure Identity where
  module  : BitVec 12
  port    : BitVec 4
  role    : Bool
  bootId  : BitVec 32
  seq     : BitVec 12
  ackSeq  : BitVec 12
deriving DecidableEq, Repr

/-- What the patrol scrubber's read of a line meets (R205 to R210): the words whose check fails, with their syndromes; for T1 the TAG of the check record, how many tries of each 32 B burst fail their CRC or their command's parity, and whether the burst
that writes a corrected word back fails its CRC after the retries. -/
structure LineRead where
  words        : List (Fin 32 × BitVec 7)
  tag          : BitVec 32
  crc          : List (Fin 5)
  rewriteFails : Bool
deriving DecidableEq, Repr

/-- What the transfers of a memory line meet in one aclk (R205 to R210): a read of it, whether a second read finds good what the first
found uncorrectable, and how many tries of a write of each 32 B burst fail their CRC or their command's parity (R206). -/
structure LineErr where
  line  : Nat
  read  : LineRead
  again : Bool
  write : List (Fin 5)
deriving DecidableEq, Repr

/-- A training that passed step 8 (R269): the port, the bits wrong on each lane in step 4, and the lanes that the peer's receiver has
marked failed, which are not sent on. -/
structure Trained where
  link : LinkIx
  errs : Vector Nat 9
  peer : BitVec 9
deriving DecidableEq, Repr

/-- A training that failed (R269): the step that failed, and the bits wrong on each lane in step 4 where it was reached. -/
structure TrainFail where
  step : Fin 9
  errs : Vector Nat 9
deriving DecidableEq, Repr

/-- The commands. Each docstring gives the row of the table and what its operands are. -/
inductive Instr where
  -- registers and power (R6 to R36)
  | registerWrite (ag : Agent) (off : BitVec 24) (wide : Bool) (v : Word)
  | rcFieldRead (ag : Agent) (off : BitVec 24) (wide : Bool)
  | powerUpSequence (vinMv : Nat) (steps : Fin 8)
  | railToleranceTimeout
  | powerDownSequence
  | minimumOffTimeExpiry (vinMv : Nat) (steps : Fin 8)
  | supplyRemoval (vinMv us : Nat)
  | modResetNLow (ns : Nat)
  | modResetNHigh
  | powerSample (watts : Nat) (partWatts : Vector Nat 4) (dieMax shell inlet outlet : BitVec 8)
  | thermalTrip (celsius : Nat)
  | identityEepromAccess (at_ : BitVec 13) (wr : Option Byte)
  -- the stroke and partition power (R44 to R55)
  | strokeBoundary (n : PartIx)
  | boundaryWindowEnd (n : PartIx)
  | stkCtrlRun (n : PartIx) (v : Bool)
  | stkStartWrite (n : PartIx) (v : Word)
  | targetActive (n : PartIx)
  | targetClockStop (n : PartIx)
  | targetPowerOff (n : PartIx)
  | targetInvalid (n : PartIx) (v : BitVec 2)
  | powerTransitionEnd (n : PartIx)
  -- engines (R56 to R91)
  | engineStart (c : CoreIx) (e : EngIx)
  | planeLoad (c : CoreIx) (e : EngIx) (kp : BitVec 10)
  | passStart (c : CoreIx) (e : EngIx)
  | arrayHold (c : CoreIx) (e : EngIx) (tier : BitVec 2) (late : Bool)
  | operationComplete (c : CoreIx) (e : EngIx)
  | engineCompletion (c : CoreIx) (e : EngIx)
  | engineReady (c : CoreIx) (e : EngIx)
  -- command streams and segments (R117 to R173)
  | commandFetch (c : CoreIx)
  | tailPoll (c : CoreIx)
  | nop (c : CoreIx)
  | matmul (c : CoreIx)
  | mxScales (c : CoreIx)
  | rowop (c : CoreIx)
  | rowopComplete (c : CoreIx)
  | mbBegin (c : CoreIx)
  | mbEnd (c : CoreIx)
  | stashPut (c : CoreIx)
  | stashPutComplete (c : CoreIx)
  | stashFree (c : CoreIx)
  | update (c : CoreIx)
  | sumOfSquares (c : CoreIx)
  | updateStart (c : CoreIx)
  | updateComplete (c : CoreIx)
  | deferredSlotChange (n : PartIx)
  | scaleStep (c : CoreIx)
  | copy (c : CoreIx)
  | copyFill (c : CoreIx)
  | copyGather (c : CoreIx)
  | copyComplete (c : CoreIx)
  | notify (c : CoreIx)
  | collective (c : CoreIx)
  | semWait (c : CoreIx)
  | semWaitComplete (c : CoreIx)
  | semAdd (c : CoreIx)
  | semAcquire (c : CoreIx)
  | leaseGrant (c : CoreIx)
  | leaseExpiry (sem : BitVec 52)
  | semRelease (c : CoreIx)
  | fence (c : CoreIx)
  | jump (c : CoreIx)
  | lift (c : CoreIx)
  | penLift (c : CoreIx)
  | wetPageFlip (c : CoreIx)
  | penLiftComplete (c : CoreIx)
  | wetConflictEnd (c : CoreIx)
  | inkHoldEnd (c : CoreIx)
  | outboundQueueSend (n : PartIx) (entry : Nat)
  | seqCtrlKill (c : CoreIx)
  | sequencerReady (c : CoreIx)
  -- contexts, rows and profiles (R174 to R192)
  | enable (k : CtxIx)
  | disable (k : CtxIx)
  | preempt (k : CtxIx)
  | preemptHold (k : CtxIx)
  | resume (k : CtxIx)
  | halt (k : CtxIx)
  | clearEvents (k : CtxIx)
  | hardRowStart (n : PartIx) (row : Fin 1024)
  | elasticRowStart (c : CoreIx) (row : Fin 1024)
  | contextLoad (c : CoreIx)
  | pickPoll (c : CoreIx)
  | preemptionPoint (c : CoreIx) (row : Fin 1024)
  | hardRowEnd (c : CoreIx) (row : Fin 1024)
  | elasticRowEnd (c : CoreIx) (row : Fin 1024)
  | tierDeadline (c : CoreIx) (unit : Fin 11) (held : BitVec 32)
  | profileApply (n : PartIx) (index : Fin 16)
  | profileFieldWrite (n : PartIx)
  | profileApplyEnd (n : PartIx)
  -- memory (R193 to R221)
  | translationInvalidation (page : BitVec 30) (ctx : BitVec 12) (n : PartIx) (all : Bool)
  | invalidationDone
  | patrolScrub (r : LineRead) (again : Bool)
  | channelErrorWindowEnd (n : PartIx)
  | deviceTemperatureReadout (dev : Fin 32) (celsius : Nat)
  | frameGrant (n : PartIx) (tier : BitVec 2) (tenant : Byte) (frame : BitVec 21)
  | frameRevoke (n : PartIx) (tier : BitVec 2) (tenant : Byte)
  | frameReturn (n : PartIx) (tier : BitVec 2) (tenant : Byte) (frame : BitVec 21)
  | frameTake (n : PartIx) (tier : BitVec 2) (tenant : Byte)
  | migrationRequest (n : PartIx)
  | migrationCopy (n : PartIx) (page : BitVec 48)
  | migrationSwitch (n : PartIx) (page : BitVec 30)
  | migrationSourcePush (n : PartIx) (page : BitVec 30)
  -- the Chart (R222 to R259)
  | openChart
  | hintFlush
  | create (name : BitVec 43) (base : BitVec 31)
  | destroy (name : BitVec 43)
  | pin (name : BitVec 43)
  | unpin (name : BitVec 43)
  | restore (name : BitVec 43) (base : BitVec 31) (epoch : BitVec 16) (module : BitVec 12)
  | resolveKeep (name : BitVec 43)
  | resolveGone (name : BitVec 43)
  | pushSlot (n : PartIx) (tier : BitVec 2) (base : BitVec 31)
  | popSlot (n : PartIx) (tier : BitVec 2)
  | lookup (name : BitVec 43)
  | markLost (name : BitVec 43)
  | packetForward (p : Packet)
  | chartRequestSend (index : Nat)
  | chartRead (p : Packet)
  | chartWrite (p : Packet)
  | add32 (p : Packet)
  | chartSemWait (p : Packet)
  | chartSemAcquire (p : Packet)
  | semCancel (p : Packet)
  | chartSemAdd (p : Packet)
  | chartSemRelease (p : Packet)
  | parcelData (p : Packet)
  | collData (p : Packet)
  | chartReadData (p : Packet)
  | chartAck (p : Packet)
  | semResult (p : Packet)
  | chartNack (p : Packet)
  | ticketReq (p : Packet)
  | ticketOffer (p : Packet)
  | ticketAnswer (p : Packet)
  | commit (p : Packet)
  | prepared (p : Packet)
  | chartRelease (p : Packet)
  | releaseAck (p : Packet)
  | abort (p : Packet)
  | statusQuery (p : Packet)
  | statusAnswer (p : Packet)
  | pointerUpdate (p : Packet)
  | freed (p : Packet)
  | ticketDone (p : Packet)
  | landed (p : Packet)
  | dirAck (p : Packet)
  | collCtlAbort (p : Packet)
  | collCtlDone (p : Packet)
  | collCtlFinal (p : Packet)
  | ticketRingEntry
  | responseTimeout (index : Nat)
  | retryAfterExpiry (index : Nat)
  | directoryTimeout (index : Nat)
  | receivingTimeout (name : BitVec 43)
  | semHoldExpiry (index : Nat)
  | duplicateWindowExpiry
  | forwardLifetimeExpiry (name : BitVec 43)
  | promotionHoldExpiry (name : BitVec 43)
  -- links (R260 to R276)
  | frameReceive (l : LinkIx) (f : RxFrame)
  | replayTimeout (l : LinkIx)
  | identityWord (l : LinkIx) (w : Identity)
  | trainingComplete (d : Trained)
  | trainingFailure (l : LinkIx) (how : TrainFail)
  | backoffEnd (l : LinkIx)
  | warmWindowExpiry (l : LinkIx)
  | lossOfSignal (l : LinkIx) (lanes : BitVec 9)
  | thresholdWindowEnd (l : LinkIx)
  | spareReq (l : LinkIx) (lane : BitVec 4)
  | spareDone (l : LinkIx) (lane : BitVec 4)
  | halfReq (l : LinkIx)
  | spareSwitch (l : LinkIx)
  | shadowRotation (l : LinkIx)
  | portDisable (l : LinkIx)
  | portEnable (l : LinkIx)
  | portRetrain (l : LinkIx)
  | laneRetire (l : LinkIx) (lane : BitVec 4)
  -- the Ferrule link (R277 to R295)
  | attach
  | cacheFlush
  | flushComplete
  | doorbell (k : CtxIx)
  | mrd (m : FMsg)
  | mwr (m : FMsg)
  | gntS (m : FMsg)
  | gntE (m : FMsg)
  | rdData (m : FMsg)
  | snpInv (m : FMsg)
  | snpShared (m : FMsg)
  | cmp (m : FMsg)
  | ferruleNack (m : FMsg)
  | ferruleTimeout (index : Nat)
  | companionLoss
  -- weights (R296 to R314)
  | modelLoad (m : Byte)
  | modelReplace (m : Byte)
  | modelStop (m : Byte)
  | modelResume (m : Byte)
  | modelEvict (m : Byte)
  | modelRelease (m : Byte)
  | modelPlacement (m : Byte)
  | shardArrival (m : Byte) (shard : BitVec 16)
  | shardPoll (m : Byte) (shard : Option (BitVec 16))
  | shardTimeout (m : Byte)
  | shardConversion (m : Byte) (shard : BitVec 16)
  | loadCompletion (m : Byte)
  | drainDeadline (m : Byte)
  | streamStart (m : Byte)
  | streamShardCopy (m : Byte)
  | sealSweep
  -- errors, resets and health (R315 to R339)
  | coalesceIntervalEnd (domain : BitVec 4) (code : BitVec 16)
  | errAck (domain : BitVec 4)
  | consumerWrite (v : BitVec 32)
  | unitReset (c : CoreIx) (unit : BitVec 4)
  | unitResetEnd
  | resetStepLate (level : BitVec 3) (step : BitVec 4) (target : BitVec 4)
  | partitionReset (n : PartIx) (retain trace : Bool)
  | partitionResetEnd (n : PartIx) (failedTraining : List (Bool × Fin 32))
  | chipReset (trace : Bool)
  | aclkLockLost
  | traceSlotRelease (k : Fin 2)
  | healthWindowEnd (n : PartIx)
  | probation (n : PartIx)
  | resetState (n : PartIx)
  | jobWrite (v : Word)
  | stateLost
  -- boot and attestation (R340 to R362)
  | bootRomStart (errA errB : Bool)
  | vellumTest (failing : List (Fin 2048 × BitVec 16))
  | memoryPreparation (failedTraining : List (PartIx × Bool × Fin 32))
  | shellInit (slotId : BitVec 6)
  | start (bad : List (BitVec 13))
  | attestationRequest
  | reportReady (burned : Bool)
  -- Onaut (R363 to R370)
  | onautId (seq : BitVec 16)
  | onautStatus (seq : BitVec 16)
  | challenge (seq : BitVec 16) (q : BitVec 2)
  | token (seq : BitVec 16) (j : BitVec 5) (data : Word)
  | unlock (seq : BitVec 16)
  | unlockVerified
  | unlockBackoffEnd
  | lock (seq : BitVec 16)
  | poll (seq : BitVec 16)
  | onautRead (seq : BitVec 16) (size8 : Bool) (at_ : Word)
  | onautWrite (seq : BitVec 16) (size8 : Bool) (at_ data : Word)
  | onautHalt (seq : BitVec 16) (cores : BitVec 16)
  | coreHalted (c : CoreIx)
  | onautResume (seq : BitVec 16) (cores : BitVec 16)
  | step (seq : BitVec 16) (c : CoreIx)
  | bpSet (seq : BitVec 16) (c : CoreIx) (slot : Fin 4) (v : Word)
  | bpClear (seq : BitVec 16) (c : CoreIx) (slot : Fin 4)
  -- the management bus (R371 to R374)
  | entdaa (addr : BitVec 7)
  | setdasa (addr : BitVec 7)
  | rstdaa
  | enec
  | disec
  | getpid
  | getbcr
  | getdcr
  | getstatus
  | getmrl
  | privateWrite (off : Byte) (bytes : List Byte)
  | privateRead (count : Nat)
  | offNotice
  | trayReq (code : BitVec 2)
  -- further events of the table
  | preparedTimeout (name : BitVec 43)
  | dryPageReturn (n : PartIx)
  | modelFramePush (m : Byte)
  | onautBadRequest (edges : Nat) (cut : Option (Fin 128)) (body : BitVec 160) (crc : BitVec 32)
deriving DecidableEq, Repr

end Sys2Proof
end

