-- ==== Sys2Proof/Decode.lean ====
section
/-! DEFINITION. Decode.lean: commands spelled by words. spec/opcode_table.json gives no row any bits ("fields" is empty in every row),
so no word spells a command (log entry 40). -/

namespace Sys2Proof

/-- The command that a word of the opcode table spells: none. -/
def decodeTableWord (_nbits _w : Nat) : Option Instr := none

end Sys2Proof
end

