-- ==== Sys2Proof/Config.lean ====
section
/-! DEFINITION. Config.lean: the free values. Each is a constant WITHOUT a body: nothing in Lean can evaluate it, so a
claim that mentions one holds whatever it is. `k` is the reading of State.free at which a fresh value is drawn. -/

namespace Sys2Proof.Config

/-- The code of exp that the row engine would return; Numerics.within2 keeps it within 2 ulp (R121; log entry 20). -/
opaque expF : BitVec 32 → BitVec 32
/-- The code of ln that the row engine would return; Numerics.within2 keeps it within 2 ulp (R121; log entry 20). -/
opaque lnF : BitVec 32 → BitVec 32
/-- The code of tanh that the row engine would return; Numerics.within2 keeps it within 2 ulp (R121; log entry 20). -/
opaque tanhF : BitVec 32 → BitVec 32
/-- The code of the logistic function that the row engine would return; Numerics.within2 keeps it within 2 ulp (R121; log entry 20). -/
opaque sigmoidF : BitVec 32 → BitVec 32
/-- The code of the reciprocal square root that the row engine would return; Numerics.within2 keeps it within 2 ulp (R121; log entry 20). -/
opaque rsqrtF : BitVec 32 → BitVec 32
/-- The sum of a row, taken lane by lane and then through a fixed tree the manual does not give (R121; log entry 21). -/
opaque rowSum : List (BitVec 32) → BitVec 32
/-- Whether a MOD_RESET_N pulse of 1 to 10 microseconds causes a chip reset (R23; log entry 22). -/
opaque shortPulseResets : Nat → Bool
/-- The BOOT_ID the shell draws at a chip reset (R269; log entry 23). -/
opaque bootId : Nat → BitVec 32
/-- A nonce the Onaut port draws (R364; log entry 23). -/
opaque onautNonce : Nat → List Byte
/-- The device's ECDSA signature of a message, by DEVICE_SECRET (R344, R358; log entry 24). -/
opaque ecdsaSign : Nat → Nat → List Byte → List Byte
/-- An LMS signature of a message at a leaf; its first two arguments name the key: DEVICE_SECRET and 0 the long-term key, 0 and its number a
per-boot key (R344, R357, R358; log entry 24). -/
opaque lmsSign : Nat → Nat → Nat → List Byte → List Byte
/-- The per-boot LMS public key drawn (R357; log entry 24). -/
opaque lmsKey : Nat → List Byte
/-- Factory bytes of the identity EEPROM that belong to one module: serial, dates, codes, identity (R35; log entry 4). -/
opaque eepromByte : Nat → Byte
/-- The I3C bus characteristics register (R371; log entry 11). -/
opaque i3cBcr : Byte
/-- The I3C device characteristics register (R371; log entry 11). -/
opaque i3cDcr : Byte
/-- The I3C target status word (R371; log entry 11). -/
opaque i3cStatus : Nat → BitVec 16
/-- A value whose result the manual leaves open, drawn from State.free (log entry 1). -/
opaque freeWord : Nat → Word
/-- The numbers that the firmware's remap table names failing lines by (R347; log entry 25). -/
opaque remapLines : List Byte → List Nat
/-- What a number reads as whose local offset is not backed (R194; log entry 165). -/
opaque noData : Nat → Nat
/-- The memory lines whose transfers meet an error in an aclk, and what they meet (R205 to R210; log entry 166). -/
opaque lineErrs : Nat → List LineErr
/-- The aclk in which the read of a bank's sampled line is answered, by tracing, bank and line (R329; log entry 98). -/
opaque bankDelay : Nat → Nat → Nat → Nat
/-- The aclk in which the read of a register is answered, by tracing and offset (R329; log entry 98). -/
opaque regDelay : Nat → Nat → Nat

end Sys2Proof.Config
end

