-- ==== Sys2Proof/Machine/State.lean ====
section
/-! DEFINITION. Machine/State.lean: the state of the module as plain data, its reset, and the reasons a step can stop. -/

namespace Sys2Proof.Machine

/-- Sparse data by key: pairs of key and value, keys strictly rising, a key not listed at its default. -/
abbrev Sparse (α : Type) := List (Nat × α)

/-- One field of a register (R6): byte offset of the register in register space, high bit, low bit, reset value. -/
structure Field where
  addr  : Nat
  hi    : Nat
  lo    : Nat
  reset : Nat
deriving DecidableEq, Repr

/-- The field type codes of R6. -/
inductive RegType where
  | rw | ro | w1c | rc | wo | lk | sh
deriving DecidableEq, Repr

/-- Whose register it is: the shell's, or each instance a partition's (R7, R49). -/
inductive Owner where
  | shell | part
deriving DecidableEq, Repr

/-- One field of a row of the register table. -/
structure FieldRow where
  name  : String
  type  : RegType
  hi    : Nat
  lo    : Nat
  reset : Nat
deriving DecidableEq, Repr

/-- One register of the register table: base, (stride, count) of each index, whether 64 bits wide, owner, fields. -/
structure RegRow where
  name   : String
  base   : Nat
  dims   : List (Nat × Nat)
  wide   : Bool
  owner  : Owner
  fields : List FieldRow
deriving DecidableEq, Repr

/-! ### Agents and power -/

/-- The read latch and the write hold of one agent: the register's offset and the half held (R11). -/
structure AgentSt where
  latch : Option (Nat × Nat) := none
  hold  : Option (Nat × Nat) := none
deriving DecidableEq, Repr

/-- Where the power sequence stands (R21 to R27). -/
inductive PowerPhase where
  /-- hot-swap switch open; `offTimer`: the minimum off time runs -/
  | off (offTimer : Bool)
  /-- rails coming up or up: the number of completed steps of R21; 7 is internal power good -/
  | up (steps : Nat)
  /-- thermal trip latched: only VBUS_12, VAUX_33 and VAUX_18 stay (R34) -/
  | tripped
deriving DecidableEq, Repr

/-- Pins, rails and the power controller (R16 to R34). -/
structure PowerSt where
  phase     : PowerPhase := .up 7
  pwrEn     : Bool := true
  modResetN : Bool := true
  prsntN    : Bool := false
  vinMv     : Nat := 48000
  /-- PWR_EN must have been low for the minimum off time before the next start (R19, R21). -/
  needLow   : Bool := false
  /-- PWR_EN has been low since the removal that set needLow. -/
  sawLow    : Bool := false
  overTime  : Nat := 0
  quietTime : Nat := 0
  prevP     : Nat := 0
  /-- the input power of the last 10,000 samples, newest first -/
  samples   : List Nat := []
  thermal   : Bool := false
  dieAlert  : Bool := false
  inlet     : Bool := false
  outletC   : Nat := 0
  shellC    : Nat := 0
  /-- the gate of each partition that acts in this aclk: a change acts from the aclk after it on (R29) -/
  gates     : List Nat := [16, 16, 16, 16]
  /-- STK.TIME from which the next power sample is taken (R28) -/
  sampleAt  : Nat := 0
  /-- aclk of the internal reset that are still to pass after internal power good (R22) -/
  hold      : Nat := 0
  /-- STK.TIME before which the boot ROM does not start (R22, R23, R332) -/
  bootAt    : Nat := 0
deriving DecidableEq, Repr

/-! ### Errors -/

/-- An error record (R316). -/
structure ErrRecord where
  seq       : Nat := 0
  code      : Nat
  domain    : Nat
  level     : Nat := 0
  nested    : Bool := false
  coalesced : Bool := false
  time      : Nat := 0
  boot      : Nat := 0
  count     : Nat := 1
  ctx       : Option Nat := none
  core      : Nat := 0
  unit      : Nat := 15
  cmdId     : Nat := 0
  opcode    : Nat := 0
  addr      : Nat := 0
  d0        : Nat := 0
  d1        : Nat := 0
deriving DecidableEq, Repr

/-- An open interval of R319: its pair, its end, the occurrences counted and the first of them. -/
structure RateIv where
  domain : Nat
  code   : Nat
  due    : Nat
  count  : Nat
  first  : Option ErrRecord
deriving DecidableEq, Repr

/-! ### Segments -/

/-- A wet page of a segment (R161): the dry frame it stands for, the leaf entry that names it, its tier, its frame, and
the lines filled. -/
structure WetPage where
  dry    : Nat
  leaf   : Nat
  tier   : Nat
  wet    : Nat
  filled : List Nat
deriving DecidableEq, Repr

/-- A command issued and not yet seen complete: its number in the segment, token, opcode and unit. -/
structure Work where
  id     : Nat
  token  : Nat
  opcode : Nat
  cmdId  : Nat
deriving DecidableEq, Repr

/-- Captures and counts of one scale table entry by a segment (R107). -/
structure Capture where
  entry     : Nat
  amax      : Nat := 0
  elements  : Nat := 0
  flushed   : Nat := 0
  subnormal : Nat := 0
  nan       : Nat := 0
  saturated : Nat := 0
  overflow  : Bool := false
deriving DecidableEq, Repr

/-- A semaphore add or release waiting for S (R160): local offset, addend (a release has none), object address. -/
structure SemOp where
  addr  : Nat
  delta : Option Nat
  obj   : Nat
deriving DecidableEq, Repr

/-- A lift in progress (R158): slot of C, slot of S, whether the flip at C is made, YIELD. -/
structure LiftSt where
  dueC    : Nat
  dueS    : Nat
  flipped : Bool
  yield   : Bool
  /-- the pen lift event itself (L seen, filling begun) -/
  begun   : Bool
  /-- this aclk is C: the flip lands at its end, unless a kill of the same aclk comes (R44, R158, R176) -/
  atC     : Bool := false
  /-- slot before which T1 or T2 lines remain to be filled (R158, R187) -/
  tierTo  : Nat := 0
deriving DecidableEq, Repr

/-- A SEM_WAIT or SEM_ACQUIRE outstanding: opcode, address, operand, condition, Chart flag, the aclk its latency ends, the command,
its place in the order of arrival, and whether its condition has been met, or its lease granted, since it issued (R166). -/
structure SemWaitSt where
  opcode : Nat
  addr   : Nat
  value  : Nat
  cond   : Nat
  chart  : Bool
  due    : Nat
  work   : Nat
  order  : Nat
  met    : Bool := false
deriving DecidableEq, Repr

/-- A remote read of a segment (R155, R171): the space read (1 the Chart, 2 companion memory), its tag, address and
length, whether it is sent, and its data and the offsets of its poisoned words once it has come. Until a request goes to the Chart
or as RD_NC, `tag` is 2^32 and more, a number of the segment's own, which no tag of a request equals (R240). -/
structure Piece where
  space : Nat
  tag   : Nat
  addr  : Nat
  len   : Nat
  sent  : Bool
  data  : Option (List Byte) := none
  bad   : List Nat := []
  /-- the command that reads it -/
  work  : Nat := 0
deriving DecidableEq, Repr

/-- A segment being run by a sequencer (R157). -/
structure Seg where
  ctx        : Nat
  row        : Nat
  hard       : Bool
  /-- the scheduled end of its row, once a stroke boundary has passed in its lift: the row is of the stroke before (R187) -/
  rowTo      : Option Nat := none
  /-- STK.TIME at the start of the segment -/
  start      : Nat
  head       : Nat
  nextId     : Nat := 0
  /-- command fetched and not yet issued: its object address and its 64 bytes -/
  fetched    : Option (Nat × List Byte) := none
  /-- the command behind a fetched MX_SCALES, which must be a MATMUL: MX_SCALES is refused at its issue where it is not (R152, R156) -/
  peek       : Option (Nat × List Byte) := none
  /-- slot before which the next command does not issue -/
  issueSlot  : Nat
  /-- slot in which the sequencer last saw commands complete, and those it waited for: what waited on one of them issues in a
  later slot (R147), and L of a lift that follows at once is that slot (R158) -/
  doneSlot   : Option Nat := none
  done       : List Work := []
  waitTail   : Bool := false
  /-- aclk of the next reading of TAIL (R146) -/
  pollAt     : Nat := 0
  mx         : Option (List Byte) := none
  mbTag      : Nat := 0
  mbDir      : Nat := 0
  mbSlot     : Option Nat := none
  skip       : Bool := false
  /-- MB_END has issued: the slot is freed at the lift (R128) -/
  mbEnd      : Bool := false
  work       : List Work := []
  /-- wet pages taken -/
  wet        : List WetPage := []
  /-- bytes of the stash control block that the segment has changed, by local offset (R128) -/
  overlay    : Sparse Byte := []
  /-- a stash control block in T3 as it is dry: Chart addresses and bytes, the latest first (R127) -/
  farBlock   : List (Nat × List Byte) := []
  captures   : List Capture := []
  /-- exponents latched (R106): entry and E -/
  expLatch   : List (Nat × Int) := []
  steps      : List Nat := []
  semOps     : List SemOp := []
  /-- acquisitions marked to the segment: address, Chart flag (R167) -/
  marked     : List (Nat × Bool) := []
  /-- SEM_WAIT and SEM_ACQUIRE commands outstanding, in order of issue (R166) -/
  semWait    : List SemWaitSt := []
  /-- descriptor latches: index, slot (R132) -/
  descLatch  : List (Nat × Nat) := []
  /-- gradient latches: index, buffer (R138) -/
  gradLatch  : List (Nat × Nat) := []
  /-- descriptors whose update dries at the lift, and whether a count of 0 was found (R139, R141) -/
  updates    : List (Nat × Bool) := []
  /-- gathers complete: descriptor, slot, tag, whether the slot becomes recto (R134) -/
  gathers    : List (Nat × Nat × Nat × Bool) := []
  /-- frames popped by STASH_PUT: leaf entry, tier, frame base (R216) -/
  puts       : List (Nat × Nat × Nat) := []
  /-- pages of STASH_FREE: leaf entry (R216) -/
  frees      : List Nat := []
  /-- a put was charged from the reserve (R130) -/
  reserve    : Bool := false
  stashTag   : Nat := 0
  /-- marginalia records written (R124) -/
  margs      : List Nat := []
  engUsed    : List Nat := []
  tierEvent  : Bool := false
  counted    : Bool := false
  lift       : Option LiftSt := none
  /-- strongest action that reached the segment from C + 1 to S (R177) -/
  action     : Option Nat := none
  /-- bytes charged to the outbound queue -/
  outq       : Nat := 0
  /-- core, GEN and page of each wet-conflict owner the segment holds for (R162) -/
  heldBy     : List (Nat × Nat × Nat) := []
  /-- a unit of the segment holds for a wet pool, or for queue space or a Chart credit (R164, R187) -/
  poolHold   : Bool := false
  /-- remote reads: T3 operands and COPY sources -/
  remote     : List Piece := []
  /-- index of the next request tag (R171) -/
  nextTag    : Nat := 0
  queueHold  : Bool := false
  /-- the command whose output a unit writes: its writes to T3 take its place in the order of issue (R165) -/
  writing    : Nat := 0
deriving DecidableEq, Repr

/-! ### Engines and the other units of a core -/

/-- A weight plane of an engine (R69): the fold position it was loaded for, weight codes in row order, block scales. -/
structure Plane where
  nb      : Nat
  kp      : Nat
  weights : List Nat
  scales  : List Nat
deriving DecidableEq, Repr

/-- An array operation dispatched to an engine: its command and MX_SCALES command, its operands as resolved, and how far
its fold has come. -/
structure MatOp where
  work     : Nat
  cmd      : List Byte
  mx       : List Byte
  ctx      : Nat
  bBase    : Nat
  bPitch   : Nat
  bScale   : Nat
  bScaleP  : Nat
  cBase    : Nat
  cPitch   : Nat
  nv       : Nat
  kv       : Nat
  /-- exponent applied to a sum to make it a true value, and the output exponent of C (R104) -/
  eIn      : Int
  eC       : Int
  chained  : Bool
  /-- slot of the engine start -/
  start    : Nat
  /-- open slots added to s_1 for the place of the first reads of A and B (R81) -/
  far      : Nat := 0
  started  : Bool := false
  /-- passes started -/
  j        : Nat := 0
  /-- plane loads completed -/
  loads    : Nat := 0
  /-- the K pass of each load, and of the pass that uses it, in order (R76, R77) -/
  kps      : List Nat := []
  /-- slots of s_1 and s_P, and m_P (R86) -/
  s1       : Nat := 0
  sP       : Nat := 0
  mP       : Nat := 0
  /-- t on the array's clock, once the last pass has started -/
  t        : Option Nat := none
deriving DecidableEq, Repr

/-- A plane being loaded (R69, R71): operation, plane, fold position, the pass start that released the plane, slots until its first
read returns, steps made (a row each, then scales), codes and scales read, and MXFP4 blocks found poisoned. -/
structure Loading where
  work    : Nat
  plane   : Nat
  nb      : Nat
  kp      : Nat
  rel     : Option Nat
  wait    : Nat
  row     : Nat := 0
  weights : List Nat := []
  scales  : List Nat := []
  dead    : List Nat := []
deriving DecidableEq, Repr

/-- A block of the transpose buffer (R67): operation, K pass, first of its 128 elements, and the stored rows read so far, each element
with whether it is poisoned. -/
structure TBlock where
  work : Nat
  kp   : Nat
  m    : Nat
  rows : List (List (Nat × Bool)) := []
deriving DecidableEq, Repr

/-- The pass being injected (R76): operation, K pass, first row, rows, first column, and whether it is the first and the last K
pass of its (chunk, plane) pair. -/
structure PassSt where
  work  : Nat
  kp    : Nat
  m0    : Nat
  rows  : Nat
  nb    : Nat
  first : Bool
  last  : Bool
deriving DecidableEq, Repr

/-- A row of A as the feeder has fetched it (R66, R90): its element codes, poisoned ones marked, its block scales, and whether one of
these is poisoned. -/
structure ARow where
  codes  : List (Nat × Bool)
  scales : List Byte
  bad    : Bool
deriving DecidableEq, Repr

/-- A row of sums on its way through the array and the drain (R74, R79): when the result of column 0 leaves the drain, on the array's
clock, column j following j later; its pass; its place in the chunk; its binary32 sums. -/
structure PipeRow where
  due  : Nat
  pass : PassSt
  i    : Nat
  sums : List Nat
deriving DecidableEq, Repr

/-- One engine: the running operation, the pending one, the planes, the drain store by row × 1024 + column, and the slot
before which it accepts no dispatch after a kill (R89). -/
structure Eng where
  run     : Option MatOp := none
  pend    : Option MatOp := none
  planes  : List (Option Plane) := [none, none]
  active  : Nat := 0
  store   : Sparse Nat := []
  ready   : Nat := 0
  /-- the array's clock: open slots in which the array has not held (R82) -/
  clk     : Nat := 0
  /-- the latest pass: its start on the array's clock, its rows, and the aclk since by which the next one is late (R82, R91);
  whether a pass has started since the engine was idle -/
  sj      : Nat := 0
  mj      : Nat := 0
  holds   : Nat := 0
  open_   : Bool := false
  pass    : Option PassSt := none
  /-- rows of the latest pass injected, whether the array holds in this slot, whether a late start is counted in it, and whether the
  start of the pass released a plane (R71, R82, R91) -/
  inj     : Nat := 0
  held    : Bool := false
  late    : Bool := false
  released : Bool := false
  loading : Option Loading := none
  /-- the two halves of the transpose buffer: the block being injected, the block being read (R67) -/
  tcur    : Option TBlock := none
  tnext   : Option TBlock := none
  /-- the first row of an operation, fetched during its first plane load: work number, row (R79) -/
  head    : Option (Nat × ARow) := none
  /-- rows on their way to the drain, oldest first -/
  pipe    : List PipeRow := []
  /-- operations whose t is reached and which the sequencer has not yet seen complete: work number, slot (R78) -/
  finish  : List (Nat × Nat) := []
deriving DecidableEq, Repr

/-- The row engine's operation (R119): command, parameter block, valid width, groups, due slot. -/
structure RowOp where
  work   : Nat
  cmd    : List Byte
  param  : List Byte
  dv     : Nat
  groups : Nat
  due    : Nat
deriving DecidableEq, Repr

/-- The update unit's operation (R139, R140). -/
structure UpdOp where
  work    : Nat
  cmd     : List Byte := []
  desc    : Nat
  sumsq   : Bool
  result  : Nat
  buf     : Nat
  started : Bool := false
  count   : Nat := 0
  hyper   : List Byte := []
  eFwd    : Int := 0
  eTr     : Int := 0
  due     : Nat := 0
deriving DecidableEq, Repr

/-- The mover's command: COPY (plain, fill, gather) or STASH_PUT. -/
structure MovOp where
  work    : Nat
  cmd     : List Byte
  started : Bool := false
  due     : Nat := 0
  /-- what a gather reads now: 0 the stamp before the data, 1 the data, 2 the stamp behind it; the first stamp, and the readings
  begun (R253) -/
  phase   : Nat := 0
  stamp   : Option (List Byte) := none
  tries   : Nat := 0
deriving DecidableEq, Repr

/-- A marginalia record of a core (R123). -/
structure MargRec where
  stat0 : Nat
  stat1 : Nat
  tag   : Nat
  op    : Nat
  wet   : Bool
deriving DecidableEq, Repr

/-- A translation cache entry (R198): context, object page, leaf entry's local offset, leaf entry. -/
structure TEntry where
  ctx  : Nat
  page : Nat
  leaf : Nat
  ent  : Nat
deriving DecidableEq, Repr

/-- A collective that the collective engine runs on a core's behalf: command number and descriptor address (R254). -/
structure CollWork where
  work : Nat
  id   : Nat
deriving DecidableEq, Repr

/-- A kill of a segment: its aclk, the cause recorded, and the segment as it stood (R177). -/
structure KillSt where
  time  : Nat
  cause : Nat
  seg   : Seg
  /-- its lateness has been recorded (R325) -/
  late  : Bool := false
deriving DecidableEq, Repr

/-- One core. -/
structure Core where
  /-- stroke table row running on the core -/
  row      : Option Nat := none
  /-- rows of this stroke that have started or been skipped on the core -/
  past     : List Nat := []
  seg      : Option Seg := none
  /-- context picked whose first command has not been fetched -/
  ctx      : Option Nat := none
  /-- contexts barred from the current row on this core (R176) -/
  barred   : List Nat := []
  /-- contexts that left the current row (R128, R130, YIELD) -/
  leftRow  : List Nat := []
  /-- the context that last left the core in this row left under R128 or R130 (R187) -/
  leftStash : Bool := false
  /-- contexts that wait on a wet-conflict owner after a kill with cause 3: context, owner's core, owner's GEN -/
  conflict : List (Nat × Nat × Nat) := []
  /-- aclk before which the sequencer does not issue after a kill (R169) -/
  canIssue : Nat := 0
  /-- slot before which the next pick does not happen (R158, R180) -/
  pickSlot : Nat := 0
  /-- aclk of the next pick of an idle core (R180) -/
  pickTime : Nat := 0
  /-- last context picked for each group (R180) -/
  ptr      : Sparse Nat := []
  engs     : Vector Eng 8 := Vector.replicate 8 {}
  rowEng   : Option RowOp := none
  upd      : Option UpdOp := none
  mover    : List MovOp := []
  coll     : Option CollWork := none
  marg     : Sparse MargRec := []
  tcache   : List TEntry := []
  /-- a unit reset in progress: the unit, the aclk of its start, and whether its lateness has been recorded (R325) -/
  unitReset : Option (Nat × Nat × Bool) := none
  /-- a single step is in progress: the command's number (R367) -/
  stepWork : Option Nat := none
  /-- the command that the last breakpoint stopped on may issue once (R368) -/
  bpPass   : Bool := false
  /-- the last kill on this core: further causes and actions of its aclk meet it (R177) -/
  killed   : Option KillSt := none
deriving DecidableEq, Repr

/-! ### Partitions -/

/-- What an outbound queue entry carries (R165); `bad`: offsets of poisoned words (R210). -/
inductive OutKind where
  | chartWrite (addr : Nat) (data : List Byte) (bad : List Nat)
  | chartAdd (addr : Nat) (words : List Nat)
  | semAdd (addr delta : Nat)
  | semRelease (addr : Nat)
  | wrNc (addr : Nat) (data : List Byte) (bad : List Nat)
  | notify (addr value : Nat) (intr : Bool)
deriving DecidableEq, Repr

/-- How far a queue entry has come. -/
inductive OutState where
  | wet | released | sent
deriving DecidableEq, Repr

/-- An outbound queue entry: number, issuing core, context, charge in bytes, state. -/
structure OutEntry where
  id     : Nat
  core   : Nat
  ctx    : Nat
  charge : Nat
  state  : OutState := .wet
  kind   : OutKind
  /-- place of its command in the segment's order of issue (R165) -/
  seq    : Nat := 0
  /-- tag once sent; for a cached companion write, the lines still to be merged (R281) -/
  tag    : Nat := 0
  left   : Nat := 0
deriving DecidableEq, Repr

/-- A change to a slot that waits for latches (R136): an update or a gather, with the frames still to flip. -/
structure Deferred where
  desc   : Nat
  slot   : Nat
  /-- gather's tag; none for an update -/
  tag    : Option Nat
  recto  : Bool
  pages  : List WetPage
  ctx    : Nat
  /-- a load's change to the old recto: its TAG becomes the one given, 0 (R308) -/
  clear  : Bool := false
deriving DecidableEq, Repr

/-- A migration in progress (R218): ring index, page's leaf entry, source and destination frame bases and tiers, and the
lines written by others during the copy. -/
structure MigPage where
  page     : Nat
  leaf     : Nat
  src      : Nat
  srcTier  : Nat
  dst      : Nat
  dstTier  : Nat
  copied   : Bool
  switched : Bool
  dirty    : List Nat
  tenant   : Nat
deriving DecidableEq, Repr

/-- The migration request being processed (R217, R218): ring index, context, first page, pages, destination tier, pages taken
up, pages moved, pages in copy, pages that wait for a wet page, end status. -/
structure Migration where
  index : Nat
  ctx   : Nat
  first : Nat
  pages : Nat
  dest  : Nat
  next  : Nat
  moved : Nat
  open_ : List MigPage
  wait  : List Nat
  fail  : Option Nat
deriving DecidableEq, Repr

/-- Errors of one GDDR7 or reserve channel in the window of R211. -/
structure ChanCount where
  ce    : Nat := 0
  ue    : Nat := 0
  retry : Nat := 0
deriving DecidableEq, Repr

/-- Health accumulators of a partition over a window (R334). -/
structure HealthAcc where
  ce : Nat := 0
  ue : Nat := 0
  rr : Nat := 0
  lf : Nat := 0
  th : Nat := 0
  ac : Nat := 0
  from_ : Nat := 0
deriving DecidableEq, Repr

/-- A profile apply in progress (R191): index, aclk of B1 once known, whether the timer ran, whether the fields are written. -/
structure Apply where
  index   : Nat
  b1      : Option Nat
  ran     : Bool
  written : Bool
deriving DecidableEq, Repr

/-- A power transition in progress (R51): the state left, target, the aclk it ends, the value recorded meanwhile. -/
structure PowTrans where
  from_  : Nat
  target : Nat
  due    : Nat
  rec_   : Option Nat
deriving DecidableEq, Repr

/-- One partition. -/
structure Part where
  trans    : Option PowTrans := none
  /-- held in reset: chip reset before START, or a partition reset (R50) -/
  inReset  : Bool := true
  /-- a partition reset in progress: retain mode, tracing, waiting for a transition to end -/
  resetRetain : Bool := false
  resetTrace  : Bool := false
  resetWait   : Bool := false
  /-- aclk at which the current step of the reset began; its tracing has been begun (R326) -/
  stepAt      : Nat := 0
  traced      : Bool := false
  /-- steps of the reset whose lateness has been recorded (R325) -/
  late     : List Nat := []
  /-- B of the latest boundary; the boundary window B to B + 63 is open -/
  bnd      : Nat := 0
  /-- aclk by which halts have moved the rows of this stroke (R366) -/
  shift    : Nat := 0
  window   : Bool := false
  /-- the timer stopped at this boundary; RUN was written 1 again in its window (R47) -/
  stopping : Bool := false
  restart  : Bool := false
  /-- the row store: the 16-byte rows loaded, and whether each is bad (R178, R179) -/
  rows     : List (List Byte × Bool) := []
  /-- pages of the wet pool of each tier in list order, by local offset / 64 KiB, and those of them that are free (R161,
  R220) -/
  pools    : List (List Nat) := [[], [], []]
  poolFree : List (List Nat) := [[], [], []]
  /-- dry frames that wait for older accesses to end: tier, frame (R159) -/
  dryWait  : List (Nat × Nat) := []
  /-- contexts that are paused and whose stash control block lies in T3: the 64 B of it that hold PAUSED, and their Chart address (R130) -/
  farPause : List (Nat × Nat × List Byte) := []
  /-- STK.TIME before which an idle aclk is not counted: the aclk of step 9 of a reset (R187, R326) -/
  idleFrom : Nat := 0
  /-- frames of STASH_FREE and migrations that wait likewise: tenant, tier, frame (R216) -/
  pushWait : List (Nat × Nat × Nat) := []
  /-- contexts not started again in this stroke (R130) -/
  noStart  : List Nat := []
  outqOk   : Bool := false
  outq     : List OutEntry := []
  outqNext : Nat := 0
  /-- a write of the queue failed and the queue has not been empty since: Chart, companion (R238, R287) -/
  failChart : Bool := false
  failFrl  : Bool := false
  failFirst : Nat := 0
  failCount : Nat := 0
  deferred : List Deferred := []
  mig      : Option Migration := none
  apply_   : Option Apply := none
  chans1   : Sparse ChanCount := []
  chans2   : Sparse ChanCount := []
  chanDue  : Nat := 0
  /-- why channels were marked: tier × 32 + channel, reason (R211, R320) -/
  reasons  : Sparse Nat := []
  health   : HealthAcc := {}
  /-- refresh interval halved: one bit for each of the partition's devices (R206) -/
  hot      : Nat := 0
deriving DecidableEq, Repr

/-! ### The Ferrule link -/

/-- States of a device cache line (R282). -/
inductive CacheState where
  | s | e | m | is_ | im | sm | mi | ei
deriving DecidableEq, Repr

/-- An access held on a cache line: a read for a piece of a COPY (core and tag), or a write at `off` within the line of an
outbound queue entry (partition and number). -/
structure HeldAcc where
  write : Bool
  part  : Nat
  core  : Nat
  tag   : Nat
  off   : Nat
  data  : List Byte
  /-- offsets, within the data, of poisoned words -/
  bad   : List Nat := []
deriving DecidableEq, Repr

/-- A device cache line: companion line address, state, data, poison mask, age, accesses held. -/
structure CacheLine where
  addr   : Nat
  st     : CacheState
  data   : List Byte
  poison : Nat
  used   : Nat
  held   : List HeldAcc
deriving DecidableEq, Repr

/-- What an outstanding module request is for (R285, R287). -/
inductive FKind where
  | fill | evict
  | rdNc (core piece : Nat)
  | queue (part id : Nat)
  | event
  | mirror
  | intr
  /-- a read of the weight agent: model entry, shard (65,536 the directory) -/
  | shard (model idx : Nat)
deriving DecidableEq, Repr

/-- A request of the module to the companion: its number, its tag once it is sent, whether it has been sent and when, and the INTR
vector that its CMP lets go (R285). -/
structure FReq where
  no   : Nat
  tag  : Nat
  op   : Nat
  addr : Nat
  part : Option Nat
  kind : FKind
  intr : Option Nat
  out  : Bool
  sent : Nat
  /-- its message was discarded unsent at DISABLE: it ends by its timeout (R271, R287) -/
  lost : Bool := false
deriving DecidableEq, Repr

/-- A message to the companion that has not left: the request that it is, by number, which is given its tag as it leaves; none for an
answer. -/
structure FOut where
  msg : FMsg
  req : Option Nat := none
deriving DecidableEq, Repr

/-- The Ferrule agent. -/
structure Ferrule where
  cache    : List CacheLine := []
  /-- accesses that wait: line address, access, and why: 0 a flush is under way, 1 no line of the set is stable, 2 a line of the set
  is being evicted for it (R280, R294) -/
  waitAcc  : List (Nat × HeldAcc × Nat) := []
  reqs     : List FReq := []
  /-- requests numbered so far -/
  nextTag  : Nat := 0
  /-- flits of room left at the companion for each class (R286) -/
  credits  : List Nat := [1024, 1024, 1024, 8192]
  /-- messages that wait for room or for a tracker -/
  waiting  : List FOut := []
  /-- WR_NC messages that wait for the eviction of a line (R281) -/
  parked   : List FOut := []
  /-- messages received, oldest first, that no command has taken yet -/
  rx       : List FMsg := []
  /-- flits freed here since the last control word, for each class -/
  freed    : List Nat := [0, 0, 0, 0]
  age      : Nat := 0
deriving DecidableEq, Repr

/-! ### The Chart (R222 to R259) -/

/-- STATE of a gazetteer entry (R225); FREE is an entry that is not listed. -/
inductive GazSt where
  | home | forward | receiving | prepared | inDoubt | lost
deriving DecidableEq, Repr

/-- A gazetteer entry (R225). `stored`: LOCAL_BASE is valid; `out`: the ticket in use is one of this home's outgoing slots;
`hold`: HOLD and HOLD_MODULE. -/
structure GazEntry where
  name   : Nat
  st     : GazSt
  origin : Bool
  pinned : Bool := false
  epoch  : Nat := 0
  module : Nat := 0
  base   : Nat := 0
  stored : Bool := false
  hold   : Option Nat := none
  ticket : Option Nat := none
  out    : Bool := false
  fallbackLost : Bool := false
  time   : Nat := 0
deriving DecidableEq, Repr

/-- Where a ticket stands at its home (R246). -/
inductive TickPhase where
  | offered | copying | frozen | forwarded
deriving DecidableEq, Repr

/-- An outgoing ticket slot (R245, R246): TICKET_ID, initiator, destination, KIND, the promoter queued with its TICKET_ID, the next
512-byte block of the copy, the 128-byte lines marked, and, for a change of tier at the home itself, the slot taken. -/
structure OutTicket where
  slot      : Nat
  name      : Nat
  id        : Nat
  initiator : Nat
  dst       : Nat
  dstPart   : Nat
  dstTier   : Nat
  kind      : Nat
  phase     : TickPhase := .offered
  promoter  : Option (Nat × Nat) := none
  next      : Nat := 0
  marked    : List Nat := []
  here      : Option Nat := none
deriving DecidableEq, Repr

/-- An incoming ticket slot (R247): TICKET_ID, source, the time of its last message, and the EPOCH of an origin pointer that
the entry was before. -/
structure InTicket where
  slot : Nat
  name : Nat
  id   : Nat
  src  : Nat
  last : Nat
  old  : Nat
deriving DecidableEq, Repr

/-- What an outstanding request is for. -/
inductive ReqKind where
  | read (core : Nat)
  | sem (core : Nat)
  | queue (part id : Nat)
  | cancel
  | parcel (slot block : Nat)
  | coll (core step ring off : Nat)
deriving DecidableEq, Repr

/-- An outstanding REQ or WRITE packet of this module (R231, R237): timeouts so far, REDIRECTs in this attempt, first and last
sending, the aclk of a resend that waits for RETRY_AFTER, and the last status (255 none). -/
structure CReq where
  pkt   : Packet
  kind  : ReqKind
  tries : Nat := 0
  hops  : Nat := 0
  first : Nat
  sent  : Nat
  again : Option Nat := none
  last  : Nat := 255
deriving DecidableEq, Repr

/-- What an outstanding DIR message is for. -/
inductive DirKind where
  | ring (index : Nat)
  | offer (slot : Nat)
  | commit (slot : Nat)
  | release (slot : Nat)
  | query (slot : Nat)
  | plain
deriving DecidableEq, Repr

/-- An outstanding DIR message of this module; `tagged`: it has been given its tag, and sent. -/
structure DirMsg where
  pkt   : Packet
  kind  : DirKind
  tagged : Bool := true
  tries : Nat := 0
  hops  : Nat := 0
  first : Nat
  sent  : Nat
  again : Option Nat := none
deriving DecidableEq, Repr

/-- A waiter of a semaphore homed here (R234): its packet, the aclk it joined, the semaphore's local offset, and its place in the
order in which requests, local ones among them, reached semaphores (R167). -/
structure Waiter where
  pkt   : Packet
  since : Nat
  at_   : Nat
  order : Nat
deriving DecidableEq, Repr

/-- A record of the duplicate filter (R239). -/
structure DupRec where
  src   : Nat
  part  : Nat
  nonce : Nat
  resp  : Packet
  due   : Nat
deriving DecidableEq, Repr

/-- A ticket ring entry in flight (R244): ring index, TICKET_ID, whether it waits for LANDED, its end once final. -/
structure RingEnt where
  index : Nat
  id    : Nat
  wait  : Bool := false
  final : Bool := false
deriving DecidableEq, Repr

/-- A collective that runs on a core's behalf (R254 to R256): the command, the descriptor, the attempt, for each ring the step and
offset of the next piece to send, the pieces that have arrived (step, ring, offset), pieces sent and not acknowledged, and how
far DONE and FINAL have come. -/
structure CollRun where
  core    : Nat
  work    : Nat
  ctx     : Nat
  op      : Nat
  id      : Nat
  rank    : Nat
  members : Nat
  next    : Nat
  prev    : Nat
  buffer  : Nat
  chunk   : Nat
  attempt : Nat
  sent    : List (Nat × Nat) := [(0, 0), (0, 0)]
  got     : List (Nat × Nat × Nat) := []
  unacked : Nat := 0
  done_   : Bool := false
  passed  : Bool := false
  fin     : Bool := false
deriving DecidableEq, Repr

/-- A collective's record (R256): COLL_ID, attempt, whether FINAL has passed, and its ring neighbours once known. -/
structure CollRec where
  id      : Nat
  attempt : Nat
  fin     : Bool := false
  next    : Option Nat := none
  prev    : Option Nat := none
deriving DecidableEq, Repr

/-- The Chart agent of the shell. -/
structure ChartSt where
  gaz       : List GazEntry := []
  /-- the hint cache, most recently used first: name, home, epoch (R228) -/
  hints     : List (Nat × Nat × Nat) := []
  reqs      : List CReq := []
  dirs      : List DirMsg := []
  /-- Chart leases that contexts of this module hold across a lift: context, address (R167, R168) -/
  leases    : List (Nat × Nat) := []
  /-- acquisitions of this module that it has granted as their home: TAG, whether an expired lease was taken, whether the asker's own was
  extended (R167, R168) -/
  grants    : List (Nat × Bool × Bool) := []
  /-- the index at which the search for the next tag's index begins -/
  tagNo     : Nat := 0
  /-- indices freed by cancellation or failure: unit, index, and the aclk until which they are not used again (R240) -/
  aside     : List (Nat × Nat × Nat) := []
  /-- NONCE of each partition's next request (log entry 8) -/
  nonces    : List Nat := [0, 0, 0, 0]
  waiters   : List Waiter := []
  dups      : List DupRec := []
  outT      : List OutTicket := []
  inT       : List InTicket := []
  /-- TICKET_IDs of the last 64 completed incoming tickets, newest first (R247) -/
  doneIn    : List Nat := []
  ring      : List RingEnt := []
  /-- ring entries taken since HEAD -/
  taken     : Nat := 0
  ticketNo  : Nat := 0
  runs      : List CollRun := []
  /-- records of collectives, oldest first (R256) -/
  recs      : List CollRec := []
  /-- ABORTs to be sent: COLL_ID, attempt, module, partition (R256 rule 4) -/
  aborts    : List (Nat × Nat × Nat × Nat) := []
  /-- packets that have left: the port, none for a packet to this module, which loops back -/
  tx        : List (Option Nat × Packet) := []
deriving DecidableEq, Repr

/-! ### Links (R260 to R276) -/

/-- A frame in the replay buffer (R267): its SEQ, how often it was replayed, the bytes of its flits, its credit fields, which a replay
repeats (R266), and how many packets or messages end in it. -/
structure TxFrame where
  seq     : Nat
  replays : Nat := 0
  flits   : List Byte
  credit  : List Nat
  ends    : Nat
deriving DecidableEq, Repr

/-- What a transmitter has put on its lanes: a codeword by its header, its 640 bytes and the symbols on each physical lane (R264, R265),
or the identity word of a training (R269). -/
inductive WireOut where
  | word (header : Nat) (body : List Byte) (lanes : List (List Nat))
  | ident (w : Identity)
deriving DecidableEq, Repr

/-- A sparing in progress in the receive direction (R273): physical lane, logical lane, the aclk the spare is locked once
SHADOW has been seen. -/
structure Sparing where
  phys    : Nat
  logical : Nat
  lock    : Option Nat := none
deriving DecidableEq, Repr

/-- One link: a Graticule port, or the Ferrule port. -/
structure LinkSt where
  released  : Bool := false
  /-- k of R271 -/
  k         : Nat := 0
  /-- aclk at which the port left UP -/
  leftUp    : Option Nat := none
  /-- end of a backoff -/
  backoff   : Option Nat := none
  /-- the identity word of step 7 has come and agreed; whether the training is warm -/
  ident     : Option Bool := none
  /-- this end's identity word has gone out in this training -/
  identSent : Bool := false
  /-- BOOT_ID and module of the peer: of the last identity word that agreed, and of the last training that completed (R270) -/
  met       : Option (Nat × Nat) := none
  peer      : Option (Nat × Nat) := none
  /-- SEQ of the last frame sent, ACK_SEQ of the last frame received good and in order (log entry 9) -/
  seqTx     : Nat := 0
  ackRx     : Nat := 0
  /-- frames are discarded until a replay of ACK_SEQ + 1 comes -/
  awaiting  : Bool := false
  /-- the replay buffer -/
  buf       : List TxFrame := []
  lastAck   : Nat := 0
  credits   : List Nat := List.replicate 16 1024
  /-- packets that wait to be sent, and the port whose receiver holds each, none for one of this module (R241) -/
  waiting   : List (Packet × Option Nat) := []
  /-- the frame being filled: the bytes of its flits, and how many packets or messages end in it -/
  open_     : List Byte := []
  ends      : Nat := 0
  /-- the next control word carries NAK; it has something to say -/
  nak       : Bool := false
  news      : Bool := false
  /-- units freed since the last control word, for each pool (R266) -/
  freed     : List Nat := List.replicate 16 0
  /-- the part received of the next packet or message, and the packets received whole, oldest first, that no command has taken yet -/
  part      : List Byte := []
  rx        : List Packet := []
  /-- codewords sent since the last one with MARKER, and what this end has put on its lanes, oldest first -/
  words     : Nat := 0
  wire      : List WireOut := []
  /-- logical lanes to physical lanes and the spare lane, transmit direction -/
  txLanes   : List Nat := []
  txSpare   : Option Nat := none
  /-- logical lanes to physical lanes, receive direction; the spare lane -/
  lanes     : List Nat := []
  spare     : Option Nat := none
  spareUsed : Bool := false
  /-- physical lanes that this end's transmitter no longer drives (R273) -/
  quiet     : List Nat := []
  sparing   : Option Sparing := none
  /-- further lanes that wait for SPARE_DONE, and the row of R272 each passed (R274) -/
  heldLanes : List (Nat × Nat) := []
  /-- SHADOW of this end's transmitter; held since a SPARE_REQ -/
  shadowTx  : Nat := 15
  shadowHeld : Bool := false
  rotateAt  : Nat := 0
  /-- end of the window; corrected symbols of each lane and bad frames in it -/
  windowEnd : Nat := 0
  laneErr   : List Nat := List.replicate 9 0
  badFrames : Nat := 0
  /-- the window has passed UCW_LIMIT and a lane was retired for it -/
  ucwOver   : Bool := false
  /-- lane operation that the next control word carries, and its lane -/
  laneOp    : LaneOp := .none
  laneArg   : Nat := 0
deriving DecidableEq, Repr

/-! ### The whole module -/

/-! ### The management bus -/

/-- The management bus target (R371, R372): dynamic address, IBIs enabled by ENEC, an IBI sent for the causes that stand,
the register offset. -/
structure MgtSt where
  addr    : Option (BitVec 7) := none
  ibiOn   : Bool := false
  ibiSent : Bool := false
  off     : Nat := 0
  /-- a power-off notice waits for its flush: the aclk at which it waits no more (R373) -/
  notice  : Option Nat := none
deriving DecidableEq, Repr

/-- What the management bus carries to the tray controller. -/
inductive I3cMsg where
  /-- an In-Band Interrupt and its mandatory byte (R372) -/
  | ibi (data : Byte)
  /-- the bytes of a private read, of a CCC or of the identity EEPROM -/
  | data (bytes : List Byte)
deriving DecidableEq, Repr

/-! ### Weights (R296 to R314) -/

/-- What a read of the weight agent reads. -/
inductive WtsWhat where
  | dirHeader | dirEntries | entry | header | shard
deriving DecidableEq, Repr

/-- A read of the weight agent from companion memory (R304): model entry, shard (65,536 the directory), range, the data that has
come, whether a poisoned word came, the pieces to be asked for again, and when. -/
structure WtsRead where
  model : Nat
  idx   : Nat
  what  : WtsWhat
  base  : Nat
  len   : Nat
  got   : List (Nat × List Byte) := []
  bad   : Bool := false
  again : List (Nat × Nat) := []
  poll  : Option Nat := none
  /-- tags of the requests that have brought its data (R277) -/
  tags  : List Nat := []
  /-- of a shard: what lies behind its header and is not asked for yet, and the stage pages it has taken (R307) -/
  rest  : Option (Nat × Nat) := none
  stage : List Nat := []
deriving DecidableEq, Repr

/-- A shard of a load in its place: what its record will say (R300), and the slot of a descriptor shard. -/
structure Landed where
  idx    : Nat
  dest   : Nat
  length : Nat
  tier   : Nat
  desc   : Bool
  tag    : Nat
  digest : List Byte
  slot   : Nat
deriving DecidableEq, Repr

/-- A load in progress (R301 to R308): model entry, its start, the directory once read, headers read for placing, whether it is
placed, the one shard of a repair, frames popped (shard, tier, frames), shards moved to T2, shards landed, and SHARD_COUNT of the
version being replaced. -/
structure LoadSt where
  model    : Nat
  start    : Nat
  count    : Nat := 0
  dirBad   : Bool := false
  entries  : List (List Byte) := []
  heads    : List (Nat × List Byte) := []
  placed   : Bool := false
  only     : Option Nat := none
  frames   : List (Nat × Nat × List Nat) := []
  streamed : List Nat := []
  landed   : List Landed := []
  oldCount : Nat := 0
deriving DecidableEq, Repr

/-- A RAW shard in the stage of its partition, waiting for the conversion unit or in it (R307): header, stage pages, data length,
end of the conversion. -/
structure Conv where
  model  : Nat
  idx    : Nat
  part   : Nat
  header : List Byte
  pages  : List Nat
  len    : Nat
  due    : Nat
deriving DecidableEq, Repr

/-- A drain (R309): model entry, deadline, the marks of the group's contexts, the shard to be repaired. -/
structure DrainSt where
  model  : Nat
  due    : Nat
  marks  : List (Nat × Nat)
  repair : Option Nat
  /-- contexts whose lift was past C at the deadline: they are rejected once held -/
  late   : List Nat := []
deriving DecidableEq, Repr

/-- The streaming of a model in one stroke (R311): its boundary, the STREAMED shards, whether it has started, how many are done. -/
structure StreamSt where
  model : Nat
  bnd   : Nat
  list  : List Nat
  on    : Bool := false
  j     : Nat := 0
deriving DecidableEq, Repr

/-- The weight agent. -/
structure WtsSt where
  /-- the model table, by offset from 8000h of the WTS block (R299) -/
  table   : Sparse Byte := []
  loads   : List LoadSt := []
  reads   : List WtsRead := []
  /-- reads of directories and headers that have been used, of loads not yet placed (R277) -/
  past    : List WtsRead := []
  convs   : List Conv := []
  drains  : List DrainSt := []
  /-- descriptor slots that resident models loaded: model entry, shard, descriptor, slot -/
  slots   : List (Nat × Nat × Nat × Nat) := []
  /-- frames that wait for older accesses to end: model entry, partition, tenant, tier, frame (R303, R308) -/
  pushes  : List (Nat × Nat × Nat × Nat × Nat) := []
  /-- shards queued for a sweep: model entry, shard (R312) -/
  sweeps  : List (Nat × Nat) := []
  streams : List StreamSt := []
  /-- models whose group resumes when their partition leaves reset (R313) -/
  resume  : List Nat := []
deriving DecidableEq, Repr

/-! ### Boot and attestation (R340 to R362) -/

/-- The security and boot engine: whether this boot follows a power-up, SHELL_INIT is over, boot has stopped for good, what the
accepted image and its device gave, and the keys and counts of attestation. -/
structure BootSt where
  powerUp  : Bool := true
  /-- the chip reset before this boot kept memory (R332) -/
  retained : Bool := false
  shellOk  : Bool := false
  /-- boot stopped (R346, R349, R36), until a chip reset -/
  stopped  : Bool := false
  /-- CONFIG as read, and the remap and seeds sections as loaded, empty if ignored (R347, R349) -/
  config   : List Byte := []
  remap    : List Byte := []
  seeds    : List Byte := []
  /-- D of R345 -/
  digest   : List Byte := []
  /-- LK_DIGEST of R358 -/
  lk       : List Byte := []
  /-- spare lines taken in this boot: module bank and count (R204, R348) -/
  spares   : Sparse Nat := []
  /-- the nonce of the request that runs -/
  nonce    : List Byte := []
  /-- long-term block reserved in this boot and its next leaf (R357) -/
  block    : Option Nat := none
  leaf     : Nat := 0
  /-- the per-boot key drawn, its certificate, the leaf that certified it, and its next leaf -/
  key      : Option Nat := none
  cert     : List Byte := []
  ltLeaf   : Nat := 0
  h10Leaf  : Nat := 0
  seq      : Nat := 0
  /-- the last report produced -/
  report   : List Byte := []
  /-- a chip reset waits for its flush: the aclk at which it waits no more (R293) -/
  resetDue : Option Nat := none
  /-- a chip reset under way: its tracing still to be begun; it has come to step 2; the aclk at which its step, or the boot's, began (R332) -/
  chipTrace : Bool := false
  chipStop  : Bool := false
  stepAt    : Nat := 0
  /-- steps of the chip reset whose lateness has been recorded (R325) -/
  late     : List Nat := []
deriving DecidableEq, Repr

/-! ### The Onaut port (R363 to R370) -/

/-- A response of the Onaut port (R363): STATUS, OP, SEQ, DATA. -/
structure OnautResp where
  status : Nat
  op     : Nat
  seq    : Nat
  data   : Nat
deriving DecidableEq, Repr

/-- The Onaut port: the nonce drawn since the last UNLOCK, the last nonce drawn, the token, the kept request (R364), the unlocks
being verified (SEQ, nonce, token), the aclk at which backoff ends, and the response frames sent, oldest first. -/
structure OnautSt where
  nonce  : Option (List Byte) := none
  drawn  : List Byte := []
  token  : List Byte := List.replicate 200 0
  kept   : Option OnautResp := none
  verify : List (Nat × List Byte × List Byte) := []
  due    : Nat := 0
  tx     : List (List Byte) := []
  /-- responses abandoned: which of them, and how many of its bits had been driven (R363) -/
  cuts   : List (Nat × Nat) := []
deriving DecidableEq, Repr

/-- A tracing being taken (R329, R330): its partitions, whether it is of the chip, its slot, STK.TIME and ERR.PRODUCER at its start. -/
structure TraceSt where
  parts : List PartIx
  chip  : Bool
  slot  : Nat
  start : Nat
  seq   : Nat
deriving DecidableEq, Repr

/-- The state of the module. -/
structure State where
  /-- commands waiting, first in, first out -/
  pending   : List Instr := []
  /-- STK.TIME: aclk since the release of the last chip reset (R40) -/
  time      : Nat := 0
  /-- open slots that each partition has had (R41); the model's own count (log entry 5) -/
  slots     : Vector Nat 4 := Vector.replicate 4 0
  /-- reading of the model's counter of free values (log entry 1) -/
  free      : Nat := 0
  /-- register fields that differ from their reset values, by Field.key -/
  regs      : Sparse Nat := []
  /-- values in force of SH fields, by Field.key (R6, R7) -/
  force     : Sparse Nat := []
  /-- SH fields written and not yet in force: key, partition (4 the shell) (R7) -/
  shPend    : List (Nat × Nat) := []
  /-- events of this aclk by Field.key: the bits set in a W1C field (R8), the count added to an RC field (R9) -/
  noted     : Sparse Nat := []
  /-- an RC field before the first event of this aclk, or as it was cleared to in it, by Field.key (R9) -/
  before    : Sparse Nat := []
  /-- the strongest action that has reached each context in this aclk (R177) -/
  acts      : List (Nat × Nat) := []
  /-- cores whose segment a kill has ended in this aclk, each as it stood before (R177) -/
  fallen    : List (Nat × Core) := []
  /-- LK registers that the firmware's writes of this aclk have changed before the start, the latest first: offset and value before (R352) -/
  lkNow     : List (Nat × Nat) := []
  agents    : Vector AgentSt 4 := Vector.replicate 4 {}
  power     : PowerSt := {}
  eeprom    : Sparse Byte := []
  /-- local memory by local offset (R193) -/
  mem       : Sparse Byte := []
  /-- stored syndrome of each 32-bit word by local offset / 4: 0 good, 7Fh poisoned (R205) -/
  synd      : Sparse (BitVec 7) := []
  /-- the lines whose transfers meet an error in this aclk; the model's own, drawn free (R205 to R210; log entry 166) -/
  lineErrs  : List LineErr := []
  parts     : Vector Part 4 := Vector.replicate 4 {}
  cores     : Vector Core 16 := Vector.replicate 16 {}
  /-- the error ring, newest first (R317) -/
  errs      : List ErrRecord := []
  /-- records of this aclk with their base levels, not yet in the ring: its end puts them in order (R318) -/
  newErrs   : List (ErrRecord × Nat) := []
  rates     : List RateIv := []
  ferrule   : Ferrule := {}
  /-- messages sent to the companion, oldest first -/
  ferruleTx : List FMsg := []
  /-- cancels of Chart acquisitions to be sent: core, context, semaphore address (R168) -/
  cancels   : List (Nat × Nat × Nat) := []
  /-- the profile store: profile records with their rows (R190) -/
  profiles  : List (List Byte) := []
  wts       : WtsSt := {}
  /-- local offset of the line that the patrol scrubber reads next (R213) -/
  scrub     : Nat := 0
  mgt       : MgtSt := {}
  /-- what the management bus has carried to the tray controller, oldest first -/
  i3cTx     : List I3cMsg := []
  chart     : ChartSt := {}
  links     : Vector LinkSt 11 := Vector.replicate 11 {}
  /-- chip resets so far: names the BOOT_ID of this boot (R269; log entry 23) -/
  bootIx    : Nat := 0
  boot      : BootSt := {}
  onaut     : OnautSt := {}
  /-- boot flash devices 0 and 1, by flash offset; an unlisted byte reads FFh (R12, R340; log entry 10) -/
  flashA    : Sparse Byte := []
  flashB    : Sparse Byte := []
  /-- the fuse array as a number (R344; log entry 10) -/
  fuses     : Nat := 0
  /-- the tracings in the two slots of the tracing store (R331) -/
  trace0    : List Byte := []
  trace1    : List Byte := []
  /-- the tracing that is being taken (R329) -/
  tracer    : Option TraceSt := none
  /-- the bytes of the CAP block (R359, R362) -/
  cap       : List Byte := []
deriving DecidableEq, Repr

/-- Why a step can fault. No command of this model faults: every row of the table has an effect. -/
inductive Fault where
  /-- raised by nothing; kept so that the type is inhabited. Safe: it stops the model where the part would go on. -/
  | unused
deriving DecidableEq, Repr

/-- Why a step can be refused. -/
inductive Refusal where
  /-- the command has no meaning in the model yet. Raised by an arm of exec only. Safe. -/
  | notModelled (mnemonic : String)
deriving DecidableEq, Repr

/-- The outcome of a command. -/
abbrev Out := Host.Outcome State Fault Refusal

/-- The module at the release of the chip reset that follows power-up (R22): powered, every register at its reset value,
time 0, nothing queued. -/
def State.reset : State := {}

end Sys2Proof.Machine
end

