-- ==== Sys2Proof/Machine/Bits.lean ====
section
/-! DEFINITION. Machine/Bits.lean: sparse maps, bit fields of numbers, little-endian byte strings (R5), CRC-32. -/

namespace Sys2Proof.Machine

/-! ### Sparse maps -/

/-- The value listed for a key. -/
def Sparse.find? {α : Type} : Sparse α → Nat → Option α
  | [], _ => none
  | (k, v) :: r, a => if k = a then some v else Sparse.find? r a

/-- The value at a key, `d` where the key is not listed. -/
def Sparse.get {α : Type} (m : Sparse α) (a : Nat) (d : α) : α := (Sparse.find? m a).getD d

/-- List a key with a value, in key order. -/
def Sparse.insert {α : Type} : Sparse α → Nat → α → Sparse α
  | [], a, v => [(a, v)]
  | (k, w) :: r, a, v =>
    if a < k then (a, v) :: (k, w) :: r
    else if a = k then (a, v) :: r
    else (k, w) :: Sparse.insert r a v

/-- Take a key off the list. -/
def Sparse.erase {α : Type} (m : Sparse α) (a : Nat) : Sparse α := m.filter (fun p => p.1 != a)

/-- Store a value at a key whose unlisted value is `d`: writing `d` takes the key off the list. -/
def Sparse.set {α : Type} [DecidableEq α] (m : Sparse α) (a : Nat) (v d : α) : Sparse α :=
  if v = d then m.erase a else m.insert a v

/-- Take off the list every key from `lo` up to but not including `hi`. -/
def Sparse.eraseRange {α : Type} (m : Sparse α) (lo hi : Nat) : Sparse α :=
  m.filter (fun p => !(decide (lo ≤ p.1) && decide (p.1 < hi)))

/-- Keys strictly rising. -/
def Sparse.rising {α : Type} : Sparse α → Bool
  | [] => true
  | [_] => true
  | (a, _) :: (b, w) :: r => decide (a < b) && Sparse.rising ((b, w) :: r)

/-- The canonical form: keys strictly rising and no value equal to the unlisted one. -/
def Sparse.wf {α : Type} [DecidableEq α] (m : Sparse α) (d : α) : Bool :=
  Sparse.rising m && m.all (fun p => !decide (p.2 = d))

/-! ### Bit fields of numbers -/

/-- Bits [hi:lo] of a number (R5). -/
def bits (w hi lo : Nat) : Nat := (w / 2 ^ lo) % 2 ^ (hi + 1 - lo)

/-- One bit of a number. -/
def bit (w i : Nat) : Bool := bits w i i == 1

/-- 1 for true. -/
def b2n (b : Bool) : Nat := if b then 1 else 0

/-- x with bits [hi:lo] replaced. -/
def putBits (w hi lo v : Nat) : Nat :=
  w % 2 ^ lo + (v % 2 ^ (hi + 1 - lo)) * 2 ^ lo + (w / 2 ^ (hi + 1)) * 2 ^ (hi + 1)

/-- Whether bits [hi:lo] of w are all zero. -/
def zeroBits (w hi lo : Nat) : Bool := bits w hi lo == 0

/-- a divided by b, rounded up. -/
def ceilDiv (a b : Nat) : Nat := (a + b - 1) / b

/-- v held between lo and hi. -/
def clamp (lo hi v : Nat) : Nat := if v < lo then lo else if hi < v then hi else v

/-- A count that stops at `top`. -/
def satAdd (v k top : Nat) : Nat := if v + k < top then v + k else top

/-! ### Little-endian byte strings -/

/-- The number that bytes spell, the least significant first (R5). -/
def leNat : List Byte → Nat
  | [] => 0
  | b :: r => b.toNat + 256 * leNat r

/-- The k bytes of a number, the least significant first (R5). -/
def toLE : Nat → Nat → List Byte
  | 0, _ => []
  | k + 1, v => BitVec.ofNat 8 v :: toLE k (v / 256)

/-- Bytes [at, at + k) of a byte string, as a number; bytes past its end read 0. -/
def fieldAt (bs : List Byte) (off k : Nat) : Nat := leNat ((bs.drop off).take k)

/-- The bytes [off, off + k) of a byte string. -/
def slice (bs : List Byte) (off k : Nat) : List Byte := (bs.drop off).take k

/-- A byte string with the bytes at `off` replaced by `new`. -/
def splice (bs : List Byte) (off : Nat) (new : List Byte) : List Byte :=
  bs.take off ++ new ++ bs.drop (off + new.length)

/-- Exactly k bytes: cut, or filled with zeros. -/
def padTo (k : Nat) (bs : List Byte) : List Byte := bs.take k ++ List.replicate (k - bs.length) 0

/-- ASCII characters as bytes. -/
def ascii (t : List Nat) : List Byte := t.map (BitVec.ofNat 8)

/-! ### CRC-32 as in IEEE 802.3 -/

/-- One bit of the reflected CRC-32. -/
def crcBit (c : Nat) : Nat := if c % 2 = 1 then Nat.xor (c / 2) 0xEDB88320 else c / 2

/-- One byte of the reflected CRC-32. -/
def crcByte (c : Nat) (b : Byte) : Nat :=
  crcBit (crcBit (crcBit (crcBit (crcBit (crcBit (crcBit (crcBit (Nat.xor c b.toNat))))))))

/-- CRC-32 as in IEEE 802.3 (R35, R316, R330). -/
def crc32 (bs : List Byte) : Nat := Nat.xor (bs.foldl crcByte 0xFFFFFFFF) 0xFFFFFFFF

/-! ### Lists -/

/-- Update the entry at an index. -/
def modAt {α : Type} (l : List α) (i : Nat) (f : α → α) : List α :=
  match l, i with
  | [], _ => []
  | x :: r, 0 => f x :: r
  | x :: r, i + 1 => x :: modAt r i f

/-- The first entry that satisfies p and its index. -/
def findIdx {α : Type} (p : α → Bool) : List α → Nat → Option (Nat × α)
  | [], _ => none
  | x :: r, i => if p x then some (i, x) else findIdx p r (i + 1)

/-- Apply f for i = 0 to k - 1, in order. -/
def upTo {σ : Type} : Nat → (Nat → σ → σ) → σ → σ
  | 0, _, s => s
  | k + 1, f, s => f k (upTo k f s)

end Sys2Proof.Machine
end

