-- ==== Sys2Proof/Machine/Numerics.lean ====
section
/-! DEFINITION. Machine/Numerics.lean: the formats of R92, exact arithmetic and its rounding (R95 to R101), MX blocks (R96,
R99, R100), the per-tensor exponent (R109) and the blotter (R113). -/

namespace Sys2Proof.Machine

/-! ### Values -/

/-- A value: ± num / den × 2^exp, an infinity, or a NaN. -/
inductive Num where
  | fin (neg : Bool) (num den : Nat) (exp : Int)
  | inf (neg : Bool)
  | nan
deriving DecidableEq, Repr

/-- +0. -/
def Num.zero : Num := .fin false 0 1 0
/-- 1. -/
def Num.one : Num := .fin false 1 1 0
/-- A natural number. -/
def Num.ofNat (k : Nat) : Num := .fin false k 1 0
/-- An integer. -/
def Num.ofInt (k : Int) : Num := .fin (decide (k < 0)) k.natAbs 1 0

/-- Whether a value is finite. -/
def Num.isFin : Num → Bool
  | .fin .. => true
  | _ => false
/-- Whether a value is NaN. -/
def Num.isNan : Num → Bool
  | .nan => true
  | _ => false
/-- Whether a value is ±0. -/
def Num.isZero : Num → Bool
  | .fin _ n _ _ => n == 0
  | _ => false
/-- The sign. -/
def Num.sign : Num → Bool
  | .fin g _ _ _ => g
  | .inf g => g
  | .nan => false
/-- The value with its sign turned. -/
def Num.neg : Num → Num
  | .fin g n d e => .fin (!g) n d e
  | .inf g => .inf (!g)
  | .nan => .nan
/-- The magnitude. -/
def Num.abs : Num → Num
  | .fin _ n d e => .fin false n d e
  | .inf _ => .inf false
  | .nan => .nan
/-- The value times 2^k, exactly. -/
def Num.scale (k : Int) : Num → Num
  | .fin g n d e => .fin g n d (e + k)
  | v => v

/-- 2^e as a pair of numerator and denominator. -/
def pow2 (e : Int) : Nat × Nat := if e < 0 then (1, 2 ^ e.natAbs) else (2 ^ e.natAbs, 1)

/-- floor (log2 (n / d × 2^e)), for n and d not 0. -/
def floorLog2 (n d : Nat) (e : Int) : Int :=
  let l : Int := (Nat.log2 n : Int) - (Nat.log2 d : Int)
  let p := pow2 l
  (if d * p.1 ≤ n * p.2 then l else l - 1) + e

/-- n / d rounded to a whole number, nearest, ties to even. -/
def rne (n d : Nat) : Nat :=
  let q := n / d
  let r := n % d
  if 2 * r < d then q else if d < 2 * r then q + 1 else q + q % 2

/-- Whether |a| < |b|, for finite values. -/
def magLt (a b : Num) : Bool :=
  match a, b with
  | .fin _ n d e, .fin _ n' d' e' =>
    let p := pow2 e
    let p' := pow2 e'
    decide (n * p.1 * (d' * p'.2) < n' * p'.1 * (d * p.2))
  | _, _ => false

/-! ### Formats (R92) -/

/-- A format: mantissa bits, smallest normal exponent, code of the largest finite magnitude, of infinity (none where the
format has none), of the NaN written, position of the sign bit. -/
structure Fmt where
  mant   : Nat
  emin   : Int
  maxMag : Nat
  infMag : Option Nat
  nanOut : Nat
  signAt : Nat
deriving DecidableEq, Repr

def fmtB32 : Fmt := ⟨23, -126, 0x7F7FFFFF, some 0x7F800000, 0x7FC00000, 31⟩
def fmtB16 : Fmt := ⟨10, -14, 0x7BFF, some 0x7C00, 0x7E00, 15⟩
def fmtBF16 : Fmt := ⟨7, -126, 0x7F7F, some 0x7F80, 0x7FC0, 15⟩
def fmtE4M3 : Fmt := ⟨3, -6, 0x7E, none, 0x7F, 7⟩
def fmtE5M2 : Fmt := ⟨2, -14, 0x7B, some 0x7C, 0x7F, 7⟩
def fmtE2M1 : Fmt := ⟨1, 0, 7, none, 7, 3⟩

/-- The format of a CFG.FORMAT code (R115) that is not an MX code. -/
def fmtOf (code : Nat) : Fmt :=
  if code = 1 then fmtBF16 else if code = 2 then fmtB16 else if code = 3 then fmtE4M3 else if code = 4 then fmtE5M2
  else fmtB32

/-- Bits of one element of a format code (R92, R94). -/
def fmtBits (code : Nat) : Nat :=
  if code = 0 ∨ code = 7 then 32 else if code = 1 ∨ code = 2 then 16 else if code = 6 then 4 else 8

/-- Whether a code names an MX format. -/
def isMx (code : Nat) : Bool := code == 5 || code == 6

/-- The element format of an MX code: E5M2 or E4M3 elements of MXFP8, E2M1 of MXFP4. -/
def mxElem (code : Nat) (e5m2 : Bool) : Fmt := if code = 6 then fmtE2M1 else if e5m2 then fmtE5M2 else fmtE4M3

/-- The value of a code. -/
def decodeFmt (f : Fmt) (w : Nat) : Num :=
  let g := bit w f.signAt
  let mag := w % 2 ^ f.signAt
  if f.maxMag < mag then (if f.infMag = some mag then .inf g else .nan)
  else
    let ef := mag / 2 ^ f.mant
    let mm := mag % 2 ^ f.mant
    if ef = 0 then .fin g mm 1 (f.emin - f.mant)
    else .fin g (2 ^ f.mant + mm) 1 (f.emin - f.mant + (ef - 1 : Nat))

/-- What a rounding reports (R95, R97). -/
structure Report where
  element   : Bool := false
  flushed   : Bool := false
  subnormal : Bool := false
  saturated : Bool := false
  overflow  : Bool := false
  nan       : Bool := false
deriving DecidableEq, Repr

/-- Round a value once to a format, nearest-even, and treat overflow (R95, R97): the code and the report. -/
def roundFmt (f : Fmt) (v : Num) : Nat × Report :=
  match v with
  | .nan => (f.nanOut, { nan := true })
  | .inf g =>
    match f.infMag with
    | some m => (m + 2 ^ f.signAt * b2n g, {})
    | none => (f.maxMag + 2 ^ f.signAt * b2n g, { saturated := true })
  | .fin g n d e =>
    let sg := 2 ^ f.signAt * b2n g
    if n = 0 then (sg, {})
    else
      let l := floorLog2 n d e
      let q : Int := (if l < f.emin then f.emin else l) - f.mant
      let p := pow2 (e - q)
      let k := rne (n * p.1) (d * p.2)
      let mag := ((q + f.mant - f.emin).toNat) * 2 ^ f.mant + k
      if f.maxMag < mag then
        match f.infMag with
        | some m => (m + sg, { element := true, overflow := true })
        | none => (f.maxMag + sg, { element := true, saturated := true })
      else (mag + sg, { element := true, flushed := mag == 0, subnormal := mag != 0 && decide (mag < 2 ^ f.mant) })

/-- The code of a value in a format. -/
def encodeFmt (f : Fmt) (v : Num) : Nat := (roundFmt f v).1

/-- A value rounded to binary32 (R98). -/
def round32 (v : Num) : Num := decodeFmt fmtB32 (encodeFmt fmtB32 v)

/-- The value of a binary32 code. -/
def f32 (w : Nat) : Num := decodeFmt fmtB32 w
/-- The binary32 code of a value. -/
def to32 (v : Num) : Nat := encodeFmt fmtB32 v

/-! ### Arithmetic (R98) -/

/-- The exact sum, special values as in IEEE 754. -/
def addX (a b : Num) : Num :=
  match a, b with
  | .nan, _ => .nan
  | _, .nan => .nan
  | .inf g, .inf h => if g = h then .inf g else .nan
  | .inf g, _ => .inf g
  | _, .inf g => .inf g
  | .fin g n d e, .fin h n' d' e' =>
    if n = 0 ∧ n' = 0 then .fin (g && h) 0 1 0
    else
      let lo := if e < e' then e else e'
      let x : Int := n * d' * (2 ^ (e - lo).toNat : Nat)
      let y : Int := n' * d * (2 ^ (e' - lo).toNat : Nat)
      let z := (if g then -x else x) + (if h then -y else y)
      .fin (decide (z < 0)) z.natAbs (d * d') lo

/-- The exact product. -/
def mulX (a b : Num) : Num :=
  match a, b with
  | .nan, _ => .nan
  | _, .nan => .nan
  | .inf g, .inf h => .inf (g != h)
  | .inf g, .fin h n _ _ => if n = 0 then .nan else .inf (g != h)
  | .fin h n _ _, .inf g => if n = 0 then .nan else .inf (g != h)
  | .fin g n d e, .fin h n' d' e' => .fin (g != h) (n * n') (d * d') (e + e')

/-- The exact quotient. -/
def divX (a b : Num) : Num :=
  match a, b with
  | .nan, _ => .nan
  | _, .nan => .nan
  | .inf _, .inf _ => .nan
  | .inf g, .fin h _ _ _ => .inf (g != h)
  | .fin g _ _ _, .inf h => .fin (g != h) 0 1 0
  | .fin g n d e, .fin h n' d' e' =>
    if n' = 0 then (if n = 0 then .nan else .inf (g != h))
    else .fin (g != h) (n * d') (d * n') (e - e')

/-- binary32 sum. -/
def add32N (a b : Num) : Num := round32 (addX a b)
/-- binary32 difference. -/
def sub32N (a b : Num) : Num := round32 (addX a b.neg)
/-- binary32 product. -/
def mul32N (a b : Num) : Num := round32 (mulX a b)
/-- binary32 quotient, correctly rounded (R121). -/
def div32N (a b : Num) : Num := round32 (divX a b)

/-- Whole square root by Newton's steps from above. -/
def isqrtGo : Nat → Nat → Nat → Nat
  | 0, _, x => x
  | k + 1, n, x => let y := (x + n / x) / 2; if y < x then isqrtGo k n y else x

/-- floor (sqrt n). -/
def isqrt (n : Nat) : Nat := if n = 0 then 0 else isqrtGo (Nat.log2 n + 2) n (2 ^ (Nat.log2 n / 2 + 1))

/-- binary32 square root, correctly rounded (R121): enough bits of the root, and a last bit that says it was not exact. -/
def sqrt32N (v : Num) : Num :=
  match v with
  | .nan => .nan
  | .inf g => if g then .nan else .inf false
  | .fin g n d e =>
    if n = 0 then .fin g 0 1 0
    else if g then .nan
    else
      let up : Nat := 64 + 2 * Nat.log2 d + (if e % 2 = 0 then 0 else 1)
      let m := n * 2 ^ up / d
      let r := isqrt m
      let exact := decide (r * r = m) && decide (m * d = n * 2 ^ up)
      round32 (.fin false (2 * r + (if exact then 0 else 1)) 1 ((e - up) / 2 - 1))

/-- The larger of two values; NaN where either is NaN. -/
def maxN (a b : Num) : Num :=
  match a, b with
  | .nan, _ => .nan
  | _, .nan => .nan
  | _, _ =>
    match addX a b.neg with
    | .fin g n _ _ => if n ≠ 0 ∧ g then b else a
    | .inf g => if g then b else a
    | .nan => a

/-- Whether a < b; false where either is NaN. -/
def ltN (a b : Num) : Bool :=
  match a, b with
  | .nan, _ => false
  | _, .nan => false
  | .inf g, .inf h => g && !h
  | _, _ =>
    match addX a b.neg with
    | .fin g n _ _ => g && n != 0
    | .inf g => g
    | .nan => false

/-! The functions that R121 gives within 2 units in the last place: which of the codes within that bound a row engine returns is free
(log entry 20). The exact value is enclosed in fixed point with 320 bits after the point; its error is far below any gap between a
binary32 code and the bound. -/

/-- Bits after the point. -/
def fixBits : Nat := 320

/-- The magnitude of a finite value in fixed point. -/
def fixOf (n d : Nat) (e : Int) : Nat := let p := pow2 e; n * p.1 * 2 ^ fixBits / (d * p.2)

/-- A fixed-point magnitude as a value. -/
def ofFix (g : Bool) (k : Nat) : Num := .fin g k 1 (-(fixBits : Int))

/-- The terms x^i / i! of exp from the i-th on, in fixed point: `term` is the i-th. -/
def expTerms (x : Nat) : Nat → Nat → Nat → Nat
  | 0, _, _ => 0
  | fuel + 1, i, term => term + expTerms x fuel (i + 1) (term * x / 2 ^ fixBits / (i + 1))

/-- A fixed-point number squared k times. -/
def squares : Nat → Nat → Nat
  | 0, y => y
  | k + 1, y => squares k (y * y / 2 ^ fixBits)

/-- exp of a fixed-point magnitude below 128. -/
def expFix (x : Nat) : Nat := squares 16 (expTerms (x / 2 ^ 16) 40 0 (2 ^ fixBits))

/-- The terms z^(2i + 1) / (2i + 1) of artanh: `pow` is z^(2i + 1). -/
def artanhTerms (z : Nat) : Nat → Nat → Nat → Nat
  | 0, _, _ => 0
  | fuel + 1, i, pow => pow / (2 * i + 1) + artanhTerms z fuel (i + 1) (pow * z / 2 ^ fixBits * z / 2 ^ fixBits)

/-- 2 artanh z = ln ((1 + z) / (1 - z)), for z up to 1/3. -/
def lnFix (z : Nat) : Nat := 2 * artanhTerms z 110 0 z

/-- Whether a magnitude lies in the normal range of binary32. -/
def isNormal32 (v : Num) : Bool :=
  match v with
  | .fin _ n d e => n != 0 && decide (-126 ≤ floorLog2 n d e) && decide (floorLog2 n d e ≤ 127)
  | _ => false

/-- Whether a result lies within 2 units in the last place of an exact value. -/
def near2 (r exact : Num) : Bool :=
  match exact with
  | .fin _ n d e => r.isFin && !magLt ((Num.ofNat 2).scale (floorLog2 n d e - 23)) (addX r exact.neg)
  | _ => false

/-- A result that R121 bounds: the free value where it lies within 2 ulp of the exact value, or where that is not normal. -/
def within2 (f : BitVec 32 → BitVec 32) (v exact : Num) : Num :=
  let r := f32 (f (BitVec.ofNat 32 (to32 v))).toNat
  if isNormal32 exact && !near2 r exact then round32 exact else r

/-- exp of a finite value, exact for the purpose of R121; no normal result where |v| is 128 or more. -/
def expExact (v : Num) : Num :=
  match v with
  | .fin g n d e =>
    let x := fixOf n d e
    if 128 * 2 ^ fixBits ≤ x then .zero else if g then divX .one (ofFix false (expFix x)) else ofFix false (expFix x)
  | _ => .zero

/-- ln of a positive finite value: l ln 2 + ln m with m from 1 to 2. -/
def lnExact (v : Num) : Num :=
  match v with
  | .fin _ n d e =>
    let l := floorLog2 n d e
    let m := fixOf n d (e - l)
    let r : Int := (lnFix ((m - 2 ^ fixBits) * 2 ^ fixBits / (m + 2 ^ fixBits)) : Nat) + l * (lnFix (2 ^ fixBits / 3) : Nat)
    ofFix (decide (r < 0)) r.natAbs
  | _ => .zero

/-- tanh of a finite value. -/
def tanhExact (v : Num) : Num :=
  match v with
  | .fin g n d e =>
    let x := 2 * fixOf n d e
    let y := expFix x
    if 128 * 2 ^ fixBits ≤ x then .fin g 1 1 0 else .fin g (y - 2 ^ fixBits) (y + 2 ^ fixBits) 0
  | _ => .zero

/-- The logistic function of a finite value. -/
def sigmaExact (v : Num) : Num :=
  match v with
  | .fin g n d e =>
    let x := fixOf n d e
    let y := expFix x
    if 128 * 2 ^ fixBits ≤ x then (if g then .zero else .one)
    else .fin false (if g then 2 ^ fixBits else y) (y + 2 ^ fixBits) 0
  | _ => .zero

/-- 1 / sqrt of a positive finite value. -/
def rsqrtExact (v : Num) : Num :=
  match v with
  | .fin _ n d e => let p := pow2 e; ofFix false (isqrt (d * p.2 * 2 ^ (2 * fixBits) / (n * p.1)))
  | _ => .zero

/-- exp (R121; log entry 20). -/
def expN : Num → Num
  | .nan => .nan
  | .inf g => if g then .zero else .inf false
  | .fin g n d e => within2 Config.expF (.fin g n d e) (expExact (.fin g n d e))
/-- ln (R121; log entry 20). -/
def lnN : Num → Num
  | .nan => .nan
  | .inf g => if g then .nan else .inf false
  | .fin g n d e => if n = 0 then .inf true else if g then .nan else within2 Config.lnF (.fin g n d e) (lnExact (.fin g n d e))
/-- tanh (R121; log entry 20). -/
def tanhN : Num → Num
  | .nan => .nan
  | .inf g => .fin g 1 1 0
  | .fin g n d e => within2 Config.tanhF (.fin g n d e) (tanhExact (.fin g n d e))
/-- The logistic function (R121; log entry 20). -/
def sigmaN : Num → Num
  | .nan => .nan
  | .inf g => if g then .zero else .one
  | .fin g n d e => within2 Config.sigmoidF (.fin g n d e) (sigmaExact (.fin g n d e))
/-- The reciprocal square root (R121; log entry 20). -/
def rsqrtN : Num → Num
  | .nan => .nan
  | .inf g => if g then .nan else .zero
  | .fin g n d e => if n = 0 then .inf g else if g then .nan else within2 Config.rsqrtF (.fin g n d e) (rsqrtExact (.fin g n d e))

/-- The sums of the row engine's 64 lanes: lane j adds elements j, j + 64, … in element order (R120, R121; log entry 21). -/
def laneSums (l : List Num) : List Num :=
  (List.range (min 64 l.length)).map (fun j =>
    (List.range ((l.length + 63 - j) / 64)).foldl (fun a i => if i = 0 then l.getD j .zero else add32N a (l.getD (j + 64 * i) .zero)) Num.zero)

/-- The sum of a row: lane by lane, then through a fixed tree (R121). Non-finite lanes follow R98, and one or two lanes leave the
tree no choice; the order of adds of a longer tree is free (log entry 21). -/
def sumRow (l : List Num) : Num :=
  let s := laneSums l
  let p := s.contains (.inf false)
  let m := s.contains (.inf true)
  if s.any Num.isNan || (p && m) then .nan
  else if p then .inf false
  else if m then .inf true
  else match s with
    | [] => .zero
    | [a] => a
    | [a, b] => add32N a b
    | _ => f32 (Config.rowSum (s.map (fun v => BitVec.ofNat 32 (to32 v)))).toNat

/-- The binary32 code of a sum of two binary32 codes: one add of a bank-side adder (R101). -/
def addCode (a b : Nat) : Nat := to32 (addX (f32 a) (f32 b))

/-! ### The array's column (R57, R84, R85, R98 to R100, R379) -/

/-- One cell of the 16-bit and 8-bit classes: psum := round32 (psum + a × w) (R98). -/
def cellStep (psum a w : Num) : Num := round32 (addX psum (mulX a w))

/-- What a data-gated slot of the 16-bit and 8-bit classes passes down (R85): the partial sum, −0 by the product's sign. -/
def gatedStep (psum a w : Num) : Num :=
  match psum with
  | .fin true 0 _ _ => .fin (a.sign != w.sign) 0 1 0
  | v => v

/-- Whether a slot is data-gated by a zero (R84). -/
def zeroGated (a w : Num) : Bool := (a.isZero && w.isFin) || (w.isZero && a.isFin)

/-- A column of the 16-bit and 8-bit classes: the rows' elements in array order; `none` marks a row gated by R68 or R72, where both
elements are +0 (R85). -/
def columnPlain : List (Option (Num × Num)) → Num → Num
  | [], p => p
  | none :: r, p => columnPlain r (gatedStep p .zero .zero)
  | some (a, w) :: r, p => columnPlain r (if zeroGated a w then gatedStep p a w else cellStep p a w)

/-- The special state beside the block accumulator (R99). -/
inductive Special where
  | none | pinf | ninf | nan
deriving DecidableEq, Repr

/-- Two special states met (R99). -/
def Special.meet : Special → Special → Special
  | .none, x => x
  | x, .none => x
  | .nan, _ => .nan
  | _, .nan => .nan
  | x, y => if x = y then x else .nan

/-- The block accumulator: an integer whose last bit weighs 2^−32, and its special state (R99). -/
structure BlockAcc where
  acc  : Int := 0
  spec : Special := .none
deriving DecidableEq, Repr

/-- Add one exact product to a block accumulator (R99). -/
def blockStep (b : BlockAcc) (a w : Num) : BlockAcc :=
  match mulX a w with
  | .nan => { b with spec := b.spec.meet .nan }
  | .inf g => { b with spec := b.spec.meet (if g then .ninf else .pinf) }
  | .fin g n d e =>
    let p := pow2 (e + 32)
    let v : Int := (n * p.1 / (d * p.2) : Nat)
    { b with acc := b.acc + (if g then -v else v) }

/-- The conversion stage below a block of 32 rows (R100). -/
def blockConvert (b : BlockAcc) (xa xb : Nat) : Num :=
  if xa = 0xFF ∨ xb = 0xFF then .nan
  else match b.spec with
    | .nan => .nan
    | .pinf => .inf false
    | .ninf => .inf true
    | .none => round32 (.fin (decide (b.acc < 0)) b.acc.natAbs 1 ((xa : Int) + xb - 286))

/-- One block of a column in the MX classes: a padding block adds +0 (R379), any other is converted (R100). -/
def columnBlock (rows : List (Option (Num × Num))) (xa xb : Nat) (padding : Bool) (psum : Num) : Num :=
  if padding then add32N psum .zero
  else
    let b := rows.foldl (fun b r => match r with | some (a, w) => blockStep b a w | none => b) ({} : BlockAcc)
    add32N psum (blockConvert b xa xb)

/-! ### MX blocks written (R96) -/

/-- Write values as an MX block: scale byte, element codes, reports; a NaN block reports each value as a NaN. -/
def mxWrite (f : Fmt) (emax : Int) (vs : List Num) : Nat × List (Nat × Report) :=
  if vs.any (fun v => !v.isFin) then (0xFF, vs.map (fun _ => (0, ({ nan := true } : Report))))
  else
    let m := vs.foldl (fun m v => if magLt m v then v else m) Num.zero
    match m with
    | .fin _ n d e =>
      if n = 0 then (0, vs.map (fun _ => (0, ({} : Report))))
      else
        let x0 : Int := floorLog2 n d e - emax + 127
        let x : Nat := if x0 < 0 then 0 else if 254 < x0 then 254 else x0.toNat
        (x, vs.map (fun v =>
          let q := v.scale (127 - (x : Int))
          let r := roundFmt { f with infMag := none } q
          r))
    | _ => (0xFF, [])

/-- emax of an MX element format (R96). -/
def mxEmax (f : Fmt) : Int := if f = fmtE4M3 then 8 else if f = fmtE5M2 then 15 else 2

/-! ### Amax, exponents and blotters -/

/-- The amax of true values, rounded once to binary32 and held finite (R107). -/
def amaxCode (vs : List Num) : Nat :=
  let m := vs.foldl (fun m v => if v.isFin && magLt m v then v else m) Num.zero
  let w := to32 m.abs
  if 0x7F7FFFFF < w then 0x7F7FFFFF else w

/-- The exponent that R109 forms from a maximum a (binary32 code, not 0) for a format and a margin. -/
def scaleExp (fmt : Nat) (a margin : Nat) : Int :=
  let top : Num := if fmt = 3 then .ofNat 448 else if fmt = 4 then .ofNat 57344 else .ofNat 65504
  match f32 a, top with
  | .fin _ n d e, .fin _ n' d' e' =>
    let la := floorLog2 n d e
    let lt := floorLog2 n' d' e'
    let c : Int := if magLt (Num.fin false n' d' (e' - lt)) (Num.fin false n d (e - la)) then 1 else 0
    lt - la - margin - c
  | _, _ => 0

/-- max (exponent of |w|, emin), emin where w is zero (R113). -/
def blotG (f : Fmt) (w : Num) : Int :=
  match w with
  | .fin _ n d e => if n = 0 then f.emin else let l := floorLog2 n d e; if l < f.emin then f.emin else l
  | _ => f.emin

/-- A 16-bit code as a two's-complement integer. -/
def sint16 (w : Nat) : Int := if w % 65536 < 32768 then (w % 65536 : Nat) else ((w % 65536 : Nat) : Int) - 65536

/-- restore (w, b) of R113, from the codes. -/
def restoreW (f : Fmt) (w b : Nat) : Num :=
  let v := decodeFmt f w
  round32 (addX v ((Num.ofInt (sint16 b)).scale (blotG f v - f.mant - 16)))

/-- A finite value times 2^k rounded to an integer, nearest-even. -/
def rneInt (v : Num) (k : Int) : Int :=
  match v with
  | .fin g n d e =>
    let p := pow2 (e + k)
    let r : Int := (rne (n * p.1) (d * p.2) : Nat)
    if g then -r else r
  | _ => 0

/-- store (r) of R113: the codes of w and b, and the report of w's rounding. -/
def storeW (f : Fmt) (r : Num) : Nat × Nat × Report :=
  let (w, rep) := roundFmt f r
  match decodeFmt f w with
  | .fin g n d e =>
    let v := Num.fin g n d e
    let b := rneInt (addX r v.neg) (16 + f.mant - blotG f v)
    let c : Int := if b < -32768 then -32768 else if 32767 < b then 32767 else b
    (w, (if c < 0 then (c + 65536).toNat else c.toNat), rep)
  | _ => (w, 0, rep)

end Sys2Proof.Machine
end

