-- ==== Sys2Proof/Machine/Ecc.lean ====
section
/-! DEFINITION. Machine/Ecc.lean: the (39,32) check code of every 32-bit word of memory (R205). -/

namespace Sys2Proof.Machine

/-! ### The check code (R205) -/

/-- The syndrome of data bit i (R205). -/
def dataSyndrome (i : Nat) : Nat :=
  [0x07, 0x0B, 0x13, 0x23, 0x43, 0x0D, 0x15, 0x25, 0x45, 0x19, 0x29, 0x49, 0x31, 0x51, 0x0E, 0x16,
   0x26, 0x46, 0x1A, 0x2A, 0x4A, 0x32, 0x52, 0x2C, 0x4C, 0x34, 0x54, 0x64, 0x38, 0x58, 0x68, 0x70].getD i 0

/-- The seven check bits of a 32-bit word (R205). -/
def checkBits (w : Nat) : Nat :=
  (List.range 32).foldl (fun c i => if bit w i then Nat.xor c (dataSyndrome i) else c) 0

/-- What a read makes of a word's syndrome (R205). -/
inductive WordRead where
  | good
  /-- check bit i is wrong -/
  | check (i : Nat)
  /-- data bit i is wrong -/
  | data (i : Nat)
  | poisoned
  | uncorrectable
deriving DecidableEq, Repr

/-- The reading of a syndrome (R205). -/
def readSyndrome (y : Nat) : WordRead :=
  if y = 0 then .good
  else if y = 0x7F then .poisoned
  else match findIdx (fun i => decide (y = 2 ^ i)) (List.range 7) 0 with
    | some (i, _) => .check i
    | none =>
      match findIdx (fun i => decide (y = dataSyndrome i)) (List.range 32) 0 with
      | some (i, _) => .data i
      | none => .uncorrectable

/-- The syndrome of stored data and stored check bits (R205). -/
def syndrome (w check : Nat) : Nat := Nat.xor check (checkBits w)

/-- The data delivered for stored data and check bits; none where the word is poisoned or uncorrectable. -/
def decodeWord (w check : Nat) : Option Nat :=
  match readSyndrome (syndrome w check) with
  | .good => some w
  | .check _ => some w
  | .data i => some (Nat.xor w (2 ^ i))
  | .poisoned => none
  | .uncorrectable => none

end Sys2Proof.Machine
end

