-- ==== Sys2Proof/Machine/RegMap.lean ====
section
/-! DEFINITION. Machine/RegMap.lean: every register field that the field tables of the manual give, as a Field (offset in
register space by R195, high bit, low bit, reset value), and the table of registers with the field types of R6. A register
with suffix _n, _p, _i, _c, _k, _d or _n_t takes its indices as arguments. -/

namespace Sys2Proof.Machine

/-- PWR.MODULE_LIMIT.WATTS [15:0], SH (R31). -/
abbrev PWR.MODULE_LIMIT.WATTS : Field := ⟨0x0, 15, 0, 1500⟩
/-- PWR.INPUT.WATTS [15:0], RO (R31). -/
abbrev PWR.INPUT.WATTS : Field := ⟨0x4, 15, 0, 0⟩
/-- PWR.INPUT.MEAN_WATTS [31:16], RO (R31). -/
abbrev PWR.INPUT.MEAN_WATTS : Field := ⟨0x4, 31, 16, 0⟩
/-- PWR.EVENTS.PEAK [0:0], W1C (R31). -/
abbrev PWR.EVENTS.PEAK : Field := ⟨0x8, 0, 0, 0⟩
/-- PWR.EVENTS.EXCURSION [1:1], W1C (R31). -/
abbrev PWR.EVENTS.EXCURSION : Field := ⟨0x8, 1, 1, 0⟩
/-- PWR.EVENTS.AVERAGE [2:2], W1C (R31). -/
abbrev PWR.EVENTS.AVERAGE : Field := ⟨0x8, 2, 2, 0⟩
/-- PWR.EVENTS.THERMAL [3:3], W1C (R31). -/
abbrev PWR.EVENTS.THERMAL : Field := ⟨0x8, 3, 3, 0⟩
/-- PWR.EVENTS.COUNT [31:16], RC (R31). -/
abbrev PWR.EVENTS.COUNT : Field := ⟨0x8, 31, 16, 0⟩
/-- PWR.P_CAP_n.WATTS [15:0], SH (R31). -/
abbrev PWR.P_CAP_n.WATTS (a : Nat) : Field := ⟨0x10 + 0x4 * a, 15, 0, 310⟩
/-- PWR.P_CAP_n.PROTECT [16:16], SH (R31). -/
abbrev PWR.P_CAP_n.PROTECT (a : Nat) : Field := ⟨0x10 + 0x4 * a, 16, 16, 0⟩
/-- PWR.P_STATE_n.GATE [4:0], RO (R31). -/
abbrev PWR.P_STATE_n.GATE (a : Nat) : Field := ⟨0x20 + 0x4 * a, 4, 0, 16⟩
/-- PWR.P_STATE_n.WATTS [31:16], RO (R31). -/
abbrev PWR.P_STATE_n.WATTS (a : Nat) : Field := ⟨0x20 + 0x4 * a, 31, 16, 0⟩
/-- PWR.THERM_CFG.THROTTLE_C [7:0], SH (R31). -/
abbrev PWR.THERM_CFG.THROTTLE_C : Field := ⟨0x30, 7, 0, 95⟩
/-- PWR.THERM_CFG.ALERT_C [15:8], SH (R31). -/
abbrev PWR.THERM_CFG.ALERT_C : Field := ⟨0x30, 15, 8, 100⟩
/-- PWR.THERM_CFG.DIE_MAX_C [23:16], RO (R31). -/
abbrev PWR.THERM_CFG.DIE_MAX_C : Field := ⟨0x30, 23, 16, 0⟩
/-- PWR.THERM_CFG.INLET_C [31:24], RO (R31). -/
abbrev PWR.THERM_CFG.INLET_C : Field := ⟨0x30, 31, 24, 0⟩
/-- STK.TIME.ACLK [63:0], RO (R54). -/
abbrev STK.TIME.ACLK : Field := ⟨0x10000, 63, 0, 0⟩
/-- STK.CTRL_n.RUN [0:0], RW (R54). -/
abbrev STK.CTRL_n.RUN (a : Nat) : Field := ⟨0x10020 + 0x20 * a, 0, 0, 0⟩
/-- STK.CTRL_n.RUNNING [1:1], RO (R54). -/
abbrev STK.CTRL_n.RUNNING (a : Nat) : Field := ⟨0x10020 + 0x20 * a, 1, 1, 0⟩
/-- STK.CTRL_n.ERR [2:2], W1C (R54). -/
abbrev STK.CTRL_n.ERR (a : Nat) : Field := ⟨0x10020 + 0x20 * a, 2, 2, 0⟩
/-- STK.PERIOD_n.ACLK [26:0], SH (R54). -/
abbrev STK.PERIOD_n.ACLK (a : Nat) : Field := ⟨0x10024 + 0x20 * a, 26, 0, 800000⟩
/-- STK.START_n.ACLK [63:0], RW (R54). -/
abbrev STK.START_n.ACLK (a : Nat) : Field := ⟨0x10028 + 0x20 * a, 63, 0, 0⟩
/-- STK.COUNT_n.STROKES [63:0], RO (R54). -/
abbrev STK.COUNT_n.STROKES (a : Nat) : Field := ⟨0x10030 + 0x20 * a, 63, 0, 0⟩
/-- STK.NEXT_n.ACLK [63:0], RO (R54). -/
abbrev STK.NEXT_n.ACLK (a : Nat) : Field := ⟨0x10038 + 0x20 * a, 63, 0, 18446744073709551615⟩
/-- PART.POWER_n.TARGET [1:0], RW (R55). -/
abbrev PART.POWER_n.TARGET (a : Nat) : Field := ⟨0x20000 + 0x4 * a, 1, 0, 0⟩
/-- PART.POWER_n.STATE [3:2], RO (R55). -/
abbrev PART.POWER_n.STATE (a : Nat) : Field := ⟨0x20000 + 0x4 * a, 3, 2, 0⟩
/-- PART.POWER_n.ERR [4:4], W1C (R55). -/
abbrev PART.POWER_n.ERR (a : Nat) : Field := ⟨0x20000 + 0x4 * a, 4, 4, 0⟩
/-- PART.POWER_n.TRANSITIONS [31:16], RO (R55). -/
abbrev PART.POWER_n.TRANSITIONS (a : Nat) : Field := ⟨0x20000 + 0x4 * a, 31, 16, 0⟩
/-- ENG.OPS_i.COUNT [31:0], RO (R91). -/
abbrev ENG.OPS_i.COUNT (a b : Nat) : Field := ⟨0x800000 + 0x10000 * a + 0x40 * b, 31, 0, 0⟩
/-- ENG.PASSES_i.COUNT [31:0], RO (R91). -/
abbrev ENG.PASSES_i.COUNT (a b : Nat) : Field := ⟨0x800004 + 0x10000 * a + 0x40 * b, 31, 0, 0⟩
/-- ENG.STREAM_i.ACLK [63:0], RO (R91). -/
abbrev ENG.STREAM_i.ACLK (a b : Nat) : Field := ⟨0x800008 + 0x10000 * a + 0x40 * b, 63, 0, 0⟩
/-- ENG.BUBBLE_i.ACLK [63:0], RO (R91). -/
abbrev ENG.BUBBLE_i.ACLK (a b : Nat) : Field := ⟨0x800010 + 0x10000 * a + 0x40 * b, 63, 0, 0⟩
/-- ENG.HOLD_i.ACLK [63:0], RO (R91). -/
abbrev ENG.HOLD_i.ACLK (a b : Nat) : Field := ⟨0x800018 + 0x10000 * a + 0x40 * b, 63, 0, 0⟩
/-- ENG.STATE_i.BUSY [0:0], RO (R91). -/
abbrev ENG.STATE_i.BUSY (a b : Nat) : Field := ⟨0x800020 + 0x10000 * a + 0x40 * b, 0, 0, 0⟩
/-- ENG.STATE_i.PLANE0_FULL [1:1], RO (R91). -/
abbrev ENG.STATE_i.PLANE0_FULL (a b : Nat) : Field := ⟨0x800020 + 0x10000 * a + 0x40 * b, 1, 1, 0⟩
/-- ENG.STATE_i.PLANE1_FULL [2:2], RO (R91). -/
abbrev ENG.STATE_i.PLANE1_FULL (a b : Nat) : Field := ⟨0x800020 + 0x10000 * a + 0x40 * b, 2, 2, 0⟩
/-- ENG.STATE_i.ACTIVE_PLANE [3:3], RO (R91). -/
abbrev ENG.STATE_i.ACTIVE_PLANE (a b : Nat) : Field := ⟨0x800020 + 0x10000 * a + 0x40 * b, 3, 3, 0⟩
/-- ENG.STATE_i.CLASS [5:4], RO (R91). -/
abbrev ENG.STATE_i.CLASS (a b : Nat) : Field := ⟨0x800020 + 0x10000 * a + 0x40 * b, 5, 4, 0⟩
/-- ENG.STATE_i.PASS [31:16], RO (R91). -/
abbrev ENG.STATE_i.PASS (a b : Nat) : Field := ⟨0x800020 + 0x10000 * a + 0x40 * b, 31, 16, 0⟩
/-- NUM.TABLE_BASE_n.BASE [31:7], SH (R116). -/
abbrev NUM.TABLE_BASE_n.BASE (a : Nat) : Field := ⟨0x30000 + 0x10 * a, 31, 7, 0⟩
/-- NUM.TABLE_LEN_n.ENTRIES [13:0], SH (R116). -/
abbrev NUM.TABLE_LEN_n.ENTRIES (a : Nat) : Field := ⟨0x30004 + 0x10 * a, 13, 0, 0⟩
/-- NUM.EVENTS_n.DRYNIB [0:0], W1C (R116). -/
abbrev NUM.EVENTS_n.DRYNIB (a : Nat) : Field := ⟨0x30008 + 0x10 * a, 0, 0, 0⟩
/-- NUM.EVENTS_n.OVERFLOW [1:1], W1C (R116). -/
abbrev NUM.EVENTS_n.OVERFLOW (a : Nat) : Field := ⟨0x30008 + 0x10 * a, 1, 1, 0⟩
/-- NUM.EVENTS_n.NAN [2:2], W1C (R116). -/
abbrev NUM.EVENTS_n.NAN (a : Nat) : Field := ⟨0x30008 + 0x10 * a, 2, 2, 0⟩
/-- NUM.EVENTS_n.DRYNIB_COUNT [31:16], RO (R116). -/
abbrev NUM.EVENTS_n.DRYNIB_COUNT (a : Nat) : Field := ⟨0x30008 + 0x10 * a, 31, 16, 0⟩
/-- NUM.DEFAULTS.DRYNIB_STEPS [11:0], SH (R116). -/
abbrev NUM.DEFAULTS.DRYNIB_STEPS : Field := ⟨0x30040, 11, 0, 64⟩
/-- NUM.DEFAULTS.DRYNIB_THRESH [15:12], SH (R116). -/
abbrev NUM.DEFAULTS.DRYNIB_THRESH : Field := ⟨0x30040, 15, 12, 8⟩
/-- NUM.DEFAULTS.DELAY [19:16], SH (R116). -/
abbrev NUM.DEFAULTS.DELAY : Field := ⟨0x30040, 19, 16, 1⟩
/-- TRN.WDT_BASE_n.BASE [31:8], SH (R144). -/
abbrev TRN.WDT_BASE_n.BASE (a : Nat) : Field := ⟨0x40000 + 0x10 * a, 31, 8, 0⟩
/-- TRN.WDT_LEN_n.ENTRIES [12:0], SH (R144). -/
abbrev TRN.WDT_LEN_n.ENTRIES (a : Nat) : Field := ⟨0x40004 + 0x10 * a, 12, 0, 0⟩
/-- TRN.EVENTS_n.STASH_FULL [0:0], W1C (R144). -/
abbrev TRN.EVENTS_n.STASH_FULL (a : Nat) : Field := ⟨0x40008 + 0x10 * a, 0, 0, 0⟩
/-- TRN.EVENTS_n.STALE_DROP [1:1], W1C (R144). -/
abbrev TRN.EVENTS_n.STALE_DROP (a : Nat) : Field := ⟨0x40008 + 0x10 * a, 1, 1, 0⟩
/-- TRN.EVENTS_n.MARG_INVALID [2:2], W1C (R144). -/
abbrev TRN.EVENTS_n.MARG_INVALID (a : Nat) : Field := ⟨0x40008 + 0x10 * a, 2, 2, 0⟩
/-- TRN.EVENTS_n.STALE_COUNT [31:16], RO (R144). -/
abbrev TRN.EVENTS_n.STALE_COUNT (a : Nat) : Field := ⟨0x40008 + 0x10 * a, 31, 16, 0⟩
/-- TRN.WAITS_n.STASH_FULL_COUNT [15:0], RO (R144). -/
abbrev TRN.WAITS_n.STASH_FULL_COUNT (a : Nat) : Field := ⟨0x4000c + 0x10 * a, 15, 0, 0⟩
/-- TRN.WAITS_n.LIFT_WAITS [31:16], RO (R144). -/
abbrev TRN.WAITS_n.LIFT_WAITS (a : Nat) : Field := ⟨0x4000c + 0x10 * a, 31, 16, 0⟩
/-- SEQ.STATE.STATE [2:0], RO (R172). -/
abbrev SEQ.STATE.STATE (a : Nat) : Field := ⟨0x801000 + 0x10000 * a, 2, 0, 0⟩
/-- SEQ.STATE.CONTEXT [16:3], RO (R172). -/
abbrev SEQ.STATE.CONTEXT (a : Nat) : Field := ⟨0x801000 + 0x10000 * a, 16, 3, 0⟩
/-- SEQ.GEN.GEN [15:0], RO (R172). -/
abbrev SEQ.GEN.GEN (a : Nat) : Field := ⟨0x801004 + 0x10000 * a, 15, 0, 0⟩
/-- SEQ.SEG_START.ADDR [63:0], RO (R172). -/
abbrev SEQ.SEG_START.ADDR (a : Nat) : Field := ⟨0x801008 + 0x10000 * a, 63, 0, 0⟩
/-- SEQ.CMD_PTR.ADDR [63:0], RO (R172). -/
abbrev SEQ.CMD_PTR.ADDR (a : Nat) : Field := ⟨0x801010 + 0x10000 * a, 63, 0, 0⟩
/-- SEQ.HEARTBEAT.COUNT [31:0], RO (R172). -/
abbrev SEQ.HEARTBEAT.COUNT (a : Nat) : Field := ⟨0x801018 + 0x10000 * a, 31, 0, 0⟩
/-- SEQ.LAST_CMD.CMD_ID [15:0], RO (R172). -/
abbrev SEQ.LAST_CMD.CMD_ID (a : Nat) : Field := ⟨0x80101c + 0x10000 * a, 15, 0, 0⟩
/-- SEQ.LAST_CMD.OPCODE [23:16], RO (R172). -/
abbrev SEQ.LAST_CMD.OPCODE (a : Nat) : Field := ⟨0x80101c + 0x10000 * a, 23, 16, 0⟩
/-- SEQ.PROGRESS_TIME.ACLK [63:0], RO (R172). -/
abbrev SEQ.PROGRESS_TIME.ACLK (a : Nat) : Field := ⟨0x801020 + 0x10000 * a, 63, 0, 0⟩
/-- SEQ.LIFTS.COUNT [63:0], RO (R172). -/
abbrev SEQ.LIFTS.COUNT (a : Nat) : Field := ⟨0x801028 + 0x10000 * a, 63, 0, 0⟩
/-- SEQ.KILLS.COUNT [23:0], RO (R172). -/
abbrev SEQ.KILLS.COUNT (a : Nat) : Field := ⟨0x801030 + 0x10000 * a, 23, 0, 0⟩
/-- SEQ.KILLS.LAST_CAUSE [27:24], RO (R172). -/
abbrev SEQ.KILLS.LAST_CAUSE (a : Nat) : Field := ⟨0x801030 + 0x10000 * a, 27, 24, 0⟩
/-- SEQ.INK.WET_PAGES [12:0], RO (R172). -/
abbrev SEQ.INK.WET_PAGES (a : Nat) : Field := ⟨0x801034 + 0x10000 * a, 12, 0, 0⟩
/-- SEQ.INK.OUTQ_KIB [31:16], RO (R172). -/
abbrev SEQ.INK.OUTQ_KIB (a : Nat) : Field := ⟨0x801034 + 0x10000 * a, 31, 16, 0⟩
/-- SEQ.LATE.REPLIES [31:0], RO (R172). -/
abbrev SEQ.LATE.REPLIES (a : Nat) : Field := ⟨0x801038 + 0x10000 * a, 31, 0, 0⟩
/-- SEQ.LEASE.EXPIRED [15:0], RO (R172). -/
abbrev SEQ.LEASE.EXPIRED (a : Nat) : Field := ⟨0x80103c + 0x10000 * a, 15, 0, 0⟩
/-- SEQ.LEASE.LOST [31:16], RO (R172). -/
abbrev SEQ.LEASE.LOST (a : Nat) : Field := ⟨0x80103c + 0x10000 * a, 31, 16, 0⟩
/-- SEQ.CTRL.KILL [0:0], WO (R172). -/
abbrev SEQ.CTRL.KILL (a : Nat) : Field := ⟨0x801040 + 0x10000 * a, 0, 0, 0⟩
/-- WET.POOL_n_t.PAGES [15:0], SH (R173). -/
abbrev WET.POOL_n_t.PAGES (a b : Nat) : Field := ⟨0x50000 + 0x40 * a + 0x8 * b, 15, 0, 0⟩
/-- WET.POOL_n_t.BASE [51:16], SH (R173). -/
abbrev WET.POOL_n_t.BASE (a b : Nat) : Field := ⟨0x50000 + 0x40 * a + 0x8 * b, 51, 16, 0⟩
/-- WET.OUTQ_n.PAGES [15:0], SH (R173). -/
abbrev WET.OUTQ_n.PAGES (a : Nat) : Field := ⟨0x50018 + 0x40 * a, 15, 0, 0⟩
/-- WET.OUTQ_n.BASE [51:16], SH (R173). -/
abbrev WET.OUTQ_n.BASE (a : Nat) : Field := ⟨0x50018 + 0x40 * a, 51, 16, 0⟩
/-- WET.FREE_n.T0 [15:0], RO (R173). -/
abbrev WET.FREE_n.T0 (a : Nat) : Field := ⟨0x50020 + 0x40 * a, 15, 0, 0⟩
/-- WET.FREE_n.T1 [31:16], RO (R173). -/
abbrev WET.FREE_n.T1 (a : Nat) : Field := ⟨0x50020 + 0x40 * a, 31, 16, 0⟩
/-- WET.FREE_n.T2 [47:32], RO (R173). -/
abbrev WET.FREE_n.T2 (a : Nat) : Field := ⟨0x50020 + 0x40 * a, 47, 32, 0⟩
/-- WET.FREE_n.OUTQ [63:48], RO (R173). -/
abbrev WET.FREE_n.OUTQ (a : Nat) : Field := ⟨0x50020 + 0x40 * a, 63, 48, 0⟩
/-- WET.STATUS_n.CONFLICTS [15:0], RO (R173). -/
abbrev WET.STATUS_n.CONFLICTS (a : Nat) : Field := ⟨0x50028 + 0x40 * a, 15, 0, 0⟩
/-- WET.STATUS_n.CLOBBERED [31:16], RO (R173). -/
abbrev WET.STATUS_n.CLOBBERED (a : Nat) : Field := ⟨0x50028 + 0x40 * a, 31, 16, 0⟩
/-- IDL.COUNT_i_k.ACLK [63:0], RC (R189). -/
abbrev IDL.COUNT_i_k.ACLK (a b c : Nat) : Field := ⟨0x802000 + 0x10000 * a + 0x80 * b + 0x8 * c, 63, 0, 0⟩
/-- SCH.CTX_BASE_n.BASE [31:7], SH (R192). -/
abbrev SCH.CTX_BASE_n.BASE (a : Nat) : Field := ⟨0x60000 + 0x40 * a, 31, 7, 0⟩
/-- SCH.ROW_BASE_n.BASE [31:4], SH (R192). -/
abbrev SCH.ROW_BASE_n.BASE (a : Nat) : Field := ⟨0x60004 + 0x40 * a, 31, 4, 0⟩
/-- SCH.ROW_COUNT_n.ROWS [10:0], SH (R192). -/
abbrev SCH.ROW_COUNT_n.ROWS (a : Nat) : Field := ⟨0x60008 + 0x40 * a, 10, 0, 0⟩
/-- SCH.CTX_CMD_n.CONTEXT [11:0], WO (R192). -/
abbrev SCH.CTX_CMD_n.CONTEXT (a : Nat) : Field := ⟨0x6000c + 0x40 * a, 11, 0, 0⟩
/-- SCH.CTX_CMD_n.ACTION [14:12], WO (R192). -/
abbrev SCH.CTX_CMD_n.ACTION (a : Nat) : Field := ⟨0x6000c + 0x40 * a, 14, 12, 0⟩
/-- SCH.STATUS_n.CMD_ERR [0:0], W1C (R192). -/
abbrev SCH.STATUS_n.CMD_ERR (a : Nat) : Field := ⟨0x60010 + 0x40 * a, 0, 0, 0⟩
/-- SCH.STATUS_n.BAD_ROW [1:1], W1C (R192). -/
abbrev SCH.STATUS_n.BAD_ROW (a : Nat) : Field := ⟨0x60010 + 0x40 * a, 1, 1, 0⟩
/-- SCH.STATUS_n.PROFILE_ERR [2:2], W1C (R192). -/
abbrev SCH.STATUS_n.PROFILE_ERR (a : Nat) : Field := ⟨0x60010 + 0x40 * a, 2, 2, 0⟩
/-- SCH.STATUS_n.FIRST_BAD [15:6], RO (R192). -/
abbrev SCH.STATUS_n.FIRST_BAD (a : Nat) : Field := ⟨0x60010 + 0x40 * a, 15, 6, 0⟩
/-- SCH.STATUS_n.BAD_ROWS [31:16], RO (R192). -/
abbrev SCH.STATUS_n.BAD_ROWS (a : Nat) : Field := ⟨0x60010 + 0x40 * a, 31, 16, 0⟩
/-- SCH.OVERRUNS_n.COUNT [31:0], RO (R192). -/
abbrev SCH.OVERRUNS_n.COUNT (a : Nat) : Field := ⟨0x60014 + 0x40 * a, 31, 0, 0⟩
/-- SCH.DEADLINES_n.COUNT [31:0], RO (R192). -/
abbrev SCH.DEADLINES_n.COUNT (a : Nat) : Field := ⟨0x60018 + 0x40 * a, 31, 0, 0⟩
/-- SCH.SKIPS_n.COUNT [31:0], RO (R192). -/
abbrev SCH.SKIPS_n.COUNT (a : Nat) : Field := ⟨0x6001c + 0x40 * a, 31, 0, 0⟩
/-- SCH.PROFILE_n.INDEX [3:0], RW (R192). -/
abbrev SCH.PROFILE_n.INDEX (a : Nat) : Field := ⟨0x60020 + 0x40 * a, 3, 0, 0⟩
/-- SCH.PROFILE_n.GO [4:4], WO (R192). -/
abbrev SCH.PROFILE_n.GO (a : Nat) : Field := ⟨0x60020 + 0x40 * a, 4, 4, 0⟩
/-- SCH.PROFILE_n.BUSY [5:5], RO (R192). -/
abbrev SCH.PROFILE_n.BUSY (a : Nat) : Field := ⟨0x60020 + 0x40 * a, 5, 5, 0⟩
/-- SCH.PROFILE_n.CURRENT [11:8], RO (R192). -/
abbrev SCH.PROFILE_n.CURRENT (a : Nat) : Field := ⟨0x60020 + 0x40 * a, 11, 8, 0⟩
/-- SCH.PROFILE_n.APPLIED [12:12], RO (R192). -/
abbrev SCH.PROFILE_n.APPLIED (a : Nat) : Field := ⟨0x60020 + 0x40 * a, 12, 12, 0⟩
/-- SCH.PROFILES.LOADED [4:0], RO (R192). -/
abbrev SCH.PROFILES.LOADED : Field := ⟨0x60100, 4, 0, 0⟩
/-- MEM.INV_ADDR.PAGE [45:16], RW (R221). -/
abbrev MEM.INV_ADDR.PAGE : Field := ⟨0x70000, 45, 16, 0⟩
/-- MEM.INV_CTRL.CONTEXT [11:0], RW (R221). -/
abbrev MEM.INV_CTRL.CONTEXT : Field := ⟨0x70008, 11, 0, 0⟩
/-- MEM.INV_CTRL.PARTITION [13:12], RW (R221). -/
abbrev MEM.INV_CTRL.PARTITION : Field := ⟨0x70008, 13, 12, 0⟩
/-- MEM.INV_CTRL.ALL [14:14], RW (R221). -/
abbrev MEM.INV_CTRL.ALL : Field := ⟨0x70008, 14, 14, 0⟩
/-- MEM.INV_CTRL.GO [15:15], WO (R221). -/
abbrev MEM.INV_CTRL.GO : Field := ⟨0x70008, 15, 15, 0⟩
/-- MEM.INV_CTRL.BUSY [16:16], RO (R221). -/
abbrev MEM.INV_CTRL.BUSY : Field := ⟨0x70008, 16, 16, 0⟩
/-- MEM.FRAME_CMD.FRAME [20:0], RW (R221). -/
abbrev MEM.FRAME_CMD.FRAME : Field := ⟨0x70010, 20, 0, 0⟩
/-- MEM.FRAME_CMD.TIER [22:21], RW (R221). -/
abbrev MEM.FRAME_CMD.TIER : Field := ⟨0x70010, 22, 21, 0⟩
/-- MEM.FRAME_CMD.PARTITION [24:23], RW (R221). -/
abbrev MEM.FRAME_CMD.PARTITION : Field := ⟨0x70010, 24, 23, 0⟩
/-- MEM.FRAME_CMD.TENANT [32:25], RW (R221). -/
abbrev MEM.FRAME_CMD.TENANT : Field := ⟨0x70010, 32, 25, 0⟩
/-- MEM.FRAME_CMD.OP [35:33], RW (R221). -/
abbrev MEM.FRAME_CMD.OP : Field := ⟨0x70010, 35, 33, 0⟩
/-- MEM.FRAME_CMD.GO [36:36], WO (R221). -/
abbrev MEM.FRAME_CMD.GO : Field := ⟨0x70010, 36, 36, 0⟩
/-- MEM.FRAME_CMD.BUSY [37:37], RO (R221). -/
abbrev MEM.FRAME_CMD.BUSY : Field := ⟨0x70010, 37, 37, 0⟩
/-- MEM.FRAME_CMD.RESULT [40:38], RO (R221). -/
abbrev MEM.FRAME_CMD.RESULT : Field := ⟨0x70010, 40, 38, 0⟩
/-- MEM.ERR_CFG.WINDOW_MS [15:0], SH (R221). -/
abbrev MEM.ERR_CFG.WINDOW_MS : Field := ⟨0x70018, 15, 0, 1000⟩
/-- MEM.ERR_CFG.CE_LIMIT [27:16], SH (R221). -/
abbrev MEM.ERR_CFG.CE_LIMIT : Field := ⟨0x70018, 27, 16, 256⟩
/-- MEM.ERR_CFG.UE_LIMIT [31:28], SH (R221). -/
abbrev MEM.ERR_CFG.UE_LIMIT : Field := ⟨0x70018, 31, 28, 2⟩
/-- MEM.SCRUB.HOURS [15:0], SH (R221). -/
abbrev MEM.SCRUB.HOURS : Field := ⟨0x7001c, 15, 0, 8⟩
/-- MEM.SCRUB.PASSES [31:16], RO (R221). -/
abbrev MEM.SCRUB.PASSES : Field := ⟨0x7001c, 31, 16, 0⟩
/-- MEM.QTA_BASE_n.BASE [31:6], SH (R221). -/
abbrev MEM.QTA_BASE_n.BASE (a : Nat) : Field := ⟨0x70100 + 0x40 * a, 31, 6, 0⟩
/-- MEM.MIG_BASE_n.BASE [31:5], SH (R221). -/
abbrev MEM.MIG_BASE_n.BASE (a : Nat) : Field := ⟨0x70104 + 0x40 * a, 31, 5, 0⟩
/-- MEM.MIG_SIZE_n.LOG2 [3:0], SH (R221). -/
abbrev MEM.MIG_SIZE_n.LOG2 (a : Nat) : Field := ⟨0x70108 + 0x40 * a, 3, 0, 0⟩
/-- MEM.MIG_TAIL_n.INDEX [15:0], RW (R221). -/
abbrev MEM.MIG_TAIL_n.INDEX (a : Nat) : Field := ⟨0x7010c + 0x40 * a, 15, 0, 0⟩
/-- MEM.MIG_HEAD_n.INDEX [15:0], RO (R221). -/
abbrev MEM.MIG_HEAD_n.INDEX (a : Nat) : Field := ⟨0x70110 + 0x40 * a, 15, 0, 0⟩
/-- MEM.POOL_LIST_n.BASE [31:2], SH (R221). -/
abbrev MEM.POOL_LIST_n.BASE (a : Nat) : Field := ⟨0x70114 + 0x40 * a, 31, 2, 0⟩
/-- MEM.CAPACITY_n.T0 [16:0], RO (R221). -/
abbrev MEM.CAPACITY_n.T0 (a : Nat) : Field := ⟨0x70118 + 0x40 * a, 16, 0, 65536⟩
/-- MEM.CAPACITY_n.T1 [38:20], RO (R221). -/
abbrev MEM.CAPACITY_n.T1 (a : Nat) : Field := ⟨0x70118 + 0x40 * a, 38, 20, 419430⟩
/-- MEM.CAPACITY_n.T2 [62:42], RO (R221). -/
abbrev MEM.CAPACITY_n.T2 (a : Nat) : Field := ⟨0x70118 + 0x40 * a, 62, 42, 1572864⟩
/-- MEM.CHAN_MARK_n.T1 [31:0], RO (R221). -/
abbrev MEM.CHAN_MARK_n.T1 (a : Nat) : Field := ⟨0x70120 + 0x40 * a, 31, 0, 0⟩
/-- MEM.CHAN_MARK_n.T2 [63:32], RO (R221). -/
abbrev MEM.CHAN_MARK_n.T2 (a : Nat) : Field := ⟨0x70120 + 0x40 * a, 63, 32, 0⟩
/-- MEM.CHAN_RETIRED_n.T1 [31:0], RO (R221). -/
abbrev MEM.CHAN_RETIRED_n.T1 (a : Nat) : Field := ⟨0x70128 + 0x40 * a, 31, 0, 0⟩
/-- MEM.CHAN_RETIRED_n.T2 [63:32], RO (R221). -/
abbrev MEM.CHAN_RETIRED_n.T2 (a : Nat) : Field := ⟨0x70128 + 0x40 * a, 63, 32, 0⟩
/-- MEM.STATUS_n.T1_OUT [0:0], RO (R221). -/
abbrev MEM.STATUS_n.T1_OUT (a : Nat) : Field := ⟨0x70130 + 0x40 * a, 0, 0, 0⟩
/-- MEM.STATUS_n.T2_OUT [1:1], RO (R221). -/
abbrev MEM.STATUS_n.T2_OUT (a : Nat) : Field := ⟨0x70130 + 0x40 * a, 1, 1, 0⟩
/-- MEM.STATUS_n.T0_CORE_OUT [5:2], RO (R221). -/
abbrev MEM.STATUS_n.T0_CORE_OUT (a : Nat) : Field := ⟨0x70130 + 0x40 * a, 5, 2, 0⟩
/-- MEM.ERRCNT_n.CE_T0 [15:0], RC (R221). -/
abbrev MEM.ERRCNT_n.CE_T0 (a : Nat) : Field := ⟨0x70138 + 0x40 * a, 15, 0, 0⟩
/-- MEM.ERRCNT_n.CE_T1 [31:16], RC (R221). -/
abbrev MEM.ERRCNT_n.CE_T1 (a : Nat) : Field := ⟨0x70138 + 0x40 * a, 31, 16, 0⟩
/-- MEM.ERRCNT_n.CE_T2 [47:32], RC (R221). -/
abbrev MEM.ERRCNT_n.CE_T2 (a : Nat) : Field := ⟨0x70138 + 0x40 * a, 47, 32, 0⟩
/-- MEM.ERRCNT_n.UE [63:48], RC (R221). -/
abbrev MEM.ERRCNT_n.UE (a : Nat) : Field := ⟨0x70138 + 0x40 * a, 63, 48, 0⟩
/-- GAZ.CTRL.OPEN [0:0], RW (R257). -/
abbrev GAZ.CTRL.OPEN : Field := ⟨0x80000, 0, 0, 0⟩
/-- GAZ.CFG.FWD_MS [15:0], SH (R257). -/
abbrev GAZ.CFG.FWD_MS : Field := ⟨0x80004, 15, 0, 100⟩
/-- GAZ.CFG.MOVING_US [23:16], SH (R257). -/
abbrev GAZ.CFG.MOVING_US : Field := ⟨0x80004, 23, 16, 20⟩
/-- GAZ.CFG.PROMO_HOLD_US [31:24], SH (R257). -/
abbrev GAZ.CFG.PROMO_HOLD_US : Field := ⟨0x80004, 31, 24, 100⟩
/-- GAZ.STATUS.ENTRIES [19:0], RO (R257). -/
abbrev GAZ.STATUS.ENTRIES : Field := ⟨0x80008, 19, 0, 0⟩
/-- GAZ.STATUS.FULL_SEEN [20:20], W1C (R257). -/
abbrev GAZ.STATUS.FULL_SEEN : Field := ⟨0x80008, 20, 20, 0⟩
/-- GAZ.TICKETS.OUT_ACTIVE [6:0], RO (R257). -/
abbrev GAZ.TICKETS.OUT_ACTIVE : Field := ⟨0x8000c, 6, 0, 0⟩
/-- GAZ.TICKETS.IN_ACTIVE [14:8], RO (R257). -/
abbrev GAZ.TICKETS.IN_ACTIVE : Field := ⟨0x8000c, 14, 8, 0⟩
/-- GAZ.TICKETS.IN_DOUBT [31:16], RO (R257). -/
abbrev GAZ.TICKETS.IN_DOUBT : Field := ⟨0x8000c, 31, 16, 0⟩
/-- GAZ.CMD.NAME [42:0], RW (R257). -/
abbrev GAZ.CMD.NAME : Field := ⟨0x80010, 42, 0, 0⟩
/-- GAZ.CMD.OP [46:43], RW (R257). -/
abbrev GAZ.CMD.OP : Field := ⟨0x80010, 46, 43, 0⟩
/-- GAZ.CMD.GO [47:47], WO (R257). -/
abbrev GAZ.CMD.GO : Field := ⟨0x80010, 47, 47, 0⟩
/-- GAZ.CMD.BUSY [48:48], RO (R257). -/
abbrev GAZ.CMD.BUSY : Field := ⟨0x80010, 48, 48, 0⟩
/-- GAZ.CMD.RESULT [51:49], RO (R257). -/
abbrev GAZ.CMD.RESULT : Field := ⟨0x80010, 51, 49, 0⟩
/-- GAZ.CMD.STATE [54:52], RO (R257). -/
abbrev GAZ.CMD.STATE : Field := ⟨0x80010, 54, 52, 0⟩
/-- GAZ.CMD_ARG.BASE [30:0], RW (R257). -/
abbrev GAZ.CMD_ARG.BASE : Field := ⟨0x80018, 30, 0, 0⟩
/-- GAZ.CMD_ARG.PART [32:31], RW (R257). -/
abbrev GAZ.CMD_ARG.PART : Field := ⟨0x80018, 32, 31, 0⟩
/-- GAZ.CMD_ARG.TIER [34:33], RW (R257). -/
abbrev GAZ.CMD_ARG.TIER : Field := ⟨0x80018, 34, 33, 0⟩
/-- GAZ.CMD_ARG.EPOCH [50:35], RW (R257). -/
abbrev GAZ.CMD_ARG.EPOCH : Field := ⟨0x80018, 50, 35, 0⟩
/-- GAZ.CMD_ARG.MODULE [62:51], RW (R257). -/
abbrev GAZ.CMD_ARG.MODULE : Field := ⟨0x80018, 62, 51, 0⟩
/-- GAZ.TRING_BASE.BASE [51:5], SH (R257). -/
abbrev GAZ.TRING_BASE.BASE : Field := ⟨0x80020, 51, 5, 0⟩
/-- GAZ.TRING_CTL.LOG2 [3:0], SH (R257). -/
abbrev GAZ.TRING_CTL.LOG2 : Field := ⟨0x80028, 3, 0, 0⟩
/-- GAZ.TRING_TAIL.INDEX [15:0], RW (R257). -/
abbrev GAZ.TRING_TAIL.INDEX : Field := ⟨0x8002c, 15, 0, 0⟩
/-- GAZ.TRING_HEAD.INDEX [15:0], RO (R257). -/
abbrev GAZ.TRING_HEAD.INDEX : Field := ⟨0x80030, 15, 0, 0⟩
/-- GAZ.HOST_n_t.BASE [29:0], SH (R257). -/
abbrev GAZ.HOST_n_t.BASE (a b : Nat) : Field := ⟨0x80100 + 0x20 * a + 0x8 * b, 29, 0, 0⟩
/-- GAZ.HOST_n_t.LIMIT [47:32], SH (R257). -/
abbrev GAZ.HOST_n_t.LIMIT (a b : Nat) : Field := ⟨0x80100 + 0x20 * a + 0x8 * b, 47, 32, 0⟩
/-- GAZ.HOST_n_t.COUNT [63:48], RO (R257). -/
abbrev GAZ.HOST_n_t.COUNT (a b : Nat) : Field := ⟨0x80100 + 0x20 * a + 0x8 * b, 63, 48, 0⟩
/-- CHT.SELF.MODULE [11:0], LK (R258). -/
abbrev CHT.SELF.MODULE : Field := ⟨0x90000, 11, 0, 0⟩
/-- CHT.TIMERS.RESP_US [13:0], SH (R258). -/
abbrev CHT.TIMERS.RESP_US : Field := ⟨0x90004, 13, 0, 100⟩
/-- CHT.TIMERS.RETRIES [17:14], SH (R258). -/
abbrev CHT.TIMERS.RETRIES : Field := ⟨0x90004, 17, 14, 3⟩
/-- CHT.TIMERS.UNAVAIL_MS [31:18], SH (R258). -/
abbrev CHT.TIMERS.UNAVAIL_MS : Field := ⟨0x90004, 31, 18, 3000⟩
/-- CHT.TIMERS2.DUP_US [15:0], SH (R258). -/
abbrev CHT.TIMERS2.DUP_US : Field := ⟨0x90008, 15, 0, 1000⟩
/-- CHT.TIMERS2.SEM_HOLD_US [23:16], SH (R258). -/
abbrev CHT.TIMERS2.SEM_HOLD_US : Field := ⟨0x90008, 23, 16, 50⟩
/-- CHT.TIMERS2.DIR_RETRIES [31:24], SH (R258). -/
abbrev CHT.TIMERS2.DIR_RETRIES : Field := ⟨0x90008, 31, 24, 5⟩
/-- CHT.DIR.DIR_US [15:0], SH (R258). -/
abbrev CHT.DIR.DIR_US : Field := ⟨0x9000c, 15, 0, 200⟩
/-- CHT.HINT.FLUSH [0:0], WO (R258). -/
abbrev CHT.HINT.FLUSH : Field := ⟨0x90010, 0, 0, 0⟩
/-- CHT.CREDITS_n.REQ_FREE [11:0], RO (R258). -/
abbrev CHT.CREDITS_n.REQ_FREE (a : Nat) : Field := ⟨0x90040 + 0x10 * a, 11, 0, 2048⟩
/-- CHT.CREDITS_n.WRITE_FREE [28:16], RO (R258). -/
abbrev CHT.CREDITS_n.WRITE_FREE (a : Nat) : Field := ⟨0x90040 + 0x10 * a, 28, 16, 4096⟩
/-- CHT.COUNTS_n.REDIRECTS [11:0], RO (R258). -/
abbrev CHT.COUNTS_n.REDIRECTS (a : Nat) : Field := ⟨0x90044 + 0x10 * a, 11, 0, 0⟩
/-- CHT.COUNTS_n.LATE [21:12], RO (R258). -/
abbrev CHT.COUNTS_n.LATE (a : Nat) : Field := ⟨0x90044 + 0x10 * a, 21, 12, 0⟩
/-- CHT.COUNTS_n.MALFORMED [31:22], RO (R258). -/
abbrev CHT.COUNTS_n.MALFORMED (a : Nat) : Field := ⟨0x90044 + 0x10 * a, 31, 22, 0⟩
/-- CHT.ERRORS_n.READ_FAILED [15:0], RO (R258). -/
abbrev CHT.ERRORS_n.READ_FAILED (a : Nat) : Field := ⟨0x90048 + 0x10 * a, 15, 0, 0⟩
/-- CHT.ERRORS_n.WRITE_LOST [31:16], RO (R258). -/
abbrev CHT.ERRORS_n.WRITE_LOST (a : Nat) : Field := ⟨0x90048 + 0x10 * a, 31, 16, 0⟩
/-- COL.STATUS.ACTIVE [6:0], RO (R259). -/
abbrev COL.STATUS.ACTIVE : Field := ⟨0xa0000, 6, 0, 0⟩
/-- COL.STATUS.ABORTS [31:16], RO (R259). -/
abbrev COL.STATUS.ABORTS : Field := ⟨0xa0000, 31, 16, 0⟩
/-- COL.COMPLETED.COUNT [23:0], RO (R259). -/
abbrev COL.COMPLETED.COUNT : Field := ⟨0xa0004, 23, 0, 0⟩
/-- COL.COMPLETED.POISONED [31:24], RO (R259). -/
abbrev COL.COMPLETED.POISONED : Field := ⟨0xa0004, 31, 24, 0⟩
/-- GRT.TOPO.SX_M1 [1:0], LK (R275). -/
abbrev GRT.TOPO.SX_M1 : Field := ⟨0xb0000, 1, 0, 0⟩
/-- GRT.TOPO.SY_M1 [3:2], LK (R275). -/
abbrev GRT.TOPO.SY_M1 : Field := ⟨0xb0000, 3, 2, 0⟩
/-- GRT.TOPO.SZ_M1 [5:4], LK (R275). -/
abbrev GRT.TOPO.SZ_M1 : Field := ⟨0xb0000, 5, 4, 0⟩
/-- GRT.TOPO.SU_M1 [8:6], LK (R275). -/
abbrev GRT.TOPO.SU_M1 : Field := ⟨0xb0000, 8, 6, 0⟩
/-- GRT.TOPO.SV_M1 [11:9], LK (R275). -/
abbrev GRT.TOPO.SV_M1 : Field := ⟨0xb0000, 11, 9, 0⟩
/-- GRT.ROUTE.X [3:0], RW (R275). -/
abbrev GRT.ROUTE.X : Field := ⟨0xb0008, 3, 0, 0⟩
/-- GRT.ROUTE.Y [7:4], RW (R275). -/
abbrev GRT.ROUTE.Y : Field := ⟨0xb0008, 7, 4, 0⟩
/-- GRT.ROUTE.Z [11:8], RW (R275). -/
abbrev GRT.ROUTE.Z : Field := ⟨0xb0008, 11, 8, 0⟩
/-- GRT.ROUTE.U [19:12], RW (R275). -/
abbrev GRT.ROUTE.U : Field := ⟨0xb0008, 19, 12, 0⟩
/-- GRT.ROUTE.V [27:20], RW (R275). -/
abbrev GRT.ROUTE.V : Field := ⟨0xb0008, 27, 20, 0⟩
/-- GRT.CFG.WINDOW_US [15:0], SH (R275). -/
abbrev GRT.CFG.WINDOW_US : Field := ⟨0xb0010, 15, 0, 1000⟩
/-- GRT.CFG.UCW_LIMIT [23:16], SH (R275). -/
abbrev GRT.CFG.UCW_LIMIT : Field := ⟨0xb0010, 23, 16, 4⟩
/-- GRT.CFG.REPLAY_LIMIT [31:24], SH (R275). -/
abbrev GRT.CFG.REPLAY_LIMIT : Field := ⟨0xb0010, 31, 24, 8⟩
/-- GRT.CFG2.LANE_CE_LIMIT [15:0], SH (R275). -/
abbrev GRT.CFG2.LANE_CE_LIMIT : Field := ⟨0xb0014, 15, 0, 32768⟩
/-- GRT.CFG2.REPLAY_TIMEOUT_US [23:16], SH (R275). -/
abbrev GRT.CFG2.REPLAY_TIMEOUT_US : Field := ⟨0xb0014, 23, 16, 10⟩
/-- GRT.CFG2.WARM_MS [31:24], SH (R275). -/
abbrev GRT.CFG2.WARM_MS : Field := ⟨0xb0014, 31, 24, 50⟩
/-- GRT.CFG3.RETRAIN_LIMIT [7:0], SH (R275). -/
abbrev GRT.CFG3.RETRAIN_LIMIT : Field := ⟨0xb0018, 7, 0, 8⟩
/-- GRT.CFG3.SHADOW_MS [23:8], SH (R275). -/
abbrev GRT.CFG3.SHADOW_MS : Field := ⟨0xb0018, 23, 8, 1⟩
/-- GRT.PSTATE_p.STATE [2:0], RO (R275). -/
abbrev GRT.PSTATE_p.STATE (a : Nat) : Field := ⟨0xb0100 + 0x40 * a, 2, 0, 0⟩
/-- GRT.PSTATE_p.HALF [3:3], RO (R275). -/
abbrev GRT.PSTATE_p.HALF (a : Nat) : Field := ⟨0xb0100 + 0x40 * a, 3, 3, 0⟩
/-- GRT.PSTATE_p.SHADOW [7:4], RO (R275). -/
abbrev GRT.PSTATE_p.SHADOW (a : Nat) : Field := ⟨0xb0100 + 0x40 * a, 7, 4, 15⟩
/-- GRT.PSTATE_p.FAILED [16:8], RO (R275). -/
abbrev GRT.PSTATE_p.FAILED (a : Nat) : Field := ⟨0xb0100 + 0x40 * a, 16, 8, 0⟩
/-- GRT.PSTATE_p.PEER_MODULE [31:20], RO (R275). -/
abbrev GRT.PSTATE_p.PEER_MODULE (a : Nat) : Field := ⟨0xb0100 + 0x40 * a, 31, 20, 0⟩
/-- GRT.PSTATE_p.PEER_PORT [35:32], RO (R275). -/
abbrev GRT.PSTATE_p.PEER_PORT (a : Nat) : Field := ⟨0xb0100 + 0x40 * a, 35, 32, 0⟩
/-- GRT.PSTATE_p.ATTEMPTS [39:36], RO (R275). -/
abbrev GRT.PSTATE_p.ATTEMPTS (a : Nat) : Field := ⟨0xb0100 + 0x40 * a, 39, 36, 0⟩
/-- GRT.PSTATE_p.ATTEMPTS_FULL [47:40], RO (R275). -/
abbrev GRT.PSTATE_p.ATTEMPTS_FULL (a : Nat) : Field := ⟨0xb0100 + 0x40 * a, 47, 40, 0⟩
/-- GRT.PCTRL_p.DISABLE [0:0], RW (R275). -/
abbrev GRT.PCTRL_p.DISABLE (a : Nat) : Field := ⟨0xb0108 + 0x40 * a, 0, 0, 0⟩
/-- GRT.PCTRL_p.RETRAIN [1:1], WO (R275). -/
abbrev GRT.PCTRL_p.RETRAIN (a : Nat) : Field := ⟨0xb0108 + 0x40 * a, 1, 1, 0⟩
/-- GRT.PCTRL_p.RETIRE [2:2], WO (R275). -/
abbrev GRT.PCTRL_p.RETIRE (a : Nat) : Field := ⟨0xb0108 + 0x40 * a, 2, 2, 0⟩
/-- GRT.PCTRL_p.LANE [6:3], RW (R275). -/
abbrev GRT.PCTRL_p.LANE (a : Nat) : Field := ⟨0xb0108 + 0x40 * a, 6, 3, 0⟩
/-- GRT.PERR_p.REPLAYS [15:0], RC (R275). -/
abbrev GRT.PERR_p.REPLAYS (a : Nat) : Field := ⟨0xb0110 + 0x40 * a, 15, 0, 0⟩
/-- GRT.PERR_p.UCW [31:16], RC (R275). -/
abbrev GRT.PERR_p.UCW (a : Nat) : Field := ⟨0xb0110 + 0x40 * a, 31, 16, 0⟩
/-- GRT.PERR_p.CRC_FAIL [47:32], RC (R275). -/
abbrev GRT.PERR_p.CRC_FAIL (a : Nat) : Field := ⟨0xb0110 + 0x40 * a, 47, 32, 0⟩
/-- GRT.PERR_p.TRAININGS [55:48], RO (R275). -/
abbrev GRT.PERR_p.TRAININGS (a : Nat) : Field := ⟨0xb0110 + 0x40 * a, 55, 48, 0⟩
/-- GRT.PERR_p.COLD [63:56], RO (R275). -/
abbrev GRT.PERR_p.COLD (a : Nat) : Field := ⟨0xb0110 + 0x40 * a, 63, 56, 0⟩
/-- GRT.DISCARDS_p.COUNT [31:0], RO (R275). -/
abbrev GRT.DISCARDS_p.COUNT (a : Nat) : Field := ⟨0xb0118 + 0x40 * a, 31, 0, 0⟩
/-- GRT.LANE_CE0_p.CE [63:0], RO (R275). -/
abbrev GRT.LANE_CE0_p.CE (a : Nat) : Field := ⟨0xb0120 + 0x40 * a, 63, 0, 0⟩
/-- GRT.LANE_CE1_p.CE [63:0], RO (R275). -/
abbrev GRT.LANE_CE1_p.CE (a : Nat) : Field := ⟨0xb0128 + 0x40 * a, 63, 0, 0⟩
/-- GRT.LANE_CE2_p.CE [63:0], RO (R275). -/
abbrev GRT.LANE_CE2_p.CE (a : Nat) : Field := ⟨0xb0130 + 0x40 * a, 63, 0, 0⟩
/-- FRL.CTRL.ATTACH [0:0], WO (R295). -/
abbrev FRL.CTRL.ATTACH : Field := ⟨0xc0000, 0, 0, 0⟩
/-- FRL.CTRL.FLUSH [1:1], WO (R295). -/
abbrev FRL.CTRL.FLUSH : Field := ⟨0xc0000, 1, 1, 0⟩
/-- FRL.CTRL.LOSS_HOLD [2:2], RW (R295). -/
abbrev FRL.CTRL.LOSS_HOLD : Field := ⟨0xc0000, 2, 2, 1⟩
/-- FRL.CTRL.DISABLE [3:3], RW (R295). -/
abbrev FRL.CTRL.DISABLE : Field := ⟨0xc0000, 3, 3, 0⟩
/-- FRL.CTRL.RETRAIN [4:4], WO (R295). -/
abbrev FRL.CTRL.RETRAIN : Field := ⟨0xc0000, 4, 4, 0⟩
/-- FRL.CTRL.RETIRE [5:5], WO (R295). -/
abbrev FRL.CTRL.RETIRE : Field := ⟨0xc0000, 5, 5, 0⟩
/-- FRL.CTRL.LANE [9:6], RW (R295). -/
abbrev FRL.CTRL.LANE : Field := ⟨0xc0000, 9, 6, 0⟩
/-- FRL.STATUS.STATE [2:0], RO (R295). -/
abbrev FRL.STATUS.STATE : Field := ⟨0xc0004, 2, 0, 0⟩
/-- FRL.STATUS.HALF [3:3], RO (R295). -/
abbrev FRL.STATUS.HALF : Field := ⟨0xc0004, 3, 3, 0⟩
/-- FRL.STATUS.SHADOW [7:4], RO (R295). -/
abbrev FRL.STATUS.SHADOW : Field := ⟨0xc0004, 7, 4, 15⟩
/-- FRL.STATUS.FAILED [16:8], RO (R295). -/
abbrev FRL.STATUS.FAILED : Field := ⟨0xc0004, 16, 8, 0⟩
/-- FRL.STATUS.ATTACHED [17:17], RO (R295). -/
abbrev FRL.STATUS.ATTACHED : Field := ⟨0xc0004, 17, 17, 0⟩
/-- FRL.STATUS.FLUSH_BUSY [18:18], RO (R295). -/
abbrev FRL.STATUS.FLUSH_BUSY : Field := ⟨0xc0004, 18, 18, 0⟩
/-- FRL.PEER_BOOT.BOOT_ID [31:0], RO (R295). -/
abbrev FRL.PEER_BOOT.BOOT_ID : Field := ⟨0xc0008, 31, 0, 0⟩
/-- FRL.TIMERS.RESP_US [15:0], SH (R295). -/
abbrev FRL.TIMERS.RESP_US : Field := ⟨0xc000c, 15, 0, 500⟩
/-- FRL.INT_CFG.BASE [15:0], SH (R295). -/
abbrev FRL.INT_CFG.BASE : Field := ⟨0xc0010, 15, 0, 0⟩
/-- FRL.INT_CFG.ENABLE [16:16], SH (R295). -/
abbrev FRL.INT_CFG.ENABLE : Field := ⟨0xc0010, 16, 16, 0⟩
/-- FRL.DOORBELL.CONTEXT [13:0], WO (R295). -/
abbrev FRL.DOORBELL.CONTEXT : Field := ⟨0xc0014, 13, 0, 0⟩
/-- FRL.CACHE.VALID [20:0], RO (R295). -/
abbrev FRL.CACHE.VALID : Field := ⟨0xc0018, 20, 0, 0⟩
/-- FRL.CACHE_CNT.MISSES [31:0], RC (R295). -/
abbrev FRL.CACHE_CNT.MISSES : Field := ⟨0xc0020, 31, 0, 0⟩
/-- FRL.CACHE_CNT.SNOOPS [63:32], RC (R295). -/
abbrev FRL.CACHE_CNT.SNOOPS : Field := ⟨0xc0020, 63, 32, 0⟩
/-- FRL.ERRORS.TIMEOUTS [15:0], RO (R295). -/
abbrev FRL.ERRORS.TIMEOUTS : Field := ⟨0xc0028, 15, 0, 0⟩
/-- FRL.ERRORS.PROTOCOL [31:16], RO (R295). -/
abbrev FRL.ERRORS.PROTOCOL : Field := ⟨0xc0028, 31, 16, 0⟩
/-- FRL.ERRORS.WRITE_LOST [47:32], RO (R295). -/
abbrev FRL.ERRORS.WRITE_LOST : Field := ⟨0xc0028, 47, 32, 0⟩
/-- FRL.ERRORS.DIRTY_LOST [63:48], RO (R295). -/
abbrev FRL.ERRORS.DIRTY_LOST : Field := ⟨0xc0028, 63, 48, 0⟩
/-- FRL.LOSS.LOSSES [15:0], RO (R295). -/
abbrev FRL.LOSS.LOSSES : Field := ⟨0xc0030, 15, 0, 0⟩
/-- FRL.LOSS.EVENTS_DROPPED [31:16], RO (R295). -/
abbrev FRL.LOSS.EVENTS_DROPPED : Field := ⟨0xc0030, 31, 16, 0⟩
/-- FRL.PERR.REPLAYS [15:0], RC (R295). -/
abbrev FRL.PERR.REPLAYS : Field := ⟨0xc0038, 15, 0, 0⟩
/-- FRL.PERR.UCW [31:16], RC (R295). -/
abbrev FRL.PERR.UCW : Field := ⟨0xc0038, 31, 16, 0⟩
/-- FRL.PERR.CRC_FAIL [47:32], RC (R295). -/
abbrev FRL.PERR.CRC_FAIL : Field := ⟨0xc0038, 47, 32, 0⟩
/-- FRL.PERR.TRAININGS [55:48], RO (R295). -/
abbrev FRL.PERR.TRAININGS : Field := ⟨0xc0038, 55, 48, 0⟩
/-- FRL.PERR.COLD [63:56], RO (R295). -/
abbrev FRL.PERR.COLD : Field := ⟨0xc0038, 63, 56, 0⟩
/-- FRL.LANE_CE0.CE [63:0], RO (R295). -/
abbrev FRL.LANE_CE0.CE : Field := ⟨0xc0040, 63, 0, 0⟩
/-- FRL.LANE_CE1.CE [63:0], RO (R295). -/
abbrev FRL.LANE_CE1.CE : Field := ⟨0xc0048, 63, 0, 0⟩
/-- FRL.LANE_CE2.CE [63:0], RO (R295). -/
abbrev FRL.LANE_CE2.CE : Field := ⟨0xc0050, 63, 0, 0⟩
/-- FRL.CREGION_i.BASE [51:21], SH (R295). -/
abbrev FRL.CREGION_i.BASE (a : Nat) : Field := ⟨0xc0060 + 0x8 * a, 51, 21, 0⟩
/-- FRL.CREGION_i.SIZE_M1 [62:52], SH (R295). -/
abbrev FRL.CREGION_i.SIZE_M1 (a : Nat) : Field := ⟨0xc0060 + 0x8 * a, 62, 52, 0⟩
/-- FRL.CREGION_i.ENABLE [63:63], SH (R295). -/
abbrev FRL.CREGION_i.ENABLE (a : Nat) : Field := ⟨0xc0060 + 0x8 * a, 63, 63, 0⟩
/-- WTS.CMD.MODEL [7:0], RW (R314). -/
abbrev WTS.CMD.MODEL : Field := ⟨0xd0000, 7, 0, 0⟩
/-- WTS.CMD.OP [10:8], RW (R314). -/
abbrev WTS.CMD.OP : Field := ⟨0xd0000, 10, 8, 0⟩
/-- WTS.CMD.GO [11:11], WO (R314). -/
abbrev WTS.CMD.GO : Field := ⟨0xd0000, 11, 11, 0⟩
/-- WTS.CMD.RESULT [14:12], RO (R314). -/
abbrev WTS.CMD.RESULT : Field := ⟨0xd0000, 14, 12, 0⟩
/-- WTS.CFG.DRAIN_MS [15:0], SH (R314). -/
abbrev WTS.CFG.DRAIN_MS : Field := ⟨0xd0004, 15, 0, 10⟩
/-- WTS.CFG.RETRIES [19:16], SH (R314). -/
abbrev WTS.CFG.RETRIES : Field := ⟨0xd0004, 19, 16, 3⟩
/-- WTS.CFG.SWEEP_LOG2 [24:20], SH (R314). -/
abbrev WTS.CFG.SWEEP_LOG2 : Field := ⟨0xd0004, 24, 20, 20⟩
/-- WTS.CFG2.SHARD_TIMEOUT_MS [15:0], SH (R314). -/
abbrev WTS.CFG2.SHARD_TIMEOUT_MS : Field := ⟨0xd0008, 15, 0, 2000⟩
/-- WTS.CFG2.POLL_US [31:16], SH (R314). -/
abbrev WTS.CFG2.POLL_US : Field := ⟨0xd0008, 31, 16, 100⟩
/-- WTS.STAGE_n.PAGES [15:0], SH (R314). -/
abbrev WTS.STAGE_n.PAGES (a : Nat) : Field := ⟨0xd0010 + 0x8 * a, 15, 0, 0⟩
/-- WTS.STAGE_n.BASE [51:16], SH (R314). -/
abbrev WTS.STAGE_n.BASE (a : Nat) : Field := ⟨0xd0010 + 0x8 * a, 51, 16, 0⟩
/-- WTS.STATUS.LANES_BUSY [5:0], RO (R314). -/
abbrev WTS.STATUS.LANES_BUSY : Field := ⟨0xd0030, 5, 0, 0⟩
/-- WTS.STATUS.WRITE_ERR [6:6], W1C (R314). -/
abbrev WTS.STATUS.WRITE_ERR : Field := ⟨0xd0030, 6, 6, 0⟩
/-- WTS.STATUS.SEAL_FAILS [31:16], RO (R314). -/
abbrev WTS.STATUS.SEAL_FAILS : Field := ⟨0xd0030, 31, 16, 0⟩
/-- WTS.COUNTS.SHARDS_LANDED [31:0], RO (R314). -/
abbrev WTS.COUNTS.SHARDS_LANDED : Field := ⟨0xd0038, 31, 0, 0⟩
/-- WTS.COUNTS.SWEEP_MISMATCH [47:32], RO (R314). -/
abbrev WTS.COUNTS.SWEEP_MISMATCH : Field := ⟨0xd0038, 47, 32, 0⟩
/-- WTS.COUNTS.EVICTIONS [63:48], RO (R314). -/
abbrev WTS.COUNTS.EVICTIONS : Field := ⟨0xd0038, 63, 48, 0⟩
/-- WTS.SWEEPS.COUNT [63:0], RO (R314). -/
abbrev WTS.SWEEPS.COUNT : Field := ⟨0xd0040, 63, 0, 0⟩
/-- WTS.DONE_i.MODELS [31:0], W1C (R314). -/
abbrev WTS.DONE_i.MODELS (a : Nat) : Field := ⟨0xd0060 + 0x4 * a, 31, 0, 0⟩
/-- ERR.CFG.INT_LEVEL [2:0], SH (R337). -/
abbrev ERR.CFG.INT_LEVEL : Field := ⟨0xe0000, 2, 0, 2⟩
/-- ERR.CFG.RATE_MS [15:8], SH (R337). -/
abbrev ERR.CFG.RATE_MS : Field := ⟨0xe0000, 15, 8, 100⟩
/-- ERR.CFG.MIRROR_EN [16:16], SH (R337). -/
abbrev ERR.CFG.MIRROR_EN : Field := ⟨0xe0000, 16, 16, 0⟩
/-- ERR.PRODUCER.SEQ [31:0], RO (R337). -/
abbrev ERR.PRODUCER.SEQ : Field := ⟨0xe0004, 31, 0, 0⟩
/-- ERR.CONSUMER.SEQ [31:0], RW (R337). -/
abbrev ERR.CONSUMER.SEQ : Field := ⟨0xe0008, 31, 0, 0⟩
/-- ERR.LOSS.COUNT [31:0], RO (R337). -/
abbrev ERR.LOSS.COUNT : Field := ⟨0xe000c, 31, 0, 0⟩
/-- ERR.ACK.DOMAIN [3:0], WO (R337). -/
abbrev ERR.ACK.DOMAIN : Field := ⟨0xe0010, 3, 0, 0⟩
/-- ERR.ACK.GO [4:4], WO (R337). -/
abbrev ERR.ACK.GO : Field := ⟨0xe0010, 4, 4, 0⟩
/-- ERR.MIRROR_BASE.BASE [63:18], SH (R337). -/
abbrev ERR.MIRROR_BASE.BASE : Field := ⟨0xe0018, 63, 18, 0⟩
/-- ERR.WINDOW_INDEX.SEQ [31:0], RW (R337). -/
abbrev ERR.WINDOW_INDEX.SEQ : Field := ⟨0xe0020, 31, 0, 0⟩
/-- ERR.DOMAIN_d.HANDLING [0:0], RO (R337). -/
abbrev ERR.DOMAIN_d.HANDLING (a : Nat) : Field := ⟨0xe0040 + 0x4 * a, 0, 0, 0⟩
/-- ERR.DOMAIN_d.LEVEL [3:1], RO (R337). -/
abbrev ERR.DOMAIN_d.LEVEL (a : Nat) : Field := ⟨0xe0040 + 0x4 * a, 3, 1, 0⟩
/-- ERR.DOMAIN_d.LOST_SEEN [4:4], W1C (R337). -/
abbrev ERR.DOMAIN_d.LOST_SEEN (a : Nat) : Field := ⟨0xe0040 + 0x4 * a, 4, 4, 0⟩
/-- ERR.DOMAIN_d.NESTED_COUNT [31:16], RO (R337). -/
abbrev ERR.DOMAIN_d.NESTED_COUNT (a : Nat) : Field := ⟨0xe0040 + 0x4 * a, 31, 16, 0⟩
/-- RST.UNIT.CORE [3:0], RW (R338). -/
abbrev RST.UNIT.CORE : Field := ⟨0xf0000, 3, 0, 0⟩
/-- RST.UNIT.UNIT [7:4], RW (R338). -/
abbrev RST.UNIT.UNIT : Field := ⟨0xf0000, 7, 4, 0⟩
/-- RST.UNIT.GO [8:8], WO (R338). -/
abbrev RST.UNIT.GO : Field := ⟨0xf0000, 8, 8, 0⟩
/-- RST.UNIT.BUSY [9:9], RO (R338). -/
abbrev RST.UNIT.BUSY : Field := ⟨0xf0000, 9, 9, 0⟩
/-- RST.UNIT.ERR [10:10], W1C (R338). -/
abbrev RST.UNIT.ERR : Field := ⟨0xf0000, 10, 10, 0⟩
/-- RST.PART_n.GO [0:0], WO (R338). -/
abbrev RST.PART_n.GO (a : Nat) : Field := ⟨0xf0010 + 0x4 * a, 0, 0, 0⟩
/-- RST.PART_n.MODE [1:1], RW (R338). -/
abbrev RST.PART_n.MODE (a : Nat) : Field := ⟨0xf0010 + 0x4 * a, 1, 1, 0⟩
/-- RST.PART_n.TRACE [2:2], RW (R338). -/
abbrev RST.PART_n.TRACE (a : Nat) : Field := ⟨0xf0010 + 0x4 * a, 2, 2, 1⟩
/-- RST.PART_n.BUSY [3:3], RO (R338). -/
abbrev RST.PART_n.BUSY (a : Nat) : Field := ⟨0xf0010 + 0x4 * a, 3, 3, 0⟩
/-- RST.PART_n.STEP [7:4], RO (R338). -/
abbrev RST.PART_n.STEP (a : Nat) : Field := ⟨0xf0010 + 0x4 * a, 7, 4, 0⟩
/-- RST.PART_n.ERR [8:8], W1C (R338). -/
abbrev RST.PART_n.ERR (a : Nat) : Field := ⟨0xf0010 + 0x4 * a, 8, 8, 0⟩
/-- RST.CHIP.GO [0:0], WO (R338). -/
abbrev RST.CHIP.GO : Field := ⟨0xf0020, 0, 0, 0⟩
/-- RST.CHIP.TRACE [1:1], RW (R338). -/
abbrev RST.CHIP.TRACE : Field := ⟨0xf0020, 1, 1, 1⟩
/-- RST.PERSIST.CHIP_RETAIN [0:0], RW (R338). -/
abbrev RST.PERSIST.CHIP_RETAIN : Field := ⟨0xf0024, 0, 0, 0⟩
/-- RST.PERSIST.LAST_CAUSE [3:1], RO (R338). -/
abbrev RST.PERSIST.LAST_CAUSE : Field := ⟨0xf0024, 3, 1, 0⟩
/-- RST.PERSIST.CHIP_RESETS [31:16], RO (R338). -/
abbrev RST.PERSIST.CHIP_RESETS : Field := ⟨0xf0024, 31, 16, 0⟩
/-- RST.TRACE_CFG.HEAD [7:0], SH (R338). -/
abbrev RST.TRACE_CFG.HEAD : Field := ⟨0xf0030, 7, 0, 4⟩
/-- RST.TRACE_CFG.SAMPLES [15:8], SH (R338). -/
abbrev RST.TRACE_CFG.SAMPLES : Field := ⟨0xf0030, 15, 8, 12⟩
/-- RST.TRACE_CFG.STRIDE [31:16], SH (R338). -/
abbrev RST.TRACE_CFG.STRIDE : Field := ⟨0xf0030, 31, 16, 4096⟩
/-- RST.TRACE_CFG2.BANK_TIMEOUT [15:0], SH (R338). -/
abbrev RST.TRACE_CFG2.BANK_TIMEOUT : Field := ⟨0xf0034, 15, 0, 256⟩
/-- RST.TRACE_SLOT_k.STATE [1:0], RO (R338). -/
abbrev RST.TRACE_SLOT_k.STATE (a : Nat) : Field := ⟨0xf0040 + 0x8 * a, 1, 0, 0⟩
/-- RST.TRACE_SLOT_k.NEWER [2:2], RO (R338). -/
abbrev RST.TRACE_SLOT_k.NEWER (a : Nat) : Field := ⟨0xf0040 + 0x8 * a, 2, 2, 0⟩
/-- RST.TRACE_SLOT_k.RELEASE [3:3], WO (R338). -/
abbrev RST.TRACE_SLOT_k.RELEASE (a : Nat) : Field := ⟨0xf0040 + 0x8 * a, 3, 3, 0⟩
/-- RST.TRACE_SLOT_k.LENGTH [63:32], RO (R338). -/
abbrev RST.TRACE_SLOT_k.LENGTH (a : Nat) : Field := ⟨0xf0040 + 0x8 * a, 63, 32, 0⟩
/-- RST.TRACE_READ.SLOT [0:0], RW (R338). -/
abbrev RST.TRACE_READ.SLOT : Field := ⟨0xf0050, 0, 0, 0⟩
/-- RST.TRACE_READ.OFFSET [21:6], RW (R338). -/
abbrev RST.TRACE_READ.OFFSET : Field := ⟨0xf0050, 21, 6, 0⟩
/-- HLT.CFG.WINDOW_S [7:0], SH (R339). -/
abbrev HLT.CFG.WINDOW_S : Field := ⟨0x100000, 7, 0, 60⟩
/-- HLT.CFG.CE_UNIT [15:8], SH (R339). -/
abbrev HLT.CFG.CE_UNIT : Field := ⟨0x100000, 15, 8, 64⟩
/-- HLT.CFG.WATCH_BELOW [23:16], SH (R339). -/
abbrev HLT.CFG.WATCH_BELOW : Field := ⟨0x100000, 23, 16, 192⟩
/-- HLT.CFG.FAIL_BELOW [31:24], SH (R339). -/
abbrev HLT.CFG.FAIL_BELOW : Field := ⟨0x100000, 31, 24, 64⟩
/-- HLT.CFG2.CLEAR_ABOVE [7:0], SH (R339). -/
abbrev HLT.CFG2.CLEAR_ABOVE : Field := ⟨0x100004, 7, 0, 224⟩
/-- HLT.CFG2.CLEAR_WINDOWS [15:8], SH (R339). -/
abbrev HLT.CFG2.CLEAR_WINDOWS : Field := ⟨0x100004, 15, 8, 10⟩
/-- HLT.CFG2.CONF_MIN [23:16], SH (R339). -/
abbrev HLT.CFG2.CONF_MIN : Field := ⟨0x100004, 23, 16, 128⟩
/-- HLT.SCORE_n.SCORE [7:0], RO (R339). -/
abbrev HLT.SCORE_n.SCORE (a : Nat) : Field := ⟨0x100010 + 0x10 * a, 7, 0, 255⟩
/-- HLT.SCORE_n.CONF [15:8], RO (R339). -/
abbrev HLT.SCORE_n.CONF (a : Nat) : Field := ⟨0x100010 + 0x10 * a, 15, 8, 0⟩
/-- HLT.SCORE_n.STATE [17:16], RO (R339). -/
abbrev HLT.SCORE_n.STATE (a : Nat) : Field := ⟨0x100010 + 0x10 * a, 17, 16, 1⟩
/-- HLT.SCORE_n.PROBATION [18:18], WO (R339). -/
abbrev HLT.SCORE_n.PROBATION (a : Nat) : Field := ⟨0x100010 + 0x10 * a, 18, 18, 0⟩
/-- HLT.SCORE_n.RESET_STATE [19:19], WO (R339). -/
abbrev HLT.SCORE_n.RESET_STATE (a : Nat) : Field := ⟨0x100010 + 0x10 * a, 19, 19, 0⟩
/-- HLT.SCORE_n.CLEAN [27:20], RO (R339). -/
abbrev HLT.SCORE_n.CLEAN (a : Nat) : Field := ⟨0x100010 + 0x10 * a, 27, 20, 0⟩
/-- HLT.DETAIL_n.P_CE [7:0], RO (R339). -/
abbrev HLT.DETAIL_n.P_CE (a : Nat) : Field := ⟨0x100018 + 0x10 * a, 7, 0, 0⟩
/-- HLT.DETAIL_n.P_UE [15:8], RO (R339). -/
abbrev HLT.DETAIL_n.P_UE (a : Nat) : Field := ⟨0x100018 + 0x10 * a, 15, 8, 0⟩
/-- HLT.DETAIL_n.P_CH [23:16], RO (R339). -/
abbrev HLT.DETAIL_n.P_CH (a : Nat) : Field := ⟨0x100018 + 0x10 * a, 23, 16, 0⟩
/-- HLT.DETAIL_n.P_LN [31:24], RO (R339). -/
abbrev HLT.DETAIL_n.P_LN (a : Nat) : Field := ⟨0x100018 + 0x10 * a, 31, 24, 0⟩
/-- HLT.DETAIL_n.P_RR [39:32], RO (R339). -/
abbrev HLT.DETAIL_n.P_RR (a : Nat) : Field := ⟨0x100018 + 0x10 * a, 39, 32, 0⟩
/-- HLT.DETAIL_n.P_TH [47:40], RO (R339). -/
abbrev HLT.DETAIL_n.P_TH (a : Nat) : Field := ⟨0x100018 + 0x10 * a, 47, 40, 0⟩
/-- HLT.DETAIL_n.WINDOWS [63:48], RO (R339). -/
abbrev HLT.DETAIL_n.WINDOWS (a : Nat) : Field := ⟨0x100018 + 0x10 * a, 63, 48, 0⟩
/-- HLT.JOB.JOB_ID [31:0], RW (R339). -/
abbrev HLT.JOB.JOB_ID : Field := ⟨0x100080, 31, 0, 0⟩
/-- HLT.JOB.LOGICAL [47:32], RW (R339). -/
abbrev HLT.JOB.LOGICAL : Field := ⟨0x100080, 47, 32, 0⟩
/-- HLT.JOB.LOST [63:63], RO (R339). -/
abbrev HLT.JOB.LOST : Field := ⟨0x100080, 63, 63, 0⟩
/-- HLT.REPORT.STATE_LOST [0:0], WO (R339). -/
abbrev HLT.REPORT.STATE_LOST : Field := ⟨0x100088, 0, 0, 0⟩
/-- BOOT.STATUS.STAGE [3:0], RO (R361). -/
abbrev BOOT.STATUS.STAGE : Field := ⟨0x110000, 3, 0, 0⟩
/-- BOOT.STATUS.READY [4:4], RO (R361). -/
abbrev BOOT.STATUS.READY : Field := ⟨0x110000, 4, 4, 0⟩
/-- BOOT.STATUS.STARTED [5:5], RO (R361). -/
abbrev BOOT.STATUS.STARTED : Field := ⟨0x110000, 5, 5, 0⟩
/-- BOOT.STATUS.IMAGE [6:6], RO (R361). -/
abbrev BOOT.STATUS.IMAGE : Field := ⟨0x110000, 6, 6, 0⟩
/-- BOOT.STATUS.FELL_BACK [7:7], RO (R361). -/
abbrev BOOT.STATUS.FELL_BACK : Field := ⟨0x110000, 7, 7, 0⟩
/-- BOOT.STATUS.REASON_A [11:8], RO (R361). -/
abbrev BOOT.STATUS.REASON_A : Field := ⟨0x110000, 11, 8, 0⟩
/-- BOOT.STATUS.REASON_B [15:12], RO (R361). -/
abbrev BOOT.STATUS.REASON_B : Field := ⟨0x110000, 15, 12, 0⟩
/-- BOOT.STATUS.LK_WRITE [16:16], W1C (R361). -/
abbrev BOOT.STATUS.LK_WRITE : Field := ⟨0x110000, 16, 16, 0⟩
/-- BOOT.LK_COUNT.COUNT [31:0], RO (R361). -/
abbrev BOOT.LK_COUNT.COUNT : Field := ⟨0x110004, 31, 0, 0⟩
/-- BOOT.SVN.IMAGE_SVN [7:0], RO (R361). -/
abbrev BOOT.SVN.IMAGE_SVN : Field := ⟨0x110008, 7, 0, 0⟩
/-- BOOT.SVN.FUSE_SVN [15:8], RO (R361). -/
abbrev BOOT.SVN.FUSE_SVN : Field := ⟨0x110008, 15, 8, 0⟩
/-- BOOT.SVN.KEY_SLOT [17:16], RO (R361). -/
abbrev BOOT.SVN.KEY_SLOT : Field := ⟨0x110008, 17, 16, 0⟩
/-- BOOT.SVN.REVOKED [21:18], RO (R361). -/
abbrev BOOT.SVN.REVOKED : Field := ⟨0x110008, 21, 18, 0⟩
/-- BOOT.DIGEST_i.BYTES [31:0], RO (R361). -/
abbrev BOOT.DIGEST_i.BYTES (a : Nat) : Field := ⟨0x110010 + 0x4 * a, 31, 0, 0⟩
/-- BOOT.FUSE_INDEX.WORD [7:0], RW (R361). -/
abbrev BOOT.FUSE_INDEX.WORD : Field := ⟨0x110040, 7, 0, 0⟩
/-- BOOT.FUSE_DATA.DATA [31:0], RO (R361). -/
abbrev BOOT.FUSE_DATA.DATA : Field := ⟨0x110044, 31, 0, 0⟩
/-- BOOT.ATT_NONCE_i.BYTES [31:0], RW (R361). -/
abbrev BOOT.ATT_NONCE_i.BYTES (a : Nat) : Field := ⟨0x110050 + 0x4 * a, 31, 0, 0⟩
/-- BOOT.ATT_CTRL.GO [0:0], WO (R361). -/
abbrev BOOT.ATT_CTRL.GO : Field := ⟨0x110070, 0, 0, 0⟩
/-- BOOT.ATT_CTRL.BUSY [1:1], RO (R361). -/
abbrev BOOT.ATT_CTRL.BUSY : Field := ⟨0x110070, 1, 1, 0⟩
/-- BOOT.ATT_CTRL.RESULT [4:2], RO (R361). -/
abbrev BOOT.ATT_CTRL.RESULT : Field := ⟨0x110070, 4, 2, 0⟩
/-- BOOT.ATT_CTRL.ERR [5:5], W1C (R361). -/
abbrev BOOT.ATT_CTRL.ERR : Field := ⟨0x110070, 5, 5, 0⟩
/-- BOOT.ATT_COUNT.H10_KEYS [15:0], RO (R361). -/
abbrev BOOT.ATT_COUNT.H10_KEYS : Field := ⟨0x110074, 15, 0, 0⟩
/-- BOOT.ATT_COUNT.BLOCKS_LEFT [31:16], RO (R361). -/
abbrev BOOT.ATT_COUNT.BLOCKS_LEFT : Field := ⟨0x110074, 31, 16, 0⟩
/-- DBG.STATUS.UNLOCKED [0:0], RO (R370). -/
abbrev DBG.STATUS.UNLOCKED : Field := ⟨0x130000, 0, 0, 0⟩
/-- DBG.STATUS.SCOPE [2:1], RO (R370). -/
abbrev DBG.STATUS.SCOPE : Field := ⟨0x130000, 2, 1, 0⟩
/-- DBG.STATUS.BACKOFF [3:3], RO (R370). -/
abbrev DBG.STATUS.BACKOFF : Field := ⟨0x130000, 3, 3, 0⟩
/-- DBG.STATUS.FAILS [7:4], RO (R370). -/
abbrev DBG.STATUS.FAILS : Field := ⟨0x130000, 7, 4, 0⟩
/-- DBG.STATUS.HALTED [23:8], RO (R370). -/
abbrev DBG.STATUS.HALTED : Field := ⟨0x130000, 23, 8, 0⟩
/-- DBG.CORE_c.HALT_REQ [0:0], RO (R370). -/
abbrev DBG.CORE_c.HALT_REQ (a : Nat) : Field := ⟨0x130010 + 0x4 * a, 0, 0, 0⟩
/-- DBG.CORE_c.HALTED [1:1], RO (R370). -/
abbrev DBG.CORE_c.HALTED (a : Nat) : Field := ⟨0x130010 + 0x4 * a, 1, 1, 0⟩
/-- DBG.CORE_c.STEPPING [2:2], RO (R370). -/
abbrev DBG.CORE_c.STEPPING (a : Nat) : Field := ⟨0x130010 + 0x4 * a, 2, 2, 0⟩
/-- DBG.CORE_c.BP_HIT [3:3], RO (R370). -/
abbrev DBG.CORE_c.BP_HIT (a : Nat) : Field := ⟨0x130010 + 0x4 * a, 3, 3, 0⟩
/-- DBG.CORE_c.BP_INDEX [5:4], RO (R370). -/
abbrev DBG.CORE_c.BP_INDEX (a : Nat) : Field := ⟨0x130010 + 0x4 * a, 5, 4, 0⟩
/-- DBG.BP_c_i.MATCH [63:0], RO (R370). -/
abbrev DBG.BP_c_i.MATCH (a b : Nat) : Field := ⟨0x130100 + 0x20 * a + 0x8 * b, 63, 0, 0⟩
/-- MGT.STATUS.STAGE [3:0], RO (R374). -/
abbrev MGT.STATUS.STAGE : Field := ⟨0x140000, 3, 0, 0⟩
/-- MGT.STATUS.STARTED [4:4], RO (R374). -/
abbrev MGT.STATUS.STARTED : Field := ⟨0x140000, 4, 4, 0⟩
/-- MGT.STATUS.ATTACHED [5:5], RO (R374). -/
abbrev MGT.STATUS.ATTACHED : Field := ⟨0x140000, 5, 5, 0⟩
/-- MGT.STATUS.ALERT_DIE [6:6], RO (R374). -/
abbrev MGT.STATUS.ALERT_DIE : Field := ⟨0x140000, 6, 6, 0⟩
/-- MGT.STATUS.ALERT_INLET [7:7], RO (R374). -/
abbrev MGT.STATUS.ALERT_INLET : Field := ⟨0x140000, 7, 7, 0⟩
/-- MGT.STATUS.MODULE [19:8], RO (R374). -/
abbrev MGT.STATUS.MODULE : Field := ⟨0x140000, 19, 8, 0⟩
/-- MGT.TEMP.DIE_MAX_C [7:0], RO (R374). -/
abbrev MGT.TEMP.DIE_MAX_C : Field := ⟨0x140004, 7, 0, 0⟩
/-- MGT.TEMP.INLET_C [15:8], RO (R374). -/
abbrev MGT.TEMP.INLET_C : Field := ⟨0x140004, 15, 8, 0⟩
/-- MGT.TEMP.OUTLET_C [23:16], RO (R374). -/
abbrev MGT.TEMP.OUTLET_C : Field := ⟨0x140004, 23, 16, 0⟩
/-- MGT.TEMP.SHELL_C [31:24], RO (R374). -/
abbrev MGT.TEMP.SHELL_C : Field := ⟨0x140004, 31, 24, 0⟩
/-- MGT.POWER.WATTS [15:0], RO (R374). -/
abbrev MGT.POWER.WATTS : Field := ⟨0x140008, 15, 0, 0⟩
/-- MGT.POWER.MEAN_WATTS [31:16], RO (R374). -/
abbrev MGT.POWER.MEAN_WATTS : Field := ⟨0x140008, 31, 16, 0⟩
/-- MGT.ERRORS.LEVEL [2:0], RO (R374). -/
abbrev MGT.ERRORS.LEVEL : Field := ⟨0x14000c, 2, 0, 0⟩
/-- MGT.ERRORS.HANDLING [19:4], RO (R374). -/
abbrev MGT.ERRORS.HANDLING : Field := ⟨0x14000c, 19, 4, 0⟩
/-- MGT.ERRORS.PRODUCER [31:20], RO (R374). -/
abbrev MGT.ERRORS.PRODUCER : Field := ⟨0x14000c, 31, 20, 0⟩
/-- MGT.HEALTH_n.SCORE_STATE [17:0], RO (R374). -/
abbrev MGT.HEALTH_n.SCORE_STATE (a : Nat) : Field := ⟨0x140010 + 0x4 * a, 17, 0, 65791⟩
/-- MGT.JOB.JOB [63:0], RO (R374). -/
abbrev MGT.JOB.JOB : Field := ⟨0x140020, 63, 0, 0⟩
/-- MGT.DIE_ID.DIE_ID [63:0], RO (R374). -/
abbrev MGT.DIE_ID.DIE_ID : Field := ⟨0x140028, 63, 0, 0⟩
/-- MGT.NOTICE.OFF_NOTICE [0:0], WO (R374). -/
abbrev MGT.NOTICE.OFF_NOTICE : Field := ⟨0x140030, 0, 0, 0⟩
/-- MGT.NOTICE.QUIESCED [1:1], RO (R374). -/
abbrev MGT.NOTICE.QUIESCED : Field := ⟨0x140030, 1, 1, 0⟩
/-- MGT.TRAY_REQ.CODE [1:0], RW (R374). -/
abbrev MGT.TRAY_REQ.CODE : Field := ⟨0x140034, 1, 0, 0⟩
/-- MGT.IBI_CFG.HEALTH [0:0], RW (R374). -/
abbrev MGT.IBI_CFG.HEALTH : Field := ⟨0x140038, 0, 0, 0⟩
/-- MGT.IBI_CFG.ERROR [1:1], RW (R374). -/
abbrev MGT.IBI_CFG.ERROR : Field := ⟨0x140038, 1, 1, 0⟩
/-- MGT.IBI_CFG.TRAY [2:2], RW (R374). -/
abbrev MGT.IBI_CFG.TRAY : Field := ⟨0x140038, 2, 2, 0⟩
/-- MGT.IBI_CFG.THERMAL [3:3], RW (R374). -/
abbrev MGT.IBI_CFG.THERMAL : Field := ⟨0x140038, 3, 3, 0⟩
/-- MGT.IBI_CFG.ERR_LEVEL [10:8], RW (R374). -/
abbrev MGT.IBI_CFG.ERR_LEVEL : Field := ⟨0x140038, 10, 8, 3⟩
/-- MGT.IBI_CAUSE.HEALTH [0:0], W1C (R374). -/
abbrev MGT.IBI_CAUSE.HEALTH : Field := ⟨0x14003c, 0, 0, 0⟩
/-- MGT.IBI_CAUSE.ERROR [1:1], W1C (R374). -/
abbrev MGT.IBI_CAUSE.ERROR : Field := ⟨0x14003c, 1, 1, 0⟩
/-- MGT.IBI_CAUSE.TRAY [2:2], W1C (R374). -/
abbrev MGT.IBI_CAUSE.TRAY : Field := ⟨0x14003c, 2, 2, 0⟩
/-- MGT.IBI_CAUSE.THERMAL [3:3], W1C (R374). -/
abbrev MGT.IBI_CAUSE.THERMAL : Field := ⟨0x14003c, 3, 3, 0⟩

/-- The registers of block PWR. -/
def regsPWR : List RegRow := [
  ⟨"PWR.MODULE_LIMIT", 0x0, [], false, .shell,
    [⟨"WATTS", .sh, 15, 0, 1500⟩]⟩,
  ⟨"PWR.INPUT", 0x4, [], false, .shell,
    [⟨"WATTS", .ro, 15, 0, 0⟩, ⟨"MEAN_WATTS", .ro, 31, 16, 0⟩]⟩,
  ⟨"PWR.EVENTS", 0x8, [], false, .shell,
    [⟨"PEAK", .w1c, 0, 0, 0⟩, ⟨"EXCURSION", .w1c, 1, 1, 0⟩, ⟨"AVERAGE", .w1c, 2, 2, 0⟩, ⟨"THERMAL", .w1c, 3, 3, 0⟩, ⟨"COUNT", .rc, 31, 16, 0⟩]⟩,
  ⟨"PWR.P_CAP_n", 0x10, [(0x4, 4)], false, .part,
    [⟨"WATTS", .sh, 15, 0, 310⟩, ⟨"PROTECT", .sh, 16, 16, 0⟩]⟩,
  ⟨"PWR.P_STATE_n", 0x20, [(0x4, 4)], false, .shell,
    [⟨"GATE", .ro, 4, 0, 16⟩, ⟨"WATTS", .ro, 31, 16, 0⟩]⟩,
  ⟨"PWR.THERM_CFG", 0x30, [], false, .shell,
    [⟨"THROTTLE_C", .sh, 7, 0, 95⟩, ⟨"ALERT_C", .sh, 15, 8, 100⟩, ⟨"DIE_MAX_C", .ro, 23, 16, 0⟩, ⟨"INLET_C", .ro, 31, 24, 0⟩]⟩]
/-- The registers of block STK. -/
def regsSTK : List RegRow := [
  ⟨"STK.TIME", 0x10000, [], true, .shell,
    [⟨"ACLK", .ro, 63, 0, 0⟩]⟩,
  ⟨"STK.CTRL_n", 0x10020, [(0x20, 4)], false, .part,
    [⟨"RUN", .rw, 0, 0, 0⟩, ⟨"RUNNING", .ro, 1, 1, 0⟩, ⟨"ERR", .w1c, 2, 2, 0⟩]⟩,
  ⟨"STK.PERIOD_n", 0x10024, [(0x20, 4)], false, .part,
    [⟨"ACLK", .sh, 26, 0, 800000⟩]⟩,
  ⟨"STK.START_n", 0x10028, [(0x20, 4)], true, .part,
    [⟨"ACLK", .rw, 63, 0, 0⟩]⟩,
  ⟨"STK.COUNT_n", 0x10030, [(0x20, 4)], true, .part,
    [⟨"STROKES", .ro, 63, 0, 0⟩]⟩,
  ⟨"STK.NEXT_n", 0x10038, [(0x20, 4)], true, .part,
    [⟨"ACLK", .ro, 63, 0, 18446744073709551615⟩]⟩]
/-- The registers of block PART. -/
def regsPART : List RegRow := [
  ⟨"PART.POWER_n", 0x20000, [(0x4, 4)], false, .part,
    [⟨"TARGET", .rw, 1, 0, 0⟩, ⟨"STATE", .ro, 3, 2, 0⟩, ⟨"ERR", .w1c, 4, 4, 0⟩, ⟨"TRANSITIONS", .ro, 31, 16, 0⟩]⟩]
/-- The registers of block ENG. -/
def regsENG : List RegRow := [
  ⟨"ENG.OPS_i", 0x800000, [(0x10000, 16), (0x40, 8)], false, .shell,
    [⟨"COUNT", .ro, 31, 0, 0⟩]⟩,
  ⟨"ENG.PASSES_i", 0x800004, [(0x10000, 16), (0x40, 8)], false, .shell,
    [⟨"COUNT", .ro, 31, 0, 0⟩]⟩,
  ⟨"ENG.STREAM_i", 0x800008, [(0x10000, 16), (0x40, 8)], true, .shell,
    [⟨"ACLK", .ro, 63, 0, 0⟩]⟩,
  ⟨"ENG.BUBBLE_i", 0x800010, [(0x10000, 16), (0x40, 8)], true, .shell,
    [⟨"ACLK", .ro, 63, 0, 0⟩]⟩,
  ⟨"ENG.HOLD_i", 0x800018, [(0x10000, 16), (0x40, 8)], true, .shell,
    [⟨"ACLK", .ro, 63, 0, 0⟩]⟩,
  ⟨"ENG.STATE_i", 0x800020, [(0x10000, 16), (0x40, 8)], false, .shell,
    [⟨"BUSY", .ro, 0, 0, 0⟩, ⟨"PLANE0_FULL", .ro, 1, 1, 0⟩, ⟨"PLANE1_FULL", .ro, 2, 2, 0⟩, ⟨"ACTIVE_PLANE", .ro, 3, 3, 0⟩, ⟨"CLASS", .ro, 5, 4, 0⟩, ⟨"PASS", .ro, 31, 16, 0⟩]⟩]
/-- The registers of block NUM. -/
def regsNUM : List RegRow := [
  ⟨"NUM.TABLE_BASE_n", 0x30000, [(0x10, 4)], false, .part,
    [⟨"BASE", .sh, 31, 7, 0⟩]⟩,
  ⟨"NUM.TABLE_LEN_n", 0x30004, [(0x10, 4)], false, .part,
    [⟨"ENTRIES", .sh, 13, 0, 0⟩]⟩,
  ⟨"NUM.EVENTS_n", 0x30008, [(0x10, 4)], false, .part,
    [⟨"DRYNIB", .w1c, 0, 0, 0⟩, ⟨"OVERFLOW", .w1c, 1, 1, 0⟩, ⟨"NAN", .w1c, 2, 2, 0⟩, ⟨"DRYNIB_COUNT", .ro, 31, 16, 0⟩]⟩,
  ⟨"NUM.DEFAULTS", 0x30040, [], false, .shell,
    [⟨"DRYNIB_STEPS", .sh, 11, 0, 64⟩, ⟨"DRYNIB_THRESH", .sh, 15, 12, 8⟩, ⟨"DELAY", .sh, 19, 16, 1⟩]⟩]
/-- The registers of block TRN. -/
def regsTRN : List RegRow := [
  ⟨"TRN.WDT_BASE_n", 0x40000, [(0x10, 4)], false, .part,
    [⟨"BASE", .sh, 31, 8, 0⟩]⟩,
  ⟨"TRN.WDT_LEN_n", 0x40004, [(0x10, 4)], false, .part,
    [⟨"ENTRIES", .sh, 12, 0, 0⟩]⟩,
  ⟨"TRN.EVENTS_n", 0x40008, [(0x10, 4)], false, .part,
    [⟨"STASH_FULL", .w1c, 0, 0, 0⟩, ⟨"STALE_DROP", .w1c, 1, 1, 0⟩, ⟨"MARG_INVALID", .w1c, 2, 2, 0⟩, ⟨"STALE_COUNT", .ro, 31, 16, 0⟩]⟩,
  ⟨"TRN.WAITS_n", 0x4000c, [(0x10, 4)], false, .part,
    [⟨"STASH_FULL_COUNT", .ro, 15, 0, 0⟩, ⟨"LIFT_WAITS", .ro, 31, 16, 0⟩]⟩]
/-- The registers of block SEQ. -/
def regsSEQ : List RegRow := [
  ⟨"SEQ.STATE", 0x801000, [(0x10000, 16)], false, .shell,
    [⟨"STATE", .ro, 2, 0, 0⟩, ⟨"CONTEXT", .ro, 16, 3, 0⟩]⟩,
  ⟨"SEQ.GEN", 0x801004, [(0x10000, 16)], false, .shell,
    [⟨"GEN", .ro, 15, 0, 0⟩]⟩,
  ⟨"SEQ.SEG_START", 0x801008, [(0x10000, 16)], true, .shell,
    [⟨"ADDR", .ro, 63, 0, 0⟩]⟩,
  ⟨"SEQ.CMD_PTR", 0x801010, [(0x10000, 16)], true, .shell,
    [⟨"ADDR", .ro, 63, 0, 0⟩]⟩,
  ⟨"SEQ.HEARTBEAT", 0x801018, [(0x10000, 16)], false, .shell,
    [⟨"COUNT", .ro, 31, 0, 0⟩]⟩,
  ⟨"SEQ.LAST_CMD", 0x80101c, [(0x10000, 16)], false, .shell,
    [⟨"CMD_ID", .ro, 15, 0, 0⟩, ⟨"OPCODE", .ro, 23, 16, 0⟩]⟩,
  ⟨"SEQ.PROGRESS_TIME", 0x801020, [(0x10000, 16)], true, .shell,
    [⟨"ACLK", .ro, 63, 0, 0⟩]⟩,
  ⟨"SEQ.LIFTS", 0x801028, [(0x10000, 16)], true, .shell,
    [⟨"COUNT", .ro, 63, 0, 0⟩]⟩,
  ⟨"SEQ.KILLS", 0x801030, [(0x10000, 16)], false, .shell,
    [⟨"COUNT", .ro, 23, 0, 0⟩, ⟨"LAST_CAUSE", .ro, 27, 24, 0⟩]⟩,
  ⟨"SEQ.INK", 0x801034, [(0x10000, 16)], false, .shell,
    [⟨"WET_PAGES", .ro, 12, 0, 0⟩, ⟨"OUTQ_KIB", .ro, 31, 16, 0⟩]⟩,
  ⟨"SEQ.LATE", 0x801038, [(0x10000, 16)], false, .shell,
    [⟨"REPLIES", .ro, 31, 0, 0⟩]⟩,
  ⟨"SEQ.LEASE", 0x80103c, [(0x10000, 16)], false, .shell,
    [⟨"EXPIRED", .ro, 15, 0, 0⟩, ⟨"LOST", .ro, 31, 16, 0⟩]⟩,
  ⟨"SEQ.CTRL", 0x801040, [(0x10000, 16)], false, .shell,
    [⟨"KILL", .wo, 0, 0, 0⟩]⟩]
/-- The registers of block WET. -/
def regsWET : List RegRow := [
  ⟨"WET.POOL_n_t", 0x50000, [(0x40, 4), (0x8, 3)], true, .part,
    [⟨"PAGES", .sh, 15, 0, 0⟩, ⟨"BASE", .sh, 51, 16, 0⟩]⟩,
  ⟨"WET.OUTQ_n", 0x50018, [(0x40, 4)], true, .part,
    [⟨"PAGES", .sh, 15, 0, 0⟩, ⟨"BASE", .sh, 51, 16, 0⟩]⟩,
  ⟨"WET.FREE_n", 0x50020, [(0x40, 4)], true, .part,
    [⟨"T0", .ro, 15, 0, 0⟩, ⟨"T1", .ro, 31, 16, 0⟩, ⟨"T2", .ro, 47, 32, 0⟩, ⟨"OUTQ", .ro, 63, 48, 0⟩]⟩,
  ⟨"WET.STATUS_n", 0x50028, [(0x40, 4)], false, .part,
    [⟨"CONFLICTS", .ro, 15, 0, 0⟩, ⟨"CLOBBERED", .ro, 31, 16, 0⟩]⟩]
/-- The registers of block IDL. -/
def regsIDL : List RegRow := [
  ⟨"IDL.COUNT_i_k", 0x802000, [(0x10000, 16), (0x80, 8), (0x8, 11)], true, .shell,
    [⟨"ACLK", .rc, 63, 0, 0⟩]⟩]
/-- The registers of block SCH. -/
def regsSCH : List RegRow := [
  ⟨"SCH.CTX_BASE_n", 0x60000, [(0x40, 4)], false, .part,
    [⟨"BASE", .sh, 31, 7, 0⟩]⟩,
  ⟨"SCH.ROW_BASE_n", 0x60004, [(0x40, 4)], false, .part,
    [⟨"BASE", .sh, 31, 4, 0⟩]⟩,
  ⟨"SCH.ROW_COUNT_n", 0x60008, [(0x40, 4)], false, .part,
    [⟨"ROWS", .sh, 10, 0, 0⟩]⟩,
  ⟨"SCH.CTX_CMD_n", 0x6000c, [(0x40, 4)], false, .part,
    [⟨"CONTEXT", .wo, 11, 0, 0⟩, ⟨"ACTION", .wo, 14, 12, 0⟩]⟩,
  ⟨"SCH.STATUS_n", 0x60010, [(0x40, 4)], false, .part,
    [⟨"CMD_ERR", .w1c, 0, 0, 0⟩, ⟨"BAD_ROW", .w1c, 1, 1, 0⟩, ⟨"PROFILE_ERR", .w1c, 2, 2, 0⟩, ⟨"FIRST_BAD", .ro, 15, 6, 0⟩, ⟨"BAD_ROWS", .ro, 31, 16, 0⟩]⟩,
  ⟨"SCH.OVERRUNS_n", 0x60014, [(0x40, 4)], false, .part,
    [⟨"COUNT", .ro, 31, 0, 0⟩]⟩,
  ⟨"SCH.DEADLINES_n", 0x60018, [(0x40, 4)], false, .part,
    [⟨"COUNT", .ro, 31, 0, 0⟩]⟩,
  ⟨"SCH.SKIPS_n", 0x6001c, [(0x40, 4)], false, .part,
    [⟨"COUNT", .ro, 31, 0, 0⟩]⟩,
  ⟨"SCH.PROFILE_n", 0x60020, [(0x40, 4)], false, .part,
    [⟨"INDEX", .rw, 3, 0, 0⟩, ⟨"GO", .wo, 4, 4, 0⟩, ⟨"BUSY", .ro, 5, 5, 0⟩, ⟨"CURRENT", .ro, 11, 8, 0⟩, ⟨"APPLIED", .ro, 12, 12, 0⟩]⟩,
  ⟨"SCH.PROFILES", 0x60100, [], false, .shell,
    [⟨"LOADED", .ro, 4, 0, 0⟩]⟩]
/-- The registers of block MEM. -/
def regsMEM : List RegRow := [
  ⟨"MEM.INV_ADDR", 0x70000, [], true, .shell,
    [⟨"PAGE", .rw, 45, 16, 0⟩]⟩,
  ⟨"MEM.INV_CTRL", 0x70008, [], false, .shell,
    [⟨"CONTEXT", .rw, 11, 0, 0⟩, ⟨"PARTITION", .rw, 13, 12, 0⟩, ⟨"ALL", .rw, 14, 14, 0⟩, ⟨"GO", .wo, 15, 15, 0⟩, ⟨"BUSY", .ro, 16, 16, 0⟩]⟩,
  ⟨"MEM.FRAME_CMD", 0x70010, [], true, .shell,
    [⟨"FRAME", .rw, 20, 0, 0⟩, ⟨"TIER", .rw, 22, 21, 0⟩, ⟨"PARTITION", .rw, 24, 23, 0⟩, ⟨"TENANT", .rw, 32, 25, 0⟩, ⟨"OP", .rw, 35, 33, 0⟩, ⟨"GO", .wo, 36, 36, 0⟩, ⟨"BUSY", .ro, 37, 37, 0⟩, ⟨"RESULT", .ro, 40, 38, 0⟩]⟩,
  ⟨"MEM.ERR_CFG", 0x70018, [], false, .shell,
    [⟨"WINDOW_MS", .sh, 15, 0, 1000⟩, ⟨"CE_LIMIT", .sh, 27, 16, 256⟩, ⟨"UE_LIMIT", .sh, 31, 28, 2⟩]⟩,
  ⟨"MEM.SCRUB", 0x7001c, [], false, .shell,
    [⟨"HOURS", .sh, 15, 0, 8⟩, ⟨"PASSES", .ro, 31, 16, 0⟩]⟩,
  ⟨"MEM.QTA_BASE_n", 0x70100, [(0x40, 4)], false, .part,
    [⟨"BASE", .sh, 31, 6, 0⟩]⟩,
  ⟨"MEM.MIG_BASE_n", 0x70104, [(0x40, 4)], false, .part,
    [⟨"BASE", .sh, 31, 5, 0⟩]⟩,
  ⟨"MEM.MIG_SIZE_n", 0x70108, [(0x40, 4)], false, .part,
    [⟨"LOG2", .sh, 3, 0, 0⟩]⟩,
  ⟨"MEM.MIG_TAIL_n", 0x7010c, [(0x40, 4)], false, .part,
    [⟨"INDEX", .rw, 15, 0, 0⟩]⟩,
  ⟨"MEM.MIG_HEAD_n", 0x70110, [(0x40, 4)], false, .part,
    [⟨"INDEX", .ro, 15, 0, 0⟩]⟩,
  ⟨"MEM.POOL_LIST_n", 0x70114, [(0x40, 4)], false, .part,
    [⟨"BASE", .sh, 31, 2, 0⟩]⟩,
  ⟨"MEM.CAPACITY_n", 0x70118, [(0x40, 4)], true, .part,
    [⟨"T0", .ro, 16, 0, 65536⟩, ⟨"T1", .ro, 38, 20, 419430⟩, ⟨"T2", .ro, 62, 42, 1572864⟩]⟩,
  ⟨"MEM.CHAN_MARK_n", 0x70120, [(0x40, 4)], true, .part,
    [⟨"T1", .ro, 31, 0, 0⟩, ⟨"T2", .ro, 63, 32, 0⟩]⟩,
  ⟨"MEM.CHAN_RETIRED_n", 0x70128, [(0x40, 4)], true, .part,
    [⟨"T1", .ro, 31, 0, 0⟩, ⟨"T2", .ro, 63, 32, 0⟩]⟩,
  ⟨"MEM.STATUS_n", 0x70130, [(0x40, 4)], false, .part,
    [⟨"T1_OUT", .ro, 0, 0, 0⟩, ⟨"T2_OUT", .ro, 1, 1, 0⟩, ⟨"T0_CORE_OUT", .ro, 5, 2, 0⟩]⟩,
  ⟨"MEM.ERRCNT_n", 0x70138, [(0x40, 4)], true, .part,
    [⟨"CE_T0", .rc, 15, 0, 0⟩, ⟨"CE_T1", .rc, 31, 16, 0⟩, ⟨"CE_T2", .rc, 47, 32, 0⟩, ⟨"UE", .rc, 63, 48, 0⟩]⟩]
/-- The registers of block GAZ. -/
def regsGAZ : List RegRow := [
  ⟨"GAZ.CTRL", 0x80000, [], false, .shell,
    [⟨"OPEN", .rw, 0, 0, 0⟩]⟩,
  ⟨"GAZ.CFG", 0x80004, [], false, .shell,
    [⟨"FWD_MS", .sh, 15, 0, 100⟩, ⟨"MOVING_US", .sh, 23, 16, 20⟩, ⟨"PROMO_HOLD_US", .sh, 31, 24, 100⟩]⟩,
  ⟨"GAZ.STATUS", 0x80008, [], false, .shell,
    [⟨"ENTRIES", .ro, 19, 0, 0⟩, ⟨"FULL_SEEN", .w1c, 20, 20, 0⟩]⟩,
  ⟨"GAZ.TICKETS", 0x8000c, [], false, .shell,
    [⟨"OUT_ACTIVE", .ro, 6, 0, 0⟩, ⟨"IN_ACTIVE", .ro, 14, 8, 0⟩, ⟨"IN_DOUBT", .ro, 31, 16, 0⟩]⟩,
  ⟨"GAZ.CMD", 0x80010, [], true, .shell,
    [⟨"NAME", .rw, 42, 0, 0⟩, ⟨"OP", .rw, 46, 43, 0⟩, ⟨"GO", .wo, 47, 47, 0⟩, ⟨"BUSY", .ro, 48, 48, 0⟩, ⟨"RESULT", .ro, 51, 49, 0⟩, ⟨"STATE", .ro, 54, 52, 0⟩]⟩,
  ⟨"GAZ.CMD_ARG", 0x80018, [], true, .shell,
    [⟨"BASE", .rw, 30, 0, 0⟩, ⟨"PART", .rw, 32, 31, 0⟩, ⟨"TIER", .rw, 34, 33, 0⟩, ⟨"EPOCH", .rw, 50, 35, 0⟩, ⟨"MODULE", .rw, 62, 51, 0⟩]⟩,
  ⟨"GAZ.TRING_BASE", 0x80020, [], true, .shell,
    [⟨"BASE", .sh, 51, 5, 0⟩]⟩,
  ⟨"GAZ.TRING_CTL", 0x80028, [], false, .shell,
    [⟨"LOG2", .sh, 3, 0, 0⟩]⟩,
  ⟨"GAZ.TRING_TAIL", 0x8002c, [], false, .shell,
    [⟨"INDEX", .rw, 15, 0, 0⟩]⟩,
  ⟨"GAZ.TRING_HEAD", 0x80030, [], false, .shell,
    [⟨"INDEX", .ro, 15, 0, 0⟩]⟩,
  ⟨"GAZ.HOST_n_t", 0x80100, [(0x20, 4), (0x8, 3)], true, .part,
    [⟨"BASE", .sh, 29, 0, 0⟩, ⟨"LIMIT", .sh, 47, 32, 0⟩, ⟨"COUNT", .ro, 63, 48, 0⟩]⟩]
/-- The registers of block CHT. -/
def regsCHT : List RegRow := [
  ⟨"CHT.SELF", 0x90000, [], false, .shell,
    [⟨"MODULE", .lk, 11, 0, 0⟩]⟩,
  ⟨"CHT.TIMERS", 0x90004, [], false, .shell,
    [⟨"RESP_US", .sh, 13, 0, 100⟩, ⟨"RETRIES", .sh, 17, 14, 3⟩, ⟨"UNAVAIL_MS", .sh, 31, 18, 3000⟩]⟩,
  ⟨"CHT.TIMERS2", 0x90008, [], false, .shell,
    [⟨"DUP_US", .sh, 15, 0, 1000⟩, ⟨"SEM_HOLD_US", .sh, 23, 16, 50⟩, ⟨"DIR_RETRIES", .sh, 31, 24, 5⟩]⟩,
  ⟨"CHT.DIR", 0x9000c, [], false, .shell,
    [⟨"DIR_US", .sh, 15, 0, 200⟩]⟩,
  ⟨"CHT.HINT", 0x90010, [], false, .shell,
    [⟨"FLUSH", .wo, 0, 0, 0⟩]⟩,
  ⟨"CHT.CREDITS_n", 0x90040, [(0x10, 4)], false, .shell,
    [⟨"REQ_FREE", .ro, 11, 0, 2048⟩, ⟨"WRITE_FREE", .ro, 28, 16, 4096⟩]⟩,
  ⟨"CHT.COUNTS_n", 0x90044, [(0x10, 4)], false, .shell,
    [⟨"REDIRECTS", .ro, 11, 0, 0⟩, ⟨"LATE", .ro, 21, 12, 0⟩, ⟨"MALFORMED", .ro, 31, 22, 0⟩]⟩,
  ⟨"CHT.ERRORS_n", 0x90048, [(0x10, 4)], false, .shell,
    [⟨"READ_FAILED", .ro, 15, 0, 0⟩, ⟨"WRITE_LOST", .ro, 31, 16, 0⟩]⟩]
/-- The registers of block COL. -/
def regsCOL : List RegRow := [
  ⟨"COL.STATUS", 0xa0000, [], false, .shell,
    [⟨"ACTIVE", .ro, 6, 0, 0⟩, ⟨"ABORTS", .ro, 31, 16, 0⟩]⟩,
  ⟨"COL.COMPLETED", 0xa0004, [], false, .shell,
    [⟨"COUNT", .ro, 23, 0, 0⟩, ⟨"POISONED", .ro, 31, 24, 0⟩]⟩]
/-- The registers of block GRT. -/
def regsGRT : List RegRow := [
  ⟨"GRT.TOPO", 0xb0000, [], false, .shell,
    [⟨"SX_M1", .lk, 1, 0, 0⟩, ⟨"SY_M1", .lk, 3, 2, 0⟩, ⟨"SZ_M1", .lk, 5, 4, 0⟩, ⟨"SU_M1", .lk, 8, 6, 0⟩, ⟨"SV_M1", .lk, 11, 9, 0⟩]⟩,
  ⟨"GRT.ROUTE", 0xb0008, [], true, .shell,
    [⟨"X", .rw, 3, 0, 0⟩, ⟨"Y", .rw, 7, 4, 0⟩, ⟨"Z", .rw, 11, 8, 0⟩, ⟨"U", .rw, 19, 12, 0⟩, ⟨"V", .rw, 27, 20, 0⟩]⟩,
  ⟨"GRT.CFG", 0xb0010, [], false, .shell,
    [⟨"WINDOW_US", .sh, 15, 0, 1000⟩, ⟨"UCW_LIMIT", .sh, 23, 16, 4⟩, ⟨"REPLAY_LIMIT", .sh, 31, 24, 8⟩]⟩,
  ⟨"GRT.CFG2", 0xb0014, [], false, .shell,
    [⟨"LANE_CE_LIMIT", .sh, 15, 0, 32768⟩, ⟨"REPLAY_TIMEOUT_US", .sh, 23, 16, 10⟩, ⟨"WARM_MS", .sh, 31, 24, 50⟩]⟩,
  ⟨"GRT.CFG3", 0xb0018, [], false, .shell,
    [⟨"RETRAIN_LIMIT", .sh, 7, 0, 8⟩, ⟨"SHADOW_MS", .sh, 23, 8, 1⟩]⟩,
  ⟨"GRT.PSTATE_p", 0xb0100, [(0x40, 10)], true, .shell,
    [⟨"STATE", .ro, 2, 0, 0⟩, ⟨"HALF", .ro, 3, 3, 0⟩, ⟨"SHADOW", .ro, 7, 4, 15⟩, ⟨"FAILED", .ro, 16, 8, 0⟩, ⟨"PEER_MODULE", .ro, 31, 20, 0⟩, ⟨"PEER_PORT", .ro, 35, 32, 0⟩, ⟨"ATTEMPTS", .ro, 39, 36, 0⟩, ⟨"ATTEMPTS_FULL", .ro, 47, 40, 0⟩]⟩,
  ⟨"GRT.PCTRL_p", 0xb0108, [(0x40, 10)], false, .shell,
    [⟨"DISABLE", .rw, 0, 0, 0⟩, ⟨"RETRAIN", .wo, 1, 1, 0⟩, ⟨"RETIRE", .wo, 2, 2, 0⟩, ⟨"LANE", .rw, 6, 3, 0⟩]⟩,
  ⟨"GRT.PERR_p", 0xb0110, [(0x40, 10)], true, .shell,
    [⟨"REPLAYS", .rc, 15, 0, 0⟩, ⟨"UCW", .rc, 31, 16, 0⟩, ⟨"CRC_FAIL", .rc, 47, 32, 0⟩, ⟨"TRAININGS", .ro, 55, 48, 0⟩, ⟨"COLD", .ro, 63, 56, 0⟩]⟩,
  ⟨"GRT.DISCARDS_p", 0xb0118, [(0x40, 10)], false, .shell,
    [⟨"COUNT", .ro, 31, 0, 0⟩]⟩,
  ⟨"GRT.LANE_CE0_p", 0xb0120, [(0x40, 10)], true, .shell,
    [⟨"CE", .ro, 63, 0, 0⟩]⟩,
  ⟨"GRT.LANE_CE1_p", 0xb0128, [(0x40, 10)], true, .shell,
    [⟨"CE", .ro, 63, 0, 0⟩]⟩,
  ⟨"GRT.LANE_CE2_p", 0xb0130, [(0x40, 10)], true, .shell,
    [⟨"CE", .ro, 63, 0, 0⟩]⟩]
/-- The registers of block FRL. -/
def regsFRL : List RegRow := [
  ⟨"FRL.CTRL", 0xc0000, [], false, .shell,
    [⟨"ATTACH", .wo, 0, 0, 0⟩, ⟨"FLUSH", .wo, 1, 1, 0⟩, ⟨"LOSS_HOLD", .rw, 2, 2, 1⟩, ⟨"DISABLE", .rw, 3, 3, 0⟩, ⟨"RETRAIN", .wo, 4, 4, 0⟩, ⟨"RETIRE", .wo, 5, 5, 0⟩, ⟨"LANE", .rw, 9, 6, 0⟩]⟩,
  ⟨"FRL.STATUS", 0xc0004, [], false, .shell,
    [⟨"STATE", .ro, 2, 0, 0⟩, ⟨"HALF", .ro, 3, 3, 0⟩, ⟨"SHADOW", .ro, 7, 4, 15⟩, ⟨"FAILED", .ro, 16, 8, 0⟩, ⟨"ATTACHED", .ro, 17, 17, 0⟩, ⟨"FLUSH_BUSY", .ro, 18, 18, 0⟩]⟩,
  ⟨"FRL.PEER_BOOT", 0xc0008, [], false, .shell,
    [⟨"BOOT_ID", .ro, 31, 0, 0⟩]⟩,
  ⟨"FRL.TIMERS", 0xc000c, [], false, .shell,
    [⟨"RESP_US", .sh, 15, 0, 500⟩]⟩,
  ⟨"FRL.INT_CFG", 0xc0010, [], false, .shell,
    [⟨"BASE", .sh, 15, 0, 0⟩, ⟨"ENABLE", .sh, 16, 16, 0⟩]⟩,
  ⟨"FRL.DOORBELL", 0xc0014, [], false, .shell,
    [⟨"CONTEXT", .wo, 13, 0, 0⟩]⟩,
  ⟨"FRL.CACHE", 0xc0018, [], false, .shell,
    [⟨"VALID", .ro, 20, 0, 0⟩]⟩,
  ⟨"FRL.CACHE_CNT", 0xc0020, [], true, .shell,
    [⟨"MISSES", .rc, 31, 0, 0⟩, ⟨"SNOOPS", .rc, 63, 32, 0⟩]⟩,
  ⟨"FRL.ERRORS", 0xc0028, [], true, .shell,
    [⟨"TIMEOUTS", .ro, 15, 0, 0⟩, ⟨"PROTOCOL", .ro, 31, 16, 0⟩, ⟨"WRITE_LOST", .ro, 47, 32, 0⟩, ⟨"DIRTY_LOST", .ro, 63, 48, 0⟩]⟩,
  ⟨"FRL.LOSS", 0xc0030, [], false, .shell,
    [⟨"LOSSES", .ro, 15, 0, 0⟩, ⟨"EVENTS_DROPPED", .ro, 31, 16, 0⟩]⟩,
  ⟨"FRL.PERR", 0xc0038, [], true, .shell,
    [⟨"REPLAYS", .rc, 15, 0, 0⟩, ⟨"UCW", .rc, 31, 16, 0⟩, ⟨"CRC_FAIL", .rc, 47, 32, 0⟩, ⟨"TRAININGS", .ro, 55, 48, 0⟩, ⟨"COLD", .ro, 63, 56, 0⟩]⟩,
  ⟨"FRL.LANE_CE0", 0xc0040, [], true, .shell,
    [⟨"CE", .ro, 63, 0, 0⟩]⟩,
  ⟨"FRL.LANE_CE1", 0xc0048, [], true, .shell,
    [⟨"CE", .ro, 63, 0, 0⟩]⟩,
  ⟨"FRL.LANE_CE2", 0xc0050, [], true, .shell,
    [⟨"CE", .ro, 63, 0, 0⟩]⟩,
  ⟨"FRL.CREGION_i", 0xc0060, [(0x8, 8)], true, .shell,
    [⟨"BASE", .sh, 51, 21, 0⟩, ⟨"SIZE_M1", .sh, 62, 52, 0⟩, ⟨"ENABLE", .sh, 63, 63, 0⟩]⟩]
/-- The registers of block WTS. -/
def regsWTS : List RegRow := [
  ⟨"WTS.CMD", 0xd0000, [], false, .shell,
    [⟨"MODEL", .rw, 7, 0, 0⟩, ⟨"OP", .rw, 10, 8, 0⟩, ⟨"GO", .wo, 11, 11, 0⟩, ⟨"RESULT", .ro, 14, 12, 0⟩]⟩,
  ⟨"WTS.CFG", 0xd0004, [], false, .shell,
    [⟨"DRAIN_MS", .sh, 15, 0, 10⟩, ⟨"RETRIES", .sh, 19, 16, 3⟩, ⟨"SWEEP_LOG2", .sh, 24, 20, 20⟩]⟩,
  ⟨"WTS.CFG2", 0xd0008, [], false, .shell,
    [⟨"SHARD_TIMEOUT_MS", .sh, 15, 0, 2000⟩, ⟨"POLL_US", .sh, 31, 16, 100⟩]⟩,
  ⟨"WTS.STAGE_n", 0xd0010, [(0x8, 4)], true, .part,
    [⟨"PAGES", .sh, 15, 0, 0⟩, ⟨"BASE", .sh, 51, 16, 0⟩]⟩,
  ⟨"WTS.STATUS", 0xd0030, [], false, .shell,
    [⟨"LANES_BUSY", .ro, 5, 0, 0⟩, ⟨"WRITE_ERR", .w1c, 6, 6, 0⟩, ⟨"SEAL_FAILS", .ro, 31, 16, 0⟩]⟩,
  ⟨"WTS.COUNTS", 0xd0038, [], true, .shell,
    [⟨"SHARDS_LANDED", .ro, 31, 0, 0⟩, ⟨"SWEEP_MISMATCH", .ro, 47, 32, 0⟩, ⟨"EVICTIONS", .ro, 63, 48, 0⟩]⟩,
  ⟨"WTS.SWEEPS", 0xd0040, [], true, .shell,
    [⟨"COUNT", .ro, 63, 0, 0⟩]⟩,
  ⟨"WTS.DONE_i", 0xd0060, [(0x4, 8)], false, .shell,
    [⟨"MODELS", .w1c, 31, 0, 0⟩]⟩]
/-- The registers of block ERR. -/
def regsERR : List RegRow := [
  ⟨"ERR.CFG", 0xe0000, [], false, .shell,
    [⟨"INT_LEVEL", .sh, 2, 0, 2⟩, ⟨"RATE_MS", .sh, 15, 8, 100⟩, ⟨"MIRROR_EN", .sh, 16, 16, 0⟩]⟩,
  ⟨"ERR.PRODUCER", 0xe0004, [], false, .shell,
    [⟨"SEQ", .ro, 31, 0, 0⟩]⟩,
  ⟨"ERR.CONSUMER", 0xe0008, [], false, .shell,
    [⟨"SEQ", .rw, 31, 0, 0⟩]⟩,
  ⟨"ERR.LOSS", 0xe000c, [], false, .shell,
    [⟨"COUNT", .ro, 31, 0, 0⟩]⟩,
  ⟨"ERR.ACK", 0xe0010, [], false, .shell,
    [⟨"DOMAIN", .wo, 3, 0, 0⟩, ⟨"GO", .wo, 4, 4, 0⟩]⟩,
  ⟨"ERR.MIRROR_BASE", 0xe0018, [], true, .shell,
    [⟨"BASE", .sh, 63, 18, 0⟩]⟩,
  ⟨"ERR.WINDOW_INDEX", 0xe0020, [], false, .shell,
    [⟨"SEQ", .rw, 31, 0, 0⟩]⟩,
  ⟨"ERR.DOMAIN_d", 0xe0040, [(0x4, 16)], false, .shell,
    [⟨"HANDLING", .ro, 0, 0, 0⟩, ⟨"LEVEL", .ro, 3, 1, 0⟩, ⟨"LOST_SEEN", .w1c, 4, 4, 0⟩, ⟨"NESTED_COUNT", .ro, 31, 16, 0⟩]⟩]
/-- The registers of block RST. -/
def regsRST : List RegRow := [
  ⟨"RST.UNIT", 0xf0000, [], false, .shell,
    [⟨"CORE", .rw, 3, 0, 0⟩, ⟨"UNIT", .rw, 7, 4, 0⟩, ⟨"GO", .wo, 8, 8, 0⟩, ⟨"BUSY", .ro, 9, 9, 0⟩, ⟨"ERR", .w1c, 10, 10, 0⟩]⟩,
  ⟨"RST.PART_n", 0xf0010, [(0x4, 4)], false, .shell,
    [⟨"GO", .wo, 0, 0, 0⟩, ⟨"MODE", .rw, 1, 1, 0⟩, ⟨"TRACE", .rw, 2, 2, 1⟩, ⟨"BUSY", .ro, 3, 3, 0⟩, ⟨"STEP", .ro, 7, 4, 0⟩, ⟨"ERR", .w1c, 8, 8, 0⟩]⟩,
  ⟨"RST.CHIP", 0xf0020, [], false, .shell,
    [⟨"GO", .wo, 0, 0, 0⟩, ⟨"TRACE", .rw, 1, 1, 1⟩]⟩,
  ⟨"RST.PERSIST", 0xf0024, [], false, .shell,
    [⟨"CHIP_RETAIN", .rw, 0, 0, 0⟩, ⟨"LAST_CAUSE", .ro, 3, 1, 0⟩, ⟨"CHIP_RESETS", .ro, 31, 16, 0⟩]⟩,
  ⟨"RST.TRACE_CFG", 0xf0030, [], false, .shell,
    [⟨"HEAD", .sh, 7, 0, 4⟩, ⟨"SAMPLES", .sh, 15, 8, 12⟩, ⟨"STRIDE", .sh, 31, 16, 4096⟩]⟩,
  ⟨"RST.TRACE_CFG2", 0xf0034, [], false, .shell,
    [⟨"BANK_TIMEOUT", .sh, 15, 0, 256⟩]⟩,
  ⟨"RST.TRACE_SLOT_k", 0xf0040, [(0x8, 2)], true, .shell,
    [⟨"STATE", .ro, 1, 0, 0⟩, ⟨"NEWER", .ro, 2, 2, 0⟩, ⟨"RELEASE", .wo, 3, 3, 0⟩, ⟨"LENGTH", .ro, 63, 32, 0⟩]⟩,
  ⟨"RST.TRACE_READ", 0xf0050, [], false, .shell,
    [⟨"SLOT", .rw, 0, 0, 0⟩, ⟨"OFFSET", .rw, 21, 6, 0⟩]⟩]
/-- The registers of block HLT. -/
def regsHLT : List RegRow := [
  ⟨"HLT.CFG", 0x100000, [], false, .shell,
    [⟨"WINDOW_S", .sh, 7, 0, 60⟩, ⟨"CE_UNIT", .sh, 15, 8, 64⟩, ⟨"WATCH_BELOW", .sh, 23, 16, 192⟩, ⟨"FAIL_BELOW", .sh, 31, 24, 64⟩]⟩,
  ⟨"HLT.CFG2", 0x100004, [], false, .shell,
    [⟨"CLEAR_ABOVE", .sh, 7, 0, 224⟩, ⟨"CLEAR_WINDOWS", .sh, 15, 8, 10⟩, ⟨"CONF_MIN", .sh, 23, 16, 128⟩]⟩,
  ⟨"HLT.SCORE_n", 0x100010, [(0x10, 4)], false, .shell,
    [⟨"SCORE", .ro, 7, 0, 255⟩, ⟨"CONF", .ro, 15, 8, 0⟩, ⟨"STATE", .ro, 17, 16, 1⟩, ⟨"PROBATION", .wo, 18, 18, 0⟩, ⟨"RESET_STATE", .wo, 19, 19, 0⟩, ⟨"CLEAN", .ro, 27, 20, 0⟩]⟩,
  ⟨"HLT.DETAIL_n", 0x100018, [(0x10, 4)], true, .shell,
    [⟨"P_CE", .ro, 7, 0, 0⟩, ⟨"P_UE", .ro, 15, 8, 0⟩, ⟨"P_CH", .ro, 23, 16, 0⟩, ⟨"P_LN", .ro, 31, 24, 0⟩, ⟨"P_RR", .ro, 39, 32, 0⟩, ⟨"P_TH", .ro, 47, 40, 0⟩, ⟨"WINDOWS", .ro, 63, 48, 0⟩]⟩,
  ⟨"HLT.JOB", 0x100080, [], true, .shell,
    [⟨"JOB_ID", .rw, 31, 0, 0⟩, ⟨"LOGICAL", .rw, 47, 32, 0⟩, ⟨"LOST", .ro, 63, 63, 0⟩]⟩,
  ⟨"HLT.REPORT", 0x100088, [], false, .shell,
    [⟨"STATE_LOST", .wo, 0, 0, 0⟩]⟩]
/-- The registers of block BOOT. -/
def regsBOOT : List RegRow := [
  ⟨"BOOT.STATUS", 0x110000, [], false, .shell,
    [⟨"STAGE", .ro, 3, 0, 0⟩, ⟨"READY", .ro, 4, 4, 0⟩, ⟨"STARTED", .ro, 5, 5, 0⟩, ⟨"IMAGE", .ro, 6, 6, 0⟩, ⟨"FELL_BACK", .ro, 7, 7, 0⟩, ⟨"REASON_A", .ro, 11, 8, 0⟩, ⟨"REASON_B", .ro, 15, 12, 0⟩, ⟨"LK_WRITE", .w1c, 16, 16, 0⟩]⟩,
  ⟨"BOOT.LK_COUNT", 0x110004, [], false, .shell,
    [⟨"COUNT", .ro, 31, 0, 0⟩]⟩,
  ⟨"BOOT.SVN", 0x110008, [], false, .shell,
    [⟨"IMAGE_SVN", .ro, 7, 0, 0⟩, ⟨"FUSE_SVN", .ro, 15, 8, 0⟩, ⟨"KEY_SLOT", .ro, 17, 16, 0⟩, ⟨"REVOKED", .ro, 21, 18, 0⟩]⟩,
  ⟨"BOOT.DIGEST_i", 0x110010, [(0x4, 12)], false, .shell,
    [⟨"BYTES", .ro, 31, 0, 0⟩]⟩,
  ⟨"BOOT.FUSE_INDEX", 0x110040, [], false, .shell,
    [⟨"WORD", .rw, 7, 0, 0⟩]⟩,
  ⟨"BOOT.FUSE_DATA", 0x110044, [], false, .shell,
    [⟨"DATA", .ro, 31, 0, 0⟩]⟩,
  ⟨"BOOT.ATT_NONCE_i", 0x110050, [(0x4, 8)], false, .shell,
    [⟨"BYTES", .rw, 31, 0, 0⟩]⟩,
  ⟨"BOOT.ATT_CTRL", 0x110070, [], false, .shell,
    [⟨"GO", .wo, 0, 0, 0⟩, ⟨"BUSY", .ro, 1, 1, 0⟩, ⟨"RESULT", .ro, 4, 2, 0⟩, ⟨"ERR", .w1c, 5, 5, 0⟩]⟩,
  ⟨"BOOT.ATT_COUNT", 0x110074, [], false, .shell,
    [⟨"H10_KEYS", .ro, 15, 0, 0⟩, ⟨"BLOCKS_LEFT", .ro, 31, 16, 0⟩]⟩]
/-- The registers of block DBG. -/
def regsDBG : List RegRow := [
  ⟨"DBG.STATUS", 0x130000, [], false, .shell,
    [⟨"UNLOCKED", .ro, 0, 0, 0⟩, ⟨"SCOPE", .ro, 2, 1, 0⟩, ⟨"BACKOFF", .ro, 3, 3, 0⟩, ⟨"FAILS", .ro, 7, 4, 0⟩, ⟨"HALTED", .ro, 23, 8, 0⟩]⟩,
  ⟨"DBG.CORE_c", 0x130010, [(0x4, 16)], false, .shell,
    [⟨"HALT_REQ", .ro, 0, 0, 0⟩, ⟨"HALTED", .ro, 1, 1, 0⟩, ⟨"STEPPING", .ro, 2, 2, 0⟩, ⟨"BP_HIT", .ro, 3, 3, 0⟩, ⟨"BP_INDEX", .ro, 5, 4, 0⟩]⟩,
  ⟨"DBG.BP_c_i", 0x130100, [(0x20, 16), (0x8, 4)], true, .shell,
    [⟨"MATCH", .ro, 63, 0, 0⟩]⟩]
/-- The registers of block MGT. -/
def regsMGT : List RegRow := [
  ⟨"MGT.STATUS", 0x140000, [], false, .shell,
    [⟨"STAGE", .ro, 3, 0, 0⟩, ⟨"STARTED", .ro, 4, 4, 0⟩, ⟨"ATTACHED", .ro, 5, 5, 0⟩, ⟨"ALERT_DIE", .ro, 6, 6, 0⟩, ⟨"ALERT_INLET", .ro, 7, 7, 0⟩, ⟨"MODULE", .ro, 19, 8, 0⟩]⟩,
  ⟨"MGT.TEMP", 0x140004, [], false, .shell,
    [⟨"DIE_MAX_C", .ro, 7, 0, 0⟩, ⟨"INLET_C", .ro, 15, 8, 0⟩, ⟨"OUTLET_C", .ro, 23, 16, 0⟩, ⟨"SHELL_C", .ro, 31, 24, 0⟩]⟩,
  ⟨"MGT.POWER", 0x140008, [], false, .shell,
    [⟨"WATTS", .ro, 15, 0, 0⟩, ⟨"MEAN_WATTS", .ro, 31, 16, 0⟩]⟩,
  ⟨"MGT.ERRORS", 0x14000c, [], false, .shell,
    [⟨"LEVEL", .ro, 2, 0, 0⟩, ⟨"HANDLING", .ro, 19, 4, 0⟩, ⟨"PRODUCER", .ro, 31, 20, 0⟩]⟩,
  ⟨"MGT.HEALTH_n", 0x140010, [(0x4, 4)], false, .shell,
    [⟨"SCORE_STATE", .ro, 17, 0, 65791⟩]⟩,
  ⟨"MGT.JOB", 0x140020, [], true, .shell,
    [⟨"JOB", .ro, 63, 0, 0⟩]⟩,
  ⟨"MGT.DIE_ID", 0x140028, [], true, .shell,
    [⟨"DIE_ID", .ro, 63, 0, 0⟩]⟩,
  ⟨"MGT.NOTICE", 0x140030, [], false, .shell,
    [⟨"OFF_NOTICE", .wo, 0, 0, 0⟩, ⟨"QUIESCED", .ro, 1, 1, 0⟩]⟩,
  ⟨"MGT.TRAY_REQ", 0x140034, [], false, .shell,
    [⟨"CODE", .rw, 1, 0, 0⟩]⟩,
  ⟨"MGT.IBI_CFG", 0x140038, [], false, .shell,
    [⟨"HEALTH", .rw, 0, 0, 0⟩, ⟨"ERROR", .rw, 1, 1, 0⟩, ⟨"TRAY", .rw, 2, 2, 0⟩, ⟨"THERMAL", .rw, 3, 3, 0⟩, ⟨"ERR_LEVEL", .rw, 10, 8, 3⟩]⟩,
  ⟨"MGT.IBI_CAUSE", 0x14003c, [], false, .shell,
    [⟨"HEALTH", .w1c, 0, 0, 0⟩, ⟨"ERROR", .w1c, 1, 1, 0⟩, ⟨"TRAY", .w1c, 2, 2, 0⟩, ⟨"THERMAL", .w1c, 3, 3, 0⟩]⟩]
/-- Every register of register space but the windows of R378, the CAP words of R359 and the model table of R299. -/
def regTable : List RegRow :=
  regsPWR ++ regsSTK ++ regsPART ++ regsENG ++ regsNUM ++ regsTRN ++ regsSEQ ++ regsWET ++ regsIDL ++ regsSCH ++ regsMEM ++ regsGAZ ++ regsCHT ++ regsCOL ++ regsGRT ++ regsFRL ++ regsWTS ++ regsERR ++ regsRST ++ regsHLT ++ regsBOOT ++ regsDBG ++ regsMGT

end Sys2Proof.Machine
end

