-- ==== Sys2Proof/Machine/Wire.lean ====
section
/-! DEFINITION. Machine/Wire.lean: what a link's lanes carry: RS(544,514) codewords and their symbols on the lanes (R264), frames and
flits (R265), control words (R266, R276), and packets and messages as bytes (R229, R277). -/

namespace Sys2Proof.Machine

/-! ### Symbols of RS(544,514) (R264; log entry 146) -/

/-- Ten-bit symbols, times x modulo x^10 + x^3 + 1. -/
def gfX (a : Nat) : Nat := if 512 ≤ a then Nat.xor (2 * a % 1024) 9 else 2 * a
/-- The product of two symbols. -/
def gfMul (a b : Nat) : Nat := [9, 8, 7, 6, 5, 4, 3, 2, 1, 0].foldl (fun r i => Nat.xor (gfX r) (if bit b i then a else 0)) 0
/-- A symbol to the power 2^k − 1 and k further squarings make its inverse: a^1022. -/
def gfInv (a : Nat) : Nat := (upTo 9 (fun _ p => (gfMul p.1 p.1, gfMul p.2 (gfMul p.1 p.1))) (a, 1)).2
/-- α^k, with α = x. -/
def gfExp (k : Nat) : Nat := upTo (k % 1023) (fun _ a => gfX a) 1

/-- The value of a polynomial, lowest coefficient first. -/
def polyAt (p : List Nat) (x : Nat) : Nat := p.foldr (fun c r => Nat.xor c (gfMul x r)) 0
/-- The sum of two polynomials. -/
def polyAdd : List Nat → List Nat → List Nat
  | [], q => q
  | p, [] => p
  | a :: p, b :: q => Nat.xor a b :: polyAdd p q
/-- A polynomial times a symbol and x^m. -/
def polyScale (p : List Nat) (c m : Nat) : List Nat := List.replicate m 0 ++ p.map (gfMul c)
/-- The generator polynomial, with roots α^0 to α^29 (log entry 146). -/
def rsGen : List Nat := (List.range 30).foldl (fun g j => polyAdd (0 :: g) (polyScale g (gfExp j) 0)) [1]

/-- The thirty parity symbols of a message, in the order sent. -/
def rsParity (msg : List Nat) : List Nat :=
  let g := (rsGen.take 30).reverse
  msg.foldl (fun r m =>
    let f := Nat.xor m (r.headD 0)
    polyAdd (r.drop 1 ++ [0]) (g.map (gfMul f))) (List.replicate 30 0)

/-- The syndromes of 544 symbols in the order received. -/
def rsSyndromes (r : List Nat) : List Nat :=
  (List.range 30).map (fun j => let a := gfExp j; r.foldl (fun s c => Nat.xor (gfMul s a) c) 0)

/-- Finding the error locator: the locator, the one before it, its degree, the shift and the last discrepancy. -/
structure Locator where
  c : List Nat := [1]
  b : List Nat := [1]
  l : Nat := 0
  m : Nat := 1
  d : Nat := 1
deriving DecidableEq, Repr

/-- One step of finding the error locator, on syndrome n. -/
def Locator.next (k : Locator) (syn : List Nat) (n : Nat) : Locator :=
  let d := (List.range (k.l + 1)).foldl (fun s i => Nat.xor s (gfMul (k.c.getD i 0) (if i ≤ n then syn.getD (n - i) 0 else 0))) 0
  if d = 0 then { k with m := k.m + 1 }
  else
    let c := polyAdd k.c (polyScale k.b (gfMul d (gfInv k.d)) k.m)
    if 2 * k.l ≤ n then { c := c, b := k.c, l := n + 1 - k.l, m := 1, d := d } else { k with c := c, m := k.m + 1 }

/-- Decode 544 symbols: up to fifteen wrong ones are corrected; none where the codeword is uncorrectable (R264). -/
def rsDecode (r : List Nat) : Option (List Nat) :=
  let syn := rsSyndromes r
  if syn.all (· == 0) then some r
  else
    let k := (List.range 30).foldl (fun k n => k.next syn n) ({} : Locator)
    let at_ := (List.range 544).filter (fun p => polyAt k.c (gfInv (gfExp p)) == 0)
    if 15 < k.l ∨ at_.length ≠ k.l then none
    else
      let om := (List.range 30).map (fun n => (List.range (n + 1)).foldl (fun s i =>
        Nat.xor s (gfMul (k.c.getD i 0) (syn.getD (n - i) 0))) 0)
      let dc := (List.range k.l).map (fun i => if i % 2 = 0 then k.c.getD (i + 1) 0 else 0)
      let fix := at_.foldl (fun w p =>
        let x := gfExp p
        let y := gfInv x
        modAt w (543 - p) (fun v => Nat.xor v (gfMul x (gfMul (polyAt om y) (gfInv (polyAt dc y)))))) r
      if (rsSyndromes fix).all (· == 0) then some fix else none

/-! ### Codewords and lanes (R264) -/

/-- The header of a codeword. -/
def wordHeader (seq : Nat) (second replay marker : Bool) : Nat :=
  seq % 4096 + 4096 * b2n second + 8192 * b2n replay + 16384 * b2n marker

/-- The 544 symbols of a codeword: header and 640 bytes, from the least significant bit up, then the parity (log entry 146). -/
def codeword (header : Nat) (body : List Byte) : List Nat :=
  let m := header % 2 ^ 20 + 2 ^ 20 * leNat (padTo 640 body)
  let msg := (List.range 514).map (fun t => m / 2 ^ (10 * t) % 1024)
  msg ++ rsParity msg

/-- Header and bytes of a corrected codeword. -/
def wordFields (r : List Nat) : Nat × List Byte :=
  let m := (r.take 514).foldr (fun v w => v + 1024 * w) 0
  (m % 2 ^ 20, toLE 640 (m / 2 ^ 20))

/-- The symbols that each physical lane carries of a codeword: symbol i on logical lane i mod 8, or mod 4 in half width. -/
def dealt (map : List Nat) (word : List Nat) : List (List Nat) :=
  (List.range 9).map (fun p => match findIdx (fun x => x == p) map 0 with
    | some (q, _) => (List.range (544 / map.length)).map (fun j => word.getD (map.length * j + q) 0)
    | none => [])

/-- The symbols of a codeword in order, from what each physical lane brought. -/
def gathered (map : List Nat) (lanes : List (List Nat)) : List Nat :=
  (List.range 544).map (fun i => ((lanes.getD (map.getD (i % map.length) 0) []).getD (i / map.length) 0))

/-- Places of a list that differ from another's. -/
def differ (a b : List Nat) : Nat := ((List.range (max a.length b.length)).filter (fun i => a.getD i 0 != b.getD i 0)).length

/-! ### Control words (R266, R276) -/

/-- The fields of a control word. -/
structure Ctrl where
  ack    : Nat := 0
  nak    : Bool := false
  credit : List Nat := []
  op     : LaneOp := .none
  lane   : Nat := 0
  shadow : Nat := 15
deriving DecidableEq, Repr

/-- The number of a lane operation. -/
def laneCode : LaneOp → Nat
  | .none => 0
  | .spareReq => 1
  | .spareDone => 2
  | .halfReq => 3
  | .reserved => 4

/-- The lane operation of a number. -/
def laneOpOf (n : Nat) : LaneOp :=
  if n = 0 then .none else if n = 1 then .spareReq else if n = 2 then .spareDone else if n = 3 then .halfReq else .reserved

/-- Bytes of flits in a frame: 1,216, or 1,248 on the Ferrule port. -/
def flitRoom (frl : Bool) : Nat := if frl then 1248 else 1216
/-- Credit fields of a control word. -/
def creditCount (frl : Bool) : Nat := if frl then 4 else 16

/-- A control word without its CRC. -/
def ctrlHead (frl : Bool) (c : Ctrl) : List Byte :=
  let k := creditCount frl
  let cs := (List.range k).foldl (fun w i => w + min 4095 (c.credit.getD i 0) * 2 ^ (16 + 12 * i)) 0
  toLE (if frl then 28 else 60)
    (c.ack % 4096 + 4096 * b2n c.nak + cs + (laneCode c.op + 8 * (c.lane % 16) + 128 * (c.shadow % 16)) * 2 ^ (16 + 12 * k))

/-- The 1,280 bytes of a frame: its flits and its control word (R265, R266). -/
def frameBytes (frl : Bool) (flits : List Byte) (c : Ctrl) : List Byte :=
  let body := padTo (flitRoom frl) flits ++ ctrlHead frl c
  body ++ toLE 4 (crc32 body)

/-- The CRC of a frame matches. -/
def crcMatches (bs : List Byte) : Bool := crc32 (bs.take 1276) == fieldAt bs 1276 4

/-- The control word of a frame. -/
def ctrlOf (frl : Bool) (bs : List Byte) : Ctrl :=
  let k := creditCount frl
  let w := leNat (bs.drop (flitRoom frl))
  let b := 16 + 12 * k
  { ack := bits w 11 0, nak := bit w 12, credit := (List.range k).map (fun i => bits w (16 + 12 * i + 11) (16 + 12 * i)),
    op := laneOpOf (bits w (b + 2) b), lane := bits w (b + 6) (b + 3), shadow := bits w (b + 10) (b + 7) }

/-! ### Packets and messages as bytes (R229, R277) -/

/-- The bytes of a Chart packet: its 48-byte header and its payload. -/
def packetBytes (p : Packet) : List Byte :=
  toLE 4 (p.dst.toNat + 2 ^ 12 * p.src.toNat + 2 ^ 24 * p.part.val + 2 ^ 26 * p.cls.toNat)
  ++ toLE 4 (p.opcode.toNat + 2 ^ 8 * p.status.toNat + 2 ^ 16 * p.len64.toNat + 2 ^ 20 * b2n p.poison)
  ++ toLE 4 p.tag.toNat ++ toLE 4 p.nonce.toNat ++ toLE 8 p.addr.toNat
  ++ toLE 4 (p.epoch.toNat + 2 ^ 16 * p.retry.toNat) ++ toLE 4 p.aux.toNat ++ toLE 16 p.pmask.toNat
  ++ padTo (64 * p.len64.toNat) p.payload

/-- The Chart packet that bytes spell; `bad` where a reserved bit is set or LEN64 is above 8. -/
def packetOf (bs : List Byte) : Packet :=
  let w0 := fieldAt bs 0 4
  let w1 := fieldAt bs 4 4
  { dst := BitVec.ofNat 12 w0, src := BitVec.ofNat 12 (bits w0 23 12), part := ⟨bits w0 25 24 % 4, by omega⟩,
    cls := BitVec.ofNat 2 (bits w0 27 26), opcode := BitVec.ofNat 8 w1, status := BitVec.ofNat 8 (bits w1 15 8),
    len64 := BitVec.ofNat 4 (bits w1 19 16), poison := bit w1 20, tag := BitVec.ofNat 32 (fieldAt bs 8 4),
    nonce := BitVec.ofNat 32 (fieldAt bs 0x0C 4), addr := BitVec.ofNat 64 (fieldAt bs 0x10 8),
    epoch := BitVec.ofNat 16 (fieldAt bs 0x18 2), retry := BitVec.ofNat 16 (fieldAt bs 0x1A 2),
    aux := BitVec.ofNat 32 (fieldAt bs 0x1C 4), pmask := BitVec.ofNat 128 (fieldAt bs 0x20 16),
    payload := slice bs 48 (64 * bits w1 19 16),
    bad := bits w0 31 28 != 0 || bits w1 31 21 != 0 || decide (8 < bits w1 19 16) }

/-- The bytes of a Ferrule message: its 16-byte header and its lines. -/
def msgBytes (m : FMsg) : List Byte :=
  toLE 8 (m.cls.toNat + 4 * m.opcode.toNat + 2 ^ 8 * m.linesM1.toNat + 2 ^ 12 * m.status.toNat + 2 ^ 16 * m.mask.toNat
    + 2 ^ 32 * m.tag.toNat) ++ toLE 8 m.addr.toNat ++ m.lines

/-- The Ferrule message that bytes spell; `bad` where the reserved bit is set. -/
def fmsgOf (bs : List Byte) : FMsg :=
  let w := fieldAt bs 0 8
  { cls := BitVec.ofNat 2 w, opcode := BitVec.ofNat 6 (bits w 7 2), linesM1 := BitVec.ofNat 3 (bits w 10 8),
    status := BitVec.ofNat 4 (bits w 15 12), mask := BitVec.ofNat 16 (bits w 31 16), tag := BitVec.ofNat 32 (bits w 63 32),
    addr := BitVec.ofNat 64 (fieldAt bs 8 8), lines := bs.drop 16, bad := bit w 11 }

/-! ### Flits (R265) -/

/-- An idle flit: byte 04h is 00h; a Ferrule message may have 00h there, and its opcode is then looked at (log entry 147). -/
def idleFlit (frl : Bool) (f : List Byte) : Bool := fieldAt f 4 1 == 0 && (!frl || fieldAt f 0 1 / 4 == 0)

/-- The bytes of a packet or message, from its first flit. -/
def needBytes (frl : Bool) (f : List Byte) : Nat :=
  if frl then 16 * (1 + (if fieldAt f 0 1 % 4 = 3 then 4 * (bits (fieldAt f 0 4) 10 8 + 1) else 0))
  else 16 * (3 + 4 * bits (fieldAt f 4 4) 19 16)

/-- Flits one after the other: what is whole, in order, and what has come of the next packet or message. -/
def takeFlits (frl : Bool) (bs : List Byte) : Nat → List Byte → List (List Byte) × List Byte
  | 0, part => ([], part)
  | k + 1, part0 =>
    let (done_, part) := takeFlits frl bs k part0
    let f := slice bs (16 * k) 16
    if part.isEmpty && idleFlit frl f then (done_, part)
    else
      let now := part ++ f
      if needBytes frl now ≤ now.length then (done_ ++ [now], []) else (done_, now)

/-! ### A frame received (R264 to R267) -/

/-- What a receiver makes of the codewords of a frame. -/
inductive Rx where
  /-- so many uncorrectable codewords -/
  | ucw (n : Nat)
  /-- the codewords make no frame, or the CRC does not match -/
  | crc
  /-- markers alone -/
  | nothing
  /-- SEQ, REPLAY and the frame's bytes -/
  | frame (seq : Nat) (replay : Bool) (body : List Byte)
deriving DecidableEq, Repr

/-- A codeword received: corrected or not, and the corrected symbols of each physical lane. -/
def rxWord (map : List Nat) (lanes : List (List Nat)) : Option (List Nat) × List Nat :=
  let raw := gathered map lanes
  match rsDecode raw with
  | none => (none, List.replicate 9 0)
  | some w => (some w, (List.range 9).map (fun p => ((List.range 544).filter (fun i =>
      raw.getD i 0 != w.getD i 0 && map.getD (i % map.length) 0 == p)).length))

/-- The frame that codewords make; codewords with MARKER carry no flits and are passed over. -/
def rxFrame (map : List Nat) (words : List (List (List Nat))) : Rx :=
  let ws := words.map (fun w => ((rxWord map w).1).map wordFields)
  if ws.any Option.isNone then .ucw (ws.filter Option.isNone).length
  else
    match (ws.filterMap id).filter (fun w => !bit w.1 14) with
    | [] => .nothing
    | [a, b] =>
      let body := a.2 ++ b.2
      if bits a.1 11 0 = bits b.1 11 0 && !bit a.1 12 && bit b.1 12 && crcMatches body then .frame (bits a.1 11 0) (bit a.1 13) body
      else .crc
    | _ => .crc

/-- Corrected symbols of each physical lane over a frame, and for the spare its differences from the corrected symbols of
the lane it shadows (R272, R273). -/
def rxErrors (map : List Nat) (spare shadowed : Option Nat) (words : List (List (List Nat))) : List Nat :=
  let sums := words.foldl (fun a w => (List.range 9).map (fun p => a.getD p 0 + (rxWord map w).2.getD p 0)) (List.replicate 9 0)
  match spare, shadowed with
  | some p, some q => words.foldl (fun a w => match (rxWord map w).1 with
      | some good => modAt a p (fun n => n + differ (w.getD p []) ((dealt map good).getD q []))
      | none => a) sums
  | _, _ => sums

end Sys2Proof.Machine
end

