-- ==== Sys2Proof/Machine/Ops.lean ====
section
/-! DEFINITION. Machine/Ops.lean: the named operations over registers, time, memory, the error log and the Ferrule link
that the meanings of the commands share. -/

namespace Sys2Proof.Machine

/-! ### Outcomes -/

/-- A command whose condition `g` holds has the effect `t`; otherwise nothing comes about (log entry 13). -/
def act (s : State) (g : Bool) (t : State) : Out := .next (if g then t else s)

/-- A command that always has its effect. -/
def done (t : State) : Out := .next t

/-- The state after a command that never stops. -/
def Out.after (s : State) (o : Out) : State :=
  match o with
  | .next t => t
  | _ => s

/-! ### Register fields -/

/-- The key of a field in State.regs and State.force. -/
def Field.key (f : Field) : Nat := f.addr * 64 + f.lo

/-- The width of a field. -/
def Field.width (f : Field) : Nat := f.hi + 1 - f.lo

/-- The value of a field: the last value written, for SH (R6). -/
def State.get (s : State) (f : Field) : Nat := Sparse.get s.regs f.key f.reset

/-- Set a field, cut to its width. -/
def State.put (s : State) (f : Field) (v : Nat) : State :=
  { s with regs := Sparse.insert s.regs f.key (v % 2 ^ f.width) }

/-- Set a field to 1 or 0. -/
def State.putB (s : State) (f : Field) (v : Bool) : State := s.put f (b2n v)

/-- Whether a field reads 1. -/
def State.on (s : State) (f : Field) : Bool := s.get f == 1

/-- Raise a count that wraps. -/
def State.bump (s : State) (f : Field) (k : Nat) : State := s.put f (s.get f + k)

/-- Raise a count that stops at its largest value. -/
def State.bumpSat (s : State) (f : Field) (k : Nat) : State := s.put f (satAdd (s.get f) k (2 ^ f.width - 1))

/-- An event of this aclk is noted for a field (R8, R9). -/
def State.note (s : State) (f : Field) (v : Nat) : State := { s with noted := Sparse.insert s.noted f.key v }

/-- An event of the hardware sets bits of a W1C field (R8). -/
def State.flag (s : State) (f : Field) (m : Nat) : State :=
  (s.put f (Nat.lor (s.get f) m)).note f (Nat.lor (Sparse.get s.noted f.key 0) m)

/-- An event of this aclk comes to an RC field: a read still returns what the field held before it (R9). -/
def State.keepOld (s : State) (f : Field) : State :=
  { s with before := Sparse.insert s.before f.key (Sparse.get s.before f.key (s.get f)) }

/-- An event of the hardware raises a count of type RC that stops at its largest value (R9). -/
def State.tally (s : State) (f : Field) (k : Nat) : State :=
  ((s.keepOld f).bumpSat f k).note f (Sparse.get s.noted f.key 0 + k)

/-- Lower a count, no lower than 0. -/
def State.drop (s : State) (f : Field) (k : Nat) : State := s.put f (s.get f - k)

/-- The value of an SH field in force (R6, R7). -/
def State.inForce (s : State) (f : Field) : Nat := Sparse.get s.force f.key f.reset

/-- Put a value into a field and into force at once (R191). -/
def State.putForce (s : State) (f : Field) (v : Nat) : State :=
  let t := s.put f v
  { t with force := Sparse.insert t.force f.key (v % 2 ^ f.width), shPend := t.shPend.filter (fun p => p.1 != f.key) }

/-- Return every field of the registers at offsets [lo, hi) to its reset value, in force too. -/
def State.clearRegs (s : State) (lo hi : Nat) : State :=
  { s with
    regs := s.regs.eraseRange (lo * 64) (hi * 64)
    force := s.force.eraseRange (lo * 64) (hi * 64)
    shPend := s.shPend.filter (fun p => !(decide (lo * 64 ≤ p.1) && decide (p.1 < hi * 64))) }

/-! ### Partitions, cores and slots -/

/-- A partition's state. -/
def State.part (s : State) (n : PartIx) : Part := s.parts[n]
/-- A core's state. -/
def State.core (s : State) (c : CoreIx) : Core := s.cores[c]
/-- Replace a partition's state. -/
def State.setPart (s : State) (n : PartIx) (p : Part) : State := { s with parts := s.parts.set n p }
/-- Replace a core's state. -/
def State.setCore (s : State) (c : CoreIx) (k : Core) : State := { s with cores := s.cores.set c k }
/-- Change a partition's state. -/
def State.modPart (s : State) (n : PartIx) (f : Part → Part) : State := s.setPart n (f (s.part n))
/-- Change a core's state. -/
def State.modCore (s : State) (c : CoreIx) (f : Core → Core) : State := s.setCore c (f (s.core c))
/-- Open slots that a partition has had. -/
def State.slot (s : State) (n : PartIx) : Nat := s.slots[n]

/-- The partition of a core (R2, R37). -/
def partOf (c : CoreIx) : PartIx := ⟨c.val / 4, by omega⟩
/-- Core i of a partition. -/
def coreAt (n : PartIx) (i : Fin 4) : CoreIx := ⟨4 * n.val + i.val, by omega⟩
/-- The partition of a context (R37). -/
def ctxPart (k : Nat) : PartIx := ⟨(k / 4096) % 4, by omega⟩
/-- A number as a partition. -/
def toPart (n : Nat) : PartIx := ⟨n % 4, by omega⟩
/-- A number as a core. -/
def toCore (n : Nat) : CoreIx := ⟨n % 16, by omega⟩
/-- A number as an engine of a core. -/
def toEng (n : Nat) : EngIx := ⟨n % 8, by omega⟩
/-- A number as a context. -/
def toCtx (n : Nat) : CtxIx := ⟨n % 16384, by omega⟩

/-- The four partitions in order. -/
def allParts : List PartIx := [0, 1, 2, 3]
/-- The sixteen cores in order. -/
def allCores : List CoreIx := [0, 1, 2, 3, 4, 5, 6, 7, 8, 9, 10, 11, 12, 13, 14, 15]
/-- The four cores of a partition in order. -/
def coresOf (n : PartIx) : List CoreIx := [coreAt n 0, coreAt n 1, coreAt n 2, coreAt n 3]

/-- Apply f to each partition of a list in order. -/
def forParts (l : List PartIx) (f : PartIx → State → State) (s : State) : State := l.foldl (fun t n => f n t) s
/-- Apply f to each core of a list in order. -/
def forCores (l : List CoreIx) (f : CoreIx → State → State) (s : State) : State := l.foldl (fun t c => f c t) s

/-- The module's logic runs: internal power good, MOD_RESET_N high, no trip, no internal reset (R21 to R23, R34). -/
def State.live (s : State) : Bool := decide (s.power.phase = .up 7) && s.power.modResetN && decide (s.power.hold = 0)

/-- Software reaches every block: S0 has passed (R352, R376). -/
def State.served (s : State) : Bool := s.live && s.on BOOT.STATUS.STARTED
/-- A field of type RW or SH can be written: software reaches it, or the boot firmware does in stage 4 (R350, R376). -/
def State.settable (s : State) : Bool := s.live && (s.on BOOT.STATUS.STARTED || s.get BOOT.STATUS.STAGE == 4)

/-- The partition is ACTIVE (R51). -/
def State.active (s : State) (n : PartIx) : Bool := s.get (PART.POWER_n.STATE n) == 0
/-- The partition is in POWER_OFF. -/
def State.poweredOff (s : State) (n : PartIx) : Bool := s.get (PART.POWER_n.STATE n) == 2
/-- The partition runs: the module lives, the partition is ACTIVE and not held in reset. -/
def State.runs (s : State) (n : PartIx) : Bool := s.live && s.active n && !(s.part n).inReset
/-- Slot i of a window of 16 aclk is open at gate g (R41). -/
def slotOpen (g i : Nat) : Bool := decide ((i + 1) * g / 16 > i * g / 16)

/-- The gate of a partition that acts in this aclk (R29, R41). -/
def State.gate (s : State) (n : PartIx) : Nat := s.power.gates.getD n.val 16

/-- A partition's slot is open in this aclk (R41). -/
def State.slotIsOpen (s : State) (n : PartIx) : Bool := slotOpen (s.gate n) (s.time % 16)

/-- A stroke boundary of the partition falls in this aclk or fell in an earlier one, and has not been passed yet (R44). -/
def State.boundaryDue (s : State) (n : PartIx) : Bool :=
  s.live && !(s.part n).inReset && s.on (STK.CTRL_n.RUNNING n) && !(s.part n).window
  && decide (s.get (STK.NEXT_n.ACLK n) ≤ s.time) && s.get (STK.NEXT_n.ACLK n) != 0xFFFFFFFFFFFFFFFF

/-- The units and issue points of the partition may advance in this aclk: it runs, its slot is open and no boundary is due (R42,
R44). -/
def State.advances (s : State) (n : PartIx) : Bool := s.runs n && s.slotIsOpen n && !s.boundaryDue n
/-- The partition may start work: no boundary is due and no boundary window is open (R44). -/
def State.issues (s : State) (n : PartIx) : Bool := s.runs n && !s.boundaryDue n && !(s.part n).window

/-- The number of aclk from time t on in which k open slots pass at gate g, at most `fuel` (R41). -/
def aclkFor (g : Nat) : Nat → Nat → Nat → Nat
  | 0, _, _ => 0
  | fuel + 1, t, k => if k = 0 then 0 else 1 + aclkFor g fuel (t + 1) (if slotOpen g (t % 16) then k - 1 else k)

/-- The aclk that k open slots take from now on. -/
def State.slotTime (s : State) (n : PartIx) (k : Nat) : Nat := aclkFor (s.gate n) 1024 s.time k

/-- Draw the next free value (log entry 1). -/
def State.draw (s : State) : Word × State := (Config.freeWord s.free, { s with free := s.free + 1 })

/-! ### Stroke boundaries and SH fields (R7) -/

/-- The lowest-numbered partition that is out of reset. -/
def State.lowestOut (s : State) : Option PartIx := allParts.find? (fun n => !(s.part n).inReset)

/-- Bring pending SH fields into force: those of partition n where `own` says so, and those of the shell where `shell` does. -/
def State.applySh (s : State) (n : PartIx) (own shell : Bool) : State :=
  let mine := fun (p : Nat × Nat) => (own && p.2 == n.val) || (shell && p.2 == 4)
  { s with
    force := (s.shPend.filter mine).foldl
      (fun m p => match Sparse.find? s.regs p.1 with
        | some v => Sparse.insert m p.1 v
        | none => Sparse.erase m p.1) s.force
    shPend := s.shPend.filter (fun p => !mine p) }

/-- Record that an SH field was written (R7). -/
def State.pendSh (s : State) (key owner : Nat) : State :=
  { s with shPend := s.shPend.filter (fun p => p.1 != key) ++ [(key, owner)] }

/-! ### Links: the frame being filled (R264 to R267) -/

/-- A number as a link. -/
def toLink (n : Nat) : LinkIx := ⟨n % 11, by omega⟩
/-- A link's number as a port. -/
def toPort (n : Nat) : PortIx := ⟨n % 10, by omega⟩
/-- A link's state. -/
def State.link (s : State) (l : LinkIx) : LinkSt := s.links[l]
/-- Change a link's state. -/
def State.modLink (s : State) (l : LinkIx) (f : LinkSt → LinkSt) : State := { s with links := s.links.set l (f (s.link l)) }
/-- The link is the Ferrule port. -/
def isFrl (l : LinkIx) : Bool := l.val == 10
/-- STATE of a link: 0 DOWN, 1 TRAINING, 2 UP, 3 MISWIRED, 4 HELD, 5 DISABLED. -/
def linkState (l : LinkIx) : Field := if isFrl l then FRL.STATUS.STATE else GRT.PSTATE_p.STATE (toPort l.val)

/-- The symbols of a codeword on each physical lane: dealt to the logical lanes, the shadowed one copied onto the spare, and none on a
lane that is driven no more (R264, R273). -/
def LinkSt.onLanes (k : LinkSt) (word : List Nat) : List (List Nat) :=
  let own := dealt k.txLanes word
  let all := match k.txSpare, k.txLanes[k.shadowTx]? with
    | some p, some q => own.set p (own.getD q [])
    | _, _ => own
  k.quiet.foldl (fun a p => a.set p []) all

/-- A codeword goes onto the lanes with its parity (R264). -/
def LinkSt.drive (k : LinkSt) (header : Nat) (body : List Byte) : LinkSt :=
  { k with wire := k.wire ++ [.word header body (k.onLanes (codeword header body))] }

/-- A codeword of a frame goes onto the lanes; after every 4,095 of them one with MARKER (R265). -/
def LinkSt.emit (k : LinkSt) (header : Nat) (body : List Byte) : LinkSt :=
  let j := k.drive header body
  if 4095 ≤ k.words + 1 then { j.drive (wordHeader 0 false false true) [] with words := 0 } else { j with words := k.words + 1 }

/-- The two codewords of a frame go onto the lanes (R265); the control word that says NAK is the next one and no other (R267). -/
def LinkSt.emitFrame (k : LinkSt) (frl : Bool) (f : TxFrame) (replay : Bool) : LinkSt :=
  let c : Ctrl := { ack := k.ackRx, nak := k.nak, credit := f.credit, op := k.laneOp, lane := k.laneArg, shadow := k.shadowTx }
  let bs := frameBytes frl f.flits c
  let j := (k.emit (wordHeader f.seq false replay false) (bs.take 640)).emit (wordHeader f.seq true replay false) (bs.drop 640)
  { j with nak := false }

/-- What a control word tells of freed room, 4,095 at most of each pool, and what the next one has still to tell (R266, R276). -/
def creditNow (freed : List Nat) : List Nat := freed.map (min 4095)
def creditLater (freed : List Nat) : List Nat := freed.map (· - 4095)

/-- The frame being filled leaves, idle flits behind what it holds: its control word carries what the receiver here has to say
(R265 to R267). NAK and SPARE_DONE are said once, SPARE_REQ until it is answered (R274). -/
def State.closeFrame (s : State) (l : LinkIx) : State :=
  let k := s.link l
  let f : TxFrame := { seq := (k.seqTx + 1) % 4096, flits := padTo (flitRoom (isFrl l)) k.open_,
                       credit := creditNow (if isFrl l then s.ferrule.freed else k.freed), ends := k.ends }
  let t := s.modLink l (fun k =>
    let j := k.emitFrame (isFrl l) f false
    { j with
      seqTx := f.seq, open_ := [], ends := 0, freed := creditLater k.freed
      news := (creditLater (if isFrl l then s.ferrule.freed else k.freed)).any (· != 0)
      laneOp := if k.laneOp = .spareDone then .none else k.laneOp
      lastAck := if k.buf.isEmpty then s.time else k.lastAck
      buf := k.buf ++ [f] })
  if isFrl l then { t with ferrule := { t.ferrule with freed := creditLater s.ferrule.freed } } else t

/-- The bytes of a packet or message join the frame being filled, which leaves once it is full (R265). -/
def State.putFlits (s : State) (l : LinkIx) (bs : List Byte) : State :=
  let room := flitRoom (isFrl l)
  let all := (s.link l).open_ ++ bs
  if all.length < room then s.modLink l (fun k => { k with open_ := all, ends := k.ends + 1 })
  else
    let whole := all.length == room
    ((s.modLink l (fun k => { k with open_ := all.take room, ends := k.ends + b2n whole })).closeFrame l).modLink l (fun k =>
      { k with open_ := all.drop room, ends := 1 - b2n whole })

/-- The frame being filled leaves at the end of an aclk where it holds something, or where the control word has something to say, and
fewer than 512 frames are unacknowledged (R267; log entry 148). -/
def State.frameDue (s : State) (l : LinkIx) : State :=
  let k := s.link l
  if s.get (linkState l) == 2 && (!k.open_.isEmpty || k.news) && decide (k.buf.length < 512) then s.closeFrame l else s

/-- The next control word of a link has something to say. -/
def State.tell (s : State) (l : LinkIx) : State := s.modLink l (fun k => { k with news := true })

/-! ### Request tags (R229, R240, R277) -/

/-- The tag of a request of a unit (R229, R277): unit, generation, index. -/
def unitTag (unit gen idx : Nat) : Nat := 134217728 * (unit % 32) + 2048 * (gen % 65536) + idx % 2048

/-- The unit of a tag. -/
def tagUnit (tag : Nat) : Nat := tag / 134217728

/-- DUP_US as it acts, in aclk (R237). -/
def State.dupTime (s : State) : Nat :=
  800 * max (s.inForce CHT.TIMERS2.DUP_US)
    (clamp 10 10000 (s.inForce CHT.TIMERS.RESP_US) * (clamp 1 15 (s.inForce CHT.TIMERS.RETRIES) + 1))

/-- An index of a unit's requests is in use, or is not to be used yet (R240). -/
def State.ixUsed (s : State) (unit i : Nat) : Bool :=
  let mine := fun (tag : Nat) => tagUnit tag == unit && tag % 2048 == i
  s.chart.reqs.any (fun r => mine r.pkt.tag.toNat) || s.chart.dirs.any (fun d => d.tagged && mine d.pkt.tag.toNat)
  || s.ferrule.reqs.any (fun r => r.out && mine r.tag)
  || s.chart.aside.any (fun x => x.1 == unit && x.2.1 == i && decide (s.time < x.2.2))

/-- The first index from i on, of k looked at, that is not in use. -/
def freeIx (used : Nat → Bool) : Nat → Nat → Option Nat
  | 0, _ => none
  | k + 1, i => if used (i % 2048) then freeIx used k (i + 1) else some (i % 2048)

/-- The tag of a unit's next request, none while all its indices are in use (R229, R240; log entry 149). -/
def State.freshTag (s : State) (unit gen : Nat) : Option (Nat × State) :=
  (freeIx (s.ixUsed unit) 2048 s.chart.tagNo).map (fun i =>
    (unitTag unit gen i, { s with chart := { s.chart with tagNo := (i + 1) % 2048 } }))

/-- Indices freed by cancellation or failure are not used for DUP_US (R240). -/
def State.setAside (s : State) (tags : List Nat) : State :=
  { s with chart := { s.chart with
      aside := s.chart.aside.filter (fun x => decide (s.time < x.2.2)) ++ tags.map (fun g => (tagUnit g, g % 2048, s.time + s.dupTime)) } }

/-! ### The Ferrule link: sending (R277, R286) -/

/-- A message header with no payload. -/
def fmsg (cls op : Nat) (tag addr : Nat) : FMsg :=
  { cls := BitVec.ofNat 2 cls, opcode := BitVec.ofNat 6 op, linesM1 := 0, status := 0, mask := 0,
    tag := BitVec.ofNat 32 tag, addr := BitVec.ofNat 64 addr, lines := [], bad := false }

/-- The flits that a message occupies (R277). -/
def flits (m : FMsg) : Nat := 1 + 4 * (m.lines.length / 64)

/-- A tracker is free for a request (R286): 1,024 for each partition, 256 for the Ferrule agent. -/
def trackerFree (s : State) (part : Option Nat) : Bool :=
  decide ((s.ferrule.reqs.filter (fun r => r.out && r.part == part)).length < (if part.isSome then 1024 else 256))

/-- A message leaves: it takes its class's credits and joins the frame being filled (R276, R286). -/
def State.frlOut (s : State) (m : FMsg) : State :=
  State.putFlits { s with
    ferrule := { s.ferrule with credits := modAt s.ferrule.credits m.cls.toNat (fun k => k - flits m) }
    ferruleTx := s.ferruleTx ++ [m] } 10 (msgBytes m)

/-- The segment's remote read that a request is for takes the request's tag (R171). -/
def State.retag (s : State) (kind : FKind) (tag : Nat) : State :=
  match kind with
  | .rdNc c piece =>
    s.modCore (toCore c) (fun k => { k with seg := k.seg.map (fun g =>
      { g with remote := g.remote.map (fun p => if p.tag = piece then { p with tag := tag } else p) }) })
  | _ => s

/-- The tag of a request (R277, R281): of the core for an RD_NC, otherwise of the Ferrule agent. -/
def State.frlTag (s : State) (kind : FKind) : Option (Nat × State) :=
  match kind with
  | .rdNc c _ => s.freshTag c (s.get (SEQ.GEN.GEN c))
  | _ => s.freshTag 18 0

/-- Send the first waiting message if its class has room and, for a request, a tracker and a tag are free (R285, R286). A request
cancelled meanwhile is dropped. -/
def State.frlTry (s : State) (x : FOut) : Option State :=
  let m := x.msg
  match x.req with
  | some k =>
    (match s.ferrule.reqs.find? (fun r => r.no == k) with
    | none => some s
    | some r =>
      if decide (flits m ≤ s.ferrule.credits.getD m.cls.toNat 0) && trackerFree s r.part && s.get FRL.STATUS.STATE == 2
          && decide ((s.link 10).buf.length < 512) then
        (s.frlTag r.kind).map (fun p =>
          let t := p.2.retag r.kind p.1
          State.frlOut { t with ferrule := { t.ferrule with
            reqs := t.ferrule.reqs.map (fun q => if q.no = k then { q with out := true, tag := p.1, sent := s.time } else q) } }
            { m with tag := BitVec.ofNat 32 p.1 })
      else none)
  | none =>
    if decide (flits m ≤ s.ferrule.credits.getD m.cls.toNat 0) && s.get FRL.STATUS.STATE == 2
        && decide ((s.link 10).buf.length < 512) then some (s.frlOut m)
    else none

/-- Send what can be sent of a list of messages: the state, and the messages that still wait. A message that lacks room in its pool holds
back its class; one that lacks a tracker holds back those alone that need one of the same kind (R286). -/
def frlPumpGo : List FOut → List (BitVec 2) → State → List FOut × State
  | [], _, s => ([], s)
  | m :: r, blocked, s =>
    match (if blocked.contains m.msg.cls then none else s.frlTry m) with
    | some t => frlPumpGo r blocked t
    | none =>
      let full := decide (s.ferrule.credits.getD m.msg.cls.toNat 0 < flits m.msg)
      let (w, t) := frlPumpGo r (if full then m.msg.cls :: blocked else blocked) s
      (m :: w, t)

/-- Send what room and trackers allow of the messages that wait (R286). -/
def State.frlPump (s : State) : State :=
  let (w, t) := frlPumpGo s.ferrule.waiting [] s
  { t with ferrule := { t.ferrule with waiting := w } }

/-- A message joins those that wait, and what can be sent is sent (R286). -/
def State.frlPush (s : State) (x : FOut) : State :=
  ({ s with ferrule := { s.ferrule with waiting := s.ferrule.waiting ++ [x] } }).frlPump

/-- Send an answer to the companion once its class has room (R286). -/
def State.frlSend (s : State) (m : FMsg) : State := s.frlPush { msg := m }

/-- Record a request of the module, not yet sent: its number (R285, R287). -/
def State.frlRecord (s : State) (m : FMsg) (part : Option Nat) (kind : FKind) (intr : Option Nat) : Nat × State :=
  let r : FReq := { no := s.ferrule.nextTag, tag := 0, op := m.opcode.toNat, addr := m.addr.toNat, part := part, kind := kind,
                    intr := intr, out := false, sent := 0 }
  (r.no, { s with ferrule := { s.ferrule with reqs := s.ferrule.reqs ++ [r], nextTag := s.ferrule.nextTag + 1 } })

/-- Record a request of the module and send it (R285, R287). -/
def State.frlRequest (s : State) (m : FMsg) (part : Option Nat) (kind : FKind) (intr : Option Nat) : State :=
  let (k, t) := s.frlRecord m part kind intr
  t.frlPush { msg := m, req := some k }

/-- The device cache's line at a companion line address, if it is not in I (R280). -/
def lineAt (s : State) (a : Nat) : Option CacheLine := s.ferrule.cache.find? (fun l => l.addr == a)

/-- Take a list of lines as the device cache; FRL.CACHE.VALID follows (R295). -/
def State.setCache (s : State) (c : List CacheLine) : State :=
  ({ s with ferrule := { s.ferrule with cache := c } }).put FRL.CACHE.VALID c.length

/-- Put a line into the cache, or replace it. -/
def State.putLine (s : State) (l : CacheLine) : State :=
  if (lineAt s l.addr).isSome then s.setCache (s.ferrule.cache.map (fun x => if x.addr = l.addr then l else x))
  else s.setCache (s.ferrule.cache ++ [l])

/-- A line goes to I. -/
def State.delLine (s : State) (a : Nat) : State := s.setCache (s.ferrule.cache.filter (fun x => x.addr != a))

/-- The victim row of R282: a stable line is evicted; a transient one is left. -/
def State.evict (s : State) (l : CacheLine) : State :=
  match l.st with
  | .s => s.delLine l.addr
  | .e => (s.putLine { l with st := .ei }).frlRequest (fmsg 0 0x04 0 l.addr) none .evict none
  | .m =>
    (s.putLine { l with st := .mi }).frlRequest
      { fmsg 3 0x20 0 l.addr with lines := l.data, mask := BitVec.ofNat 16 l.poison } none .evict none
  | _ => s

/-- The line addresses that a message's payload covers. -/
def msgLines (m : FMsg) : List Nat := (List.range (m.lines.length / 64)).map (fun i => m.addr.toNat + 64 * i)

/-- Send a WR_NC that always goes uncached; a cached copy of its lines is evicted first (R281). -/
def State.frlUncached (s : State) (x : FOut) : State :=
  let m := x.msg
  let t := (msgLines m).foldl (fun t a => match lineAt t a with | some l => t.evict l | none => t) s
  if (msgLines m).any (fun a => (lineAt t a).isSome) then
    { t with ferrule := { t.ferrule with parked := t.ferrule.parked ++ [x] } }
  else t.frlPush x

/-- Try again every WR_NC that waits for an eviction. -/
def State.unpark (s : State) : State :=
  s.ferrule.parked.foldl State.frlUncached { s with ferrule := { s.ferrule with parked := [] } }

/-- The module is attached (R290). -/
def State.attached (s : State) : Bool := s.on FRL.STATUS.ATTACHED

/-- The vector of the companion interrupt of kind `kind` for partition n (R289). -/
def State.intrVec (s : State) (n kind : Nat) : Nat := s.inForce FRL.INT_CFG.BASE + 4 * n + kind

/-- Send an INTR at once (R289): only while ENABLE is 1 and the module is attached (R290). -/
def State.sendIntr (s : State) (vec : Nat) : State :=
  if s.attached && (s.inForce FRL.INT_CFG.ENABLE == 1) then
    s.frlRequest (fmsg 0 0x05 0 (vec % 65536)) none .intr none
  else s

/-- WR_NC of a whole number of lines or of part of one line (R277, R278): `bytes` lie at `addr`, and words outside them
are not enabled. -/
def wrNcMsg (addr : Nat) (bytes : List Byte) : FMsg :=
  let off := addr % 64
  let pad := padTo (64 * ceilDiv (off + bytes.length) 64) (List.replicate off 0 ++ bytes)
  let lines := pad.length / 64
  let mask := if lines = 1 then
      (List.range 16).foldl (fun m w => if off < 4 * w + 4 ∧ 4 * w < off + bytes.length then m + 2 ^ w else m) 0
    else 0xFFFF
  { fmsg 3 0x21 0 (addr - off) with linesM1 := BitVec.ofNat 3 (lines - 1), mask := BitVec.ofNat 16 mask, lines := pad }

/-- Write directly to companion memory, outside every outbound queue, and let an INTR go at its CMP (R185, R285, R321). -/
def State.frlDirect (s : State) (addr : Nat) (bytes : List Byte) (kind : FKind) (intr : Option Nat) : State :=
  let (k, t) := s.frlRecord (wrNcMsg addr bytes) none kind intr
  t.frlUncached { msg := wrNcMsg addr bytes, req := some k }

/-! ### Error records (R315 to R321) -/

/-- The bytes of an error record (R316). -/
def ErrRecord.bytes (r : ErrRecord) : List Byte :=
  let w1 := r.code % 65536 + 65536 * (r.domain % 16) + 1048576 * (r.level % 8) + 8388608 * b2n r.nested
    + 16777216 * b2n r.coalesced
  let w5 := (r.ctx.getD 0) % 16384 + 16384 * b2n r.ctx.isSome + 32768 * (r.core % 16) + 524288 * (r.unit % 16)
  let body := toLE 4 r.seq ++ toLE 4 w1 ++ toLE 8 r.time ++ toLE 2 r.boot ++ toLE 2 r.count ++ toLE 4 w5
    ++ toLE 2 r.cmdId ++ toLE 2 r.opcode ++ toLE 4 0 ++ toLE 8 r.addr ++ toLE 8 r.d0 ++ toLE 8 r.d1 ++ toLE 4 0
  body ++ toLE 4 (crc32 body)

/-- The base level of a code (R320, R355); RESET_STEP_LATE and HEALTH_STATE are given by their raisers. -/
def baseLevel (code : Nat) : Nat :=
  if code = 0x02 ∨ code = 0x03 ∨ code = 0x09 ∨ code = 0x10 ∨ code = 0x11 ∨ code = 0x13 ∨ code = 0x14 ∨ code = 0x15
      ∨ code = 0x22 then 1
  else if code = 0x50 ∨ code = 0x51 ∨ code = 0x61 ∨ code = 0x65 then 4
  else 0

/-- The ring is full (R317). -/
def State.ringFull (s : State) : Bool :=
  (s.get ERR.PRODUCER.SEQ + 2 ^ 32 - s.get ERR.CONSUMER.SEQ) % 2 ^ 32 == 4096

/-- Mirror a record and raise its interrupt (R321). -/
def State.mirrorRec (s : State) (r : ErrRecord) : State :=
  let n := if 1 ≤ r.domain ∧ r.domain ≤ 4 then r.domain - 1 else 0
  let loud := decide (s.inForce ERR.CFG.INT_LEVEL ≤ r.level)
  if (s.inForce ERR.CFG.MIRROR_EN == 1) && s.attached then
    s.frlDirect (262144 * (s.inForce ERR.MIRROR_BASE.BASE) + 64 * (r.seq % 4096)) r.bytes .mirror
      (if loud then some (s.intrVec n 2) else none)
  else if loud then s.sendIntr (s.intrVec n 2) else s

/-- Send an In-Band Interrupt where an enabled cause stands, IBIs are enabled, and none has been sent since every cause was
cleared (R372). -/
def State.ibiTry (s : State) : State :=
  let want := (s.on MGT.IBI_CAUSE.HEALTH && s.on MGT.IBI_CFG.HEALTH) || (s.on MGT.IBI_CAUSE.ERROR && s.on MGT.IBI_CFG.ERROR)
    || (s.on MGT.IBI_CAUSE.TRAY && s.on MGT.IBI_CFG.TRAY) || (s.on MGT.IBI_CAUSE.THERMAL && s.on MGT.IBI_CFG.THERMAL)
  if s.mgt.ibiOn && want && !s.mgt.ibiSent then
    let byte := s.get MGT.IBI_CAUSE.HEALTH + 2 * s.get MGT.IBI_CAUSE.ERROR + 4 * s.get MGT.IBI_CAUSE.TRAY
      + 8 * s.get MGT.IBI_CAUSE.THERMAL
    { s with mgt := { s.mgt with ibiSent := true }, i3cTx := s.i3cTx ++ [.ibi (BitVec.ofNat 8 byte)] }
  else s

/-- A cause of an In-Band Interrupt is set (R372, R374). -/
def State.ibiCause (s : State) (f : Field) : State := (s.flag f 1).ibiTry

/-- The record's LEVEL and NESTED, and the change of its domain (R318), for a code of base level b. -/
def State.domainStep (s : State) (d b : Nat) : Nat × Bool × State :=
  if b = 0 then (0, false, s)
  else if s.on (ERR.DOMAIN_d.HANDLING d) then
    let l := min 5 (max b (s.get (ERR.DOMAIN_d.LEVEL d) + 1))
    (l, true, (s.put (ERR.DOMAIN_d.LEVEL d) l).bump (ERR.DOMAIN_d.NESTED_COUNT d) 1)
  else (b, false, (s.put (ERR.DOMAIN_d.HANDLING d) 1).put (ERR.DOMAIN_d.LEVEL d) b)

/-- Write one record of base level b to the ring, or drop it (R317, R318, R321). -/
def State.logRec (s : State) (r : ErrRecord) (b : Nat) : State :=
  let (lv, nest, t) := s.domainStep r.domain b
  if t.ringFull then (t.bump ERR.LOSS.COUNT 1).flag (ERR.DOMAIN_d.LOST_SEEN r.domain) 1
  else
    let q := { r with seq := t.get ERR.PRODUCER.SEQ, level := lv, nested := nest, boot := t.get RST.PERSIST.CHIP_RESETS }
    let u := { t with errs := (q :: t.errs).take 4096 }
    let v := (u.put ERR.PRODUCER.SEQ (t.get ERR.PRODUCER.SEQ + 1)).mirrorRec q
    if v.get MGT.IBI_CFG.ERR_LEVEL ≤ lv then v.ibiCause MGT.IBI_CAUSE.ERROR else v

/-- A record is produced: it goes to the ring at the end of its aclk (R318). -/
def State.produceRec (s : State) (r : ErrRecord) (b : Nat) : State := { s with newErrs := s.newErrs ++ [(r, b)] }

/-- The order of the records of one aclk (R318): domain; those that name no core, by unit; then core and unit; then code. -/
def ErrRecord.rank (r : ErrRecord) : Nat :=
  r.domain * 2 ^ 48 + (if 12 ≤ r.unit then r.unit * 2 ^ 24 else 2 ^ 40 + r.core * 2 ^ 32 + r.unit * 2 ^ 24) + r.code

/-- Put a record into a list in the order of its aclk, behind those of its own rank. -/
def insertRec (x : ErrRecord × Nat) : List (ErrRecord × Nat) → List (ErrRecord × Nat)
  | [] => [x]
  | y :: r => if x.1.rank < y.1.rank then x :: y :: r else y :: insertRec x r

/-- The records of the aclk take their SEQ, and their effect on their domains, in order (R318). -/
def State.writeRecs (s : State) : State :=
  (s.newErrs.foldl (fun l x => insertRec x l) []).foldl (fun t p => t.logRec p.1 p.2) { s with newErrs := [] }

/-- Raise an error of base level b: MEM_CE and FENCE_ACCESS are rate-limited (R319), every other code writes one record. -/
def State.raiseAt (s : State) (r : ErrRecord) (b : Nat) : State :=
  let q := { r with time := s.time }
  if r.code = 0x01 ∨ r.code = 0x09 then
    match s.rates.find? (fun i => i.domain == r.domain && i.code == r.code) with
    | some _ =>
      { s with rates := s.rates.map (fun i =>
          if i.domain = r.domain ∧ i.code = r.code then
            { i with count := i.count + 1, first := some (i.first.getD q) } else i) }
    | none =>
      let due := s.time + 800000 * max 1 (s.inForce ERR.CFG.RATE_MS)
      let iv : RateIv := ⟨r.domain, r.code, due, 0, none⟩
      ({ s with rates := s.rates ++ [iv] }).produceRec q b
  else s.produceRec q b

/-- Raise an error at the base level that R320 gives its code. -/
def State.raise (s : State) (r : ErrRecord) : State := s.raiseAt r (baseLevel r.code)

/-- The domain of a partition (R315). -/
def domPart (n : PartIx) : Nat := n.val + 1

/-! ### Local memory (R193 to R196, R205) -/

/-- The byte at a local offset; an unlisted one reads 0 (log entry 2). -/
def State.rd8 (s : State) (a : Nat) : Byte := Sparse.get s.mem a 0
/-- The k bytes from a local offset. -/
def State.rdBytes (s : State) (a k : Nat) : List Byte := (List.range k).map (fun i => s.rd8 (a + i))
/-- Where a local offset lies (R193): tier and partition, and the offset within the partition's window. -/
def place (a : Nat) : Option (Nat × PartIx × Nat) :=
  if a < 0x400000000 then some (0, toPart (a / 0x100000000), a % 0x100000000)
  else if 0x1000000000 ≤ a ∧ a < 0x3000000000 then
    some (1, toPart ((a - 0x1000000000) / 0x800000000), (a - 0x1000000000) % 0x800000000)
  else if 0x4000000000 ≤ a ∧ a < 0xC000000000 then
    some (2, toPart ((a - 0x4000000000) / 0x2000000000), (a - 0x4000000000) % 0x2000000000)
  else none

/-- The first local offset of frame f of tier t in partition n (R196). -/
def frameBase (n : PartIx) (t f : Nat) : Nat :=
  if t = 0 then 0x100000000 * n.val + 0x10000 * f
  else if t = 1 then 0x1000000000 + 0x800000000 * n.val + 0x10000 * f
  else 0x4000000000 + 0x2000000000 * n.val + 0x10000 * f

/-- The frames of a tier that a partition backs (R196, MEM.CAPACITY_n). -/
def State.capacity (s : State) (n : PartIx) (t : Nat) : Nat :=
  if t = 0 then s.get (MEM.CAPACITY_n.T0 n) else if t = 1 then s.get (MEM.CAPACITY_n.T1 n)
  else s.get (MEM.CAPACITY_n.T2 n)

/-- Whether frame f of tier t in partition n is backed (R194, R196, R204, R211). -/
def State.frameBacked (s : State) (n : PartIx) (t f : Nat) : Bool :=
  if t = 0 then decide (f < 65536) && !(bit (s.get (MEM.STATUS_n.T0_CORE_OUT n)) (f / 16384))
  else decide (t < 3) && decide (f < s.capacity n t)

/-- Whether a local offset of T0, T1 or T2 is backed. -/
def State.backed (s : State) (a : Nat) : Bool :=
  match place a with
  | some (t, n, o) => s.frameBacked n t (o / 0x10000)
  | none => false

/-- A syndrome with which a read delivers a word as poisoned: it is poisoned, or uncorrectable (R205, R210). -/
def badSyndrome (y : BitVec 7) : Bool :=
  match readSyndrome y.toNat with
  | .poisoned => true
  | .uncorrectable => true
  | _ => false
/-- Whether a read of k bytes from a local offset meets a word that is delivered as poisoned. -/
def State.anyPoison (s : State) (a k : Nat) : Bool :=
  s.synd.any (fun p => badSyndrome p.2 && decide (a < 4 * p.1 + 4) && decide (4 * p.1 < a + k))
/-- The number of k bytes from a local offset. One that is not backed gives no data (R194), and a word delivered as poisoned gives none
(R210): what the device's own tables read there is a free value (log entry 165). -/
def State.rdLE (s : State) (a k : Nat) : Nat :=
  if s.backed a && !(s.anyPoison a k) then leNat (s.rdBytes a k) else Config.noData a % 2 ^ (8 * k)

/-- Store bytes in a sparse memory. -/
def storeBytes (m : Sparse Byte) : Nat → List Byte → Sparse Byte
  | _, [] => m
  | a, b :: r => storeBytes (Sparse.set m a b 0) (a + 1) r

/-- Store bytes at a local offset; a whole word stored is good again (R205). -/
def State.wrBytes (s : State) (a : Nat) (bs : List Byte) : State :=
  { s with
    mem := storeBytes s.mem a bs
    synd := s.synd.filter (fun p => !(decide (a ≤ 4 * p.1) && decide (4 * p.1 + 4 ≤ a + bs.length))) }

/-- Store a number of k bytes; nothing changes at an offset that is not backed (R194). -/
def State.wrLE (s : State) (a k v : Nat) : State := if s.backed a then s.wrBytes a (toLE k v) else s

/-- Change bits [hi:lo] of the k-byte number at a local offset. -/
def State.wrBits (s : State) (a k hi lo v : Nat) : State := s.wrLE a k (putBits (s.rdLE a k) hi lo v)

/-- Whether the word of a local offset is poisoned (R205). -/
def State.poisoned (s : State) (a : Nat) : Bool := Sparse.get s.synd (a / 4) 0 == 0x7F
/-- Poison the word of a local offset (R205). -/
def State.poison (s : State) (a : Nat) : State := { s with synd := Sparse.set s.synd (a / 4) 0x7F 0 }
/-- Offsets, counted from a, of the words of k bytes from a that a read delivers as poisoned. -/
def State.poisonIn (s : State) (a k : Nat) : List Nat :=
  (List.range (ceilDiv k 4)).filterMap (fun i => if badSyndrome (Sparse.get s.synd ((a + 4 * i) / 4) 0) then some (4 * i) else none)
/-- Poison the words at the given offsets from a. -/
def State.poisonAt (s : State) (a : Nat) (offs : List Nat) : State := offs.foldl (fun t o => t.poison (a + o)) s
/-- Zero [lo, hi) with fresh check bits (R326, R333). -/
def State.scrubZero (s : State) (lo hi : Nat) : State :=
  { s with mem := s.mem.eraseRange lo hi, synd := s.synd.eraseRange (lo / 4) (hi / 4) }

/-- The base of partition n's vellum. -/
def velBase (n : PartIx) : Nat := 0x100000000 * n.val

/-- The first local offset of register space (R193). -/
def regSpace : Nat := 0x10000000000

/-- The partition's memory is fenced: a partition reset is in progress, or the chip is in reset (R322). -/
def State.fenced (s : State) (n : PartIx) : Bool := (s.part n).inReset

/-- An access from outside to this place is unavailable (R52, R284): fenced, or T1 or T2 of a partition in POWER_OFF. -/
def State.unavailable (s : State) (t : Nat) (n : PartIx) : Bool := s.fenced n || (t != 0 && s.poweredOff n)

/-! ### The model table (R299) -/

/-- A number field of model entry m. -/
def State.md (s : State) (m off k : Nat) : Nat :=
  leNat ((List.range k).map (fun i => Sparse.get s.wts.table (128 * m + off + i) 0))
/-- Write a number field of model entry m. -/
def State.mdWr (s : State) (m off k v : Nat) : State :=
  { s with wts := { s.wts with table := storeBytes s.wts.table (128 * m + off) (toLE k v) } }
/-- Bits [hi:lo] of the word at 04h of a model entry. -/
def State.md4 (s : State) (m hi lo : Nat) : Nat := bits (s.md m 4 4) hi lo
/-- Write bits [hi:lo] of the word at 04h of a model entry. -/
def State.md4Wr (s : State) (m hi lo v : Nat) : State := s.mdWr m 4 4 (putBits (s.md m 4 4) hi lo v)
/-- STATE of a model: 0 EMPTY, 1 LOADING, 2 RESIDENT, 3 DRAINING, 4 STOPPED, 5 REPLACING, 6 EVICTED, 7 FAILED. -/
def State.mdState (s : State) (m : Nat) : Nat := s.md4 m 3 0
/-- The partition of a model. -/
def State.mdPart (s : State) (m : Nat) : PartIx := toPart (s.md4 m 5 4)
/-- GOAL of a model: 1 STOP, 2 REPLACE, 3 EVICT, 4 REPAIR. -/
def State.mdGoal (s : State) (m : Nat) : Nat := s.md4 m 11 9
/-- The context whose tier map holds a model's pages. -/
def State.mdOwner (s : State) (m : Nat) : Nat := 4096 * (s.mdPart m).val + bits (s.md m 8 4) 11 0
/-- The local offset of a shard record (R300). -/
def State.shardAddr (s : State) (m i : Nat) : Nat := s.md m 0x18 8 + 128 * i

/-! ### The context table (R174) -/

/-- The local offset of a context's entry. -/
def State.ctxAddr (s : State) (k : Nat) : Nat :=
  velBase (ctxPart k) + 128 * s.inForce (SCH.CTX_BASE_n.BASE (ctxPart k)) + 128 * (k % 4096)

/-- A number field of a context's entry: offset and bytes. -/
def State.ctxRd (s : State) (k off bytes : Nat) : Nat := s.rdLE (s.ctxAddr k + off) bytes
/-- Write a number field of a context's entry. -/
def State.ctxWr (s : State) (k off bytes v : Nat) : State := s.wrLE (s.ctxAddr k + off) bytes v
/-- Raise a wrapping count of a context's entry. -/
def State.ctxBump (s : State) (k off bytes d : Nat) : State := s.ctxWr k off bytes (s.ctxRd k off bytes + d)

def State.ctxHead (s : State) (k : Nat) : Nat := s.ctxRd k 0x00 8
def State.ctxTail (s : State) (k : Nat) : Nat := s.ctxRd k 0x08 8
def State.ctxState (s : State) (k : Nat) : Nat := bits (s.ctxRd k 0x28 1) 2 0
def State.ctxSetState (s : State) (k v : Nat) : State := s.wrBits (s.ctxAddr k + 0x28) 1 2 0 v
def State.ctxTenant (s : State) (k : Nat) : Nat := s.ctxRd k 0x2B 1
def State.ctxGroup (s : State) (k : Nat) : Nat := s.ctxRd k 0x29 1
def State.ctxPriority (s : State) (k : Nat) : Nat := s.ctxRd k 0x2A 1
def State.ctxMask (s : State) (k : Nat) : Nat := bits (s.ctxRd k 0x28 1) 7 4
def State.ctxBoundaryKills (s : State) (k : Nat) : Nat := bits (s.ctxRd k 0x38 1) 5 4
def State.ctxSetBoundaryKills (s : State) (k v : Nat) : State := s.wrBits (s.ctxAddr k + 0x38) 1 5 4 v

/-- Deliver an event to a context (R185, R290). -/
def State.event (s : State) (k code detail : Nat) : State :=
  let s1 := s.ctxWr k 0x34 2 (Nat.lor (s.ctxRd k 0x34 2) (2 ^ code))
  let ring := s.ctxRd k 0x20 8
  let seq := s.ctxRd k 0x36 2
  let n := ctxPart k
  if ring = 0 then s1
  else if s.attached then
    let rec_ := toLE 2 seq ++ toLE 6 (code % 256 + 256 * (k % 16384)) ++ toLE 8 detail
    let intr := if bit (s.ctxRd k 0x28 1) 3 then some (s.intrVec n 1) else none
    (s1.ctxWr k 0x36 2 (seq + 1)).frlDirect (ring + 16 * (seq % 64)) rec_ .event intr
  else s1.bump FRL.LOSS.EVENTS_DROPPED 1

end Sys2Proof.Machine
end

