-- ==== Sys2Proof/Machine/Flags.lean ====
section
/-! DEFINITION. Machine/Flags.lean: the captures and counts of R107 to R112. -/

namespace Sys2Proof.Machine

/-! ### Captures and counts (R107) -/

/-- Add the reports of one write to a capture; `amax` is the amax of its true values. -/
def Capture.add (c : Capture) (amax : Nat) (rs : List Report) : Capture :=
  let n := fun (f : Report → Bool) => (rs.filter f).length
  { c with
    amax := max c.amax amax
    elements := c.elements + n (fun r => r.element)
    flushed := c.flushed + n (fun r => r.flushed)
    subnormal := c.subnormal + n (fun r => r.subnormal)
    nan := c.nan + n (fun r => r.nan)
    saturated := c.saturated + n (fun r => r.saturated)
    overflow := c.overflow || rs.any (fun r => r.overflow) }

/-- Record a write under an entry in a list of captures; entry 0 is no entry (R103). -/
def captureIn (l : List Capture) (entry amax : Nat) (rs : List Report) : List Capture :=
  if entry = 0 then l
  else if l.any (fun c => c.entry == entry) then
    l.map (fun c => if c.entry = entry then c.add amax rs else c)
  else l ++ [({ entry := entry } : Capture).add amax rs]

/-- The local offset of scale table entry i of partition n (R103, R115). -/
def State.scaleAddr (s : State) (n : PartIx) (i : Nat) : Nat :=
  velBase n + 128 * s.inForce (NUM.TABLE_BASE_n.BASE n) + 128 * i

/-- The entries of a partition's scale table (R116). -/
def State.scaleLen (s : State) (n : PartIx) : Nat := min 8192 (s.inForce (NUM.TABLE_LEN_n.ENTRIES n))

/-- A scale index may be named (R103). -/
def State.scaleOk (s : State) (n : PartIx) (i : Nat) : Bool := i == 0 || decide (i < s.scaleLen n)

/-- CFG.FORMAT of an entry, 7 taken as 0 (R115). -/
def State.entryFmt (s : State) (a : Nat) : Nat := let f := bits (s.rdLE (a + 0x40) 1) 2 0; if f = 7 then 0 else f

/-- An entry is scaled for a tensor that is not in an MX format (R105). -/
def State.entryScaled (s : State) (a : Nat) : Bool :=
  let f := s.entryFmt a
  bit (s.rdLE (a + 0x40) 1) 3 && (f == 2 || f == 3 || f == 4)

/-- An 8-bit code as a two's-complement integer. -/
def sint8 (w : Nat) : Int := if w % 256 < 128 then (w % 256 : Nat) else ((w % 256 : Nat) : Int) - 256

/-- An integer of −128 to 127 as an 8-bit code. -/
def code8 (e : Int) : Nat := if e < 0 then (e + 256).toNat else e.toNat

/-- The exponent that an entry gives a tensor of format `fmt` (R104, R105); 0 for no entry. -/
def State.entryExp (s : State) (n : PartIx) (i fmt : Nat) : Int :=
  if i = 0 ∨ isMx fmt then 0
  else let a := s.scaleAddr n i
    if s.entryScaled a then sint8 (s.rdLE (a + 0x44) 1) else 0

/-- Merge a capture into its entry (R108, R112, R115). -/
def State.mergeCapture (s : State) (n : PartIx) (c : Capture) : State :=
  let a := s.scaleAddr n c.entry
  let count := bit (s.rdLE (a + 0x40) 2) 15
  let s1 := s.wrLE (a + 0x4C) 4 (max (s.rdLE (a + 0x4C) 4) c.amax)
  let add := fun (t : State) (off k v : Nat) => t.wrLE (a + off) k (satAdd (t.rdLE (a + off) k) v (2 ^ (8 * k) - 1))
  let s2 := if count then
      add (add (add (add (add (add s1 0x50 8 c.elements) 0x58 8 c.flushed) 0x60 8 c.subnormal) 0x68 4 c.nan)
        0x6C 4 c.saturated) 0x78 4 c.nan
    else s1
  let s3 := if c.overflow then (s2.wrBits (a + 0x74) 4 0 0 1).flag (NUM.EVENTS_n.OVERFLOW n) 1 else s2
  if c.nan = 0 ∨ bit (s.rdLE (a + 0x74) 1) 1 = true then s3 else (s3.wrBits (a + 0x74) 4 1 1 1).flag (NUM.EVENTS_n.NAN n) 1

/-- The dry-nib test of one scale step (R110, R111): the entry's new RUN, and whether an event is raised. -/
def State.dryNib (s : State) (a : Nat) : Nat × Bool :=
  let cfg := s.rdLE (a + 0x40) 4
  let t0 := bits cfg 31 28
  let n0 := bits cfg 27 16
  let t := if t0 = 0 then max 1 (s.inForce NUM.DEFAULTS.DRYNIB_THRESH) else t0
  let n := if n0 = 0 then max 1 (s.inForce NUM.DEFAULTS.DRYNIB_STEPS) else n0
  let run := s.rdLE (a + 0x70) 2
  let el := s.rdLE (a + 0x50) 8
  if bit cfg 15 then
    if el = 0 then (run, false)
    else if t * el < s.rdLE (a + 0x58) 8 * 16 then (if run + 1 = n then (0, true) else (min 65535 (run + 1), false))
    else (0, false)
  else (run, false)

/-- The exponent part of one scale step (R109): ring, HEAD, FILL and E. -/
def State.scaleRing (s : State) (a : Nat) : State :=
  let cfg := s.rdLE (a + 0x40) 4
  let d0 := bits cfg 11 8
  let delay := if d0 = 0 then max 1 (s.inForce NUM.DEFAULTS.DELAY) else d0
  let len := min (bits cfg 7 4 + 1) (17 - delay)
  let sc := s.rdLE (a + 0x44) 4
  let head := (bits sc 19 16 + 1) % 16
  let fill := min (bits sc 24 20 + 1) 16
  let s1 := s.wrLE (a + 4 * head) 4 (s.rdLE (a + 0x4C) 4)
  let offs := (List.range len).filterMap (fun i => let back := delay - 1 + i; if back < fill then some back else none)
  let top := offs.foldl (fun m b => max m (s1.rdLE (a + 4 * ((head + 16 - b) % 16)) 4)) 0
  let e := sint8 (bits sc 7 0)
  let useful := s.entryScaled a && !offs.isEmpty && decide (0 < top) && decide (top ≤ 0x7F7FFFFF)
  let e' := if useful then
      let x := scaleExp (s.entryFmt a) top (bits cfg 14 12)
      if x < -127 then -127 else if 127 < x then 127 else x
    else e
  let prev := if useful then bits sc 7 0 else bits sc 15 8
  s1.wrLE (a + 0x44) 4 (code8 e' + 256 * prev + 65536 * head + 1048576 * fill)

/-- One scale step of entry i of partition n, for the context k that issued it (R109 to R111). -/
def State.scaleStep (s : State) (n : PartIx) (i k : Nat) : State :=
  let a := s.scaleAddr n i
  let s1 := s.scaleRing a
  let (run, ev) := s1.dryNib a
  let s2 := s1.wrLE (a + 0x70) 2 run
  let s3 := if ev then
      let t := ((s2.wrLE (a + 0x72) 2 (s2.rdLE (a + 0x72) 2 + 1)).wrBits (a + 0x74) 4 2 2 1)
      let t := ((t.flag (NUM.EVENTS_n.DRYNIB n) 1).bump (NUM.EVENTS_n.DRYNIB_COUNT n) 1).event k 1 i
      t.raise { code := 0x17, domain := domPart n, ctx := some k, d0 := i }
    else s2
  let s4 := s3.wrLE (a + 0x48) 4 (s3.rdLE (a + 0x48) 4 + 1)
  ((s4.wrBytes (a + 0x4C) (List.replicate 4 0)).wrBytes (a + 0x50) (List.replicate 32 0))

end Sys2Proof.Machine
end

