-- ==== Sys2Proof/Machine/Words.lean ====
section
/-! DEFINITION. Machine/Words.lean: where the words of T1 and T2 lie in their devices (R201, R207, R208), and what a read makes of a word
in error: corrected, poisoned, counted, channels marked for retirement (R204 to R211). -/

namespace Sys2Proof.Machine

/-- The channel of a T1 or T2 offset within its window (R207, R208). -/
def channelOf (o : Nat) : Nat :=
  let q := o / 512
  Nat.xor (Nat.xor (bits q 4 0) (bits q 9 5)) (bits q 14 10)

/-- The byte within a channel at which stripe q keeps the byte of an offset: 640 B blocks in T1, 512 B in T2 (R207, R208). -/
def dataAddr (t q o : Nat) : Nat := (if t = 1 then 640 else 512) * q + o % 512
/-- The byte within a GDDR7 channel of the check record of the line of an offset (R207). -/
def checkAddr (q o : Nat) : Nat := 640 * q + 512 + 32 * (o % 512 / 128)
/-- TAG of the check record of a line: its local offset bits [38:7] (R207). -/
def lineTag (a : Nat) : Nat := bits a 38 7

/-- The module bank of a T0 local offset (R201). -/
def bankOf (a : Nat) : Nat :=
  let l := bits a 29 7
  128 * bits a 33 30 + Nat.xor (Nat.xor (Nat.xor (bits l 6 0) (bits l 13 7)) (bits l 20 14)) (bits l 22 21)

/-- The mark bits of a tier's channels. -/
def markField (n : PartIx) (t : Nat) : Field := if t = 1 then MEM.CHAN_MARK_n.T1 n else MEM.CHAN_MARK_n.T2 n
/-- The retired bits of a tier's channels. -/
def retiredField (n : PartIx) (t : Nat) : Field := if t = 1 then MEM.CHAN_RETIRED_n.T1 n else MEM.CHAN_RETIRED_n.T2 n

/-- The channel that serves a T1 or T2 offset of a partition: the stripes of a retired channel lie on the remaining ones
(R211). -/
def State.channel (s : State) (n : PartIx) (t o : Nat) : Nat :=
  let r := s.get (retiredField n t)
  let ch := channelOf o
  if bit r ch then
    let j := 4 * (o / 65536) + o / 16384 % 4
    ((List.range 32).filter (fun c => c != ch)).getD (j % 31) 0
  else ch

/-- The stripe within its channel at which an offset lies: o div 512 div 32, or, where its channel is retired, one of those of the
withdrawn frames (R207, R208, R211). -/
def State.stripe (s : State) (n : PartIx) (t o : Nat) : Nat :=
  if bit (s.get (retiredField n t)) (channelOf o) then
    (if t = 1 then 1625292 else 6094848) + (4 * (o / 65536) + o / 16384 % 4) / 31
  else o / 512 / 32

/-- Where a T1 or T2 offset lies: channel of the partition, byte within the channel. -/
def State.deviceAt (s : State) (n : PartIx) (t o : Nat) : Nat × Nat := (s.channel n t o, dataAddr t (s.stripe n t o) o)

/-- The check record of a T1 line (R207): the check bits of its words as they are stored, and its TAG. -/
def State.checkRecord (s : State) (a : Nat) : List Byte :=
  let c := (List.range 32).foldl (fun v w =>
    v + Nat.xor (checkBits (leNat (s.rdBytes (a + 4 * w) 4))) (Sparse.get s.synd ((a + 4 * w) / 4) 0).toNat * 2 ^ (7 * w)) 0
  toLE 28 c ++ toLE 4 (lineTag a)

/-- DETAIL0 of MEM_CE and MEM_UE (R320). -/
def State.memDetail (s : State) (n : PartIx) (a t o y : Nat) : Nat :=
  t + (if t = 0 then 256 * bankOf a else 4 * s.channel n t o) + 16777216 * y

/-- A channel is marked for retirement (R211): reason 0 CE, 1 UE, 2 retry, 3 training. -/
def State.markChan (s : State) (n : PartIx) (t ch reason : Nat) : State :=
  if bit (s.get (markField n t)) ch || bit (s.get (retiredField n t)) ch then s
  else ((s.put (markField n t) (s.get (markField n t) + 2 ^ ch)).modPart n (fun p =>
      { p with reasons := Sparse.insert p.reasons (32 * t + ch) reason })).raise
    { code := 4, domain := domPart n, d0 := t + 4 * ch + 256 * reason }

/-- The error counts of a channel in the window. -/
def chanAt (s : State) (n : PartIx) (t ch : Nat) : ChanCount :=
  Sparse.get (if t = 1 then (s.part n).chans1 else (s.part n).chans2) ch {}

/-- Change the error counts of a channel. -/
def State.modChan (s : State) (n : PartIx) (t ch : Nat) (f : ChanCount → ChanCount) : State :=
  let v := f (chanAt s n t ch)
  s.modPart n (fun p => if t = 1 then { p with chans1 := Sparse.set p.chans1 ch v {} } else { p with chans2 := Sparse.set p.chans2 ch v {} })

/-- One more error of a channel: corrected, or uncorrectable; a limit passed marks the channel (R211). -/
def State.chanError (s : State) (n : PartIx) (t ch : Nat) (ue : Bool) : State :=
  let s1 := s.modChan n t ch (fun k => if ue then { k with ue := k.ue + 1 } else { k with ce := k.ce + 1 })
  let k := chanAt s1 n t ch
  if ue then (if max 1 (s.inForce MEM.ERR_CFG.UE_LIMIT) ≤ k.ue then s1.markChan n t ch 1 else s1)
  else if s.inForce MEM.ERR_CFG.CE_LIMIT < k.ce then s1.markChan n t ch 0 else s1

/-- The counter of corrected words of a tier. -/
def ceField (n : PartIx) (t : Nat) : Field :=
  if t = 0 then MEM.ERRCNT_n.CE_T0 n else if t = 1 then MEM.ERRCNT_n.CE_T1 n else MEM.ERRCNT_n.CE_T2 n

/-- Change the health accumulators of a partition (R334). -/
def State.modHealth (s : State) (n : PartIx) (f : HealthAcc → HealthAcc) : State :=
  s.modPart n (fun p => { p with health := f p.health })

/-- Lines of a page that [off, off + len) covers. -/
def linesIn (off len : Nat) : List Nat :=
  if len = 0 then [] else (List.range ((off + len - 1) / 128 + 1 - off / 128)).map (fun i => off / 128 + i)

/-- Lines of a page that a write outside every segment changes are marked in a migration's map (R218, R219). -/
def State.migDirty (s : State) (base : Nat) (ls : List Nat) : State :=
  forParts allParts (fun n t => t.modPart n (fun p =>
    { p with mig := p.mig.map (fun m =>
        { m with open_ := m.open_.map (fun g =>
            if g.src = base ∧ g.copied then { g with dirty := g.dirty ++ ls.filter (fun l => !g.dirty.contains l) } else g) }) })) s

/-- A corrected word (R209): written back, counted, and recorded under a rate limit. -/
def State.corrected (s : State) (a t : Nat) (n : PartIx) (o y : Nat) : State :=
  let s0 := State.migDirty { s with synd := Sparse.erase s.synd (a / 4) } (65536 * (a / 65536)) [a % 65536 / 128]
  let s1 := (s0.tally (ceField n t) 1).modHealth n (fun h => { h with ce := h.ce + 1 })
  let s2 := s1.raise { code := 1, domain := domPart n, addr := a, d0 := s.memDetail n a t o y }
  if t = 0 then s2 else s2.chanError n t (s.channel n t o) false

/-- A word poisoned in memory (R210); a vellum line that fails in service is reported (R204). -/
def State.uncorrected (s : State) (a t : Nat) (n : PartIx) (o y : Nat) : State :=
  let s1 := (((s.poison a).migDirty (65536 * (a / 65536)) [a % 65536 / 128]).tally (MEM.ERRCNT_n.UE n) 1).modHealth n (fun h => { h with ue := h.ue + 1 })
  let s2 := s1.raise { code := 2, domain := domPart n, addr := a, d0 := s.memDetail n a t o y }
  if t = 0 then s2.raise { code := 7, domain := domPart n, addr := a / 128 * 128 } else s2.chanError n t (s.channel n t o) true

/-- A read finds a word with syndrome y (R205, R209, R210); `again`: a second read, which T1 and T2 make, finds it good. -/
def State.meetWord (s : State) (a y : Nat) (again : Bool) : State :=
  match place a with
  | none => s
  | some (t, n, o) =>
    match readSyndrome y with
    | .good => s
    | .poisoned => s
    | .check _ => s.corrected a t n o y
    | .data _ => s.corrected a t n o y
    | .uncorrectable => if t != 0 && again then s.tally (ceField n t) 1 else s.uncorrected a t n o y

/-- A retry of R206 fails on one more consecutive burst of a channel, or the run ends; the third marks the channel (R211; log entry
143). -/
def State.burstRun (s : State) (n : PartIx) (ch : Nat) (failed : Bool) : State :=
  let t := s.modChan n 1 ch (fun k => { k with retry := if failed then k.retry + 1 else 0 })
  if 3 ≤ (chanAt t n 1 ch).retry then t.markChan n 1 ch 2 else t

/-- The eight words of a 32 B burst are uncorrectable (R207, R210): the line is read once more. -/
def State.badWords (s : State) (a : Nat) (ws : List Nat) (again : Bool) : State :=
  ws.foldl (fun u w => if u.poisoned (a + 4 * w) then u else u.meetWord (a + 4 * w) 0x03 again) s

/-- Burst i of the T1 line at a is tried again up to three times while its CRC, or its command's parity, fails (R206, R210). -/
def State.burst (s : State) (a o : Nat) (n : PartIx) (crc : List (Fin 5)) (again : Bool) (i : Nat) : State :=
  let k := (crc.getD i 0).val
  let t := s.burstRun n (s.channel n 1 o) (decide (2 ≤ k))
  if k = 4 then t.badWords a ((List.range 8).map (fun w => 8 * i + w)) again else t

/-- A corrected word is written back to T1; where the burst fails its CRC after the retries, it is written with poisoned check bits
(R210). -/
def State.rewrite (s : State) (a : Nat) (w : Fin 32 × BitVec 7) (r : LineRead) : State :=
  let fixed := match readSyndrome w.2.toNat with
    | .check _ => true
    | .data _ => true
    | _ => false
  if r.rewriteFails && fixed then s.poisonAt (a + 32 * (w.1.val / 8)) [0, 4, 8, 12, 16, 20, 24, 28] else s

/-- The 32 B bursts of the line at `line` that k bytes from a lie in. -/
def burstsOf (line a k : Nat) : List Nat := [0, 1, 2, 3].filter (fun i => decide (a < line + 32 * i + 32) && decide (line + 32 * i < a + k))

/-- A read of k bytes from a meets what a line's transfer shows in this aclk: CRC failures and their retries, a TAG of another line, words
whose check fails, and, where a check fails, what a second read makes of it (R205 to R211). -/
def State.lineMet (s : State) (e : LineErr) (a k : Nat) : State :=
  match place e.line with
  | none => s
  | some (t, n, o) =>
    let s0 := if t = 1 then (burstsOf e.line a k).foldl (fun u i => u.burst e.line o n e.read.crc e.again i) s else s
    if t = 1 ∧ e.read.tag.toNat ≠ lineTag e.line then s0.badWords e.line (List.range 32) e.again
    else (e.read.words.filter (fun w => decide (a < e.line + 4 * w.1.val + 4) && decide (e.line + 4 * w.1.val < a + k))).foldl (fun u w =>
      if u.poisoned (e.line + 4 * w.1.val) then u
      else
        let v := u.meetWord (e.line + 4 * w.1.val) w.2.toNat e.again
        if t = 1 then v.rewrite e.line w e.read else v) s0

/-- The lines whose transfers meet an error in this aclk, of those that k bytes from a lie in. -/
def State.errsIn (s : State) (a k : Nat) : List LineErr :=
  s.lineErrs.filter (fun e => decide (a < e.line + 128) && decide (e.line < a + k))

/-- A read of k bytes from a local offset meets the errors that lie there: what the code corrects is delivered corrected and written
back, what it does not is poisoned (R209, R210); and what its transfers meet (R206, R207; log entry 166). -/
def State.meet (s : State) (a k : Nat) : State :=
  let t := (s.synd.filter (fun p => p.2 != 0x7F && decide (a < 4 * p.1 + 4) && decide (4 * p.1 < a + k))).foldl
    (fun t p => t.meetWord (4 * p.1) p.2.toNat false) s
  (s.errsIn a k).foldl (fun u e => u.lineMet e a k) t

/-- A write of k bytes at a local offset has been made: a T1 burst that failed its CRC, or its command's parity, after the retries is
written with poisoned check bits (R206, R210). -/
def State.wrote (s : State) (a k : Nat) : State :=
  (s.errsIn a k).foldl (fun t e => match place e.line with
    | some (1, n, o) => (burstsOf e.line a k).foldl (fun u i =>
        let f := (e.write.getD i 0).val
        let v := u.burstRun n (u.channel n 1 o) (decide (2 ≤ f))
        if f = 4 then v.poisonAt (e.line + 32 * i) [0, 4, 8, 12, 16, 20, 24, 28] else v) t
    | _ => t) s

end Sys2Proof.Machine
end

