-- ==== Sys2Proof/Machine/Operands.lean ====
section
/-! DEFINITION. Machine/Operands.lean: the tier map (R197, R198), how the units of a core read and write object space
(R159 to R161, R210, R322), and the operand formats of tensors (R65, R94). -/

namespace Sys2Proof.Machine

/-! ### The tier map -/

/-- A table of the tier map may lie at this local offset: in T0, 8 KiB aligned (R197). -/
def tableOk (s : State) (a : Nat) : Bool := decide (a < 0x400000000) && a % 8192 == 0 && s.backed a

/-- The next table that a root or directory entry names, none where the entry maps nothing (R197, R198). -/
def nextTable (s : State) (ea : Nat) : Option Nat :=
  let w := s.rdLE ea 8
  let nxt := 8192 * (bits w 63 13)
  if s.anyPoison ea 8 then none
  else if bit w 0 && zeroBits w 12 1 && zeroBits w 63 52 && tableOk s nxt then some nxt else none

/-- The local offset of the leaf entry of an object page; an address with a bit of [63:46] set is unmapped (R197). -/
def leafAddr (s : State) (ctx page : Nat) : Option Nat :=
  let root := s.ctxRd ctx 0x10 8
  if tableOk s root && decide (page < 2 ^ 30) then
    match nextTable s (root + 8 * bits page 29 20) with
    | none => none
    | some dir =>
      match nextTable s (dir + 8 * bits page 19 10) with
      | none => none
      | some leaf => some (leaf + 8 * bits page 9 0)
  else none

/-- Where a page lies. -/
inductive Loc where
  /-- frame base by local offset, tier -/
  | local_ (base tier : Nat)
  /-- Chart address of the page -/
  | chart (base : Nat)
deriving DecidableEq, Repr

/-- Where a leaf entry puts its page for a context, none where it counts as unmapped for the access (R198). -/
def entryLoc (s : State) (ctx ent : Nat) (write : Bool) : Option Loc :=
  let t := bits ent 2 1
  let base := 65536 * (bits ent 63 16)
  if !(bit ent 0) || !(zeroBits ent 15 7) || (write && !(bit ent 3)) then none
  else if t = 3 then some (.chart base)
  else if !(zeroBits ent 63 52) then none
  else match place base with
    | none => none
    | some (pt, n, o) =>
      if pt = t ∧ s.frameBacked n t (o / 65536) ∧ (t = 0 ∨ n = ctxPart ctx) then some (.local_ base t) else none

/-- The cached entry of a page in a core's translation cache (R198). -/
def cached (s : State) (c : CoreIx) (ctx page : Nat) : Option TEntry :=
  (s.core c).tcache.find? (fun e => e.ctx == ctx && e.page == page)

/-- The frame that the running segment of a core has placed at a leaf entry by STASH_PUT, as the entry it will be (R216). -/
def putLeaf (s : State) (c : CoreIx) (ctx leaf : Nat) : Option Nat :=
  match (s.core c).seg with
  | some g =>
    if g.ctx = ctx then (g.puts.find? (fun p => p.1 == leaf)).map (fun p => p.2.2 + 2 * p.2.1 + 73) else none
  | none => none

/-- A local offset lies in another partition's memory that a reset fences (R322). -/
def State.fencedOff (s : State) (n : PartIx) (a : Nat) : Bool :=
  match place a with
  | some (_, m, _) => decide (m ≠ n) && s.fenced m
  | none => false

/-- A core's access to local memory meets a fence (R322). -/
def fencedFor (s : State) (c : CoreIx) (a : Nat) : Bool := s.fencedOff (partOf c) a

/-- An access of a partition to fenced memory is recorded in its domain (R322). -/
def State.fenceNote (s : State) (n : PartIx) (a : Nat) : State :=
  s.raise { code := 0x09, domain := domPart n, addr := a, d0 := match place a with | some (_, m, _) => m.val | none => 0 }

/-- The first entry of a walk that lies in fenced memory: it is delivered as poisoned, so the page is unmapped (R198, R322). -/
def walkFence (s : State) (c : CoreIx) (ctx page : Nat) : Option Nat :=
  let root := s.ctxRd ctx 0x10 8 + 8 * bits page 29 20
  let dir := (nextTable s root).map (fun a => a + 8 * bits page 19 10)
  ([some root, dir, leafAddr s ctx page].filterMap id).find? (fun a => fencedFor s c a)

/-- FENCE_ACCESS in the domain of a core's partition (R322). -/
def State.fenceRecord (s : State) (c : CoreIx) (ctx a : Nat) : State :=
  s.raise { code := 0x09, domain := domPart (partOf c), ctx := some ctx, core := c.val, unit := 11, addr := a,
            d0 := match place a with | some (_, n, _) => n.val | none => 0 }

/-- The leaf entry a core finds for a page: its place and value, from the cache or by a walk (R198). -/
def findLeaf (s : State) (c : CoreIx) (ctx page : Nat) : Option (Nat × Nat) :=
  match cached s c ctx page with
  | some e => some (e.leaf, e.ent)
  | none =>
    match (if (walkFence s c ctx page).isSome then none else leafAddr s ctx page) with
    | none => none
    | some a =>
      match putLeaf s c ctx a with
      | some ent => some (a, ent)
      | none => if s.anyPoison a 8 then none else some (a, s.rdLE a 8)

/-- Where a core finds an object page. -/
def pageLoc (s : State) (c : CoreIx) (ctx page : Nat) (write : Bool) : Option Loc :=
  match findLeaf s c ctx page with
  | none => none
  | some (_, ent) => entryLoc s ctx ent write

/-- Translate one page for an access (R198): a miss that translates sets ACCESSED and caches the entry. None where the
page counts as unmapped. -/
def touchPage (s : State) (c : CoreIx) (ctx page : Nat) (write : Bool) : Option State :=
  match findLeaf s c ctx page with
  | none => none
  | some (a, ent) =>
    match entryLoc s ctx ent write with
    | none => none
    | some _ =>
      if (cached s c ctx page).isSome || (putLeaf s c ctx a).isSome then some s
      else
        let ent' := if bit ent 6 then ent else ent + 64
        let t := if bit ent 6 then s else s.wrLE a 8 ent'
        let e : TEntry := { ctx := ctx, page := page, leaf := a, ent := ent' }
        some (t.modCore c (fun k => { k with tcache := (k.tcache ++ [e]).drop (k.tcache.length + 1 - 2048) }))

/-- A walk reads the root, the directory and the leaf entry of a page, and meets the errors that lie in them (R198, R209, R210). -/
def State.walked (s : State) (c : CoreIx) (ctx page : Nat) : State :=
  if (cached s c ctx page).isSome then s
  else
    let root := s.ctxRd ctx 0x10 8 + 8 * bits page 29 20
    let dir := (nextTable s root).map (fun a => a + 8 * bits page 19 10)
    (([some root, dir, leafAddr s ctx page].filterMap id).filter (fun a => !(fencedFor s c a))).foldl (fun t a => t.meet a 8) s

/-- Translate k pages from `page` on (R198): the state after, or the first page found unmapped. -/
def touchPages (c : CoreIx) (ctx : Nat) (write : Bool) : Nat → Nat → State → State × Option Nat
  | 0, _, s => (s, none)
  | k + 1, page, s =>
    if page ≥ 2 ^ 30 then (s, some page)
    else
      let s := s.walked c ctx page
      match touchPage s c ctx page write with
      | none =>
        (match (if (cached s c ctx page).isSome then none else walkFence s c ctx page) with
        | some a => (s.fenceRecord c ctx a, some page)
        | none => (s, some page))
      | some t => touchPages c ctx write k (page + 1) t

/-- The pages that a byte range covers. -/
def pageCount (addr len : Nat) : Nat := if len = 0 then 0 else (addr % 65536 + len - 1) / 65536 + 1

/-- Translate every page of a byte range: the state after, or the address that is unmapped (R198). -/
def touch (s : State) (c : CoreIx) (ctx addr len : Nat) (write : Bool) : State × Option Nat :=
  match touchPages c ctx write (pageCount addr len) (addr / 65536) s with
  | (t, none) => (t, none)
  | (t, some p) => (t, some (max addr (65536 * p)))

/-- Drop every cached entry of a leaf, in every core: the device's own changes invalidate the caches (R199). -/
def State.dropLeaf (s : State) (leaf : Nat) : State :=
  forCores allCores (fun c t => t.modCore c (fun k => { k with tcache := k.tcache.filter (fun e => e.leaf != leaf) })) s

/-- Rewrite a leaf entry and invalidate it (R199). -/
def State.setLeaf (s : State) (leaf ent : Nat) : State := (s.wrLE leaf 8 ent).dropLeaf leaf

/-- A partition's agent writes a leaf entry; one in fenced memory stays as it is (R322). -/
def State.setLeafBy (s : State) (n : PartIx) (leaf ent : Nat) : State :=
  if s.fencedOff n leaf then s.fenceNote n leaf else s.setLeaf leaf ent

/-! ### Reading object space -/

/-- The running segment of a core. -/
def State.seg (s : State) (c : CoreIx) : Option Seg := (s.core c).seg
/-- Change the running segment of a core. -/
def State.modSeg (s : State) (c : CoreIx) (f : Seg → Seg) : State :=
  s.modCore c (fun k => { k with seg := k.seg.map f })

/-- The wet page that a segment holds for a dry frame. -/
def wetOf (s : State) (c : CoreIx) (dry : Nat) : Option WetPage :=
  match s.seg c with
  | some g => g.wet.find? (fun w => w.dry == dry)
  | none => none

/-- Bytes [off, off + len) of a local page as a segment sees them, and the offsets of poisoned words counted from off
(R161, R210, R322). -/
def pageRead (s : State) (c : CoreIx) (base off len : Nat) : List Byte × List Nat :=
  if fencedFor s c base then (List.replicate len 0, (List.range (ceilDiv len 4)).map (fun i => 4 * i))
  else
    match wetOf s c base with
    | none => (s.rdBytes (base + off) len, s.poisonIn (base + off) len)
    | some w =>
      let at_ := fun i => if w.filled.contains ((off + i) / 128) then w.wet + off + i else base + off + i
      ((List.range len).map (fun i => s.rd8 (at_ i)),
       (List.range (ceilDiv len 4)).filterMap (fun i => if s.poisoned (at_ (4 * i)) then some (4 * i) else none))

/-- A segment's read of a part of a local page meets the errors that lie there (R209, R210). -/
def State.meetPage (s : State) (c : CoreIx) (base off len : Nat) : State :=
  if fencedFor s c base || len == 0 then s
  else match wetOf s c base with
    | none => s.meet (base + off) len
    | some w => upTo ((off + len - 1) / 128 + 1 - off / 128) (fun i t =>
        let l := off / 128 + i
        let lo := max off (128 * l)
        t.meet ((if w.filled.contains l then w.wet else base) + lo) (min (off + len) (128 * l + 128) - lo)) s

/-- The data that has come for a byte range of a remote space, with the offsets of its poisoned words. -/
def remoteRead (s : State) (c : CoreIx) (space addr len : Nat) : List Byte × List Nat :=
  match s.seg c with
  | none => (List.replicate len 0, [])
  | some g =>
    let at_ := fun (i : Nat) => g.remote.reverse.find? (fun p => p.space == space && decide (p.addr ≤ addr + i)
      && decide (addr + i < p.addr + p.len))
    ((List.range len).map (fun i => match at_ i with
        | some p => (p.data.getD []).getD (addr + i - p.addr) 0
        | none => 0),
     (List.range (ceilDiv len 4)).filterMap (fun i => match at_ (4 * i) with
        | some p => if p.bad.contains ((addr + 4 * i - p.addr) / 4 * 4) then some (4 * i) else none
        | none => none))

/-- A read of object space by a segment, page by page: the bytes, and the offsets of poisoned words (R198, R210). -/
def objReadGo (s : State) (c : CoreIx) (ctx : Nat) : Nat → Nat → Nat → List Byte × List Nat
  | 0, _, _ => ([], [])
  | k + 1, addr, len =>
    let here := min len (65536 - addr % 65536)
    let piece := match pageLoc s c ctx (addr / 65536) false with
      | some (.local_ base _) => pageRead s c base (addr % 65536) here
      | some (.chart base) => remoteRead s c 1 (base + addr % 65536) here
      | none => (List.replicate here 0, [])
    let rest := objReadGo s c ctx k (addr + here) (len - here)
    (piece.1 ++ rest.1, piece.2 ++ rest.2.map (fun o => o + here))

/-- A read of object space by a segment. -/
def objRead (s : State) (c : CoreIx) (ctx addr len : Nat) : List Byte × List Nat :=
  objReadGo s c ctx (pageCount addr len) addr len

/-- A segment's read of object space meets the errors that lie there, page by page (R209, R210). -/
def meetObjGo (c : CoreIx) (ctx : Nat) : Nat → Nat → Nat → State → State
  | 0, _, _, s => s
  | k + 1, addr, len, s =>
    let here := min len (65536 - addr % 65536)
    meetObjGo c ctx k (addr + here) (len - here) (match pageLoc s c ctx (addr / 65536) false with
      | some (.local_ base _) => s.meetPage c base (addr % 65536) here
      | _ => s)

/-- A segment's read of object space meets the errors that lie there (R209, R210). -/
def State.meetObj (s : State) (c : CoreIx) (ctx addr len : Nat) : State := meetObjGo c ctx (pageCount addr len) addr len s

/-- A number read from object space. -/
def objLE (s : State) (c : CoreIx) (ctx addr k : Nat) : Nat := leNat (objRead s c ctx addr k).1

/-- Any read by a segment but an operand's or a COPY's meets poison here: the segment is killed (R210). -/
def objPoison (s : State) (c : CoreIx) (ctx addr len : Nat) : Bool := !(objRead s c ctx addr len).2.isEmpty

/-- The T3 ranges of a byte range: Chart address and length, page by page. -/
def chartRanges (s : State) (c : CoreIx) (ctx : Nat) : Nat → Nat → Nat → List (Nat × Nat)
  | 0, _, _ => []
  | k + 1, addr, len =>
    let here := min len (65536 - addr % 65536)
    let rest := chartRanges s c ctx k (addr + here) (len - here)
    match pageLoc s c ctx (addr / 65536) false with
    | some (.chart base) => (base + addr % 65536, here) :: rest
    | _ => rest

/-- The number of a remote read of a segment before it has a tag of R229: above every tag, and none of another segment of the core. -/
def pieceNo (gen idx : Nat) : Nat := 4294967296 * (gen + 1) + idx

/-- Cut a remote range into reads of at most 512 B that cross no 512 B boundary (R232, R277), 64 B aligned. -/
def cutRange : Nat → Nat → Nat → List (Nat × Nat)
  | 0, _, _ => []
  | k + 1, addr, len =>
    if len = 0 then []
    else
      let here := min len (512 - addr % 512)
      (addr, here) :: cutRange k (addr + here) (len - here)

/-- Add the remote reads that a command needs: each range in pieces, unsent (R171). -/
def State.needRemote (s : State) (c : CoreIx) (space work : Nat) (ranges : List (Nat × Nat)) : State :=
  let gen := s.get (SEQ.GEN.GEN c)
  let whole := ranges.map (fun r => (r.1 / 64 * 64, (r.1 + r.2 + 63) / 64 * 64 - r.1 / 64 * 64))
  let cuts := whole.flatMap (fun r => cutRange (r.2 / 512 + 2) r.1 r.2)
  s.modSeg c (fun g =>
    cuts.foldl (fun g r =>
      let p : Piece := { space := space, tag := pieceNo gen g.nextTag, addr := r.1, len := r.2, sent := false,
                         work := work }
      { g with remote := g.remote ++ [p], nextTag := g.nextTag + 1 }) g)

/-- Every remote read of a command has its data. -/
def remoteDone (s : State) (c : CoreIx) (work : Nat) : Bool :=
  match s.seg c with
  | some g => g.remote.all (fun p => p.work != work || p.data.isSome)
  | none => false

/-- A unit fetches object ranges as it runs: what of them lies in T3 is asked for now (R90, R171). -/
def State.fetchFar (s : State) (c : CoreIx) (ctx work : Nat) (ranges : List (Nat × Nat)) : State :=
  let far := ranges.flatMap (fun r => chartRanges s c ctx (pageCount r.1 r.2) r.1 r.2)
  if far.isEmpty then s else s.needRemote c 1 work far

/-- Nothing of the object ranges that lies in T3 is still to come. -/
def farHere (s : State) (c : CoreIx) (ctx work : Nat) (ranges : List (Nat × Nat)) : Bool :=
  let out : List Piece := match s.seg c with
    | some g => g.remote.filter (fun (p : Piece) => p.space == 1 && p.work == work && p.data.isNone)
    | none => []
  out.isEmpty || (ranges.flatMap (fun r => chartRanges s c ctx (pageCount r.1 r.2) r.1 r.2)).all (fun r =>
    out.all (fun p => !(decide (p.addr < r.1 + r.2) && decide (r.1 < p.addr + p.len))))

/-! ### Wet ink (R160 to R164) -/

/-- The outcome of a segment's claim on wet pages or queue space. -/
inductive Got where
  | ok (s : State)
  /-- the command holds; the state records the hold -/
  | wait (s : State)
  /-- the segment is to be killed: cause, detail of its record -/
  | kill (s : State) (cause detail : Nat)

/-- The segment of another core that holds a wet page for a dry frame: its core and the page (R162). -/
def wetOwner (s : State) (c : CoreIx) (dry : Nat) : Option CoreIx :=
  allCores.find? (fun d => decide (d ≠ c) && (wetOf s d dry).isSome)

/-- Take the first free page of the wet pool of tier t of a partition, by local offset / 64 KiB. -/
def State.popPool (s : State) (n : PartIx) (t : Nat) : Option (Nat × State) :=
  match (s.part n).poolFree.getD t [] with
  | [] => none
  | f :: r => some (f, s.modPart n (fun p => { p with poolFree := p.poolFree.set t r }))

/-- The field of WET.FREE_n for tier t. -/
def wetFree (n : PartIx) (t : Nat) : Field := if t = 0 then WET.FREE_n.T0 n else if t = 1 then WET.FREE_n.T1 n else WET.FREE_n.T2 n

/-- Bring WET.FREE_n in line with the free frames of tier t (R173). -/
def State.showFree (s : State) (n : PartIx) (t : Nat) : State :=
  s.put (wetFree n t) ((s.part n).poolFree.getD t []).length

/-- Give a page back to the wet pool of tier t. -/
def State.pushPool (s : State) (n : PartIx) (t f : Nat) : State :=
  (s.modPart n (fun p => { p with poolFree := p.poolFree.set t (p.poolFree.getD t [] ++ [f]) })).showFree n t

/-- A wet page of this dry frame is held back by a change that waits for latches (R136). -/
def heldBack (s : State) (dry : Nat) : Bool :=
  allParts.any (fun n => (s.part n).deferred.any (fun d => d.pages.any (fun w => w.dry == dry)))

/-- A segment runs: it can still be killed (R176). -/
def killable (s : State) (c : CoreIx) : Bool :=
  match s.seg c with
  | some g => (match g.lift with
    | some l => !l.flipped
    | none => true)
  | none => false

/-- The owner of a wet conflict has lifted or been killed (R162). -/
def ownerGone (s : State) (d gen : Nat) : Bool :=
  s.get (SEQ.GEN.GEN (toCore d)) != gen || (s.seg (toCore d)).isNone || !(killable s (toCore d))

/-- Take a wet page for a segment's first write or add to a local page (R161, R162, R164, R219). A conflict is met once: whether its owner is
itself held is asked then; afterwards the command holds until the owner lifts or is killed. -/
def takeWet (s : State) (c : CoreIx) (ctx page : Nat) : Got :=
  let n := partOf c
  match s.seg c, findLeaf s c ctx page with
  | some g, some (leaf, ent) =>
    match entryLoc s ctx ent true with
    | some (.local_ base t) =>
      if (wetOf s c base).isSome then .ok s
      else if fencedFor s c base then .ok s
      else if bit ent 5 || heldBack s base then .wait (s.modSeg c (fun g => { g with poolHold := true }))
      else match wetOwner s c base with
        | some d =>
          let gen := s.get (SEQ.GEN.GEN d)
          let fresh := !(g.heldBy.contains (d.val, gen, base))
          let s1 := if fresh then s.bump (WET.STATUS_n.CONFLICTS n) 1 else s
          let ownerHeld := match s.seg d with | some h => !h.heldBy.isEmpty | none => false
          if ownerHeld && fresh then .kill (s1.modCore c (fun k => { k with conflict := (ctx, d.val, gen) :: k.conflict })) 3 0
          else .wait ((s1.modSeg c (fun h => if fresh then { h with heldBy := h.heldBy ++ [(d.val, gen, base)] } else h)).put (SEQ.STATE.STATE c) 5)
        | none =>
          if min 4096 (bits (s.ctxRd ctx 0x2C 2) 12 0) ≤ g.wet.length then .kill s 9 0
          else match s.popPool n t with
            | none => .wait (s.modSeg c (fun g => { g with poolHold := true }))
            | some (f, s1) =>
              let w : WetPage := { dry := base, leaf := leaf, tier := t, wet := 65536 * f, filled := [] }
              let s2 := s1.modSeg c (fun g => { g with wet := g.wet ++ [w], heldBy := g.heldBy.filter (fun p => !(ownerGone s p.1 p.2.1)), poolHold := false })
              .ok ((s2.showFree n t).put (SEQ.INK.WET_PAGES c) (g.wet.length + 1))
    | _ => .ok s
  | _, _ => .ok s

/-- Take wet pages for k pages from `page` on. -/
def takeWets (c : CoreIx) (ctx : Nat) : Nat → Nat → State → Got
  | 0, _, s => .ok s
  | k + 1, page, s =>
    match takeWet s c ctx page with
    | .ok t => takeWets c ctx k (page + 1) t
    | r => r

/-- Take the wet pages of byte ranges: address, length. -/
def wetRanges (c : CoreIx) (ctx : Nat) : List (Nat × Nat) → State → Got
  | [], s => .ok s
  | (a, l) :: r, s =>
    match takeWets c ctx (pageCount a l) (a / 65536) s with
    | .ok t => wetRanges c ctx r t
    | q => q

/-- A line of a wet page takes the contents of its dry line; one that a fence withholds comes poisoned (R161, R322). -/
def State.dryLine (s : State) (n : PartIx) (w : WetPage) (line : Nat) : State :=
  let a := w.dry + 128 * line
  let b := w.wet + 128 * line
  match place a with
  | some (_, m, _) =>
    if m ≠ n ∧ s.fenced m then
      ((s.wrBytes b (List.replicate 128 0)).poisonAt b ((List.range 32).map (fun i => 4 * i))).fenceNote n a
    else
      let t := s.meet a 128
      ((t.wrBytes b (t.rdBytes a 128)).poisonAt b (t.poisonIn a 128)).wrote b 128
  | none => s

/-- Fill a line of a wet page from its dry page (R161). -/
def State.fillLine (s : State) (c : CoreIx) (w : WetPage) (line : Nat) : State :=
  let s1 := s.dryLine (partOf c) w line
  s1.modSeg c (fun g => { g with wet := g.wet.map (fun x => if x.dry = w.dry then { x with filled := x.filled ++ [line] } else x) })

/-- Make every line in [off, off + len) of a wet page filled but those of a list. -/
def State.fillPart (s : State) (c : CoreIx) (dry off len : Nat) (but : List Nat) : State :=
  let first := off / 128
  upTo ((off + len - 1) / 128 + 1 - first) (fun i t =>
    match wetOf t c dry with
    | some w => if w.filled.contains (first + i) || but.contains (first + i) then t else t.fillLine c w (first + i)
    | none => t) s

/-- Make every line in [off, off + len) of a wet page filled. -/
def State.fillLines (s : State) (c : CoreIx) (dry off len : Nat) : State := s.fillPart c dry off len []

/-- Lines of a wet page become filled without a read of the dry page: a write covers them whole (R161). -/
def State.markFilled (s : State) (c : CoreIx) (dry : Nat) (ls : List Nat) : State :=
  s.modSeg c (fun g => { g with wet := g.wet.map (fun x =>
    if x.dry = dry then { x with filled := x.filled ++ ls.filter (fun l => !x.filled.contains l) } else x) })

/-- Lines of a page that [off, off + len) covers whole. -/
def wholeLines (off len : Nat) : List Nat := (linesIn off len).filter (fun l => decide (off ≤ 128 * l) && decide (128 * l + 128 ≤ off + len))

/-- The lines of local pages that a byte range of object space covers whole become filled. -/
def coverGo (c : CoreIx) (ctx : Nat) : Nat → Nat → Nat → State → State
  | 0, _, _, s => s
  | k + 1, addr, len, s =>
    let here := min len (65536 - addr % 65536)
    coverGo c ctx k (addr + here) (len - here) (match pageLoc s c ctx (addr / 65536) true with
      | some (.local_ base _) => s.markFilled c base (wholeLines (addr % 65536) here)
      | _ => s)
def State.coverLines (s : State) (c : CoreIx) (ctx addr len : Nat) : State := coverGo c ctx (pageCount addr len) addr len s

/-- Store bytes of one page as wet ink: a line covered whole is filled by them, any other reads its dry line first; a store to fenced
memory is discarded (R161, R322). -/
def State.wetPageStore (s : State) (c : CoreIx) (base off : Nat) (bs : List Byte) : State :=
  match wetOf s c base with
  | some w =>
    let whole := wholeLines off bs.length
    (((s.fillPart c base off bs.length whole).markFilled c base whole).wrBytes (w.wet + off) bs).wrote (w.wet + off) bs.length
  | none =>
    if fencedFor s c base then
      s.raise { code := 0x09, domain := domPart (partOf c), addr := base + off,
                d0 := match place base with | some (_, n, _) => n.val | none => 0 }
    else s

/-! ### Writes from outside a segment (R163, R219) -/

/-- Some of k bytes from a local offset lie in a line of wet ink that the segment of a core has written (R163). -/
def wroteWet (s : State) (c : CoreIx) (a k : Nat) : Bool :=
  match s.seg c with
  | some g => g.wet.any (fun w => w.filled.any (fun l => decide (a < w.dry + 128 * l + 128) && decide (w.dry + 128 * l < a + k)))
  | none => false

/-- An incoming write to lines that a segment has written counts once for it, however many lines it loses (R163). -/
def State.clobbered (s : State) (a k : Nat) : State :=
  forCores allCores (fun c t => if wroteWet t c a k then t.bump (WET.STATUS_n.CLOBBERED (partOf c)) 1 else t) s

/-- Within one page: carry the write to held-back pages, and mark its lines in a migration's map (R218). -/
def State.afterExtPage (s : State) (base off len : Nat) : State :=
  let ls := linesIn off len
  let s2 := forParts allParts (fun n t => (t.part n).deferred.foldl (fun u d => d.pages.foldl (fun v w =>
      if w.dry = base then
        ls.foldl (fun x l => if w.filled.contains l then x
          else (x.wrBytes (w.wet + 128 * l) (x.rdBytes (base + 128 * l) 128)).poisonAt (w.wet + 128 * l)
            (x.poisonIn (base + 128 * l) 128)) v
      else v) u) t) s
  s2.migDirty base ls

/-- The consequences of a write of k bytes at a local offset that no segment made (R163, R210, R218). -/
def State.afterExt (s : State) (a k : Nat) : State :=
  let first := min k (65536 - a % 65536)
  let s1 := ((s.wrote a k).clobbered a k).afterExtPage (65536 * (a / 65536)) (a % 65536) first
  if first < k then s1.afterExtPage (65536 * (a / 65536 + 1)) 0 (k - first) else s1

/-- A write by the Chart, the Ferrule link or a collective to local memory, `bad` its poisoned words (R163). -/
def State.extWrite (s : State) (a : Nat) (bs : List Byte) (bad : List Nat) : State :=
  ((s.wrBytes a bs).poisonAt a bad).afterExt a bs.length

/-- Adds of binary32 words by the bank-side adders, likewise (R101, R163, R205). -/
def State.extAdd (s : State) (a : Nat) (words : List Nat) : State :=
  ((List.range words.length).foldl (fun t i =>
    let w := a + 4 * i
    let bad := t.poisoned w
    let u := t.wrLE w 4 (addCode (t.rdLE w 4) (words.getD i 0))
    if bad then u.poison w else u) (s.meet a (4 * words.length))).afterExt a (4 * words.length)

/-- Free outbound queue space in bytes (R164, R165). -/
def State.outqFree (s : State) (n : PartIx) : Nat :=
  if (s.part n).outqOk then
    65536 * (s.inForce (WET.OUTQ_n.PAGES n)) - ((s.part n).outq.map (fun e => e.charge)).sum
  else 0

/-- Bring WET.FREE_n.OUTQ in line (R173). -/
def State.showOutq (s : State) (n : PartIx) : State := s.put (WET.FREE_n.OUTQ n) (s.outqFree n / 65536)

/-- Queue an operation of a segment in its partition's outbound queue; `seq` is the number of its command (R164, R165). SEQ.INK.OUTQ_KIB
shows the bytes charged in whole KiB, rounded up (R172; log entry 174). -/
def State.enqueue (s : State) (c : CoreIx) (ctx charge : Nat) (k : OutKind) (seq : Nat) : State :=
  let n := partOf c
  let s1 := s.modPart n (fun p =>
    { p with outq := p.outq ++ [{ id := p.outqNext, core := c.val, ctx := ctx, charge := charge, kind := k, seq := seq }],
             outqNext := p.outqNext + 1 })
  let s2 := s1.modSeg c (fun g => { g with outq := g.outq + charge })
  let s3 := s2.showOutq n
  match s2.seg c with
  | some g => s3.put (SEQ.INK.OUTQ_KIB c) (min 65535 (ceilDiv g.outq 1024))
  | none => s3

/-- A unit writes the output of command w. -/
def State.writes (s : State) (c : CoreIx) (w : Nat) : State := s.modSeg c (fun g => { g with writing := w })
/-- The command whose output a unit writes. -/
def writingOf (s : State) (c : CoreIx) : Nat := match s.seg c with | some g => g.writing | none => 0

/-- Bytes whose words at some offsets go out with values that the manual does not state: poisoned words of a WR_NC, which marks no poison
(R210, R277; log entry 43), and words of a T3 line that its unit does not write (R232; log entry 144). -/
def State.freeWords (s : State) (bs : List Byte) (bad : List Nat) : List Byte × State :=
  bad.foldl (fun a o => ((splice a.1 o (toLE 4 a.2.draw.1.toNat)).take bs.length, a.2.draw.2)) (bs, s)

/-- The 64 B lines of a byte range: line address, offset within the line, offset within the range, bytes. -/
def lineCuts (a len : Nat) : List (Nat × Nat × Nat × Nat) :=
  (List.range ((a + len + 63) / 64 - a / 64)).map (fun i =>
    let la := 64 * (a / 64 + i)
    let lo := max a la
    (la, lo - la, lo - a, min (a + len) (la + 64) - lo))

/-- A wet entry of the command that a unit of this core is writing (R165). -/
def OutEntry.mine (e : OutEntry) (c : CoreIx) (seq : Nat) : Bool := e.core == c.val && decide (e.state = .wet) && e.seq == seq

/-- An entry grows by a line at its end, and is charged for it (R164). -/
def State.growEntry (s : State) (c : CoreIx) (id : Nat) (k : OutKind) : State :=
  let n := partOf c
  let s1 := s.modPart n (fun p => { p with outq := p.outq.map (fun e => if e.id = id then { e with kind := k, charge := e.charge + 64 } else e) })
  let s2 := (s1.modSeg c (fun g => { g with outq := g.outq + 64 })).showOutq n
  match s2.seg c with
  | some g => s2.put (SEQ.INK.OUTQ_KIB c) (min 65535 (ceilDiv g.outq 1024))
  | none => s2

/-- An entry carries other data. -/
def State.setEntry (s : State) (c : CoreIx) (id : Nat) (k : OutKind) : State :=
  s.modPart (partOf c) (fun p => { p with outq := p.outq.map (fun e => if e.id = id then { e with kind := k } else e) })

/-- One line of a write to T3: into the entry of the same command that covers it, onto the one that ends where it begins within the same
512 B, or as an entry of its own (R165, R232; log entry 144). -/
def State.chartLine (s : State) (c : CoreIx) (ctx la o : Nat) (bs : List Byte) (bad : List Nat) : State :=
  let seq := writingOf s c
  let q := (s.part (partOf c)).outq.filter (fun e => e.mine c seq)
  let there := q.findSome? (fun e => match e.kind with
    | .chartWrite a d old => if a ≤ la ∧ la < a + d.length then some (e.id, a, d, old) else none
    | _ => none)
  match there with
  | some (id, a, d, old) =>
    let off := la - a + o
    let kept := old.filter (fun x => decide (x + 4 ≤ off) || decide (off + bs.length ≤ x))
    s.setEntry c id (.chartWrite a (splice d off bs) (kept ++ bad.map (fun x => off + x)))
  | none =>
    let gap := (List.range 16).filterMap (fun w => if o ≤ 4 * w ∧ 4 * w + 4 ≤ o + bs.length then none else some (4 * w))
    let (free, t) := s.freeWords (List.replicate 64 0) gap
    let line := splice free o bs
    let here := bad.map (fun x => o + x)
    let before := q.findSome? (fun e => match e.kind with
      | .chartWrite a d old => if a + d.length = la ∧ a / 512 = la / 512 then some (e.id, a, d, old) else none
      | _ => none)
    match before with
    | some (id, a, d, old) => t.growEntry c id (.chartWrite a (d ++ line) (old ++ here.map (fun x => d.length + x)))
    | none => t.enqueue c ctx 128 (.chartWrite la line here) seq

/-- A write to T3, line by line. -/
def State.chartStore (s : State) (c : CoreIx) (ctx a : Nat) (bs : List Byte) (bad : List Nat) : State :=
  (lineCuts a bs.length).foldl (fun t l =>
    t.chartLine c ctx l.1 l.2.1 (slice bs l.2.2.1 l.2.2.2)
      (bad.filterMap (fun x => if l.2.2.1 ≤ x ∧ x < l.2.2.1 + l.2.2.2 then some (x - l.2.2.1) else none))) s

/-- −0, which changes nothing that it is added to (R98). -/
def minusZero : Nat := 0x80000000

/-- An add of one word to T3: in the place of a −0 of the same command's entries, onto the one that ends where its line begins within the
same 512 B, or as an entry of its own; words of a line that nothing is added to carry −0 (R101, R165, R232; log entry 144). -/
def State.chartAddWord (s : State) (c : CoreIx) (ctx a code : Nat) : State :=
  let seq := writingOf s c
  let la := a / 64 * 64
  let w := a % 64 / 4
  let q := (s.part (partOf c)).outq.filter (fun e => e.mine c seq)
  let there := q.findSome? (fun e => match e.kind with
    | .chartAdd b ws =>
      if b ≤ a ∧ a < b + 4 * ws.length ∧ ws.getD ((a - b) / 4) 0 = minusZero then some (e.id, b, ws) else none
    | _ => none)
  match there with
  | some (id, b, ws) => s.setEntry c id (.chartAdd b (ws.set ((a - b) / 4) code))
  | none =>
    let line := (List.replicate 16 minusZero).set w code
    let before := q.findSome? (fun e => match e.kind with
      | .chartAdd b ws => if b + 4 * ws.length = la ∧ b / 512 = la / 512 then some (e.id, b, ws) else none
      | _ => none)
    match before with
    | some (id, b, ws) => s.growEntry c id (.chartAdd b (ws ++ line))
    | none => s.enqueue c ctx 128 (.chartAdd la line) seq

/-- Store bytes to object space as wet ink, page by page (R160); `bad` are the offsets of words written poisoned (R210). -/
def objStoreGo (c : CoreIx) (ctx : Nat) : Nat → Nat → List Byte → List Nat → State → State
  | 0, _, _, _, s => s
  | k + 1, addr, bs, bad, s =>
    let here := min bs.length (65536 - addr % 65536)
    let now := bs.take here
    let nowBad := bad.filter (fun o => decide (o < here))
    let t := match pageLoc s c ctx (addr / 65536) true with
      | some (.local_ base _) =>
        let u := s.wetPageStore c base (addr % 65536) now
        match wetOf u c base with
        | some w => u.poisonAt (w.wet + addr % 65536) nowBad
        | none => u
      | some (.chart base) => s.chartStore c ctx (base + addr % 65536) now nowBad
      | none => s
    objStoreGo c ctx k (addr + here) (bs.drop here)
      (bad.filterMap (fun o => if here ≤ o then some (o - here) else none)) t

/-- Store bytes to object space as wet ink, the words at some offsets poisoned (R210). -/
def State.objStoreBad (s : State) (c : CoreIx) (ctx addr : Nat) (bs : List Byte) (bad : List Nat) : State :=
  objStoreGo c ctx (pageCount addr bs.length) addr bs bad s

/-- Store bytes to object space as wet ink. -/
def State.objStore (s : State) (c : CoreIx) (ctx addr : Nat) (bs : List Byte) : State := s.objStoreBad c ctx addr bs []

/-- Where an object address lies in fenced memory of another partition: local offset and partition (R322). -/
def fencedWord (s : State) (c : CoreIx) (ctx a : Nat) : Option (Nat × Nat) :=
  match pageLoc s c ctx (a / 65536) false with
  | some (.local_ base _) =>
    if fencedFor s c base then (place base).map (fun p => (base + a % 65536, p.2.1.val)) else none
  | _ => none

/-- A unit reads byte ranges: errors that lie there are met, and each poisoned word that it consumes writes one record (R209, R210): `consumer` as R320 numbers it; a word of
fenced memory writes FENCE_ACCESS in its place (R322). -/
def State.consume (s : State) (c : CoreIx) (ctx unit consumer : Nat) (cmd : List Byte) (rs : List (Nat × Nat)) : State :=
  rs.foldl (fun t r =>
    (objRead s c ctx r.1 r.2).2.foldl (fun u o =>
      let rec_ : ErrRecord := { code := 3, domain := domPart (partOf c), ctx := some ctx, core := c.val, unit := unit,
                                cmdId := fieldAt cmd 6 2, opcode := fieldAt cmd 0 1, addr := r.1 + o, d0 := consumer }
      match fencedWord s c ctx (r.1 + o) with
      | some (l, n) => u.raise { rec_ with code := 9, addr := l, d0 := n }
      | none => u.raise rec_) (t.meetObj c ctx r.1 r.2)) s

/-- Send one binary32 contribution to the bank-side adder of an object word, as wet ink (R101, R160); an add to a poisoned
word leaves it poisoned (R205), and one to T3 is queued. -/
def State.objAdd (s : State) (c : CoreIx) (ctx addr code : Nat) : State :=
  match pageLoc s c ctx (addr / 65536) true with
  | some (.local_ base _) =>
    match wetOf s c base with
    | some w =>
      let off := addr % 65536
      let t := (s.fillLines c base off 4).meet (w.wet + off) 4
      let bad := t.poisoned (w.wet + off)
      let u := (t.wrLE (w.wet + off) 4 (addCode (t.rdLE (w.wet + off) 4) code)).wrote (w.wet + off) 4
      if bad then u.poison (w.wet + off) else u
    | none => s.wetPageStore c base (addr % 65536) (toLE 4 code)
  | some (.chart base) => s.chartAddWord c ctx (base + addr % 65536) code
  | none => s

/-! ### Tensors (R65, R94, R104) -/

/-- The code of element i of a stored row at `addr` (R94). -/
def elemCode (row : List Byte) (fmt i : Nat) : Nat :=
  if fmt = 6 then (if i % 2 = 0 then fieldAt row (i / 2) 1 % 16 else fieldAt row (i / 2) 1 / 16)
  else fieldAt row (i * (fmtBits fmt / 8)) (fmtBits fmt / 8)

/-- Whether element i of a row lies in a poisoned word at offsets `bad` (R210). -/
def elemBad (bad : List Nat) (fmt i : Nat) : Bool := bad.contains (i * fmtBits fmt / 8 / 4 * 4)

/-- Bytes of a stored row of k elements. -/
def rowBytes (fmt k : Nat) : Nat := ceilDiv (k * fmtBits fmt) 8

/-- The values of k elements of a row that is not in an MX format, poisoned words taken as NaN (R92, R210). -/
def rowValues (s : State) (c : CoreIx) (ctx addr fmt k : Nat) : List Num :=
  let (bs, bad) := objRead s c ctx addr (rowBytes fmt k)
  (List.range k).map (fun i => if elemBad bad fmt i then .nan else decodeFmt (fmtOf fmt) (elemCode bs fmt i))

/-- An aggregate of values and codes written: bytes of a row from its element codes (R94). -/
def codesBytes (fmt : Nat) (codes : List Nat) : List Byte :=
  if fmt = 6 then
    (List.range (ceilDiv codes.length 2)).map (fun i =>
      BitVec.ofNat 8 (codes.getD (2 * i) 0 % 16 + 16 * (codes.getD (2 * i + 1) 0 % 16)))
  else codes.flatMap (fun w => toLE (fmtBits fmt / 8) w)

/-- The exponent of an entry as a segment uses it: latched at the segment's first access (R106). -/
def State.latchExp (s : State) (c : CoreIx) (i fmt : Nat) : Int × State :=
  if i = 0 then (0, s)
  else match s.seg c with
    | none => (0, s)
    | some g =>
      match g.expLatch.find? (fun p => p.1 == i) with
      | some (_, e) => (if isMx fmt then 0 else e, s)
      | none =>
        let e := s.entryExp (partOf c) i 0
        (if isMx fmt then 0 else e, s.modSeg c (fun g => { g with expLatch := g.expLatch ++ [(i, e)] }))

/-- Record captures of a write by the segment of a core (R107). -/
def State.capture (s : State) (c : CoreIx) (entry amax : Nat) (rs : List Report) : State :=
  s.modSeg c (fun g => { g with captures := captureIn g.captures entry amax rs })

/-- Write k true values as one row of a plain format at `addr`: output exponent e, entry captured (R95, R107). -/
def State.writeRow (s : State) (c : CoreIx) (ctx addr fmt : Nat) (e : Int) (entry : Nat) (vs : List Num) : State :=
  let out := vs.map (fun v => roundFmt (fmtOf fmt) (v.scale e))
  (s.objStore c ctx addr (codesBytes fmt (out.map Prod.fst))).capture c entry (amaxCode vs) (out.map Prod.snd)

end Sys2Proof.Machine
end

