-- ==== Sys2Proof/Machine/Segment.lean ====
section
/-! DEFINITION. Machine/Segment.lean: how a segment issues commands, completes them and is killed (R145 to R149, R156, R169
to R177), with the frame stacks of tenants (R214 to R216) and the semaphore object (R166, R167). -/

namespace Sys2Proof.Machine

/-! ### Frame stacks (R214, R215) -/

/-- The local offset of the quota fields of a tenant in tier t. -/
def State.quotaAddr (s : State) (n : PartIx) (tenant t : Nat) : Nat :=
  velBase n + 64 * s.inForce (MEM.QTA_BASE_n.BASE n) + 64 * tenant + 16 * t

/-- Frames in a tenant's stack. -/
def State.stackCount (s : State) (n : PartIx) (tenant t : Nat) : Nat := s.rdLE (s.quotaAddr n tenant t + 0xC) 4

/-- Push a frame on a tenant's stack. -/
def State.pushFrame (s : State) (n : PartIx) (tenant t f : Nat) : State :=
  let q := s.quotaAddr n tenant t
  let k := s.rdLE (q + 0xC) 4
  (s.wrLE (velBase n + s.rdLE (q + 8) 4 + 4 * k) 4 f).wrLE (q + 0xC) 4 (k + 1)

/-- Pop the top frame of a tenant's stack, none where it is empty. -/
def State.popFrame (s : State) (n : PartIx) (tenant t : Nat) : Option (Nat × State) :=
  let q := s.quotaAddr n tenant t
  let k := s.rdLE (q + 0xC) 4
  if k = 0 then none
  else
    let a := velBase n + s.rdLE (q + 8) 4 + 4 * (k - 1)
    some (s.rdLE a 4, (s.meet a 4).wrLE (q + 0xC) 4 (k - 1))

/-- Count a pop refused on an empty stack (R214). -/
def State.popFail (s : State) (n : PartIx) (tenant : Nat) : State :=
  let q := s.quotaAddr n tenant 0 + 0x30
  s.wrLE q 4 (s.rdLE q 4 + 1)

/-- Pop k frames, none where the stack holds fewer. -/
def popFrames (n : PartIx) (tenant t : Nat) : Nat → State → Option (List Nat × State)
  | 0, s => some ([], s)
  | k + 1, s =>
    match s.popFrame n tenant t with
    | none => none
    | some (f, u) =>
      match popFrames n tenant t k u with
      | none => none
      | some (l, v) => some (f :: l, v)

/-- The frame number of a frame base within its window. -/
def frameNo (base : Nat) : Nat :=
  match place base with
  | some (_, _, o) => o / 65536
  | none => 0

/-! ### Semaphores (R166, R167) -/

/-- The state of a lease (R167). -/
inductive Lease where
  | free | live | expired
deriving DecidableEq, Repr

/-- HELD of the semaphore at a local offset. -/
def semHeld (s : State) (a : Nat) : Bool := bit (s.rdLE (a + 4) 4) 31
/-- HOLDER_CTX. -/
def semCtx (s : State) (a : Nat) : Nat := bits (s.rdLE (a + 4) 4) 13 0
/-- HOLDER_MOD. -/
def semMod (s : State) (a : Nat) : Nat := bits (s.rdLE (a + 4) 4) 25 14
/-- The lease of a semaphore now (R166). -/
def leaseOf (s : State) (a : Nat) : Lease :=
  if !semHeld s a then .free else if s.time < s.rdLE (a + 8) 8 then .live else .expired
/-- Whether the holder is this context of this module. -/
def heldByCtx (s : State) (a m k : Nat) : Bool := semHeld s a && semMod s a == m && semCtx s a == k
/-- Release: HELD := 0. -/
def State.semFree (s : State) (a : Nat) : State := (s.wrBits (a + 4) 4 31 31 0).afterExt (a + 4) 4
/-- VALUE := VALUE + DELTA. -/
def State.semAddTo (s : State) (a delta : Nat) : State := (s.wrLE a 4 (s.rdLE a 4 + delta)).afterExt a 4
/-- Record a lease: holder and LEASE_END. -/
def State.semTake (s : State) (a m k until_ : Nat) : State :=
  ((s.wrLE (a + 4) 4 (k % 16384 + 16384 * (m % 4096) + 2147483648)).wrLE (a + 8) 8 until_).afterExt (a + 4) 12

/-- What an acquisition by context k of module m finds (R167): the new state, whether it is granted anew (to be marked), whether it
took an expired lease; none where it holds. -/
def semAcquireAt (s : State) (a m k lease : Nat) : Option (State × Bool × Bool) :=
  match leaseOf s a with
  | .free => some (s.semTake a m k (s.time + lease), true, false)
  | .expired => some (s.semTake a m k (s.time + lease), true, true)
  | .live =>
    if heldByCtx s a m k then some ((s.wrLE (a + 8) 8 (max (s.rdLE (a + 8) 8) (s.time + lease))).afterExt (a + 8) 8, false, false)
    else none

/-- The module number (R261). -/
def State.selfModule (s : State) : Nat := s.get CHT.SELF.MODULE

/-! ### Heartbeats and contexts -/

/-- SEQ.HEARTBEAT.COUNT rises by 1 (R172). -/
def State.beat (s : State) (c : CoreIx) : State :=
  (s.bump (SEQ.HEARTBEAT.COUNT c) 1).put (SEQ.PROGRESS_TIME.ACLK c) s.time

/-- Set SEQ.STATE.STATE. -/
def State.seqState (s : State) (c : CoreIx) (v : Nat) : State := s.put (SEQ.STATE.STATE c) v

/-- Deliver HALTED with a cause and halt a context (R176). -/
def State.haltCtx (s : State) (k cause : Nat) : State := (s.ctxSetState k 4).event k 6 cause

/-- The next state of an action's RUNNING row (R176): PREEMPT READY, PREEMPT_HOLD HELD, DISABLE FREE, HALT HALTED. -/
def actionState (a : Nat) : Nat := if a = 2 then 0 else if a = 4 then 3 else if a = 6 then 4 else 1

/-- The stronger of two actions (R177): HALT, DISABLE, PREEMPT_HOLD, PREEMPT. -/
def strongerAction (a b : Nat) : Nat :=
  let rank := fun (x : Nat) => if x = 6 then 4 else if x = 2 then 3 else if x = 4 then 2 else 1
  if rank a < rank b then b else a

/-! ### The units drop their work (R89, R169) -/

/-- The idle-cause counter of an engine (R189). -/
def State.idleAdd (s : State) (c : CoreIx) (e cause k : Nat) : State :=
  let f := IDL.COUNT_i_k.ACLK c e cause
  ((s.keepOld f).bump f k).note f (Sparse.get s.noted f.key 0 + k)

/-- Aclk of an idle cause are taken back (R177). -/
def State.idleBack (s : State) (c : CoreIx) (e cause k : Nat) : State :=
  let f := IDL.COUNT_i_k.ACLK c e cause
  (s.drop f k).note f (Sparse.get s.noted f.key 0 - k)

/-- An engine drops its work: no pass, no plane, no store; 16 open slots later it accepts a dispatch (R89). -/
def State.dropEngine (s : State) (c : CoreIx) (e : EngIx) : State :=
  let busy := ((s.core c).engs[e]).run.isSome
  let s1 := s.modCore c (fun k =>
    { k with engs := k.engs.set e { ready := if busy then s.slot (partOf c) + 16 else (k.engs[e]).ready } })
  ((((s1.put (ENG.STATE_i.BUSY c e) 0).put (ENG.STATE_i.PLANE0_FULL c e) 0).put (ENG.STATE_i.PLANE1_FULL c e) 0).put
    (ENG.STATE_i.PASS c e) 0)

/-- Every engine of a core drops its work. -/
def State.dropEngines (s : State) (c : CoreIx) : State := upTo 8 (fun e t => t.dropEngine c (toEng e)) s

/-- The row engine, the update unit, the mover and the collective engine drop their work (R169). -/
def State.dropUnits (s : State) (c : CoreIx) : State :=
  s.modCore c (fun k => { k with rowEng := none, upd := none, mover := [], coll := none })

/-- Marginalia record i of a core goes to VALID = 0: it is not listed (R123, R124). -/
def margErase (l : List Nat) (m : Sparse MargRec) : Sparse MargRec := l.foldl (fun m i => Sparse.erase m i) m

/-- Outbound entries that the segment of a core has queued and not released are discarded (R169). -/
def State.dropQueue (s : State) (c : CoreIx) : State :=
  s.modPart (partOf c) (fun p =>
    let rest := p.outq.filter (fun e => !(e.core == c.val && decide (e.state = .wet)))
    { p with outq := rest, failChart := p.failChart && !rest.isEmpty, failFrl := p.failFrl && !rest.isEmpty })

/-- Claim queue space for a charge (R164). -/
def queueRoom (s : State) (c : CoreIx) (ctx charge : Nat) : Got :=
  match s.seg c with
  | none => .ok s
  | some g =>
    if charge = 0 then .ok s
    else if 1024 * (s.ctxRd ctx 0x2E 2) < g.outq + charge then .kill s 9 1
    else if s.outqFree (partOf c) < charge then .wait (s.modSeg c (fun h => { h with queueHold := true }))
    else .ok s

/-- Claim the wet pages and the queue space that writes to byte ranges need (R161, R164). -/
def claimRanges (c : CoreIx) (ctx : Nat) (rs : List (Nat × Nat)) (s : State) : Got :=
  match wetRanges c ctx rs s with
  | .ok t =>
    let far := rs.flatMap (fun r => chartRanges t c ctx (pageCount r.1 r.2) r.1 r.2)
    let cuts := far.flatMap (fun r => cutRange (r.2 / 512 + 2) r.1 r.2)
    queueRoom t c ctx ((cuts.map (fun r => 64 * (lineCuts r.1 r.2).length + 64)).sum)
  | r => r

/-- Acquisitions marked to a segment are released at its kill (R167, R168). -/
def State.dropMarked (s : State) (c : CoreIx) (g : Seg) : State :=
  g.marked.foldl (fun t m =>
    if m.2 then { t with cancels := t.cancels ++ [(c.val, g.ctx, m.1)] }
    else if fencedFor t c m.1 then t.fenceRecord c g.ctx m.1
    else if leaseOf t m.1 = .live ∧ heldByCtx t m.1 t.selfModule g.ctx then t.semFree m.1 else t) s

/-- A request is a segment's own: a read or a semaphore round trip of this core. -/
def ReqKind.ofCore (c : CoreIx) : ReqKind → Bool
  | .read d => d == c.val
  | .sem d => d == c.val
  | _ => false

/-- A segment's requests are forgotten, those to the companion that have not left among them, and give their Chart credits back
(R169 step 5, R240, R242). -/
def State.dropRemote (s : State) (c : CoreIx) (_ : Seg) : State :=
  let mine := s.chart.reqs.filter (fun r => r.kind.ofCore c)
  let f := CHT.CREDITS_n.REQ_FREE (partOf c)
  let unsent := fun (r : FReq) => !r.out && (match r.kind with | .rdNc d _ => d == c.val | _ => false)
  (State.setAside { s with
    chart := { s.chart with reqs := s.chart.reqs.filter (fun r => !r.kind.ofCore c) }
    ferrule := { s.ferrule with reqs := s.ferrule.reqs.filter (fun r => !unsent r) } } (mine.map (fun r => r.pkt.tag.toNat))).put f
    (min 2048 (s.get f + mine.length))

/-- Put a collective's record in place; the oldest of 64 is reused (R256). -/
def State.putRec (s : State) (r : CollRec) : State :=
  let rest := s.chart.recs.filter (fun x => x.id != r.id)
  let l := rest ++ [r]
  { s with chart := { s.chart with recs := l.drop (l.length - 64) } }

/-- Bring COL.STATUS.ACTIVE in line (R259). -/
def State.showColl (s : State) : State := s.put COL.STATUS.ACTIVE s.chart.runs.length

/-- A killed segment's collective ends (R256 rule 4): before FINAL, the next attempt is recorded and ABORTs are to be sent. -/
def State.dropColl (s : State) (c : CoreIx) : State :=
  match s.chart.runs.find? (fun r => r.core == c.val) with
  | none => s
  | some r =>
    let s1 := { s with chart := { s.chart with runs := s.chart.runs.filter (fun x => x.core != c.val) } }
    if r.fin then s1.showColl
    else
      let a := (r.attempt + 1) % 65536
      let s2 := s1.putRec { id := r.id, attempt := a, next := some r.next, prev := some r.prev }
      let n := (partOf c).val
      (({ s2 with chart := { s2.chart with aborts := s2.chart.aborts ++ [(r.id, a, r.next, n), (r.id, a, r.prev, n)] } }).bump
        COL.STATUS.ABORTS 1).showColl

/-- Steps 1 to 5 of R169: everything the segment of a core did goes, and SEQ.GEN rises. -/
def State.wipeSeg (s : State) (c : CoreIx) (g : Seg) : State :=
  let n := partOf c
  let s1 := (((s.dropEngines c).dropUnits c).dropColl c).dropQueue c
  let s2 := g.wet.foldl (fun t w => t.pushPool n w.tier (w.wet / 65536)) s1
  let s3 := g.puts.foldl (fun t p => t.pushFrame n (t.ctxTenant g.ctx) p.2.1 (frameNo p.2.2)) s2
  let s4 := (s3.dropMarked c g).dropRemote c g
  let s5 := s4.modCore c (fun k => { k with seg := none, ctx := none, marg := margErase g.margs k.marg, stepWork := none, bpPass := false })
  ((((s5.bump (SEQ.GEN.GEN c) 1).put (SEQ.INK.WET_PAGES c) 0).put (SEQ.INK.OUTQ_KIB c) 0).put (DBG.CORE_c.STEPPING c) 0).showOutq n

/-- The local offset of the stash control block's byte at `off`, through a context's tier map. -/
def stashAddr (s : State) (c : CoreIx) (k off : Nat) : Option Nat :=
  let a := s.ctxRd k 0x18 8 + off
  match pageLoc s c k (a / 65536) false with
  | some (.local_ base _) => some (base + a % 65536)
  | _ => none

/-- The Chart address of the stash control block's byte at `off`, where its page lies in T3 (R127, R196). -/
def stashFar (s : State) (c : CoreIx) (k off : Nat) : Option Nat :=
  let a := s.ctxRd k 0x18 8 + off
  match pageLoc s c k (a / 65536) false with
  | some (.chart base) => some (base + a % 65536)
  | _ => none

/-- A byte of a stash control block in T3 as it is dry. -/
def Seg.farDry (g : Seg) (a : Nat) : Byte :=
  (g.farBlock.findSome? (fun p => if p.1 ≤ a then p.2[a - p.1]? else none)).getD 0
/-- The key of a segment's change to such a byte; those of local bytes lie below. -/
def farKey (a : Nat) : Nat := 2 ^ 64 + a
/-- Such a byte as its segment sees it (R128). -/
def Seg.farByte (g : Seg) (a : Nat) : Byte := (Sparse.find? g.overlay (farKey a)).getD (g.farDry a)

/-- The 64 B line of a stash control block in T3 as the module knows it: from the segment that runs, or of a paused context (log entry
169). -/
def farLine (s : State) (c : CoreIx) (k line : Nat) : Option (List Byte) :=
  match s.seg c with
  | some g => if g.ctx = k ∧ g.farBlock ≠ [] then some ((List.range 64).map (fun i => g.farDry (line + i)))
      else ((s.part (partOf c)).farPause.find? (fun p => p.1 == k && p.2.1 == line)).map (fun p => p.2.2)
  | none => ((s.part (partOf c)).farPause.find? (fun p => p.1 == k && p.2.1 == line)).map (fun p => p.2.2)

/-- A write of the device's own to T3 joins the outbound queue, released (log entry 169). -/
def State.enqueueDry (s : State) (c : CoreIx) (k : Nat) (what : OutKind) : State :=
  State.showOutq (s.modPart (partOf c) (fun p =>
    { p with outq := p.outq ++ [{ id := p.outqNext, core := c.val, ctx := k, charge := 128, state := .released, kind := what }],
             outqNext := p.outqNext + 1 })) (partOf c)

/-- A number of a context's stash control block, dry; fenced memory gives none (R322). -/
def stashDry (s : State) (c : CoreIx) (k off size : Nat) : Nat :=
  match stashAddr s c k off with
  | some a => if fencedFor s c a then 0 else s.rdLE a size
  | none => match stashFar s c k off with
    | some a => leNat (slice ((farLine s c k (a / 64 * 64)).getD []) (a % 64) size)
    | none => 0

/-- Bytes of a context's stash control block change, dry at once (R130, R133): those in T3 by a write of their line. -/
def State.stashNow (s : State) (c : CoreIx) (k off : Nat) (bs : List Byte) : State :=
  match stashAddr s c k off with
  | some a => if fencedFor s c a then s.fenceNote (partOf c) a else s.wrBytes a bs
  | none => match stashFar s c k off with
    | none => s
    | some a => match farLine s c k (a / 64 * 64) with
      | none => s
      | some l =>
        let line := splice l (a % 64) bs
        let t := s.modSeg c (fun g => if g.ctx = k then { g with farBlock := (a / 64 * 64, line) :: g.farBlock } else g)
        (t.modPart (partOf c) (fun p =>
          { p with farPause := p.farPause.map (fun x => if x.1 = k ∧ x.2.1 = a / 64 * 64 then (x.1, x.2.1, line) else x) })).enqueueDry c k
            (.chartWrite (a / 64 * 64) line [])

/-- The module keeps the line that holds PAUSED of a stash control block in T3 while the context is paused (R130, log entry 169). -/
def State.notePause (s : State) (c : CoreIx) (g : Seg) : State :=
  match stashFar s c g.ctx 0x40 with
  | none => s
  | some a =>
    let line := (List.range 64).map (fun i => g.farByte (a + i))
    s.modPart (partOf c) (fun p =>
      { p with farPause := p.farPause.filter (fun x => x.1 != g.ctx) ++ (if (line.getD 10 0).getLsbD 0 then [(g.ctx, a, line)] else []) })

/-- PAUSED := 1 in the stash control block of a segment that is killed, dry (R130). -/
def State.pauseDry (s : State) (c : CoreIx) (g : Seg) : State :=
  let old := match stashFar s c g.ctx 0x4A with
    | some a => (g.farDry a).toNat
    | none => stashDry s c g.ctx 0x4A 1
  let new := [BitVec.ofNat 8 (putBits old 0 0 1)]
  let t := match stashFar s c g.ctx 0x4A with
    | some a => s.notePause c { g with overlay := Sparse.insert [] (farKey a) (new.headD 0) }
    | none => s
  t.stashNow c g.ctx 0x4A new

/-- The idle cause that takes the losses of a kill (R133, R188): 9 for cause 2, 5 for cause 1, 10 for cause 6. -/
def lossCause (cause : Nat) : Option Nat :=
  if cause = 2 then some 9 else if cause = 1 then some 5 else if cause = 6 then some 10 else none

/-- Losses that a kill adds (R133, R188). -/
def State.killLoss (s : State) (c : CoreIx) (g : Seg) (cause : Nat) : State :=
  match lossCause cause with
  | some i => g.engUsed.foldl (fun t e => t.idleAdd c e i (s.time - g.start)) s
  | none => s

/-- The cause halts its context (R170). -/
def haltingCause (cause : Nat) : Bool := cause == 4 || cause == 5 || cause == 8 || cause == 9 || cause == 10

/-- Health counts of a kill (R334). -/
def State.killHealth (s : State) (n : PartIx) (cause : Nat) : State :=
  if cause = 1 ∨ cause = 3 then s.modPart n (fun p => { p with health := { p.health with rr := p.health.rr + 1 } }) else s

/-- The context's part of a kill (R170, R174, R176, R177): counts, the next state, and for cause 1 the limit of R45. `next` is the
next state that an action asks for. -/
def State.killCtx (s : State) (c : CoreIx) (g : Seg) (cause : Nat) (next : Option Nat) : State :=
  let k := g.ctx
  let s1 := (s.ctxBump k 0x3C 4 1).wrBits (s.ctxAddr k + 0x38) 1 3 0 cause
  let s2 := s1.ctxBump k 0x40 8 (s.time - g.start)
  let s3 := if cause = 2 then s2.ctxBump k 0x54 4 1 else s2
  let bk := s3.ctxBoundaryKills k + 1
  let s4 := if cause = 1 then s3.ctxSetBoundaryKills k (min 3 bk) else s3
  let third := cause == 1 && decide (3 ≤ bk)
  if haltingCause cause || third then
    let s5 := s4.haltCtx k cause
    if third then s5.raise { code := 0x15, domain := domPart (partOf c), ctx := some k, core := c.val, unit := 11, addr := g.head }
    else s5
  else match next with
    | some st => if st = 4 then s4.haltCtx k cause else s4.ctxSetState k st
    | none => s4.ctxSetState k 1

/-- A segment of a core is killed at this aclk (R169, R170, R176). -/
def State.killWith (s : State) (c : CoreIx) (cause : Nat) (next : Option Nat) : State :=
  match s.seg c with
  | none => s
  | some g =>
    let n := partOf c
    let s0 := { s with fallen := (c.val, s.core c) :: s.fallen }
    let s1 := (s0.killLoss c g cause).wipeSeg c g
    let s2 := ((s1.bump (SEQ.KILLS.COUNT c) 1).put (SEQ.KILLS.LAST_CAUSE c) cause).beat c
    let s3 := ((s2.seqState c 4).killCtx c g cause next).killHealth n cause
    let stash := g.reserve || cause == 7
    let s4 := if stash then (s3.pauseDry c g).modPart n (fun p => { p with noStart := g.ctx :: p.noStart }) else s3
    s4.modCore c (fun k =>
      { k with
        canIssue := s.time + 64
        pickTime := s.time + 64
        barred := if cause = 1 ∨ cause = 2 ∨ cause = 6 then g.ctx :: k.barred else k.barred
        leftRow := if stash then g.ctx :: k.leftRow else k.leftRow
        leftStash := stash
        killed := some { time := s.time, cause := cause, seg := g } })

/-- A kill that no action attends. -/
def State.killSeg (s : State) (c : CoreIx) (cause : Nat) : State := s.killWith c cause none

/-! ### Several kills of one aclk (R177) -/

/-- The place of a cause in the order of R177. -/
def killRank (cause : Nat) : Nat := [4, 5, 9, 8, 1, 6, 7, 3, 10, 2].idxOf cause

/-- The kill of this aclk on a core. -/
def State.killedNow (s : State) (c : CoreIx) : Option KillSt :=
  match (s.core c).killed with
  | some x => if x.time = s.time then some x else none
  | none => none

/-- The losses that a kill with a cause has added are taken back (R177, R188). -/
def State.lossBack (s : State) (c : CoreIx) (g : Seg) (cause : Nat) : State :=
  match lossCause cause with
  | some i => g.engUsed.foldl (fun t e => t.idleBack c e i (s.time - g.start)) s
  | none => s

/-- The kill of this aclk on a core takes another cause (R177): what the first one counted by its cause is undone. -/
def State.otherCause (s : State) (c : CoreIx) (x : KillSt) (cause : Nat) : State :=
  let k := x.seg.ctx
  let s1 := ((s.lossBack c x.seg x.cause).killLoss c x.seg cause).put (SEQ.KILLS.LAST_CAUSE c) cause
  let s2 := s1.wrBits (s1.ctxAddr k + 0x38) 1 3 0 cause
  let s3 := if x.cause = 2 then s2.ctxWr k 0x54 4 (s2.ctxRd k 0x54 4 + (2 ^ 32 - 1)) else s2
  s3.modCore c (fun y => { y with killed := some { x with cause := cause } })

/-- A further cause but 1 falls in the aclk of a kill (R177): recorded where it comes first in the order; a halting one halts. -/
def State.killMore (s : State) (c : CoreIx) (cause : Nat) : State :=
  match s.killedNow c with
  | none => s
  | some x =>
    if killRank x.cause ≤ killRank cause then s
    else
      let t := s.otherCause c x cause
      if haltingCause cause && t.ctxState x.seg.ctx != 4 then t.haltCtx x.seg.ctx cause else t

/-- The cause is a fault that the segment's own commands meet (R170). -/
def faultCause (cause : Nat) : Bool := cause == 4 || cause == 5 || cause == 8 || cause == 9

/-- A command of a core's segment. Where the segment was killed earlier in this aclk, the fault that the command would have met in it
falls in the same aclk: it is recorded, and its cause ranked (R177). -/
def State.meanwhile (s : State) (c : CoreIx) (f : State → Out) : Out :=
  match s.seg c, s.fallen.find? (fun p => p.1 == c.val) with
  | none, some (_, k) =>
    (match f (s.modCore c (fun _ => k)) with
    | .next t => (match t.killedNow c with
      | some y => .next (if faultCause y.cause then { s with newErrs := t.newErrs }.killMore c y.cause else s)
      | none => .next s)
    | x => x)
  | _, _ => f s

/-- The error record of a command: its opcode and CMD_ID; of the last command fetched in the segment where none waits (R156,
R316). -/
def State.cmdRecord (s : State) (c : CoreIx) (k code addr d0 : Nat) : ErrRecord :=
  let ids := match s.seg c with
    | some g => match g.fetched with
      | some (_, b) => (fieldAt b 6 2, fieldAt b 0 1)
      | none => if g.nextId = 0 then (0, 0) else (s.get (SEQ.LAST_CMD.CMD_ID c), s.get (SEQ.LAST_CMD.OPCODE c))
    | none => (0, 0)
  { code := code, domain := domPart (partOf c), ctx := some k, core := c.val, unit := 11,
    cmdId := ids.1, opcode := ids.2, addr := addr, d0 := d0 }

/-- A command is refused as a descriptor fault (R156, R170): its record, then the kill with cause 4. -/
def State.descFault (s : State) (c : CoreIx) (addr detail : Nat) : State :=
  match s.seg c with
  | none => s
  | some g => (s.raise (s.cmdRecord c g.ctx 0x10 addr detail)).killSeg c 4

/-- A segment reads a semaphore that has come to lie in fenced memory: the read is delivered poisoned, and the segment is killed (R210,
R322). -/
def State.semFenced (s : State) (c : CoreIx) (g : Seg) (a : Nat) : State := (s.fenceRecord c g.ctx a).descFault c a 7

/-- A segment exceeds its ink (R164, R170). -/
def State.inkOverflow (s : State) (c : CoreIx) (which : Nat) : State :=
  match s.seg c with
  | none => s
  | some g => (s.raise (s.cmdRecord c g.ctx 0x14 0 which)).killSeg c 9

/-- What becomes of a claim on wet pages: go on, hold, or kill. -/
def Got.run (r : Got) (c : CoreIx) (go : State → State) : State :=
  match r with
  | .ok s => go s
  | .wait s => s
  | .kill s cause d => if cause = 9 then s.inkOverflow c d else s.killSeg c cause

/-! ### Issue (R147 to R149) -/

/-- Fields of the command header (R149). -/
def cmdOpcode (b : List Byte) : Nat := fieldAt b 0 1
def cmdEngine (b : List Byte) : Nat := bits (fieldAt b 0 4) 11 8
def cmdToken (b : List Byte) : Nat := bits (fieldAt b 0 4) 15 12
def cmdWait (b : List Byte) : Nat := bits (fieldAt b 0 4) 31 16
def cmdFence (b : List Byte) : Bool := bit (fieldAt b 4 4) 0
def cmdId (b : List Byte) : Nat := bits (fieldAt b 4 4) 31 16
/-- Bits [hi:lo] of the k bytes of a command at `off`. -/
def cmdBits (b : List Byte) (off k hi lo : Nat) : Nat := bits (fieldAt b off k) hi lo

/-- Bytes [lo, hi) of a command are zero. -/
def zeroBytes (b : List Byte) (lo hi : Nat) : Bool := (slice b lo (hi - lo)).all (fun x => x == 0)

/-- The header breaks no rule of R149: ENGINE is 0 but for MATMUL, reserved bits are 0. -/
def headerOk (b : List Byte) : Bool :=
  (cmdOpcode b == 0x10 || cmdEngine b == 0) && !(bit (cmdWait b) 0) && zeroBits (fieldAt b 4 2) 15 1

/-- A command carries a dependence wait (R148). -/
def dependenceWait (b : List Byte) : Bool := cmdWait b != 0 || cmdFence b

/-- The tokens and the FENCE bit let the command issue (R147, R148). -/
def tokensFree (g : Seg) (b : List Byte) : Bool :=
  (List.range 16).all (fun t => t == 0 || !(bit (cmdWait b) t) || g.work.all (fun w => w.token != t))
  && (!cmdFence b || g.work.isEmpty)
  && (cmdToken b == 0 || decide ((g.work.filter (fun w => w.token == cmdToken b)).length < 255))

/-- A core is held by the debug port: HALT_REQ without a step under way (R366, R367). -/
def State.debugHeld (s : State) (c : CoreIx) : Bool :=
  s.on (DBG.CORE_c.HALT_REQ c) && !(s.on (DBG.CORE_c.STEPPING c) && (s.core c).stepWork.isNone)

/-- The commands outstanding in a slot, with those seen complete in that very slot: a command that waited for one of them issues
in the aclk after its wait is satisfied (R147, the serving example of chapter 07). -/
def heldWork (g : Seg) (slot : Nat) : List Work := if g.doneSlot = some slot then g.work ++ g.done else g.work

/-- The command fetched by a core, where it is ready to issue by R147 but for its unit. -/
def issueReady (s : State) (c : CoreIx) : Option (Seg × List Byte) :=
  match s.seg c with
  | none => none
  | some g =>
    match g.fetched with
    | none => none
    | some (_, b) =>
      if s.issues (partOf c) && s.slotIsOpen (partOf c) && decide (g.issueSlot ≤ s.slot (partOf c)) && decide ((s.core c).canIssue ≤ s.time)
        && g.lift.isNone && tokensFree { g with work := heldWork g (s.slot (partOf c)) } b && !s.debugHeld c
      then some (g, b) else none

/-- Opcodes that run in a skipped segment (R133): MB_END and STASH_FREE, and JUMP and LIFT, which lead to its end. -/
def skipRuns (opcode : Nat) : Bool :=
  opcode == 0x02 || opcode == 0x16 || opcode == 0x39 || opcode == 0x3F

/-- The command fetched by a core is of this opcode and ready to issue; a command that is not a MATMUL does not follow
MX_SCALES (R152), and a skipped segment runs few commands (R133). -/
def ready (s : State) (c : CoreIx) (opcode : Nat) : Option (Seg × List Byte) :=
  match issueReady s c with
  | some (g, b) =>
    if cmdOpcode b = opcode && (opcode == 0x10 || g.mx.isNone) && (!g.skip || skipRuns opcode) then some (g, b) else none
  | none => none

/-- A command issues: LAST_CMD, CMD_PTR, its number and token (R147, R148, R172). `atOnce`: it completes at issue. -/
def State.issueCmd (s : State) (c : CoreIx) (g : Seg) (b : List Byte) (atOnce : Bool) : State :=
  let s1 := ((s.put (SEQ.LAST_CMD.CMD_ID c) (cmdId b)).put (SEQ.LAST_CMD.OPCODE c) (cmdOpcode b)).bump (SEQ.CMD_PTR.ADDR c) 64
  let s2 := s1.modSeg c (fun h =>
    { h with
      fetched := none
      nextId := g.nextId + 1
      issueSlot := s.slot (partOf c) + 1
      doneSlot := if atOnce then some (s.slot (partOf c)) else h.doneSlot
      done := if atOnce then heldWork { h with work := [] } (s.slot (partOf c)) else h.done
      queueHold := false
      remote := if atOnce then h.remote.filter (fun p => p.work != g.nextId) else h.remote
      work := if atOnce then h.work else h.work ++ [⟨g.nextId, cmdToken b, cmdOpcode b, cmdId b⟩] })
  let s3 := s2.seqState c 1
  let s4 := if s.on (DBG.CORE_c.STEPPING c) then
      (if atOnce then (s3.put (DBG.CORE_c.STEPPING c) 0) else s3.modCore c (fun k => { k with stepWork := some g.nextId }))
    else s3
  let s5 := s4.modCore c (fun k => { k with bpPass := false })
  if atOnce then s5.beat c else s5

/-- The sequencer sees a command complete (R148, R172, R367). -/
def State.completeWork (s : State) (c : CoreIx) (id : Nat) : State :=
  let s1 := (s.modSeg c (fun g =>
    { g with
      work := g.work.filter (fun w => w.id != id)
      remote := g.remote.filter (fun p => p.work != id)
      doneSlot := some (s.slot (partOf c))
      done := g.work.filter (fun w => w.id == id) ++ heldWork { g with work := [] } (s.slot (partOf c)) })).beat c
  if (s.core c).stepWork = some id then
    (s1.modCore c (fun k => { k with stepWork := none })).put (DBG.CORE_c.STEPPING c) 0
  else s1

/-- A command with a check: refused with a detail and an address, or let through. -/
def refuseOr (s : State) (c : CoreIx) (why : Option (Nat × Nat)) (go : State) : State :=
  match why with
  | some (addr, detail) => s.descFault c addr detail
  | none => go

/-- The first breach in a list of checks: whether each holds, with its address and detail (R156, R320). -/
def firstBreach : List (Bool × Nat × Nat) → Option (Nat × Nat)
  | [] => none
  | (ok, addr, detail) :: r => if ok then firstBreach r else some (addr, detail)

/-- Translate the operand ranges of a command, in order: address, length, write (R198). -/
def touchAll (c : CoreIx) (ctx : Nat) : List (Nat × Nat × Bool) → State → State × Option Nat
  | [], s => (s, none)
  | (a, l, w) :: r, s =>
    match touch s c ctx a l w with
    | (t, none) => touchAll c ctx r t
    | (t, some bad) => (t, some bad)

/-- Check a command, translate its operands, and go on; else a descriptor fault (R156). A read that a segment may not take
poisoned is checked as `sound`: address and length (R210). -/
def checked (s : State) (c : CoreIx) (ctx : Nat) (breach : Option (Nat × Nat)) (ranges : List (Nat × Nat × Bool))
    (sound : List (Nat × Nat)) (go : State → State) : State :=
  match breach with
  | some (addr, detail) => s.descFault c addr detail
  | none =>
    match touchAll c ctx ranges s with
    | (t, some bad) => t.descFault c bad 5
    | (t, none) =>
      match sound.find? (fun r => objPoison t c ctx r.1 r.2) with
      | some r =>
        let cmd := match t.seg c with
          | some g => (match g.fetched with | some (_, b) => b | none => [])
          | none => []
        (t.consume c ctx 11 2 cmd [r]).descFault c r.1 7
      | none => go (sound.foldl (fun u r => u.meetObj c ctx r.1 r.2) t)

/-- Wait for the T3 parts of byte ranges that a command reads at its issue, then go on (R171). -/
def withRemote (s : State) (c : CoreIx) (g : Seg) (ranges : List (Nat × Nat)) (go : State → State) : State :=
  let far := ranges.flatMap (fun r => chartRanges s c g.ctx (pageCount r.1 r.2) r.1 r.2)
  let cover := fun (r : Nat × Nat) => g.remote.filter (fun p => p.space == 1 && p.work == g.nextId
    && decide (p.addr < r.1 + r.2) && decide (r.1 < p.addr + p.len))
  let missing := far.filter (fun r => (cover r).isEmpty)
  if !missing.isEmpty then s.needRemote c 1 g.nextId missing
  else if far.all (fun r => (cover r).all (fun p => p.data.isSome)) then go s
  else s

end Sys2Proof.Machine
end

