-- ==== Sys2Proof/Machine/Engine.lean ====
section
/-! DEFINITION. Machine/Engine.lean: the array operations: MATMUL (R60 to R65, R131 to R133, R138, R151, R152), the fold
(R76), plane loads, passes and the drain (R66 to R85, R95 to R101, R104), and completion (R78, R86). -/

namespace Sys2Proof.Machine

/-! ### Weight descriptors (R131 to R133) -/

/-- The local offset of weight descriptor i of partition n. -/
def State.wdtAddr (s : State) (n : PartIx) (i : Nat) : Nat :=
  velBase n + 256 * s.inForce (TRN.WDT_BASE_n.BASE n) + 256 * i
/-- The descriptors of a partition (R144). -/
def State.wdtLen (s : State) (n : PartIx) : Nat := min 4096 (s.inForce (TRN.WDT_LEN_n.ENTRIES n))
/-- A descriptor index that names a descriptor (R131). -/
def State.descOk (s : State) (n : PartIx) (i : Nat) : Bool := i != 0 && decide (i < s.wdtLen n)
/-- A field of a descriptor. -/
def State.wd (s : State) (n : PartIx) (i off k : Nat) : Nat := s.rdLE (s.wdtAddr n i + off) k
/-- TAG of slot v. -/
def State.slotTag (s : State) (n : PartIx) (i v : Nat) : Nat := s.wd n i (0x10 + 0x18 * v) 4
/-- RECTO. -/
def State.recto (s : State) (n : PartIx) (i : Nat) : Nat := s.wd n i 0 1 % 2

/-- A byte of a segment's stash control block, the segment's own changes seen (R128). -/
def stashByte (s : State) (c : CoreIx) (g : Seg) (off : Nat) : Byte :=
  match stashAddr s c g.ctx off with
  | some a => match Sparse.find? g.overlay a with
    | some b => b
    | none => (match wetOf s c (65536 * (a / 65536)) with
      | some w => if w.filled.contains (a % 65536 / 128) then s.rd8 (w.wet + a % 65536) else s.rd8 a
      | none => s.rd8 a)
  | none => match stashFar s c g.ctx off with
    | some a => g.farByte a
    | none => 0

/-- A number of a segment's stash control block. -/
def stashRd (s : State) (c : CoreIx) (g : Seg) (off k : Nat) : Nat :=
  leNat ((List.range k).map (fun i => stashByte s c g (off + i)))

/-- Write a number of a segment's stash control block, as wet ink (R128). -/
def State.stashWr (s : State) (c : CoreIx) (ctx off k v : Nat) : State :=
  (List.range k).foldl (fun t i =>
    match stashAddr t c ctx (off + i) with
    | some a => t.modSeg c (fun g => { g with overlay := Sparse.insert g.overlay a (BitVec.ofNat 8 (v / 256 ^ i)) })
    | none => match stashFar t c ctx (off + i) with
      | some a => t.modSeg c (fun g => { g with overlay := Sparse.insert g.overlay (farKey a) (BitVec.ofNat 8 (v / 256 ^ i)) })
      | none => t) s

/-- The offset of a micro-batch slot in the stash control block. -/
def mbAt (slot : Nat) : Nat := 0x100 + 0x200 * slot

/-- What a reference to a descriptor comes to (R132). -/
inductive Resolved where
  /-- the slot, and the segment's changes made -/
  | slot (v : Nat) (s : State)
  | fault
  | stale (tag : Nat)

/-- The version entry of a slot for a descriptor: its tag. -/
def versionOf (s : State) (c : CoreIx) (g : Seg) (slot i : Nat) : Option Nat :=
  let cnt := stashRd s c g (mbAt slot + 5) 1
  match (List.range cnt).find? (fun v => stashRd s c g (mbAt slot + 0x110 + 8 * v) 2 == i) with
  | some v => some (stashRd s c g (mbAt slot + 0x114 + 8 * v) 4)
  | none => none

/-- Latch a slot for a segment (R132). -/
def State.latchDesc (s : State) (c : CoreIx) (i v : Nat) : State :=
  s.modSeg c (fun g => { g with descLatch := g.descLatch ++ [(i, v)] })

/-- Resolve a segment's reference to a descriptor (R132, R133). -/
def resolveDesc (s : State) (c : CoreIx) (g : Seg) (i : Nat) : Resolved :=
  let n := partOf c
  let end_ := fun (v : Nat) (t : State) => if s.slotTag n i v = 0 then Resolved.fault else .slot v (t.latchDesc c i v)
  match g.descLatch.find? (fun p => p.1 == i) with
  | some (_, v) => .slot v s
  | none =>
    match g.mbSlot with
    | none => end_ (s.recto n i) s
    | some slot =>
      match versionOf s c g slot i with
      | some t =>
        if s.slotTag n i (s.recto n i) = t then end_ (s.recto n i) s
        else if s.slotTag n i (1 - s.recto n i) = t then end_ (1 - s.recto n i) s
        else .stale t
      | none =>
        if g.mbDir = 1 then .fault
        else
          let cnt := stashRd s c g (mbAt slot + 5) 1
          if 30 ≤ cnt then .fault
          else
            let at_ := mbAt slot + 0x110 + 8 * cnt
            let t := ((s.stashWr c g.ctx at_ 4 i).stashWr c g.ctx (at_ + 4) 4 (s.slotTag n i (s.recto n i))).stashWr c g.ctx
              (mbAt slot + 5) 1 (cnt + 1)
            end_ (s.recto n i) t

/-- A stale-version drop (R133): the slot goes to DROPPED at once, counts rise, the event is delivered, the segment is killed. -/
def State.staleDrop (s : State) (c : CoreIx) (g : Seg) (i tag : Nat) : State :=
  let n := partOf c
  let k := g.ctx
  let s1 := match g.mbSlot with
    | some slot => s.stashNow c k (mbAt slot + 2) [BitVec.ofNat 8 (putBits (stashDry s c k (mbAt slot + 2) 1) 1 0 3)]
    | none => s
  let s2 := s1.wrLE (s1.wdtAddr n i + 0xB8) 4 (s1.wd n i 0xB8 4 + 1)
  let s3 := s2.stashNow c k 0x50 (toLE 4 (stashDry s2 c k 0x50 4 + 1))
  let s4 := ((s3.flag (TRN.EVENTS_n.STALE_DROP n) 1).bump (TRN.EVENTS_n.STALE_COUNT n) 1).event k 3 (i % 4096 + 65536 * tag)
  s4.killSeg c 6

/-! ### MATMUL's parameters (R151) -/

def mmM (b : List Byte) : Nat := 16 * (cmdBits b 0x24 4 23 16 + 1)
def mmN (b : List Byte) : Nat := 16 * (cmdBits b 0x24 4 31 24 + 1)
def mmK (b : List Byte) : Nat := 16 * (cmdBits b 0x28 4 7 0 + 1)
def mmMv (b : List Byte) : Nat := cmdBits b 0x28 4 19 8 + 1
def mmNv (b : List Byte) : Nat := cmdBits b 0x28 4 31 20 + 1
def mmKv (b : List Byte) : Nat := cmdBits b 0x2C 4 11 0 + 1
def mmAFmt (b : List Byte) : Nat := cmdBits b 0x2C 4 14 12
def mmBFmt (b : List Byte) : Nat := cmdBits b 0x2C 4 17 15
def mmCFmt (b : List Byte) : Nat := cmdBits b 0x2C 4 20 18
def mmTransposed (b : List Byte) : Bool := cmdBits b 0x2C 4 21 21 == 1
def mmAccumulate (b : List Byte) : Bool := cmdBits b 0x2C 4 22 22 == 1
def mmBDesc (b : List Byte) : Bool := cmdBits b 0x2C 4 23 23 == 1
def mmCDesc (b : List Byte) : Bool := cmdBits b 0x2C 4 24 24 == 1
def mmAE5 (b : List Byte) : Bool := cmdBits b 0x2C 4 25 25 == 1
def mmBE5 (b : List Byte) : Bool := cmdBits b 0x2C 4 26 26 == 1
def mmCE5 (b : List Byte) : Bool := cmdBits b 0x2C 4 27 27 == 1
def mmABase (b : List Byte) : Nat := fieldAt b 0x08 8
def mmBBase (b : List Byte) : Nat := fieldAt b 0x10 8
def mmCBase (b : List Byte) : Nat := fieldAt b 0x18 8
def mmAPitch (b : List Byte) : Nat := 64 * fieldAt b 0x20 2
def mmBPitch (b : List Byte) : Nat := 64 * fieldAt b 0x22 2
def mmCPitch (b : List Byte) : Nat := 64 * fieldAt b 0x24 2
def mmAEntry (b : List Byte) : Nat := cmdBits b 0x30 4 12 0
def mmBEntry (b : List Byte) : Nat := cmdBits b 0x30 4 25 13
def mmCEntry (b : List Byte) : Nat := cmdBits b 0x34 4 12 0
/-- Fields of MX_SCALES (R152). -/
def mxBase (b : List Byte) (i : Nat) : Nat := fieldAt b (0x08 + 8 * i) 8
def mxPitch (b : List Byte) (i : Nat) : Nat := fieldAt b (0x20 + 4 * i) 4

/-- The format class (R58): 0 16-bit, 1 8-bit, 2 MXFP8, 3 MXFP4. -/
def fmtClass (fmt : Nat) : Nat := if fmt = 5 then 2 else if fmt = 6 then 3 else if fmt = 3 ∨ fmt = 4 then 1 else 0
/-- Weights per cell p (R58). -/
def cellWeights (cls : Nat) : Nat := if cls = 0 then 1 else if cls = 3 then 4 else 2
/-- Mt (R73). -/
def chunkRows (cls : Nat) : Nat := 1024 / cellWeights cls
/-- W (R69). -/
def planeLoadTime (cls : Nat) : Nat := if cls = 2 then 136 else if cls = 3 then 144 else 128
/-- cmax (R71). -/
def skewMax (cls : Nat) : Nat := if cls = 2 ∨ cls = 3 then 3 else 0
/-- I_min (R78). -/
def intervalMin (cls : Nat) : Nat := 130 + skewMax cls + planeLoadTime cls
/-- D (R78). -/
def drainTail (cls : Nat) : Nat := if cls = 2 ∨ cls = 3 then 268 else 264
/-- k_passes, n_planes, m_chunks of R76. -/
def kPasses (b : List Byte) : Nat := ceilDiv (mmK b) 128
def nPlanes (b : List Byte) : Nat := ceilDiv (mmN b) (128 * cellWeights (fmtClass (mmAFmt b)))
def mChunks (b : List Byte) : Nat := ceilDiv (mmM b) (chunkRows (fmtClass (mmAFmt b)))
def pTotal (b : List Byte) : Nat := nPlanes b * mChunks b * kPasses b

/-- The pairs of R62. -/
def pairOk (a b : Nat) : Bool :=
  (a == 1 && b == 1) || (a == 2 && b == 2) || ((a == 3 || a == 4) && (b == 3 || b == 4)) || (a == 5 && b == 5)
  || (a == 6 && b == 6)

/-- Bytes from base to the last byte of the last stored row (R63). -/
def spanLen (rows pitch rowB : Nat) : Nat := (rows - 1) * pitch + rowB

/-- Two byte ranges meet. -/
def overlap (a la b lb : Nat) : Bool := decide (a < b + lb) && decide (b < a + la)

/-- Stored rows and row bytes of A. -/
def aRows (b : List Byte) : Nat := if mmTransposed b then mmK b else mmM b
def aRowBytes (b : List Byte) : Nat := rowBytes (mmAFmt b) (if mmTransposed b then mmM b else mmK b)

/-- A MATMUL's operands as resolved. -/
structure MmRes where
  bBase : Nat
  bPitch : Nat
  bScale : Nat
  bScaleP : Nat
  bEntry : Nat
  cBase : Nat
  cPitch : Nat
  nv : Nat
  kv : Nat
deriving DecidableEq, Repr

/-- Ranges of a MATMUL: operands and scale arrays, with whether they are written (R63, R198). -/
def mmRanges (b mx : List Byte) (r : MmRes) : List (Nat × Nat × Bool) :=
  let mxa := isMx (mmAFmt b)
  [(mmABase b, spanLen (aRows b) (mmAPitch b) (aRowBytes b), false),
   (r.bBase, spanLen (mmK b) r.bPitch (rowBytes (mmBFmt b) (mmN b)), false),
   (r.cBase, spanLen (mmM b) r.cPitch (rowBytes (mmCFmt b) (mmN b)), true)]
  ++ (if mxa then [(mxBase mx 0, spanLen (mmM b) (mxPitch mx 0) (mmK b / 32), false),
                   (r.bScale, spanLen (mmK b / 32) r.bScaleP (mmN b), false)] else [])
  ++ (if mmCFmt b = 5 then [(mxBase mx 2, spanLen (mmM b) (mxPitch mx 2) (mmN b / 32), true)] else [])

/-- A MATMUL names an engine, or any (R149). -/
def engNamed (b : List Byte) : Bool := decide (cmdEngine b < 8) || cmdEngine b == 15

/-- The first breach of the rules of R61 to R63, R149, R151, R152, R103, R131 by a MATMUL before its descriptors are read. -/
def mmBreach (s : State) (n : PartIx) (b : List Byte) (mx : Option (List Byte)) : Option (Nat × Nat) :=
  let mxf := isMx (mmAFmt b) || isMx (mmBFmt b) || mmCFmt b == 5
  let m := mx.getD []
  firstBreach [
    (headerOk b && zeroBits (fieldAt b 0x2C 4) 31 28 && zeroBits (fieldAt b 0x30 4) 31 26
      && zeroBits (fieldAt b 0x34 4) 31 13 && zeroBytes b 0x38 0x40, 0, 1),
    (engNamed b, 0, 2),
    (pairOk (mmAFmt b) (mmBFmt b), 0, 3),
    (decide (mmMv b ≤ mmM b) && decide (mmNv b ≤ mmN b) && decide (mmKv b ≤ mmK b), 0, 3),
    (decide (mmCFmt b ≤ 5), 0, 3),
    (!mmAccumulate b || mmCFmt b == 0, 0, 3),
    (!mmCDesc b || mmAccumulate b, 0, 3),
    (!isMx (mmAFmt b) || mmK b % 32 == 0, 0, 3),
    (mmCFmt b != 5 || mmN b % 32 == 0, 0, 3),
    (!mmTransposed b || !isMx (mmAFmt b), 0, 3),
    (mmAPitch b != 0 && decide (aRowBytes b ≤ mmAPitch b), mmABase b, 3),
    (mmBDesc b || (mmBPitch b != 0 && decide (rowBytes (mmBFmt b) (mmN b) ≤ mmBPitch b)), mmBBase b, 3),
    (mmCDesc b || (mmCPitch b != 0 && decide (rowBytes (mmCFmt b) (mmN b) ≤ mmCPitch b)), mmCBase b, 3),
    (!mxf || mx.isSome, 0, 7),
    (!isMx (mmAFmt b) || decide (mmK b / 32 ≤ mxPitch m 0), 0, 7),
    (!isMx (mmBFmt b) || mmBDesc b || decide (mmN b ≤ mxPitch m 1), 0, 7),
    (mmCFmt b != 5 || decide (mmN b / 32 ≤ mxPitch m 2), 0, 7),
    (s.scaleOk n (mmAEntry b) && (mmBDesc b || s.scaleOk n (mmBEntry b)) && (mmCDesc b || s.scaleOk n (mmCEntry b)), 0, 4),
    (!mmBDesc b || s.descOk n (mmBBase b % 4096), 0, 4),
    (!mmCDesc b || s.descOk n (mmCBase b % 4096), 0, 4)]

/-- The ranges of C meet no range of A, B or their scale arrays (R63). -/
def mmDisjoint (rs : List (Nat × Nat × Bool)) : Bool :=
  rs.all (fun w => !w.2.2 || rs.all (fun r => r.2.2 || !overlap w.1 w.2.1 r.1 r.2.1))

/-- The row pitch of a dense binary32 gradient of n columns (R131). -/
def gradPitch (n : Nat) : Nat := ceilDiv (4 * n) 64 * 64

/-- The shard descriptor at an object address (R143): padded and valid rows, columns and groups. -/
def shardAt (s : State) (c : CoreIx) (ctx a : Nat) : Nat × Nat × Nat × Nat × Nat × Nat :=
  let w := objLE s c ctx a 16
  (bits w 15 0, bits w 31 16, bits w 47 32, bits w 63 48, bits w 72 64, bits w 81 73)

/-- A shard descriptor breaks no rule: reserved bits 0, no valid value above its padded value, padded groups at most 256 (R143). -/
def shardOk (s : State) (c : CoreIx) (ctx a : Nat) : Bool :=
  let w := objLE s c ctx a 16
  let (pr, vr, pc, vc, pg, vg) := shardAt s c ctx a
  zeroBits w 127 82 && decide (vr ≤ pr) && decide (vc ≤ pc) && decide (vg ≤ pg)

/-- The copy of a descriptor that a product takes (log entry 31): the one whose shape is K × N; by the direction where both are. -/
def takesTransposed (s : State) (n : PartIx) (g : Seg) (i : Nat) (b : List Byte) : Bool :=
  let k := s.wd n i 8 4
  let w := s.wd n i 0xC 4
  let fwd := k == mmK b && w == mmN b
  let tr := w == mmK b && k == mmN b
  if fwd && tr then g.mbDir == 1 && g.mbSlot.isSome else tr

/-- The operands of a MATMUL resolved: B through slot v of its descriptor where it names one (R131, R143). -/
def mmResolve (s : State) (c : CoreIx) (g : Seg) (b mx : List Byte) (v : Nat) : MmRes :=
  let n := partOf c
  let i := mmBBase b % 4096
  let tr := takesTransposed s n g i b
  let o := if tr then 8 else 0
  let sh := s.wd n i 0xB0 8
  let (_, vr, _, vc, _, _) := shardAt s c g.ctx sh
  let ext := if mmBDesc b && sh != 0 then (if tr then (vr, vc) else (vc, vr)) else (mmNv b, mmKv b)
  let j := mmCBase b % 4096
  let buf := match g.gradLatch.find? (fun p => p.1 == j) with
    | some (_, q) => q
    | none => bits (s.wd n j 0 1) 2 2
  { bBase := if mmBDesc b then s.wd n i (0x18 + 0x18 * v + o) 8 else mmBBase b
    bPitch := if mmBDesc b then s.wd n i (if tr then 0x7C else 0x78) 4 else mmBPitch b
    bScale := if mmBDesc b then s.wd n i (0x80 + 0x10 * v + o) 8 else mxBase mx 1
    bScaleP := if mmBDesc b then s.wd n i (if tr then 0xA4 else 0xA0) 4 else mxPitch mx 1
    bEntry := if mmBDesc b then s.wd n i (0x14 + 0x18 * v + (if tr then 2 else 0)) 2 else mmBEntry b
    cBase := if mmCDesc b then s.wd n j (0x60 + 8 * buf) 8 else mmCBase b
    cPitch := if mmCDesc b then gradPitch (s.wd n j 0xC 4) else mmCPitch b
    nv := ext.1
    kv := ext.2 }

/-- The byte ranges of R63: as the operation reads and writes them, but for a C that names a gradient buffer, which is the whole
buffer, and a B that names a descriptor, which is the whole copy and scale array of its slot. -/
def mmSpans (s : State) (n : PartIx) (g : Seg) (b mx : List Byte) (r : MmRes) : List (Nat × Nat × Bool) :=
  let i := mmBBase b % 4096
  let j := mmCBase b % 4096
  let tr := takesTransposed s n g i b
  let rows := s.wd n i (if tr then 0xC else 8) 4
  let cols := s.wd n i (if tr then 8 else 0xC) 4
  let whole := [(r.bBase, spanLen rows r.bPitch (rowBytes (mmBFmt b) cols), false)]
    ++ (if isMx (mmBFmt b) then [(r.bScale, spanLen (rows / 32) r.bScaleP cols, false)] else [])
  (if mmBDesc b then whole else [])
  ++ (if mmCDesc b then [(r.cBase, s.wd n j 8 4 * gradPitch (s.wd n j 0xC 4), true)] else [])
  ++ mmRanges b mx r

/-- An engine can accept a command (R89, R147). -/
def engAccepts (s : State) (c : CoreIx) (e : EngIx) : Bool :=
  let g := (s.core c).engs[e]
  g.pend.isNone && decide (g.ready ≤ s.slot (partOf c))

/-- The engine that a MATMUL goes to: the one named, or the lowest-numbered one that can accept it (R149). -/
def engFor (s : State) (c : CoreIx) (b : List Byte) : Option EngIx :=
  if cmdEngine b = 15 then ([0, 1, 2, 3, 4, 5, 6, 7] : List EngIx).find? (engAccepts s c)
  else if engAccepts s c (toEng (cmdEngine b)) then some (toEng (cmdEngine b)) else none

/-- The engine that takes a MATMUL at its issue (R147); one that names none is refused without waiting for one (R156). -/
def mmTaker (s : State) (c : CoreIx) (b : List Byte) : Option EngIx := if engNamed b then engFor s c b else some 0

/-- Open slots that s_1 grows by for a first read at an object address outside the core's vellum (R81). -/
def farTime (s : State) (c : CoreIx) (ctx a : Nat) : Nat :=
  match pageLoc s c ctx (a / 65536) false with
  | some (.local_ base t) =>
    if t ≠ 0 then 0
    else if base / 0x40000000 = c.val then 0
    else if base / 0x100000000 = (partOf c).val then 8 else 20
  | _ => 0

/-- Change an engine. -/
def State.modEng (s : State) (c : CoreIx) (e : EngIx) (f : Eng → Eng) : State :=
  s.modCore c (fun k => { k with engs := k.engs.set e (f (k.engs[e])) })
/-- An engine. -/
def State.eng (s : State) (c : CoreIx) (e : EngIx) : Eng := (s.core c).engs[e]

/-- The K passes of a (chunk, plane) pair in the sequencer's order (R76, R77; log entry 141). -/
def kpOrder (seed : Nat) : Nat → List Nat → List Nat
  | 0, _ => []
  | _ + 1, [x] => [x]
  | k + 1, left =>
    let x := left.getD ((Config.freeWord (seed + k)).toNat % left.length) 0
    x :: kpOrder seed k (left.erase x)

/-- The K pass of each plane load of an operation, in order. -/
def kpPlan (seed : Nat) (b : List Byte) : List Nat :=
  (List.range (nPlanes b * mChunks b)).flatMap (fun q => kpOrder (seed + q * kPasses b) (kPasses b) (List.range (kPasses b)))

/-- Dispatch a checked MATMUL to engine e (R78, R83, R104, R106, R138); its operands are read as it runs (R90). -/
def State.dispatch (s : State) (c : CoreIx) (e : EngIx) (g : Seg) (b mx : List Byte) (r : MmRes) : State :=
  let n := partOf c
  let (ea, s1) := s.latchExp c (mmAEntry b) (mmAFmt b)
  let (eb, s2) := s1.latchExp c r.bEntry (mmBFmt b)
  let (ec, s3) := s2.latchExp c (if mmCDesc b then 0 else mmCEntry b) (mmCFmt b)
  let j := mmCBase b % 4096
  let s4 := if mmCDesc b && !(g.gradLatch.any (fun p => p.1 == j)) then
      s3.modSeg c (fun h => { h with gradLatch := h.gradLatch ++ [(j, bits (s.wd n j 0 1) 2 2)] })
    else s3
  let old := (s.eng c e).run
  let chain := match old with
    | some o => mmAFmt o.cmd == mmAFmt b && mmBFmt o.cmd == mmBFmt b && mmAE5 o.cmd == mmAE5 b && mmBE5 o.cmd == mmBE5 b
        && !dependenceWait b
    | none => false
  let op : MatOp :=
    { work := g.nextId, cmd := b, mx := mx, ctx := g.ctx, bBase := r.bBase, bPitch := r.bPitch, bScale := r.bScale,
      bScaleP := r.bScaleP, cBase := r.cBase, cPitch := r.cPitch, nv := r.nv, kv := r.kv, eIn := -ea - eb, eC := ec,
      chained := chain, start := s.slot n + 6, kps := kpPlan s.free b }
  let s5 := s4.modEng c e (fun k => if old.isSome then { k with pend := some op } else { k with run := some op })
  let s6 := s5.modSeg c (fun h =>
    { h with mx := none, engUsed := if h.engUsed.contains e.val then h.engUsed else h.engUsed ++ [e.val] })
  State.issueCmd { s6 with free := s6.free + pTotal b } c g b false

/-- MATMUL (R151): once an engine accepts it (R147), it is checked, its descriptors resolved and latched, its operands translated, and it
is dispatched. The slot of a descriptor is resolved for B alone: C names a gradient buffer (R132, R138; log entry 163). -/
def execMatmul (c : CoreIx) (s : State) : Out := s.meanwhile c fun s =>
  match ready s c 0x10 with
  | none => .next s
  | some (g, b) =>
    let n := partOf c
    let mx := g.mx.getD []
    match mmTaker s c b with
    | none => .next s
    | some e =>
      match mmBreach s n b g.mx with
      | some (a, d) => .next (s.descFault c a d)
      | none =>
        let go := fun (v : Nat) (t : State) =>
          let g' := (t.seg c).getD g
          let r := mmResolve t c g' b mx v
          let sh := t.wd n (mmBBase b % 4096) 0xB0 8
          let shBad := mmBDesc b && sh != 0 && !shardOk t c g.ctx sh
          let ext := decide (1 ≤ r.nv) && decide (r.nv ≤ mmN b) && decide (1 ≤ r.kv) && decide (r.kv ≤ mmK b)
          let rs := mmRanges b mx r
          let breach := firstBreach [(!shBad, sh, 7), (ext, sh, 3), (t.scaleOk n r.bEntry, 0, 4),
            (r.bPitch != 0 && r.bPitch % 64 == 0 && decide (rowBytes (mmBFmt b) (mmN b) ≤ r.bPitch), r.bBase, 3),
            (r.cPitch != 0 && decide (rowBytes (mmCFmt b) (mmN b) ≤ r.cPitch), r.cBase, 3), (mmDisjoint (mmSpans t n g' b mx r), r.cBase, 3)]
          checked t c g.ctx breach rs (if mmBDesc b && sh != 0 then [(sh, 16)] else [])
            (fun u => u.dispatch c e ((u.seg c).getD g) b mx r)
        if mmBDesc b then
          let sh := s.wd n (mmBBase b % 4096) 0xB0 8
          .next (withRemote s c g (if sh = 0 then [] else [(sh, 16)]) (fun s =>
            match resolveDesc s c g (mmBBase b % 4096) with
            | .fault => s.descFault c 0 7
            | .stale t => s.staleDrop c g (mmBBase b % 4096) t
            | .slot v t => go v t))
        else .next (go 0 s)

/-! ### The fold: plane loads and passes -/

/-- Number of completed (chunk, plane) pairs before pass or load k (0-based), and the pair's plane and chunk (R76). -/
def pairOf (b : List Byte) (k : Nat) : Nat × Nat := (k / kPasses b / mChunks b, k / kPasses b % mChunks b)

/-- The operation whose planes are being loaded: the running one, or the chained one behind it. -/
def loadOp (g : Eng) : Option (Bool × MatOp) :=
  match g.run with
  | none => none
  | some o =>
    if o.loads < pTotal o.cmd then some (false, o)
    else match g.pend with
      | some q => if q.chained && decide (q.loads < pTotal q.cmd) then some (true, q) else none
      | none => none

/-- The operation whose passes are being started. -/
def passOp (g : Eng) : Option (Bool × MatOp) :=
  match g.run with
  | none => none
  | some o =>
    if o.j < pTotal o.cmd then some (false, o)
    else match g.pend with
      | some q => if q.chained && decide (q.j < pTotal q.cmd) then some (true, q) else none
      | none => none

/-- Put an operation back. -/
def Eng.putOp (g : Eng) (pend : Bool) (o : MatOp) : Eng := if pend then { g with pend := some o } else { g with run := some o }

/-- ENGINE_START (R78, R83): at its slot the dispatched operation starts; the engine is BUSY. From idle both planes are free, and plane 0
takes the weights of pass 1 (log entry 136). -/
def execEngineStart (c : CoreIx) (e : EngIx) (s : State) : Out :=
  let g := s.eng c e
  let n := partOf c
  let due := fun (o : MatOp) => !o.started && decide (o.start ≤ s.slot n)
  match g.run, g.pend with
  | some o, p =>
    if s.advances n && due o then
      .next (((((s.modEng c e (fun k =>
          if o.chained then { k with run := some { o with started := true } }
          else { k with run := some { o with started := true }, planes := [none, none], active := 1, open_ := false, pass := none,
                        loading := none, released := false })).put
        (ENG.STATE_i.BUSY c e) 1).put (ENG.STATE_i.CLASS c e) (fmtClass (mmAFmt o.cmd))).put (ENG.STATE_i.PLANE0_FULL c e)
        (if o.chained then s.get (ENG.STATE_i.PLANE0_FULL c e) else 0)).put (ENG.STATE_i.PLANE1_FULL c e)
        (if o.chained then s.get (ENG.STATE_i.PLANE1_FULL c e) else 0))
    else match p with
      | some q =>
        if s.advances n && q.chained && due q then
          .next (s.modEng c e (fun k => { k with pend := some { q with started := true } }))
        else .next s
      | none => .next s
  | none, _ => .next s

/-- Rows and columns of B in a plane (R72, R76). -/
def planeRows (b : List Byte) (kp : Nat) : Nat := min 128 (mmK b - 128 * kp)
def planeCols (b : List Byte) (nb : Nat) : Nat :=
  let w := 128 * cellWeights (fmtClass (mmAFmt b))
  min w (mmN b - w * nb)

/-- An operation of an engine by its command number. -/
def Eng.op (g : Eng) (work : Nat) : Option MatOp :=
  match g.run, g.pend with
  | some o, p => if o.work = work then some o else p
  | none, _ => none

/-- Change the operation of a command number. -/
def Eng.modOp (g : Eng) (work : Nat) (f : MatOp → MatOp) : Eng :=
  { g with run := g.run.map (fun o => if o.work = work then f o else o), pend := g.pend.map (fun o => if o.work = work then f o else o) }

/-! ### The weight loader (R69, R71, R72) -/

/-- The plane that the loader fills next: the one that the latest pass does not use, then the other (R69, R71, R72). -/
def freePlane (g : Eng) : Option Nat :=
  if (g.planes.getD (1 - g.active) none).isNone then some (1 - g.active)
  else if (g.planes.getD g.active none).isNone then some g.active else none

/-- The pass start that released the plane being filled, and the clock from which its row r may be written (R71). -/
def rowFrom (cls : Nat) (rel : Option Nat) (r : Nat) : Nat :=
  match rel with
  | some s => s + 130 + skewMax cls + r
  | none => 0

/-- The valid bytes of row r of a plane, and of its scale block k (R68, R72). -/
def weightRange (o : MatOp) (nb kp r : Nat) : List (Nat × Nat) :=
  let b := o.cmd
  let fmt := mmBFmt b
  let n0 := 128 * cellWeights (fmtClass fmt) * nb
  let cols := min (planeCols b nb) (o.nv - n0)
  if cols = 0 ∨ o.kv ≤ 128 * kp + r ∨ mmK b ≤ 128 * kp + r then []
  else [(o.bBase + (128 * kp + r) * o.bPitch + n0 * fmtBits fmt / 8, rowBytes fmt cols)]
/-- The 128 scales that the loader takes at step i behind the rows: their block, and the first of their columns (R69). -/
def scaleStep (cls i : Nat) : Nat × Nat := (i / cellWeights cls, 128 * (i % cellWeights cls))
/-- The valid bytes of the scales of step i (R68, R69, R72). -/
def scaleRange (o : MatOp) (nb kp i : Nat) : List (Nat × Nat) :=
  let cls := fmtClass (mmBFmt o.cmd)
  let (k, q0) := scaleStep cls i
  let n0 := 128 * cellWeights cls * nb
  let cols := min 128 (min (planeCols o.cmd nb) (o.nv - n0) - q0)
  if cols = 0 ∨ o.kv ≤ 128 * kp + 32 * k then [] else [(o.bScale + (4 * kp + k) * o.bScaleP + n0 + q0, cols)]
/-- The steps of a plane load behind its rows (R69). -/
def scaleSteps (o : MatOp) : Nat := planeLoadTime (fmtClass (mmBFmt o.cmd)) - 128
/-- What a plane load reads (R68, R69). -/
def planeRanges (o : MatOp) (nb kp : Nat) : List (Nat × Nat) :=
  (List.range 128).flatMap (weightRange o nb kp) ++ (List.range (scaleSteps o)).flatMap (scaleRange o nb kp)

/-! ### What the feeder reads (R66 to R68) -/

/-- The byte ranges that the feeder reads for row m of a NORMAL A: valid elements and their block scales (R66, R68). -/
def feedRanges (o : MatOp) (kp m : Nat) : List (Nat × Nat) :=
  let b := o.cmd
  let fmt := mmAFmt b
  let ks := min (planeRows b kp) (o.kv - 128 * kp)
  if ks = 0 ∨ mmMv b ≤ m ∨ mmTransposed b = true then []
  else (mmABase b + m * mmAPitch b + 128 * kp * fmtBits fmt / 8, rowBytes fmt ks)
    :: (if isMx fmt then [(mxBase o.mx 0 + m * mxPitch o.mx 0 + 4 * kp, ceilDiv ks 32)] else [])

/-- The part of stored row r that a block of the transpose buffer takes (R67). -/
def blockRange (o : MatOp) (t : TBlock) (r : Nat) : Nat × Nat :=
  let sz := fmtBits (mmAFmt o.cmd) / 8
  (mmABase o.cmd + (128 * t.kp + r) * mmAPitch o.cmd + t.m * sz, min 128 (mmM o.cmd - t.m) * sz)

/-- The valid part of the stored rows from `lo` to `hi` of a block (R68). -/
def blockRanges (o : MatOp) (t : TBlock) (lo hi : Nat) : List (Nat × Nat) :=
  let sz := fmtBits (mmAFmt o.cmd) / 8
  let ms := min (min 128 (mmM o.cmd - t.m)) (mmMv o.cmd - t.m)
  if ms = 0 then []
  else (((List.range hi).drop lo).filter (fun r => decide (128 * t.kp + r < o.kv))).map (fun r => ((blockRange o t r).1, ms * sz))

/-- First row and rows of pass j, counted from 0 (R76). -/
def passBase (o : MatOp) (j : Nat) : Nat := (pairOf o.cmd j).2 * chunkRows (fmtClass (mmAFmt o.cmd))
def passRows (o : MatOp) (j : Nat) : Nat := min (chunkRows (fmtClass (mmAFmt o.cmd))) (mmM o.cmd - passBase o j)

/-- What the feeder reads for a pass of a NORMAL A (R66, R68). -/
def passRanges (o : MatOp) (kp m0 rows : Nat) : List (Nat × Nat) := (List.range rows).flatMap (fun i => feedRanges o kp (m0 + i))

/-! ### The weight loader: its steps -/

/-- The next plane load begins, where R71 and R78 let it, for its K pass (R77); the first load of an operation waits for its first read (R69,
R81). What of the plane lies in T3 is asked for, and with the first load the rows of the first pass (R90). -/
def State.beginPlane (s : State) (c : CoreIx) (e : EngIx) : State :=
  let g := s.eng c e
  match g.loading, loadOp g, freePlane g with
  | none, some (_, o), some i =>
    let slot := s.slot (partOf c)
    let rel := if g.released then some g.sj else none
    if o.started && (o.loads != 0 || decide (o.start + 4 ≤ slot)) && decide (rowFrom (fmtClass (mmAFmt o.cmd)) rel 0 ≤ g.clk) then
      let b := o.cmd
      let first := o.loads == 0
      let kp := o.kps.getD o.loads 0
      let nb := (pairOf b o.loads).1
      let farB := farTime s c o.ctx (o.bBase + 128 * kp * o.bPitch)
      let farA := farTime s c o.ctx (mmABase b + (if mmTransposed b then 128 * kp * mmAPitch b else 128 * kp * fmtBits (mmAFmt b) / 8))
      let l : Loading := { work := o.work, plane := i, nb := nb, kp := kp, rel := rel,
                           wait := if first then farB - (slot - (o.start + 4)) else 0 }
      let t := s.fetchFar c o.ctx o.work (planeRanges o nb kp ++ (if first then passRanges o kp 0 (passRows o 0) else []))
      (t.modEng c e (fun k => ({ k with loading := some l }).modOp o.work (fun q =>
        { q with far := if first then max farA farB else q.far }))).put
        (if i = 0 then ENG.STATE_i.PLANE0_FULL c e else ENG.STATE_i.PLANE1_FULL c e) 0
    else s
  | _, _, _ => s

/-- The loader writes row r of a plane: the codes as the memory holds them now, 0 where R72 gates (R69, R72, R90, R210). -/
def loadRow (s : State) (c : CoreIx) (o : MatOp) (l : Loading) : Loading :=
  let b := o.cmd
  let fmt := mmBFmt b
  let w := 128 * cellWeights (fmtClass fmt)
  let r := l.row
  if planeRows b l.kp ≤ r then { l with row := r + 1 }
  else
    let (bs, bad) := objRead s c o.ctx (o.bBase + (128 * l.kp + r) * o.bPitch) (rowBytes fmt (mmN b))
    let nan := if isMx fmt then (mxElem fmt (mmBE5 b)).nanOut else (fmtOf fmt).nanOut
    let cols := List.range (planeCols b l.nb)
    let used := fun (q : Nat) => decide (128 * l.kp + r < o.kv) && decide (w * l.nb + q < o.nv)
    let codes := cols.map (fun q =>
      if !used q then 0
      else if elemBad bad fmt (w * l.nb + q) && fmt != 6 then nan
      else elemCode bs fmt (w * l.nb + q))
    let dead := if fmt = 6 then (cols.filter (fun q => used q && elemBad bad fmt (w * l.nb + q))).map (fun q =>
      r / 32 * cols.length + q) else []
    { l with row := r + 1, weights := l.weights ++ codes, dead := l.dead ++ dead }

/-- The loader writes block scales of a plane, 128 of them in each step (R65, R69, R90, R210). -/
def loadScales (s : State) (c : CoreIx) (o : MatOp) (l : Loading) : Loading :=
  let b := o.cmd
  let cls := fmtClass (mmBFmt b)
  let w := 128 * cellWeights cls
  let (k, q0) := scaleStep cls (l.row - 128)
  let n := planeCols b l.nb
  let cols := (List.range (min 128 (n - q0))).map (fun i => q0 + i)
  if cols.isEmpty || decide (planeRows b l.kp ≤ 32 * k) then { l with row := l.row + 1 }
  else
    let (bs, bad) := objRead s c o.ctx (o.bScale + (4 * l.kp + k) * o.bScaleP) (mmN b)
    let x := cols.map (fun q =>
      if bad.contains ((w * l.nb + q) / 4 * 4) || l.dead.contains (k * n + q) then 0xFF else fieldAt bs (w * l.nb + q) 1)
    { l with row := l.row + 1, scales := l.scales ++ x }

/-! ### The activation feeder (R66 to R68) -/

/-- Stored row r of a block of the transpose buffer is read (R67, R90). -/
def blockRow (s : State) (c : CoreIx) (o : MatOp) (t : TBlock) (r : Nat) : List (Nat × Bool) :=
  let sz := fmtBits (mmAFmt o.cmd) / 8
  let q := blockRange o t r
  let (bs, bad) := objRead s c o.ctx q.1 q.2
  (List.range (q.2 / sz)).map (fun i => (fieldAt bs (sz * i) sz, bad.contains (sz * i / 4 * 4)))

/-- A block of the transpose buffer with its stored rows up to k read, as far as their data is here. -/
def TBlock.upTo (t : TBlock) (s : State) (c : CoreIx) (o : MatOp) (k : Nat) : TBlock :=
  let more := ((List.range (min k (planeRows o.cmd t.kp))).drop t.rows.length).takeWhile (fun r =>
    farHere s c o.ctx o.work (blockRanges o t r (r + 1)))
  { t with rows := t.rows ++ more.map (blockRow s c o t) }

/-- All stored rows of a block are read. -/
def TBlock.full (t : TBlock) (o : MatOp) : Bool := decide (planeRows o.cmd t.kp ≤ t.rows.length)

/-- The block is the one that the other half of the transpose buffer holds. -/
def sameBlock (a b : TBlock) : Bool := a.work == b.work && a.kp == b.kp && a.m == b.m

/-- The other half of the transpose buffer takes stored rows of a block up to k, asking for what lies in T3 and reading each once (R67,
R90, R210). -/
def State.fetchBlock (s : State) (c : CoreIx) (e : EngIx) (o : MatOp) (t : TBlock) (k : Nat) : State :=
  let old := match (s.eng c e).tnext with
    | some x => if sameBlock x t then some x else none
    | none => none
  let s1 := if old.isSome then s else s.fetchFar c o.ctx o.work (blockRanges o t 0 128)
  let from_ := old.getD t
  let new := from_.upTo s1 c o k
  (s1.consume c o.ctx e.val 0 o.cmd (blockRanges o t from_.rows.length new.rows.length)).modEng c e (fun g => { g with tnext := some new })

/-- The element codes and scales of row m of a NORMAL A for K pass kp, as the memory holds them now (R66, R90). -/
def readARow (s : State) (c : CoreIx) (o : MatOp) (m kp : Nat) : ARow :=
  let b := o.cmd
  let fmt := mmAFmt b
  let (bs, bad) := objRead s c o.ctx (mmABase b + m * mmAPitch b) (aRowBytes b)
  let sa := if isMx fmt then objRead s c o.ctx (mxBase o.mx 0 + m * mxPitch o.mx 0 + 4 * kp) 4 else ([], [])
  { codes := (List.range (planeRows b kp)).map (fun r => (elemCode bs fmt (128 * kp + r), elemBad bad fmt (128 * kp + r)))
    scales := sa.1, bad := !sa.2.isEmpty }

/-- Row m as a column of the block being injected (R67). -/
def TBlock.row (t : TBlock) (m : Nat) : ARow := { codes := t.rows.map (fun l => l.getD (m - t.m) (0, false)), scales := [], bad := false }

/-- The first row of an operation is fetched with its first plane load (R79): row 0 of a NORMAL A, or the first block of a TRANSPOSED one
up to stored row r, unless blocks of the operation before are still to be injected (R67). -/
def State.fetchFirst (s : State) (c : CoreIx) (e : EngIx) (o : MatOp) (kp r : Nat) : State :=
  let g := s.eng c e
  let busy := g.open_ && decide (g.inj < g.mj) && g.run.any (fun q => q.work != o.work && mmTransposed q.cmd)
  if mmTransposed o.cmd then (if busy then s else s.fetchBlock c e o ⟨o.work, kp, 0, []⟩ (r + 1))
  else if r = 0 && farHere s c o.ctx o.work (feedRanges o kp 0) then
    (s.consume c o.ctx e.val 0 o.cmd (feedRanges o kp 0)).modEng c e (fun k => { k with head := some (o.work, readARow s c o 0 kp) })
  else s

/-- One slot of the loader (R69, R71): a row, or 128 scales, once its data is here. -/
def State.loaderSlot (s : State) (c : CoreIx) (e : EngIx) : State :=
  let t := s.beginPlane c e
  let g := t.eng c e
  match g.loading with
  | none => t
  | some l =>
    match g.op l.work with
    | none => t
    | some o =>
      let cls := fmtClass (mmAFmt o.cmd)
      let rs := if l.row < 128 then weightRange o l.nb l.kp l.row else scaleRange o l.nb l.kp (l.row - 128)
      if 0 < l.wait then t.modEng c e (fun k => { k with loading := some { l with wait := l.wait - 1 } })
      else if planeLoadTime cls ≤ l.row || !(farHere t c o.ctx o.work rs) || (decide (l.row < 128) && decide (g.clk < rowFrom cls l.rel l.row)) then t
      else
        let u := (t.consume c o.ctx e.val 0 o.cmd rs).modEng c e (fun k =>
          { k with loading := some (if l.row < 128 then loadRow t c o l else loadScales t c o l) })
        if o.loads == 0 && decide (l.row < 128) then u.fetchFirst c e o l.kp l.row else u

/-- PLANE_LOAD (R69, R71, R82): the loader has written every row and scale of the plane of pass `kp` along K; it is
full. -/
def execPlaneLoad (c : CoreIx) (e : EngIx) (kp : BitVec 10) (s : State) : Out :=
  let g := s.eng c e
  match g.loading with
  | none => .next s
  | some l =>
    match g.op l.work with
    | none => .next s
    | some o =>
      act s (s.advances (partOf c) && l.kp == kp.toNat && decide (planeLoadTime (fmtClass (mmAFmt o.cmd)) ≤ l.row))
        ((s.modEng c e (fun k => ({ k with
            planes := k.planes.set l.plane (some { nb := l.nb, kp := l.kp, weights := l.weights, scales := l.scales })
            loading := none }).modOp l.work (fun q => { q with loads := q.loads + 1 }))).put
          (if l.plane = 0 then ENG.STATE_i.PLANE0_FULL c e else ENG.STATE_i.PLANE1_FULL c e) 1)

/-! ### The array and the drain -/

/-- The sums of a row of A against a plane: one for each valid column of the plane (R57, R68, R72, R84, R85, R98 to R100, R379). -/
def rowSums (o : MatOp) (pl : Plane) (a : ARow) : List Num :=
  let b := o.cmd
  let av := a.codes
  let fa := mmAFmt b
  let fb := mmBFmt b
  let mx := isMx fa
  let w := 128 * cellWeights (fmtClass fb)
  let cols := planeCols b pl.nb
  let valid := min cols (o.nv - w * pl.nb)
  let ea := if mx then mxElem fa (mmAE5 b) else fmtOf fa
  let eb := if mx then mxElem fb (mmBE5 b) else fmtOf fb
  let as := av.map (fun p => if p.2 && fa != 6 then Num.nan else decodeFmt ea p.1)
  let rows := planeRows b pl.kp
  let cell := fun (q r : Nat) =>
    if 128 * pl.kp + r < o.kv then some (as.getD r .zero, decodeFmt eb (pl.weights.getD (r * cols + q) 0)) else none
  (List.range valid).map (fun q =>
    if mx then
      (List.range 4).foldl (fun p k =>
        let rs := (List.range 32).map (fun i => if 32 * k + i < rows then cell q (32 * k + i) else none)
        let dead := a.bad || (fa == 6 && (List.range 32).any (fun i => (av.getD (32 * k + i) (0, false)).2))
        columnBlock rs (if dead then 0xFF else fieldAt a.scales k 1) (pl.scales.getD (k * cols + q) 0)
          (decide (o.kv ≤ 128 * pl.kp + 32 * k)) p) Num.zero
    else columnPlain ((List.range 128).map (cell q)) Num.zero)

/-- What the drain makes of neighbouring sums of a row on its last K pass (R74, R95, R96, R101, R104, R107): binary32 sums of the
columns from n0 on. -/
def State.drainRow (s : State) (c : CoreIx) (o : MatOp) (m n0 : Nat) (sums : List Num) : State :=
  let b := o.cmd
  let fc := mmCFmt b
  let entry := if mmCDesc b then 0 else mmCEntry b
  let vs := sums.map (fun v => v.scale o.eIn)
  let at_ := o.cBase + m * o.cPitch
  if mmAccumulate b then
    let out := vs.map (fun v => roundFmt fmtB32 v)
    let s1 := (List.range out.length).foldl (fun t q =>
      t.objAdd c o.ctx (at_ + 4 * (n0 + q)) (out.getD q (0, {})).1) s
    s1.capture c entry (amaxCode (out.map (fun p => f32 p.1))) (out.map Prod.snd)
  else if fc = 5 then
    let f := mxElem 5 (mmCE5 b)
    (List.range (ceilDiv vs.length 32)).foldl (fun t k =>
      let blk := (vs.drop (32 * k)).take 32
      let (x, out) := mxWrite f (mxEmax f) blk
      let t1 := t.objStore c o.ctx (at_ + n0 + 32 * k) (codesBytes 5 (out.map Prod.fst))
      let t2 := t1.objStore c o.ctx (mxBase o.mx 2 + m * mxPitch o.mx 2 + (n0 + 32 * k) / 32) (toLE 1 x)
      t2.capture c entry (amaxCode blk) (out.map Prod.snd)) s
  else s.writeRow c o.ctx (at_ + n0 * (fmtBits fc / 8)) fc o.eC entry vs

/-- The byte ranges that the drain writes for row m of a plane's columns. -/
def drainRanges (o : MatOp) (m n0 cols : Nat) : List (Nat × Nat) :=
  let sz := fmtBits (mmCFmt o.cmd) / 8
  if cols = 0 then []
  else (o.cBase + m * o.cPitch + n0 * sz, cols * sz)
    :: (if mmCFmt o.cmd = 5 then [(mxBase o.mx 2 + m * mxPitch o.mx 2 + n0 / 32, ceilDiv cols 32)] else [])

/-- The first logical column of a pass's plane. -/
def passCol (o : MatOp) (p : PassSt) : Nat := 128 * cellWeights (fmtClass (mmBFmt o.cmd)) * p.nb

/-- Neighbouring columns of C that the drain finishes together: those of one 32-bit word, or of one MX block (R94, R96). -/
def drainGroup (o : MatOp) : Nat :=
  if mmAccumulate o.cmd then 1 else if mmCFmt o.cmd = 5 then 32 else 32 / fmtBits (mmCFmt o.cmd)

/-- The sum of logical column q of a row, with what the drain store holds of it (R74). -/
def sumOf (store : Sparse Nat) (r : PipeRow) (q : Nat) : Nat :=
  if r.pass.first then r.sums.getD q 0 else addCode (Sparse.get store (1024 * r.i + q) 0) (r.sums.getD q 0)

/-- The result of logical column q of a row leaves the drain (R74): stored, or, with the last column of its group, finished. -/
def State.takeCol (s : State) (c : CoreIx) (e : EngIx) (o : MatOp) (r : PipeRow) (q : Nat) : State :=
  let store := (s.eng c e).store
  if !r.pass.last then s.modEng c e (fun k => { k with store := Sparse.insert k.store (1024 * r.i + q) (sumOf store r q) })
  else
    let k := drainGroup o
    if (q + 1) % k = 0 ∨ q + 1 = r.sums.length then
      (s.writes c o.work).drainRow c o (r.pass.m0 + r.i) (passCol o r.pass + q / k * k)
        ((List.range (q % k + 1)).map (fun i => f32 (sumOf store r (q / k * k + i))))
    else s

/-- The results of a row that leave the drain in a slot: those of one physical column, the weights of a cell in order (R58, R79). -/
def State.takeCols (s : State) (c : CoreIx) (e : EngIx) (o : MatOp) (r : PipeRow) (clk : Nat) : State :=
  ((List.range (cellWeights (fmtClass (mmBFmt o.cmd)))).map (fun i => clk - r.due + 128 * i)).foldl (fun t q =>
    if q < r.sums.length then t.takeCol c e o r q else t) s

/-- The drain begins to write a row: its wet pages and queue room are claimed (R161, R164), and the lines that it covers whole count as
filled without a read of the dry page (R161). -/
def State.beginRow_ (s : State) (c : CoreIx) (o : MatOp) (r : PipeRow) : Got :=
  if !r.pass.last then .ok s
  else
    let rs := drainRanges o (r.pass.m0 + r.i) (passCol o r.pass) r.sums.length
    match claimRanges c o.ctx rs s with
    | .ok t => .ok (if mmAccumulate o.cmd then t else rs.foldl (fun u q => u.coverLines c o.ctx q.1 q.2) t)
    | x => x

/-- One slot of the drain (R74, R75, R79): of every row on its way the results of one column leave; a row that must wait for a wet page
holds the array (R82). -/
def State.drainSlot (s : State) (c : CoreIx) (e : EngIx) : State :=
  let g := s.eng c e
  let now := (g.pipe.filter (fun r => decide (r.due ≤ g.clk))).filterMap (fun r => (g.op r.pass.work).map (fun o => (o, r)))
  let go := fun (u : State) => (now.foldl (fun t x => t.takeCols c e x.1 x.2 g.clk) u).modEng c e (fun k =>
    { k with pipe := k.pipe.filter (fun r => decide (g.clk < r.due + 127)) })
  if now.isEmpty then s
  else match now.find? (fun x => x.2.due == g.clk) with
    | none => go s
    | some (o, r) =>
      (match s.beginRow_ c o r with
      | .wait u => u.modEng c e (fun k => { k with held := true })
      | x => x.run c go)

/-- The block that comes after the one being injected: of the rest of the pass, or of the next pass (R67). -/
def nextBlock (g : Eng) (p : PassSt) : Option (MatOp × TBlock) :=
  let m := p.m0 + g.inj / 128 * 128 + 128
  if m < p.m0 + p.rows then
    match g.op p.work with
    | some o => some (o, ⟨p.work, p.kp, m, []⟩)
    | none => none
  else match passOp g with
    | none => none
    | some (_, o) => if mmTransposed o.cmd then some (o, ⟨o.work, o.kps.getD o.j 0, passBase o o.j, []⟩) else none

/-- The block of a row that starts one goes to the half being injected once it is complete (R67). -/
def State.turnBlock (s : State) (c : CoreIx) (e : EngIx) (o : MatOp) (p : PassSt) (i : Nat) : State :=
  let b : TBlock := ⟨p.work, p.kp, p.m0 + i / 128 * 128, []⟩
  if i % 128 = 0 && !((s.eng c e).tcur.any (fun x => sameBlock x b)) then
    let t := s.fetchBlock c e o b 128
    match (t.eng c e).tnext with
    | some x => if x.full o then t.modEng c e (fun g => { g with tcur := some x, tnext := none }) else t
    | none => t
  else s

/-- During the injection of a block the next one is read (R67). -/
def State.readAhead (s : State) (c : CoreIx) (e : EngIx) (p : PassSt) (i : Nat) : State :=
  match nextBlock (s.eng c e) p with
  | some (o, t) => s.fetchBlock c e o t (128 * (i % 128 + 1) / min 128 (p.rows - i / 128 * 128))
  | none => s

/-- The feeder fetches the row that is to be injected (R66, R67, R90): none while its data has not come from T3. -/
def State.fetchRow (s : State) (c : CoreIx) (e : EngIx) (o : MatOp) (p : PassSt) (i : Nat) : Option (ARow × State) :=
  let m := p.m0 + i
  if mmTransposed o.cmd then
    let t := s.turnBlock c e o p i
    match (t.eng c e).tcur with
    | some x => if sameBlock x ⟨p.work, p.kp, p.m0 + i / 128 * 128, []⟩ then some (x.row m, t.readAhead c e p i) else none
    | none => none
  else match (s.eng c e).head with
    | some (w, a) =>
      if w = p.work && o.j == 1 && i == 0 then some (a, s.modEng c e (fun k => { k with head := none }))
      else if farHere s c o.ctx o.work (feedRanges o p.kp m) then
        some (readARow s c o m p.kp, s.consume c o.ctx e.val 0 o.cmd (feedRanges o p.kp m))
      else none
    | none =>
      if farHere s c o.ctx o.work (feedRanges o p.kp m) then
        some (readARow s c o m p.kp, s.consume c o.ctx e.val 0 o.cmd (feedRanges o p.kp m))
      else none

/-- One slot of the feeder (R66, R68, R91): a row of the pass is injected and counted; its result of column j leaves the drain
drainTail − 127 + j slots later (R78, R79), the last at t − 1. A row that is not here holds the array, for data in T3 (R82). -/
def State.feedSlot (s : State) (c : CoreIx) (e : EngIx) : State :=
  let g := s.eng c e
  match g.pass with
  | none => s
  | some p =>
    if g.open_ && decide (g.inj < g.mj) then
      match g.op p.work, g.planes.getD g.active none with
      | some o, some pl =>
        match s.fetchRow c e o p g.inj with
        | none =>
          let t := if mmTransposed o.cmd then s.turnBlock c e o p g.inj else s
          (t.idleAdd c e 1 1).modEng c e (fun k => { k with held := true })
        | some (a, s1) =>
          let s2 := (s1.modEng c e (fun k => { k with
              inj := k.inj + 1
              pipe := if p.m0 + g.inj < mmMv o.cmd then
                  k.pipe ++ [⟨g.clk + drainTail (fmtClass (mmAFmt o.cmd)) - 127, p, g.inj, (rowSums o pl a).map to32⟩]
                else k.pipe })).bump (ENG.STREAM_i.ACLK c e) 1
          if g.inj + 1 = g.mj then s2.bump (ENG.PASSES_i.COUNT c e) 1 else s2
      | _, _ => s
    else s

/-- The drains of a core's engines in an open slot, unless their arrays hold: they write before any engine reads (R202), the engines in rising
order (R102; log entry 160). -/
def State.drainSlots (s : State) (c : CoreIx) : State :=
  upTo 8 (fun e t => if (t.eng c (toEng e)).run.isNone || (t.eng c (toEng e)).held then t else t.drainSlot c (toEng e)) s

/-- An open slot of an engine behind its drain (R66 to R75, R82, R91): the loader goes on; unless the array holds, a row is injected, and
the array's clock moves; the swap token of a pass reaches cell (0, 0) two steps of that clock after its start. -/
def State.engSlot (s : State) (c : CoreIx) (e : EngIx) : State :=
  if (s.eng c e).run.isNone then s
  else
    let s1 := s.loaderSlot c e
    let s2 := if (s1.eng c e).held then s1 else s1.feedSlot c e
    let s3 := if (s2.eng c e).run.isNone || (s2.eng c e).held then s2 else s2.modEng c e (fun k => { k with clk := k.clk + 1 })
    let g := s3.eng c e
    let s4 := s3.modEng c e (fun k => { k with held := false, late := false })
    if g.open_ && decide (g.sj + 2 ≤ g.clk) then s4.put (ENG.STATE_i.ACTIVE_PLANE c e) g.active else s4

/-! ### Passes, holds and completion -/

/-- The next pass of an operation may start in this slot (R78, R81, R82, R83). -/
def passReady (g : Eng) (o : MatOp) (slot : Nat) : Bool :=
  let cls := fmtClass (mmAFmt o.cmd)
  if o.j = 0 ∧ !o.chained then decide (o.start + 4 + planeLoadTime cls + o.far ≤ slot)
  else if o.j = 1 ∧ !o.chained then decide (g.sj + max g.mj (planeLoadTime cls) ≤ g.clk)
  else decide (g.sj + max g.mj (intervalMin cls) ≤ g.clk)

/-- PASS_START (R70, R76, R78, R90): the next pass starts in this slot; its plane becomes active, the plane of the pass before is
released, and what of its rows lies in T3 is asked for. ENG.BUBBLE_i leaves out holds and late starts alike (R91; log entry 161). -/
def execPassStart (c : CoreIx) (e : EngIx) (s : State) : Out :=
  let g := s.eng c e
  let n := partOf c
  match passOp g with
  | none => .next s
  | some (pend, o) =>
    let b := o.cmd
    let nb := (pairOf b o.j).1
    let i := 1 - g.active
    match g.planes.getD i none with
    | none => .next s
    | some pl =>
      let kIdx := o.j % kPasses b
      let m0 := passBase o o.j
      let rows := passRows o o.j
      let p : PassSt := { work := o.work, kp := pl.kp, m0 := m0, rows := rows, nb := nb, first := kIdx == 0, last := kIdx + 1 == kPasses b }
      let o' := { o with
        j := o.j + 1
        s1 := if o.j = 0 then s.slot n else o.s1
        sP := s.slot n
        mP := rows
        t := if o.j + 1 = pTotal b then some (g.clk + rows + drainTail (fmtClass (mmAFmt b))) else none }
      let t := if o.j = 0 then s else s.fetchFar c o.ctx o.work (passRanges o pl.kp m0 rows)
      act s (s.advances n && o.started && pl.nb == nb && passReady g o (s.slot n))
        (((t.bump (ENG.BUBBLE_i.ACLK c e) (if g.open_ then g.clk - g.sj - g.mj - g.holds else 0)).modEng c e (fun k =>
          ({ k with
              planes := k.planes.set (1 - i) (if o.j = 0 ∧ !o.chained then k.planes.getD (1 - i) none else none)
              active := i
              sj := k.clk
              mj := rows
              holds := 0
              open_ := true
              pass := some p
              inj := 0
              released := !(o.j = 0 ∧ !o.chained) }).putOp pend o')).put (ENG.STATE_i.PASS c e) (min 65535 (o.j + 1)))

/-- The array has something to move: rows to inject or to drain (R82). -/
def arrayMoves (g : Eng) : Bool := (g.open_ && decide (g.inj < g.mj)) || !g.pipe.isEmpty

/-- A pass is late (R82): R78 would start it now, and its plane is not complete. `bubble`: it is the first of a chained operation, whose
lateness counts in ENG.BUBBLE_i alone (R83). -/
def lateStart (s : State) (c : CoreIx) (g : Eng) : Option Bool :=
  match passOp g with
  | none => none
  | some (_, o) =>
    if o.started && passReady g o (s.slot (partOf c)) && (g.planes.getD (1 - g.active) none).isNone then some (o.chained && o.j == 0) else none

/-- ARRAY_HOLD (R82, R83): one aclk of a hold, or of a late pass start, whose missing data lies in a tier. ENG.BUBBLE_i leaves out both
(R91; log entry 161). -/
def execArrayHold (c : CoreIx) (e : EngIx) (tier : BitVec 2) (late : Bool) (s : State) : Out :=
  let g := s.eng c e
  let count := fun (t : State) => if tier = 0 then t.bump (ENG.HOLD_i.ACLK c e) 1 else t.idleAdd c e 1 1
  let busy := match g.run with | some o => o.started | none => false
  if s.advances (partOf c) && busy then
    if late then
      match lateStart s c g with
      | some false => act s (!g.late) (count (s.modEng c e (fun k => { k with holds := k.holds + 1, late := true })))
      | _ => .next s
    else act s (arrayMoves g && !g.held) (count (s.modEng c e (fun k => { k with held := true })))
  else .next s

/-- Ragged idle of a completed operation (R86): B runs from s_1 to the end of the last pass's injection. -/
def raggedIdle (o : MatOp) : Nat :=
  let full := mmM o.cmd * mmN o.cmd * mmK o.cmd
  (o.sP + o.mP - o.s1) * (full - mmMv o.cmd * o.nv * o.kv) / full

/-- OPERATION_COMPLETE (R78, R86, R91): t is reached; the sequencer sees it 4 aclk later, and a pending operation takes over: at once
where it is chained, else with its engine start here (R83). ENG.STATE_i.PASS keeps the last index until the next pass (log entry 136). -/
def execOperationComplete (c : CoreIx) (e : EngIx) (s : State) : Out :=
  let g := s.eng c e
  let n := partOf c
  match g.run with
  | none => .next s
  | some o =>
    match o.t with
    | none => .next s
    | some t =>
      if s.advances n && decide (t ≤ g.clk) && !(g.pipe.any (fun r => r.pass.work == o.work)) then
        let s2 := (s.bump (ENG.OPS_i.COUNT c e) 1).idleAdd c e 8 (raggedIdle o)
        let nxt := g.pend.map (fun q => if q.chained then q else { q with start := s.slot n, started := false })
        let chain := match g.pend with | some q => q.chained | none => false
        let s3 := s2.modEng c e (fun k =>
          { k with run := nxt, pend := none, open_ := k.open_ && chain, finish := k.finish ++ [(o.work, s.slot n + 4)] })
        .next (if nxt.isSome then s3 else (s3.put (ENG.STATE_i.BUSY c e) 0).put (ENG.STATE_i.PASS c e) 0)
      else .next s

/-- ENGINE_COMPLETION (R53, R78, R148): 4 aclk after t the sequencer sees the operation complete. -/
def execEngineCompletion (c : CoreIx) (e : EngIx) (s : State) : Out :=
  match (s.eng c e).finish with
  | [] => .next s
  | (w, due) :: r =>
    act s (s.advances (partOf c) && decide (due ≤ s.slot (partOf c)))
      ((s.modEng c e (fun k => { k with finish := r })).completeWork c w)

/-- ENGINE_READY (R89): 16 aclk after a kill the engine accepts a dispatch. -/
def execEngineReady (c : CoreIx) (e : EngIx) (s : State) : Out :=
  act s (s.advances (partOf c) && decide ((s.eng c e).ready ≤ s.slot (partOf c)) && (s.eng c e).ready != 0)
    (s.modEng c e (fun k => { k with ready := 0 }))

end Sys2Proof.Machine
end

