-- ==== Sys2Proof/Machine/RowEngine.lean ====
section
/-! DEFINITION. Machine/RowEngine.lean: ROWOP and its completion (R118 to R125, R153, R154). -/

namespace Sys2Proof.Machine

/-! ### ROWOP's fields (R153) -/

def roX (b : List Byte) : Nat := fieldAt b 0x08 8
def roY (b : List Byte) : Nat := fieldAt b 0x10 8
def roIn2 (b : List Byte) : Nat := fieldAt b 0x18 8
def roOut2 (b : List Byte) : Nat := fieldAt b 0x20 8
def roParam (b : List Byte) : Nat := fieldAt b 0x28 8
def roRows (b : List Byte) : Nat := fieldAt b 0x30 2
def roOp (b : List Byte) : Nat := cmdBits b 0x30 4 19 16
def roFunc (b : List Byte) : Nat := cmdBits b 0x30 4 21 20
def roCausal (b : List Byte) : Bool := cmdBits b 0x30 4 22 22 == 1
def roMargAddr (b : List Byte) : Bool := cmdBits b 0x30 4 23 23 == 1
def roIn (b : List Byte) : Nat := cmdBits b 0x30 4 26 24
def roOut (b : List Byte) : Nat := cmdBits b 0x30 4 29 27
def roE5 (b : List Byte) : Bool := cmdBits b 0x30 4 30 30 == 1
def roD (b : List Byte) : Nat := 16 * (cmdBits b 0x34 4 11 0 + 1)
def roK (b : List Byte) : Nat := cmdBits b 0x34 4 14 12 + 1
def roDv (b : List Byte) : Nat := cmdBits b 0x34 4 31 16 + 1
def roMarg (b : List Byte) : Nat := cmdBits b 0x38 4 17 0

/-! ### The parameter block (R154) -/

def rpGamma (p : List Byte) : Nat := fieldAt p 0x00 8
def rpBeta (p : List Byte) : Nat := fieldAt p 0x08 8
def rpDGamma (p : List Byte) : Nat := fieldAt p 0x10 8
def rpDBeta (p : List Byte) : Nat := fieldAt p 0x18 8
def rpMarg (p : List Byte) : Nat := fieldAt p 0x20 8
def rpShard (p : List Byte) : Nat := fieldAt p 0x28 8
def rpXPitch (p : List Byte) : Nat := 64 * fieldAt p 0x30 2
def rpYPitch (p : List Byte) : Nat := 64 * fieldAt p 0x32 2
def rpIn2Pitch (p : List Byte) : Nat := 64 * fieldAt p 0x34 2
def rpOut2Pitch (p : List Byte) : Nat := 64 * fieldAt p 0x36 2
def rpS (p : List Byte) : Num := f32 (fieldAt p 0x38 4)
def rpEps (p : List Byte) : Num := f32 (fieldAt p 0x3C 4)
def rpOff (p : List Byte) : Int := let w := fieldAt p 0x40 4; if w < 2 ^ 31 then w else (w : Int) - 2 ^ 32
def rpXEntry (p : List Byte) : Nat := bits (fieldAt p 0x44 4) 12 0
def rpYEntry (p : List Byte) : Nat := bits (fieldAt p 0x44 4) 25 13
def rpGB16 (p : List Byte) : Bool := bit (fieldAt p 0x44 4) 26
def rpIn2Entry (p : List Byte) : Nat := bits (fieldAt p 0x48 4) 12 0
def rpOut2Entry (p : List Byte) : Nat := bits (fieldAt p 0x48 4) 25 13
def rpExtra (p : List Byte) : Nat := fieldAt p 0x50 8
def rpExtraPitch (p : List Byte) : Nat := 64 * fieldAt p 0x58 2
def rpExtraEntry (p : List Byte) : Nat := bits (fieldAt p 0x58 4) 28 16

/-! ### What an operation needs (R119, R153, R154) -/

/-- Kinds by OP: LN, RMS, SM groups of three; 9 to 12 activations; 13, 14 top-k. -/
def isFwd (op : Nat) : Bool := op == 0 || op == 3 || op == 6 || op == 13
/-- Writes marginalia. -/
def writesMarg (op : Nat) : Bool := isFwd op
/-- Reads marginalia. -/
def readsMarg (op : Nat) : Bool := op == 1 || op == 2 || op == 4 || op == 5 || op == 7 || op == 8 || op == 14
/-- OP of a marginalia record (R123): 1 LN, 2 RMS, 3 SM, 4 TOPK. -/
def margOp (op : Nat) : Nat := if op ≤ 2 then 1 else if op ≤ 5 then 2 else if op ≤ 8 then 3 else 4
/-- Takes IN2. -/
def usesIn2 (op : Nat) : Bool := op == 2 || op == 5 || op == 8 || op == 10 || op == 11 || op == 12 || op == 14
/-- Takes EXTRA. -/
def usesExtra (op : Nat) : Bool := op == 12 || op == 14
/-- Writes OUT2. -/
def usesOut2 (op : Nat) : Bool := op == 12 || op == 13
/-- Takes γ. -/
def usesGamma (op : Nat) : Bool := decide (op ≤ 5)
/-- Takes β. -/
def usesBeta (op : Nat) : Bool := op == 0 || op == 1
/-- Writes dγ; writes dβ. -/
def usesDGamma (op : Nat) : Bool := op == 2 || op == 5
def usesDBeta (op : Nat) : Bool := op == 2

/-- Elements of a row of each tensor: top-k rows hold k gates or indices (R122). K_M1 gives k to TOPK_BWD too (log entry 172). -/
def xWidth (b : List Byte) : Nat := roD b
def yWidth (b : List Byte) : Nat := if roOp b = 13 then roK b else roD b
def in2Width (b : List Byte) : Nat := if roOp b = 14 then roK b else roD b
def out2Bytes (b : List Byte) : Nat := if roOp b = 13 then 2 * roK b else rowBytes (roOut b) (roD b)
def extraBytes (b : List Byte) : Nat := if roOp b = 14 then 2 * roK b else rowBytes (roIn b) (roD b)

/-- t_row of R120, for groups k_sel of the operation. -/
def rowTime (b : List Byte) : Nat :=
  let op := roOp b
  let w := ceilDiv (roD b) 64
  let sweeps := if op == 0 || op == 2 || op == 3 || op == 5 || op == 6 || op == 8 then 2 else 1
  let red := if op == 0 || op == 2 || op == 3 || op == 5 || op == 6 || op == 8 || op == 13 || op == 14 then 1 else 0
  let ksel := if op = 13 then roK b else 0
  40 + roRows b * (sweeps * w + 6 * red + 2 * ksel) + (if usesDGamma op || usesDBeta op then 2 * w else 0)

/-- The ranges of a ROWOP's tensors: address, length, written (R153, R154). -/
def rowRanges (b p : List Byte) : List (Nat × Nat × Bool) :=
  let op := roOp b
  let r := roRows b
  let gb := rowBytes (if rpGB16 p then 1 else 0) (roD b)
  [(roX b, spanLen r (rpXPitch p) (rowBytes (roIn b) (xWidth b)), false),
   (roY b, spanLen r (rpYPitch p) (rowBytes (roOut b) (yWidth b)), true)]
  ++ (if usesIn2 op then [(roIn2 b, spanLen r (rpIn2Pitch p) (rowBytes (roIn b) (in2Width b)), false)] else [])
  ++ (if usesOut2 op then [(roOut2 b, spanLen r (rpOut2Pitch p) (out2Bytes b), true)] else [])
  ++ (if usesExtra op then [(rpExtra p, spanLen r (rpExtraPitch p) (extraBytes b), false)] else [])
  ++ (if usesGamma op then [(rpGamma p, gb, false)] else [])
  ++ (if usesBeta op then [(rpBeta p, gb, false)] else [])
  ++ (if usesDGamma op then [(rpDGamma p, 4 * roD b, true)] else [])
  ++ (if usesDBeta op then [(rpDBeta p, 4 * roD b, true)] else [])
  ++ (if roMargAddr b && (writesMarg op || readsMarg op) then [(rpMarg p, 16 * r, writesMarg op)] else [])

/-- Scale bytes of an MXFP8 output: R96 writes them after the elements of each row, at the row's end (log entry 32). -/
def mxTail (b : List Byte) : Nat := roD b

/-- The first breach of a ROWOP's own fields (R149, R153). -/
def rowBreach (b : List Byte) : Option (Nat × Nat) :=
  firstBreach [
    (headerOk b && zeroBits (fieldAt b 0x30 4) 31 31 && zeroBits (fieldAt b 0x34 4) 15 15
      && zeroBits (fieldAt b 0x38 4) 31 18 && zeroBytes b 0x3C 0x40, 0, 1),
    (roRows b != 0 && roOp b != 15, 0, 7),
    (roParam b % 64 == 0, roParam b, 7),
    (decide (roIn b ≤ 4) && decide (roOut b ≤ 5), 0, 7),
    (decide (roDv b ≤ roD b), 0, 7)]

/-- The first breach that the parameter block shows (R103, R118, R122, R123, R143, R154). A record address in object space that is no
multiple of 16 is one (log entry 162). -/
def paramBreach (s : State) (c : CoreIx) (ctx : Nat) (b p : List Byte) : Option (Nat × Nat) :=
  let n := partOf c
  let op := roOp b
  let sh := rpShard p
  let (_, _, _, vc, _, vg) := shardAt s c ctx sh
  let dv := if sh = 0 then roDv b else vc
  let groups := if sh = 0 then dv else min dv vg
  let need := fun (use : Bool) (a : Nat) => !use || a != 0
  firstBreach [
    (zeroBits (fieldAt p 0x44 4) 31 27 && zeroBits (fieldAt p 0x48 4) 31 26 && zeroBytes p 0x4C 0x50
      && zeroBits (fieldAt p 0x58 4) 31 29 && zeroBytes p 0x5C 0x80, roParam b, 1),
    (need true (roX b) && need true (roY b) && need (usesIn2 op) (roIn2 b) && need (usesOut2 op) (roOut2 b)
      && need (usesExtra op) (rpExtra p) && need (usesGamma op) (rpGamma p) && need (usesBeta op) (rpBeta p)
      && need (usesDGamma op) (rpDGamma p) && need (usesDBeta op) (rpDBeta p), roParam b, 7),
    (s.scaleOk n (rpXEntry p) && s.scaleOk n (rpYEntry p) && (!usesIn2 op || s.scaleOk n (rpIn2Entry p))
      && (!usesOut2 op || s.scaleOk n (rpOut2Entry p)) && (!usesExtra op || s.scaleOk n (rpExtraEntry p)), 0, 4),
    (!(writesMarg op || readsMarg op) || roMargAddr b || decide (roMarg b + roRows b ≤ 262144), 0, 4),
    (!(roMargAddr b && (writesMarg op || readsMarg op)) || rpMarg p % 16 == 0, rpMarg p, 7),
    (sh == 0 || shardOk s c ctx sh, sh, 7),
    (decide (1 ≤ dv) && decide (dv ≤ roD b), sh, 7),
    (op != 13 || (decide (roK b ≤ dv) && decide (dv ≤ 256) && decide (roK b ≤ groups)), sh, 7)]

/-- The marginalia record of row i as an operation finds it: STAT0, STAT1, TAG, OP, VALID, WET (R123). -/
def margOf (s : State) (c : CoreIx) (ctx : Nat) (b p : List Byte) (i : Nat) : Nat × Nat × Nat × Nat × Bool × Bool :=
  if roMargAddr b then
    let w := objLE s c ctx (rpMarg p + 16 * i) 16
    (bits w 31 0, bits w 63 32, bits w 79 64, bits w 83 80, bit w 84, bit w 85)
  else match Sparse.find? (s.core c).marg (roMarg b + i) with
    | some r => (r.stat0, r.stat1, r.tag, r.op, true, r.wet)
    | none => (0, 0, 0, 0, false, false)

/-- A read of row i's record succeeds (R125). -/
def margReadOk (s : State) (c : CoreIx) (g : Seg) (b p : List Byte) (i : Nat) : Bool :=
  let (_, _, tag, op, valid, wet) := margOf s c g.ctx b p i
  valid && (!wet || (!roMargAddr b && g.margs.contains (roMarg b + i))) && op == margOp (roOp b) && tag == g.mbTag

/-- A marginalia fault (R125). -/
def State.margFault (s : State) (c : CoreIx) (g : Seg) (b p : List Byte) : State :=
  let a := if roMargAddr b then rpMarg p else roMarg b
  ((s.flag (TRN.EVENTS_n.MARG_INVALID (partOf c)) 1).raise (s.cmdRecord c g.ctx 0x11 a 0)).killSeg c 5

/-- ROWOP (R119, R147, R153): checked, its marginalia checked where it reads them, and dispatched to the row engine. -/
def execRowop (c : CoreIx) (s : State) : Out := s.meanwhile c fun s =>
  match ready s c 0x12 with
  | none => .next s
  | some (g, b) =>
    if (s.core c).rowEng.isSome then .next s
    else .next (checked s c g.ctx (rowBreach b) [(roParam b, 128, false)] [] (fun s' =>
      withRemote s' c ((s'.seg c).getD g) [(roParam b, 128)] (fun s'' =>
      checked s'' c g.ctx none [] [(roParam b, 128)] (fun t =>
      let p := (objRead t c g.ctx (roParam b) 128).1
      let sh := rpShard p
      let shr := if sh = 0 then [] else [(sh, 16)]
      checked t c g.ctx none (if sh = 0 then [] else [(sh, 16, false)]) [] (fun t' =>
      withRemote t' c ((t'.seg c).getD g) shr (fun t'' => checked t'' c g.ctx none [] shr (fun t =>
        let (_, _, _, vc, _, vg) := shardAt t c g.ctx sh
        let dv := if sh = 0 then roDv b else vc
        checked t c g.ctx (paramBreach t c g.ctx b p) (rowRanges b p) [] (fun u' =>
        withRemote u' c ((u'.seg c).getD g) (if readsMarg (roOp b) && roMargAddr b then [(rpMarg p, 16 * roRows b)] else []) (fun u =>
          if readsMarg (roOp b) && !((List.range (roRows b)).all (margReadOk u c g b p)) then u.margFault c g b p
          else
            let op : RowOp := { work := g.nextId, cmd := b, param := p, dv := dv,
                                groups := if sh = 0 then dv else min dv vg, due := u.slot (partOf c) + rowTime b }
            let v := u.modCore c (fun k => { k with rowEng := some op })
            let reads := (rowRanges b p).filter (fun q => !q.2.2)
            (v.needRemote c 1 g.nextId
              (reads.flatMap (fun q => chartRanges v c g.ctx (pageCount q.1 q.2.1) q.1 q.2.1))).issueCmd c g b false)))))))))

/-! ### The arithmetic of a row (R119, R122), every intermediate rounded to binary32 (R118) -/

/-- x / k for a count k. -/
def meanOf (l : List Num) : Num := div32N (sumRow l) (.ofNat l.length)

/-- Constants in binary32. -/
def c7978 : Num := f32 0x3F4C422A
def c0447 : Num := f32 0x3D372713
def half : Num := f32 0x3F000000

/-- f of ACT (R119): GELU in tanh form, SiLU, ReLU, sigmoid. -/
def actF (f : Nat) (x : Num) : Num :=
  if f = 0 then
    let u := mul32N c7978 (add32N x (mul32N c0447 (mul32N x (mul32N x x))))
    mul32N (mul32N half x) (add32N .one (tanhN u))
  else if f = 1 then mul32N x (sigmaN x)
  else if f = 2 then (if x.isNan then .nan else if ltN x .zero then .zero else x)
  else sigmaN x

/-- f′ of ACT (R119); f′ of ReLU at 0 is 0. -/
def actD (f : Nat) (x : Num) : Num :=
  if f = 0 then
    let x2 := mul32N x x
    let u := mul32N c7978 (add32N x (mul32N c0447 (mul32N x x2)))
    let t := tanhN u
    let du := mul32N c7978 (add32N .one (mul32N (mul32N (.ofNat 3) c0447) x2))
    add32N (mul32N half (add32N .one t))
      (mul32N (mul32N (mul32N half x) (sub32N .one (mul32N t t))) du)
  else if f = 1 then
    let g := sigmaN x
    mul32N g (add32N .one (mul32N x (sub32N .one g)))
  else if f = 2 then (if x.isNan then .nan else if ltN .zero x then .one else .zero)
  else let g := sigmaN x; mul32N g (sub32N .one g)

/-- What one row gives: Y, OUT2, marginalia, terms of dγ and dβ. -/
structure RowOut where
  y    : List Num := []
  out2 : List Num := []
  idx  : List Nat := []
  stat : Num × Num := (.zero, .zero)
  dg   : List Num := []
  db   : List Num := []

/-- Elements a row keeps: the causal mask of R119. -/
def masked (b p : List Byte) (row j : Nat) : Bool :=
  (roOp b == 6 || roOp b == 7 || roOp b == 8) && roCausal b && decide ((row : Int) + rpOff p < j)

/-- x̂ of LN and RMS. -/
def hat (op : Nat) (m r x : Num) : Num := if op ≤ 2 then mul32N (sub32N x m) r else mul32N x r

/-- A row of LN or RMS, forward or recomputed: statistics m and r (R119). -/
def normFwd (op : Nat) (xs gs bs : List Num) (m r : Num) : RowOut :=
  let y := (List.range xs.length).map (fun j =>
    let h := mul32N (hat op m r (xs.getD j .zero)) (gs.getD j .zero)
    if op ≤ 2 then add32N h (bs.getD j .zero) else h)
  { y := y, stat := (m, r) }

/-- The statistics of LN and RMS (R119). -/
def normStats (op : Nat) (xs : List Num) (eps : Num) : Num × Num :=
  if op ≤ 2 then
    let m := meanOf xs
    let v := meanOf (xs.map (fun x => let d := sub32N x m; mul32N d d))
    (m, rsqrtN (add32N v eps))
  else (.zero, rsqrtN (add32N (meanOf (xs.map (fun x => mul32N x x))) eps))

/-- A row of LN_BWD or RMS_BWD (R119). -/
def normBwd (op : Nat) (xs dys gs : List Num) (m r : Num) : RowOut :=
  let hs := xs.map (hat op m r)
  let at_ := fun (l : List Num) (j : Nat) => l.getD j .zero
  let js := List.range xs.length
  let dh := js.map (fun j => mul32N (at_ dys j) (at_ gs j))
  let a := meanOf dh
  let bb := meanOf (js.map (fun j => mul32N (at_ dh j) (at_ hs j)))
  let dx := js.map (fun j =>
    let t := if op ≤ 2 then sub32N (at_ dh j) a else at_ dh j
    mul32N r (sub32N t (mul32N (at_ hs j) bb)))
  { y := dx, dg := js.map (fun j => mul32N (at_ dys j) (at_ hs j)), db := dys }

/-- y of softmax from L: exp (s·x − L), a masked element being −infinity (R119). -/
def smY (sx : List Num) (l : Num) : List Num := sx.map (fun v => expN (sub32N v l))

/-- m and L of softmax (R119). -/
def smStats (sx : List Num) : Num × Num :=
  let m := sx.foldl maxN (.inf true)
  (m, add32N m (lnN (sumRow (sx.map (fun v => expN (sub32N v m))))))

/-- The k indices of the largest values, ties to the lower index, in descending order (R122). -/
def topIdx : Nat → List Num → List Nat → List Nat
  | 0, _, _ => []
  | k + 1, vs, left =>
    match left with
    | [] => []
    | i :: r =>
      let best := r.foldl (fun b j => if ltN (vs.getD b .zero) (vs.getD j .zero) then j else b) i
      best :: topIdx k vs (left.filter (fun j => j != best))

/-- One row of an operation: its inputs' true values, its statistics where it reads them. Of a TOPK_FWD row with a NaN logit, STAT0 and
STAT1 are those of the logits 0 to k - 1 (R122; log entry 134). -/
def rowCalc (b p : List Byte) (groups row : Nat) (xs ins ext gs bs : List Num) (idx : List Nat) (m l : Num) : RowOut :=
  let op := roOp b
  let js := List.range xs.length
  let at_ := fun (v : List Num) (j : Nat) => v.getD j .zero
  if op = 0 ∨ op = 3 then
    let st := normStats op xs (rpEps p)
    normFwd op xs gs bs st.1 st.2
  else if op = 1 ∨ op = 4 then normFwd op xs gs bs m l
  else if op = 2 ∨ op = 5 then normBwd op xs ins gs m l
  else if op = 6 ∨ op = 7 ∨ op = 8 then
    let sx := js.map (fun j => if masked b p row j then Num.inf true else mul32N (rpS p) (at_ xs j))
    if js.all (masked b p row) then { y := js.map (fun _ => .zero), stat := (.inf true, .inf true) }
    else if op = 6 then
      let st := smStats sx
      { y := smY sx st.2, stat := st }
    else
      let y := smY sx l
      if op = 7 then { y := y }
      else
        let dot := sumRow (js.map (fun j => mul32N (at_ y j) (at_ ins j)))
        { y := js.map (fun j => mul32N (mul32N (rpS p) (at_ y j)) (sub32N (at_ ins j) dot)) }
  else if op = 9 then { y := xs.map (actF (roFunc b)) }
  else if op = 10 then { y := js.map (fun j => mul32N (at_ ins j) (actD (roFunc b) (at_ xs j))) }
  else if op = 11 then { y := js.map (fun j => mul32N (actF 1 (at_ xs j)) (at_ ins j)) }
  else if op = 12 then
    { y := js.map (fun j => mul32N (mul32N (at_ ins j) (at_ ext j)) (actD 1 (at_ xs j))),
      out2 := js.map (fun j => mul32N (at_ ins j) (actF 1 (at_ xs j))) }
  else if op = 13 then
    let k := roK b
    let sx := xs.map (fun x => mul32N (rpS p) x)
    if xs.any Num.isNan then
      { y := (List.range k).map (fun _ => .nan), idx := List.range k, stat := smStats ((List.range k).map (at_ sx)) }
    else
      let sel := topIdx k sx (List.range (min groups sx.length))
      let st := smStats (sel.map (at_ sx))
      { y := sel.map (fun i => expN (sub32N (at_ sx i) st.2)), idx := sel, stat := st }
  else
    let sx := xs.map (fun x => mul32N (rpS p) x)
    let gt := idx.map (fun i => expN (sub32N (at_ sx i) l))
    let dot := sumRow ((List.range idx.length).map (fun q => mul32N (at_ gt q) (at_ ins q)))
    { y := js.map (fun j =>
        match findIdx (fun i => i == j) idx 0 with
        | some (q, _) => mul32N (mul32N (rpS p) (at_ gt q)) (sub32N (at_ ins q) dot)
        | none => .zero) }

/-- Write one row of Y or OUT2: plain, or MXFP8 with its scale bytes behind the row's elements (R96; log entry 32). -/
def State.rowWrite (s : State) (c : CoreIx) (ctx a fmt : Nat) (e5 : Bool) (entry width : Nat) (vs : List Num) : State :=
  if fmt = 5 then
    let f := mxElem 5 e5
    let s := (s.latchExp c entry fmt).2
    (List.range (ceilDiv width 32)).foldl (fun t k =>
      let blk := (vs.drop (32 * k)).take 32
      let w := mxWrite f (mxEmax f) blk
      let rest := List.replicate (min 32 (width - 32 * k) - blk.length) 0
      let t1 := t.objStore c ctx (a + 32 * k) (codesBytes 5 (w.2.map Prod.fst ++ rest))
      (t1.objStore c ctx (a + width + k) (toLE 1 w.1)).capture c entry (amaxCode blk) (w.2.map Prod.snd)) s
  else
    let (e, t) := s.latchExp c entry fmt
    let t1 := t.writeRow c ctx a fmt e entry vs
    t1.objStore c ctx (a + rowBytes fmt vs.length) (List.replicate (rowBytes fmt width - rowBytes fmt vs.length) 0)

/-- True values of a row: stored values times 2^−E (R104), converted to binary32 (R118). -/
def State.rowIn (s : State) (c : CoreIx) (ctx a fmt entry k : Nat) : List Num × State :=
  let (e, t) := s.latchExp c entry fmt
  ((rowValues t c ctx a fmt k).map (fun v => round32 (v.scale (-e))), t)

/-- Write the marginalia record of a row (R123, R124). -/
def State.margWrite (s : State) (c : CoreIx) (g : Seg) (b p : List Byte) (i : Nat) (st : Num × Num) : State :=
  if roMargAddr b then
    let w := to32 st.1 + 4294967296 * to32 st.2 + 18446744073709551616 *
      (g.mbTag + 65536 * margOp (roOp b) + 1048576)
    s.objStore c g.ctx (rpMarg p + 16 * i) (toLE 16 w)
  else
    let r : MargRec := { stat0 := to32 st.1, stat1 := to32 st.2, tag := g.mbTag, op := margOp (roOp b), wet := true }
    (s.modCore c (fun k => { k with marg := Sparse.insert k.marg (roMarg b + i) r })).modSeg c (fun h =>
      { h with margs := (roMarg b + i) :: h.margs })

/-- All rows of an operation, in order: the state, and the sums for dγ and dβ so far. -/
def rowAll (c : CoreIx) (g : Seg) (o : RowOp) (gs bs : List Num) : Nat → State × List Num × List Num
    → State × List Num × List Num
  | 0, acc => acc
  | k + 1, acc0 =>
    let acc := rowAll c g o gs bs k acc0
    let b := o.cmd
    let p := o.param
    let i := k
    let op := roOp b
    let (xs, s1) := acc.1.rowIn c g.ctx (roX b + i * rpXPitch p) (roIn b) (rpXEntry p) o.dv
    let (ins, s2) := if usesIn2 op then
        s1.rowIn c g.ctx (roIn2 b + i * rpIn2Pitch p) (roIn b) (rpIn2Entry p) (if op = 14 then roK b else o.dv)
      else ([], s1)
    let (ext, s3) := if op = 12 then s2.rowIn c g.ctx (rpExtra p + i * rpExtraPitch p) (roIn b) (rpExtraEntry p) o.dv
      else ([], s2)
    let idx := if op = 14 then
        (List.range (roK b)).map (fun q => objLE s3 c g.ctx (rpExtra p + i * rpExtraPitch p + 2 * q) 2)
      else []
    let (m, l, _) := margOf s3 c g.ctx b p i
    let r := rowCalc b p o.groups i xs ins ext gs bs idx (f32 m) (f32 l)
    let s4 := s3.rowWrite c g.ctx (roY b + i * rpYPitch p) (roOut b) (roE5 b) (rpYEntry p) (yWidth b) r.y
    let s5 := if op = 12 then
        s4.rowWrite c g.ctx (roOut2 b + i * rpOut2Pitch p) (roOut b) (roE5 b) (rpOut2Entry p) (roD b) r.out2
      else if op = 13 then s4.objStore c g.ctx (roOut2 b + i * rpOut2Pitch p) (r.idx.flatMap (fun q => toLE 2 q))
      else s4
    let s6 := if writesMarg op then s5.margWrite c g b p i r.stat else s5
    let plus := fun (a d : List Num) => (List.range a.length).map (fun j => add32N (a.getD j .zero) (d.getD j .zero))
    (s6, plus acc.2.1 r.dg, plus acc.2.2 r.db)

/-- Send a binary32 vector once to the bank-side adders (R119). -/
def State.addVec (s : State) (c : CoreIx) (ctx a : Nat) (vs : List Num) : State :=
  (List.range vs.length).foldl (fun t j => t.objAdd c ctx (a + 4 * j) (to32 (vs.getD j .zero))) s

/-- The byte ranges of valid elements that an operation reads (R118, R119). -/
def rowReads (b p : List Byte) (dv : Nat) : List (Nat × Nat) :=
  let op := roOp b
  let gf := if rpGB16 p then 1 else 0
  let rows := fun (base pitch len : Nat) => (List.range (roRows b)).map (fun i => (base + i * pitch, len))
  rows (roX b) (rpXPitch p) (rowBytes (roIn b) dv)
  ++ (if usesIn2 op then rows (roIn2 b) (rpIn2Pitch p) (rowBytes (roIn b) (if op = 14 then roK b else dv)) else [])
  ++ (if op = 12 then rows (rpExtra p) (rpExtraPitch p) (rowBytes (roIn b) dv) else [])
  ++ (if usesGamma op then [(rpGamma p, rowBytes gf dv)] else [])
  ++ (if usesBeta op then [(rpBeta p, rowBytes gf dv)] else [])

/-- The byte ranges of indices and marginalia records that an operation reads: poison there kills the segment (R210). -/
def rowSound (b p : List Byte) : List (Nat × Nat) :=
  let op := roOp b
  (if op = 14 then (List.range (roRows b)).map (fun i => (rpExtra p + i * rpExtraPitch p, 2 * roK b)) else [])
  ++ (if readsMarg op && roMargAddr b then [(rpMarg p, 16 * roRows b)] else [])

/-- ROWOP_COMPLETE (R119 to R124, R148): t_row has elapsed; the outputs, marginalia and parameter gradients are written, and their wet
pages are claimed, all now (R161; log entry 173). -/
def execRowopComplete (c : CoreIx) (s : State) : Out := s.meanwhile c fun s =>
  match s.seg c, (s.core c).rowEng with
  | some g, some o =>
    let b := o.cmd
    let p := o.param
    let op := roOp b
    if s.advances (partOf c) && decide (o.due ≤ s.slot (partOf c)) && remoteDone s c o.work then
      .next (checked s c g.ctx none [] (rowSound b p) (fun s =>
      let w := (rowRanges b p).filterMap (fun r => if r.2.2 then some (r.1, r.2.1) else none)
      let w' := if roOut b = 5 then w.map (fun r => (r.1, r.2 + ceilDiv (roD b) 32)) else w
      (claimRanges c g.ctx w' s).run c (fun t =>
        let t := (t.writes c o.work).consume c g.ctx 8 0 b (rowReads b p o.dv)
        let gfmt := if rpGB16 p then 1 else 0
        let gs := if usesGamma op then rowValues t c g.ctx (rpGamma p) gfmt o.dv else []
        let bs := if usesBeta op then rowValues t c g.ctx (rpBeta p) gfmt o.dv else []
        let zeros := List.replicate (if usesDGamma op then o.dv else 0) Num.zero
        let (t1, dg, db) := rowAll c g o gs bs (roRows b) (t, zeros, if usesDBeta op then zeros else [])
        let t2 := if usesDGamma op then t1.addVec c g.ctx (rpDGamma p) dg else t1
        let t3 := if usesDBeta op then t2.addVec c g.ctx (rpDBeta p) db else t2
        (t3.modCore c (fun k => { k with rowEng := none })).completeWork c o.work)))
    else .next s
  | _, _ => .next s

end Sys2Proof.Machine
end

