-- ==== Sys2Proof/Machine/Update.lean ====
section
/-! DEFINITION. Machine/Update.lean: the update unit: UPDATE and sum-of-squares (R135, R139 to R142), the flip of a wet page
(R158, R159, R220), and slot changes that wait for latches (R134, R136, R141). -/

namespace Sys2Proof.Machine

/-! ### The flip of a page (R158, R159, R220) -/

/-- The list of the pools' frames of a partition (MEM.POOL_LIST_n, R221). -/
def State.showPools (s : State) (n : PartIx) : State :=
  let l := ((s.part n).pools.flatten).flatMap (fun f => toLE 4 (frameNo (65536 * f)))
  s.wrBytes (velBase n + 4 * s.inForce (MEM.POOL_LIST_n.BASE n)) l

/-- One wet page replaces its dry page through the tier map; the dry frame joins the pool once older accesses end. -/
def State.flipWet (s : State) (n : PartIx) (w : WetPage) : State :=
  let s1 := s.setLeafBy n w.leaf (s.rdLE w.leaf 8 % 65536 + w.wet)
  (s1.modPart n (fun p =>
    { p with
      pools := modAt p.pools w.tier (fun l => l.map (fun f => if f = w.wet / 65536 then w.dry / 65536 else f))
      dryWait := p.dryWait ++ [(w.tier, w.dry)] })).showPools n

/-- The lines of a wet page that its segment has not filled are filled from the dry page (R158 step 1). -/
def State.fillRest (s : State) (n : PartIx) (w : WetPage) : State :=
  upTo 512 (fun l t => if w.filled.contains l then t else t.dryLine n w l) s

/-! ### Latches (R132, R136, R138) -/

/-- A running segment of the partition holds a latch on slot v of descriptor i. -/
def slotLatched (s : State) (n : PartIx) (i v : Nat) : Bool :=
  (coresOf n).any (fun c => match s.seg c with
    | some g => g.descLatch.contains (i, v)
    | none => false)

/-- A running segment of the partition holds a latch on gradient buffer q of descriptor i. -/
def gradLatched (s : State) (n : PartIx) (i q : Nat) : Bool :=
  (coresOf n).any (fun c => match s.seg c with
    | some g => g.gradLatch.contains (i, q)
    | none => false)

/-! ### Slot changes (R134, R141) -/

/-- The tag that an update gives: the old recto's plus 1, FFFF_FFFFh followed by 1. -/
def nextTag (t : Nat) : Nat := if t = 0xFFFFFFFF then 1 else t + 1

/-- The effect of an update's lift on its descriptor (R141). -/
def State.commitUpdate (s : State) (n : PartIx) (i : Nat) : State :=
  let a := s.wdtAddr n i
  let old := s.recto n i
  let v := 1 - old
  let buf := bits (s.wd n i 0 1) 4 4
  let s1 := s.wrLE (a + 0x10 + 0x18 * v) 4 (nextTag (s.slotTag n i old))
  let s2 := (s1.wrBits a 4 0 0 v).wrLE (a + 4) 4 (s1.wd n i 4 4 + 1)
  (s2.wrLE (a + 0x70 + 4 * buf) 4 0).wrBits a 4 3 3 0

/-- The effect of a gather on slot v of its descriptor (R134): a new version takes its tag and becomes recto. -/
def State.commitGather (s : State) (n : PartIx) (i v tag : Nat) (recto : Bool) : State :=
  if recto then
    let a := s.wdtAddr n i
    (s.wrLE (a + 0x10 + 0x18 * v) 4 tag).wrBits a 4 0 0 v
  else s

/-- The slot that a gather with tag u goes to, and whether it becomes recto (R134). -/
def gatherSlot (s : State) (n : PartIx) (i u : Nat) : Nat × Bool :=
  let r := s.recto n i
  if s.slotTag n i r = u then (r, false)
  else if s.slotTag n i (1 - r) = u then (1 - r, false)
  else (1 - r, true)

/-- Byte ranges of the storage of slot v of a descriptor: both copies and their scale arrays (R131). -/
def slotRanges (s : State) (n : PartIx) (i v : Nat) : List (Nat × Nat) :=
  let k := s.wd n i 8 4
  let w := s.wd n i 0xC 4
  let fmt := bits (s.wd n i 0 2) 10 8
  let fb := s.wd n i (0x18 + 0x18 * v) 8
  let tb := s.wd n i (0x20 + 0x18 * v) 8
  [(fb, spanLen k (s.wd n i 0x78 4) (rowBytes fmt w)), (tb, spanLen w (s.wd n i 0x7C 4) (rowBytes fmt k))]
  ++ (if isMx fmt then
    [(s.wd n i (0x80 + 0x10 * v) 8, spanLen (ceilDiv k 32) (s.wd n i 0xA0 4) w),
     (s.wd n i (0x88 + 0x10 * v) 8, spanLen (ceilDiv w 32) (s.wd n i 0xA4 4) k)] else [])

/-- A deferred change takes effect: its pages flip and its descriptor changes (R136). -/
def State.commitDeferred (s : State) (n : PartIx) (d : Deferred) : State :=
  let s1 := d.pages.foldl (fun t w => t.flipWet n w) s
  match d.tag with
  | some u => if d.clear then s1.wrLE (s1.wdtAddr n d.desc + 0x10 + 0x18 * d.slot) 4 u else s1.commitGather n d.desc d.slot u d.recto
  | none => s1.commitUpdate n d.desc

/-- A slot change waits with its pages, and is counted (R136). -/
def State.deferChange (s : State) (n : PartIx) (d : Deferred) : State :=
  ((s.modPart n (fun p => { p with deferred := p.deferred ++ [d] })).wrLE (s.wdtAddr n d.desc + 0xBC) 4 (s.wd n d.desc 0xBC 4 + 1)).bumpSat
    (TRN.WAITS_n.LIFT_WAITS n) 1

/-- DEFERRED_SLOT_CHANGE (R136): the first waiting change of the partition whose slot no running segment latches. -/
def execDeferredSlotChange (n : PartIx) (s : State) : Out :=
  match findIdx (fun d => !slotLatched s n d.desc d.slot) (s.part n).deferred 0 with
  | some (i, d) =>
    act s (s.runs n)
      ((s.modPart n (fun p => { p with deferred := p.deferred.eraseIdx i })).commitDeferred n d)
  | none => .next s

/-! ### UPDATE (R135, R139) -/

def upDesc (b : List Byte) : Nat := cmdBits b 0x08 4 11 0
def upSumsq (b : List Byte) : Bool := cmdBits b 0x08 4 12 12 == 1
def upResult (b : List Byte) : Nat := fieldAt b 0x10 8

/-- Formats of a descriptor (R131). -/
def wdRecipe (s : State) (n : PartIx) (i : Nat) : Nat := bits (s.wd n i 0 2) 15 13
def wdMomFmt (s : State) (n : PartIx) (i : Nat) : Nat := bits (s.wd n i 0 2) 12 11
def wdCopyFmt (s : State) (n : PartIx) (i : Nat) : Nat := bits (s.wd n i 0 2) 10 8
def wdMasterFmt (s : State) (n : PartIx) (i : Nat) : Nat := bits (s.wd n i 0 1) 7 5

/-- A descriptor's valid rows and columns (R143). -/
def wdValid (s : State) (c : CoreIx) (ctx i : Nat) : Nat × Nat :=
  let n := partOf c
  let sh := s.wd n i 0xB0 8
  let (_, vr, _, vc, _, _) := shardAt s c ctx sh
  if sh = 0 then (s.wd n i 8 4, s.wd n i 0xC 4) else (min vr (s.wd n i 8 4), min vc (s.wd n i 0xC 4))

/-- Row pitch of a dense tensor of w elements of `bytes` each (R131). -/
def densePitch (w bytes : Nat) : Nat := ceilDiv (w * bytes) 64 * 64

/-- Bytes of a moment element; 0 where there is none. -/
def momBytes (fmt : Nat) : Nat := if fmt = 1 then 2 else if fmt = 2 then 4 else 0

/-- How many moments a recipe keeps (R140). -/
def momCount (recipe : Nat) : Nat := if recipe = 4 then 2 else if recipe = 2 ∨ recipe = 3 then 1 else 0

/-- The ranges of an update or sum-of-squares on buffer q: address, length, written (R131, R140). -/
def updRanges (s : State) (n : PartIx) (i q : Nat) (b : List Byte) : List (Nat × Nat × Bool) :=
  let k := s.wd n i 8 4
  let w := s.wd n i 0xC 4
  let mb := momBytes (wdMomFmt s n i)
  let grad := (s.wd n i (0x60 + 8 * q) 8, k * densePitch w 4)
  if upSumsq b then [(grad.1, grad.2, false), (upResult b, 4, true)]
  else
    [(grad.1, grad.2, true), (s.wd n i 0x40 8, k * densePitch w 2, true), (s.wd n i 0x48 8, k * densePitch w 2, true)]
    ++ (if 1 ≤ momCount (wdRecipe s n i) ∧ mb ≠ 0 then [(s.wd n i 0x50 8, k * densePitch w mb, true)] else [])
    ++ (if 2 ≤ momCount (wdRecipe s n i) ∧ mb ≠ 0 then [(s.wd n i 0x58 8, k * densePitch w mb, true)] else [])
    ++ (slotRanges s n i (1 - s.recto n i)).map (fun r => (r.1, r.2, true))

/-- The first breach of an UPDATE's own fields and of its descriptor's (R131, R135, R139, R149, R155). -/
def updBreach (s : State) (c : CoreIx) (b : List Byte) : Option (Nat × Nat) :=
  let n := partOf c
  let i := upDesc b
  let sh := s.wd n i 0xB0 8
  let running := (coresOf n).any (fun d => match (s.core d).upd with
    | some u => u.desc == i
    | none => false)
  firstBreach [
    (headerOk b && zeroBits (fieldAt b 0x08 4) 31 13 && zeroBytes b 0x0C 0x10 && zeroBytes b 0x18 0x40, 0, 1),
    (s.descOk n i, 0, 4),
    (bits (s.wd n i 0 1) 1 1 == 0, 0, 7),
    (upSumsq b || (decide (wdRecipe s n i ≤ 4) && (wdMasterFmt s n i == 1 || wdMasterFmt s n i == 2)
      && wdMomFmt s n i != 3), 0, 7),
    (!upSumsq b || upResult b % 4 == 0, upResult b, 7),
    (upSumsq b || (s.scaleOk n (s.wd n i (0x14 + 0x18 * (1 - s.recto n i)) 2) && s.scaleOk n (s.wd n i (0x16 + 0x18 * (1 - s.recto n i)) 2)), 0, 4),
    (!running, 0, 7)]

/-- Step 2 of R139: the buffer swap, dry at once. -/
def State.claimBuffer (s : State) (n : PartIx) (i : Nat) : State :=
  let a := s.wdtAddr n i
  let w := s.wd n i 0 1
  if bit w 3 then s
  else s.wrLE a 1 (putBits (putBits (putBits w 4 4 (bits w 2 2)) 2 2 (1 - bits w 2 2)) 3 3 1)

/-- UPDATE and its sum-of-squares form (R139): checked, the buffer claimed, the unit taken. -/
def issueUpdate (c : CoreIx) (sumsq : Bool) (s : State) : Out :=
  match ready s c 0x13 with
  | none => .next s
  | some (g, b) =>
    if (s.core c).upd.isSome || upSumsq b != sumsq then .next s
    else
      let n := partOf c
      let i := upDesc b
      let w := s.wd n i 0 1
      let buf := if bit w 3 then bits w 4 4 else bits w 2 2
      let hyper := s.wd n i 0xA8 8
      let sh := s.wd n i 0xB0 8
      let small := [(hyper, 32)] ++ (if sh = 0 then [] else [(sh, 16)])
      .next (checked s c g.ctx (updBreach s c b)
        (small.map (fun r => (r.1, r.2, false)) ++ updRanges s n i buf b) [] (fun t =>
          withRemote t c ((t.seg c).getD g) small (fun u =>
            checked u c g.ctx (firstBreach [(sh == 0 || shardOk u c g.ctx sh, sh, 7)]) [] small (fun v =>
              let op : UpdOp := { work := g.nextId, cmd := b, desc := i, sumsq := sumsq, result := upResult b, buf := buf }
              let v1 := (v.claimBuffer n i).modCore c (fun k => { k with upd := some op })
              let reads := (updRanges v n i buf b).flatMap (fun r =>
                chartRanges v c g.ctx (pageCount r.1 r.2.1) r.1 r.2.1)
              (v1.needRemote c 1 g.nextId reads).issueCmd c g b false))))

/-- UPDATE (R139). -/
def execUpdate (c : CoreIx) (s : State) : Out := s.meanwhile c (issueUpdate c false)
/-- SUM_OF_SQUARES (R139): UPDATE with SUMSQ set. -/
def execSumOfSquares (c : CoreIx) (s : State) : Out := s.meanwhile c (issueUpdate c true)

/-- Time of an update (R142). -/
def updTime (k n : Nat) (sumsq : Bool) : Nat := 48 + 128 * ceilDiv k 128 * ceilDiv n 128 + (if sumsq then 16 else 0)

/-- UPDATE_START (R139 step 4): no running segment latches the buffer; count, hyper-parameters and exponents are latched. -/
def execUpdateStart (c : CoreIx) (s : State) : Out :=
  match s.seg c, (s.core c).upd with
  | some g, some u =>
    let n := partOf c
    if s.advances n && !u.started && !gradLatched s n u.desc u.buf then
      let fmt := wdCopyFmt s n u.desc
      let v := 1 - s.recto n u.desc
      let (ef, s1) := s.latchExp c (s.wd n u.desc (0x14 + 0x18 * v) 2) fmt
      let (et, s2) := s1.latchExp c (s.wd n u.desc (0x16 + 0x18 * v) 2) fmt
      let cnt := s.wd n u.desc (0x70 + 4 * u.buf) 4
      let time := updTime (s.wd n u.desc 8 4) (s.wd n u.desc 0xC 4) u.sumsq
      let u' : UpdOp := { u with started := true, count := cnt, hyper := (objRead s c g.ctx (s.wd n u.desc 0xA8 8) 32).1,
                                 eFwd := ef, eTr := et, due := s.slot n + time }
      .next (s2.modCore c (fun k => { k with upd := some u' }))
    else .next s
  | _, _ => .next s

/-! ### The arithmetic of R140 -/

/-- b to the power t by binary32 repeated squaring (R140; log entry 33). -/
def powSq : Nat → Num → Nat → Num
  | 0, _, _ => .one
  | f + 1, b, t =>
    if t = 0 then .one
    else
      let r := powSq f (mul32N b b) (t / 2)
      if t % 2 = 1 then mul32N r b else r

/-- The hyper-parameters latched (R140). -/
def hyp (h : List Byte) (off : Nat) : Num := f32 (fieldAt h off 4)

/-- One element of an update: the new weight and moments, from the restored weight, the gradient and the moments. -/
def updElem (recipe t : Nat) (h : List Byte) (gs w grad m1 m2 : Num) : Num × Num × Num :=
  let lr := hyp h 0
  let b1 := hyp h 4
  let b2 := hyp h 8
  let eps := hyp h 0xC
  let wd := hyp h 0x10
  let g := mul32N grad gs
  let u := add32N g (mul32N wd w)
  if recipe = 1 then (sub32N w (mul32N lr u), m1, m2)
  else if recipe = 2 ∨ recipe = 3 then
    let m := add32N (mul32N b1 m1) u
    let x := if recipe = 3 then add32N u (mul32N b1 m) else m
    (sub32N w (mul32N lr x), m, m2)
  else if recipe = 4 then
    let m := add32N (mul32N b1 m1) (mul32N (sub32N .one b1) g)
    let v := add32N (mul32N b2 m2) (mul32N (mul32N (sub32N .one b2) g) g)
    let c1 := sub32N .one (powSq 33 b1 t)
    let c2 := sub32N .one (powSq 33 b2 t)
    let q := add32N (div32N (div32N m c1) (add32N (sqrt32N (div32N v c2)) eps)) (mul32N wd w)
    (sub32N w (mul32N lr q), m, v)
  else (w, m1, m2)

/-- A row of k values of a dense tensor, and its codes. -/
def denseRow (s : State) (c : CoreIx) (ctx base pitch fmt r k : Nat) : List Num :=
  rowValues s c ctx (base + r * pitch) fmt k

/-- Write one row of a copy: valid values, then +0 up to `width` elements (R140, R143). -/
def State.copyRow (s : State) (c : CoreIx) (ctx addr fmt : Nat) (e : Int) (entry width : Nat) (vs : List Num) : State :=
  let s1 := s.writeRow c ctx addr fmt e entry vs
  let have_ := rowBytes fmt vs.length
  s1.objStore c ctx (addr + have_) (List.replicate (rowBytes fmt width - have_) 0)

/-- Write an MX copy: rows of `width` elements; each block is 32 rows of one column, with its scale (R65, R96). -/
def State.copyMx (s : State) (c : CoreIx) (ctx base pitch sBase sPitch fmt entry width : Nat) (rows : List (List Num))
    (height : Nat) : State :=
  let f := mxElem fmt false
  (List.range (ceilDiv height 32)).foldl (fun t k =>
    let blk := (rows.drop (32 * k)).take 32
    let cols := (List.range width).map (fun j => mxWrite f (mxEmax f) (blk.filterMap (fun r => r[j]?)))
    let t1 := (List.range (min 32 (height - 32 * k))).foldl (fun u r =>
      u.objStore c ctx (base + (32 * k + r) * pitch) (codesBytes fmt (cols.map (fun q => ((q.2[r]?).getD (0, {})).1)))) t
    let t2 := t1.objStore c ctx (sBase + k * sPitch) (cols.map (fun q => BitVec.ofNat 8 q.1))
    t2.capture c entry (amaxCode blk.flatten) (cols.flatMap (fun q => q.2.map Prod.snd))) s

/-- Columns of a matrix of `width` columns, cut to the rows that have them. -/
def columnsOf (rows : List (List Num)) (width : Nat) : List (List Num) :=
  (List.range width).map (fun j => rows.filterMap (fun r => r[j]?))

/-- Both narrow copies of a new version, from the binary32 weights of the valid rows (R140). -/
def State.writeCopies (s : State) (c : CoreIx) (ctx : Nat) (u : UpdOp) (ws : List (List Num)) (vc : Nat) : State :=
  let n := partOf c
  let i := u.desc
  let k := s.wd n i 8 4
  let w := s.wd n i 0xC 4
  let fmt := wdCopyFmt s n i
  let v := 1 - s.recto n i
  let fb := s.wd n i (0x18 + 0x18 * v) 8
  let tb := s.wd n i (0x20 + 0x18 * v) 8
  let fe := s.wd n i (0x14 + 0x18 * v) 2
  let te := s.wd n i (0x16 + 0x18 * v) 2
  let tr := columnsOf ws vc
  if isMx fmt then
    (s.copyMx c ctx fb (s.wd n i 0x78 4) (s.wd n i (0x80 + 0x10 * v) 8) (s.wd n i 0xA0 4) fmt fe w ws k).copyMx c ctx tb
      (s.wd n i 0x7C 4) (s.wd n i (0x88 + 0x10 * v) 8) (s.wd n i 0xA4 4) fmt te k tr w
  else
    let s1 := upTo k (fun r t => t.copyRow c ctx (fb + r * s.wd n i 0x78 4) fmt u.eFwd fe w (ws.getD r [])) s
    upTo w (fun r t => t.copyRow c ctx (tb + r * s.wd n i 0x7C 4) fmt u.eTr te k (tr.getD r [])) s1

/-- One row of the update of R140: master, blotter, moments and gradient written; the binary32 weights. -/
def updRow (s : State) (c : CoreIx) (ctx : Nat) (u : UpdOp) (gs : Num) (vc r : Nat) : List Num × State :=
  let n := partOf c
  let i := u.desc
  let w := s.wd n i 0xC 4
  let mf := wdMasterFmt s n i
  let mb := momBytes (wdMomFmt s n i)
  let momf := if wdMomFmt s n i = 1 then 1 else 0
  let recipe := wdRecipe s n i
  let gBase := s.wd n i (0x60 + 8 * u.buf) 8 + r * densePitch w 4
  let wBase := s.wd n i 0x40 8 + r * densePitch w 2
  let bBase := s.wd n i 0x48 8 + r * densePitch w 2
  let mom := fun (q : Nat) => s.wd n i (0x50 + 8 * q) 8 + r * densePitch w mb
  let keeps := fun (q : Nat) => decide (q < momCount recipe) && mb != 0
  let gr := rowValues s c ctx gBase 0 vc
  let (wc, wbad) := objRead s c ctx wBase (2 * vc)
  let (bc, bbad) := objRead s c ctx bBase (2 * vc)
  let m1 := if keeps 0 then rowValues s c ctx (mom 0) momf vc else []
  let m2 := if keeps 1 then rowValues s c ctx (mom 1) momf vc else []
  let f := fmtOf mf
  let t := s.wd n i 4 4 + 1
  let out := (List.range vc).map (fun j =>
    let w0 := if elemBad wbad 1 j || elemBad bbad 1 j then Num.nan else restoreW f (fieldAt wc (2 * j) 2) (fieldAt bc (2 * j) 2)
    updElem recipe t u.hyper gs w0 (gr.getD j .zero) (m1.getD j .zero) (m2.getD j .zero))
  let st := out.map (fun x => storeW f x.1)
  let s1 := (s.objStore c ctx wBase (st.flatMap (fun x => toLE 2 x.1))).objStore c ctx bBase
    (st.flatMap (fun x => toLE 2 x.2.1))
  let s2 := if keeps 0 then s1.objStore c ctx (mom 0) (codesBytes momf (out.map (fun x => encodeFmt (fmtOf momf) x.2.1))) else s1
  let s3 := if keeps 1 then s2.objStore c ctx (mom 1) (codesBytes momf (out.map (fun x => encodeFmt (fmtOf momf) x.2.2))) else s2
  (out.map (fun x => x.1), s3.objStore c ctx gBase (List.replicate (4 * vc) 0))

/-- The rows of an update in order. -/
def updRows (c : CoreIx) (ctx : Nat) (u : UpdOp) (gs : Num) (vc : Nat) : Nat → List (List Num) × State → List (List Num) × State
  | 0, acc => acc
  | k + 1, acc0 =>
    let acc := updRows c ctx u gs vc k acc0
    let (ws, t) := updRow acc.2 c ctx u gs vc k
    (acc.1 ++ [ws], t)

/-- The sum of squares of R140 over the valid elements, in the order of the forward layout (log entry 33). -/
def sumSquares (s : State) (c : CoreIx) (ctx : Nat) (u : UpdOp) (gs : Num) (vr vc : Nat) : Num :=
  let n := partOf c
  let w := s.wd n u.desc 0xC 4
  (List.range vr).foldl (fun acc r =>
    (rowValues s c ctx (s.wd n u.desc (0x60 + 8 * u.buf) 8 + r * densePitch w 4) 0 vc).foldl (fun a x =>
      let g := mul32N x gs
      add32N a (mul32N g g)) acc) Num.zero

/-- The byte ranges of valid elements that an update or sum-of-squares reads. -/
def updReads (s : State) (n : PartIx) (u : UpdOp) (vr vc : Nat) : List (Nat × Nat) :=
  let i := u.desc
  let w := s.wd n i 0xC 4
  let mb := momBytes (wdMomFmt s n i)
  let mc := if mb = 0 then 0 else momCount (wdRecipe s n i)
  let rows := fun (off bytes : Nat) => (List.range vr).map (fun r => (s.wd n i off 8 + r * densePitch w bytes, vc * bytes))
  rows (0x60 + 8 * u.buf) 4
  ++ (if u.sumsq then [] else rows 0x40 2 ++ rows 0x48 2
    ++ (if 1 ≤ mc then rows 0x50 mb else []) ++ (if 2 ≤ mc then rows 0x58 mb else []))

/-- UPDATE_COMPLETE (R139 to R142, R148): the unit's time has elapsed; its writes are made, wet, and its wet pages claimed, now (R161; log
entry 173). -/
def execUpdateComplete (c : CoreIx) (s : State) : Out := s.meanwhile c fun s =>
  match s.seg c, (s.core c).upd with
  | some g, some u =>
    let n := partOf c
    if s.advances n && u.started && decide (u.due ≤ s.slot n) && remoteDone s c u.work then
      let cnt := round32 (.ofNat u.count)
      let lsi := hyp u.hyper 0x18
      let (vr, vc) := wdValid s c g.ctx u.desc
      let finish := fun (t : State) => (t.modCore c (fun k => { k with upd := none })).completeWork c u.work
      let note := fun (t : State) => t.modSeg c (fun h => { h with updates := h.updates ++ [(u.desc, u.count == 0)] })
      if u.count = 0 then .next (finish (if u.sumsq then s else note s))
      else if u.sumsq then
        .next ((claimRanges c g.ctx [(u.result, 4)] s).run c (fun t =>
          let t := (t.writes c u.work).consume c g.ctx 9 0 u.cmd (updReads t n u vr vc)
          finish (t.objAdd c g.ctx u.result (to32 (sumSquares t c g.ctx u (div32N lsi cnt) vr vc)))))
      else
        let i := u.desc
        let k := s.wd n i 8 4
        let w := s.wd n i 0xC 4
        let mb := momBytes (wdMomFmt s n i)
        let mc := if mb = 0 then 0 else momCount (wdRecipe s n i)
        let dense := fun (off bytes : Nat) => (s.wd n i off 8, k * densePitch w bytes)
        let rs := [dense (0x60 + 8 * u.buf) 4, dense 0x40 2, dense 0x48 2]
          ++ (if 1 ≤ mc then [dense 0x50 mb] else []) ++ (if 2 ≤ mc then [dense 0x58 mb] else [])
          ++ slotRanges s n i (1 - s.recto n i)
        .next ((claimRanges c g.ctx rs s).run c (fun t =>
          let t := (t.writes c u.work).consume c g.ctx 9 0 u.cmd (updReads t n u vr vc)
          let gs := div32N (mul32N (hyp u.hyper 0x14) lsi) cnt
          let (ws, t1) := updRows c g.ctx u gs vc vr ([], t)
          finish (note (t1.writeCopies c g.ctx u ws vc))))
    else .next s
  | _, _ => .next s

end Sys2Proof.Machine
end

