-- ==== Sys2Proof/Machine/Cache.lean ====
section
/-! DEFINITION. Machine/Cache.lean: the device cache (R280 to R282), remote data coming to a segment (R171, R238, R287), and the
entries of the outbound queues leaving or failing (R165, R238, R287, R290). -/

namespace Sys2Proof.Machine

/-! ### Remote data -/

/-- A segment awaits the remote read of this tag. -/
def awaited (s : State) (c : CoreIx) (tag : Nat) : Bool :=
  match s.seg c with
  | some g => g.remote.any (fun p => p.tag == tag && p.sent && p.data.isNone)
  | none => false

/-- Data comes for a segment's remote read. -/
def State.deliver (s : State) (c : CoreIx) (tag : Nat) (data : List Byte) (bad : List Nat) : State :=
  s.modSeg c (fun g =>
    { g with remote := g.remote.map (fun p =>
        if p.tag = tag ∧ p.data = none then { p with data := some data, bad := bad } else p) })

/-- A remote read is delivered with every word poisoned (R238, R287). -/
def State.deliverPoison (s : State) (c : CoreIx) (tag : Nat) : State :=
  s.modSeg c (fun g =>
    { g with remote := g.remote.map (fun p =>
        if p.tag = tag ∧ p.data = none then
          { p with data := some (List.replicate p.len 0), bad := (List.range (p.len / 4)).map (fun i => 4 * i) } else p) })

/-- Words marked in a poison mask, as offsets. -/
def maskBad (mask words : Nat) : List Nat := (List.range words).filterMap (fun w => if bit mask w then some (4 * w) else none)

/-- A poison mask from offsets. -/
def badMask (bad : List Nat) : Nat := bad.foldl (fun m o => Nat.lor m (2 ^ (o / 4))) 0

/-! ### Queue entries (R165) -/

/-- An entry is one to the companion. -/
def OutKind.companion : OutKind → Bool
  | .wrNc _ _ _ => true
  | .notify _ _ _ => true
  | _ => false

/-- The address of an entry. -/
def OutKind.addr : OutKind → Nat
  | .chartWrite a _ _ => a
  | .chartAdd a _ => a
  | .semAdd a _ => a
  | .semRelease a => a
  | .wrNc a _ _ => a
  | .notify a _ _ => a

/-- An entry leaves its queue: its space returns to the pool (R165); an empty queue ends the failures of R238 and R287. -/
def State.queueDone (s : State) (n : PartIx) (id : Nat) : State :=
  let rest := (s.part n).outq.filter (fun e => e.id != id)
  (s.modPart n (fun p =>
    { p with outq := rest
             failChart := p.failChart && !rest.isEmpty
             failFrl := p.failFrl && !rest.isEmpty })).showOutq n

/-- A companion entry fails (R287, R290): counted, one record, and later NOTIFYs of the queue fail with it. -/
def State.queueFailFrl (s : State) (n : PartIx) (e : OutEntry) : State :=
  let s1 := (s.bump FRL.ERRORS.WRITE_LOST 1).raise { code := 0x3A, domain := 15, addr := e.kind.addr, d0 := 1 }
  (s1.modPart n (fun p => { p with failFrl := true })).queueDone n e.id

/-- A Chart entry fails (R238): counted, one record, and later semaphore operations and NOTIFYs fail with it. -/
def State.queueFailChart (s : State) (n : PartIx) (e : OutEntry) : State :=
  let s1 := (s.bump (CHT.ERRORS_n.WRITE_LOST n) 1).raise { code := 0x21, domain := domPart n, addr := e.kind.addr, d0 := 1 }
  (s1.modPart n (fun p => { p with failChart := true })).queueDone n e.id

/-- One line of a cached companion write is merged (R281): the entry is done when all its lines are. -/
def State.queueMerged (s : State) (n : PartIx) (id : Nat) : State :=
  match (s.part n).outq.find? (fun e => e.id == id) with
  | none => s
  | some e =>
    if e.left ≤ 1 then s.queueDone n id
    else s.modPart n (fun p => { p with outq := p.outq.map (fun x => if x.id = id then { x with left := x.left - 1 } else x) })

/-! ### The device cache -/

/-- A companion address lies in an enabled cached region (R281, R295). -/
def State.cachedRegion (s : State) (a : Nat) : Bool :=
  (List.range 8).any (fun i =>
    let b := 2097152 * (s.inForce (FRL.CREGION_i.BASE i))
    s.inForce (FRL.CREGION_i.ENABLE i) == 1 && decide (b ≤ a)
      && decide (a < b + 2097152 * ((s.inForce (FRL.CREGION_i.SIZE_M1 i) + 1))))

/-- The set of a line (R280). -/
def lineSet (a : Nat) : Nat := a / 64 % 65536

/-- The least recently used stable line of a set (R280). -/
def victim (s : State) (set : Nat) : Option CacheLine :=
  (s.ferrule.cache.filter (fun l => lineSet l.addr == set && (l.st == .s || l.st == .e || l.st == .m))).foldl
    (fun b l => match b with
      | none => some l
      | some x => if l.used < x.used then some l else some x) none

/-- Hold an access outside the cache; why: 0 for a flush, 1 for want of a stable line, 2 behind an eviction made for it. -/
def State.holdAcc (s : State) (a : Nat) (h : HeldAcc) (why : Nat) : State :=
  { s with ferrule := { s.ferrule with waitAcc := s.ferrule.waitAcc ++ [(a, h, why)] } }

/-- Every access that waits behind an eviction of a set still has one under way (R280). -/
def evictionFor (s : State) (set : Nat) : Bool :=
  let waits := (s.ferrule.waitAcc.filter (fun p => lineSet p.1 == set && p.2.2 == 2)).length
  decide (waits < (s.ferrule.cache.filter (fun l => lineSet l.addr == set && (l.st == .mi || l.st == .ei))).length)

/-- The age of the next use of a line. -/
def State.ageTick (s : State) : State := { s with ferrule := { s.ferrule with age := s.ferrule.age + 1 } }

/-- A line after a write is merged into it: words written whole lose their poison. -/
def CacheLine.merge (l : CacheLine) (h : HeldAcc) : CacheLine :=
  let words := (List.range 16).filter (fun w => decide (h.off ≤ 4 * w) && decide (4 * w + 4 ≤ h.off + h.data.length))
  let keep := (List.range 16).filter (fun w => bit l.poison w && !words.contains w)
  { l with st := .m, data := splice l.data h.off h.data,
           poison := badMask (keep.map (fun w => 4 * w) ++ h.bad.map (fun o => h.off + o)) }

/-- A line serves an access. -/
def State.serveAcc (s : State) (l : CacheLine) (h : HeldAcc) : State :=
  let t := s.ageTick
  let l := { l with used := s.ferrule.age }
  if h.write then (t.putLine (l.merge h)).queueMerged (toPart h.part) h.tag
  else (t.putLine l).deliver (toCore h.core) h.tag l.data (maskBad l.poison 16)

/-- A line holds an access. -/
def State.holdOn (s : State) (l : CacheLine) (h : HeldAcc) : State := s.putLine { l with held := l.held ++ [h] }

/-- Ask for a line: RD_SHARED for a read, RD_OWN for a write; the access is held (R282). -/
def State.askLine (s : State) (a : Nat) (h : HeldAcc) : State :=
  let l : CacheLine := { addr := a, st := if h.write then .im else .is_, data := List.replicate 64 0, poison := 0,
                         used := s.ferrule.age, held := [h] }
  ((s.ageTick).putLine l).frlRequest (fmsg 0 (if h.write then 0x02 else 0x01) 0 a) none .fill none

/-- A local access to a cached companion line (R280 to R282, R294, R295). `was`: why it was held before, none for a new access; a miss
is counted once, and one line is evicted for it at a time. -/
def State.cacheAccess (s : State) (a : Nat) (h : HeldAcc) (was : Option Nat) : State :=
  let counted := was.isSome && was != some 0
  if s.on FRL.STATUS.FLUSH_BUSY then s.holdAcc a h (if counted then 1 else 0)
  else match lineAt s a with
    | none =>
      let s := if counted then s else s.tally FRL.CACHE_CNT.MISSES 1
      if (s.ferrule.cache.filter (fun l => lineSet l.addr == lineSet a)).length < 16 then s.askLine a h
      else if was = some 2 ∧ evictionFor s (lineSet a) then s.holdAcc a h 2
      else match victim s (lineSet a) with
        | none => s.holdAcc a h 1
        | some v => if v.st = .s then (s.evict v).askLine a h else (s.evict v).holdAcc a h 2
    | some l =>
      match l.st with
      | .s =>
        if h.write then (s.putLine { l with st := .sm, held := [h] }).frlRequest (fmsg 0 0x02 0 a) none .fill none
        else s.serveAcc l h
      | .e => s.serveAcc l h
      | .m => s.serveAcc l h
      | .is_ => s.holdOn l h
      | .im => s.holdOn l h
      | .sm => if h.write then s.holdOn l h else s.serveAcc l h
      | .mi => s.holdOn l h
      | .ei => s.holdOn l h

/-- Replay accesses in arrival order. -/
def State.replay (s : State) (a : Nat) (hs : List HeldAcc) : State := hs.foldl (fun t h => t.cacheAccess a h none) s

/-- A way of a set, or the whole cache, is free again: accesses held for it go on. -/
def State.wakeWaiting (s : State) (sets : Nat → Bool) : State :=
  let go := s.ferrule.waitAcc.filter (fun p => sets (lineSet p.1))
  let stay := s.ferrule.waitAcc.filter (fun p => !sets (lineSet p.1))
  (go.foldl (fun t p => t.cacheAccess p.1 p.2.1 (some p.2.2)) { s with ferrule := { s.ferrule with waitAcc := stay } })

/-- Every line is in I: the flush ends and held accesses go on (R294). -/
def flushEmpty (s : State) : Bool := s.ferrule.cache.isEmpty

/-- Held accesses fail as poisoned reads; a held write fails its entry (R282). -/
def State.failAccs (s : State) (hs : List HeldAcc) : State :=
  hs.foldl (fun t h =>
    if h.write then
      match (t.part (toPart h.part)).outq.find? (fun e => e.id == h.tag) with
      | some e => t.queueFailFrl (toPart h.part) e
      | none => t
    else t.deliverPoison (toCore h.core) h.tag) s

/-- A transient line goes to I after its request ends without a grant (R282, R287). -/
def State.lineFailed (s : State) (l : CacheLine) : State :=
  (((s.delLine l.addr).failAccs l.held).wakeWaiting (fun x => x == lineSet l.addr)).unpark

/-- A line goes to I at the CMP of its eviction: held accesses are replayed as from I (R282). -/
def State.lineEvicted (s : State) (l : CacheLine) : State :=
  (((s.delLine l.addr).replay l.addr l.held).wakeWaiting (fun x => x == lineSet l.addr)).unpark

/-- A stable line is evicted by a flush under way (R282, R294). -/
def State.flushLine (s : State) (a : Nat) : State :=
  if s.on FRL.STATUS.FLUSH_BUSY then
    (match lineAt s a with
    | some l => s.evict l
    | none => s)
  else s

/-- Accesses held for a grant are served from the line, in arrival order; a write on an S line asks for ownership once (R282). -/
def serveHeld (a : Nat) : List HeldAcc → State → State
  | [], s => s
  | h :: r, s =>
    match lineAt s a with
    | none => serveHeld a r s
    | some l =>
      if !h.write then serveHeld a r (s.serveAcc l h)
      else if l.st = .s then
        serveHeld a r ((s.putLine { l with st := .sm, held := [h] }).frlRequest (fmsg 0 0x02 0 a) none .fill none)
      else if l.st = .sm then serveHeld a r (s.holdOn l h)
      else serveHeld a r (s.serveAcc l h)

/-- A line is filled by a grant: GNT_ACK, then its held accesses (R282). -/
def State.lineFilled (s : State) (l : CacheLine) (st : CacheState) (m : FMsg) : State :=
  let l' : CacheLine := { l with st := st, data := padTo 64 m.lines, poison := m.mask.toNat, held := [] }
  (((serveHeld l.addr l.held ((s.putLine l').frlSend (fmsg 2 0x32 m.tag.toNat l.addr))).flushLine l.addr).wakeWaiting
    (fun x => x == lineSet l.addr)).unpark

end Sys2Proof.Machine
end

