-- ==== Sys2Proof/Machine/Commands.lean ====
section
/-! DEFINITION. Machine/Commands.lean: fetching commands (R146, R150, R156, R368), and the commands of the sequencer and the
mover (R128 to R130, R134, R145, R152, R155, R165 to R168, R253). -/

namespace Sys2Proof.Machine

/-! ### Fetch -/

/-- The opcodes of R150. -/
def knownOpcode (o : Nat) : Bool :=
  [0x00, 0x01, 0x02, 0x10, 0x11, 0x12, 0x13, 0x14, 0x15, 0x16, 0x20, 0x21, 0x22, 0x30, 0x31, 0x32, 0x33, 0x38, 0x39,
   0x3F].contains o

/-- A breakpoint value matches a command of a context (R368). -/
def bpMatch (m : Nat) (b : List Byte) (ctx : Nat) : Bool :=
  bit m 56
  && Nat.land (Nat.xor (bits m 15 0) (cmdId b)) (bits m 31 16) == 0
  && (!(bit m 40) || bits m 39 32 == cmdOpcode b)
  && (!(bit m 55) || bits m 54 41 == ctx)

/-- The lowest breakpoint of a core that matches a command (R368). -/
def bpHit (s : State) (c : CoreIx) (b : List Byte) (ctx : Nat) : Option Nat :=
  [0, 1, 2, 3].find? (fun i => bpMatch (s.get (DBG.BP_c_i.MATCH c i)) b ctx)

/-- A breakpoint that matches the command about to issue halts the core (R368). -/
def State.bpCheck (s : State) (c : CoreIx) : State :=
  match s.seg c with
  | none => s
  | some g =>
    match g.fetched with
    | none => s
    | some (_, b) =>
      if (s.core c).bpPass || s.debugHeld c || (g.skip && !skipRuns (cmdOpcode b)) then s
      else match bpHit s c b g.ctx with
        | none => s
        | some i =>
          ((((s.put (DBG.CORE_c.HALT_REQ c) 1).put (DBG.CORE_c.STEPPING c) 0).put (DBG.CORE_c.BP_HIT c) 1).put (DBG.CORE_c.BP_INDEX c) i).modCore c
            (fun k => { k with bpPass := true })

/-- The address of the next command (R172). -/
def nextCmd (s : State) (c : CoreIx) : Nat := s.get (SEQ.CMD_PTR.ADDR c)

/-- The fetched command is an MX_SCALES whose next command is not fetched yet (R152). -/
def wantsPeek (g : Seg) : Bool :=
  match g.fetched with
  | some (_, b) => cmdOpcode b == 0x11 && g.peek.isNone && !g.skip
  | none => false

/-- The address that a sequencer fetches from next (R146, R152). -/
def fetchAt (s : State) (c : CoreIx) (g : Seg) : Nat := nextCmd s c + (if g.fetched.isSome then 64 else 0)

/-- Fetch a command: one at TAIL is waited for; it is taken where its page is mapped and its 64 bytes have come (R146, R156). -/
def State.fetchNext (s : State) (c : CoreIx) (g : Seg) : State :=
  let p := fetchAt s c g
  if g.waitTail then s
  else if p = s.ctxTail g.ctx then (s.modSeg c (fun h => { h with waitTail := true, pollAt := s.time + 256 })).seqState c 2
  else checked s c g.ctx none [(p, 64, false)] [] (fun t =>
    withRemote t c ((t.seg c).getD g) [(p, 64)] (fun u =>
      checked u c g.ctx none [] [(p, 64)] (fun v =>
        let cmd := some (p, (objRead v c g.ctx p 64).1)
        if g.fetched.isSome then v.modSeg c (fun h => { h with peek := cmd })
        else (v.modSeg c (fun h => { h with fetched := cmd })).bpCheck c)))

/-- COMMAND_FETCH (R146, R150, R152, R156, R368): the next command is fetched, and the one behind an MX_SCALES; a command at TAIL is
waited for; a skipped command is passed over, and an unknown opcode is refused when it would issue. -/
def execCommandFetch (c : CoreIx) (s : State) : Out := s.meanwhile c fun s =>
  match s.seg c with
  | none => .next s
  | some g =>
    if !(s.advances (partOf c)) || g.lift.isSome || (s.core c).ctx.isSome then .next s
    else match g.fetched with
      | some (_, b) =>
        if wantsPeek g then .next (s.fetchNext c g)
        else (match issueReady s c with
        | none => .next s
        | some _ =>
          if g.skip && !skipRuns (cmdOpcode b) then
            .next (((s.bump (SEQ.CMD_PTR.ADDR c) 64).modSeg c (fun h => { h with fetched := none })).modCore c (fun k =>
              { k with bpPass := false }))
          else if !knownOpcode (cmdOpcode b) then .next (s.descFault c 0 1)
          else .next s)
      | none => .next (s.fetchNext c g)

/-- A sequencer that waits at TAIL reads it (R146). -/
def State.readTail (s : State) (c : CoreIx) (g : Seg) : State :=
  if fetchAt s c g = s.ctxTail g.ctx then s.modSeg c (fun h => { h with pollAt := s.time + 256 })
  else (s.modSeg c (fun h => { h with waitTail := false })).seqState c 1

/-- TAIL_POLL (R146): a sequencer that waits at TAIL reads it again. -/
def execTailPoll (c : CoreIx) (s : State) : Out :=
  match s.seg c with
  | none => .next s
  | some g =>
    act s (s.advances (partOf c) && g.waitTail && decide (g.pollAt ≤ s.time)) (s.readTail c g)

/-! ### Commands without a unit -/

/-- A command with a header and a body that must be zero from byte `from_` on. -/
def plainOk (b : List Byte) (from_ : Nat) : Bool := headerOk b && zeroBytes b from_ 0x40

/-- NOP (R150). -/
def execNop (c : CoreIx) (s : State) : Out := s.meanwhile c fun s =>
  match ready s c 0x00 with
  | none => .next s
  | some (g, b) => .next (refuseOr s c (firstBreach [(plainOk b 8, 0, 1)]) (s.issueCmd c g b true))

/-- MX_SCALES (R152, R156): it issues once its next command is known, which must be a MATMUL; that takes its fields. -/
def execMxScales (c : CoreIx) (s : State) : Out := s.meanwhile c fun s =>
  match ready s c 0x11 with
  | none => .next s
  | some (g, b) =>
    match g.peek with
    | none => .next s
    | some (p, m) =>
      .next (refuseOr s c (firstBreach [(plainOk b 0x2C, 0, 1), (cmdOpcode m == 0x10, 0, 7)])
        (((s.issueCmd c g b true).modSeg c (fun h => { h with mx := some b, fetched := some (p, m), peek := none })).bpCheck c))

/-- FENCE (R147, R150): it issues, and completes once every earlier command of the segment has. -/
def execFence (c : CoreIx) (s : State) : Out := s.meanwhile c fun s =>
  match ready s c 0x38 with
  | some (g, b) => .next (refuseOr s c (firstBreach [(plainOk b 8, 0, 1)]) (s.issueCmd c g b g.work.isEmpty))
  | none =>
    match s.seg c with
    | none => .next s
    | some g =>
      match g.work with
      | w :: _ => act s (s.advances (partOf c) && w.opcode == 0x38) (s.completeWork c w.id)
      | [] => .next s

/-- JUMP (R155): the next command lies at TARGET. -/
def execJump (c : CoreIx) (s : State) : Out := s.meanwhile c fun s =>
  match ready s c 0x39 with
  | none => .next s
  | some (g, b) =>
    let t := fieldAt b 8 8
    .next (refuseOr s c (firstBreach [(plainOk b 0x10, 0, 1), (t % 64 == 0, t, 6)])
      ((s.issueCmd c g b true).put (SEQ.CMD_PTR.ADDR c) t))

/-- LIFT (R155, R158): it issues and waits for every earlier command of the segment. -/
def execLift (c : CoreIx) (s : State) : Out := s.meanwhile c fun s =>
  match ready s c 0x3F with
  | none => .next s
  | some (g, b) =>
    let l : LiftSt := { dueC := 0, dueS := 0, flipped := false, yield := cmdBits b 8 1 0 0 == 1, begun := false }
    .next (refuseOr s c (firstBreach [(headerOk b && zeroBits (fieldAt b 8 8) 63 1 && zeroBytes b 0x10 0x40, 0, 1)])
      (((s.issueCmd c g b false).modSeg c (fun h => { h with work := g.work, lift := some l })).seqState c 3))

/-- SCALE_STEP (R109, R155): steps recorded, to run at the lift. -/
def execScaleStep (c : CoreIx) (s : State) : Out := s.meanwhile c fun s =>
  match ready s c 0x14 with
  | none => .next s
  | some (g, b) =>
    let first := cmdBits b 0x08 4 12 0
    let cnt := cmdBits b 0x0C 4 13 0
    .next (refuseOr s c (firstBreach [
        (headerOk b && zeroBits (fieldAt b 0x08 4) 31 13 && zeroBits (fieldAt b 0x0C 4) 31 14 && zeroBytes b 0x10 0x40, 0, 1),
        (cnt != 0 && decide (cnt ≤ 8192), 0, 7),
        (decide (first + cnt ≤ s.scaleLen (partOf c)) || (first == 0 && cnt == 1), 0, 4)])
      ((s.issueCmd c g b true).modSeg c (fun h =>
        { h with steps := h.steps ++ ((List.range cnt).map (fun i => first + i)).filter (fun i => i != 0) })))

/-! ### Micro-batches (R128) -/

/-- STATE of a micro-batch slot. -/
def mbState (s : State) (c : CoreIx) (g : Seg) (slot : Nat) : Nat := stashRd s c g (mbAt slot + 2) 1 % 4

/-- The slot that holds a tag. -/
def mbFind (s : State) (c : CoreIx) (g : Seg) (tag : Nat) : Option Nat :=
  (List.range 32).find? (fun i => mbState s c g i != 0 && stashRd s c g (mbAt i) 2 == tag)

/-- The lowest FREE slot. -/
def mbFree (s : State) (c : CoreIx) (g : Seg) : Option Nat := (List.range 32).find? (fun i => mbState s c g i == 0)

/-- MB_INFLIGHT as it acts (R127). -/
def mbInflight (v : Nat) : Nat := clamp 1 32 v

/-- A segment of a micro-batch goes on. -/
def State.mbJoin (s : State) (c : CoreIx) (g : Seg) (b : List Byte) (slot tag dir : Nat) (skip : Bool) : State :=
  (s.issueCmd c g b true).modSeg c (fun h => { h with mbTag := tag, mbDir := dir, mbSlot := some slot, skip := skip })

/-- The paused start of R128: the segment is not started, and the context leaves the row. -/
def State.pausedStart (s : State) (c : CoreIx) (g : Seg) : State :=
  ((s.ctxSetState g.ctx 1).modCore c (fun k =>
    { k with seg := none, ctx := none, leftRow := g.ctx :: k.leftRow, leftStash := true, pickTime := s.time })).seqState c 0

/-- The stash control block is there and mapped (R127, R175): its range, written. -/
def stashRange (s : State) (k : Nat) : List (Nat × Nat × Bool) := [(s.ctxRd k 0x18 8, 16640, true)]
/-- What a later stash command of a segment reads of the block: its header and the micro-batch's slot; of a block in T3 MB_BEGIN has read
it (R127, R210; log entry 169). -/
def stashReads (s : State) (c : CoreIx) (g : Seg) : List (Nat × Nat) :=
  let a := s.ctxRd g.ctx 0x18 8
  ((a, 256) :: (match g.mbSlot with
    | some i => [(a + mbAt i, 512)]
    | none => [])).filter (fun r => (stashAddr s c g.ctx (r.1 - a)).isSome)
/-- The segment keeps what MB_BEGIN has read of a stash control block in T3 (R127). -/
def State.takeBlock (s : State) (c : CoreIx) : State :=
  s.modSeg c (fun g => { g with farBlock := (g.remote.filter (fun p => p.space == 1 && p.work == g.nextId)).filterMap (fun p =>
    p.data.map (fun d => (p.addr, d))) })

/-- MB_BEGIN reads the stash control block: what lies in T3 by remote reads first, and a poisoned word of it is consumed (R127, R210). -/
def State.readBlock (s : State) (c : CoreIx) (g : Seg) (go : State → State) : State :=
  let r := [(s.ctxRd g.ctx 0x18 8, 16640)]
  withRemote s c ((s.seg c).getD g) r (fun t => checked t c g.ctx none [] r (fun u => go (u.takeBlock c)))

/-- MB_BEGIN (R128): a TAG of 0 lies outside its range of R155 and is refused (log entry 142). -/
def execMbBegin (c : CoreIx) (s : State) : Out := s.meanwhile c fun s =>
  match ready s c 0x01 with
  | none => .next s
  | some (g, b) =>
    let tag := fieldAt b 0x08 2
    let dir := cmdBits b 0x08 4 16 16
    .next (checked s c g.ctx (firstBreach [
        (headerOk b && zeroBits (fieldAt b 0x08 4) 31 17 && zeroBytes b 0x0C 0x40, 0, 1),
        (tag != 0, 0, 7), (g.nextId == 0, 0, 7), (s.ctxRd g.ctx 0x18 8 != 0, 0, 7)]) (stashRange s g.ctx) [] (fun t0 => t0.readBlock c g (fun t =>
      let g := (t.seg c).getD g
      match mbFind t c g tag with
      | none =>
        if dir = 1 then t.descFault c 0 7
        else
          let open_ := stashRd t c g 0x49 1
          match mbFree t c g with
          | none => t.pausedStart c g
          | some slot =>
            if stashRd t c g 0x4A 1 % 2 = 1 ∨ mbInflight (stashRd t c g 0x48 1) ≤ open_ then t.pausedStart c g
            else
              (((t.stashWr c g.ctx (mbAt slot) 2 tag).stashWr c g.ctx (mbAt slot + 2) 1 1).stashWr c g.ctx 0x49 1
                (open_ + 1)).mbJoin c g b slot tag dir false
      | some slot =>
        let st := mbState t c g slot
        if st = 3 then t.mbJoin c g b slot tag dir true
        else if st = 2 ∧ dir = 0 then t.descFault c 0 7
        else if st = 1 ∧ dir = 1 then (t.stashWr c g.ctx (mbAt slot + 2) 1 2).mbJoin c g b slot tag dir false
        else t.mbJoin c g b slot tag dir false)))

/-- MB_END (R128, R155): it completes at issue and frees the slot at the lift. -/
def execMbEnd (c : CoreIx) (s : State) : Out := s.meanwhile c fun s =>
  match ready s c 0x02 with
  | none => .next s
  | some (g, b) =>
    .next (refuseOr s c (firstBreach [(plainOk b 8, 0, 1), (s.ctxRd g.ctx 0x18 8 != 0, 0, 7), (g.mbSlot.isSome, 0, 7)])
      ((s.issueCmd c g b true).modSeg c (fun h => { h with mbEnd := true })))

/-! ### The stash (R129, R130, R216) -/

/-- Entry e of a slot in the stash control block. -/
def stashEnt (slot e : Nat) : Nat := mbAt slot + 0x10 + 0x10 * e

/-- The leaf entries of pages from an object address on. -/
def leavesOf (s : State) (ctx addr pages : Nat) : Option (List Nat) :=
  (List.range pages).mapM (fun i => leafAddr s ctx (addr / 65536 + i))

/-- The tier that takes a stash entry of `len` bytes and p pages (R129); `rest`: RESERVE held back. -/
def stashTier (s : State) (c : CoreIx) (g : Seg) (len p : Nat) : Option Nat :=
  let n := partOf c
  let ten := s.ctxTenant g.ctx
  let quota := fun (t : Nat) => 65536 * (stashRd s c g (8 * t) 8 / 65536)
  let used := fun (t : Nat) => stashRd s c g (0x18 + 8 * t) 8
  let back := fun (t : Nat) => if t = 0 then stashRd s c g 0x30 8 else 0
  [0, 1, 2].find? (fun t => decide (used t + len + back t ≤ quota t) && decide (p ≤ s.stackCount n ten t))

/-- Stash full (R130 step 3): event, counts, record. -/
def State.stashFull (s : State) (c : CoreIx) (g : Seg) : State :=
  let n := partOf c
  let was1 := b2n (mbInflight (stashRd s c g 0x48 1) == 1)
  let d := g.mbTag + 65536 * was1
  let s1 := s.stashNow c g.ctx 0x4C (toLE 4 (stashDry s c g.ctx 0x4C 4 + 1))
  let s2 := ((s1.event g.ctx 2 d).flag (TRN.EVENTS_n.STASH_FULL n) 1).bump (TRN.WAITS_n.STASH_FULL_COUNT n) 1
  s2.raise (s2.cmdRecord c g.ctx 0x12 0 d)

/-- Start the mover's first command, if it has not started: 512 B per aclk (R145), remote reads asked for. -/
def State.startMover (s : State) (c : CoreIx) (start : MovOp → State → State) : State :=
  match (s.core c).mover with
  | m :: r =>
    if m.started then s
    else start m (s.modCore c (fun k => { k with mover := { m with started := true } :: r }))
  | [] => s

/-- A companion read for a piece: through the cache in a cached region, else RD_NC; it fails at once where the module is not
attached (R281, R287, R290). -/
def State.companionRead (s : State) (c : CoreIx) (p : Piece) : State :=
  if !s.attached then
    ((s.bump FRL.ERRORS.TIMEOUTS 1).raise { code := 0x38, domain := 15, addr := p.addr, d0 := 3 }).deliverPoison c p.tag
  else if s.cachedRegion p.addr then
    s.cacheAccess p.addr { write := false, part := (partOf c).val, core := c.val, tag := p.tag, off := 0, data := [] } none
  else
    s.frlRequest { fmsg 0 0x03 0 p.addr with linesM1 := BitVec.ofNat 3 (p.len / 64 - 1) } (some (partOf c).val)
      (.rdNc c.val p.tag) none

/-- Ask for a companion range: lines in a cached region, else up to 512 B (R277, R281). -/
def State.needCompanion (s : State) (c : CoreIx) (work addr len : Nat) : State :=
  let cuts := (cutRange (len / 512 + 2) addr len).flatMap (fun r =>
    if s.cachedRegion r.1 then (List.range (r.2 / 64)).map (fun i => (r.1 + 64 * i, 64)) else [r])
  let gen := s.get (SEQ.GEN.GEN c)
  cuts.foldl (fun t r =>
    match t.seg c with
    | none => t
    | some g =>
      let p : Piece := { space := 2, tag := pieceNo gen g.nextTag, addr := r.1, len := r.2, sent := true, work := work }
      (t.modSeg c (fun h => { h with remote := h.remote ++ [p], nextTag := h.nextTag + 1 })).companionRead c p) s

/-- COPY's fields (R155). -/
def cpSrc (b : List Byte) : Nat := fieldAt b 0x08 8
def cpDst (b : List Byte) : Nat := fieldAt b 0x10 8
def cpLen (b : List Byte) : Nat := fieldAt b 0x18 4
def cpSrcSpace (b : List Byte) : Nat := cmdBits b 0x1C 4 1 0
def cpDstSpace (b : List Byte) : Nat := cmdBits b 0x1C 4 3 2
def cpWdesc (b : List Byte) : Bool := cmdBits b 0x1C 4 4 4 == 1
def cpFill (b : List Byte) : Bool := cmdBits b 0x1C 4 5 5 == 1
/-- STASH_PUT's fields (R155). -/
def spAddr (b : List Byte) : Nat := fieldAt b 0x08 8
def spLen (b : List Byte) : Nat := fieldAt b 0x10 4
def spSource (b : List Byte) : Nat := fieldAt b 0x18 8

/-- What the mover does when it starts a command: its due slot, and its remote reads. -/
def moverStart (c : CoreIx) (m : MovOp) (s : State) : State :=
  let b := m.cmd
  let put := cmdOpcode b == 0x15
  let len := if put then spLen b else cpLen b
  let t := s.modCore c (fun k =>
    { k with mover := k.mover.map (fun x => if x.work = m.work then { x with due := s.slot (partOf c) + ceilDiv len 512 } else x) })
  match t.seg c with
  | none => t
  | some g =>
    let obj := fun (a : Nat) => t.needRemote c 1 m.work (chartRanges t c g.ctx (pageCount a len) a len)
    if put then obj (spSource b)
    else if cpFill b && !cpWdesc b then t
    else if cpSrcSpace b = 0 then obj (cpSrc b)
    else if cpSrcSpace b = 1 then t.needRemote c 1 m.work [(cpSrc b, if cpWdesc b then 64 else len)]
    else t.needCompanion c m.work (cpSrc b) len

/-- Give a command to the mover (R147): one running, one pending. -/
def State.toMover (s : State) (c : CoreIx) (g : Seg) (b : List Byte) : State :=
  let t := s.modCore c (fun k => { k with mover := k.mover ++ [{ work := g.nextId, cmd := b }] })
  (t.issueCmd c g b false).startMover c (moverStart c)

/-- The mover can accept a command. -/
def moverFree (s : State) (c : CoreIx) : Bool := decide ((s.core c).mover.length < 2)

/-- Place a stash entry in tier t: frames popped, USED raised, the entry appended (R129, R216). -/
def State.stashPlace (s : State) (c : CoreIx) (g : Seg) (b : List Byte) (slot t len : Nat) (leaves : List Nat)
    (reserve : Bool) : State :=
  let n := partOf c
  match popFrames n (s.ctxTenant g.ctx) t leaves.length s with
  | none => s
  | some (fs, u) =>
    let e := stashRd s c g (mbAt slot + 4) 1
    let u1 := u.stashWr c g.ctx (0x18 + 8 * t) 8 (stashRd s c g (0x18 + 8 * t) 8 + len)
    let u2 := (u1.stashWr c g.ctx (stashEnt slot e) 8 (spAddr b)).stashWr c g.ctx (stashEnt slot e + 8) 8 (len + 4294967296 * t)
    let u3 := u2.stashWr c g.ctx (mbAt slot + 4) 1 (e + 1)
    let ps := (List.range leaves.length).map (fun i => (leaves.getD i 0, t, frameBase n t (fs.getD i 0)))
    let u4 := u3.modSeg c (fun h => { h with puts := h.puts ++ ps, reserve := h.reserve || reserve })
    if spSource b = 0 then u4.issueCmd c g b true else u4.toMover c g b

/-- STASH_PUT (R129, R130, R216). -/
def execStashPut (c : CoreIx) (s : State) : Out := s.meanwhile c fun s =>
  match ready s c 0x15 with
  | none => .next s
  | some (g, b) =>
    if spSource b != 0 && !moverFree s c then .next s
    else
      let a := spAddr b
      let p := ceilDiv (spLen b) 65536
      let len := 65536 * p
      .next (checked s c g.ctx (firstBreach [
          (headerOk b && zeroBytes b 0x14 0x18 && zeroBytes b 0x20 0x40, 0, 1),
          (s.ctxRd g.ctx 0x18 8 != 0, 0, 7), (g.mbSlot.isSome, 0, 7), (a % 65536 == 0, a, 7)])
        (stashRange s g.ctx ++ (if spSource b = 0 then [] else [(spSource b, spLen b, false)])) (stashReads s c g) (fun t =>
        let g := (t.seg c).getD g
        let slot := g.mbSlot.getD 0
        let base := stashRd t c g 0x38 8
        let size := stashRd t c g 0x40 8
        match firstBreach [(decide (base ≤ a) && decide (a + len ≤ base + size), a, 7),
            (decide (stashRd t c g (mbAt slot + 4) 1 < 16), a, 7)], leavesOf t g.ctx a p with
        | some (x, d), _ => t.descFault c x d
        | none, none => t.descFault c a 5
        | none, some leaves =>
          match stashTier t c g len p with
          | some tier => t.stashPlace c g b slot tier len leaves false
          | none =>
            let quota := 65536 * (stashRd t c g 0 8 / 65536)
            let u := t.stashFull c g
            if stashRd t c g 0x18 8 + len ≤ quota ∧ p ≤ t.stackCount (partOf c) (t.ctxTenant g.ctx) 0 then
              u.stashPlace c g b slot 0 len leaves true
            else u.killSeg c 7))

/-- Lower USED for the pages of a stash entry, each by the tier it lies in now (R129, R155). -/
def State.stashUncharge (s : State) (c : CoreIx) (g : Seg) (addr pages : Nat) : State :=
  (List.range pages).foldl (fun t i =>
    match findLeaf t c g.ctx (addr / 65536 + i) with
    | some (_, ent) =>
      let tier := bits ent 2 1
      let g' := (t.seg c).getD g
      t.stashWr c g.ctx (0x18 + 8 * tier) 8 (stashRd t c g' (0x18 + 8 * tier) 8 - 65536)
    | none => t) s

/-- The pages of an entry go with the lift (R216). -/
def State.stashDropPages (s : State) (c : CoreIx) (g : Seg) (addr pages : Nat) : State :=
  match leavesOf s g.ctx addr pages with
  | some l => s.modSeg c (fun h => { h with frees := h.frees ++ l })
  | none => s

/-- STASH_FREE (R155, R216): the entry goes, and later ones move up (log entry 36). -/
def execStashFree (c : CoreIx) (s : State) : Out := s.meanwhile c fun s =>
  match ready s c 0x16 with
  | none => .next s
  | some (g, b) =>
    let a := fieldAt b 0x08 8
    .next (checked s c g.ctx (firstBreach [(plainOk b 0x10, 0, 1), (s.ctxRd g.ctx 0x18 8 != 0, 0, 7), (g.mbSlot.isSome, 0, 7)])
      (stashRange s g.ctx) (stashReads s c g) (fun t =>
        let g := (t.seg c).getD g
        let slot := g.mbSlot.getD 0
        let cnt := stashRd t c g (mbAt slot + 4) 1
        match (List.range cnt).find? (fun e => stashRd t c g (stashEnt slot e) 8 == a) with
        | none => t.descFault c a 7
        | some e =>
          let pages := stashRd t c g (stashEnt slot e + 8) 4 / 65536
          let t1 := (t.stashUncharge c g a pages).stashDropPages c g a pages
          let t2 := (List.range (cnt - 1 - e)).foldl (fun u i =>
            u.stashWr c g.ctx (stashEnt slot (e + i)) 16 (stashRd t c g (stashEnt slot (e + i + 1)) 16)) t1
          (t2.stashWr c g.ctx (mbAt slot + 4) 1 (cnt - 1)).issueCmd c ((t2.seg c).getD g) b true))

/-! ### COPY (R155, R253) -/

/-- The first breach of a COPY's fields, whatever its form. -/
def copyBreach (b : List Byte) : Option (Nat × Nat) :=
  firstBreach [
    (headerOk b && zeroBits (fieldAt b 0x1C 4) 31 6 && zeroBytes b 0x28 0x40, 0, 1),
    (cpLen b != 0 && cpLen b % 64 == 0, 0, 7),
    (cpSrcSpace b != 3 && cpDstSpace b != 3, 0, 7),
    (cpWdesc b || cpDst b % 64 == 0, cpDst b, 7),
    ((cpFill b && !cpWdesc b) || cpSrc b % 64 == 0, cpSrc b, 7),
    ((cpFill b && !cpWdesc b) || cpSrcSpace b == 0 || cpDstSpace b == 0, 0, 7),
    (!cpWdesc b || cpSrcSpace b == 1, 0, 7)]

/-- Local operand ranges of a COPY that is no gather. -/
def copyRanges (b : List Byte) : List (Nat × Nat × Bool) :=
  (if cpFill b || cpSrcSpace b != 0 then [] else [(cpSrc b, cpLen b, false)])
  ++ (if cpDstSpace b = 0 then [(cpDst b, cpLen b, true)] else [])

/-- The queued operations of a COPY to the Chart or to companion memory: up to 512 B each (R164, R232, R277). -/
def copyCuts (b : List Byte) : List (Nat × Nat) := cutRange (cpLen b / 512 + 2) (cpDst b) (cpLen b)

/-- What a COPY to the Chart or to companion memory takes as it issues: its place in the outbound queue, to which the mover brings the data
(R164, R165). -/
def State.copyClaims (s : State) (c : CoreIx) (ctx seq : Nat) (b : List Byte) : Got :=
  if cpWdesc b then .ok s
  else if cpDstSpace b = 0 then .ok s
  else match queueRoom s c ctx (((copyCuts b).map (fun r => r.2 + 64)).sum) with
    | .ok t => .ok ((copyCuts b).foldl (fun u r =>
        u.enqueue c ctx (r.2 + 64) (if cpDstSpace b = 1 then .chartWrite r.1 [] [] else .wrNc r.1 [] []) seq) t)
    | r => r

/-- Issue a COPY of one form. -/
def issueCopy (c : CoreIx) (form : List Byte → Bool) (more : State → List Byte → Option (Nat × Nat))
    (ranges : State → List Byte → List (Nat × Nat × Bool)) (s : State) : Out :=
  match ready s c 0x20 with
  | none => .next s
  | some (g, b) =>
    if form b && moverFree s c then
      .next (checked s c g.ctx (match copyBreach b with | some x => some x | none => more s b) (ranges s b) [] (fun t =>
        (t.copyClaims c g.ctx g.nextId b).run c (fun u => u.toMover c ((u.seg c).getD g) b)))
    else .next s

/-- COPY (R155): neither a fill nor a gather. -/
def execCopy (c : CoreIx) (s : State) : Out := s.meanwhile c fun s =>
  issueCopy c (fun b => !cpFill b && !cpWdesc b) (fun _ _ => none) (fun _ b => copyRanges b) s

/-- COPY_FILL (R155). -/
def execCopyFill (c : CoreIx) (s : State) : Out := s.meanwhile c fun s =>
  issueCopy c (fun b => cpFill b && !cpWdesc b) (fun _ _ => none) (fun _ b => copyRanges b) s

/-- Bytes of the parts of a gather's source after its stamp: base in slot v and length of each (R253). -/
def gatherParts (s : State) (n : PartIx) (i v : Nat) : List (Nat × Nat) :=
  let k := s.wd n i 8 4
  let w := s.wd n i 0xC 4
  let mx := isMx (bits (s.wd n i 0 2) 10 8)
  [(s.wd n i (0x18 + 0x18 * v) 8, k * s.wd n i 0x78 4), (s.wd n i (0x20 + 0x18 * v) 8, w * s.wd n i 0x7C 4)]
  ++ (if mx then [(s.wd n i (0x80 + 0x10 * v) 8, k / 32 * s.wd n i 0xA0 4),
                  (s.wd n i (0x88 + 0x10 * v) 8, w / 32 * s.wd n i 0xA4 4)] else [])

/-- COPY_GATHER (R134, R253): LEN must be 64 plus the sizes of the descriptor's copies. -/
def execCopyGather (c : CoreIx) (s : State) : Out := s.meanwhile c fun s =>
  let n := partOf c
  issueCopy c cpWdesc
    (fun s b => firstBreach [(s.descOk n (cpDst b % 4096), 0, 4),
      (cpLen b == 64 + ((gatherParts s n (cpDst b % 4096) 0).map Prod.snd).sum, 0, 7)])
    (fun s b => [0, 1].flatMap (fun v => (gatherParts s n (cpDst b % 4096) v).map (fun r => (r.1, r.2, true)))) s

/-- The mover's command is done: the next one starts. -/
def State.moverDone (s : State) (c : CoreIx) (work : Nat) : State :=
  ((s.modCore c (fun k => { k with mover := k.mover.filter (fun m => m.work != work) })).completeWork c work).startMover c
    (moverStart c)

/-- The bytes a COPY moves and the offsets of its poisoned words. -/
def copyData (s : State) (c : CoreIx) (ctx : Nat) (b : List Byte) : List Byte × List Nat :=
  if cpFill b then ((List.range (cpLen b)).map (fun i => BitVec.ofNat 8 (fieldAt b (0x20 + i % 8) 1)), [])
  else if cpSrcSpace b = 0 then objRead s c ctx (cpSrc b) (cpLen b)
  else remoteRead s c (cpSrcSpace b) (cpSrc b) (cpLen b)

/-- Each poisoned word that a COPY reads writes one record (R210), FENCE_ACCESS where it is fenced (R322). -/
def State.copyPoison (s : State) (c : CoreIx) (ctx : Nat) (b : List Byte) : State :=
  if cpFill b then s
  else if cpSrcSpace b = 0 then s.consume c ctx 10 1 b [(cpSrc b, cpLen b)]
  else (remoteRead s c (cpSrcSpace b) (cpSrc b) (cpLen b)).2.foldl (fun t o =>
    t.raise { code := 3, domain := domPart (partOf c), ctx := some ctx, core := c.val, unit := 10, cmdId := cmdId b,
              opcode := cmdOpcode b, addr := cpSrc b + o, d0 := 1 }) s

/-- Claim what a COPY's destination needs. -/
def copyClaim (s : State) (c : CoreIx) (ctx : Nat) (b : List Byte) : Got :=
  if cpDstSpace b = 0 then claimRanges c ctx [(cpDst b, cpLen b)] s
  else .ok s

/-- The data of the queued operation of command `seq` at an address. -/
def State.queueData (s : State) (c : CoreIx) (seq addr : Nat) (k : OutKind) : State :=
  s.modPart (partOf c) (fun p => { p with outq := p.outq.map (fun e =>
    if e.core = c.val ∧ e.state = .wet ∧ e.seq = seq ∧ e.kind.addr = addr then { e with kind := k } else e) })

/-- Write a COPY's bytes to its destination: wet pages, or its queue entries (R155, R160, R164). -/
def State.copyOut (s : State) (c : CoreIx) (ctx work : Nat) (b : List Byte) (bs : List Byte) (bad : List Nat) : State :=
  if cpDstSpace b = 0 then (s.writes c work).objStoreBad c ctx (cpDst b) bs bad
  else (copyCuts b).foldl (fun t r =>
    let o := r.1 - cpDst b
    let mine := bad.filterMap (fun x => if o ≤ x ∧ x < o + r.2 then some (x - o) else none)
    if cpDstSpace b = 1 then t.queueData c work r.1 (.chartWrite r.1 (slice bs o r.2) mine)
    else
      (t.freeWords (slice bs o r.2) mine).2.queueData c work r.1 (.wrNc r.1 (t.freeWords (slice bs o r.2) mine).1 mine)) s

/-- A gather's data goes to slot v (R134, R253); `fail`: its destination words are written poisoned. -/
def State.gatherOut (s : State) (c : CoreIx) (ctx i v : Nat) (bs : List Byte) (bad : List Nat) (fail : Bool) : State :=
  ((gatherParts s (partOf c) i v).foldl (fun (a : Nat × State) r =>
    let mine := if fail then (List.range (ceilDiv r.2 4)).map (fun q => 4 * q)
      else bad.filterMap (fun x => if a.1 ≤ x ∧ x < a.1 + r.2 then some (x - a.1) else none)
    (a.1 + r.2, a.2.objStoreBad c ctx r.1 (slice bs a.1 r.2) mine)) (64, s)).2

/-- A gather goes on to read part of its source (R253): all that it has read is forgotten where it begins again with its stamp. -/
def State.reread (s : State) (c : CoreIx) (m : MovOp) (phase off len : Nat) (stamp : Option (List Byte)) (tries : Nat) : State :=
  let t := if phase = 0 then
      s.modSeg c (fun g => { g with remote := g.remote.filter (fun p => p.work != m.work) })
    else s
  (t.modCore c (fun k =>
    { k with mover := k.mover.map (fun x =>
      if x.work = m.work then { x with phase := phase, stamp := stamp, tries := tries } else x) })).needRemote
    c 1 m.work [(cpSrc m.cmd + off, len)]

/-- What a gather asked for has come (R253): the stamp, then the data, then the stamp again; where the stamps differ it reads
everything again, up to three times in all. -/
def State.gatherStep (s : State) (c : CoreIx) (g : Seg) (m : MovOp) : State :=
  let b := m.cmd
  let n := partOf c
  let i := cpDst b % 4096
  let (st, stBad) := remoteRead s c 1 (cpSrc b) 64
  if !stBad.isEmpty then
    (s.raise { s.cmdRecord c g.ctx 0x03 (cpSrc b) 2 with cmdId := cmdId b, opcode := cmdOpcode b }).descFault c (cpSrc b) 7
  else match m.phase, m.stamp with
    | 1, some first => s.reread c m 2 0 64 (some first) m.tries
    | 2, some first =>
      let u := fieldAt st 0 4
      let same := first == st && u != 0
      if !same && decide (m.tries < 2) then s.reread c m 0 0 64 none (m.tries + 1)
      else
        let (v, r) := gatherSlot s n i u
        let (bs, bad) := remoteRead s c 1 (cpSrc b) (cpLen b)
        (claimRanges c g.ctx (gatherParts s n i v) s).run c (fun t =>
          let t1 := t.gatherOut c g.ctx i v bs bad (!same)
          let t2 := if same then t1.modSeg c (fun h => { h with gathers := h.gathers ++ [(i, v, u, r)] }) else t1
          t2.moverDone c m.work)
    | _, _ => s.reread c m 1 64 (cpLen b - 64) (some st) m.tries

/-- COPY_COMPLETE (R145, R148, R150): the mover has moved the last byte of its running COPY; its output is written, and its wet pages are
claimed, now (R161; log entry 173). -/
def execCopyComplete (c : CoreIx) (s : State) : Out := s.meanwhile c fun s =>
  match s.seg c, (s.core c).mover with
  | some g, m :: _ =>
    let b := m.cmd
    if s.advances (partOf c) && m.started && cmdOpcode b == 0x20 && decide (m.due ≤ s.slot (partOf c)) && remoteDone s c m.work then
      if cpWdesc b then .next (s.gatherStep c g m)
      else .next ((copyClaim s c g.ctx b).run c (fun t =>
        let (bs, bad) := copyData t c g.ctx b
        ((t.copyPoison c g.ctx b).copyOut c g.ctx m.work b bs bad).moverDone c m.work))
    else .next s
  | _, _ => .next s

/-- STASH_PUT_COMPLETE (R150): the source lies in the stash, wet. -/
def execStashPutComplete (c : CoreIx) (s : State) : Out := s.meanwhile c fun s =>
  match s.seg c, (s.core c).mover with
  | some g, m :: _ =>
    let b := m.cmd
    if s.advances (partOf c) && m.started && cmdOpcode b == 0x15 && decide (m.due ≤ s.slot (partOf c)) && remoteDone s c m.work then
      .next ((claimRanges c g.ctx [(spAddr b, spLen b)] s).run c (fun t =>
        let (bs, bad) := objRead t c g.ctx (spSource b) (spLen b)
        ((t.consume c g.ctx 10 1 b [(spSource b, spLen b)]).objStoreBad c g.ctx (spAddr b) bs bad).moverDone c m.work))
    else .next s
  | _, _ => .next s

/-- NOTIFY (R155, R164, R165): queued. -/
def execNotify (c : CoreIx) (s : State) : Out := s.meanwhile c fun s =>
  match ready s c 0x21 with
  | none => .next s
  | some (g, b) =>
    let a := fieldAt b 0x08 8
    let k := OutKind.notify a (fieldAt b 0x10 8) (cmdBits b 0x18 4 0 0 == 1)
    .next (refuseOr s c (firstBreach [(headerOk b && zeroBits (fieldAt b 0x18 4) 31 1 && zeroBytes b 0x1C 0x40, 0, 1),
        (a % 8 == 0, a, 7)])
      ((queueRoom s c g.ctx 128).run c (fun t => (t.enqueue c g.ctx 128 k g.nextId).issueCmd c ((t.seg c).getD g) b true)))

/-! ### Semaphores (R155, R166 to R168) -/

def smAddr (b : List Byte) : Nat := fieldAt b 0x08 8
def smValue (b : List Byte) : Nat := fieldAt b 0x10 4
def smCond (b : List Byte) : Nat := cmdBits b 0x14 4 1 0
def smChart (b : List Byte) : Bool := cmdBits b 0x14 4 2 2 == 1

/-- Where a semaphore lies. -/
inductive SemPlace where
  | here (a : Nat)
  | there (chart : Nat)
deriving DecidableEq, Repr

/-- The place of a semaphore command's semaphore: a T3 page is at its Chart address (log entry 37). -/
def semPlace (s : State) (c : CoreIx) (ctx : Nat) (b : List Byte) : SemPlace :=
  if smChart b then .there (smAddr b)
  else match pageLoc s c ctx (smAddr b / 65536) false with
    | some (.local_ base _) => .here (base + smAddr b % 65536)
    | some (.chart base) => .there (base + smAddr b % 65536)
    | none => .here 0

/-- The first breach of a semaphore command's fields; a LEASE of 0 lies outside its range of R155 (log entry 142). -/
def semBreach (b : List Byte) : Option (Nat × Nat) :=
  let wait := cmdOpcode b == 0x30
  firstBreach [
    (headerOk b && zeroBits (fieldAt b 0x14 4) 31 3 && (wait || zeroBits (fieldAt b 0x14 4) 1 0)
      && (cmdOpcode b != 0x33 || zeroBytes b 0x10 0x14) && zeroBytes b 0x18 0x40, 0, 1),
    (smAddr b % 16 == 0, smAddr b, 7),
    (!wait || smCond b != 3, smAddr b, 7),
    (cmdOpcode b != 0x32 || smValue b != 0, smAddr b, 7)]

/-- Check a semaphore command, translate its semaphore, and go on. -/
def semChecked (s : State) (c : CoreIx) (ctx : Nat) (b : List Byte) (go : State → State) : State :=
  checked s c ctx (semBreach b) (if smChart b then [] else [(smAddr b, 16, cmdOpcode b != 0x30)]) [] (fun t =>
    match semPlace t c ctx b with
    | .here _ => checked t c ctx none [] [(smAddr b, 16)] go
    | .there _ => go t)

/-- The latency of a semaphore operation (R53). -/
def semLatency (c : CoreIx) (a : Nat) : Nat :=
  match place a with
  | some (_, n, _) => if n = partOf c then 16 else 32
  | none => 32

/-- The next place in the order in which requests, of this module's segments and of the Chart, reach semaphores (R167; log entry 80). -/
def semOrder (s : State) : Nat :=
  s.chart.waiters.foldl (fun m w => max m (w.order + 1))
    (allCores.foldl (fun m c => match s.seg c with
      | some g => g.semWait.foldl (fun k w => max k (w.order + 1)) m
      | none => m) 0)

/-- An acquisition that holds reached the semaphore at local offset a before place k of the order (R167). -/
def semAhead (s : State) (a k : Nat) : Bool :=
  allCores.any (fun d => match s.seg d with
    | some h => h.semWait.any (fun v => v.opcode == 0x32 && !v.chart && !v.met && v.addr == a && decide (v.order < k))
    | none => false)
  || s.chart.waiters.any (fun w => w.pkt.opcode.toNat == 3 && w.at_ == a && decide (w.order < k))

/-- The condition of SEM_WAIT (R155). -/
def semCond (cond v x : Nat) : Bool := if cond = 0 then decide (x ≤ v) else if cond = 1 then v == x else v != x

/-- A local SEM_WAIT whose condition the semaphore meets now, or has met since it issued (R166). -/
def semMet (s : State) (w : SemWaitSt) : Bool := w.met || (!w.chart && semCond w.cond (s.rdLE w.addr 4) w.value)

/-- The SEM_WAITs of a segment that find their condition true are marked (R166); a semaphore in fenced memory ends the segment (R322). -/
def State.semLook (s : State) (c : CoreIx) : State :=
  match s.seg c with
  | none => s
  | some g =>
    match g.semWait.find? (fun w => !w.chart && !w.met && fencedFor s c w.addr) with
    | some w => s.semFenced c g w.addr
    | none =>
    if g.semWait.any (fun w => w.opcode == 0x30 && !w.met && semMet s w) then
      s.modSeg c (fun h => { h with semWait := h.semWait.map (fun w =>
        if w.opcode = 0x30 then { w with met := semMet s w } else w) })
    else s

/-- No acquisition holds for the same semaphore that reached it before this one (R167); the holder's own extension holds for
nobody. -/
def semFirst (s : State) (k : Nat) (w : SemWaitSt) : Bool :=
  (leaseOf s w.addr == .live && heldByCtx s w.addr s.selfModule k) || !semAhead s w.addr w.order

/-- The first acquisition of a segment that holds and can be granted now, with what it finds (R167). -/
def semGrant (s : State) (c : CoreIx) (g : Seg) : Option (SemWaitSt × State × Bool × Bool) :=
  g.semWait.findSome? (fun w =>
    if w.opcode == 0x32 && !w.chart && !w.met && semFirst s g.ctx w then
      (semAcquireAt s w.addr s.selfModule g.ctx w.value).map (fun r => (w, r))
    else none)

/-- A lease is granted to an acquisition: marked to the segment where it is new, counted where it follows an expired one (R167). -/
def State.semGranted (s : State) (c : CoreIx) (w : SemWaitSt) (anew expired : Bool) : State :=
  let t := s.modSeg c (fun h =>
    { h with
      semWait := h.semWait.map (fun v => if v.work = w.work then { v with met := true } else v)
      marked := if anew then h.marked ++ [(w.addr, false)] else h.marked })
  if expired then t.bump (SEQ.LEASE.EXPIRED c) 1 else t

/-- The acquisition of a segment that can be granted is granted (R167). -/
def State.semTryGrant (s : State) (c : CoreIx) : State :=
  match s.seg c with
  | none => s
  | some g =>
    match semGrant s c g with
    | none => s
    | some (w, t, anew, expired) => t.semGranted c w anew expired

/-- Begin a SEM_WAIT or SEM_ACQUIRE: it is outstanding, and its semaphore is looked at from its issue on (R166); a Chart operation
becomes a request to send (R168, R171). -/
def State.semBegin (s : State) (c : CoreIx) (g : Seg) (b : List Byte) : State :=
  let t := s.issueCmd c g b false
  let far := match semPlace s c g.ctx b with
    | .here _ => false
    | .there _ => true
  let a := match semPlace s c g.ctx b with
    | .here a => a
    | .there a => a
  let w : SemWaitSt := { opcode := cmdOpcode b, addr := a, value := smValue b, cond := smCond b, chart := far,
                         due := s.time + (if far then 0 else semLatency c a), work := g.nextId,
                         order := semOrder s }
  let u := t.modSeg c (fun h => { h with semWait := h.semWait ++ [w] })
  if far then
    let gen := s.get (SEQ.GEN.GEN c)
    u.modSeg c (fun h =>
      { h with remote := h.remote ++ [{ space := 3, tag := pieceNo gen h.nextTag, addr := a, len := 0, sent := false,
                                        work := g.nextId }],
               nextTag := h.nextTag + 1 })
  else (u.semLook c).semTryGrant c

/-- SEM_WAIT (R166). -/
def execSemWait (c : CoreIx) (s : State) : Out := s.meanwhile c fun s =>
  match ready s c 0x30 with
  | none => .next s
  | some (g, b) => .next (semChecked s c g.ctx b (fun t => t.semBegin c ((t.seg c).getD g) b))

/-- SEM_ACQUIRE (R166, R167). -/
def execSemAcquire (c : CoreIx) (s : State) : Out := s.meanwhile c fun s =>
  match ready s c 0x32 with
  | none => .next s
  | some (g, b) => .next (semChecked s c g.ctx b (fun t => t.semBegin c ((t.seg c).getD g) b))

/-- A semaphore command outstanding has come to its end. -/
def State.semEnd (s : State) (c : CoreIx) (work : Nat) : State :=
  (s.modSeg c (fun h => { h with semWait := h.semWait.filter (fun w => w.work != work) })).completeWork c work

/-- The local semaphore command of an opcode whose latency has passed (R53, R166), its condition met or its lease granted. -/
def semDone (s : State) (c : CoreIx) (g : Seg) (opcode : Nat) (met : SemWaitSt → Bool) : Option SemWaitSt :=
  g.semWait.find? (fun w => w.opcode == opcode && !w.chart && decide (w.due ≤ s.time) && met w)

/-- SEM_WAIT_COMPLETE (R166): the latency has passed and the local semaphore meets the condition, or has met it since the issue. -/
def execSemWaitComplete (c : CoreIx) (s : State) : Out :=
  match s.seg c with
  | none => .next s
  | some g =>
    match semDone s c g 0x30 (semMet s) with
    | none => .next s
    | some w => act s (s.runs (partOf c)) (s.semEnd c w.work)

/-- LEASE_GRANT (R166, R167): a local acquire is granted, in the order of arrival; one granted completes once its latency has
passed. -/
def execLeaseGrant (c : CoreIx) (s : State) : Out :=
  match s.seg c with
  | none => .next s
  | some g =>
    if s.runs (partOf c) then
      match semGrant s c g with
      | some (w, t, anew, expired) =>
        let u := t.semGranted c w anew expired
        .next (if w.due ≤ s.time then u.semEnd c w.work else u)
      | none =>
        match semDone s c g 0x32 (fun w => w.met) with
        | some w => .next (s.semEnd c w.work)
        | none => .next s
    else .next s

/-- LEASE_EXPIRY (R167): STK.TIME reaches LEASE_END. The state EXPIRED is read from the time, so nothing else changes. -/
def execLeaseExpiry (_ : BitVec 52) (s : State) : Out := .next s

/-- Record a semaphore operation: wet for a local semaphore, queued for a Chart one (R160, R165). -/
def State.semRecord (s : State) (c : CoreIx) (g : Seg) (b : List Byte) (delta : Option Nat) : State :=
  match semPlace s c g.ctx b with
  | .here a => (s.modSeg c (fun h => { h with semOps := h.semOps ++ [⟨a, delta, smAddr b⟩] })).issueCmd c g b true
  | .there a =>
    (queueRoom s c g.ctx 128).run c (fun t =>
      (t.enqueue c g.ctx 128 (match delta with | some d => .semAdd a d | none => .semRelease a) g.nextId).issueCmd c
        ((t.seg c).getD g) b true)

/-- SEM_ADD (R155, R160, R165). -/
def execSemAdd (c : CoreIx) (s : State) : Out := s.meanwhile c fun s =>
  match ready s c 0x31 with
  | none => .next s
  | some (g, b) => .next (semChecked s c g.ctx b (fun t => t.semRecord c ((t.seg c).getD g) b (some (smValue b))))

/-- SEM_RELEASE (R155, R160, R165). -/
def execSemRelease (c : CoreIx) (s : State) : Out := s.meanwhile c fun s =>
  match ready s c 0x33 with
  | none => .next s
  | some (g, b) => .next (semChecked s c g.ctx b (fun t => t.semRecord c ((t.seg c).getD g) b none))

end Sys2Proof.Machine
end

