-- ==== Sys2Proof/Machine/Row.lean ====
section
/-! DEFINITION. Machine/Row.lean: the rows of the stroke table on a core and the picking of contexts (R178 to R183). -/

namespace Sys2Proof.Machine

/-! ### Rows -/

/-- Bits [hi:lo] of row r of the row store. -/
def rowField (s : State) (n : PartIx) (r hi lo : Nat) : Nat :=
  match (s.part n).rows[r]? with
  | some (b, _) => bits (leNat b) hi lo
  | none => 0

/-- Row r is valid and not bad (R178, R179), and the timer did not stop at the last boundary (R44 step 3). -/
def rowRuns (s : State) (n : PartIx) (r : Nat) : Bool :=
  match (s.part n).rows[r]? with
  | some (b, bad) => bit (leNat b) 27 && !bad && !(s.part n).stopping
  | none => false

/-- A hard row. -/
def rowHard (s : State) (n : PartIx) (r : Nat) : Bool := rowField s n r 28 28 == 1
/-- The context group of a row. -/
def rowGroup (s : State) (n : PartIx) (r : Nat) : Nat := rowField s n r 71 64
/-- B of the stroke, moved by the halts of R366. -/
def strokeBase (s : State) (n : PartIx) : Nat := (s.part n).bnd + (s.part n).shift
/-- The start of a row: START below 64 counts as 64 (R179). -/
def rowStart (s : State) (n : PartIx) (r : Nat) : Nat := strokeBase s n + max 64 (rowField s n r 26 0)
/-- The scheduled end of a row (R180). -/
def rowEnd (s : State) (n : PartIx) (r : Nat) : Nat := strokeBase s n + rowField s n r 26 0 + rowField s n r 58 32
/-- The pre-emption point of a hard row (R183). -/
def rowPoint (s : State) (n : PartIx) (r : Nat) : Nat := max (rowStart s n r - 64) (strokeBase s n + 64)
/-- Row r runs on core c. -/
def rowOn (s : State) (c : CoreIx) (r : Nat) : Bool :=
  rowRuns s (partOf c) r && bit (rowField s (partOf c) r 75 72) (c.val % 4)
/-- A row has started or been skipped on a core in this stroke. -/
def rowPast (s : State) (c : CoreIx) (r : Nat) : Bool := (s.core c).past.contains r

/-- A hard row's pre-emption point has come on the core, and the row has not started (R180). -/
def pointReached (s : State) (c : CoreIx) : Bool :=
  (List.range (s.part (partOf c)).rows.length).any (fun r => rowOn s c r && rowHard s (partOf c) r && !rowPast s c r
    && decide (rowPoint s (partOf c) r ≤ s.time))

/-- A row starts on a core. -/
def State.beginRow (s : State) (c : CoreIx) (r : Nat) : State :=
  s.modCore c (fun k => { k with row := some r, past := r :: k.past, barred := [], leftRow := [], leftStash := false })

/-- A row that has not started on a core is skipped for this stroke (R180). -/
def State.skipRow (s : State) (c : CoreIx) (r : Nat) : State :=
  (s.modCore c (fun k => { k with past := r :: k.past })).bump (SCH.SKIPS_n.COUNT (partOf c)) 1

/-! ### Picking (R180) -/

/-- A context is on a core: its segment runs there, or it has been picked. -/
def onCore (s : State) (k : Nat) : Option CoreIx :=
  allCores.find? (fun c => match s.seg c with
    | some g => g.ctx == k
    | none => (s.core c).ctx == some k)

/-- Context k waits on a wet-conflict owner on some core (R176, R180). -/
def waitsOnOwner (s : State) (k : Nat) : Bool := allCores.any (fun c => (s.core c).conflict.any (fun p => p.1 == k))

/-- A context is eligible for row r on core c (R180). -/
def eligible (s : State) (c : CoreIx) (r k : Nat) : Bool :=
  let n := partOf c
  let co := s.core c
  s.ctxState k == 1 && s.ctxGroup k == rowGroup s n r && bit (s.ctxMask k) (c.val % 4) && s.ctxHead k != s.ctxTail k
  && (onCore s k).isNone && !(co.barred.contains k) && !(co.leftRow.contains k) && !((s.part n).noStart.contains k)
  && !(waitsOnOwner s k)

/-- The order of picking: PRIORITY, then the index after the context last picked for the group, with wrap-around (R180; log
entry 7). -/
def pickKey (s : State) (c : CoreIx) (group k : Nat) : Nat :=
  let i := k % 4096
  let turn := match Sparse.find? (s.core c).ptr group with
    | some last => (i + 4095 - last) % 4096
    | none => i
  4096 * (s.ctxPriority k) + turn

/-- The context that core c picks for row r. -/
def choose (s : State) (c : CoreIx) (r : Nat) : Option Nat :=
  let n := partOf c
  let all := ((List.range 4096).map (fun i => 4096 * n.val + i)).filter (fun k => eligible s c r k)
  all.foldl (fun b k => match b with
    | none => some k
    | some x => if pickKey s c (rowGroup s n r) k < pickKey s c (rowGroup s n r) x then some k else some x) none

/-- A fresh segment of a context in a row. -/
def newSeg (s : State) (c : CoreIx) (k r : Nat) (wait : Nat) : Seg :=
  let n := partOf c
  { ctx := k, row := r, hard := rowHard s n r, start := s.time + s.slotTime n wait, head := s.ctxHead k,
    issueSlot := s.slot n + wait }

/-- The registers that show a new segment (R172); while no segment runs they keep the last one's values (log entry 174). -/
def State.showSeg (s : State) (c : CoreIx) (k : Nat) : State :=
  let h := s.ctxHead k
  (((s.put (SEQ.STATE.STATE c) 1).put (SEQ.STATE.CONTEXT c) k).put (SEQ.SEG_START.ADDR c) h).put (SEQ.CMD_PTR.ADDR c) h

/-- A core takes a context: READY to RUNNING, its entry loaded (R176), errors in it met (R209, R210; log entry 167). -/
def State.takeCtx (s0 : State) (c : CoreIx) (k r : Nat) : State :=
  let s := s0.meet (s0.ctxAddr k) 128
  let g := newSeg s c k r 16
  let grp := rowGroup s (partOf c) r
  let s1 := s.modCore c (fun co => { co with seg := some g, ctx := some k, ptr := Sparse.insert co.ptr grp (k % 4096), leftStash := false })
  (s1.showSeg c k).ctxSetState k 2

/-- A core may pick now: it runs a row that has not ended, holds no segment, is not halted, and its sequencer can issue. -/
def mayPick (s : State) (c : CoreIx) : Option Nat :=
  let n := partOf c
  let co := s.core c
  match co.row with
  | none => none
  | some r =>
    if s.issues n && co.seg.isNone && !(s.on (DBG.CORE_c.HALT_REQ c)) && decide (co.canIssue ≤ s.time)
      && decide (co.pickSlot ≤ s.slot n) && decide (s.time + s.slotTime n 16 < rowEnd s n r) then some r else none

/-- A core picks, where it may (R180), in a closed slot only in the next open one (R42); where no context is eligible, it looks again
in 256 aclk. -/
def State.pick (s : State) (c : CoreIx) : State :=
  match mayPick s c with
  | none => s
  | some r =>
    if s.slotIsOpen (partOf c) then
      match choose s c r with
      | some k => s.takeCtx c k r
      | none => s.modCore c (fun co => { co with pickTime := s.time + 256 })
    else s.modCore c (fun co => { co with pickTime := s.time })

/-- Idle cores that run a row of a context's group pick (R180). -/
def State.pickGroup (s : State) (k : Nat) : State :=
  forCores (coresOf (ctxPart k)) (fun c t =>
    match (t.core c).row with
    | some r => if rowGroup t (ctxPart k) r = t.ctxGroup k then t.pick c else t
    | none => t) s

/-! ### Kills and the row they fall in -/

/-- A deadline fault (R182, R44): counts, event and record. -/
def State.deadline (s : State) (c : CoreIx) (k row : Nat) : State :=
  let n := partOf c
  let s1 := (s.bump (SCH.DEADLINES_n.COUNT n) 1).ctxBump k 0x4C 4 1
  let s2 := s1.event k 5 (row % 1024 + 65536 * (s.time % 2 ^ 48))
  s2.raise { code := 0x16, domain := domPart n, ctx := some k, core := c.val, unit := 11, d0 := row }

/-- An elastic overrun (R182, R44), counted once for a segment. -/
def State.overrun (s : State) (c : CoreIx) (k : Nat) : State :=
  ((s.bump (SCH.OVERRUNS_n.COUNT (partOf c)) 1).ctxBump k 0x50 4 1).modSeg c (fun g => { g with counted := true })

/-- What a kill of a segment with cause 1 logs of its row (R44, R182). -/
def State.boundaryLog (s : State) (c : CoreIx) (g : Seg) : State :=
  if g.hard then s.deadline c g.ctx g.row else if g.counted then s else s.overrun c g.ctx

/-! ### Several kills of one aclk (R177) -/

/-- Cause 1 recorded for a segment (R44, R45, R182): its row's log, BOUNDARY_KILLS, the bar and the health count; at the third kill
its context is halted. -/
def State.killAtRowEnd (s : State) (c : CoreIx) (x : KillSt) : State :=
  let g := x.seg
  let k := g.ctx
  let n := partOf c
  let s1 := s.boundaryLog c g
  let bk := s1.ctxBoundaryKills k + 1
  let s2 := s1.ctxSetBoundaryKills k (min 3 bk)
  let s3 := if 3 ≤ bk then
      (if s2.ctxState k = 4 then s2 else s2.haltCtx k 1).raise
        { code := 0x15, domain := domPart n, ctx := some k, core := c.val, unit := 11, addr := g.head }
    else s2
  let s4 := if x.cause = 3 then s3 else s3.killHealth n 1
  s4.modCore c (fun y => { y with barred := k :: y.barred, conflict := y.conflict.filter (fun p => p.1 != k) })

/-- A further cause kills a segment in the aclk of its kill: it is killed once, and the first in the order of R177 is recorded. -/
def State.killAlso (s : State) (c : CoreIx) (cause : Nat) : State :=
  match s.killedNow c with
  | none => s
  | some x =>
    if cause = 1 ∧ killRank 1 < killRank x.cause then (s.otherCause c x 1).killAtRowEnd c x else s.killMore c cause

/-- A segment is killed where one runs, or its kill of this aclk has one more cause (R169, R177). -/
def State.killOrAlso (s : State) (c : CoreIx) (cause : Nat) : State :=
  if killable s c then s.killSeg c cause else s.killAlso c cause

end Sys2Proof.Machine
end

