-- ==== Sys2Proof/Machine/Lift.lean ====
section
/-! DEFINITION. Machine/Lift.lean: the pen lift (R157 to R160, R165, R167, R181) and the ends of a sequencer's holds. -/

namespace Sys2Proof.Machine

/-! ### L: the fill (R158 step 1) -/

/-- Unfilled lines of a segment's wet pages in tier t. -/
def unfilled (g : Seg) (t : Nat) : Nat :=
  ((g.wet.filter (fun w => w.tier == t)).map (fun w => 512 - w.filled.length)).sum

/-- Open slots in which T1 or T2 lines remain to be filled (R158). -/
def fillFar (g : Seg) : Nat := max (ceilDiv (unfilled g 1) 5) (ceilDiv (2 * unfilled g 2) 5)
/-- F of R158. -/
def fillTime (g : Seg) : Nat := max (ceilDiv (unfilled g 0) 16) (fillFar g)

/-- L of a lift that begins now: the aclk in which the last earlier command was seen complete, where the LIFT issued in the next
open slot after it (the serving example of chapter 07); else now (R158). -/
def liftStart (g : Seg) (now : Nat) : Nat :=
  match g.doneSlot with
  | some d => if d + 1 = now ∧ g.issueSlot = now + 1 then d else now
  | none => now

/-- PEN_LIFT (R158): the sequencer sees every earlier command of the segment complete. -/
def execPenLift (c : CoreIx) (s : State) : Out :=
  match s.seg c with
  | none => .next s
  | some g =>
    match g.lift with
    | none => .next s
    | some l =>
      let now := s.slot (partOf c)
      act s (s.advances (partOf c) && !l.begun && g.work.isEmpty)
        (s.modSeg c (fun h => { h with lift := some { l with begun := true, dueC := liftStart g now + fillTime g + 8, tierTo := now + fillFar g } }))

/-! ### C: the flip (R158 steps 2 to 4) -/

/-- The first local release of a segment that fails its check (R167). -/
def failedRelease (s : State) (g : Seg) : Option SemOp :=
  g.semOps.find? (fun o => o.delta.isNone && !(decide (leaseOf s o.addr = .live) && heldByCtx s o.addr s.selfModule g.ctx))

/-- A lift that fails (R167, R168): counted, told to the context, recorded, and the segment killed. -/
def State.leaseLost (s : State) (c : CoreIx) (g : Seg) (o : SemOp) : State :=
  let s1 := (s.bump (SEQ.LEASE.LOST c) 1).event g.ctx 4 o.obj
  (s1.raise (s1.cmdRecord c g.ctx 0x13 o.obj 0)).killSeg c 8

/-- MB_END at the lift (R128): every stash entry of the slot goes, and the slot is FREE. -/
def State.mbClose (s : State) (c : CoreIx) (g : Seg) : State :=
  match g.mbSlot with
  | none => s
  | some slot =>
    if !g.mbEnd then s
    else
      let cnt := stashRd s c g (mbAt slot + 4) 1
      let s1 := (List.range cnt).foldl (fun t e =>
        let a := stashRd t c g (stashEnt slot e) 8
        let pages := stashRd t c g (stashEnt slot e + 8) 4 / 65536
        (t.stashUncharge c ((t.seg c).getD g) a pages).stashDropPages c g a pages) s
      let now := (s1.seg c).getD g
      ((s1.stashWr c g.ctx (mbAt slot + 2) 1 0).stashWr c g.ctx (mbAt slot + 4) 2 0).stashWr c g.ctx 0x49 1
        (stashRd s1 c now 0x49 1 - 1)

/-- A put from the reserve pauses forward micro-batches at the lift (R130). -/
def State.pauseWet (s : State) (c : CoreIx) (g : Seg) : State :=
  if g.reserve then s.stashWr c g.ctx 0x4A 1 (putBits (stashRd s c g 0x4A 1) 0 0 1) else s

/-- A page lies in the storage of one slot of a descriptor. -/
def inSlot (s : State) (c : CoreIx) (ctx : Nat) (i v : Nat) (w : WetPage) : Bool :=
  (slotRanges s (partOf c) i v).any (fun r =>
    (List.range (pageCount r.1 r.2)).any (fun p => leafAddr s ctx (r.1 / 65536 + p) == some w.leaf))

/-- The slot changes of a segment: descriptor, slot, tag of a gather, whether it becomes recto. -/
def slotChanges (s : State) (n : PartIx) (g : Seg) : List (Nat × Nat × Option Nat × Bool) :=
  (g.updates.filter (fun u => !u.2)).map (fun u => (u.1, 1 - s.recto n u.1, none, true))
  ++ g.gathers.map (fun p => (p.1, p.2.1, some p.2.2.1, p.2.2.2))

/-- Slot changes that must wait: another running segment latches the slot (R136). -/
def changesWait (s : State) (c : CoreIx) (d : Nat × Nat × Option Nat × Bool) : Bool :=
  (coresOf (partOf c)).any (fun e => decide (e ≠ c) && (match s.seg e with
    | some h => h.descLatch.contains (d.1, d.2.1)
    | none => false))

/-- A slot change takes effect, or waits with its pages (R134, R136, R141). -/
def State.slotChange (s : State) (c : CoreIx) (g : Seg) (d : Nat × Nat × Option Nat × Bool) : State :=
  let n := partOf c
  if changesWait s c d then
    s.deferChange n { desc := d.1, slot := d.2.1, tag := d.2.2.1, recto := d.2.2.2, ctx := g.ctx,
                      pages := g.wet.filter (inSlot s c g.ctx d.1 d.2.1) }
  else match d.2.2.1 with
    | some u => s.commitGather n d.1 d.2.1 u d.2.2.2
    | none => s.commitUpdate n d.1

/-- The stash changes of a segment become dry: bytes listed by local offset go to the frame that stands there now, fenced ones nowhere
(R322), and the lines changed in T3 to the outbound queue (R127, R160). -/
def State.dryOverlay (s : State) (c : CoreIx) (g : Seg) (flipped : List WetPage) : State :=
  let near := (g.overlay.filter (fun p => decide (p.1 < farKey 0))).map (fun p =>
    match flipped.find? (fun w => w.dry == 65536 * (p.1 / 65536)) with
    | some w => (w.wet + p.1 % 65536, p.2)
    | none => p)
  let off := near.filter (fun p => fencedFor s c p.1)
  let s1 := (near.filter (fun p => !(fencedFor s c p.1))).foldl (fun t p => t.wrBytes p.1 [p.2]) s
  let s2 := match off with
    | [] => s1
    | p :: _ => s1.fenceNote (partOf c) p.1
  let lines := ((g.overlay.filter (fun p => decide (farKey 0 ≤ p.1))).map (fun p => (p.1 - farKey 0) / 64)).eraseDups
  if lines.isEmpty then s2
  else (lines.foldl (fun t i =>
    t.chartStore c g.ctx (64 * i) ((List.range 64).map (fun j => g.farByte (64 * i + j))) []) s2).notePause c g

/-- The size of the migration ring. -/
def State.migSize (s : State) (n : PartIx) : Nat := 2 ^ s.inForce (MEM.MIG_SIZE_n.LOG2 n)
/-- The local offset of ring entry i. -/
def State.migAddr (s : State) (n : PartIx) (i : Nat) : Nat :=
  velBase n + 32 * s.inForce (MEM.MIG_BASE_n.BASE n) + 32 * (i % s.migSize n)

/-- The entry being processed ends with a status: written, and HEAD advances (R217). -/
def State.migEnd (s : State) (n : PartIx) (i status moved : Nat) : State :=
  let a := s.migAddr n i
  let s1 := ((s.wrBits (a + 0x10) 4 3 0 status).wrLE (a + 0x14) 4 moved).wrLE (a + 0x18) 8 s.time
  (s1.modPart n (fun p => { p with mig := none })).bump (MEM.MIG_HEAD_n.INDEX n) 1

/-- End the request once its pages are handled (R218). -/
def State.migDone (s : State) (n : PartIx) : State :=
  match (s.part n).mig with
  | none => s
  | some m =>
    if !m.open_.isEmpty then s
    else match m.fail with
      | some f => s.migEnd n m.index f m.moved
      | none => if m.pages ≤ m.next && m.wait.isEmpty then s.migEnd n m.index 1 m.moved else s

/-- Change the request being processed. -/
def State.modMig (s : State) (n : PartIx) (f : Migration → Migration) : State := s.modPart n (fun p => { p with mig := p.mig.map f })

/-- A STASH_FREE whose lift finds a migrating page cancels the migration (R219). -/
def State.cancelMig (s : State) (n : PartIx) (leaf : Nat) : State :=
  match (s.part n).mig with
  | none => s
  | some m =>
    match m.open_.find? (fun p => p.leaf == leaf && !p.switched) with
    | none => s
    | some p =>
      ((s.pushFrame n p.tenant p.dstTier (frameNo p.dst)).modMig n (fun q =>
        { q with open_ := q.open_.filter (fun x => x.leaf != leaf), fail := some (q.fail.getD 5) })).migDone n

/-- The pages of freed stash entries leave the tier map at C; their frames are pushed once older accesses end (R216). -/
def State.freePage (s : State) (n : PartIx) (ctx leaf : Nat) : State :=
  let s1 := s.cancelMig n leaf
  let ent := if s1.fencedOff n leaf then 0 else s1.rdLE leaf 8
  let base := 65536 * (bits ent 63 16)
  let s2 := s1.setLeafBy n leaf 0
  if bit ent 0 && bits ent 2 1 != 3 then
    s2.modPart n (fun p => { p with pushWait := p.pushWait ++ [(s.ctxTenant ctx, bits ent 2 1, frameNo base)] })
  else s2

/-- A gradient buffer's count rises (R138). -/
def State.gradCount (s : State) (n : PartIx) (p : Nat × Nat) : State :=
  let a := s.wdtAddr n p.1 + 0x70 + 4 * p.2
  s.wrLE a 4 (s.rdLE a 4 + 1)

/-- An update that found a count of 0 only clears UPD_PENDING (R139). -/
def State.emptyUpdate (s : State) (n : PartIx) (i : Nat) : State := s.wrBits (s.wdtAddr n i) 4 3 3 0

/-- The lift moves HEAD to the context's drain mark: it leaves as if by PREEMPT_HOLD (R309). -/
def markAction (s : State) (c : CoreIx) (g : Seg) : Option Nat :=
  if s.wts.drains.any (fun d => d.marks.contains (g.ctx, nextCmd s c)) then some (match g.action with
    | some a => strongerAction a 4
    | none => 4)
  else g.action

/-- Marginalia records written by the segment go to WET = 0 (R124). -/
def margDry (l : List Nat) (m : Sparse MargRec) : Sparse MargRec :=
  l.foldl (fun m i => match Sparse.find? m i with
    | some r => Sparse.insert m i { r with wet := false }
    | none => m) m

/-- Chart leases that a segment has taken are held across its lift (R167). -/
def State.keepLeases (s : State) (g : Seg) : State :=
  { s with chart := { s.chart with leases := s.chart.leases ++ (g.marked.filter (fun m => m.2)).map (fun m => (g.ctx, m.1)) } }

/-- Step 3 of R158: a lift's local results become dry and its merges are made; the steps wait for the merges of every lift of the
aclk (R109). -/
def State.flip (s : State) (c : CoreIx) (g0 : Seg) (l : LiftSt) : State :=
  let n := partOf c
  let s1 := (s.mbClose c g0).pauseWet c ((s.seg c).getD g0)
  let g := (s1.seg c).getD g0
  let changes := slotChanges s1 n g
  let heldPages := (changes.filter (changesWait s1 c)).flatMap (fun d => g.wet.filter (inSlot s1 c g.ctx d.1 d.2.1))
  let now := g.wet.filter (fun w => !heldPages.contains w)
  let s2 := g.wet.foldl (fun t w => t.fillRest n w) s1
  let s3 := now.foldl (fun t w => t.flipWet n w) s2
  let s4 := g.puts.foldl (fun t p => t.setLeafBy n p.1 (p.2.2 + 2 * p.2.1 + 9)) s3
  let s5 := s4.dryOverlay c g now
  let s6 := g.frees.foldl (fun t f => t.freePage n g.ctx f) s5
  let s7 := g.captures.foldl (fun t x => t.mergeCapture n x) s6
  let s8 := g.gradLatch.foldl (fun t p => t.gradCount n p) s7
  let s9 := (g.updates.filter (fun u => u.2)).foldl (fun t u => t.emptyUpdate n u.1) s8
  let s10 := changes.foldl (fun t d => t.slotChange c g d) s9
  let s11 := (s10.modCore c (fun k => { k with marg := margDry g.margs k.marg })).keepLeases g
  let l' : LiftSt := { l with flipped := true, dueS := s.slot n + 16 + 2 * g.steps.length }
  (s11.modSeg c (fun h =>
    { h with
      lift := some l'
      wet := []
      overlay := []
      farBlock := []
      captures := []
      expLatch := []
      marked := []
      descLatch := []
      gradLatch := []
      updates := []
      gathers := []
      puts := []
      frees := []
      reserve := false
      margs := []
      action := markAction s c g })).put (SEQ.INK.WET_PAGES c) 0

/-- The lift of a core whose C is this aclk. -/
def liftAtC (s : State) (c : CoreIx) : Option (Seg × LiftSt) :=
  match s.seg c with
  | none => none
  | some g =>
    match g.lift with
    | none => none
    | some l => if l.atC then some (g, l) else none

/-- The merges of a core's lift in the aclk of its C (R158 step 3). -/
def State.landMerge (s : State) (c : CoreIx) : State :=
  match liftAtC s c with
  | some (g, l) => s.flip c g l
  | none => s

/-- The scale steps of a core's lift, from C on in command order (R109, R158 step 4). -/
def State.landSteps (s : State) (c : CoreIx) : State :=
  match liftAtC s c with
  | some (g, l) =>
    (g.steps.foldl (fun t i => t.scaleStep (partOf c) i g.ctx) s).modSeg c (fun h =>
      { h with steps := [], lift := some { l with atC := false } })
  | none => s

/-- The end of an aclk: lifts whose C it is land, the merges of all of them before any scale step (R109). -/
def State.landFlips (s : State) : State :=
  forCores allCores (fun c t => t.landSteps c) (forCores allCores (fun c t => t.landMerge c) s)

/-- A kill of a core's segment is due in this aclk: its hard row ends, or a hard row's pre-emption point has come (R176, R182,
R183). -/
def killDue (s : State) (c : CoreIx) : Bool :=
  (match (s.core c).row with
    | some r => rowHard s (partOf c) r && decide (rowEnd s (partOf c) r ≤ s.time)
    | none => false) || pointReached s c

/-- WET_PAGE_FLIP (R158): C of a lift. Releases are checked; the segment's local results become dry in this aclk, at its end, so
that a kill of the same aclk still takes effect instead (R176); a lost lease outranks such a kill (R177). -/
def execWetPageFlip (c : CoreIx) (s : State) : Out := s.meanwhile c fun s =>
  match s.seg c with
  | none => .next s
  | some g =>
    match g.lift with
    | none => .next s
    | some l =>
      if s.advances (partOf c) && l.begun && !l.flipped && decide (l.dueC ≤ s.slot (partOf c)) then
        match g.semOps.find? (fun o => o.delta.isNone && fencedFor s c o.addr), failedRelease s g with
        | some o, _ => .next (s.semFenced c g o.addr)
        | none, some o => .next (s.leaseLost c g o)
        | none, none => act s (!killDue s c) (s.modSeg c (fun h => { h with lift := some { l with atC := true } }))
      else .next s

/-! ### S: the end of the lift (R158 step 5, R160, R165, R181) -/

/-- One semaphore operation takes effect at S (R167); one on fenced memory is discarded (R322). -/
def State.semOp (s : State) (c : CoreIx) (ctx : Nat) (o : SemOp) : State :=
  if fencedFor s c o.addr then s.fenceRecord c ctx o.addr
  else match o.delta with
    | some d => s.semAddTo o.addr d
    | none => s.semFree o.addr

/-- Put an entry before those of later commands. -/
def bySeqPut (e : OutEntry) : List OutEntry → List OutEntry
  | [] => [e]
  | x :: r => if e.seq ≤ x.seq then e :: x :: r else x :: bySeqPut e r

/-- Entries in the order of issue of their commands (R165). -/
def bySeq : List OutEntry → List OutEntry
  | [] => []
  | e :: r => bySeqPut e (bySeq r)

/-- The segment's queue entries are released in issue order, behind earlier releases (R165). -/
def State.releaseQueue (s : State) (c : CoreIx) : State :=
  s.modPart (partOf c) (fun p =>
    let mine := p.outq.filter (fun e => e.core == c.val && decide (e.state = .wet))
    let before := p.outq.filter (fun e => decide (e.state ≠ .wet))
    let after := p.outq.filter (fun e => e.core != c.val && decide (e.state = .wet))
    { p with outq := before ++ (bySeq mine).map (fun e => { e with state := .released }) ++ after })

/-- Companion entries released while the module is not attached fail at once (R290). -/
def State.failDetached (s : State) (n : PartIx) : State :=
  if s.attached then s
  else ((s.part n).outq.filter (fun e => decide (e.state = .released) && e.kind.companion)).foldl (fun t e => t.queueFailFrl n e) s

/-- LAST_USE of the entries that name the lifting context's group and partition (R299). -/
def State.modelUse (s : State) (k : Nat) : State :=
  upTo 256 (fun m t =>
    if decide (t.mdPart m = ctxPart k) && t.md4 m 23 16 == t.ctxGroup k then t.mdWr m 0x30 8 t.time else t) s

/-- Counts of a lift (R158, R172, R174). -/
def State.countLift (s : State) (c : CoreIx) (g : Seg) : State :=
  let k := g.ctx
  let s1 := s.ctxWr k 0 8 (nextCmd s c)
  let s2 := ((s1.bump (SEQ.GEN.GEN c) 1).bump (SEQ.LIFTS.COUNT c) 1).beat c
  let s3 := (s2.ctxBump k 0x48 4 1).ctxBump k 0x40 8 (s.time - g.start)
  let s4 := s3.modPart (partOf c) (fun p => { p with health := { p.health with lf := p.health.lf + 1 } })
  (((s4.ctxWr k 0x58 8 s.time).ctxSetBoundaryKills k 0).put (SEQ.INK.OUTQ_KIB c) 0).modelUse k

/-- The context keeps its core (R181). -/
def keepsCore (s : State) (c : CoreIx) (g : Seg) (l : LiftSt) : Bool :=
  let n := partOf c
  (s.core c).row == some g.row && decide (s.time + s.slotTime n 2 < rowEnd s n g.row) && !l.yield && g.action.isNone
  && s.ctxHead g.ctx != s.ctxTail g.ctx && s.issues n

/-- The context leaves its core at S with the next state that an action asks for (R176, R181). A hard row whose pre-emption point has come
picks at S + 2 at the earliest (R180, R183). -/
def State.leaveCore (s : State) (c : CoreIx) (g : Seg) (l : LiftSt) : State :=
  let same := (s.core c).row == some g.row
  let out := same && (l.yield || g.action.isSome)
  let s1 := s.modCore c (fun k =>
    { k with
      seg := none
      ctx := none
      leftRow := if out then g.ctx :: k.leftRow else k.leftRow
      leftStash := false
      pickSlot := if pointReached s c || (!same && k.row.isSome) then s.slot (partOf c) + 2 else k.pickSlot
      pickTime := s.time })
  let s2 := s1.seqState c 0
  match g.action with
  | some 6 => s2.haltCtx g.ctx 0
  | some 3 => (s2.ctxSetState g.ctx 1).pickGroup g.ctx
  | some a => s2.ctxSetState g.ctx (actionState a)
  | none => s2.ctxSetState g.ctx 1

/-- PEN_LIFT_COMPLETE (R158 step 5, R160, R165, R181): S of a lift. -/
def execPenLiftComplete (c : CoreIx) (s : State) : Out :=
  match s.seg c with
  | none => .next s
  | some g =>
    match g.lift with
    | none => .next s
    | some l =>
      let n := partOf c
      if s.advances n && l.flipped && !l.atC && decide (l.dueS ≤ s.slot n) then
        let s1 := g.semOps.foldl (fun t o => t.semOp c g.ctx o) s
        let s2 := (s1.releaseQueue c).failDetached n
        let s3 := s2.countLift c g
        let s4 := if (s.core c).stepWork.isSome then
            (s3.modCore c (fun k => { k with stepWork := none })).put (DBG.CORE_c.STEPPING c) 0
          else s3
        if keepsCore s4 c g l then
          let h := newSeg s4 c g.ctx g.row 2
          .next ((s4.modCore c (fun k => { k with seg := some h })).showSeg c g.ctx)
        else .next ((s4.leaveCore c g l).pick c)
      else .next s

/-! ### Ends of holds and kills -/

/-- WET_CONFLICT_END (R162, R176, R180): what waits on the owner goes on, and contexts killed for it are eligible again. -/
def execWetConflictEnd (c : CoreIx) (s : State) : Out :=
  let freed := (s.core c).conflict.filter (fun p => ownerGone s p.2.1 p.2.2)
  let s1 := s.modCore c (fun k => { k with conflict := k.conflict.filter (fun p => !(ownerGone s p.2.1 p.2.2)) })
  let s2 := match s1.seg c with
    | some g =>
      let left := g.heldBy.filter (fun p => !(ownerGone s p.1 p.2.1))
      if g.heldBy.isEmpty || !left.isEmpty then s1
      else (s1.modSeg c (fun h => { h with heldBy := left })).seqState c (if g.lift.isSome then 3 else 1)
    | none => s1
  .next (freed.foldl (fun t p => t.pickGroup p.1) s2)

/-- INK_HOLD_END (R164): a wet pool or the outbound queue has room again; the held command tries again. -/
def execInkHoldEnd (c : CoreIx) (s : State) : Out :=
  let n := partOf c
  let pool := (s.part n).poolFree.any (fun l => !l.isEmpty)
  let room := decide (0 < s.outqFree n)
  .next (s.modSeg c (fun g => { g with poolHold := g.poolHold && !pool, queueHold := g.queueHold && !room }))

/-- SEQUENCER_READY (R169 step 7): 64 aclk after a kill the sequencer can issue again, and the core picks. -/
def execSequencerReady (c : CoreIx) (s : State) : Out :=
  act s (s.runs (partOf c) && s.get (SEQ.STATE.STATE c) == 4 && (s.core c).seg.isNone && decide ((s.core c).canIssue ≤ s.time))
    ((s.seqState c 0).pick c)

/-- DRY_PAGE_RETURN (R159, R216): accesses translated before the flip have ended; a replaced frame joins the pool, or a freed
frame is pushed on its tenant's stack. -/
def execDryPageReturn (n : PartIx) (s : State) : Out :=
  match (s.part n).dryWait with
  | w :: r => .next ((s.modPart n (fun p => { p with dryWait := r })).pushPool n w.1 (w.2 / 65536))
  | [] =>
    match (s.part n).pushWait with
    | w :: r => .next ((s.modPart n (fun p => { p with pushWait := r })).pushFrame n w.1 w.2.1 w.2.2)
    | [] => .next s

end Sys2Proof.Machine
end

