-- ==== Sys2Proof/Machine/Stroke.lean ====
section
/-! DEFINITION. Machine/Stroke.lean: fields that wait for a boundary (R7, R173, R220, R221), the stroke (R44 to R50, R178,
R179), and the power states of a partition (R51, R52). -/

namespace Sys2Proof.Machine

/-! ### SH fields coming into force -/

/-- A pool's range lies wholly in its partition's memory of its own tier (R173). -/
def poolOk (s : State) (n : PartIx) (t base pages : Nat) : Bool :=
  (List.range pages).all (fun i => match place (65536 * (base + i)) with
    | some (u, m, o) => u == t && decide (m = n) && s.frameBacked m u (o / 65536)
    | none => false)

/-- A queue's range lies wholly within one local tier of its partition (R173). -/
def queueOk (s : State) (n : PartIx) (base pages : Nat) : Bool := poolOk s n 0 base pages || poolOk s n 1 base pages || poolOk s n 2 base pages

/-- The pool of tier t takes the range that WET.POOL_n_t names, or none where it is refused (R173, R220). -/
def State.takePool (s : State) (n : PartIx) (t : Nat) : State :=
  let base := s.inForce (WET.POOL_n_t.BASE n t)
  let pages := s.inForce (WET.POOL_n_t.PAGES n t)
  let l := if poolOk s n t base pages then (List.range pages).map (fun i => base + i) else []
  ((s.modPart n (fun p =>
    { p with
      pools := p.pools.set t l
      poolFree := p.poolFree.set t l
      dryWait := p.dryWait.filter (fun w => w.1 != t) })).showFree n t).showPools n

/-- The outbound queue takes the range that WET.OUTQ_n names, or none where it is refused (R173). -/
def State.takeOutq (s : State) (n : PartIx) : State :=
  let pages := s.inForce (WET.OUTQ_n.PAGES n)
  (s.modPart n (fun p => { p with outqOk := pages != 0 && queueOk s n (s.inForce (WET.OUTQ_n.BASE n)) pages })).showOutq n

/-- What follows when the fields with these keys come into force in partition n (R173, R220, R221); `old` is the state before. -/
def State.shPart (s old : State) (keys : List Nat) (n : PartIx) : State :=
  let hit := fun (f : Field) => keys.contains f.key
  let moved := fun (f : Field) => hit f && s.inForce f != old.inForce f
  let s1 := [0, 1, 2].foldl (fun t i => if hit (WET.POOL_n_t.PAGES n i) || hit (WET.POOL_n_t.BASE n i) then t.takePool n i else t) s
  let s2 := if hit (WET.OUTQ_n.PAGES n) || hit (WET.OUTQ_n.BASE n) then s1.takeOutq n else s1
  let s3 := if moved (MEM.MIG_BASE_n.BASE n) || moved (MEM.MIG_SIZE_n.LOG2 n) then
      (s2.put (MEM.MIG_HEAD_n.INDEX n) 0).put (MEM.MIG_TAIL_n.INDEX n) 0
    else s2
  if moved (MEM.POOL_LIST_n.BASE n) then s3.showPools n else s3

/-- Pending SH fields of partition n come into force where `own` says so, and those of the shell where `shell` does (R7). -/
def State.bringForce (s : State) (n : PartIx) (own shell : Bool) : State :=
  let keys := (s.shPend.filter (fun p => (own && p.2 == n.val) || (shell && p.2 == 4))).map Prod.fst
  let t := (s.applySh n own shell).shPart s keys n
  if keys.contains GAZ.TRING_CTL.LOG2.key && t.inForce GAZ.TRING_CTL.LOG2 != s.inForce GAZ.TRING_CTL.LOG2 then
    (t.put GAZ.TRING_TAIL.INDEX 0).put GAZ.TRING_HEAD.INDEX 0
  else t

/-! ### The stroke boundary (R44 to R46) -/

/-- The period in force (R46). -/
def State.period (s : State) (n : PartIx) : Nat := clamp 40000 80000000 (s.inForce (STK.PERIOD_n.ACLK n))

/-- All ones: the timer is stopped. -/
def never : Nat := 0xFFFFFFFFFFFFFFFF

/-- At a boundary a paused context goes on with fewer open micro-batches (R130 step 5). -/
def State.unpause (s : State) (c : CoreIx) (k : Nat) : State :=
  if s.ctxRd k 0x18 8 = 0 || stashDry s c k 0x4A 1 % 2 == 0 then s
  else
    let w := putBits (stashDry s c k 0x48 4) 16 16 0
    (s.stashNow c k 0x48 (toLE 4 (w - w % 256 + max 1 (mbInflight (w % 256) - 1)))).modPart (partOf c) (fun p =>
      { p with farPause := p.farPause.filter (fun x => x.1 != k) })

/-- Every segment of a core ends at a boundary (R44 step 2, R157); a core with none beats (R172). -/
def State.endSegments (s : State) (n : PartIx) : State :=
  forCores (coresOf n) (fun c t =>
    match t.seg c with
    | some g => if killable t c then (t.boundaryLog c g).killSeg c 1 else t
    | none => if (t.killedNow c).isSome then t.killAlso c 1 else t.beat c) s

/-- Elastic rows that have found no time to start before their scheduled end are skipped on a core (R180). -/
def State.skipLate (s : State) (c : CoreIx) : State :=
  let n := partOf c
  ((List.range (s.part n).rows.length).filter (fun r => rowOn s c r && !rowHard s n r && !rowPast s c r
    && decide (rowEnd s n r ≤ s.time))).foldl (fun t r => t.skipRow c r) s

/-- The rows of a stroke are over on a core; a segment that still lifts keeps its row's scheduled end (R176, R187). -/
def State.clearRows (s : State) (c : CoreIx) : State :=
  (s.skipLate c).modCore c (fun k =>
    { k with
      row := none, past := [], barred := [], leftRow := [], leftStash := false
      seg := k.seg.map (fun g => { g with rowTo := some (rowEnd s (partOf c) g.row) }) })

/-- The timer stops at this boundary: RUN is 0, or a profile apply drains the partition (R44 step 3, R191). -/
def stopsHere (s : State) (n : PartIx) : Bool :=
  s.get (STK.CTRL_n.RUN n) == 0 || (match (s.part n).apply_ with
    | some a => a.b1.isNone
    | none => false)

/-- The STREAMED shards of a model, in index order (R300, R311). -/
def streamedShards (s : State) (m : Nat) : List Nat :=
  (List.range (bits (s.md m 8 4) 31 16)).filter (fun i => bit (s.rdLE (s.shardAddr m i + 0x40) 4) 6)

/-- At a boundary at b, streaming of the previous stroke that has not ended is late and stops, and every RESIDENT model with a
stream block is to stream again (R311). -/
def State.streamBoundary (s : State) (n : PartIx) (b : Nat) : State :=
  let mine := s.wts.streams.filter (fun x => decide (s.mdPart x.model = n))
  let s1 := mine.foldl (fun t x =>
    let a := t.md x.model 0x28 8 + 0x26
    if s.mdState x.model = 2 ∧ (x.on = false ∨ x.j < x.list.length) then t.wrLE a 2 (t.rdLE a 2 + 1) else t) s
  let ms := (List.range 256).filter (fun m => s1.mdState m == 2 && s1.md4 m 6 6 == 1 && s1.md m 0x28 8 != 0
    && decide (s1.mdPart m = n))
  { s1 with wts := { s1.wts with
      streams := s1.wts.streams.filter (fun x => decide (s.mdPart x.model ≠ n))
        ++ ms.map (fun m => { model := m, bnd := b, list := streamedShards s1 m }) } }

/-- Shards whose NEXT_SWEEP STK.COUNT has reached are queued for a sweep (R312). -/
def State.queueSweeps (s : State) (n : PartIx) : State :=
  let ms := (List.range 256).filter (fun m => s.mdState m == 2 && s.md4 m 7 7 == 1 && decide (s.mdPart m = n))
  let due := ms.flatMap (fun m => ((List.range (bits (s.md m 8 4) 31 16)).filter (fun i =>
    decide (s.rdLE (s.shardAddr m i + 0x48) 8 ≤ s.get (STK.COUNT_n.STROKES n)))).map (fun i => (m, i)))
  { s with wts := { s.wts with sweeps := s.wts.sweeps ++ due.filter (fun x => !s.wts.sweeps.contains x) } }

/-- STROKE_BOUNDARY (R44, R45, R157, R130, R220, R311, R312). -/
def execStrokeBoundary (n : PartIx) (s : State) : Out :=
  let b := s.get (STK.NEXT_n.ACLK n)
  if s.boundaryDue n then
    let stop := stopsHere s n
    let s1 := ((s.bump (STK.COUNT_n.STROKES n) 1).streamBoundary n b).queueSweeps n
    let s2 := forCores (coresOf n) (fun c t => t.clearRows c) (s1.endSegments n)
    let s3 := s2.bringForce n true (decide (s.lowestOut = some n))
    let s4 := s3.put (STK.NEXT_n.ACLK n) (if stop then never else b + s3.period n)
    let s5 := upTo 4096 (fun i t => t.unpause (coreAt n 0) (4096 * n.val + i)) s4
    .next (s5.modPart n (fun p =>
      { p with
        bnd := b
        shift := 0
        window := true
        stopping := stop
        restart := false
        rows := []
        noStart := []
        apply_ := p.apply_.map (fun a => if a.b1.isNone then { a with b1 := some b } else a) }))
  else .next s

/-- What a write to a register of partition n finds: a boundary of this aclk comes before it (R49). -/
def State.afterBoundary (s : State) (n : PartIx) : State := Out.after s (execStrokeBoundary n s)

/-- SEQ_CTRL_KILL (R172, R177): 1 written to SEQ.CTRL.KILL, behind a boundary of the same aclk (R49). -/
def execSeqCtrlKill (c : CoreIx) (s : State) : Out :=
  act s (s.runs (partOf c)) ((s.afterBoundary (partOf c)).killOrAlso c 10)

/-! ### The row store (R178, R179) -/

/-- Rows of the stroke table that are loaded (R192). -/
def State.rowCount (s : State) (n : PartIx) : Nat := min 1024 (s.inForce (SCH.ROW_COUNT_n.ROWS n))

/-- Rows 16j to 16j + 15 are read from vellum (R178). -/
def State.loadRows (s0 : State) (n : PartIx) (j : Nat) : State :=
  let base := velBase n + 16 * s0.inForce (SCH.ROW_BASE_n.BASE n)
  let l := ((List.range 16).map (fun i => 16 * j + i)).filter (fun r => decide (r < s0.rowCount n))
  let s := s0.meet (base + 256 * j) (16 * l.length)
  s.modPart n (fun p => { p with rows := p.rows.take (16 * j) ++ l.map (fun r => (toLE 16 (s.rdLE (base + 16 * r) 16), false)) })

/-- In every aclk of the boundary window the next 16 rows are read. -/
def State.loadStep (s : State) (n : PartIx) : State :=
  let p := s.part n
  if p.window && decide (p.rows.length < s.rowCount n) then s.loadRows n (s.time - p.bnd) else s

/-- Checks of R179: whether a row is bad, given the latest start and the latest hard end of earlier good rows on each core. -/
def badRow (w period : Nat) (starts ends : List Nat) : Bool :=
  let st := bits w 26 0
  let bud := bits w 58 32
  let on_ := (List.range 4).filter (fun i => bit w (72 + i))
  let hard := bit w 28
  bud == 0 || on_.isEmpty || !(zeroBits w 31 29) || !(zeroBits w 63 59) || !(zeroBits w 127 76)
  || (hard && decide (period < st + bud))
  || on_.any (fun i => decide (st < starts.getD i 0))
  || (hard && on_.any (fun i => decide (st < ends.getD i 0)))

/-- The rows of the store in table order, each found bad or good (R179). -/
def checkRows (period : Nat) : List (List Byte × Bool) → List Nat → List Nat → List (List Byte × Bool)
  | [], _, _ => []
  | (b, _) :: r, starts, ends =>
    let w := leNat b
    if !(bit w 27) then (b, false) :: checkRows period r starts ends
    else if badRow w period starts ends then (b, true) :: checkRows period r starts ends
    else
      let st := bits w 26 0
      let e := st + bits w 58 32
      let up := fun (l : List Nat) (v : Nat) => (List.range 4).map (fun i => if bit w (72 + i) then max v (l.getD i 0) else l.getD i 0)
      (b, false) :: checkRows period r (up starts st) (if bit w 28 then up ends e else ends)

/-- The rows of partition n are checked, and bad ones reported (R179). -/
def State.judgeRows (s : State) (n : PartIx) : State :=
  let rows := checkRows (s.period n) (s.part n).rows [0, 0, 0, 0] [0, 0, 0, 0]
  let bads := (List.range rows.length).filter (fun i => ((rows.getD i ([], false)).2))
  let s1 := s.modPart n (fun p => { p with rows := rows })
  let s2 := if bads.isEmpty then s1 else s1.flag (SCH.STATUS_n.BAD_ROW n) 1
  (s2.put (SCH.STATUS_n.BAD_ROWS n) bads.length).put (SCH.STATUS_n.FIRST_BAD n) (bads.headD 0)

/-- The stroke timer starts (R47). -/
def State.startTimer (s : State) (n : PartIx) (first : Nat) : State :=
  if s.active n then
    ((s.put (STK.CTRL_n.RUN n) 1).put (STK.CTRL_n.RUNNING n) 1).put (STK.NEXT_n.ACLK n) first
  else ((s.put (STK.CTRL_n.RUN n) 0).put (STK.CTRL_n.RUNNING n) 0).flag (STK.CTRL_n.ERR n) 1

/-- BOUNDARY_WINDOW_END (R44 steps 3 to 5, R47, R178, R179): B + 64. A restart asked for in the window of a profile apply's B1 is not
taken here: the apply restarts the timer itself (R191; log entry 137). -/
def execBoundaryWindowEnd (n : PartIx) (s : State) : Out :=
  let p := s.part n
  if s.live && !p.inReset && p.window && decide (p.bnd + 64 ≤ s.time) then
    let s1 := s.modPart n (fun q => { q with window := false, restart := false })
    let s2 := s1.judgeRows n
    if !p.stopping then .next s2
    else if p.restart && p.apply_.isNone then .next (s2.startTimer n (max (s.get (STK.START_n.ACLK n)) (p.bnd + 80)))
    else .next (s2.put (STK.CTRL_n.RUNNING n) 0)
  else .next s

/-! ### STK.CTRL and STK.START (R47, R48) -/

/-- STK_CTRL_RUN (R47, R50, R51): RUN is written. A 0 behind a 1 in one boundary window takes the restart back (log entry 137). -/
def execStkCtrlRun (n : PartIx) (v : Bool) (s0 : State) : Out :=
  let s := s0.afterBoundary n
  let p := s.part n
  let f := STK.CTRL_n.RUN n
  act s0 s0.settable (
    if p.inReset then s.putB f v
    else if !v then (s.put f 0).modPart n (fun q => { q with restart := false })
    else if !(s.on (STK.CTRL_n.RUNNING n)) then s.startTimer n (max (s.get (STK.START_n.ACLK n)) (s.time + 16))
    else if p.stopping && p.window then (s.put f 1).modPart n (fun q => { q with restart := true })
    else s.put f 1)

/-- STK_START_WRITE (R48). -/
def execStkStartWrite (n : PartIx) (v : Word) (s0 : State) : Out :=
  let s := s0.afterBoundary n
  act s0 s0.settable (
    if s.on (STK.CTRL_n.RUNNING n) then s.flag (STK.CTRL_n.ERR n) 1 else s.put (STK.START_n.ACLK n) v.toNat)

/-! ### Power states (R51, R52) -/

/-- A transition of a partition's power state begins, to end no sooner than `due` (R51). -/
def State.beginTrans (s : State) (n : PartIx) (target due : Nat) : State :=
  let s1 := (s.put (PART.POWER_n.TARGET n) target).put (PART.POWER_n.STATE n) 3
  s1.modPart n (fun p => { p with trans := some { from_ := s.get (PART.POWER_n.STATE n), target := target, due := due, rec_ := none } })

/-- PART.POWER_n.TARGET is written (R51). -/
def State.writeTarget (s : State) (n : PartIx) (v : Nat) : State :=
  let f := PART.POWER_n.TARGET n
  let err := s.flag (PART.POWER_n.ERR n) 1
  let st := s.get (PART.POWER_n.STATE n)
  if (s.part n).inReset || v = 3 then err
  else if st = 3 then
    (s.put f v).modPart n (fun p => { p with trans := p.trans.map (fun t => { t with rec_ := some v }) })
  else if st = v then s.put f v
  else if st = 0 then (if s.on (STK.CTRL_n.RUNNING n) then err else s.beginTrans n v s.time)
  else if st = 1 then s.beginTrans n v (if v = 0 then s.time + 1600 else s.time)
  else s.beginTrans n v s.time

/-- TARGET_ACTIVE (R51): TARGET written 0. -/
def execTargetActive (n : PartIx) (s : State) : Out := act s s.settable ((s.afterBoundary n).writeTarget n 0)
/-- TARGET_CLOCK_STOP (R51): TARGET written 1. -/
def execTargetClockStop (n : PartIx) (s : State) : Out := act s s.settable ((s.afterBoundary n).writeTarget n 1)
/-- TARGET_POWER_OFF (R51): TARGET written 2. -/
def execTargetPowerOff (n : PartIx) (s : State) : Out := act s s.settable ((s.afterBoundary n).writeTarget n 2)
/-- TARGET_INVALID (R51): TARGET written 3, or any value while the partition is held in reset. -/
def execTargetInvalid (n : PartIx) (v : BitVec 2) (s : State) : Out :=
  act s (s.settable && (v == 3 || (s.part n).inReset)) ((s.afterBoundary n).writeTarget n v.toNat)

/-- SEQ fields whose values are lost at POWER_OFF (R52). -/
def lostFields (c : CoreIx) : List Field :=
  [SEQ.STATE.CONTEXT c, SEQ.GEN.GEN c, SEQ.SEG_START.ADDR c, SEQ.CMD_PTR.ADDR c, SEQ.HEARTBEAT.COUNT c, SEQ.LAST_CMD.CMD_ID c,
   SEQ.LAST_CMD.OPCODE c, SEQ.PROGRESS_TIME.ACLK c, SEQ.LIFTS.COUNT c, SEQ.KILLS.COUNT c, SEQ.KILLS.LAST_CAUSE c,
   SEQ.LATE.REPLIES c, SEQ.LEASE.EXPIRED c, SEQ.LEASE.LOST c]

/-- A field takes a value that the manual does not state (log entry 1). -/
def State.putFree (s : State) (f : Field) : State := let (v, t) := s.draw; t.put f v.toNat

/-- Marginalia, feeders, row engine, update unit and sequencer state of a core are lost (R52, R126); the pick pointers stay
(R180). SEQ.STATE.STATE reads 0, no segment being there (log entry 138). -/
def State.loseCore (s : State) (c : CoreIx) : State :=
  let s1 := s.modCore c (fun k => { row := none, ptr := k.ptr })
  (lostFields c).foldl State.putFree (s1.seqState c 0)

/-- The reached state of a transition takes effect (R30, R51, R52). -/
def State.reachPower (s : State) (n : PartIx) (t : PowTrans) : State :=
  let s1 := (s.put (PART.POWER_n.STATE n) t.target).bump (PART.POWER_n.TRANSITIONS n) 1
  let s2 := s1.modPart n (fun p => { p with trans := none })
  if t.target = 2 then forCores (coresOf n) (fun c u => u.loseCore c) s2
  else if t.from_ = 2 then s2.put (PWR.P_STATE_n.GATE n) 16 else s2

end Sys2Proof.Machine
end

