-- ==== Sys2Proof/Machine/Contexts.lean ====
section
/-! DEFINITION. Machine/Contexts.lean: the actions on contexts (R176, R177), the rows of the stroke table (R180 to R184, R186)
and the applying of profiles (R190, R191). -/

namespace Sys2Proof.Machine

/-! ### Actions (R176, R177) -/

/-- An action is refused. -/
def State.cmdErr (s : State) (k : Nat) : State := s.flag (SCH.STATUS_n.CMD_ERR (ctxPart k)) 1

/-- A context becomes READY by an action, and idle cores of its group pick (R180). -/
def State.makeReady (s : State) (k : Nat) : State := (s.ctxSetState k 1).pickGroup k

/-- The next state of an action for a context with nothing to kill; `cause`: what a HALTED event names (R176). -/
def State.nextState (s : State) (k a cause : Nat) : State :=
  if a = 6 then s.haltCtx k cause else if a = 3 then s.makeReady k else s.ctxSetState k (actionState a)

/-- PREEMPT, PREEMPT_HOLD, DISABLE or HALT reaches a RUNNING context (R176, R177). -/
def State.actOnRunning (s : State) (k a : Nat) : State :=
  match onCore s k with
  | some c =>
    if killable s c then
      let t := s.killWith c (if a = 6 then 10 else 2) (some (actionState a))
      if a = 3 then t.pickGroup k else t
    else s.modSeg c (fun g => { g with action := some (match g.action with
        | some b => strongerAction b a
        | none => a) })
  | none => s.nextState k a 0

/-- The strongest action that has reached a context in this aclk (R177). -/
def State.acted (s : State) (k : Nat) : Option Nat := (s.acts.find? (fun p => p.1 == k)).map Prod.snd

/-- An action has reached a context in this aclk. -/
def State.noteAct (s : State) (k a : Nat) : State :=
  { s with acts := (k, match s.acted k with | some b => strongerAction b a | none => a) :: s.acts.filter (fun p => p.1 != k) }

/-- The kill in this aclk of a context's segment: its core (R177). -/
def killedCtx (s : State) (k : Nat) : Option CoreIx :=
  allCores.find? (fun c => match s.killedNow c with
    | some x => x.seg.ctx == k
    | none => false)

/-- The cause recorded for the kill of this aclk on a core. -/
def killCause (s : State) (c : CoreIx) : Nat :=
  match s.killedNow c with
  | some x => x.cause
  | none => 0

/-- An action decides the next state of a context that one of this aclk has reached before: the strongest counts (R177). -/
def State.outdo (s : State) (k a cause : Nat) : State :=
  match s.acted k with
  | some b => if strongerAction b a = b then s else s.nextState k a cause
  | none => s.nextState k a cause

/-- PREEMPT, PREEMPT_HOLD, DISABLE or HALT meets the kill of its aclk: HALT adds its cause, a halted context stays so, and otherwise
the strongest action decides (R177). -/
def State.actOnKilled (s : State) (c : CoreIx) (k a : Nat) : State :=
  let t := if a = 6 then s.killAlso c 10 else s
  if t.ctxState k = 4 then t else t.outdo k a (killCause t c)

/-- Whether the table of R176 takes an action in a state. -/
def takesAction (st a : Nat) : Bool :=
  if st = 0 then a == 1
  else if st = 1 ∨ st = 2 then a == 2 || a == 3 || a == 4 || a == 6
  else if st = 3 then a == 2 || a == 5 || a == 6
  else if st = 4 then a == 2 || a == 5
  else a == 2

/-- The table of R176 but for CLEAR_EVENTS. -/
def State.actOn (s : State) (k a : Nat) : State :=
  let st := s.ctxState k
  if !takesAction st a then s.cmdErr k
  else if a = 1 ∨ a = 5 then (if st = 3 then s else s.ctxSetBoundaryKills k 0).makeReady k
  else if st = 2 then s.actOnRunning k a
  else if a = 3 then s
  else s.nextState k a 0

/-- PREEMPT, PREEMPT_HOLD, DISABLE and HALT: those that R177 ranks. -/
def ranked (a : Nat) : Bool := a == 2 || a == 3 || a == 4 || a == 6

/-- An action reaches a context: 1 ENABLE, 2 DISABLE, 3 PREEMPT, 4 PREEMPT_HOLD, 5 RESUME, 6 HALT, 7 CLEAR_EVENTS (R176, R177). -/
def State.action (s : State) (k a : Nat) : State :=
  if a = 7 then s.ctxWr k 0x34 2 0
  else if ranked a && s.ctxState k != 2 then
    match killedCtx s k with
    | some c => (s.actOnKilled c k a).noteAct k a
    | none =>
      if (s.acted k).isSome then (s.outdo k a 0).noteAct k a
      else if takesAction (s.ctxState k) a then (s.actOn k a).noteAct k a
      else s.actOn k a
  else if ranked a then (s.actOn k a).noteAct k a
  else s.actOn k a

/-- An action is written: a boundary of this aclk comes before it (R49). -/
def State.command (s : State) (k : CtxIx) (a : Nat) : Out := act s s.served ((s.afterBoundary (ctxPart k)).action k a)

/-- ENABLE (R176). -/
def execEnable (k : CtxIx) (s : State) : Out := s.command k 1
/-- DISABLE (R176). -/
def execDisable (k : CtxIx) (s : State) : Out := s.command k 2
/-- PREEMPT (R176, R184). -/
def execPreempt (k : CtxIx) (s : State) : Out := s.command k 3
/-- PREEMPT_HOLD (R176). -/
def execPreemptHold (k : CtxIx) (s : State) : Out := s.command k 4
/-- RESUME (R176). -/
def execResume (k : CtxIx) (s : State) : Out := s.command k 5
/-- HALT (R176). -/
def execHalt (k : CtxIx) (s : State) : Out := s.command k 6
/-- CLEAR_EVENTS (R176). -/
def execClearEvents (k : CtxIx) (s : State) : Out := s.command k 7

/-! ### Rows (R180 to R183) -/

/-- At the pre-emption point of hard row r the row before it ends on the core, and earlier rows not yet started are skipped
(R180). -/
def State.clearFor (s : State) (c : CoreIx) (r : Nat) : State :=
  let early := (List.range r).filter (fun q => rowOn s c q && !rowPast s c q)
  (early.foldl (fun t q => t.skipRow c q) s).modCore c (fun k => { k with row := none })

/-- HARD_ROW_START (R180): B + START; the row's cores pick. -/
def execHardRowStart (n : PartIx) (row : Fin 1024) (s : State) : Out :=
  let r := row.val
  if s.issues n && rowRuns s n r && rowHard s n r && decide (rowStart s n r ≤ s.time) then
    .next (forCores (coresOf n) (fun c t =>
      if rowOn t c r && !rowPast t c r && !killable t c then (((t.clearFor c r).beginRow c r).pick c) else t) s)
  else .next s

/-- PREEMPTION_POINT (R183, R184): max(H − 64, B + 64). -/
def execPreemptionPoint (c : CoreIx) (row : Fin 1024) (s : State) : Out :=
  let n := partOf c
  let r := row.val
  if s.issues n && rowOn s c r && rowHard s n r && !rowPast s c r && decide (rowPoint s n r ≤ s.time) then
    let s1 := s.clearFor c r
    .next (if killable s1 c then s1.killSeg c 2 else s1)
  else .next s

/-- ELASTIC_ROW_START (R180): B + START, or when the core's previous row has ended and no segment holds the core; at or after
its end the row is skipped. -/
def execElasticRowStart (c : CoreIx) (row : Fin 1024) (s : State) : Out :=
  let n := partOf c
  let r := row.val
  let prev := match (s.core c).row with
    | some q => decide (rowEnd s n q ≤ s.time)
    | none => true
  let order := (List.range r).all (fun q => !rowOn s c q || rowPast s c q)
  if s.issues n && rowOn s c r && !rowHard s n r && !rowPast s c r && prev && order && (s.seg c).isNone && !pointReached s c
    && decide (rowStart s n r ≤ s.time) then
    .next (if rowEnd s n r ≤ s.time then s.skipRow c r else (s.beginRow c r).pick c)
  else .next s

/-- CONTEXT_LOAD (R42, R176): 16 open slots after the pick, in an open slot, the first command can issue. -/
def execContextLoad (c : CoreIx) (s : State) : Out :=
  match s.seg c with
  | none => .next s
  | some g =>
    act s (s.issues (partOf c) && s.slotIsOpen (partOf c) && (s.core c).ctx.isSome && decide (g.issueSlot ≤ s.slot (partOf c)))
      ((s.modCore c (fun k => { k with ctx := none })).modSeg c (fun h => { h with start := s.time }))

/-- PICK_POLL (R180): an idle core picks again. -/
def execPickPoll (c : CoreIx) (s : State) : Out :=
  act s ((s.core c).seg.isNone && decide ((s.core c).pickTime ≤ s.time) && s.get (SEQ.STATE.STATE c) != 4) (s.pick c)

/-- HARD_ROW_END (R182): a segment still running at the scheduled end is killed, and a deadline fault logged. -/
def execHardRowEnd (c : CoreIx) (row : Fin 1024) (s : State) : Out :=
  let n := partOf c
  let r := row.val
  if s.issues n && (s.core c).row == some r && rowHard s n r && decide (rowEnd s n r ≤ s.time) then
    let s1 := s.modCore c (fun k => { k with row := none })
    .next (match s1.seg c, s1.killedNow c with
      | some g, _ => if killable s1 c then (s1.boundaryLog c g).killSeg c 1 else s1
      | none, some x => if x.seg.row = r then s1.killAlso c 1 else s1
      | none, none => s1)
  else .next s

/-- ELASTIC_ROW_END (R182): a segment still running goes on, and an overrun is counted. -/
def execElasticRowEnd (c : CoreIx) (row : Fin 1024) (s : State) : Out :=
  let n := partOf c
  let r := row.val
  if s.issues n && (s.core c).row == some r && !rowHard s n r && decide (rowEnd s n r ≤ s.time) then
    let s1 := s.modCore c (fun k => { k with row := none })
    .next (match s1.seg c with
      | some g => if killable s1 c && !g.counted then s1.overrun c g.ctx else s1
      | none => s1)
  else .next s

/-- A unit works for the segment of its core: 0 to 7 the engines, 8 the row engine, 9 the update unit, 10 the mover. -/
def unitWorks (s : State) (c : CoreIx) (u : Nat) : Bool :=
  let k := s.core c
  if u < 8 then (s.eng c (toEng u)).run.isSome || (s.eng c (toEng u)).pend.isSome
  else if u = 8 then k.rowEng.isSome
  else if u = 9 then k.upd.isSome
  else !k.mover.isEmpty

/-- TIER_DEADLINE (R186): a hold of a unit passes TIER_LIMIT, at most once for a segment. -/
def execTierDeadline (c : CoreIx) (unit : Fin 11) (held : BitVec 32) (s : State) : Out :=
  match s.seg c with
  | none => .next s
  | some g =>
    let limit := s.ctxRd g.ctx 0x30 4
    act s (s.runs (partOf c) && limit != 0 && decide (limit < held.toNat) && !g.tierEvent && unitWorks s c unit.val)
      ((s.event g.ctx 7 (held.toNat + 4294967296 * unit.val)).modSeg c (fun h => { h with tierEvent := true }))

/-! ### Profiles (R190, R191) -/

/-- The image fields of a profile and their registers (R190). -/
def profileFields (n : PartIx) : List (Nat × Nat × Field) :=
  [(0x04, 4, STK.PERIOD_n.ACLK n), (0x08, 4, PWR.P_CAP_n.WATTS n), (0x08, 4, PWR.P_CAP_n.PROTECT n),
   (0x0C, 4, NUM.TABLE_BASE_n.BASE n), (0x10, 4, NUM.TABLE_LEN_n.ENTRIES n), (0x14, 4, TRN.WDT_BASE_n.BASE n),
   (0x18, 4, TRN.WDT_LEN_n.ENTRIES n), (0x1C, 4, SCH.ROW_BASE_n.BASE n),
   (0x20, 8, WET.POOL_n_t.PAGES n 0), (0x20, 8, WET.POOL_n_t.BASE n 0), (0x28, 8, WET.POOL_n_t.PAGES n 1),
   (0x28, 8, WET.POOL_n_t.BASE n 1), (0x30, 8, WET.POOL_n_t.PAGES n 2), (0x30, 8, WET.POOL_n_t.BASE n 2),
   (0x38, 8, WET.OUTQ_n.PAGES n), (0x38, 8, WET.OUTQ_n.BASE n)]

/-- Every field that a profile apply writes (R191 step 3). -/
def applyFields (n : PartIx) : List Field := (profileFields n).map (fun p => p.2.2) ++ [SCH.ROW_COUNT_n.ROWS n]

/-- A partition's apply may be accepted (R191 step 1). -/
def applyOk (s : State) (n : PartIx) (i : Nat) : Bool :=
  decide (i < s.get SCH.PROFILES.LOADED) && !(s.on (SCH.PROFILE_n.BUSY n)) && s.active n

/-- PROFILE_APPLY (R191 steps 1 and 2): GO with an index. -/
def State.applyProfile (s : State) (n : PartIx) (i : Nat) : State :=
  if applyOk s n i then
    let ran := s.on (STK.CTRL_n.RUNNING n)
    (s.put (SCH.PROFILE_n.BUSY n) 1).modPart n (fun p =>
      { p with apply_ := some { index := i, b1 := if ran then none else some s.time, ran := ran, written := false } })
  else s.flag (SCH.STATUS_n.PROFILE_ERR n) 1

/-- PROFILE_APPLY (R191): INDEX and GO are written. -/
def execProfileApply (n : PartIx) (index : Fin 16) (s : State) : Out :=
  act s s.served (((s.afterBoundary n).put (SCH.PROFILE_n.INDEX n) index.val).applyProfile n index.val)

/-- A profile record's row count (R190). -/
def profileRows (b : List Byte) : Nat := bits (fieldAt b 0 4) 26 16

/-- The shell writes a profile's image fields and rows at once (R191 step 3). -/
def State.writeProfile (s : State) (n : PartIx) (b : List Byte) : State :=
  let s1 := (profileFields n).foldl (fun t p => t.putForce p.2.2 (bits (fieldAt b p.1 p.2.1) p.2.2.hi p.2.2.lo)) s
  let s2 := s1.putForce (SCH.ROW_COUNT_n.ROWS n) (profileRows b)
  let s3 := s2.wrBytes (velBase n + 16 * s2.inForce (SCH.ROW_BASE_n.BASE n)) (slice b 0x80 (16 * profileRows b))
  s3.shPart s ((applyFields n).map Field.key) n

/-- PROFILE_FIELD_WRITE (R191 step 3): B1 + 64. -/
def execProfileFieldWrite (n : PartIx) (s : State) : Out :=
  match (s.part n).apply_ with
  | some a =>
    match a.b1 with
    | some b =>
      act s (s.live && !a.written && decide (b + 64 ≤ s.time) && !(s.part n).window)
        ((s.writeProfile n (s.profiles.getD a.index [])).modPart n (fun p => { p with apply_ := some { a with written := true } }))
    | none => .next s
  | none => .next s

/-- The end of an apply: CURRENT and APPLIED (R191 step 4). -/
def State.endApply (s : State) (n : PartIx) (i : Nat) : State :=
  let s1 := ((s.put (SCH.PROFILE_n.BUSY n) 0).put (SCH.PROFILE_n.CURRENT n) i).put (SCH.PROFILE_n.APPLIED n) 1
  s1.modPart n (fun p => { p with apply_ := none })

/-- PROFILE_APPLY_END (R191 step 4): B1 + 2,048. -/
def execProfileApplyEnd (n : PartIx) (s : State) : Out :=
  match (s.part n).apply_ with
  | some a =>
    match a.b1 with
    | some b =>
      if s.live && a.written && decide (b + 2048 ≤ s.time) then
        let t := s.endApply n a.index
        .next (if a.ran && !(t.on (STK.CTRL_n.RUNNING n)) then t.startTimer n (b + 2048 + 16) else t)
      else .next s
    | none => .next s
  | none => .next s

end Sys2Proof.Machine
end

