-- ==== Sys2Proof/Machine/Memory.lean ====
section
/-! DEFINITION. Machine/Memory.lean: invalidations (R199), the patrol scrubber and channel errors (R204 to R213), frame
operations (R215) and migration between tiers (R217 to R219). -/

namespace Sys2Proof.Machine

/-! ### Invalidation (R199) -/

/-- TRANSLATION_INVALIDATION (R199): GO to MEM.INV_CTRL with its fields; no core holds the entries from then on. -/
def execTranslationInvalidation (page : BitVec 30) (ctx : BitVec 12) (n : PartIx) (all : Bool) (s : State) : Out :=
  let k := 4096 * n.val + ctx.toNat
  let gone := fun (e : TEntry) => e.ctx == k && (all || e.page == page.toNat)
  let s1 := (((s.put MEM.INV_ADDR.PAGE page.toNat).put MEM.INV_CTRL.CONTEXT ctx.toNat).put MEM.INV_CTRL.PARTITION n.val).putB
    MEM.INV_CTRL.ALL all
  act s s.served ((forCores allCores (fun c t => t.modCore c (fun q => { q with tcache := q.tcache.filter (fun e => !gone e) })) s1).put
    MEM.INV_CTRL.BUSY 1)

/-- INVALIDATION_DONE (R199): every access under the entries has completed. -/
def execInvalidationDone (s : State) : Out := act s (s.live && s.on MEM.INV_CTRL.BUSY) (s.put MEM.INV_CTRL.BUSY 0)

/-! ### The patrol scrubber (R213) -/

/-- Backed regions in offset order: start and length (R213). -/
def backedRegions (s : State) : List (Nat × Nat) :=
  allCores.filterMap (fun c => if bit (s.get (MEM.STATUS_n.T0_CORE_OUT (partOf c))) (c.val % 4) then none else some (0x40000000 * c.val, 0x40000000))
  ++ allParts.map (fun n => (frameBase n 1 0, 65536 * (s.capacity n 1)))
  ++ allParts.map (fun n => (frameBase n 2 0, 65536 * (s.capacity n 2)))

/-- The line after a in offset order, none after the last. -/
def lineAfter (s : State) (a : Nat) : Option Nat :=
  (backedRegions s).findSome? (fun r =>
    if a + 128 < r.1 + r.2 then some (max r.1 (a + 128)) else none)

/-- The scrubber moves on; after the last line a pass is complete (R213). -/
def State.scrubOn (s : State) : State :=
  match lineAfter s s.scrub with
  | some a => { s with scrub := a }
  | none => ({ s with scrub := 0 }).bump MEM.SCRUB.PASSES 1

/-- PATROL_SCRUB (R205 to R213): the next line is read: what stands in it is met, and what the read shows. Fenced memory, and memory in
self-refresh, is passed over. -/
def execPatrolScrub (r : LineRead) (again : Bool) (s : State) : Out :=
  if s.live && s.inForce MEM.SCRUB.HOURS != 0 then
    match place s.scrub with
    | some (t, n, o) =>
      if s.unavailable t n || !(s.frameBacked n t (o / 65536)) then .next s.scrubOn
      else .next ((s.meet s.scrub 128).lineMet { line := s.scrub, read := r, again := again, write := [] } s.scrub 128).scrubOn
    | none => .next s.scrubOn
  else .next s

/-- CHANNEL_ERROR_WINDOW_END (R211): a window of MEM.ERR_CFG.WINDOW_MS ends, and the next one begins. -/
def execChannelErrorWindowEnd (n : PartIx) (s : State) : Out :=
  act s (s.live && decide ((s.part n).chanDue ≤ s.time))
    (s.modPart n (fun p =>
      { p with chans1 := [], chans2 := [], chanDue := s.time + 800000 * max 1 (s.inForce MEM.ERR_CFG.WINDOW_MS) }))

/-- DEVICE_TEMPERATURE_READOUT (R206): the refresh interval is halved above 85 °C. -/
def execDeviceTemperatureReadout (dev : Fin 32) (celsius : Nat) (s : State) : Out :=
  let i := dev.val % 8
  act s (s.live && !(s.poweredOff (toPart (dev.val / 8))))
    (s.modPart (toPart (dev.val / 8)) (fun p => { p with hot := putBits p.hot i i (b2n (decide (85 < celsius))) }))

/-! ### Frame operations (R215, R221) -/

/-- HELD of a tenant in tier t. -/
def State.quotaHeld (s : State) (n : PartIx) (tenant t : Nat) : Nat := s.rdLE (s.quotaAddr n tenant t + 4) 4
/-- Set HELD. -/
def State.setHeld (s : State) (n : PartIx) (tenant t v : Nat) : State := s.wrLE (s.quotaAddr n tenant t + 4) 4 v

/-- A frame operation ends with a result. -/
def State.frameEnd (s : State) (r : Nat) : State := (s.put MEM.FRAME_CMD.RESULT r).put MEM.FRAME_CMD.BUSY 0

/-- MEM.FRAME_CMD is written with GO: operation op on partition n, tier t, a tenant, a frame (R215, R221). -/
def State.frameOp (s0 : State) (op : Nat) (n : PartIx) (t tenant f : Nat) : State :=
  let s := ((((s0.put MEM.FRAME_CMD.FRAME f).put MEM.FRAME_CMD.TIER t).put MEM.FRAME_CMD.PARTITION n.val).put
    MEM.FRAME_CMD.TENANT tenant).put MEM.FRAME_CMD.OP op
  let held := s.quotaHeld n tenant t
  let cnt := s.stackCount n tenant t
  if t = 3 then s.frameEnd 4
  else if op = 1 then
    (if s.rdLE (s.quotaAddr n tenant t) 4 ≤ held then s.frameEnd 1
     else if !(s.frameBacked n t f) then s.frameEnd 3
     else ((s.pushFrame n tenant t f).setHeld n tenant t (held + 1)).frameEnd 0)
  else if op = 3 then
    (if !(s.frameBacked n t f) then s.frameEnd 3
     else if cnt = held then s.frameEnd 5
     else (s.pushFrame n tenant t f).frameEnd 0)
  else if op = 2 ∨ op = 4 then
    (match s.popFrame n tenant t with
    | none => s.frameEnd 2
    | some (g, u) =>
      let v := u.put MEM.FRAME_CMD.FRAME g
      (if op = 2 then v.setHeld n tenant t (held - 1) else v).frameEnd 0)
  else s.frameEnd 4

/-- FRAME_GRANT (R215). -/
def execFrameGrant (n : PartIx) (tier : BitVec 2) (tenant : Byte) (frame : BitVec 21) (s : State) : Out :=
  act s s.served (s.frameOp 1 n tier.toNat tenant.toNat frame.toNat)
/-- FRAME_REVOKE (R215). -/
def execFrameRevoke (n : PartIx) (tier : BitVec 2) (tenant : Byte) (s : State) : Out :=
  act s s.served (s.frameOp 2 n tier.toNat tenant.toNat (s.get MEM.FRAME_CMD.FRAME))
/-- FRAME_RETURN (R215). -/
def execFrameReturn (n : PartIx) (tier : BitVec 2) (tenant : Byte) (frame : BitVec 21) (s : State) : Out :=
  act s s.served (s.frameOp 3 n tier.toNat tenant.toNat frame.toNat)
/-- FRAME_TAKE (R215). -/
def execFrameTake (n : PartIx) (tier : BitVec 2) (tenant : Byte) (s : State) : Out :=
  act s s.served (s.frameOp 4 n tier.toNat tenant.toNat (s.get MEM.FRAME_CMD.FRAME))

/-! ### Migration (R217 to R219) -/

/-- MIGRATION_REQUEST (R217): the next ring entry is taken up, or refused. -/
def execMigrationRequest (n : PartIx) (s : State) : Out :=
  let h := s.get (MEM.MIG_HEAD_n.INDEX n)
  let empty := h % s.migSize n == s.get (MEM.MIG_TAIL_n.INDEX n) % s.migSize n
  if s.runs n && (s.part n).mig.isNone && !empty then
    let a := s.migAddr n h
    let w := s.rdLE (a + 8) 4
    let pages := s.rdLE (a + 0xC) 4
    let ok := bits w 13 12 != 3 && pages != 0 && zeroBits w 31 14 && s.rdLE a 2 == 0 && zeroBits (s.rdLE (a + 0x10) 4) 31 4
    if !ok then .next (s.migEnd n h 4 0)
    else .next (s.modPart n (fun p =>
      { p with mig := some { index := h, ctx := 4096 * n.val + bits w 11 0, first := s.rdLE a 8 / 65536, pages := pages,
                             dest := bits w 13 12, next := 0, moved := 0, open_ := [], wait := [], fail := none } }))
  else .next s

/-- Any segment holds a wet page for this frame (R161), or a change that waits does (R136). -/
def hasWet (s : State) (base : Nat) : Bool := allCores.any (fun c => (wetOf s c base).isSome) || heldBack s base

/-- Copy a page, poison included; the read meets the errors that lie there (R209, R210). -/
def State.copyFrame (s0 : State) (src dst : Nat) : State :=
  let s := s0.meet src 65536
  ((s.wrBytes dst (s.rdBytes src 65536)).poisonAt dst (s.poisonIn src 65536)).wrote dst 65536

/-- Steps 1 to 4 of R218 for a page; fenced memory is skipped (R322). -/
def State.migPage (s : State) (n : PartIx) (m : Migration) (page : Nat) : State :=
  match leafAddr s m.ctx page with
  | none => s.modMig n (fun q => { q with fail := some 3 })
  | some leaf =>
    let ent := s.rdLE leaf 8
    let t := bits ent 2 1
    let src := 65536 * (bits ent 63 16)
    let tenant := s.ctxTenant m.ctx
    if s.fencedOff n leaf then s
    else if s.anyPoison leaf 8 || !(bit ent 0) then s.modMig n (fun q => { q with fail := some 3 })
    else if t = 3 then s.modMig n (fun q => { q with fail := some 4 })
    else if t = m.dest then s.modMig n (fun q => { q with moved := q.moved + 1 })
    else if bit ent 4 || fencedFor s (coreAt n 0) src then s
    else if hasWet s src then s.modMig n (fun q => { q with wait := q.wait ++ [page] })
    else match s.popFrame n tenant m.dest with
      | none => (s.popFail n tenant).modMig n (fun q => { q with fail := some 2 })
      | some (f, u) =>
        let dst := frameBase n m.dest f
        let v := (u.setLeaf leaf (putBits ent 5 5 1)).copyFrame src dst
        v.modMig n (fun q =>
          { q with open_ := q.open_ ++ [{ page := page, leaf := leaf, src := src, srcTier := t, dst := dst, dstTier := m.dest,
                                          copied := true, switched := false, dirty := [], tenant := tenant }] })

/-- MIGRATION_COPY (R218 steps 1 to 4): the next page of the request in address order, or one that waited for a wet page. -/
def execMigrationCopy (n : PartIx) (page : BitVec 48) (s : State) : Out :=
  match (s.part n).mig with
  | none => .next s
  | some m =>
    let p := page.toNat
    let isNext := decide (m.next < m.pages) && p == m.first + m.next
    let waited := m.wait.contains p
    if s.runs n && m.fail.isNone && decide (m.open_.length < 4) && (isNext || waited) then
      let s1 := s.modMig n (fun q =>
        { q with
          next := if isNext then q.next + 1 else q.next
          wait := q.wait.filter (fun x => x != p) })
      .next ((s1.migPage n m p).migDone n)
    else .next s

/-- A stash entry covers an object page, in a stash control block read by `rd` (R129). -/
def stashCovers (rd : Nat → Nat → Nat) (page : Nat) : Bool :=
  (List.range 32).any (fun i => (rd (mbAt i + 2) 1 % 4 != 0) && (List.range (rd (mbAt i + 4) 1)).any (fun e =>
    let a := rd (stashEnt i e) 8 / 65536
    let len := rd (stashEnt i e + 8) 4 / 65536
    decide (a ≤ page) && decide (page < a + len)))

/-- Move 64 KiB of charge in the dry control block. -/
def State.chargeDry (s : State) (c : CoreIx) (k from_ to_ : Nat) : State :=
  let wr := fun (t : State) (off v : Nat) => t.stashNow c k off (toLE 8 v)
  wr (wr s from_ (stashDry s c k from_ 8 - 65536)) to_ (stashDry s c k to_ 8 + 65536)

/-- The running segment of core e sees the charge move where its own copy still holds the entry, and not where it has freed it. -/
def State.chargeWet (t s : State) (e : CoreIx) (k page from_ to_ : Nat) : State :=
  match s.seg e with
  | some g =>
    if g.ctx = k ∧ !g.overlay.isEmpty then
      let d := if stashCovers (stashRd s e g) page then 65536 else 0
      (t.stashWr e k from_ 8 (stashRd s e g from_ 8 - d)).stashWr e k to_ 8 (stashRd s e g to_ 8 + d)
    else t
  | none => t

/-- The stash charge of a page moves with it, dry and in the copy of a segment that runs (R129). -/
def State.moveCharge (s : State) (n : PartIx) (k page from_ to_ : Nat) : State :=
  let c := coreAt n 0
  let a := 0x18 + 8 * from_
  let b := 0x18 + 8 * to_
  if s.ctxRd k 0x18 8 != 0 && stashCovers (stashDry s c k) page then
    forCores allCores (fun e t => t.chargeWet s e k page a b) (s.chargeDry c k a b)
  else s

/-- MIGRATION_SWITCH (R218 step 5): marked lines are copied again, and the leaf names the new frame; a page whose leaf or source is
fenced waits (R322; log entry 170). -/
def execMigrationSwitch (n : PartIx) (page : BitVec 30) (s : State) : Out :=
  match (s.part n).mig with
  | none => .next s
  | some m =>
    match m.open_.find? (fun p => p.page == page.toNat && p.copied && !p.switched) with
    | none => .next s
    | some p =>
      if s.runs n && !(s.fencedOff n p.leaf) && !(s.fencedOff n p.src) then
        let s1 := p.dirty.foldl (fun t l =>
          let u := t.meet (p.src + 128 * l) 128
          ((u.wrBytes (p.dst + 128 * l) (u.rdBytes (p.src + 128 * l) 128)).poisonAt (p.dst + 128 * l) (u.poisonIn (p.src + 128 * l) 128)).wrote
            (p.dst + 128 * l) 128) s
        let ent := putBits (putBits (s1.rdLE p.leaf 8 % 65536) 5 5 0) 2 1 p.dstTier + p.dst
        let s2 := (s1.setLeaf p.leaf ent).moveCharge n m.ctx p.page p.srcTier p.dstTier
        .next (s2.modMig n (fun q =>
          { q with open_ := q.open_.map (fun x => if x.page = p.page then { x with switched := true, dirty := [] } else x) }))
      else .next s

/-- MIGRATION_SOURCE_PUSH (R218 step 6): accesses translated before the switch have ended. -/
def execMigrationSourcePush (n : PartIx) (page : BitVec 30) (s : State) : Out :=
  match (s.part n).mig with
  | none => .next s
  | some m =>
    match m.open_.find? (fun p => p.page == page.toNat && p.switched) with
    | none => .next s
    | some p =>
      if s.runs n then
        let s1 := s.pushFrame n p.tenant p.srcTier (frameNo p.src)
        .next ((s1.modMig n (fun q =>
          { q with moved := q.moved + 1, open_ := q.open_.filter (fun x => x.page != p.page) })).migDone n)
      else .next s

/-- Migrations in progress are abandoned at a partition reset: source frames stay, destination frames go back, and the request
ends with status 6 (R219). -/
def State.abandonMig (s : State) (n : PartIx) : State :=
  match (s.part n).mig with
  | none => s
  | some m =>
    let s1 := m.open_.foldl (fun t p =>
      if p.switched then t.pushFrame n p.tenant p.srcTier (frameNo p.src)
      else (t.setLeafBy n p.leaf (putBits (t.rdLE p.leaf 8) 5 5 0)).pushFrame n p.tenant p.dstTier (frameNo p.dst)) s
    s1.migEnd n m.index 6 m.moved

end Sys2Proof.Machine
end

