-- ==== Sys2Proof/Machine/Route.lean ====
section
/-! DEFINITION. Machine/Route.lean: Chart packets leaving this module: coordinates and routes (R260 to R263), the credits of the
next hop (R241), and the replay buffer they wait in (R267). -/

namespace Sys2Proof.Machine

/-! ### Coordinates (R261) -/

/-- Coordinate d of a module: 0 x, 1 y, 2 z, 3 u, 4 v. -/
def coord (m d : Nat) : Nat :=
  if d = 0 then bits m 1 0 else if d = 1 then bits m 3 2 else if d = 2 then bits m 5 4 else if d = 3 then bits m 8 6 else bits m 11 9

/-- Size of dimension d less 1. -/
def State.sizeM1 (s : State) (d : Nat) : Nat :=
  if d = 0 then s.get GRT.TOPO.SX_M1 else if d = 1 then s.get GRT.TOPO.SY_M1 else if d = 2 then s.get GRT.TOPO.SZ_M1
  else if d = 3 then s.get GRT.TOPO.SU_M1 else s.get GRT.TOPO.SV_M1

/-- The field of GRT.ROUTE for dimension d. -/
def routeField (d : Nat) : Field :=
  if d = 0 then GRT.ROUTE.X else if d = 1 then GRT.ROUTE.Y else if d = 2 then GRT.ROUTE.Z else if d = 3 then GRT.ROUTE.U
  else GRT.ROUTE.V

/-- A module number with coordinate d replaced. -/
def withCoord (m d v : Nat) : Nat :=
  if d = 0 then putBits m 1 0 v else if d = 1 then putBits m 3 2 v else if d = 2 then putBits m 5 4 v
  else if d = 3 then putBits m 8 6 v else putBits m 11 9 v

/-- The neighbour through port p (R260, R261): even ports point to +D, odd ones to −D. -/
def State.neighbour (s : State) (p : Nat) : Nat :=
  let d := p / 2
  let size := s.sizeM1 d + 1
  let own := coord s.selfModule d
  withCoord s.selfModule d (if p % 2 = 0 then (own + 1) % size else (own + size - 1) % size)

/-- Port p is trained at all (R261). -/
def State.portUsed (s : State) (p : Nat) : Bool :=
  s.sizeM1 (p / 2) != 0 && [0, 1, 2, 3, 4].all (fun d => decide (coord s.selfModule d ≤ s.sizeM1 d))

/-- The port that the route function of R262 chooses; none: deliver locally. -/
def State.route (s : State) (dst : Nat) : Option Nat :=
  ([0, 1, 2, 3, 4].find? (fun d => coord dst d != coord s.selfModule d)).map (fun d =>
    2 * d + b2n (bit (s.get (routeField d)) (coord dst d)))

/-! ### Links -/

/-- Count discarded packets of a port (R263, R270). -/
def State.discards (s : State) (l : LinkIx) (k : Nat) : State :=
  if isFrl l then s else s.bump (GRT.DISCARDS_p.COUNT (toPort l.val)) k

/-- 64-byte units a packet takes in a pool (R241). -/
def units (p : Packet) : Nat := 1 + p.len64.toNat
/-- The pool that a packet lands in (R241). -/
def poolOf (p : Packet) : Nat := 4 * p.cls.toNat + p.part.val

/-- Room that a packet needs at the next hop: two 560-byte packets where it enters a ring (R241). -/
def needRoom (s : State) (l : LinkIx) (p : Packet) : Nat :=
  let d := l.val / 2
  if p.src.toNat = s.selfModule ∨ coord p.src.toNat d = coord s.selfModule d then 18 else units p

/-- Units of a pool of a port's receiver are free again: the next control word says so (R241, R266). -/
def State.freeUnits (s : State) (port : Nat) (p : Packet) : State :=
  s.modLink (toLink port) (fun k => { k with freed := modAt k.freed (poolOf p) (fun n => n + units p), news := true })

/-- A packet leaves on a port: it takes its credits, joins the frame being filled, and frees the receiver that held it (R241, R265). -/
def State.putPacket (s : State) (l : LinkIx) (p : Packet) (held : Option Nat) : State :=
  let t := (s.modLink l (fun k => { k with credits := modAt k.credits (poolOf p) (fun v => v - units p) })).putFlits l (packetBytes p)
  let u := { t with chart := { t.chart with tx := t.chart.tx ++ [(some l.val, p)] } }
  match held with
  | some q => u.freeUnits q p
  | none => u

/-- Send the waiting packets of a port, each pool in order, while the port is UP and the replay buffer has room (R241, R267). -/
def pumpGo (l : LinkIx) : List (Packet × Option Nat) → List Nat → State → List (Packet × Option Nat) × State
  | [], _, s => ([], s)
  | p :: r, blocked, s =>
    let k := s.link l
    let pool := poolOf p.1
    if !(blocked.contains pool) && s.get (linkState l) == 2 && decide (k.buf.length < 512)
        && decide (needRoom s l p.1 ≤ k.credits.getD pool 0) then pumpGo l r blocked (s.putPacket l p.1 p.2)
    else
      let (w, t) := pumpGo l r (pool :: blocked) s
      (p :: w, t)

/-- Send what can be sent of a port's waiting packets. -/
def State.pump (s : State) (l : LinkIx) : State :=
  let (w, t) := pumpGo l (s.link l).waiting [] s
  t.modLink l (fun k => { k with waiting := w })

/-- The warm window of a port that left UP is open (R263, R270). -/
def State.warmOpen (s : State) (l : LinkIx) : Bool :=
  match (s.link l).leftUp with
  | some t => decide (s.time ≤ t + 800000 * s.inForce GRT.CFG2.WARM_MS)
  | none => false

/-- A packet goes to a port, or is discarded there (R263); `held`: the port whose receiver holds it. -/
def State.toPortOut (s : State) (l : LinkIx) (p : Packet) (held : Option Nat) : State :=
  let st := s.get (linkState l)
  if st = 2 ∨ (st < 2 ∧ s.warmOpen l) then (s.modLink l (fun k => { k with waiting := k.waiting ++ [(p, held)] })).pump l
  else
    let t := s.discards l 1
    match held with
    | some q => t.freeUnits q p
    | none => t

/-- Route a packet: this module, a port, or discarded (R262, R263). -/
def State.sendPacket (s : State) (p : Packet) : State :=
  match s.route p.dst.toNat with
  | none => { s with chart := { s.chart with tx := s.chart.tx ++ [(none, p)] } }
  | some i => s.toPortOut (toLink i) p none

/-- The port that received a packet and holds it, oldest first (R241). -/
def State.heldAt (s : State) (p : Packet) : Option Nat :=
  (List.range 10).find? (fun i => (s.link (toLink i)).rx.contains p)

/-- A packet is taken out of the receiver that holds it; its units stay taken. -/
def State.takeRx (s : State) (p : Packet) (port : Nat) : State :=
  s.modLink (toLink port) (fun k => { k with rx := k.rx.erase p })

/-- A packet is taken by this module: the receiver that held it has its units free again (R241). -/
def State.unbox (s : State) (p : Packet) : State :=
  match s.heldAt p with
  | some i => (s.takeRx p i).freeUnits i p
  | none => s

/-- PACKET_FORWARD (R241, R262, R263): a packet for another module goes on; the receiver that holds it is free once it has left. -/
def execPacketForward (p : Packet) (s : State) : Out :=
  let go := match s.route p.dst.toNat with
    | none => s.unbox p
    | some i =>
      match s.heldAt p with
      | some q => (s.takeRx p q).toPortOut (toLink i) p (some q)
      | none => s.toPortOut (toLink i) p none
  act s (s.live && p.dst.toNat != s.selfModule) go

/-- Room for a response in this module's injection (R241): each pool of a port's injection holds as much as a receiver's, 1,024 units of
packets that wait (log entry 150). A response to this module itself loops back. -/
def State.roomFor (s : State) (p : Packet) : Bool :=
  match s.route p.src.toNat with
  | none => true
  | some i =>
    let mine := (s.link (toLink i)).waiting.filter (fun w => w.2.isNone && poolOf w.1 == 8 + p.part.val)
    decide ((mine.map (fun w => units w.1)).sum + 9 ≤ 1024)

/-! ### Building packets (R229) -/

/-- A packet of this module with no payload. -/
def State.mkPacket (s : State) (part : Nat) (cls op dst tag nonce addr : Nat) : Packet :=
  { dst := BitVec.ofNat 12 dst, src := BitVec.ofNat 12 s.selfModule, part := toPart part, cls := BitVec.ofNat 2 cls,
    opcode := BitVec.ofNat 8 op, status := 0, len64 := 0, poison := false, tag := BitVec.ofNat 32 tag,
    nonce := BitVec.ofNat 32 nonce, addr := BitVec.ofNat 64 addr, epoch := 0, retry := 0, aux := 0, pmask := 0,
    payload := [], bad := false }

/-- A packet with a payload; words at some offsets are poisoned. -/
def carry (p : Packet) (bs : List Byte) (bad : List Nat) : Packet :=
  { p with len64 := BitVec.ofNat 4 (ceilDiv bs.length 64), payload := bs, poison := !bad.isEmpty, pmask := BitVec.ofNat 128 (badMask bad) }

/-- The answer to a packet: its tag, NONCE, partition and address copied (R229). -/
def State.answer (s : State) (p : Packet) (cls op status : Nat) : Packet :=
  { s.mkPacket p.part.val cls op p.src.toNat p.tag.toNat p.nonce.toNat p.addr.toNat with status := BitVec.ofNat 8 status }

/-- A NACK with a RETRY_AFTER (R231). -/
def State.nack (s : State) (p : Packet) (status retry : Nat) : State :=
  s.sendPacket { s.answer p 2 0x23 status with retry := BitVec.ofNat 16 retry }

/-- An ACK (R233). -/
def State.ack (s : State) (p : Packet) : Packet := s.answer p 2 0x21 0

/-- A DIR_ACK with a status and a RETRY_AFTER (R246). -/
def State.dirAck (s : State) (p : Packet) (status retry : Nat) : State :=
  s.sendPacket { s.answer p 3 0x3F status with retry := BitVec.ofNat 16 retry }

/-- The parcel named by a Chart address (R222). -/
def nameOf (a : Nat) : Nat := bits a 63 21
/-- The module at which a parcel was created (R222). -/
def originOf (n : Nat) : Nat := n / 2 ^ 31 % 4096
/-- The Chart address of a parcel's first byte. -/
def nameAddr (n : Nat) : Nat := 2097152 * n

/-- The next NONCE of a partition (log entry 8). -/
def State.freshNonce (s : State) (n : Nat) : Nat × State :=
  (s.chart.nonces.getD n 0, { s with chart := { s.chart with nonces := modAt s.chart.nonces n (fun k => (k + 1) % 2 ^ 32) } })

/-- A module answers and sends Chart requests (R223). -/
def State.chartOpen (s : State) : Bool := s.on GAZ.CTRL.OPEN

end Sys2Proof.Machine
end

