-- ==== Sys2Proof/Machine/Gazetteer.lean ====
section
/-! DEFINITION. Machine/Gazetteer.lean: the gazetteer (R222 to R228), host slots (R243), and the operations of GAZ.CMD (R224, R243,
R246, R247, R249, R252, R257). -/

namespace Sys2Proof.Machine

/-! ### Entries -/

/-- The entry of a parcel's name. -/
def State.gazAt (s : State) (n : Nat) : Option GazEntry := s.chart.gaz.find? (fun e => e.name == n)

/-- The set of a name (R225). -/
def gazSet (n : Nat) : Nat := Nat.xor (Nat.xor (bits n 14 0) (bits n 29 15)) (bits n 42 30)

/-- Bring GAZ.STATUS and GAZ.TICKETS in line (R257). -/
def State.showGaz (s : State) : State :=
  (((s.put GAZ.STATUS.ENTRIES s.chart.gaz.length).put GAZ.TICKETS.OUT_ACTIVE s.chart.outT.length).put GAZ.TICKETS.IN_ACTIVE
    s.chart.inT.length).put GAZ.TICKETS.IN_DOUBT (s.chart.gaz.filter (fun e => decide (e.st = .inDoubt))).length

/-- Take a list of entries as the gazetteer. -/
def State.setGaz (s : State) (l : List GazEntry) : State := ({ s with chart := { s.chart with gaz := l } }).showGaz

/-- Change an entry; TIME is set where STATE or HOLD changes (R225). -/
def State.modGaz (s : State) (n : Nat) (f : GazEntry → GazEntry) : State :=
  s.setGaz (s.chart.gaz.map (fun e =>
    if e.name = n then (let g := f e; if g.st = e.st ∧ g.hold = e.hold then g else { g with time := s.time }) else e))

/-- Free an entry. -/
def State.freeGaz (s : State) (n : Nat) : State := s.setGaz (s.chart.gaz.filter (fun e => e.name != n))

/-- An entry may be freed for its way: a settled FORWARD that is no origin pointer (R226). -/
def freeable (e : GazEntry) : Bool := decide (e.st = .forward) && !e.origin && e.ticket.isNone

/-- The oldest of a list of entries by TIME. -/
def oldest (l : List GazEntry) : Option GazEntry :=
  l.foldl (fun b e => match b with
    | none => some e
    | some x => if e.time < x.time then some e else some x) none

/-- List a new entry, freeing a FORWARD entry where its set is full; none where it is refused (R226). -/
def State.addGaz (s : State) (e : GazEntry) : Option State :=
  let mates := s.chart.gaz.filter (fun x => gazSet x.name == gazSet e.name)
  if mates.length < 16 then some (s.setGaz (s.chart.gaz ++ [e]))
  else match oldest (mates.filter freeable) with
    | some v => some ((s.freeGaz v.name).setGaz ((s.freeGaz v.name).chart.gaz ++ [e]))
    | none => none

/-- A set has a way for a new entry (R226). -/
def State.hasWay (s : State) (n : Nat) : Bool :=
  let mates := s.chart.gaz.filter (fun x => gazSet x.name == gazSet n)
  decide (mates.length < 16) || mates.any freeable

/-- The first local offset of an entry's storage (R222). -/
def GazEntry.at_ (e : GazEntry) : Nat := 2097152 * e.base

/-- The tier and partition of a 2 MiB slot. -/
def slotPlace (base : Nat) : Option (Nat × PartIx) := (place (2097152 * base)).map (fun p => (p.1, p.2.1))

/-- Every frame of a 2 MiB slot is backed (R224). -/
def State.slotBacked (s : State) (base : Nat) : Bool := (List.range 32).all (fun i => s.backed (2097152 * base + 65536 * i))

/-- The storage of an entry cannot be served now: its partition is in reset, or its tier is off (R227). -/
def State.storageOut (s : State) (base : Nat) : Bool :=
  match slotPlace base with
  | some (t, n) => s.unavailable t n
  | none => false

/-- The partition of a slot as a number. -/
def slotPart (base : Nat) : Nat :=
  match slotPlace base with
  | some (_, n) => n.val
  | none => 0

/-- Lists a module number among the names of this module. -/
def State.isOrigin (s : State) (n : Nat) : Bool := originOf n == s.selfModule

/-! ### Host slots (R243) -/

/-- BASE, LIMIT and COUNT of a host stack. -/
def hostBase (n : PartIx) (t : Nat) : Field := GAZ.HOST_n_t.BASE n (t % 3)
def hostLimit (n : PartIx) (t : Nat) : Field := GAZ.HOST_n_t.LIMIT n (t % 3)
def hostCount (n : PartIx) (t : Nat) : Field := GAZ.HOST_n_t.COUNT n (t % 3)

/-- The local offset of entry i of a host stack. -/
def State.hostAt (s : State) (n : PartIx) (t i : Nat) : Nat := velBase n + 4 * s.inForce (hostBase n t) + 4 * i

/-- Push a slot on a host stack; none where it is full (R243). -/
def State.pushHost (s : State) (n : PartIx) (t base : Nat) : Option State :=
  let k := s.get (hostCount n t)
  if s.inForce (hostLimit n t) ≤ k then none else some ((s.wrLE (s.hostAt n t k) 4 base).put (hostCount n t) (k + 1))

/-- Pop a slot off a host stack; none where it is empty. -/
def State.popHost (s : State) (n : PartIx) (t : Nat) : Option (Nat × State) :=
  let k := s.get (hostCount n t)
  if k = 0 then none else some (s.rdLE (s.hostAt n t (k - 1)) 4, s.put (hostCount n t) (k - 1))

/-- A departed parcel's storage goes to the stack of its partition and tier; a full stack refuses it (R243). -/
def State.releaseSlot (s : State) (base : Nat) : State :=
  match slotPlace base with
  | some (t, n) => (s.pushHost n t base).getD s
  | none => s

/-! ### Hints (R228) -/

/-- The hint of a name: home and epoch. -/
def State.hint (s : State) (n : Nat) : Option (Nat × Nat) :=
  (s.chart.hints.find? (fun h => h.1 == n)).map (fun h => h.2)

/-- EPOCH e2 is newer than e1 (R225). -/
def newer (e2 e1 : Nat) : Bool :=
  let d := (e2 + 65536 - e1 % 65536) % 65536
  decide (1 ≤ d) && decide (d ≤ 32767)

/-- Drop a hint. -/
def State.dropHint (s : State) (n : Nat) : State :=
  { s with chart := { s.chart with hints := s.chart.hints.filter (fun h => h.1 != n) } }

/-- Keep a hint as the most recently used. -/
def State.keepHint (s : State) (n home epoch : Nat) : State :=
  { s with chart := { s.chart with hints := ((n, home, epoch) :: s.chart.hints.filter (fun h => h.1 != n)).take 4096 } }

/-- A REDIRECT replaces an older hint (R228). -/
def State.learnHint (s : State) (n home epoch : Nat) : State :=
  match s.hint n with
  | none => s.keepHint n home epoch
  | some (_, e) => if newer epoch e then s.keepHint n home epoch else s

/-- Where a request goes, and the hint cache after its use (R228). -/
def State.target (s : State) (n : Nat) : Nat × State :=
  match s.hint n with
  | some (m, e) => (m, s.keepHint n m e)
  | none => (originOf n, s)

/-- HINT_FLUSH (R228): CHT.HINT.FLUSH is written 1. -/
def execHintFlush (s : State) : Out := act s s.served { s with chart := { s.chart with hints := [] } }

/-! ### Directory messages (R237, R246) -/

/-- The shell unit of a DIR message (R229): 17 the collective engine, 16 the ticket agent. -/
def dirUnit (p : Packet) : Nat := if p.opcode = 0x3E then 17 else 16

/-- Send a DIR message and track it until it is answered; while no tag is free it waits for one (R223, R229, R240). -/
def State.sendDir (s : State) (p : Packet) (kind : DirKind) : State :=
  if !s.chartOpen then s
  else match s.freshTag (dirUnit p) 0 with
    | none =>
      let d : DirMsg := { pkt := p, kind := kind, tagged := false, first := s.time, sent := s.time, again := some s.time }
      { s with chart := { s.chart with dirs := s.chart.dirs ++ [d] } }
    | some (i, t) =>
      let q := { p with tag := BitVec.ofNat 32 i }
      let d : DirMsg := { pkt := q, kind := kind, first := s.time, sent := s.time }
      State.sendPacket { t with chart := { t.chart with dirs := t.chart.dirs ++ [d] } } q

/-- A DIR message about a ticket or a parcel: opcode, destination, TICKET_ID, name, EPOCH, AUX (R230). -/
def State.dirMsg (s : State) (part op dst id name epoch aux : Nat) : Packet :=
  { s.mkPacket part 3 op dst 0 id (nameAddr name) with epoch := BitVec.ofNat 16 epoch, aux := BitVec.ofNat 32 aux }

/-- POINTER_UPDATE to the origin, unless the origin is this module or `dst` (R249). -/
def State.pointerUpdate (s : State) (e : GazEntry) (home dst : Nat) : State :=
  let o := originOf e.name
  if o = s.selfModule ∨ o = dst then s
  else
    let (k, t) := s.freshNonce (slotPart e.base)
    t.sendDir (t.dirMsg (slotPart e.base) 0x3A o k e.name e.epoch home) .plain

/-- Stop tracking DIR messages of some kinds: what is unanswered of them is cancelled (R240). -/
def State.dropDirs (s : State) (p : DirMsg → Bool) : State :=
  State.setAside { s with chart := { s.chart with dirs := s.chart.dirs.filter (fun d => !p d) } }
    ((s.chart.dirs.filter (fun d => d.tagged && p d)).map (fun d => d.pkt.tag.toNat))

/-- A DIR message is another of the same. -/
def DirMsg.is (d x : DirMsg) : Bool := x.tagged == d.tagged && x.pkt.tag == d.pkt.tag && x.pkt.nonce == d.pkt.nonce && x.pkt.opcode == d.pkt.opcode

/-- Change a tracked DIR message. -/
def State.modDir (s : State) (d : DirMsg) (f : DirMsg → DirMsg) : State :=
  { s with chart := { s.chart with dirs := s.chart.dirs.map (fun x => if d.is x then f x else x) } }

/-- The DIR message that an answer answers. -/
def State.dirFor (s : State) (p : Packet) : Option DirMsg :=
  s.chart.dirs.find? (fun d => d.tagged && d.pkt.tag == p.tag && d.pkt.nonce == p.nonce)

/-! ### GAZ.CMD (R257) -/

/-- An operation of GAZ.CMD ends with a RESULT. -/
def State.gazEnd (s : State) (r : Nat) : State := (s.put GAZ.CMD.RESULT r).put GAZ.CMD.BUSY 0

/-- An operation of GAZ.CMD on a name, run at once while the module lives. -/
def gazOp (s : State) (op : Nat) (name : Nat) (f : State → State) : Out :=
  act s s.served (f ((s.put GAZ.CMD.NAME name).put GAZ.CMD.OP op))

/-- OPEN (R223, R257): GAZ.CTRL.OPEN is written 1. -/
def execOpenChart (s : State) : Out := act s s.settable (s.put GAZ.CTRL.OPEN 1)

/-- CREATE a parcel at its origin, with storage at A[51:21] × 2 MiB (R224). -/
def State.gazCreate (s : State) (name : Nat) : State :=
  if (s.gazAt name).isSome then s.gazEnd 1
  else if !s.isOrigin name then s.gazEnd 7
  else if !s.slotBacked (name % 2 ^ 31) then s.gazEnd 5
  else match s.addGaz { name := name, st := .home, origin := true, base := name % 2 ^ 31, stored := true, time := s.time } with
    | some t => t.gazEnd 0
    | none => (s.flag GAZ.STATUS.FULL_SEEN 1).gazEnd 3

/-- CREATE (R224). -/
def execCreate (name : BitVec 43) (base : BitVec 31) (s : State) : Out :=
  gazOp s 1 name.toNat (fun t => (t.put GAZ.CMD_ARG.BASE base.toNat).gazCreate name.toNat)

/-- DESTROY (R246, R249, R250): an idle HOME entry, or a LOST one. -/
def State.gazDestroy (s : State) (name : Nat) : State :=
  match s.gazAt name with
  | none => s.gazEnd 2
  | some e =>
    let gone := fun (t : State) =>
      let u := if e.origin then t
        else
          let (k, v) := t.freshNonce (slotPart e.base)
          v.sendDir (v.dirMsg (slotPart e.base) 0x3B (originOf name) k name e.epoch 0) .plain
      (u.freeGaz name).gazEnd 0
    if e.st = .home ∧ e.ticket = none then gone (s.releaseSlot e.base)
    else if e.st = .lost then gone s
    else s.gazEnd 4

/-- DESTROY. -/
def execDestroy (name : BitVec 43) (s : State) : Out := gazOp s 2 name.toNat (fun t => t.gazDestroy name.toNat)

/-- PIN and UNPIN (R246): a HOME entry, or one whose ticket is under way. -/
def State.gazPin (s : State) (name : Nat) (v : Bool) : State :=
  match s.gazAt name with
  | none => s.gazEnd 2
  | some e =>
    if e.st = .home ∨ (e.st = .forward ∧ e.ticket ≠ none) then (s.modGaz name (fun e => { e with pinned := v })).gazEnd 0
    else s.gazEnd 4

/-- PIN. -/
def execPin (name : BitVec 43) (s : State) : Out := gazOp s 3 name.toNat (fun t => t.gazPin name.toNat true)
/-- UNPIN. -/
def execUnpin (name : BitVec 43) (s : State) : Out := gazOp s 4 name.toNat (fun t => t.gazPin name.toNat false)

/-- RESTORE (R252): an entry is rebuilt, HOME where MODULE is this module, FORWARD otherwise. -/
def State.gazRestore (s : State) (name base epoch module : Nat) : State :=
  let home := module == s.selfModule
  if (s.gazAt name).isSome then s.gazEnd 1
  else if home && !s.slotBacked base then s.gazEnd 5
  else
    let e : GazEntry := { name := name, st := if home then .home else .forward, origin := s.isOrigin name, epoch := epoch,
                          module := if home then 0 else module, base := if home then base else 0, stored := home, time := s.time }
    match s.addGaz e with
    | some t => t.gazEnd 0
    | none => (s.flag GAZ.STATUS.FULL_SEEN 1).gazEnd 3

/-- RESTORE. -/
def execRestore (name : BitVec 43) (base : BitVec 31) (epoch : BitVec 16) (module : BitVec 12) (s : State) : Out :=
  gazOp s 5 name.toNat (fun t =>
    (((t.put GAZ.CMD_ARG.BASE base.toNat).put GAZ.CMD_ARG.EPOCH epoch.toNat).put GAZ.CMD_ARG.MODULE module.toNat).gazRestore name.toNat
      base.toNat epoch.toNat module.toNat)

/-- MARK_LOST (R252): a HOME entry, or a name with no entry, becomes LOST. -/
def State.gazMarkLost (s : State) (name : Nat) : State :=
  match s.gazAt name with
  | some e =>
    if e.st = .home ∧ e.ticket = none then (s.modGaz name (fun e => { e with st := .lost })).gazEnd 0
    else if e.st = .lost then s.gazEnd 1
    else s.gazEnd 4
  | none =>
    match s.addGaz { name := name, st := .lost, origin := s.isOrigin name, time := s.time } with
    | some t => t.gazEnd 0
    | none => (s.flag GAZ.STATUS.FULL_SEEN 1).gazEnd 3

/-- MARK_LOST. -/
def execMarkLost (name : BitVec 43) (s : State) : Out := gazOp s 11 name.toNat (fun t => t.gazMarkLost name.toNat)

/-- The number of an entry's STATE (R225). -/
def gazCode : GazSt → Nat
  | .home => 1
  | .forward => 2
  | .receiving => 3
  | .prepared => 4
  | .inDoubt => 5
  | .lost => 6

/-- LOOKUP (R257). -/
def State.gazLookup (s : State) (name : Nat) : State :=
  match s.gazAt name with
  | none => (s.put GAZ.CMD.STATE 0).gazEnd 2
  | some e =>
    ((((s.put GAZ.CMD.STATE (gazCode e.st)).put GAZ.CMD_ARG.BASE e.base).put GAZ.CMD_ARG.EPOCH e.epoch).put GAZ.CMD_ARG.MODULE
      e.module).gazEnd 0

/-- LOOKUP. -/
def execLookup (name : BitVec 43) (s : State) : Out := gazOp s 10 name.toNat (fun t => t.gazLookup name.toNat)

/-- GAZ.CMD_ARG takes a partition and a tier. -/
def State.gazArg (s : State) (op : Nat) (n : PartIx) (t : Nat) : State :=
  ((s.put GAZ.CMD.OP op).put GAZ.CMD_ARG.PART n.val).put GAZ.CMD_ARG.TIER t

/-- PUSH_SLOT (R243). -/
def State.gazPush (s : State) (n : PartIx) (t base : Nat) : State :=
  if t = 3 then s.gazEnd 7
  else if !(s.slotBacked base && slotPlace base == some (t, n)) then s.gazEnd 5
  else match s.pushHost n t base with
    | some u => u.gazEnd 0
    | none => s.gazEnd 6

/-- PUSH_SLOT. -/
def execPushSlot (n : PartIx) (tier : BitVec 2) (base : BitVec 31) (s : State) : Out :=
  act s s.served (((s.gazArg 8 n tier.toNat).put GAZ.CMD_ARG.BASE base.toNat).gazPush n tier.toNat base.toNat)

/-- POP_SLOT (R243). -/
def State.gazPop (s : State) (n : PartIx) (t : Nat) : State :=
  if t = 3 then s.gazEnd 7
  else match s.popHost n t with
    | some (b, u) => (u.put GAZ.CMD_ARG.BASE b).gazEnd 0
    | none => s.gazEnd 6

/-- POP_SLOT. -/
def execPopSlot (n : PartIx) (tier : BitVec 2) (s : State) : Out :=
  act s s.served ((s.gazArg 9 n tier.toNat).gazPop n tier.toNat)

/-! ### Ageing -/

/-- FORWARD_LIFETIME_EXPIRY (R226): a settled FORWARD entry that is no origin pointer is freed GAZ.CFG.FWD_MS after TIME. -/
def execForwardLifetimeExpiry (name : BitVec 43) (s : State) : Out :=
  match s.gazAt name.toNat with
  | none => .next s
  | some e =>
    act s (s.live && freeable e && decide (e.time + 800000 * clamp 1 65535 (s.inForce GAZ.CFG.FWD_MS) ≤ s.time)) (s.freeGaz name.toNat)

/-- PROMOTION_HOLD_EXPIRY (R247): HOLD clears PROMO_HOLD_US after TIME. -/
def execPromotionHoldExpiry (name : BitVec 43) (s : State) : Out :=
  match s.gazAt name.toNat with
  | none => .next s
  | some e =>
    act s (s.live && e.hold.isSome && decide (e.time + 800 * clamp 1 255 (s.inForce GAZ.CFG.PROMO_HOLD_US) ≤ s.time))
      (s.modGaz name.toNat (fun e => { e with hold := none }))

end Sys2Proof.Machine
end

