-- ==== Sys2Proof/Machine/Home.lean ====
section
/-! DEFINITION. Machine/Home.lean: Chart requests arriving at this module: answers by entry state (R227, R230), service from storage
(R233), semaphores at their home (R168, R234), and the duplicate filter (R239). -/

namespace Sys2Proof.Machine

/-! ### Arrival (R230) -/

/-- The opcodes of R230. -/
def knownChart (o : Nat) : Bool :=
  (decide (1 ≤ o) && decide (o ≤ 4)) || (decide (0x10 ≤ o) && decide (o ≤ 0x15)) || (decide (0x20 ≤ o) && decide (o ≤ 0x23))
    || (decide (0x30 ≤ o) && decide (o ≤ 0x3F))

/-- The payload line of a semaphore or ticket message, as a number (R230). -/
def lineOf (p : Packet) : Nat := leNat (p.payload.take 64)

/-- A reserved bit of a semaphore or ticket line is set (R230). -/
def lineBad (p : Packet) : Bool :=
  let o := p.opcode.toNat
  if o = 2 ∨ o = 3 ∨ o = 4 ∨ o = 0x12 ∨ o = 0x13 then lineOf p / 2 ^ 48 != 0
  else if o = 0x30 ∨ o = 0x31 ∨ o = 0x33 then lineOf p / 2 ^ 63 != 0
  else false

/-- A packet is discarded and counted (R230). -/
def malformed (p : Packet) : Bool := p.bad || !knownChart p.opcode.toNat || lineBad p

/-- The record of the duplicate filter that a request matches (R239). -/
def State.dupOf (s : State) (p : Packet) : Option DupRec :=
  s.chart.dups.find? (fun d => d.src == p.src.toNat && d.part == p.part.val && d.nonce == p.nonce.toNat)

/-- An earlier request of the class for the parcel waits at the port that received this one (R235). -/
def State.behind (s : State) (p : Packet) : Bool :=
  match s.heldAt p with
  | some i => ((s.link (toLink i)).rx.takeWhile (fun q => q != p)).any (fun q =>
      q.cls == p.cls && q.dst == p.dst && nameOf q.addr.toNat == nameOf p.addr.toNat)
  | none => false

/-- A request can be taken now: its response has room in the injection (R241), a WRITE-class one that is no duplicate has room in the
filter (R239), and none that came before it for the parcel waits (R235). Otherwise it stays where it waits. -/
def admits (s : State) (p : Packet) : Bool :=
  let o := p.opcode.toNat
  if o < 0x20 then
    s.roomFor p && !s.behind p && (o < 0x10 || (s.dupOf p).isSome || decide (s.chart.dups.length < 16384))
  else true

/-- A packet of an opcode arrives at this module: a malformed one is discarded and counted (R230). -/
def arrive (s : State) (p : Packet) (op : Nat) (go : State → State) : Out :=
  if !(s.live && p.dst.toNat == s.selfModule) then .next s
  else if malformed p then .next ((s.unbox p).bump (CHT.COUNTS_n.MALFORMED p.part) 1)
  else act s (p.opcode.toNat == op && admits s p) (go (s.unbox p))

/-! ### Answers by entry state (R227) -/

/-- What a request for a parcel finds. -/
inductive Serve where
  | at_ (e : GazEntry)
  | no (status retry module epoch : Nat)

/-- RETRY_AFTER of MOVING (R237). -/
def State.movingUs (s : State) : Nat := clamp 1 255 (s.inForce GAZ.CFG.MOVING_US)

/-- The outgoing ticket of a name. -/
def State.outOf (s : State) (n : Nat) : Option OutTicket := s.chart.outT.find? (fun t => t.name == n)

/-- A parcel's ticket is in FROZEN (R246). -/
def State.frozen (s : State) (n : Nat) : Bool :=
  match s.outOf n with
  | some t => decide (t.phase = .frozen)
  | none => false

/-- The answer to a request that names a parcel (R223, R227). -/
def serveAt (s : State) (n : Nat) : Serve :=
  if !s.chartOpen then .no 3 100 0 0
  else match s.gazAt n with
    | none => if s.isOrigin n then .no 5 0 0 0 else .no 4 0 0 0
    | some e =>
      match e.st with
      | .home => if s.storageOut e.base then .no 3 100 0 0 else if s.frozen n then .no 2 s.movingUs 0 0 else .at_ e
      | .forward => .no 1 0 e.module e.epoch
      | .receiving => .no 1 0 e.module e.epoch
      | .prepared => .no 3 100 0 0
      | .inDoubt => .no 3 100 0 0
      | .lost => .no 6 0 0 0

/-- A request is refused with a NACK (R231). -/
def State.refuse (s : State) (p : Packet) (status retry module epoch : Nat) : State :=
  s.sendPacket { s.answer p 2 0x23 status with
    retry := BitVec.ofNat 16 retry, aux := BitVec.ofNat 32 module, epoch := BitVec.ofNat 16 epoch }

/-- A byte range lies within the parcel and its storage is backed (R231, R232). -/
def State.parcelRange (s : State) (e : GazEntry) (off len : Nat) : Bool :=
  decide (off + len ≤ 2097152) && (List.range (pageCount off len)).all (fun i => s.backed (e.at_ + 65536 * (off / 65536 + i)))

/-- Serve a request of `len` bytes from storage at a local offset, or refuse it (R227, R233). -/
def served (s : State) (p : Packet) (len : Nat) (go : GazEntry → Nat → State) : State :=
  match serveAt s (nameOf p.addr.toNat) with
  | .no st r m e => s.refuse p st r m e
  | .at_ e =>
    let off := p.addr.toNat % 2097152
    if s.parcelRange e off len then go e (e.at_ + off) else s.refuse p 5 0 0 0

/-! ### The duplicate filter (R239) -/

/-- A WRITE-class request that was applied before is answered again; a full filter takes none (R239). -/
def filtered (s : State) (p : Packet) (go : State → State) : State :=
  match s.dupOf p with
  | some d => s.sendPacket d.resp
  | none => if s.chart.dups.length < 16384 then go s else s

/-- Send the ACK of a request that has been applied, and keep it in the filter (R239). -/
def State.applied (s : State) (p r : Packet) : State :=
  let d : DupRec := { src := p.src.toNat, part := p.part.val, nonce := p.nonce.toNat, resp := r, due := s.time + s.dupTime }
  State.sendPacket { s with chart := { s.chart with dups := s.chart.dups ++ [d] } } r

/-- DUPLICATE_WINDOW_EXPIRY (R239): records older than DUP_US go. -/
def execDuplicateWindowExpiry (s : State) : Out :=
  act s s.live { s with chart := { s.chart with dups := s.chart.dups.filter (fun d => decide (s.time < d.due)) } }

/-! ### READ, WRITE and ADD32 (R233) -/

/-- READ, WRITE and ADD32 cover 64 to 512 B, aligned to 64 B (R232); another range is refused as one that is not backed (log entry
145). -/
def lineRange (p : Packet) (len : Nat) : Bool :=
  decide (0 < len) && decide (len ≤ 512) && len % 64 == 0 && p.addr.toNat % 64 == 0

/-- Serve a READ, WRITE or ADD32. -/
def servedLines (s : State) (p : Packet) (len : Nat) (go : GazEntry → Nat → State) : State :=
  match serveAt s (nameOf p.addr.toNat) with
  | .no st r m e => s.refuse p st r m e
  | .at_ e =>
    let off := p.addr.toNat % 2097152
    if lineRange p len && s.parcelRange e off len then go e (e.at_ + off) else s.refuse p 5 0 0 0

/-- The partition of a storage offset. -/
def offPart (a : Nat) : PartIx :=
  match place a with
  | some (_, n, _) => n
  | none => 0

/-- Each poisoned word that a Chart read finds is marked and writes one record (R210). -/
def State.readPoison (s : State) (p : Packet) (a : Nat) (bad : List Nat) : State :=
  bad.foldl (fun t o => t.raise { code := 3, domain := domPart (offPart a), addr := p.addr.toNat + o, d0 := 3 }) s

/-- READ_DATA with the bytes, poisoned words marked, each with its record (R210, R233). -/
def State.readAnswer (s : State) (p : Packet) (a len : Nat) : State :=
  let bad := s.poisonIn a len
  (s.readPoison p a bad).sendPacket (carry (s.answer p 2 0x20 0) (s.rdBytes a len) bad)

/-- CHART_READ (R227, R233): READ_DATA with the bytes, poisoned words marked. -/
def execChartRead (p : Packet) (s : State) : Out :=
  arrive s p 0x01 (fun s =>
    let len := bits p.aux.toNat 9 0 + 1
    servedLines s p len (fun _ a => (s.meet a len).readAnswer p a len))

/-- Lines of a parcel that a write covers are marked while it is copied (R245). -/
def State.markLines (s : State) (n off len : Nat) : State :=
  { s with chart := { s.chart with
      outT := s.chart.outT.map (fun t =>
        if t.name = n ∧ t.phase = .copying then
          { t with marked := t.marked ++ (linesIn off len).filter (fun l => !t.marked.contains l) } else t) } }

/-- Offsets of the words that a packet marks poisoned. -/
def badWordsOf (p : Packet) : List Nat := if p.poison then maskBad p.pmask.toNat (ceilDiv p.payload.length 4) else []

/-- The binary32 words of a packet's payload. -/
def wordsOf (p : Packet) : List Nat :=
  (List.range (p.payload.length / 4)).map (fun i => fieldAt p.payload (4 * i) 4)

/-- CHART_WRITE (R163, R233): stored at the home, then acknowledged. -/
def execChartWrite (p : Packet) (s : State) : Out :=
  arrive s p 0x10 (fun s => filtered s p (fun s =>
    servedLines s p p.payload.length (fun e a =>
      ((s.extWrite a p.payload (badWordsOf p)).markLines e.name (p.addr.toNat % 2097152) p.payload.length).applied p (s.ack p))))

/-- ADD32 (R101, R163, R233): each element goes through the bank-side adder. -/
def execAdd32 (p : Packet) (s : State) : Out :=
  arrive s p 0x11 (fun s => filtered s p (fun s =>
    servedLines s p p.payload.length (fun e a =>
      (((s.extAdd a (wordsOf p)).poisonAt a (badWordsOf p)).markLines e.name (p.addr.toNat % 2097152) p.payload.length).applied p (s.ack p))))

/-! ### Semaphores at their home (R168, R234) -/

/-- VALUE, DELTA or LEASE of a semaphore message. -/
def semVal (p : Packet) : Nat := bits (lineOf p) 31 0
/-- COND of SEM_WAIT. -/
def semCondOf (p : Packet) : Nat := bits (lineOf p) 33 32
/-- The issuing context. -/
def semCtxOf (p : Packet) : Nat := bits (lineOf p) 47 34

/-- The answer with VALUE (R230). -/
def State.semResult (s : State) (p : Packet) (a : Nat) : State :=
  s.sendPacket { s.answer p 2 0x22 0 with aux := BitVec.ofNat 32 (s.rdLE a 4) }

/-- What a grant at this home found, where the asker is a sequencer of this module (R167). -/
def State.noteGrant (s : State) (p : Packet) (expired extended : Bool) : State :=
  if p.src.toNat = s.selfModule then
    { s with chart := { s.chart with
      grants := (p.tag.toNat, expired, extended) :: s.chart.grants.filter (fun x => x.1 != p.tag.toNat) } }
  else s

/-- Try a SEM_WAIT or SEM_ACQUIRE at the home: none where it must wait (R234). -/
def semTry (s : State) (p : Packet) (a : Nat) : Option State :=
  if p.opcode.toNat = 2 then
    (if (semCondOf p = 0 ∧ semVal p ≤ s.rdLE a 4) ∨ (semCondOf p = 1 ∧ s.rdLE a 4 = semVal p)
        ∨ (2 ≤ semCondOf p ∧ s.rdLE a 4 ≠ semVal p) then some (s.semResult p a) else none)
  else match semAcquireAt s a p.src.toNat (semCtxOf p) (semVal p) with
    | some (t, taken, expired) => some ((t.noteGrant p expired (!taken)).semResult p a)
    | none => none

/-- A request at place k of the order waits for one that reached the semaphore at local offset a before it (R167); the holder's own
extension waits for nobody. -/
def semQueued (s : State) (p : Packet) (a k : Nat) : Bool :=
  p.opcode.toNat == 3 && !(leaseOf s a == .live && heldByCtx s a p.src.toNat (semCtxOf p)) && semAhead s a k

/-- A SEM_WAIT or SEM_ACQUIRE arrives: answered, or it joins the list, or BUSY where the list is full (R234). -/
def semArrive (op : Nat) (p : Packet) (s : State) : Out :=
  arrive s p op (fun s => served s p 16 (fun e a =>
    let s := s.meet a 16
    match (if semQueued s p a (semOrder s) then none else semTry s p a) with
    | some t => t.markLines e.name (p.addr.toNat % 2097152) 16
    | none =>
      if s.chart.waiters.length < 1024 then
        { s with chart := { s.chart with waiters := s.chart.waiters ++ [{ pkt := p, since := s.time, at_ := a, order := semOrder s }] } }
      else s.refuse p 11 10 0 0))

/-- CHART_SEM_WAIT (R168, R234). -/
def execChartSemWait (p : Packet) (s : State) : Out := semArrive 0x02 p s
/-- CHART_SEM_ACQUIRE (R168, R234). -/
def execChartSemAcquire (p : Packet) (s : State) : Out := semArrive 0x03 p s

/-- Waiters that can be answered now are (R234): condition met, lease granted in order, or storage no longer served. -/
def wakeGo : List Waiter → State → State
  | [], s => s
  | w :: r, s =>
    let keep := fun (t : State) (a : Nat) => { t with chart := { t.chart with waiters := t.chart.waiters ++ [{ w with at_ := a }] } }
    let off := w.pkt.addr.toNat % 2097152
    match serveAt s (nameOf w.pkt.addr.toNat) with
    | .no st rt m e => wakeGo r (s.refuse w.pkt st rt m e)
    | .at_ e =>
      match (if semQueued s w.pkt (e.at_ + off) w.order then none else semTry s w.pkt (e.at_ + off)) with
      | some t => wakeGo r (t.markLines e.name off 16)
      | none => wakeGo r (keep s (e.at_ + off))

/-- Look at every waiter once, in order (R234). -/
def State.wakeWaiters (s : State) : State := wakeGo s.chart.waiters { s with chart := { s.chart with waiters := [] } }

/-- SEM_HOLD_EXPIRY (R234): a waiter that has waited SEM_HOLD_US is answered NOT_YET. -/
def execSemHoldExpiry (i : Nat) (s : State) : Out :=
  match s.chart.waiters[i]? with
  | none => .next s
  | some w =>
    act s (s.live && decide (w.since + 800 * clamp 1 255 (s.inForce CHT.TIMERS2.SEM_HOLD_US) ≤ s.time))
      (State.refuse { s with chart := { s.chart with waiters := s.chart.waiters.eraseIdx i } } w.pkt 10 0 0 0)

/-- SEM_CANCEL (R168, R234): waiters of the context go, and HELD clears if HOLDER still names it. -/
def execSemCancel (p : Packet) (s : State) : Out :=
  arrive s p 0x04 (fun s => served s p 16 (fun e a =>
    let mine := fun (w : Waiter) => w.pkt.addr == p.addr && w.pkt.src == p.src && semCtxOf w.pkt == semCtxOf p
    let t := { s with chart := { s.chart with waiters := s.chart.waiters.filter (fun w => !mine w) } }
    let u := if heldByCtx t a p.src.toNat (semCtxOf p) then (t.semFree a).markLines e.name (p.addr.toNat % 2097152) 16 else t
    u.sendPacket (u.ack p)))

/-- CHART_SEM_ADD (R167, R168): VALUE := VALUE + DELTA. -/
def execChartSemAdd (p : Packet) (s : State) : Out :=
  arrive s p 0x12 (fun s => filtered s p (fun s =>
    served s p 16 (fun e a =>
      ((s.semAddTo a (semVal p)).markLines e.name (p.addr.toNat % 2097152) 16).applied p (s.ack p))))

/-- CHART_SEM_RELEASE (R167, R168): the release is checked on arrival; AUX[0] says that the check failed. -/
def execChartSemRelease (p : Packet) (s : State) : Out :=
  arrive s p 0x13 (fun s => filtered s p (fun s =>
    served s p 16 (fun e a =>
      if leaseOf s a = .live ∧ heldByCtx s a p.src.toNat (semCtxOf p) then
        ((s.semFree a).markLines e.name (p.addr.toNat % 2097152) 16).applied p (s.ack p)
      else s.applied p { s.ack p with aux := 1 })))

end Sys2Proof.Machine
end

