-- ==== Sys2Proof/Machine/Tickets.lean ====
section
/-! DEFINITION. Machine/Tickets.lean: migration tickets at the home (R245, R246), at the destination (R247) and at the origin (R248,
R249). -/

namespace Sys2Proof.Machine

/-! ### Ticket lines (R230) -/

/-- TICKET_ID. -/
def tkId (p : Packet) : Nat := bits (lineOf p) 31 0
/-- DEST_MODULE. -/
def tkDst (p : Packet) : Nat := bits (lineOf p) 43 32
/-- DEST_PART. -/
def tkPart (p : Packet) : Nat := bits (lineOf p) 45 44
/-- DEST_TIER. -/
def tkTier (p : Packet) : Nat := bits (lineOf p) 47 46
/-- KIND: 1 PROMOTE, 2 EVICT. -/
def tkKind (p : Packet) : Nat := bits (lineOf p) 49 48
/-- The queued promoter of a COMMIT. -/
def tkPromoter (p : Packet) : Option Nat := if bit (lineOf p) 62 then some (bits (lineOf p) 61 50) else none

/-- A ticket line. -/
def ticketLine (id dst part tier kind : Nat) (promoter : Option Nat) : List Byte :=
  let q := match promoter with
    | some m => m * 2 ^ 50 + 2 ^ 62
    | none => 0
  padTo 64 (toLE 8 (id + dst * 2 ^ 32 + part * 2 ^ 44 + tier * 2 ^ 46 + kind * 2 ^ 48 + q))

/-- The parcel that a packet names. -/
def pktName (p : Packet) : Nat := nameOf p.addr.toNat

/-! ### The home side (R246) -/

/-- Track a request and send it. -/
def State.track (s : State) (p : Packet) (kind : ReqKind) : State :=
  let r : CReq := { pkt := p, kind := kind, first := s.time, sent := s.time }
  State.sendPacket { s with chart := { s.chart with reqs := s.chart.reqs ++ [r] } } p

/-- Stop tracking requests: they are cancelled (R240). -/
def State.dropReqs (s : State) (f : ReqKind → Bool) : State :=
  State.setAside { s with chart := { s.chart with reqs := s.chart.reqs.filter (fun r => !f r.kind) } }
    ((s.chart.reqs.filter (fun r => f r.kind)).map (fun r => r.pkt.tag.toNat))

/-- A request carries a block of this ticket's parcel. -/
def ReqKind.ofSlot (slot : Nat) : ReqKind → Bool
  | .parcel q _ => q == slot
  | _ => false

/-- A DIR message is about this outgoing slot. -/
def DirKind.ofSlot (slot : Nat) : DirKind → Bool
  | .offer q => q == slot
  | .commit q => q == slot
  | .release q => q == slot
  | _ => false

/-- Change an outgoing slot. -/
def State.modOut (s : State) (slot : Nat) (f : OutTicket → OutTicket) : State :=
  { s with chart := { s.chart with outT := s.chart.outT.map (fun t => if t.slot = slot then f t else t) } }

/-- The outgoing ticket of a TICKET_ID. -/
def State.outId (s : State) (id : Nat) : Option OutTicket := s.chart.outT.find? (fun t => t.id == id)

/-- Free an outgoing slot: its requests and messages are tracked no longer. -/
def State.freeOut (s : State) (t : OutTicket) : State :=
  let s1 := (s.dropReqs (ReqKind.ofSlot t.slot)).dropDirs (fun d => d.kind.ofSlot t.slot)
  (State.modGaz { s1 with chart := { s1.chart with outT := s1.chart.outT.filter (fun x => x.slot != t.slot) } } t.name
    (fun e => { e with ticket := none, out := false })).showGaz

/-- The partition whose storage a parcel's entry names. -/
def State.namePart (s : State) (n : Nat) : Nat :=
  match s.gazAt n with
  | some e => slotPart e.base
  | none => 0

/-- The EPOCH of a name's entry. -/
def State.nameEpoch (s : State) (n : Nat) : Nat :=
  match s.gazAt n with
  | some e => e.epoch
  | none => 0

/-- TICKET_DONE with a ring status to the initiator (R244). -/
def State.ticketDone (s : State) (t : OutTicket) (status : Nat) : State :=
  s.sendDir (s.dirMsg (s.namePart t.name) 0x3C t.initiator t.id t.name (s.nameEpoch t.name) status) .plain

/-- LANDED, naming a module, to a queued promoter. -/
def State.landed (s : State) (t : OutTicket) (home : Nat) : State :=
  match t.promoter with
  | some (m, id) => s.sendDir (s.dirMsg (s.namePart t.name) 0x3D m id t.name (s.nameEpoch t.name) home) .plain
  | none => s

/-- End the ticket with a ring status (R246). -/
def State.endTicket (s : State) (t : OutTicket) (status : Nat) : State :=
  let s1 := match t.here with
    | some b => s.releaseSlot b
    | none => s
  (((s1.ticketDone t status).landed t s.selfModule)).freeOut t

/-- The ring status of a refusal (R231, R244). -/
def ringStatus (st : Nat) : Nat := if st = 7 then 2 else if st = 9 then 3 else if st = 6 then 4 else if st = 8 then 5 else 6

/-- ABORT to a destination (R246). -/
def State.sendAbort (s : State) (part dst id name : Nat) : State :=
  s.sendDir (s.dirMsg part 0x37 dst id name (s.nameEpoch name) 0) .plain

/-- A ticket fails: ABORT, then its end (R246). -/
def State.failTicket (s : State) (t : OutTicket) : State :=
  let s1 := if t.here.isSome then s else s.sendAbort (s.namePart t.name) t.dst t.id t.name
  s1.endTicket t 6

/-- A tier of a partition backs any frame. -/
def State.tierBacked (s : State) (n : PartIx) (t : Nat) : Bool := decide (t < 3) && decide (0 < s.capacity n t)

/-- The refusal of a slot at a destination, none where one can be taken (R247): REFUSED, UNAVAILABLE or NO_ROOM. -/
def State.slotRefusal (s : State) (n : PartIx) (t : Nat) (room : Bool) : Option Nat :=
  if !s.tierBacked n t then some 9
  else if s.fenced n || !s.active n then some 3
  else if !room || s.get (hostCount n t) == 0 then some 7
  else none

/-- The EPOCH and NAME fields of a ticket's error records (R320). -/
def State.ticketRecord (s : State) (code name id other : Nat) : State :=
  s.raise { code := code, domain := s.namePart name + 1, unit := 14, addr := nameAddr name,
            d0 := if code = 0x23 then 0 else other + id * 2 ^ 32 }

/-- Send block b of a parcel to its destination (R245), or copy it where the destination is this module; none while no tag is free. -/
def State.sendBlock (s0 : State) (t : OutTicket) (b : Nat) : Option State :=
  match s0.gazAt t.name with
  | none => some s0
  | some e =>
    let a := e.at_ + 512 * b
    let s := s0.meet a 512
    let bs := s.rdBytes a 512
    let bad := s.poisonIn a 512
    match t.here with
    | some h => some (((s.wrBytes (2097152 * h + 512 * b) bs).poisonAt (2097152 * h + 512 * b) bad).wrote (2097152 * h + 512 * b) 512)
    | none =>
      let n := slotPart e.base
      (s.freshTag 16 0).map (fun (i, s1) =>
        let (k, s2) := s1.freshNonce n
        let p := carry { s2.mkPacket n 1 0x14 t.dst i k (nameAddr t.name + 512 * b) with epoch := BitVec.ofNat 16 e.epoch } bs bad
        s2.track p (.parcel t.slot b))

/-- The parcel has moved: FORWARD at EPOCH + 1, RELEASE, POINTER_UPDATE, TICKET_DONE done, LANDED (R246). -/
def State.forwardParcel (s : State) (t : OutTicket) : State :=
  let s1 := (s.dropReqs (ReqKind.ofSlot t.slot)).dropDirs (fun d => d.kind.ofSlot t.slot)
  let s2 := (s1.modOut t.slot (fun t => { t with phase := .forwarded })).modGaz t.name (fun e =>
    { e with st := .forward, module := t.dst, epoch := (e.epoch + 1) % 65536, hold := none })
  let s3 := s2.sendDir (s2.dirMsg (s2.namePart t.name) 0x35 t.dst t.id t.name (s2.nameEpoch t.name) 0) (.release t.slot)
  let s4 := match s3.gazAt t.name with
    | some e => s3.pointerUpdate e t.dst t.dst
    | none => s3
  (s4.ticketDone t 1).landed t t.dst

/-- A change of tier at the home itself ends: new storage, EPOCH + 1, the old storage to its host stack (R245). -/
def State.moveHere (s : State) (t : OutTicket) (base : Nat) : State :=
  match s.gazAt t.name with
  | none => s
  | some e =>
    let s1 := s.modGaz t.name (fun e =>
      { e with base := base, epoch := (e.epoch + 1) % 65536, hold := t.promoter.map Prod.fst, time := s.time })
    let s2 := s1.releaseSlot e.base
    let s3 := match s2.gazAt t.name with
      | some g => s2.pointerUpdate g s.selfModule s.selfModule
      | none => s2
    ((s3.ticketDone t 1).landed t s.selfModule).freeOut t

/-- The marked lines of a frozen parcel have gone again: COMMIT is sent (R245, R246). -/
def State.sendCommit (s : State) (t : OutTicket) : State :=
  let p := s.dirMsg (s.namePart t.name) 0x33 t.dst t.id t.name (s.nameEpoch t.name) 0
  s.sendDir (carry p (ticketLine t.id t.dst t.dstPart t.dstTier t.kind (t.promoter.map Prod.fst)) []) (.commit t.slot)

/-- Marked blocks of a frozen parcel go again, as many as there are tags for; behind the last one COMMIT (R240, R245). -/
def resendMarked (slot : Nat) : List Nat → State → State
  | [], s =>
    (match s.chart.outT.find? (fun t => t.slot == slot) with
    | some t => (match t.here with
      | some b => s.moveHere t b
      | none => s.sendCommit t)
    | none => s)
  | b :: r, s =>
    match s.chart.outT.find? (fun t => t.slot == slot) with
    | none => s
    | some t =>
      match s.sendBlock t b with
      | some u => resendMarked slot r (u.modOut slot (fun t => { t with marked := t.marked.filter (fun l => l / 4 != b) }))
      | none => s

/-- Every PARCEL_DATA is acknowledged: the parcel freezes, its marked lines go again, COMMIT is sent (R245, R246). -/
def State.freeze (s : State) (t : OutTicket) : State :=
  resendMarked t.slot ((t.marked.map (fun l => l / 4)).eraseDups) (s.modOut t.slot (fun t => { t with phase := .frozen }))

/-- After a block is acknowledged, or copied: the freeze, once none is left (R245). -/
def State.blockDone (s : State) (slot : Nat) : State :=
  match s.chart.outT.find? (fun t => t.slot == slot) with
  | none => s
  | some t =>
    if t.phase = .copying && t.next == 4096 && !(s.chart.reqs.any (fun r => r.kind.ofSlot slot)) then s.freeze t else s

/-- The next block of a copy leaves, or what is still marked of a frozen parcel, once a tag is free (R240, R245). -/
def State.nextBlock (s : State) (t : OutTicket) : State :=
  if t.phase = .frozen then resendMarked t.slot ((t.marked.map (fun l => l / 4)).eraseDups) s
  else match s.sendBlock t t.next with
    | none => s
    | some u =>
      let s1 := u.modOut t.slot (fun t => { t with next := t.next + 1 })
      if t.here.isSome then s1.blockDone t.slot else s1

/-- The lowest free outgoing slot. -/
def State.freeSlot (s : State) : Option Nat := (List.range 64).find? (fun i => s.chart.outT.all (fun t => t.slot != i))

/-- Grant a ticket (R245, R246): claim a slot, HOLD := 0, TICKET_OFFER; a destination that is this module takes its slot now. -/
def State.grant (s : State) (p : Packet) (slot : Nat) : State :=
  let name := pktName p
  let t : OutTicket := { slot := slot, name := name, id := tkId p, initiator := tkId p / 2 ^ 20, dst := tkDst p, dstPart := tkPart p,
                         dstTier := tkTier p, kind := tkKind p }
  let s1 := State.modGaz { s with chart := { s.chart with outT := s.chart.outT ++ [t] } } name
    (fun e => { e with hold := none, ticket := some slot, out := true })
  if t.dst ≠ s.selfModule then
    s1.sendDir (carry (s1.dirMsg (s1.namePart name) 0x31 t.dst t.id name (s1.nameEpoch name) 0)
      (ticketLine t.id t.dst t.dstPart t.dstTier t.kind none) []) (.offer slot)
  else
    let n := toPart t.dstPart
    match s1.slotRefusal n t.dstTier true, s1.popHost n t.dstTier with
    | none, some (b, s2) => (s2.modOut slot (fun t => { t with here := some b, phase := .copying })).showGaz
    | some st, _ => s1.endTicket t (ringStatus st)
    | none, none => s1.endTicket t 2

/-- A TICKET_REQ finds an idle HOME entry (R246). -/
def State.reqIdle (s : State) (p : Packet) (e : GazEntry) : State :=
  let there := tkDst p == s.selfModule && slotPlace e.base == some (tkTier p, toPart (tkPart p))
  if there then
    let t : OutTicket := { slot := 64, name := e.name, id := tkId p, initiator := tkId p / 2 ^ 20, dst := tkDst p,
                           dstPart := tkPart p, dstTier := tkTier p, kind := tkKind p }
    (s.dirAck p 0 0).ticketDone t 1
  else if e.pinned then s.dirAck p 9 0
  else if e.hold.isSome && e.hold != some p.src.toNat then s.dirAck p 2 s.movingUs
  else if s.storageOut e.base then s.dirAck p 3 100
  else match s.freeSlot with
    | none => s.dirAck p 11 10
    | some slot => (s.dirAck p 0 0).grant p slot

/-- A TICKET_REQ finds an active ticket (R246). -/
def State.reqActive (s : State) (p : Packet) (t : OutTicket) : State :=
  if tkKind p = 1 ∧ t.kind = 2 ∧ t.promoter = none then
    (s.modOut t.slot (fun t => { t with promoter := some (p.src.toNat, tkId p) })).dirAck p 12 0
  else if tkKind p = 2 ∧ t.kind = 1 then s.dirAck p 8 0
  else s.dirAck p 2 s.movingUs

/-- TICKET_REQ (R246). -/
def execTicketReq (p : Packet) (s : State) : Out :=
  arrive s p 0x30 (fun s =>
    let name := pktName p
    if !s.chartOpen then s.dirAck p 3 100
    else match s.gazAt name with
      | none => s.dirAck p (if s.isOrigin name then 5 else 4) 0
      | some e =>
        match e.st with
        | .home => (match s.outOf name with
          | some t => s.reqActive p t
          | none => s.reqIdle p e)
        | .forward => s.sendPacket { s.answer p 3 0x3F 1 with aux := BitVec.ofNat 32 e.module, epoch := BitVec.ofNat 16 e.epoch }
        | .receiving => s.sendPacket { s.answer p 3 0x3F 1 with aux := BitVec.ofNat 32 e.module, epoch := BitVec.ofNat 16 e.epoch }
        | .prepared => s.dirAck p 3 100
        | .inDoubt => s.dirAck p 3 100
        | .lost => s.dirAck p 6 0)

/-- TICKET_ANSWER (R246). -/
def execTicketAnswer (p : Packet) (s : State) : Out :=
  arrive s p 0x32 (fun s =>
    match s.outId p.nonce.toNat with
    | some t =>
      if t.phase = .forwarded then s
      else if p.status.toNat = 0 then
        (if t.phase = .offered then
          (s.dropDirs (fun d => d.kind == .offer t.slot)).modOut t.slot (fun t => { t with phase := .copying })
         else s)
      else s.endTicket t (ringStatus p.status.toNat)
    | none =>
      if p.status.toNat = 0 then s.sendAbort (s.namePart (pktName p)) p.src.toNat p.nonce.toNat (pktName p) else s)

/-- PREPARED (R246). -/
def execPrepared (p : Packet) (s : State) : Out :=
  arrive s p 0x34 (fun s =>
    match s.outId p.nonce.toNat with
    | some t => if t.phase = .frozen then s.forwardParcel t else s
    | none =>
      match s.gazAt (pktName p) with
      | some e => if e.st = .forward then s else s.sendAbort (slotPart e.base) p.src.toNat p.nonce.toNat (pktName p)
      | none => s.sendAbort 0 p.src.toNat p.nonce.toNat (pktName p))

/-- The source storage is released: to its host stack, FORWARD settled, the slot free (R246). -/
def State.settle (s : State) (t : OutTicket) : State :=
  match s.gazAt t.name with
  | none => s.freeOut t
  | some e =>
    ((s.releaseSlot e.base).freeOut t).modGaz t.name (fun e =>
      { e with st := .forward, base := 0, stored := false, pinned := false, fallbackLost := false })

/-- RELEASE_ACK (R246). -/
def execReleaseAck (p : Packet) (s : State) : Out :=
  arrive s p 0x36 (fun s =>
    match s.outId p.nonce.toNat with
    | some t => if t.phase = .forwarded then s.settle t else s
    | none => s)

/-- STATUS_QUERY (R223, R246): this entry's STATE and MODULE. -/
def execStatusQuery (p : Packet) (s : State) : Out :=
  arrive s p 0x38 (fun s =>
    if !s.chartOpen then s.sendPacket { s.answer p 3 0x39 3 with retry := 100 }
    else
    let v := match s.gazAt (pktName p) with
      | some e => gazCode e.st + 8 * e.module
      | none => 0
    s.sendPacket { s.answer p 3 0x39 0 with aux := BitVec.ofNat 32 v })

/-- A refusal of RELEASE (R246): the parcel comes back at EPOCH + 1, or is lost with its fallback. -/
def State.releaseRefused (s : State) (t : OutTicket) : State :=
  match s.gazAt t.name with
  | none => s.freeOut t
  | some e =>
    if e.fallbackLost then
      ((s.ticketRecord 0x23 t.name t.id t.dst).freeOut t).modGaz t.name (fun e => { e with st := .lost })
    else
      let s1 := (s.freeOut t).modGaz t.name (fun e => { e with st := .home, epoch := (e.epoch + 1) % 65536, module := 0 })
      let s2 := match s1.gazAt t.name with
        | some g => s1.pointerUpdate g s.selfModule s.selfModule
        | none => s1
      s2.ticketRecord 0x25 t.name t.id t.dst

/-- RELEASE is unanswered to the end: IN_DOUBT, storage kept (R246). -/
def State.sourceDoubt (s : State) (t : OutTicket) : State :=
  ((s.dropDirs (fun d => d.kind.ofSlot t.slot)).modGaz t.name (fun e => { e with st := .inDoubt, module := t.dst })).ticketRecord
    0x24 t.name t.id t.dst

/-! ### The destination side (R247) -/

/-- The incoming ticket of a TICKET_ID. -/
def State.inId (s : State) (id : Nat) : Option InTicket := s.chart.inT.find? (fun t => t.id == id)
/-- The incoming ticket of a name. -/
def State.inOf (s : State) (n : Nat) : Option InTicket := s.chart.inT.find? (fun t => t.name == n)
/-- A message of an incoming ticket has come. -/
def State.heard (s : State) (id : Nat) : State :=
  { s with chart := { s.chart with inT := s.chart.inT.map (fun t => if t.id = id then { t with last := s.time } else t) } }
/-- Free an incoming slot. -/
def State.freeIn (s : State) (t : InTicket) : State :=
  (State.dropDirs { s with chart := { s.chart with inT := s.chart.inT.filter (fun x => x.slot != t.slot) } }
    (fun d => d.kind == .query t.slot)).showGaz

/-- Restore (R247): the slot back to its stack, an origin pointer back to FORWARD, any other entry free. -/
def State.restore (s : State) (t : InTicket) : State :=
  match s.gazAt t.name with
  | none => s.freeIn t
  | some e =>
    let s1 := (s.releaseSlot e.base).freeIn t
    if e.origin then
      s1.modGaz t.name (fun e =>
        { e with st := .forward, module := t.src, base := 0, stored := false, epoch := t.old, hold := none, ticket := none })
    else s1.freeGaz t.name

/-- A state in which the destination holds nothing of a parcel (R247): no entry, an origin pointer, or a settled FORWARD. -/
def absent (e : Option GazEntry) : Bool :=
  match e with
  | none => true
  | some g => decide (g.st = .forward) && g.ticket.isNone

/-- Answer an offer. -/
def State.ticketAnswer (s : State) (p : Packet) (st : Nat) : State := s.sendPacket (s.answer p 3 0x32 st)

/-- Take an offered parcel: RECEIVING (R247). -/
def State.receive (s : State) (p : Packet) (b : Nat) (slot : Nat) : State :=
  let name := pktName p
  let t : InTicket := { slot := slot, name := name, id := tkId p, src := p.src.toNat, last := s.time, old := s.nameEpoch name }
  let s1 := { s with chart := { s.chart with inT := s.chart.inT ++ [t] } }
  let s2 := if (s1.gazAt name).isSome then
      s1.modGaz name (fun e =>
        { e with st := .receiving, pinned := false, module := p.src.toNat, base := b, stored := true, ticket := some slot, out := false })
    else (s1.addGaz { name := name, st := .receiving, origin := s.isOrigin name, module := p.src.toNat, base := b, stored := true,
                      ticket := some slot, time := s.time }).getD s1
  s2.showGaz.ticketAnswer p 0

/-- TICKET_OFFER (R247). -/
def execTicketOffer (p : Packet) (s : State) : Out :=
  arrive s p 0x31 (fun s =>
    let name := pktName p
    if !s.chartOpen then s.ticketAnswer p 3
    else match s.inId (tkId p) with
      | some _ =>
        (match s.gazAt name with
        | some e => if e.st = .receiving then (s.heard (tkId p)).ticketAnswer p 0 else s
        | none => s)
      | none =>
        if !absent (s.gazAt name) then s
        else
          let n := toPart (tkPart p)
          let way := (s.gazAt name).isSome || s.hasWay name
          let slot := (List.range 64).find? (fun i => s.chart.inT.all (fun t => t.slot != i))
          match s.slotRefusal n (tkTier p) (way && slot.isSome), slot, s.popHost n (tkTier p) with
          | none, some i, some (b, t) => t.receive p b i
          | some st, _, _ => (if way then s else s.flag GAZ.STATUS.FULL_SEEN 1).ticketAnswer p st
          | _, _, _ => s.ticketAnswer p 7)

/-- PARCEL_DATA (R247): the slot is written. -/
def execParcelData (p : Packet) (s : State) : Out :=
  arrive s p 0x14 (fun s => filtered s p (fun s =>
    if !s.chartOpen then s.refuse p 3 100 0 0
    else match s.inOf (pktName p), s.gazAt (pktName p) with
      | some t, some e =>
        if t.src = p.src.toNat then
          (if s.storageOut e.base then s.refuse p 3 100 0 0
           else
            let a := e.at_ + p.addr.toNat % 2097152
            let u := (((s.wrBytes a p.payload).poisonAt a (badWordsOf p)).wrote a p.payload.length).heard t.id
            u.applied p (u.ack p))
        else s.refuse p 8 0 0 0
      | _, _ => s.refuse p 8 0 0 0))

/-- COMMIT (R247). -/
def execCommit (p : Packet) (s : State) : Out :=
  arrive s p 0x33 (fun s =>
    if !s.chartOpen then s.nack p 3 100
    else match s.inId p.nonce.toNat, s.gazAt (pktName p) with
      | some t, some e =>
        if e.st = .receiving then
          let s1 := (s.modGaz e.name (fun e =>
            { e with st := .prepared, epoch := (p.epoch.toNat + 1) % 65536, hold := tkPromoter p })).heard t.id
          s1.sendPacket (s1.answer p 3 0x34 0)
        else if e.st = .prepared then s.sendPacket (s.answer p 3 0x34 0)
        else s
      | _, _ =>
        if s.chart.doneIn.contains p.nonce.toNat then s.sendPacket (s.answer p 3 0x34 0)
        else if absent (s.gazAt (pktName p)) then s.nack p 8 0
        else s)

/-- The parcel is home here: RELEASE_ACK, the ticket completed (R247). -/
def State.becomeHome (s : State) (t : InTicket) (p : Packet) : State :=
  let s1 := (s.freeIn t).modGaz t.name (fun e => { e with st := .home, module := 0, ticket := none })
  let s2 := { s1 with chart := { s1.chart with doneIn := (t.id :: s1.chart.doneIn).take 64 } }
  s2.sendPacket (s2.answer p 3 0x36 0)

/-- CHART_RELEASE (R247). -/
def execChartRelease (p : Packet) (s : State) : Out :=
  arrive s p 0x35 (fun s =>
    if !s.chartOpen then s.nack p 3 100
    else match s.inId p.nonce.toNat, s.gazAt (pktName p) with
      | some t, some e => if e.st = .prepared ∨ e.st = .inDoubt then s.becomeHome t p else s
      | _, g =>
        if s.chart.doneIn.contains p.nonce.toNat then s.sendPacket (s.answer p 3 0x36 0)
        else if absent g then s.nack p 6 0
        else s)

/-- ABORT (R223, R247). -/
def execAbort (p : Packet) (s : State) : Out :=
  arrive s p 0x37 (fun s =>
    if !s.chartOpen then s.dirAck p 3 100
    else match s.inId p.nonce.toNat, s.gazAt (pktName p) with
    | some t, some e => if e.st = .receiving ∨ e.st = .prepared then (s.restore t).dirAck p 0 0 else s.dirAck p 0 0
    | _, _ => s.dirAck p 0 0)

/-- STATUS_ANSWER (R231, R247): UNAVAILABLE has the question asked again. -/
def execStatusAnswer (p : Packet) (s : State) : Out :=
  arrive s p 0x39 (fun s =>
    let mine := bits p.aux.toNat 2 0 == 2 && bits p.aux.toNat 14 3 == s.selfModule
    if p.status ≠ 0 then
      (match s.dirFor p with
      | some d => s.modDir d (fun x => { x with again := some (s.time + 800 * p.retry.toNat) })
      | none => s)
    else match s.inId p.nonce.toNat, s.gazAt (pktName p) with
    | some t, some e =>
      if e.st = .prepared then (if mine then s.becomeHome t p else s.restore t)
      else if e.st = .inDoubt ∧ mine then s.becomeHome t p
      else s
    | _, _ => s)

/-- RECEIVING_TIMEOUT (R247): no message of the ticket for DIR_US × (DIR_RETRIES + 1). -/
def execReceivingTimeout (name : BitVec 43) (s : State) : Out :=
  match s.inOf name.toNat, s.gazAt name.toNat with
  | some t, some e =>
    let limit := 800 * clamp 10 65535 (s.inForce CHT.DIR.DIR_US) * (clamp 1 255 (s.inForce CHT.TIMERS2.DIR_RETRIES) + 1)
    act s (s.live && decide (e.st = .receiving) && decide (t.last + limit ≤ s.time)) (s.restore t)
  | _, _ => .next s

/-- PREPARED_TIMEOUT (R247): no RELEASE for DIR_US; the source is asked. -/
def execPreparedTimeout (name : BitVec 43) (s : State) : Out :=
  match s.inOf name.toNat, s.gazAt name.toNat with
  | some t, some e =>
    act s (s.live && decide (e.st = .prepared) && decide (e.time + 800 * clamp 10 65535 (s.inForce CHT.DIR.DIR_US) ≤ s.time)
        && s.chart.dirs.all (fun d => d.kind != .query t.slot))
      (s.sendDir (s.dirMsg (slotPart e.base) 0x38 t.src t.id t.name e.epoch 0) (.query t.slot))
  | _, _ => .next s

/-- Queries are unanswered to the end: IN_DOUBT (R247). -/
def State.destDoubt (s : State) (t : InTicket) : State :=
  ((s.dropDirs (fun d => d.kind == .query t.slot)).modGaz t.name (fun e => { e with st := .inDoubt, module := t.src })).ticketRecord
    0x24 t.name t.id t.src

/-! ### RESOLVE_KEEP and RESOLVE_GONE (R246, R247) -/

/-- RESOLVE_KEEP: the parcel is home here; at the source EPOCH + 2. -/
def State.gazKeep (s : State) (name : Nat) : State :=
  match s.gazAt name with
  | none => s.gazEnd 2
  | some e =>
    if e.st ≠ .inDoubt then s.gazEnd 4
    else
      let s1 := match s.outOf name, s.inOf name with
        | some t, _ => (s.freeOut t).modGaz name (fun e => { e with st := .home, epoch := (e.epoch + 2) % 65536, module := 0 })
        | none, some t => (s.freeIn t).modGaz name (fun e => { e with st := .home, module := 0, ticket := none })
        | none, none => s.modGaz name (fun e => { e with st := .home, module := 0 })
      let s2 := match s1.gazAt name with
        | some g => s1.pointerUpdate g s.selfModule s.selfModule
        | none => s1
      s2.gazEnd 0

/-- RESOLVE_KEEP. -/
def execResolveKeep (name : BitVec 43) (s : State) : Out := gazOp s 6 name.toNat (fun t => t.gazKeep name.toNat)

/-- RESOLVE_GONE: the source releases its storage and forwards; the destination restores. -/
def State.gazGone (s : State) (name : Nat) : State :=
  match s.gazAt name with
  | none => s.gazEnd 2
  | some e =>
    if e.st ≠ .inDoubt then s.gazEnd 4
    else match s.outOf name, s.inOf name with
      | some t, _ => (s.settle t).gazEnd 0
      | none, some t => (s.restore t).gazEnd 0
      | none, none => s.gazEnd 4

/-- RESOLVE_GONE. -/
def execResolveGone (name : BitVec 43) (s : State) : Out := gazOp s 7 name.toNat (fun t => t.gazGone name.toNat)

/-! ### The origin (R248, R249) -/

/-- POINTER_UPDATE (R248): applied at the origin pointer where its EPOCH is newer. -/
def execPointerUpdate (p : Packet) (s : State) : Out :=
  arrive s p 0x3A (fun s =>
    if !s.chartOpen then s.dirAck p 3 100
    else match s.gazAt (pktName p) with
      | some e =>
        if e.st = .forward ∧ e.origin ∧ newer p.epoch.toNat e.epoch then
          (s.modGaz e.name (fun e => { e with module := bits p.aux.toNat 11 0, epoch := p.epoch.toNat })).dirAck p 0 0
        else s.dirAck p 0 0
      | none => s.dirAck p 0 0)

/-- FREED (R248): the origin pointer goes unless the message's EPOCH is older. -/
def execFreed (p : Packet) (s : State) : Out :=
  arrive s p 0x3B (fun s =>
    if !s.chartOpen then s.dirAck p 3 100
    else match s.gazAt (pktName p) with
      | some e =>
        if e.st = .forward ∧ e.origin ∧ !newer e.epoch p.epoch.toNat then (s.freeGaz e.name).dirAck p 0 0 else s.dirAck p 0 0
      | none => s.dirAck p 0 0)

/-! ### The initiator (R244) -/

/-- The size of the ticket ring. -/
def State.tringSize (s : State) : Nat := 2 ^ s.inForce GAZ.TRING_CTL.LOG2
/-- The local offset of a ticket ring entry. -/
def State.tringAt (s : State) (i : Nat) : Nat := s.inForce GAZ.TRING_BASE.BASE * 32 + 32 * (i % s.tringSize)

/-- HEAD moves past final entries in order (R244). -/
def ringHead : List RingEnt → State → State
  | [], s => { s with chart := { s.chart with ring := [] } }
  | e :: r, s =>
    if e.final then
      ringHead r ((State.bump { s with chart := { s.chart with taken := s.chart.taken - 1 } } GAZ.TRING_HEAD.INDEX 1))
    else { s with chart := { s.chart with ring := e :: r } }

/-- Change a ring entry in flight. -/
def State.modRing (s : State) (index : Nat) (f : RingEnt → RingEnt) : State :=
  { s with chart := { s.chart with ring := s.chart.ring.map (fun e => if e.index = index then f e else e) } }

/-- A ring entry is final: STATUS, EPOCH and DONE_TIME are written (R244). -/
def State.ringFinal (s : State) (index status epoch : Nat) : State :=
  let a := s.tringAt index
  let s1 := (s.wrLE (a + 0x0C) 4 (status + 65536 * epoch)).wrLE (a + 0x10) 8 s.time
  let s2 := s1.modRing index (fun e => { e with final := true })
  ringHead s2.chart.ring s2

/-- Send a ring entry's TICKET_REQ to a module. -/
def State.askTicket (s : State) (index id dst : Nat) : State :=
  let a := s.tringAt index
  let w := s.rdLE (a + 8) 4
  let name := nameOf (s.rdLE a 8)
  s.sendDir (carry (s.dirMsg (offPart a).val 0x30 dst id name 0 0)
    (ticketLine id (bits w 11 0) (bits w 13 12) (bits w 15 14) (bits w 17 16) none) []) (.ring index)

/-- TICKET_RING_ENTRY (R244): the agent takes the next entry; a bad one is refused. -/
def execTicketRingEntry (s : State) : Out :=
  let index := (s.get GAZ.TRING_HEAD.INDEX + s.chart.taken) % 65536
  let none_ := decide (index % s.tringSize = s.get GAZ.TRING_TAIL.INDEX % s.tringSize)
  if s.live && s.chartOpen && !none_ && decide ((s.chart.ring.filter (fun e => !e.final)).length < 16)
      && decide (s.chart.taken < s.tringSize) then
    let a := s.tringAt index
    let w := s.rdLE (a + 8) 4
    let id := s.selfModule * 2 ^ 20 + s.chart.ticketNo % 2 ^ 20
    let s1 : State := { s with chart := { s.chart with
      ring := s.chart.ring ++ [{ index := index, id := id }], taken := s.chart.taken + 1, ticketNo := s.chart.ticketNo + 1 } }
    let kind := bits w 17 16
    if bits w 15 14 = 3 ∨ (kind ≠ 1 ∧ kind ≠ 2) ∨ s.rdLE a 8 % 2097152 ≠ 0 then .next (s1.ringFinal index 3 0)
    else
      let (dst, s2) := s1.target (nameOf (s.rdLE a 8))
      .next (s2.askTicket index id dst)
  else .next s

/-- TICKET_DONE (R223, R244): the ring entry is final. -/
def execTicketDone (p : Packet) (s : State) : Out :=
  arrive s p 0x3C (fun s =>
    if !s.chartOpen then s.dirAck p 3 100
    else match s.chart.ring.find? (fun e => e.id == p.nonce.toNat && !e.final) with
    | some e =>
      ((s.dropDirs (fun d => d.kind == .ring e.index)).ringFinal e.index (bits p.aux.toNat 3 0) p.epoch.toNat).dirAck p 0 0
    | none => s.dirAck p 0 0)

/-- LANDED (R223, R244): an entry that waits is sent to the home that LANDED names. -/
def execLanded (p : Packet) (s : State) : Out :=
  arrive s p 0x3D (fun s =>
    if !s.chartOpen then s.dirAck p 3 100
    else match s.chart.ring.find? (fun e => e.id == p.nonce.toNat && e.wait && !e.final) with
    | some e =>
      ((s.modRing e.index (fun x => { x with wait := false })).askTicket e.index e.id (bits p.aux.toNat 11 0)).dirAck p 0 0
    | none => s.dirAck p 0 0)

end Sys2Proof.Machine
end

