-- ==== Sys2Proof/Machine/Collective.lean ====
section
/-! DEFINITION. Machine/Collective.lean: collectives (R254 to R256). -/

namespace Sys2Proof.Machine

/-! ### Running collectives -/

/-- Bytes of half a chunk. -/
def CollRun.half (r : CollRun) : Nat := r.chunk / 2
/-- Pieces of half a chunk (R255). -/
def CollRun.pieces (r : CollRun) : Nat := ceilDiv r.half 512
/-- Steps of a collective. -/
def CollRun.steps (r : CollRun) : Nat := r.members - 1

/-- The chunk that a member sends in step s on a ring, 0 forward and 1 reverse (R255). -/
def CollRun.sends (r : CollRun) (ring s : Nat) : Nat :=
  let n := r.members
  let k := if r.op = 1 then s + 1 else s
  if ring = 0 then (r.rank + n - k % n) % n else (r.rank + k) % n

/-- The chunk that a member receives in step s on a ring: what its neighbour sends. -/
def CollRun.receives (r : CollRun) (ring s : Nat) : Nat :=
  let n := r.members
  let k := if r.op = 1 then s + 2 else s + 1
  if ring = 0 then (r.rank + n - k % n) % n else (r.rank + k) % n

/-- The object address of a piece of a chunk's half. -/
def CollRun.addr (r : CollRun) (chunk ring off : Nat) : Nat := r.buffer + r.chunk * chunk + (if ring = 0 then 0 else r.half) + off

/-- Bytes of the piece at an offset. -/
def CollRun.len (r : CollRun) (off : Nat) : Nat := min 512 (r.half - off)

/-- The collective of a core. -/
def State.collOf (s : State) (c : Nat) : Option CollRun := s.chart.runs.find? (fun r => r.core == c)
/-- The running collective of a COLL_ID. -/
def State.collId (s : State) (id : Nat) : Option CollRun := s.chart.runs.find? (fun r => r.id == id)
/-- The record of a COLL_ID (R256). -/
def State.collRec (s : State) (id : Nat) : Option CollRec := s.chart.recs.find? (fun r => r.id == id)
/-- Change the collective of a core. -/
def State.modColl (s : State) (c : Nat) (f : CollRun → CollRun) : State :=
  { s with chart := { s.chart with runs := s.chart.runs.map (fun r => if r.core = c then f r else r) } }

/-- The piece a ring sends next may go: it is of step 0, or what it carries has arrived (R255). -/
def CollRun.ready (r : CollRun) (ring : Nat) : Bool :=
  let (st, off) := r.sent.getD ring (0, 0)
  decide (st < r.steps) && decide (off < r.half) && (st == 0 || r.got.contains (st - 1, ring, off))

/-- The member has finished every step (R256). -/
def CollRun.finished (r : CollRun) : Bool :=
  [0, 1].all (fun ring => decide (r.steps ≤ (r.sent.getD ring (0, 0)).1)) && r.unacked == 0
  && r.got.length == 2 * r.steps * r.pieces

/-- A WRITE credit of a partition comes back (R242). -/
def State.creditBack (s : State) (n : Nat) : State :=
  let f := CHT.CREDITS_n.WRITE_FREE n
  s.put f (min 4096 (s.get f + 1))

/-- A REQ credit of a partition comes back (R242). -/
def State.reqBack (s : State) (n : Nat) : State :=
  let f := CHT.CREDITS_n.REQ_FREE n
  s.put f (min 2048 (s.get f + 1))

/-- Send the next piece of a ring (R255), once a tag is free. -/
def State.sendPiece (s : State) (r : CollRun) (ring : Nat) : State :=
  let c := toCore r.core
  let n := (partOf c).val
  let (st, off) := r.sent.getD ring (0, 0)
  let at_ := r.addr (r.sends ring st) ring off
  let (bs, bad) := objRead s c r.ctx at_ (r.len off)
  match (s.meetObj c r.ctx at_ (r.len off)).freshTag 17 0 with
  | none => s
  | some (i, s1) =>
    let (k, s2) := s1.freshNonce n
    let a := r.id + r.attempt * 2 ^ 32 + st * 2 ^ 48 + ring * 2 ^ 61
    let p := carry { s2.mkPacket n 1 0x15 (if ring = 0 then r.next else r.prev) i k a with aux := BitVec.ofNat 32 off } bs bad
    let step := fun (x : CollRun) =>
      { x with unacked := x.unacked + 1
               sent := x.sent.set ring (if off + 512 < r.half then (st, off + 512) else (st + 1, 0)) }
    ((s2.modColl r.core step).drop (CHT.CREDITS_n.WRITE_FREE n) 1).track p (.coll r.core st ring off)

/-- COLL_CTL to a module: 0 ABORT, 1 DONE, 2 FINAL (R230). -/
def State.collCtl (s : State) (n kind id attempt dst : Nat) : State :=
  let (k, t) := s.freshNonce n
  t.sendDir { t.mkPacket n 3 0x3E dst 0 k id with aux := BitVec.ofNat 32 (kind + 65536 * attempt) } .plain

/-- A collective completes once FINAL has reached its member and every piece has landed (R256 rule 6). -/
def State.collEnd (s : State) (r : CollRun) : State :=
  if r.fin && r.got.length == 2 * r.steps * r.pieces then
    let c := toCore r.core
    let s1 := (State.showColl { s with chart := { s.chart with runs := s.chart.runs.filter (fun x => x.core != r.core) } }).bump
      COL.COMPLETED.COUNT 1
    (s1.modCore c (fun k => { k with coll := none })).completeWork c r.work
  else s

/-- What a member does once it has finished every step: rank 0 begins DONE, another forwards it (R256 rule 5). -/
def State.collDone (s : State) (core : Nat) : State :=
  match s.collOf core with
  | none => s
  | some r =>
    if r.finished && !r.passed && (r.rank == 0 || r.done_) then
      (s.modColl core (fun x => { x with passed := true })).collCtl (partOf (toCore core)).val 1 r.id r.attempt r.next
    else s

/-- FINAL passes a member: recorded, forwarded once, and its collective may complete; ABORTs not yet sent go no more (R256 rule 5). -/
def State.collFinal (s0 : State) (id attempt n : Nat) (next : Option Nat) : State :=
  let s := { s0 with chart := { s0.chart with aborts := s0.chart.aborts.filter (fun a => a.1 != id) } }
  let old := s.collRec id
  let s1 := s.putRec { id := id, attempt := attempt, fin := true, next := next, prev := (old.bind (fun r => r.prev)) }
  let s2 := match next with
    | some m => s1.collCtl n 2 id attempt m
    | none => s1
  match s2.collId id with
  | some r => (s2.modColl r.core (fun x => { x with fin := true })).collEnd { r with fin := true }
  | none => s2

/-! ### Restart (R256 rule 3) -/

/-- The wet pages of a collective's BUFFER return to the pool. -/
def State.dropBuffer (s : State) (r : CollRun) : State :=
  let c := toCore r.core
  match s.seg c with
  | none => s
  | some g =>
    let pages := pageCount r.buffer (r.members * r.chunk)
    let mine := fun (w : WetPage) => (List.range pages).any (fun i => match pageLoc s c r.ctx (r.buffer / 65536 + i) true with
      | some (.local_ base _) => base == w.dry
      | _ => false)
    let out := g.wet.filter mine
    let s1 := out.foldl (fun t w => t.pushPool (partOf c) w.tier (w.wet / 65536)) s
    (s1.modSeg c (fun h => { h with wet := h.wet.filter (fun w => !mine w) })).put (SEQ.INK.WET_PAGES c) (g.wet.length - out.length)

/-- A request carries a piece of this core's collective. -/
def ReqKind.ofColl (core : Nat) : ReqKind → Bool
  | .coll d _ _ _ => d == core
  | _ => false

/-- A member abandons its attempt and restarts at a newer one (R256 rule 3). -/
def State.collRestart (s : State) (r : CollRun) (attempt : Nat) : State :=
  let n := (partOf (toCore r.core)).val
  let k := (s.chart.reqs.filter (fun q => q.kind.ofColl r.core)).length
  let f := CHT.CREDITS_n.WRITE_FREE n
  let s1 := ((s.dropBuffer r).dropReqs (ReqKind.ofColl r.core)).put f (min 4096 (s.get f + k))
  let s2 := s1.modColl r.core (fun x =>
    { x with attempt := attempt, sent := [(0, 0), (0, 0)], got := [], unacked := 0, done_ := false, passed := false })
  (s2.putRec { id := r.id, attempt := attempt, next := some r.next, prev := some r.prev }).bump COL.STATUS.ABORTS 1

/-! ### COLLECTIVE (R254) -/

/-- A word of a segment's wet page is poisoned. -/
def State.poisonWet (s : State) (c : CoreIx) (ctx a : Nat) : State :=
  match pageLoc s c ctx (a / 65536) true with
  | some (.local_ base _) =>
    (match wetOf s c base with
    | some w => s.poison (w.wet + a % 65536)
    | none => s)
  | _ => s

/-- A page of BUFFER is T3 (R254). -/
def bufferFar (s : State) (c : CoreIx) (ctx addr len : Nat) : Bool :=
  (List.range (pageCount addr len)).any (fun i => match pageLoc s c ctx (addr / 65536 + i) true with
    | some (.local_ _ _) => false
    | _ => true)

/-- Start a collective, or end one whose record shows FINAL passed (R256 rules 1 and 7). -/
def State.collStart (s : State) (c : CoreIx) (g : Seg) (b d : List Byte) (next prev : Nat) : State :=
  let id := fieldAt d 4 4
  let len := bits (fieldAt d 8 4) 24 12 * fieldAt d 0x20 4
  let buf := fieldAt d 0x18 8
  match s.collRec id with
  | some { fin := true, .. } =>
    (claimRanges c g.ctx [(buf, len)] s).run c (fun t =>
      let t1 := t.objStoreBad c g.ctx buf (List.replicate len 0) ((List.range (len / 4)).map (fun i => 4 * i))
      let t2 := t1.raise { t1.cmdRecord c g.ctx 0x26 buf id with unit := 12, core := 0 }
      ((t2.bump COL.COMPLETED.COUNT 1).bump COL.COMPLETED.POISONED 1).issueCmd c ((t2.seg c).getD g) b true)
  | old =>
    let attempt := match old with
      | some r => r.attempt
      | none => 0
    let r : CollRun := { core := c.val, work := g.nextId, ctx := g.ctx, op := bits (fieldAt d 0 4) 1 0, id := id,
                         rank := bits (fieldAt d 8 4) 11 0, members := bits (fieldAt d 8 4) 24 12, next := next, prev := prev,
                         buffer := buf, chunk := fieldAt d 0x20 4, attempt := attempt }
    let s1 := (s.issueCmd c g b false).modCore c (fun k => { k with coll := some ⟨g.nextId, id⟩ })
    let s2 := State.showColl { s1 with chart := { s1.chart with runs := s1.chart.runs ++ [r] } }
    (s2.putRec { id := id, attempt := attempt, next := some next, prev := some prev }).collDone c.val

/-- COLLECTIVE (R155, R254, R256): its descriptor and member table are read and checked, and the collective engine starts. -/
def execCollective (c : CoreIx) (s : State) : Out := s.meanwhile c fun s =>
  match ready s c 0x22 with
  | none => .next s
  | some (g, b) =>
    let a := fieldAt b 8 8
    let read := fun (s : State) (breach : Option (Nat × Nat)) (addr len : Nat) (go : State → List Byte → State) =>
      checked s c g.ctx breach [(addr, len, false)] [] (fun t =>
        withRemote t c ((t.seg c).getD g) [(addr, len)] (fun u =>
          checked u c g.ctx none [] [(addr, len)] (fun v => go v (objRead v c g.ctx addr len).1)))
    if (s.core c).coll.isSome then .next s
    else .next (read s (firstBreach [(plainOk b 0x10, 0, 1)]) a 64 (fun s d =>
      let w := fieldAt d 8 4
      let rank := bits w 11 0
      let n := bits w 24 12
      let clean := zeroBits (fieldAt d 0 4) 31 2 && zeroBits w 31 25 && zeroBytes d 0x24 0x40
      read s (firstBreach [(clean, a, 1), (bits (fieldAt d 0 4) 1 0 != 0 && bits (fieldAt d 0 4) 1 0 != 3, a, 7),
          (fieldAt d 4 4 != 0, a, 7), (decide (rank < n), a, 7)]) (fieldAt d 0x10 8) (2 * n) (fun s tab =>
        let member := fun (i : Nat) => bits (fieldAt tab (2 * (i % n)) 2) 11 0
        let buf := fieldAt d 0x18 8
        let len := n * fieldAt d 0x20 4
        checked s c g.ctx (firstBreach [(member rank == s.selfModule, a, 7)]) [(buf, len, true)] [] (fun s =>
          if bufferFar s c g.ctx buf len then s.descFault c buf 7
          else s.collStart c ((s.seg c).getD g) b d (member (rank + 1)) (member (rank + n - 1))))))

/-! ### COLL_DATA (R255, R256) -/

/-- A piece lands in the receiver's wet pages: added, or written (R255). -/
def State.landPiece (s : State) (r : CollRun) (p : Packet) (st ring off : Nat) : State :=
  let c := toCore r.core
  let a := r.addr (r.receives ring st) ring off
  let len := p.payload.length
  (claimRanges c r.ctx [(a, len)] s).run c (fun t =>
    let t1 := if r.op = 1 then
        (List.range (len / 4)).foldl (fun u i => u.objAdd c r.ctx (a + 4 * i) (fieldAt p.payload (4 * i) 4)) t
      else t.objStore c r.ctx a p.payload
    let t2 := (badWordsOf p).foldl (fun u o => u.poisonWet c r.ctx (a + o)) t1
    let t3 := t2.modColl r.core (fun x => { x with got := x.got ++ [(st, ring, off)] })
    let t4 := (t3.applied p (t3.ack p)).collDone r.core
    match t4.collOf r.core with
    | some x => t4.collEnd x
    | none => t4)

/-- A piece of the running attempt: landed once. -/
def State.takePiece (s : State) (r : CollRun) (p : Packet) : State :=
  let a := p.addr.toNat
  let st := bits a 60 48
  let ring := bits a 61 61
  let off := p.aux.toNat
  if r.got.contains (st, ring, off) then s.sendPacket (s.ack p)
  else s.landPiece r p st ring off

/-- COLL_DATA (R255, R256). -/
def execCollData (p : Packet) (s : State) : Out :=
  arrive s p 0x15 (fun s => filtered s p (fun s =>
    let id := bits p.addr.toNat 31 0
    let att := bits p.addr.toNat 47 32
    if !s.chartOpen then s.refuse p 3 100 0 0
    else match s.collId id with
      | none =>
        (match s.collRec id with
        | some k => if newer k.attempt att then s.refuse p 8 0 0 0 else s.refuse p 10 10 0 0
        | none => s.refuse p 10 10 0 0)
      | some r =>
        if att = r.attempt then s.takePiece r p
        else if newer att r.attempt then
          (let t := s.collRestart r att
           match t.collId id with
           | some x => t.takePiece x p
           | none => t)
        else s.refuse p 8 0 0 0))

/-! ### COLL_CTL (R256) -/

/-- A COLL_CTL of one kind arrives: COLL_ID and attempt (R223, R230). -/
def ctlArrive (kind : Nat) (p : Packet) (s : State) (go : State → Nat → Nat → State) : Out :=
  if bits p.aux.toNat 1 0 = kind then
    arrive s p 0x3E (fun s =>
      if !s.chartOpen then s.dirAck p 3 100 else go s (bits p.addr.toNat 31 0) (bits p.aux.toNat 31 16))
  else .next s

/-- Where an ABORT goes on: in the direction it travelled. -/
def onward (p : Packet) (next prev : Option Nat) : Option Nat := if prev = some p.src.toNat then next else prev

/-- COLL_CTL_ABORT (R256 rules 3 and 4). -/
def execCollCtlAbort (p : Packet) (s : State) : Out :=
  ctlArrive 0 p s (fun s id att =>
    let n := p.part.val
    let pass := fun (t : State) (m : Option Nat) => match m with
      | some d => t.collCtl n 0 id att d
      | none => t
    match s.collId id, s.collRec id with
    | some r, _ =>
      if newer att r.attempt && !r.fin then (pass (s.collRestart r att) (onward p (some r.next) (some r.prev))).dirAck p 0 0
      else s.dirAck p 0 0
    | none, some k =>
      if newer att k.attempt && !k.fin then (pass (s.putRec { k with attempt := att }) (onward p k.next k.prev)).dirAck p 0 0
      else s.dirAck p 0 0
    | none, none => (s.putRec { id := id, attempt := att }).dirAck p 0 0)

/-- COLL_CTL_DONE (R256 rule 5). -/
def execCollCtlDone (p : Packet) (s : State) : Out :=
  ctlArrive 1 p s (fun s id att =>
    match s.collId id with
    | none => s.dirAck p 10 10
    | some r =>
      if att ≠ r.attempt then (if newer att r.attempt then s.dirAck p 10 10 else s.dirAck p 8 0)
      else if r.rank = 0 then
        (if r.passed then (s.dirAck p 0 0).collFinal id att p.part.val (some r.next) else s.dirAck p 10 10)
      else ((s.modColl r.core (fun x => { x with done_ := true })).dirAck p 0 0).collDone r.core)

/-- COLL_CTL_FINAL (R256 rule 5): recorded and forwarded at each member once. -/
def execCollCtlFinal (p : Packet) (s : State) : Out :=
  ctlArrive 2 p s (fun s id att =>
    match s.collRec id with
    | some k => if k.fin then s.dirAck p 0 0 else (s.dirAck p 0 0).collFinal id att p.part.val k.next
    | none => (s.dirAck p 0 0).collFinal id att p.part.val none)

end Sys2Proof.Machine
end

