-- ==== Sys2Proof/Machine/Requests.lean ====
section
/-! DEFINITION. Machine/Requests.lean: Chart requests of this module: sending (R228, R232, R242), the outbound queue (R165, R236, R238),
responses (R231, R240), timers and failures (R237, R238). -/

namespace Sys2Proof.Machine

/-! ### Sending (R228, R242) -/

/-- A request that a unit of this module has ready to send. -/
inductive Ready where
  | piece (c : CoreIx) (p : Piece)
  | cancel (core ctx addr : Nat)
  | block (slot : Nat)
  | coll (core ring : Nat)
  | abort (id attempt dst n : Nat)
deriving DecidableEq, Repr

/-- The requests ready to be sent: remote reads and semaphore round trips of the cores, cancels, blocks of parcels being copied,
pieces of collectives, and ABORTs of killed ones. -/
def readyList (s : State) : List Ready :=
  allCores.flatMap (fun c => match s.seg c with
    | some g => (g.remote.filter (fun p => !p.sent && p.space != 2)).map (fun p => Ready.piece c p)
    | none => [])
  ++ s.cancels.map (fun k => Ready.cancel k.1 k.2.1 k.2.2)
  ++ (s.chart.outT.filter (fun t => (decide (t.phase = .copying) && decide (t.next < 4096))
      || (decide (t.phase = .frozen) && !t.marked.isEmpty))).map (fun t => Ready.block t.slot)
  ++ s.chart.runs.flatMap (fun r => ([0, 1].filter (fun k => r.ready k)).map (fun k => Ready.coll r.core k))
  ++ s.chart.aborts.map (fun a => Ready.abort a.1 a.2.1 a.2.2.1 a.2.2.2)

/-- The payload line of a semaphore message (R230). -/
def semLine (value cond ctx : Nat) : List Byte := padTo 64 (toLE 8 (value % 2 ^ 32 + cond % 4 * 2 ^ 32 + ctx % 16384 * 2 ^ 34))

/-- The tag of a core's next request (R171, R229): the core, the low 16 bits of its SEQ.GEN, a free index. -/
def State.coreTag (s : State) (core : Nat) : Option (Nat × State) := s.freshTag core (s.get (SEQ.GEN.GEN core))

/-- Send a remote read or a semaphore round trip of a segment, with a REQ credit and a tag (R168, R171, R240, R242). -/
def State.sendRead (s : State) (c : CoreIx) (p : Piece) : State :=
  let n := (partOf c).val
  let f := CHT.CREDITS_n.REQ_FREE n
  match (if s.get f = 0 then none else s.coreTag c.val) with
  | none => s
  | some (i, s0) =>
    let s1 := (s0.put f (s.get f - 1)).modSeg c (fun g =>
      { g with remote := g.remote.map (fun q => if q.tag = p.tag then { q with sent := true, tag := i } else q) })
    let (k, s2) := s1.freshNonce n
    let (dst, s3) := s2.target (nameOf p.addr)
    if p.space = 1 then
      s3.track { s3.mkPacket n 0 0x01 dst i k p.addr with aux := BitVec.ofNat 32 (p.len - 1) } (.read c.val)
    else match s.seg c with
      | none => s
      | some g =>
        match g.semWait.find? (fun w => w.work == p.work) with
        | none => s
        | some w =>
          s3.track (carry (s3.mkPacket n 0 (if w.opcode = 0x30 then 0x02 else 0x03) dst i k p.addr)
            (semLine w.value w.cond g.ctx) []) (.sem c.val)

/-- Send a cancel (R168). -/
def State.sendCancel (s : State) (core ctx addr : Nat) : State :=
  let n := (partOf (toCore core)).val
  match s.coreTag core with
  | none => s
  | some (i, s1) =>
    let s2 := { s1 with cancels := s1.cancels.erase (core, ctx, addr) }
    let (k, s3) := s2.freshNonce n
    let (dst, s4) := s3.target (nameOf addr)
    s4.track (carry (s4.mkPacket n 0 0x04 dst i k addr) (semLine 0 0 ctx) []) .cancel

/-- CHART_REQUEST_SEND (R223, R228, R242): request i of those ready is sent, once it has its credit. -/
def execChartRequestSend (i : Nat) (s : State) : Out :=
  if s.live && s.chartOpen then
    match (readyList s)[i]? with
    | none => .next s
    | some (.piece c p) => act s (s.slotIsOpen (partOf c)) (s.sendRead c p)
    | some (.cancel core ctx addr) => .next (s.sendCancel core ctx addr)
    | some (.block slot) =>
      (match s.chart.outT.find? (fun t => t.slot == slot) with
      | some t => .next (s.nextBlock t)
      | none => .next s)
    | some (.coll core ring) =>
      (match s.collOf core with
      | some r => act s (s.slotIsOpen (partOf (toCore core)) && s.get (CHT.CREDITS_n.WRITE_FREE (partOf (toCore core))) != 0)
          (s.sendPiece r ring)
      | none => .next s)
    | some (.abort id attempt dst n) =>
      let t := { s with chart := { s.chart with aborts := s.chart.aborts.erase (id, attempt, dst, n) } }
      .next (if (match s.collRec id with | some k => k.fin | none => false) then t else t.collCtl n 0 id attempt dst)
  else .next s

/-! ### The outbound queue (R165, R236) -/

/-- Bytes that a Chart entry covers. -/
def OutKind.span : OutKind → Nat
  | .chartWrite _ bs _ => bs.length
  | .chartAdd _ ws => 4 * ws.length
  | .semAdd _ _ => 16
  | .semRelease _ => 16
  | .wrNc _ bs _ => bs.length
  | .notify _ _ _ => 8

/-- Two entries touch one 64 B line. -/
def sameLine (a b : OutKind) : Bool :=
  decide (a.addr / 64 ≤ (b.addr + b.span - 1) / 64) && decide (b.addr / 64 ≤ (a.addr + a.span - 1) / 64)

/-- An entry that only follows every earlier one (R236). -/
def OutKind.last : OutKind → Bool
  | .semAdd _ _ => true
  | .semRelease _ => true
  | .notify _ _ _ => true
  | _ => false

/-- An entry is a WRITE. -/
def OutKind.isWrite : OutKind → Bool
  | .chartWrite _ _ _ => true
  | _ => false

/-- An exception of R236 holds an entry behind these earlier ones. -/
def heldBehind (earlier : List OutEntry) (k : OutKind) : Bool :=
  if k.last then !earlier.isEmpty
  else match k with
    | .chartWrite _ _ _ => earlier.any (fun e => !e.kind.companion && sameLine e.kind k)
    | .chartAdd _ _ => earlier.any (fun e => e.kind.isWrite && sameLine e.kind k)
    | _ => false

/-- Entry i may be sent now: earlier entries of its kind are sent, or held by an exception (R236, R285). -/
def mayGo : List OutEntry → List OutEntry → Nat → Bool
  | _, [], _ => false
  | before, e :: _, 0 => decide (e.state = .released) && !(heldBehind before e.kind)
  | before, e :: r, i + 1 =>
    let more := match (r[i]?) with
      | some t => decide (e.state ≠ .released) || t.kind.companion != e.kind.companion
          || (!e.kind.companion && heldBehind before e.kind)
      | none => false
    more && mayGo (before ++ [e]) r i

/-- Mark an entry sent. -/
def State.markSent (s : State) (n : PartIx) (id tag left : Nat) : State :=
  s.modPart n (fun p =>
    { p with outq := p.outq.map (fun e => if e.id = id then { e with state := .sent, tag := tag, left := left } else e) })

/-- Send a Chart entry, with a WRITE credit (R232, R236, R242). -/
def State.sendEntry (s : State) (n : PartIx) (e : OutEntry) : State :=
  let f := CHT.CREDITS_n.WRITE_FREE n
  match (if s.get f = 0 then none else s.coreTag e.core) with
  | none => s
  | some (i, s0) =>
    let s1 := s0.put f (s.get f - 1)
    let (k, s2) := s1.freshNonce n.val
    let (dst, s3) := s2.target (nameOf e.kind.addr)
    let p := match e.kind with
      | .chartWrite a bs bad => carry (s3.mkPacket n.val 1 0x10 dst i k a) bs bad
      | .chartAdd a ws => carry (s3.mkPacket n.val 1 0x11 dst i k a) (ws.flatMap (fun w => toLE 4 w)) []
      | .semAdd a d => carry (s3.mkPacket n.val 1 0x12 dst i k a) (semLine d 0 e.ctx) []
      | .semRelease a => carry (s3.mkPacket n.val 1 0x13 dst i k a) (semLine 0 0 e.ctx) []
      | _ => s3.mkPacket n.val 1 0x10 dst i k e.kind.addr
    (s3.markSent n e.id i 0).track p (.queue n.val e.id)

/-- Write a companion entry, or hand each line of a cached one to the device cache (R281, R285). -/
def State.sendCompanion (s : State) (n : PartIx) (e : OutEntry) : State :=
  let direct := fun (a : Nat) (bs : List Byte) (intr : Option Nat) =>
    let m := wrNcMsg a bs
    let (k, t) := (s.markSent n e.id 0 0).frlRecord m (some n.val) (.queue n.val e.id) intr
    t.frlUncached { msg := m, req := some k }
  match e.kind with
  | .notify a v intr => direct a (toLE 8 v) (if intr then some (s.intrVec n 0) else none)
  | .wrNc a bs bad =>
    if s.cachedRegion a then
      let first := a / 64
      let lines := (a + bs.length - 1) / 64 + 1 - first
      (List.range lines).foldl (fun t i =>
        let la := 64 * (first + i)
        let lo := max a la
        let hi := min (a + bs.length) (la + 64)
        t.cacheAccess la { write := true, part := n.val, core := e.core, tag := e.id, off := lo - la,
                           data := slice bs (lo - a) (hi - lo),
                           bad := bad.filterMap (fun o => if lo ≤ a + o ∧ a + o < hi then some (a + o - lo) else none) } none)
        (s.markSent n e.id 0 lines)
    else direct a bs none
  | _ => s

/-- OUTBOUND_QUEUE_SEND (R165, R236, R238, R285, R290): entry i of partition n's queue is sent, or fails with the entries before
it. -/
def execOutboundQueueSend (n : PartIx) (i : Nat) (s : State) : Out :=
  let q := (s.part n).outq
  match q[i]? with
  | none => .next s
  | some e =>
    if s.live && mayGo [] q i then
      if e.kind.companion then
        (if !s.attached || (e.kind.last && (s.part n).failFrl) then .next (s.queueFailFrl n e)
         else if e.kind.last && (s.part n).failChart then .next (s.queueFailChart n e)
         else .next (s.sendCompanion n e))
      else if e.kind.last && (s.part n).failChart then .next (s.queueFailChart n e)
      else act s s.chartOpen (s.sendEntry n e)
    else .next s

/-! ### Failures (R238) -/

/-- A request is tracked no longer. -/
def State.forget (s : State) (r : CReq) : State :=
  { s with chart := { s.chart with reqs := s.chart.reqs.filter (fun q => !(q.pkt.tag == r.pkt.tag && q.pkt.nonce == r.pkt.nonce)) } }

/-- The partition of a request. -/
def CReq.part (r : CReq) : PartIx := r.pkt.part

/-- A failed read is delivered poisoned (R238). -/
def State.readFailed (s : State) (c : CoreIx) (r : CReq) (status : Nat) : State :=
  let n := partOf c
  let k := match s.seg c with
    | some g => some g.ctx
    | none => none
  let s1 := (s.deliverPoison c r.pkt.tag.toNat).bump (CHT.ERRORS_n.READ_FAILED n) 1
  s1.raise { code := 0x20, domain := domPart n, ctx := k, core := c.val, unit := 11, addr := r.pkt.addr.toNat, d0 := status }

/-- A failed semaphore round trip kills its segment with cause 4 (R238). -/
def State.semFailed (s : State) (c : CoreIx) (r : CReq) (status : Nat) : State :=
  match s.seg c with
  | none => s
  | some g => (s.raise (s.cmdRecord c g.ctx 0x22 r.pkt.addr.toNat status)).killSeg c 4

/-- A request fails with its last status, 255 for a timeout (R238, R240). -/
def State.reqFailed (s : State) (r : CReq) (status : Nat) : State :=
  let s1 := (s.forget r).setAside [r.pkt.tag.toNat]
  match r.kind with
  | .read c => (s1.reqBack r.part.val).readFailed (toCore c) r status
  | .sem c => (s1.reqBack r.part.val).semFailed (toCore c) r status
  | .queue n id =>
    let s2 := s1.creditBack n
    (match (s2.part (toPart n)).outq.find? (fun e => e.id == id) with
    | some e => s2.queueFailChart (toPart n) e
    | none => s2)
  | .cancel => s1
  | .parcel slot _ =>
    (match s1.chart.outT.find? (fun t => t.slot == slot) with
    | some t => s1.failTicket t
    | none => s1)
  | .coll c _ _ _ => (s1.creditBack r.part.val).modColl c (fun x => { x with unacked := x.unacked - 1 })

/-! ### Resending (R228, R231, R237) -/

/-- Change a tracked request. -/
def State.modReq (s : State) (r : CReq) (f : CReq → CReq) : State :=
  { s with chart := { s.chart with
      reqs := s.chart.reqs.map (fun q => if q.pkt.tag = r.pkt.tag ∧ q.pkt.nonce = r.pkt.nonce then f q else q) } }

/-- The kinds whose destination follows the parcel's home. -/
def ReqKind.follows : ReqKind → Bool
  | .parcel _ _ => false
  | .coll _ _ _ _ => false
  | _ => true

/-- Send a request again to a module, with its TAG and NONCE. -/
def State.resendTo (s : State) (r : CReq) (dst : Nat) (f : CReq → CReq) : State :=
  let p := { r.pkt with dst := BitVec.ofNat 12 dst }
  (s.modReq r (fun q => f { q with pkt := p, sent := s.time, again := none })).sendPacket p

/-- Send a request again where R228 says. -/
def State.resend (s : State) (r : CReq) (f : CReq → CReq) : State :=
  if r.kind.follows then
    let (dst, t) := s.target (pktName r.pkt)
    t.resendTo r dst f
  else s.resendTo r r.pkt.dst.toNat f

/-- An attempt ends without an answer (R237). -/
def State.attemptOver (s : State) (r : CReq) : State :=
  if clamp 1 15 (s.inForce CHT.TIMERS.RETRIES) < r.tries + 1 then s.reqFailed r 255
  else s.resend r (fun q => { q with tries := q.tries + 1, hops := 0 })

/-- RESPONSE_TIMEOUT (R237, R238). -/
def execResponseTimeout (i : Nat) (s : State) : Out :=
  match s.chart.reqs[i]? with
  | none => .next s
  | some r =>
    act s (s.live && r.again.isNone && decide (r.sent + 800 * clamp 10 10000 (s.inForce CHT.TIMERS.RESP_US) ≤ s.time))
      (s.attemptOver r)

/-- Resends have gone on for UNAVAIL_MS (R231). -/
def State.unavailOver (s : State) (first : Nat) : Bool :=
  decide (first + 800000 * clamp 1 16383 (s.inForce CHT.TIMERS.UNAVAIL_MS) ≤ s.time)

/-! ### Directory messages (R244, R246, R247) -/

/-- A DIR message is answered: tracked no longer. -/
def State.forgetDir (s : State) (d : DirMsg) : State :=
  { s with chart := { s.chart with dirs := s.chart.dirs.filter (fun x => !d.is x) } }

/-- A COLL_CTL ABORT of a collective whose FINAL has passed is sent no more (R256 rule 5). -/
def State.abortOver (s : State) (p : Packet) : Bool :=
  p.opcode == 0x3E && p.aux.toNat % 65536 == 0 && (s.collRec p.addr.toNat).any (fun r => r.fin)

/-- Send a DIR message again, to a module; one that has waited for a tag is given it now (R240). -/
def State.resendDir (s : State) (d : DirMsg) (dst : Nat) (f : DirMsg → DirMsg) : State :=
  let p := { d.pkt with dst := BitVec.ofNat 12 dst }
  if s.abortOver p then s.forgetDir d
  else if d.tagged then (s.modDir d (fun x => f { x with pkt := p, sent := s.time, again := none })).sendPacket p
  else match s.freshTag (dirUnit p) 0 with
    | none => s
    | some (i, t) =>
      let q := { p with tag := BitVec.ofNat 32 i }
      (t.modDir d (fun x => f { x with pkt := q, tagged := true, first := s.time, sent := s.time, again := none })).sendPacket q

/-- The outgoing ticket of a slot. -/
def State.outSlot (s : State) (slot : Nat) : Option OutTicket := s.chart.outT.find? (fun t => t.slot == slot)

/-- A DIR message is unanswered to the end (R244, R246, R247). -/
def State.dirFailed (s : State) (d : DirMsg) : State :=
  let s1 := (s.forgetDir d).setAside [d.pkt.tag.toNat]
  let fail := fun (slot : Nat) => match s1.outSlot slot with
    | some t => s1.failTicket t
    | none => s1
  match d.kind with
  | .ring index => s1.ringFinal index 6 0
  | .offer slot => fail slot
  | .commit slot => fail slot
  | .release slot => (match s1.outSlot slot with
    | some t => s1.sourceDoubt t
    | none => s1)
  | .query slot => (match s1.chart.inT.find? (fun t => t.slot == slot) with
    | some t => s1.destDoubt t
    | none => s1)
  | .plain => s1

/-- An attempt of a DIR message ends without an answer (R237). -/
def State.dirOver (s : State) (d : DirMsg) : State :=
  if clamp 1 255 (s.inForce CHT.TIMERS2.DIR_RETRIES) < d.tries + 1 then s.dirFailed d
  else s.resendDir d d.pkt.dst.toNat (fun x => { x with tries := x.tries + 1, hops := 0 })

/-- DIRECTORY_TIMEOUT (R237, R246, R247). -/
def execDirectoryTimeout (i : Nat) (s : State) : Out :=
  match s.chart.dirs[i]? with
  | none => .next s
  | some d =>
    act s (s.live && d.again.isNone && decide (d.sent + 800 * clamp 10 65535 (s.inForce CHT.DIR.DIR_US) ≤ s.time)) (s.dirOver d)

/-- RETRY_AFTER_EXPIRY (R231): request i, or, past the requests, DIR message i, is sent again; past UNAVAIL_MS it fails. -/
def execRetryAfterExpiry (i : Nat) (s : State) : Out :=
  let k := s.chart.reqs.length
  match s.chart.reqs[i]?, s.chart.dirs[i - k]? with
  | some r, _ =>
    (match r.again with
    | some t => act s (s.live && decide (t ≤ s.time))
        (if s.unavailOver r.first then s.reqFailed r r.last else s.resend r (fun q => { q with hops := 0 }))
    | none => .next s)
  | none, some d =>
    (match d.again with
    | some t => act s (s.live && decide (t ≤ s.time))
        (if d.tagged && s.unavailOver d.first then s.dirFailed d
         else match d.kind with
           | .ring _ =>
             let (dst, u) := s.target (pktName d.pkt)
             u.resendDir d dst (fun x => { x with hops := 0 })
           | _ => s.resendDir d d.pkt.dst.toNat id)
    | none => .next s)
  | none, none => .next s

/-! ### Responses (R231, R240) -/

/-- The request that a response answers: matched by TAG (R235), with the NONCE it copies. -/
def State.reqFor (s : State) (p : Packet) : Option CReq :=
  s.chart.reqs.find? (fun r => r.pkt.tag == p.tag && r.pkt.nonce == p.nonce)

/-- A response that answers nothing is discarded and counted (R171, R240). -/
def State.late (s : State) (p : Packet) : State :=
  let unit := p.tag.toNat / 134217728
  if unit < 16 then s.bump (SEQ.LATE.REPLIES unit) 1 else s.bump (CHT.COUNTS_n.LATE p.part) 1

/-- CHART_READ_DATA (R171, R238, R240): a read's data, poisoned words marked. -/
def execChartReadData (p : Packet) (s : State) : Out :=
  arrive s p 0x20 (fun s =>
    match s.reqFor p with
    | some r =>
      (match r.kind with
      | .read c => ((s.forget r).reqBack r.part.val).deliver (toCore c) p.tag.toNat p.payload (badWordsOf p)
      | _ => s.late p)
    | none => s.late p)

/-- The semaphore command of a segment whose Chart request carries a tag. -/
def semOf (g : Seg) (tag : Nat) : Option SemWaitSt :=
  match g.remote.find? (fun q => q.tag == tag) with
  | some q => g.semWait.find? (fun w => w.work == q.work)
  | none => none

/-- An acquisition of a segment took a lease: marked to it, and an expired lease counted (R167). -/
def State.semMark (s : State) (c : CoreIx) (g : Seg) (a : Nat) (expired : Bool) : State :=
  let t := if g.marked.contains (a, true) then s else s.modSeg c (fun h => { h with marked := h.marked ++ [(a, true)] })
  if expired then t.bump (SEQ.LEASE.EXPIRED c) 1 else t

/-- A Chart acquisition of a segment is granted (R167, R168). Where this module is the home, the home's table says what the grant found.
The answer of another module does not say whether the lease had expired, nor whether its holder's lease was extended: a free value says
so where either may be (log entry 77). An extension of a lease held across a lift is not marked anew. -/
def State.semGot (s : State) (c : CoreIx) (g : Seg) (a tag : Nat) : State :=
  match s.chart.grants.find? (fun x => x.1 == tag) with
  | some (_, expired, extended) =>
    let t := { s with chart := { s.chart with grants := s.chart.grants.filter (fun x => x.1 != tag) } }
    if extended then t else t.semMark c g a expired
  | none =>
    let found := s.draw.1.toNat % 2 == 1
    let t := s.draw.2
    if found then t.semMark c g a true
    else if s.chart.leases.contains (g.ctx, a) then t
    else t.semMark c g a false

/-- SEM_RESULT (R168, R171): the round trip completes; an acquisition is granted. -/
def execSemResult (p : Packet) (s : State) : Out :=
  arrive s p 0x22 (fun s =>
    match s.reqFor p with
    | some r =>
      (match r.kind with
      | .sem c =>
        let c := toCore c
        let s1 := (s.forget r).reqBack r.part.val
        (match s1.seg c with
        | some g =>
          (match semOf g p.tag.toNat with
          | some w =>
            (if w.opcode = 0x32 then s1.semGot c g w.addr p.tag.toNat else s1).semEnd c w.work
          | none => s1)
        | none => s1)
      | _ => s.late p)
    | none => s.late p)

/-- The home reports lease lost (R168). -/
def State.chartLeaseLost (s : State) (n : PartIx) (e : OutEntry) : State :=
  let s1 := (s.bump (SEQ.LEASE.LOST e.core) 1).event e.ctx 4 e.kind.addr
  let s2 := s1.raise { code := 0x13, domain := domPart n, ctx := some e.ctx, core := e.core, unit := 11, addr := e.kind.addr }
  if s2.ctxState e.ctx = 4 then s2 else s2.action e.ctx 6

/-- A context's Chart lease is released: it is held across a lift no longer (R167). -/
def State.leaseEnds (s : State) (e : OutEntry) : State :=
  { s with chart := { s.chart with leases := s.chart.leases.filter (fun l => !(l == (e.ctx, e.kind.addr))) } }

/-- CHART_ACK (R165, R168, R236, R245). -/
def execChartAck (p : Packet) (s : State) : Out :=
  arrive s p 0x21 (fun s =>
    match s.reqFor p with
    | none => s.late p
    | some r =>
      let s1 := s.forget r
      match r.kind with
      | .queue n id =>
        let s2 := s1.creditBack n
        (match (s2.part (toPart n)).outq.find? (fun e => e.id == id) with
        | some e =>
          let s3 := if r.pkt.opcode = 0x13 then s2.leaseEnds e else s2
          let s4 := if r.pkt.opcode = 0x13 && bit p.aux.toNat 0 then s3.chartLeaseLost (toPart n) e else s3
          s4.queueDone (toPart n) id
        | none => s2)
      | .cancel => s1
      | .parcel slot _ => s1.blockDone slot
      | .coll c _ _ _ => ((s1.creditBack r.part.val).modColl c (fun x => { x with unacked := x.unacked - 1 })).collDone c
      | _ => s.late p)

/-- A REDIRECT (R228): resend at the hint, at the origin after the fourth, and end the attempt at the fifth. -/
def State.redirected (s : State) (r : CReq) (p : Packet) : State :=
  let name := pktName r.pkt
  let s1 := (s.bump (CHT.COUNTS_n.REDIRECTS r.part) 1).learnHint name (bits p.aux.toNat 11 0) p.epoch.toNat
  let h := r.hops + 1
  if 5 ≤ h then s1.attemptOver r
  else if h = 4 then (s1.dropHint name).resendTo r (originOf name) (fun q => { q with hops := h })
  else s1.resend r (fun q => { q with hops := h })

/-- A NACK meets a request (R231). -/
def State.reqNack (s : State) (r : CReq) (p : Packet) : State :=
  let st := p.status.toNat
  let wait := s.modReq r (fun q => { q with again := some (s.time + 800 * p.retry.toNat), last := st })
  match r.kind with
  | .parcel slot _ =>
    if st = 2 ∨ st = 3 ∨ st = 10 ∨ st = 11 then wait
    else (match (s.forget r).outSlot slot with
      | some t => if t.phase = .forwarded then s.forget r else (s.forget r).endTicket t (ringStatus st)
      | none => s.forget r)
  | .coll c _ _ _ =>
    if st = 8 then ((s.forget r).creditBack r.part.val).modColl c (fun x => { x with unacked := x.unacked - 1 })
    else if st = 5 ∨ st = 6 ∨ st = 7 ∨ st = 9 then s.reqFailed r st
    else wait
  | _ =>
    if st = 1 then s.redirected r p
    else if st = 4 then (s.dropHint (pktName r.pkt)).resendTo r (originOf (pktName r.pkt)) (fun q => { q with last := st })
    else if st = 5 ∨ st = 6 then s.reqFailed r st
    else if st = 10 ∧ p.retry.toNat = 0 then
      (if s.unavailOver r.first then s.reqFailed r st else s.resend r (fun q => { q with hops := 0, last := st }))
    else wait

/-- A NACK meets a COMMIT or a RELEASE (R231, R246). -/
def State.dirNack (s : State) (d : DirMsg) (p : Packet) : State :=
  let s1 := s.forgetDir d
  let st := p.status.toNat
  if st = 2 ∨ st = 3 ∨ st = 10 ∨ st = 11 then s.modDir d (fun x => { x with again := some (s.time + 800 * p.retry.toNat) })
  else match d.kind with
  | .offer slot => (match s1.outSlot slot with
    | some t => s1.endTicket t (ringStatus p.status.toNat)
    | none => s1)
  | .commit slot => (match s1.outSlot slot with
    | some t => s1.endTicket t (ringStatus p.status.toNat)
    | none => s1)
  | .release slot => (match s1.outSlot slot with
    | some t => s1.releaseRefused t
    | none => s1)
  | _ => s1

/-- The parcel that a destination refuses unasked: it is FORWARDED there, and the NACK carries its TICKET_ID (R230, R246, R247). -/
def State.refusedTicket (s : State) (p : Packet) : Option OutTicket :=
  match s.outId p.nonce.toNat with
  | some t =>
    if t.phase = .forwarded ∧ (s.gazAt t.name).any (fun e => e.st == .forward) ∧ t.dst = p.src.toNat ∧ t.name = pktName p then some t
    else none
  | none => none

/-- CHART_NACK (R231, R238, R246). -/
def execChartNack (p : Packet) (s : State) : Out :=
  arrive s p 0x23 (fun s =>
    match s.reqFor p, s.dirFor p with
    | some r, _ => s.reqNack r p
    | none, some d => s.dirNack d p
    | none, none =>
      match s.refusedTicket p with
      | some t => s.releaseRefused t
      | none => s.late p)

/-- The answer to a TICKET_REQ (R231, R244). -/
def State.ringAnswer (s : State) (d : DirMsg) (index : Nat) (p : Packet) : State :=
  let st := p.status.toNat
  let name := pktName d.pkt
  if st = 0 then s.forgetDir d
  else if st = 12 then (s.forgetDir d).modRing index (fun x => { x with wait := true })
  else if st = 2 ∨ st = 3 ∨ st = 10 ∨ st = 11 then s.modDir d (fun x => { x with again := some (s.time + 800 * p.retry.toNat) })
  else if st = 1 then
    let s1 := (s.bump (CHT.COUNTS_n.REDIRECTS d.pkt.part) 1).learnHint name (bits p.aux.toNat 11 0) p.epoch.toNat
    let h := d.hops + 1
    if 5 ≤ h then s1.dirOver d
    else if h = 4 then (s1.dropHint name).resendDir d (originOf name) (fun x => { x with hops := h })
    else
      let (dst, s2) := s1.target name
      s2.resendDir d dst (fun x => { x with hops := h })
  else if st = 4 then (s.dropHint name).resendDir d (originOf name) id
  else (s.forgetDir d).ringFinal index (ringStatus st) 0

/-- DIR_ACK (R231, R244). -/
def execDirAck (p : Packet) (s : State) : Out :=
  arrive s p 0x3F (fun s =>
    match s.dirFor p with
    | none => s.late p
    | some d =>
      match d.kind with
      | .ring index => s.ringAnswer d index p
      | _ =>
        let st := p.status.toNat
        if st = 2 ∨ st = 3 ∨ st = 10 ∨ st = 11 then s.modDir d (fun x => { x with again := some (s.time + 800 * p.retry.toNat) })
        else s.forgetDir d)

end Sys2Proof.Machine
end

