-- ==== Sys2Proof/Machine/Shards.lean ====
section
/-! DEFINITION. Machine/Shards.lean: how the weight agent reads from companion memory (R298, R304): directory, headers, shards, and reads
that are tried again. -/

namespace Sys2Proof.Machine

/-- The directory's number in WtsRead.idx. -/
def dirIdx : Nat := 65536

/-- Change the weight agent. -/
def State.modWts (s : State) (f : WtsSt → WtsSt) : State := { s with wts := f s.wts }
/-- The load of a model. -/
def State.load (s : State) (m : Nat) : Option LoadSt := s.wts.loads.find? (fun l => l.model == m)
/-- Change the load of a model. -/
def State.modLoad (s : State) (m : Nat) (f : LoadSt → LoadSt) : State :=
  s.modWts (fun w => { w with loads := w.loads.map (fun l => if l.model = m then f l else l) })
/-- The read of a model's shard or directory. -/
def State.wtsRead (s : State) (m i : Nat) : Option WtsRead := s.wts.reads.find? (fun r => r.model == m && r.idx == i)
/-- Hash lanes in use (R304, R314). -/
def State.lanes (s : State) : Nat := (s.wts.reads.filter (fun r => decide (r.what = .shard))).length
/-- Bring WTS.STATUS.LANES_BUSY in line. -/
def State.showLanes (s : State) : State := s.put WTS.STATUS.LANES_BUSY s.lanes
/-- Change a read. -/
def State.modRead (s : State) (m i : Nat) (f : WtsRead → WtsRead) : State :=
  s.modWts (fun w => { w with reads := w.reads.map (fun r => if r.model = m ∧ r.idx = i then f r else r) })
/-- A read is over. -/
def State.dropRead (s : State) (m i : Nat) : State :=
  (s.modWts (fun w => { w with reads := w.reads.filter (fun r => !(r.model == m && r.idx == i)) })).showLanes
/-- The aclk at which what is not ready now is tried again (R304). -/
def State.pollDue (s : State) : Nat := s.time + 800 * max 1 (s.inForce WTS.CFG2.POLL_US)

/-- A piece of a read is to be asked for again (R304). -/
def State.wtsAgain (s : State) (m i addr len : Nat) : State :=
  s.modRead m i (fun r => { r with again := r.again ++ [(addr, len)], poll := some s.pollDue })
/-- The length of the piece of a read that begins at an address. -/
def pieceLen (r : WtsRead) (addr : Nat) : Nat := min (512 - addr % 512) (r.base + r.len - addr)
/-- A piece of a read was refused, or had no answer (R279, R287, R304). -/
def State.wtsRetry (s : State) (m i addr : Nat) : State :=
  match s.wtsRead m i with
  | some r => s.wtsAgain m i addr (pieceLen r addr)
  | none => s
/-! ### Headers and records (R296, R300) -/

/-- A header is a RAW one. -/
def hdRaw (h : List Byte) : Bool := fieldAt h 0x20 1 == 1
/-- A header's payload is compressed. -/
def hdPacked (h : List Byte) : Bool := bit (fieldAt h 0x23 1) 0
/-- A header names a weight descriptor. -/
def hdDesc (h : List Byte) : Bool := fieldAt h 0x21 1 == 1
/-- DATA_LEN. -/
def hdLen (h : List Byte) : Nat := fieldAt h 0x18 8
/-- Bits [hi:lo] of the word at 40h of a shard record (R300). -/
def State.rec40 (s : State) (m i hi lo : Nat) : Nat := bits (s.rdLE (s.shardAddr m i + 0x40) 4) hi lo
/-- Write bits [hi:lo] of that word. -/
def State.rec40Wr (s : State) (m i hi lo v : Nat) : State := s.wrBits (s.shardAddr m i + 0x40) 4 hi lo v
/-- Stage pages free in a partition (R307). -/
def freeStage (s : State) (n : PartIx) : List Nat :=
  let base := s.inForce (WTS.STAGE_n.BASE n)
  let used := (s.wts.convs.filter (fun c => c.part == n.val)).flatMap Conv.pages
    ++ (s.wts.reads.filter (fun r => decide (s.mdPart r.model = n))).flatMap WtsRead.stage
  ((List.range (s.inForce (WTS.STAGE_n.PAGES n))).map (fun p => base + p)).filter (fun p => !used.contains p)

/-! ### Reads -/

/-- Ask the companion for a piece by RD_NC of unit 18; while the module is not attached it fails at once (R290, R304). -/
def State.wtsAsk (s : State) (m i : Nat) (p : Nat × Nat) : State :=
  if s.attached then
    s.frlRequest { fmsg 0 0x03 0 p.1 with linesM1 := BitVec.ofNat 3 (p.2 / 64 - 1) } none (.shard m i) none
  else s.wtsAgain m i p.1 p.2
/-- Ask for a range in pieces. -/
def State.wtsAskRange (s : State) (m i base len : Nat) : State :=
  (cutRange (len / 512 + 2) base len).foldl (fun u p => u.wtsAsk m i p) s
/-- Begin a read: whole lines that cover [addr, addr + len), in pieces (R277). Of a shard, the lines of its header first; the rest is asked
for once its stage space is settled (R307). -/
def State.startRead (s : State) (m i : Nat) (what : WtsWhat) (addr len : Nat) : State :=
  let base := addr / 64 * 64
  let size := ceilDiv (addr + len - base) 64 * 64
  let first := if what = .shard then ceilDiv (addr + 256 - base) 64 * 64 else size
  let r : WtsRead := { model := m, idx := i, what := what, base := base, len := size,
                       rest := if what = .shard then some (base + first, size - first) else none }
  let t := (s.dropRead m i).modWts (fun w => { w with reads := w.reads ++ [r] })
  t.showLanes.wtsAskRange m i base first
/-- Wait POLL_US before a directory entry is read again (R304). -/
def State.waitEntry (s : State) (m i : Nat) : State :=
  (s.dropRead m i).modWts (fun w =>
    { w with reads := w.reads ++ [{ model := m, idx := i, what := .entry, base := 0, len := 0, poll := some s.pollDue }] })

/-- Directory entry i of a load (R298). -/
def LoadSt.entry (l : LoadSt) (i : Nat) : List Byte := l.entries.getD i []
/-- ADDR of a directory entry. -/
def entAddr (e : List Byte) : Nat := fieldAt e 0 8
/-- LEN. -/
def entLen (e : List Byte) : Nat := fieldAt e 8 8
/-- PAGES. -/
def entPages (e : List Byte) : Nat := fieldAt e 0x10 4
/-- TIER. -/
def entTier (e : List Byte) : Nat := bits (fieldAt e 0x14 4) 1 0
/-- READY. -/
def entReady (e : List Byte) : Bool := bit (fieldAt e 0x14 4) 2
/-- The shards that a load reads: all, or the one of a repair. -/
def LoadSt.shards (l : LoadSt) : List Nat :=
  match l.only with
  | some i => [i]
  | none => List.range l.count
/-- Shards whose headers placing needs: those of object ranges. -/
def LoadSt.ranges (l : LoadSt) : List Nat := l.shards.filter (fun i => entPages (l.entry i) != 0)

/-- Read a header for placing, or wait for its entry to be READY (R302, R304). -/
def State.readHeader (s : State) (m i : Nat) (e : List Byte) : State :=
  if entReady e then s.startRead m i .header (entAddr e) 256 else s.waitEntry m i
/-- Read a shard on a hash lane, its record reading, or wait for its entry to be READY (R300, R304). -/
def State.readShard (s : State) (m i : Nat) (e : List Byte) : State :=
  if entReady e then (s.rec40Wr m i 2 0 1).startRead m i .shard (entAddr e) (max 256 (entLen e)) else s.waitEntry m i

/-- The bytes of a read, in address order; bytes not yet there read 0. -/
def WtsRead.bytes (r : WtsRead) : List Byte :=
  (r.got.foldl (fun (m : Sparse Byte) p => storeBytes m (p.1 - r.base) p.2) []) |> fun m =>
    (List.range r.len).map (fun i => Sparse.get m i 0)
/-- Bytes of a read that have come. -/
def WtsRead.there (r : WtsRead) : Nat := (r.got.map (fun p => p.2.length)).sum
/-- All data of a read has come. -/
def WtsRead.whole (r : WtsRead) : Bool := decide (r.len ≤ r.there) && r.poll.isNone && r.rest.isNone
/-- The bytes of a shard, from its header on, as they lie in the lines of its read. -/
def WtsRead.shard (r : WtsRead) (e : List Byte) : List Byte := r.bytes.drop (entAddr e - r.base)
/-- PAYLOAD_LEN of a header (R296). -/
def hdPayload (h : List Byte) : Nat := fieldAt h 0x10 8
/-- Bytes of a shard to be read: its header and as much as the header says, where companion addresses reach so far (R277, R297). -/
def shardBytes (e h : List Byte) : Nat := if entAddr e + 256 + hdPayload h ≤ 2 ^ 52 then 256 + hdPayload h else max 256 (entLen e)

/-- A shard of a load has passed its seal: it has landed, or it is being converted. -/
def passedSeal (s : State) (l : LoadSt) (i : Nat) : Bool :=
  l.landed.any (fun x => x.idx == i) || s.wts.convs.any (fun c => c.model == l.model && c.idx == i)
/-- An earlier shard of a load, which may be a RAW one, has not come to its stage space (R307). -/
def stageBehind (s : State) (l : LoadSt) (i : Nat) : Bool :=
  l.shards.any (fun j => decide (j < i) && entPages (l.entry j) == 0 && !(passedSeal s l j) && (match s.wtsRead l.model j with
    | some r => decide (r.what ≠ .shard) || r.rest.isSome
    | none => true))
/-- What lies behind a shard's header is asked for once the header has come: a RAW shard first takes stage space for its data, in directory
order, and waits while there is too little; one larger than the whole stage takes none (R307). -/
def State.shardRest (s : State) (l : LoadSt) (i : Nat) : State :=
  match s.wtsRead l.model i with
  | none => s
  | some r =>
    match r.rest with
    | none => s
    | some p =>
      if decide (r.what ≠ .shard) || r.poll.isSome || decide (r.there < r.len - p.2) then s
      else
        let n := s.mdPart l.model
        let h := (r.shard (l.entry i)).take 256
        let pages := ceilDiv (hdLen h) 65536
        let free := freeStage s n
        let e := l.entry i
        let size := max (p.1 - r.base) (ceilDiv (entAddr e + shardBytes e h - r.base) 64 * 64)
        let go := fun (q : List Nat) =>
          (s.modRead l.model i (fun x => { x with rest := none, stage := q, len := size })).wtsAskRange l.model i p.1 (r.base + size - p.1)
        if !(hdRaw h) || decide (s.inForce (WTS.STAGE_n.PAGES n) < pages) then go []
        else if stageBehind s l i || decide (free.length < pages) then s
        else go (free.take pages)

/-- A load goes on: shards are started in directory order while lanes are free, and those that waited for stage space take it (R304,
R307). -/
def State.fillLoad (s : State) (m : Nat) : State :=
  match s.load m with
  | none => s
  | some l =>
    if !l.placed then s
    else l.shards.foldl (fun t i =>
      if passedSeal s l i then t
      else if (t.wtsRead m i).isSome then t.shardRest l i
      else if decide (32 ≤ t.lanes) then t
      else t.readShard m i (l.entry i)) s
/-- Lanes or stage pages are free: every load goes on, oldest first. -/
def State.fillLoads (s : State) : State := s.wts.loads.foldl (fun t l => t.fillLoad l.model) s

/-- The directory's header has come: SHARD_COUNT is set, and its entries are read (R298, R302). -/
def State.dirHeader (s : State) (m : Nat) (h : List Byte) : State :=
  let count := fieldAt h 4 2
  if fieldAt h 0 4 = s.md m 0 4 ∧ count ≠ 0 then
    ((s.mdWr m 0x0A 2 count).modLoad m (fun l => { l with count := count })).startRead m dirIdx .dirEntries (s.md m 0x10 8 + 64) (32 * count)
  else (s.dropRead m dirIdx).modLoad m (fun l => { l with dirBad := true })
/-- The directory's entries have come: headers are read (R302). -/
def State.dirEntries (s : State) (m : Nat) (bs : List Byte) : State :=
  let t := (s.dropRead m dirIdx).modLoad m (fun l =>
    { l with entries := (List.range l.count).map (fun i => slice bs (32 * i) 32) })
  match t.load m with
  | none => t
  | some l => l.ranges.foldl (fun u i => u.readHeader m i (l.entry i)) t
/-- A directory entry has been read again (R304). -/
def State.entryAgain (s : State) (m i : Nat) (e : List Byte) : State :=
  let t := s.modLoad m (fun l => { l with entries := l.entries.set i e })
  match t.load m with
  | none => t
  | some l => if l.placed then (if entReady e && decide (32 ≤ t.lanes) then t.waitEntry m i else t.readShard m i e) else t.readHeader m i e

/-- A read as it begins again after POLL_US, with nothing come (log entry 153). -/
def WtsRead.fresh (r : WtsRead) (due : Nat) : WtsRead :=
  { r with got := [], bad := false, tags := [], again := cutRange (r.len / 512 + 2) r.base r.len, poll := some due }

/-- A read whose data is whole goes on; a shard waits for SHARD_ARRIVAL. Poisoned words of a directory or of a header are read again (log
entry 153). -/
def State.wtsNext (s0 : State) (r : WtsRead) : State :=
  if r.what = .shard then s0.fillLoad r.model
  else if !r.whole then s0
  else if r.bad then s0.modRead r.model r.idx (fun q => q.fresh s0.pollDue)
  else
    let s := s0.modWts (fun w => { w with past := w.past ++ [{ r with got := [] }] })
    match r.what with
    | .dirHeader => s.dirHeader r.model r.bytes
    | .dirEntries => s.dirEntries r.model r.bytes
    | .entry => s.entryAgain r.model r.idx (slice r.bytes ((s.md r.model 0x10 8 + 64 + 32 * r.idx) % 64) 32)
    | .header => (s.dropRead r.model r.idx).modLoad r.model (fun l =>
        { l with heads := l.heads.filter (fun h => h.1 != r.idx) ++ [(r.idx, r.bytes)] })
    | .shard => s
/-- Data of a piece comes, by a request with a tag. -/
def State.wtsData (s : State) (m i addr tag : Nat) (bs : List Byte) (bad : Bool) : State :=
  let t := s.modRead m i (fun r => { r with got := r.got ++ [(addr, bs)], bad := r.bad || bad, tags := r.tags ++ [tag] })
  match t.wtsRead m i with
  | some r => t.wtsNext r
  | none => t
/-- A read holds data of an address that a request with this tag brought. -/
def WtsRead.brought (r : WtsRead) (tag addr : Nat) : Bool :=
  decide (r.base ≤ addr) && decide (addr < r.base + r.len) && r.tags.contains tag
/-- The words of a directory or header that has been used turn out to be poisoned: it is read again, and what was read because of it (log
entry 153). -/
def State.wtsReread (s : State) (q : WtsRead) : State :=
  let m := q.model
  match s.load m with
  | none => s
  | some l =>
    if l.placed then s
    else
      let dir : Bool := decide (q.what = .dirHeader) || decide (q.what = .dirEntries)
      let again := { q with what := if dir then .dirHeader else q.what, base := if dir then s.md m 0x10 8 else q.base,
                            len := if dir then 64 else q.len }
      let t := if dir then s.modLoad m (fun x => { x with count := 0, dirBad := false, entries := [], heads := [] })
        else s.modLoad m (fun x => { x with heads := x.heads.filter (fun h => h.1 != q.idx) })
      t.modWts (fun w =>
        { w with
          reads := w.reads.filter (fun r => !(r.model == m && (dir || r.idx == q.idx))) ++ [again.fresh s.pollDue]
          past := w.past.filter (fun r => !(r.model == m && (dir || r.idx == q.idx))) })
/-- A one-line message marks words of data that has come as poisoned; none where its tag has brought no such data (R277). -/
def State.wtsMark (s : State) (tag addr : Nat) : Option State :=
  if s.wts.reads.any (fun r => r.brought tag addr) then
    some (s.modWts (fun w => { w with reads := w.reads.map (fun r => if r.brought tag addr then { r with bad := true } else r) }))
  else (s.wts.past.find? (fun r => r.brought tag addr)).map s.wtsReread
/-- The time has come to try a read again (R304). -/
def State.wtsPoll (s : State) (m i : Nat) : State :=
  match s.wtsRead m i with
  | none => s
  | some r =>
    if r.len = 0 then s.startRead m i .entry (s.md m 0x10 8 + 64 + 32 * i) 32
    else r.again.foldl (fun t p => t.wtsAsk m i p) (s.modRead m i (fun q => { q with again := [], poll := none }))

end Sys2Proof.Machine
end

