-- ==== Sys2Proof/Machine/Ferrule.lean ====
section
/-! DEFINITION. Machine/Ferrule.lean: messages from the companion about lines and requests of the module (R278 to R282, R285), timeouts
(R287), doorbells (R288), attaching and companion loss (R290, R291), and the flush (R294). -/

namespace Sys2Proof.Machine

/-! ### Arrival (R278) -/

/-- The opcodes that a companion sends. -/
def companionOp (o : Nat) : Bool := [0x06, 0x10, 0x11, 0x24, 0x25, 0x26, 0x27, 0x31, 0x33].contains o

/-- The line count of a message is in its range (R278). -/
def linesOk (m : FMsg) : Bool :=
  let o := m.opcode.toNat
  let k := m.lines.length
  if o = 0x06 then k == 0
  else if o = 0x24 ∨ o = 0x25 then k == 64 && m.linesM1 == 0
  else if o = 0x26 ∨ o = 0x27 then k == 64 * (m.linesM1.toNat + 1)
  else k == 0 && m.linesM1 == 0

/-- A message is discarded and counted (R278). -/
def protocolBad (m : FMsg) : Bool := m.bad || !companionOp m.opcode.toNat || !linesOk m

/-- FRL.ERRORS.PROTOCOL rises. -/
def State.protocol (s : State) : State := s.bump FRL.ERRORS.PROTOCOL 1

/-- A message is taken out of the receiver that holds it, whose flits are free again (R276, R286). -/
def State.frlTake (s : State) (m : FMsg) : State :=
  if s.ferrule.rx.contains m then
    State.tell { s with ferrule := { s.ferrule with
      rx := s.ferrule.rx.erase m, freed := modAt s.ferrule.freed m.cls.toNat (fun n => n + flits m) } } 10
  else s

/-- An MRD or MWR that came before this message has not been applied yet (R285). -/
def State.frlBehind (s : State) (m : FMsg) : Bool :=
  s.ferrule.rx.contains m && (s.ferrule.rx.takeWhile (fun x => x != m)).any (fun x => x.opcode == 0x06 || x.opcode == 0x27)

/-- A message of an opcode arrives: a bad one is discarded and counted (R278). It has been received while the port was UP. -/
def frlArrive (s : State) (m : FMsg) (op : Nat) (go : State → State) : Out :=
  if !(s.live && (s.get FRL.STATUS.STATE == 2 || s.ferrule.rx.contains m)) then .next s
  else if protocolBad m then .next (s.frlTake m).protocol
  else act s (m.opcode.toNat == op) (go (s.frlTake m))

/-- The outstanding request that a response answers, by TAG (R285). -/
def State.frlFor (s : State) (m : FMsg) : Option FReq := s.ferrule.reqs.find? (fun r => r.out && r.tag == m.tag.toNat)

/-- A request is outstanding no longer: its tracker is free, and messages that waited for one go (R286). -/
def State.frlDone (s : State) (r : FReq) : State :=
  State.frlPump { s with ferrule := { s.ferrule with reqs := s.ferrule.reqs.filter (fun x => x.no != r.no) } }

/-- A response that answers nothing: of a core unit it is late (R171); of the Ferrule agent a CMP is a protocol error (R282), any other
is late under R240, counted for P0 (R285; log entry 151). -/
def State.frlLate (s : State) (m : FMsg) : State :=
  let unit := m.tag.toNat / 134217728
  if unit < 16 then s.bump (SEQ.LATE.REPLIES unit) 1
  else if m.opcode = 0x31 then s.protocol
  else s.bump (CHT.COUNTS_n.LATE 0) 1

/-- The tag by which the segment knows the read of a request. -/
def FReq.known (r : FReq) (piece : Nat) : Nat := if r.out then r.tag else piece

/-! ### Grants, data and snoops (R278, R282) -/

/-- GNT_S (R282): it answers RD_SHARED only. -/
def execGntS (m : FMsg) (s : State) : Out :=
  frlArrive s m 0x24 (fun s =>
    match s.frlFor m with
    | none => s.protocol
    | some r =>
      match lineAt s r.addr with
      | some l => if decide (r.kind = .fill) && r.op == 0x01 && decide (l.st = .is_) then (s.frlDone r).lineFilled l .s m else s.protocol
      | none => s.protocol)

/-- GNT_E (R282). -/
def execGntE (m : FMsg) (s : State) : Out :=
  frlArrive s m 0x25 (fun s =>
    match s.frlFor m with
    | none => s.protocol
    | some r =>
      match lineAt s r.addr with
      | some l =>
        if decide (r.kind = .fill) && (decide (l.st = .is_) || decide (l.st = .im) || decide (l.st = .sm)) then
          (s.frlDone r).lineFilled l (if l.st = .is_ then .e else .m) m
        else s.protocol
      | none => s.protocol)

/-- A one-line RD_DATA that marks poisoned words of a later line of data that has come (R277). -/
def State.markLater (s : State) (c : CoreIx) (m : FMsg) : Option State :=
  match s.seg c with
  | none => none
  | some g =>
    if g.remote.any (fun p => p.tag == m.tag.toNat && p.data.isSome && decide (p.addr < m.addr.toNat)
        && decide (m.addr.toNat < p.addr + p.len)) && m.linesM1 == 0 then
      some (s.modSeg c (fun g =>
        { g with remote := g.remote.map (fun p =>
            if p.tag = m.tag.toNat then
              { p with bad := p.bad ++ (maskBad m.mask.toNat 16).map (fun o => m.addr.toNat - p.addr + o) } else p) }))
    else none

/-- RD_DATA (R171, R277, R281): the data of an RD_NC, poisoned words of its first line marked. -/
def execRdData (m : FMsg) (s : State) : Out :=
  frlArrive s m 0x26 (fun s =>
    match s.frlFor m with
    | none =>
      if m.linesM1 ≠ 0 then s.frlLate m
      else if m.tag.toNat / 134217728 = 18 then (s.wtsMark m.tag.toNat m.addr.toNat).getD (s.frlLate m)
      else (s.markLater (toCore (m.tag.toNat / 134217728)) m).getD (s.frlLate m)
    | some r =>
      match r.kind with
      | .rdNc c _ =>
        if awaited s (toCore c) m.tag.toNat then
          (s.frlDone r).deliver (toCore c) m.tag.toNat m.lines (maskBad m.mask.toNat 16)
        else (s.frlDone r).frlLate m
      | .shard k i => (s.frlDone r).wtsData k i r.addr r.tag m.lines (m.mask != 0)
      | _ => s.frlLate m)

/-- SNP_RSP with a status (R278). -/
def State.snpRsp (s : State) (m : FMsg) (st : Nat) : State :=
  s.frlSend { fmsg 2 0x30 m.tag.toNat m.addr.toNat with status := BitVec.ofNat 4 st }

/-- SNP_DATA with the line and a status (R278). -/
def State.snpData (s : State) (m : FMsg) (l : CacheLine) (st : Nat) : State :=
  s.frlSend { fmsg 3 0x22 m.tag.toNat m.addr.toNat with
    status := BitVec.ofNat 4 st, mask := BitVec.ofNat 16 l.poison, lines := l.data }

/-- A line leaves the cache by a snoop: accesses that waited for its way or its eviction go on. -/
def State.snooped (s : State) (a : Nat) : State := ((s.delLine a).wakeWaiting (fun x => x == lineSet a)).unpark

/-- SNP_INV (R282). -/
def execSnpInv (m : FMsg) (s : State) : Out :=
  frlArrive s m 0x10 (fun s0 =>
    let s := s0.tally FRL.CACHE_CNT.SNOOPS 1
    match lineAt s m.addr.toNat with
    | none => s.snpRsp m 0
    | some l =>
      match l.st with
      | .s => (s.snpRsp m 0).snooped l.addr
      | .e => (s.snpRsp m 0).snooped l.addr
      | .m => (s.snpData m l 0).snooped l.addr
      | .is_ => s.snpRsp m 0
      | .im => s.snpRsp m 0
      | .sm => (s.snpRsp m 0).putLine { l with st := .im }
      | .mi => s.snpRsp m 2
      | .ei => s.snpRsp m 0)

/-- SNP_SHARED (R282). -/
def execSnpShared (m : FMsg) (s : State) : Out :=
  frlArrive s m 0x11 (fun s0 =>
    let s := s0.tally FRL.CACHE_CNT.SNOOPS 1
    match lineAt s m.addr.toNat with
    | none => s.snpRsp m 0
    | some l =>
      match l.st with
      | .s => s.snpRsp m 1
      | .e => (s.snpRsp m 1).putLine { l with st := .s }
      | .m => (s.snpData m l 1).putLine { l with st := .s }
      | .is_ => s.snpRsp m 0
      | .im => s.snpRsp m 0
      | .sm => s.snpRsp m 1
      | .mi => s.snpRsp m 2
      | .ei => s.snpRsp m 0)

/-- The INTR that a completed write lets go (R285). -/
def State.letIntr (s : State) (r : FReq) : State :=
  match r.intr with
  | some v => s.sendIntr v
  | none => s

/-- CMP (R165, R282, R285): a write or an eviction has ended. -/
def execCmp (m : FMsg) (s : State) : Out :=
  frlArrive s m 0x31 (fun s =>
    match s.frlFor m with
    | none => s.frlLate m
    | some r =>
      match r.kind with
      | .evict =>
        (match lineAt s r.addr with
        | some l => if l.st = .mi ∨ l.st = .ei then (s.frlDone r).lineEvicted l else s.protocol
        | none => s.protocol)
      | .queue n id => ((s.frlDone r).queueDone (toPart n) id).letIntr r
      | .event => (s.frlDone r).letIntr r
      | .mirror => (s.frlDone r).letIntr r
      | .intr => s.frlDone r
      | .fill => s.protocol
      | .rdNc _ _ => s.protocol
      | .shard _ _ => s.protocol)

/-! ### Requests that fail (R279, R287) -/

/-- A line holds modified data that its loss loses (R287, R291). -/
def dirty (l : CacheLine) : Bool :=
  decide (l.st = .m) || decide (l.st = .mi) || (decide (l.st = .sm) && l.held.any (fun h => h.write))

/-- The end of a request without its answer (R240, R287). -/
def State.frlFailed (s : State) (r : FReq) : State :=
  let s1 := (s.setAside (if r.out then [r.tag] else [])).frlDone r
  match r.kind with
  | .fill => (match lineAt s1 r.addr with
    | some l => s1.lineFailed l
    | none => s1)
  | .evict => (match lineAt s1 r.addr with
    | some l => (if l.st = .mi then s1.bump FRL.ERRORS.DIRTY_LOST 1 else s1).lineFailed l
    | none => s1)
  | .rdNc c p => s1.deliverPoison (toCore c) (r.known p)
  | .queue n id => (match (s1.part (toPart n)).outq.find? (fun e => e.id == id) with
    | some e => s1.queueFailFrl (toPart n) e
    | none => s1)
  | .event => s1
  | .mirror => s1
  | .intr => s1
  | .shard k i => s1.wtsRetry k i r.addr

/-- FERRULE_TIMEOUT (R287): outstanding request i has had no answer for FRL.TIMERS.RESP_US; one whose message a DISABLE has discarded ends
so too (R271). -/
def execFerruleTimeout (i : Nat) (s : State) : Out :=
  match s.ferrule.reqs[i]? with
  | none => .next s
  | some r =>
    act s (s.live && (r.out || r.lost) && decide (r.sent + 800 * max 10 (s.inForce FRL.TIMERS.RESP_US) ≤ s.time))
      (((s.bump FRL.ERRORS.TIMEOUTS 1).raise { code := 0x38, domain := 15, addr := r.addr, d0 := r.op }).frlFailed r)

/-- FERRULE_NACK (R279): the companion refuses a request, which ends as one that times out, but counts and records nothing of its
own. -/
def execFerruleNack (m : FMsg) (s : State) : Out :=
  frlArrive s m 0x33 (fun s =>
    match s.frlFor m with
    | none => s.frlLate m
    | some r => s.frlFailed r)

/-! ### Doorbells (R288) -/

/-- DOORBELL (R146, R180, R288): a sequencer that waits on the context's TAIL reads it again, and idle cores of its group pick. -/
def execDoorbell (k : CtxIx) (s : State) : Out :=
  let read := fun (c : CoreIx) (t : State) => match t.seg c with
    | some g =>
      if g.ctx = k.val ∧ g.waitTail then t.readTail c g else t
    | none => t
  act s s.served ((forCores (coresOf (ctxPart k.val)) read s).pickGroup k.val)

/-! ### Attaching and losing the companion (R290, R291) -/

/-- ATTACH (R290): FRL.CTRL.ATTACH is written 1. -/
def execAttach (s : State) : Out := act s (s.served && s.get FRL.STATUS.STATE == 2) (s.put FRL.STATUS.ATTACHED 1)

/-- A queue's released companion entries fail, with one record (R287, R290, R291). -/
def State.failCompanionQueue (s : State) (n : PartIx) : State :=
  let q := (s.part n).outq.filter (fun e => e.kind.companion && decide (e.state ≠ .wet))
  match q with
  | [] => s
  | e :: _ =>
    let rest := (s.part n).outq.filter (fun e => !(e.kind.companion && decide (e.state ≠ .wet)))
    let s1 := (s.bump FRL.ERRORS.WRITE_LOST q.length).raise { code := 0x3A, domain := 15, addr := e.kind.addr, d0 := q.length }
    (s1.modPart n (fun p =>
      { p with outq := rest, failFrl := !rest.isEmpty, failChart := p.failChart && !rest.isEmpty })).showOutq n

/-- Contexts in READY or RUNNING take PREEMPT_HOLD (R291 step 2). -/
def State.holdAll (s : State) : State :=
  (List.range 16384).foldl (fun t k => if t.ctxState k = 1 ∨ t.ctxState k = 2 then t.action k 4 else t) s

/-- Step 4 of R291: every remaining request ends; answers to the companion still go. -/
def State.dropRequests (s : State) : State :=
  let rs := s.ferrule.reqs
  let s1 := State.setAside { s with ferrule := { s.ferrule with
    reqs := [], waiting := s.ferrule.waiting.filter (fun x => x.req.isNone), parked := [] } } ((rs.filter (fun r => r.out)).map (fun r => r.tag))
  rs.foldl (fun t r =>
    let u := t.bump FRL.ERRORS.TIMEOUTS 1
    match r.kind with
    | .rdNc c p => u.deliverPoison (toCore c) (r.known p)
    | .shard k i => u.wtsRetry k i r.addr
    | _ => u) s1

/-- Step 3 of R291: every line goes to I, and held accesses fail. -/
def State.dropCache (s : State) : State :=
  let ls := s.ferrule.cache
  let ws := s.ferrule.waitAcc
  let s1 := (State.setCache { s with ferrule := { s.ferrule with waitAcc := [] } } []).bump FRL.ERRORS.DIRTY_LOST (ls.filter dirty).length
  (ls.foldl (fun t l => t.failAccs (l.held.filter (fun h => !h.write))) s1).failAccs ((ws.map (fun w => w.2.1)).filter (fun h => !h.write))

/-- The steps of a companion loss (R291). -/
def State.companionLost (s : State) : State :=
  let lost := (s.ferrule.cache.filter dirty).length
  let s1 := ((s.put FRL.STATUS.ATTACHED 0).bump FRL.LOSS.LOSSES 1).raise { code := 0x39, domain := 15, d0 := lost }
  let s2 := if s1.on FRL.CTRL.LOSS_HOLD then s1.holdAll else s1
  forParts allParts (fun n t => t.failCompanionQueue n) (s2.dropCache.dropRequests)

/-- COMPANION_LOSS (R291): while ATTACHED is 1 the port has stayed out of UP for GRT.CFG2.WARM_MS. -/
def execCompanionLoss (s : State) : Out :=
  let late := match (s.link 10).leftUp with
    | some t => decide (t + 800000 * s.inForce GRT.CFG2.WARM_MS ≤ s.time)
    | none => false
  act s (s.live && s.attached && s.get FRL.STATUS.STATE != 2 && late) s.companionLost

/-! ### The flush (R294) -/

/-- Begin a flush: every line is evicted (R282, R294). -/
def State.flush (s : State) : State :=
  s.ferrule.cache.foldl (fun t l => match lineAt t l.addr with
    | some x => t.evict x
    | none => t) (s.put FRL.STATUS.FLUSH_BUSY 1)

/-- CACHE_FLUSH (R294): FRL.CTRL.FLUSH is written 1. -/
def execCacheFlush (s : State) : Out := act s s.served s.flush

/-- FLUSH_COMPLETE (R294): every line is in I; held accesses go on. -/
def execFlushComplete (s : State) : Out :=
  act s (s.live && s.on FRL.STATUS.FLUSH_BUSY && flushEmpty s) ((s.put FRL.STATUS.FLUSH_BUSY 0).wakeWaiting (fun _ => true))

end Sys2Proof.Machine
end

