-- ==== Sys2Proof/Machine/Links.lean ====
section
/-! DEFINITION. Machine/Links.lean: link frames and replay (R265 to R268), training (R269 to R271), thresholds (R272) and sparing (R273,
R274), for the ten Graticule ports and the Ferrule port (R276). -/

namespace Sys2Proof.Machine

/-! ### Register fields of a link -/

def linkHalf (l : LinkIx) : Field := if isFrl l then FRL.STATUS.HALF else GRT.PSTATE_p.HALF (toPort l.val)
def linkShadow (l : LinkIx) : Field := if isFrl l then FRL.STATUS.SHADOW else GRT.PSTATE_p.SHADOW (toPort l.val)
def linkFailed (l : LinkIx) : Field := if isFrl l then FRL.STATUS.FAILED else GRT.PSTATE_p.FAILED (toPort l.val)
def linkReplays (l : LinkIx) : Field := if isFrl l then FRL.PERR.REPLAYS else GRT.PERR_p.REPLAYS (toPort l.val)
def linkUcw (l : LinkIx) : Field := if isFrl l then FRL.PERR.UCW else GRT.PERR_p.UCW (toPort l.val)
def linkCrc (l : LinkIx) : Field := if isFrl l then FRL.PERR.CRC_FAIL else GRT.PERR_p.CRC_FAIL (toPort l.val)
def linkTrainings (l : LinkIx) : Field := if isFrl l then FRL.PERR.TRAININGS else GRT.PERR_p.TRAININGS (toPort l.val)
def linkCold (l : LinkIx) : Field := if isFrl l then FRL.PERR.COLD else GRT.PERR_p.COLD (toPort l.val)
def linkDisable (l : LinkIx) : Field := if isFrl l then FRL.CTRL.DISABLE else GRT.PCTRL_p.DISABLE (toPort l.val)
def linkLane (l : LinkIx) : Field := if isFrl l then FRL.CTRL.LANE else GRT.PCTRL_p.LANE (toPort l.val)
/-- The register of GRT.LANE_CE_p for lanes 4i to 4i + 3. -/
def linkCe (l : LinkIx) (i : Nat) : Field :=
  if isFrl l then (if i = 0 then FRL.LANE_CE0.CE else if i = 1 then FRL.LANE_CE1.CE else FRL.LANE_CE2.CE)
  else (if i = 0 then GRT.LANE_CE0_p.CE (toPort l.val) else if i = 1 then GRT.LANE_CE1_p.CE (toPort l.val)
    else GRT.LANE_CE2_p.CE (toPort l.val))

/-- The error domain of a link (R315). -/
def linkDomain (l : LinkIx) : Nat := l.val + 5

/-- An error record of a link; DETAIL0 names the port in bits [3:0]. -/
def State.linkRecord (s : State) (l : LinkIx) (code d : Nat) : State :=
  s.raise { code := code, domain := linkDomain l, d0 := l.val + d }

/-- A link takes a state; where the Ferrule port's changes, it tells the companion (R289). -/
def State.linkTo (s : State) (l : LinkIx) (v : Nat) : State :=
  let t := s.put (linkState l) v
  if isFrl l && s.get (linkState l) != v then t.sendIntr (t.intrVec 0 3) else t

/-- k of R271, and the fields that show it. -/
def State.setK (s : State) (l : LinkIx) (k : Nat) : State :=
  let t := s.modLink l (fun x => { x with k := k })
  if isFrl l then t else (t.put (GRT.PSTATE_p.ATTEMPTS (toPort l.val)) (min 15 k)).put (GRT.PSTATE_p.ATTEMPTS_FULL (toPort l.val)) k

/-! ### Entering training (R269, R271, R274) -/

/-- A link trains: a sparing in progress ends, with what its lane operation still had to say (R271, R274). -/
def State.train (s : State) (l : LinkIx) : State :=
  ((s.modLink l (fun k =>
    { k with backoff := none, ident := none, identSent := false, sparing := none, heldLanes := [], laneOp := .none })).bump (linkTrainings l) 1).linkTo l 1

/-- A link leaves UP and trains. -/
def State.leaveUp (s : State) (l : LinkIx) : State := (s.modLink l (fun k => { k with leftUp := some s.time })).train l

/-! ### Retiring lanes (R272 to R274) -/

/-- Mark a physical lane failed, with its record and, for the Ferrule port, its interrupt (R273, R289). -/
def State.markLane (s : State) (l : LinkIx) (phys reason : Nat) : State :=
  let t := (s.put (linkFailed l) (Nat.lor (s.get (linkFailed l)) (2 ^ phys))).linkRecord l 0x31 (16 * phys + 256 * reason)
  if isFrl l then t.sendIntr (t.intrVec 0 3) else t

/-- The logical lane that a physical lane carries here. -/
def LinkSt.logical (k : LinkSt) (phys : Nat) : Option Nat := (findIdx (fun x => x == phys) k.lanes 0).map Prod.fst

/-- Lanes go out of use by training: HALF_REQ for the logical lane of the first goes in a control word, and the port trains warm
without them (R271, R274). -/
def State.halfWidth (s : State) (l : LinkIx) (lanes : List (Nat × Nat)) : State :=
  let k := s.link l
  let lane := (lanes.findSome? (fun p => k.logical p.1)).getD 15
  let t := lanes.foldl (fun u p => u.markLane l p.1 p.2) s
  let v := (t.modLink l (fun x => { x with laneOp := .halfReq, laneArg := lane }))
  (if k.buf.length < 512 then v.closeFrame l else v).leaveUp l

/-- A physical lane passes a threshold, for a reason of R320 (R271 to R274). -/
def State.retire (s : State) (l : LinkIx) (phys reason : Nat) : State :=
  let k := s.link l
  if phys > 8 || bit (s.get (linkFailed l)) phys || k.heldLanes.any (fun p => p.1 == phys) then s
  else if s.get (linkState l) ≠ 2 then s.markLane l phys reason
  else
    let used := (k.logical phys).isSome || k.spare == some phys
    if k.sparing.isSome && used && k.sparing.map (fun p => p.phys) != some phys then
      s.modLink l (fun k => { k with heldLanes := k.heldLanes ++ [(phys, reason)] })
    else match k.logical phys with
    | none =>
      if k.spare = some phys then (s.markLane l phys 4).modLink l (fun k => { k with spare := none })
      else s.markLane l phys reason
    | some i =>
      if k.spare.isSome && !k.spareUsed && s.get (linkHalf l) == 0 then
        ((s.markLane l phys reason).modLink l (fun k =>
          { k with sparing := some { phys := phys, logical := i }, laneOp := .spareReq, laneArg := i })).tell l
      else s.halfWidth l [(phys, reason)]

/-- The lane with the most corrected symbols in the window; a tie goes to the lower lane (R272). -/
def worstLane (k : LinkSt) : Nat :=
  ((List.range 9).foldl (fun (b : Nat × Nat) i => if b.2 < k.laneErr.getD i 0 then (i, k.laneErr.getD i 0) else b)
    (0, k.laneErr.getD 0 0)).1

/-- Corrected symbols of a frame count in the window; a lane above the limit is retired (R272). -/
def State.laneErrors (s : State) (l : LinkIx) (errs : List Nat) : State :=
  (List.range 9).foldl (fun t i =>
    let n := (t.link l).laneErr.getD i 0 + errs.getD i 0
    let u := t.modLink l (fun k => { k with laneErr := k.laneErr.set i n })
    if s.inForce GRT.CFG2.LANE_CE_LIMIT < n && t.get (linkState l) == 2 then u.retire l i 0 else u) s

/-- A bad frame: its uncorrectable codewords, or its CRC mismatch, count in the window, and the next control word says NAK (R267); the
first above the limit retires the worst lane (R272). -/
def State.badFrame (s : State) (l : LinkIx) (m : Nat) : State :=
  let k := s.link l
  let n := k.badFrames + m
  let many := decide (s.inForce GRT.CFG.UCW_LIMIT < n)
  let t := s.modLink l (fun x => { x with badFrames := n, ucwOver := k.ucwOver || many, awaiting := true, nak := true, news := true })
  if many && !k.ucwOver then t.retire l (worstLane (t.link l)) 1 else t

/-! ### Replay (R267, R268) -/

/-- Every unacknowledged frame goes onto the lanes again, in SEQ order, with REPLAY = 1 (R267, R270). -/
def State.resendFrames (s : State) (l : LinkIx) : State :=
  s.modLink l (fun k => k.buf.foldl (fun j f => j.emitFrame (isFrl l) f true) k)

/-- Resend every unacknowledged frame; a frame replayed REPLAY_LIMIT times takes the port out of UP (R267, R268). -/
def State.replayLink (s : State) (l : LinkIx) : State :=
  let t := ((s.tally (linkReplays l) 1).resendFrames l).modLink l (fun k =>
    { k with buf := k.buf.map (fun f => { f with replays := f.replays + 1 }), lastAck := s.time })
  if (t.link l).buf.any (fun f => decide (max 1 (s.inForce GRT.CFG.REPLAY_LIMIT) ≤ f.replays)) then
    (t.linkRecord l 0x30 0).leaveUp l
  else t

/-- REPLAY_TIMEOUT (R267): ACK_SEQ has not advanced for REPLAY_TIMEOUT_US while frames are outstanding. -/
def execReplayTimeout (l : LinkIx) (s : State) : Out :=
  let k := s.link l
  act s (s.live && s.get (linkState l) == 2 && !k.buf.isEmpty
      && decide (k.lastAck + 800 * max 1 (s.inForce GRT.CFG2.REPLAY_TIMEOUT_US) ≤ s.time)) (s.replayLink l)

/-! ### Lane operations (R273, R274) -/

/-- SPARE_REQ for a logical lane reaches this end's transmitter: it shadows the lane and stops rotating. -/
def State.spareAsked (s : State) (l : LinkIx) (lane : Nat) : State :=
  s.modLink l (fun k => if k.shadowHeld && k.shadowTx != lane then k else { k with shadowTx := lane, shadowHeld := true, news := true })

/-- SPARE_DONE for a logical lane: this end's transmitter stops driving the physical lane that carried it. -/
def State.spareEnded (s : State) (l : LinkIx) (lane : Nat) : State :=
  s.modLink l (fun k => match k.txLanes[lane]? with
    | some p => if k.quiet.contains p then k else { k with quiet := k.quiet ++ [p] }
    | none => k)

/-- HALF_REQ: the peer trains without a lane. -/
def State.halfAsked (s : State) (l : LinkIx) : State := s.leaveUp l

/-- A lane operation of a control word takes effect. -/
def State.laneOpIn (s : State) (l : LinkIx) (op : LaneOp) (lane : Nat) : State :=
  match op with
  | .none => s
  | .reserved => s
  | .spareReq => s.spareAsked l lane
  | .spareDone => s.spareEnded l lane
  | .halfReq => s.halfAsked l

/-- A link is UP on a living module. -/
def State.linkUp (s : State) (l : LinkIx) : Bool := s.live && s.get (linkState l) == 2

/-- SPARE_REQ (R273, R274). -/
def execSpareReq (l : LinkIx) (lane : BitVec 4) (s : State) : Out := act s (s.linkUp l) (s.spareAsked l lane.toNat)
/-- SPARE_DONE (R273). -/
def execSpareDone (l : LinkIx) (lane : BitVec 4) (s : State) : Out := act s (s.linkUp l) (s.spareEnded l lane.toNat)
/-- HALF_REQ (R271). -/
def execHalfReq (l : LinkIx) (s : State) : Out := act s (s.linkUp l) (s.halfAsked l)

/-- SPARE_SWITCH (R273, R274): the spare is locked; the receiver reads the logical lane from it, and a lane held back goes to half
width. -/
def execSpareSwitch (l : LinkIx) (s : State) : Out :=
  let k := s.link l
  match k.sparing with
  | none => .next s
  | some p =>
    match p.lock with
    | none => .next s
    | some t =>
      if s.linkUp l && decide (t ≤ s.time) then
        let s1 := (s.modLink l (fun k =>
          { k with lanes := k.lanes.set p.logical (k.spare.getD 8), spareUsed := true, sparing := none, heldLanes := [],
                   laneOp := .spareDone, laneArg := p.logical })).tell l
        .next (match k.heldLanes with
          | [] => s1
          | held => (if (s1.link l).buf.length < 512 then s1.closeFrame l else s1).halfWidth l held)
      else .next s

/-- SHADOW_ROTATION (R273): the transmitter's SHADOW moves on every SHADOW_MS while it has a spare and no lane is retired. -/
def execShadowRotation (l : LinkIx) (s : State) : Out :=
  let k := s.link l
  let ms := s.inForce GRT.CFG3.SHADOW_MS
  act s (s.linkUp l && k.txSpare.isSome && !k.shadowHeld && ms != 0 && decide (k.rotateAt ≤ s.time))
    (s.modLink l (fun k =>
      { k with shadowTx := if k.shadowTx < 7 then k.shadowTx + 1 else 0, rotateAt := s.time + 800000 * ms, news := true }))

/-! ### Frames received (R265 to R267) -/

/-- How far b lies behind a in SEQ, modulo 4,096. -/
def seqBehind (a b : Nat) : Nat := (a + 4096 - b % 4096) % 4096

/-- ACK_SEQ of a control word: covered frames leave the replay buffer (R267). -/
def State.ackFrames (s : State) (l : LinkIx) (a : Nat) : State :=
  s.modLink l (fun k =>
    let rest := k.buf.filter (fun f => !(decide (seqBehind a f.seq < 2048)))
    { k with buf := rest, lastAck := if rest.length < k.buf.length then s.time else k.lastAck })

/-- Credits of a control word (R241, R266, R286). -/
def State.takeCredits (s : State) (l : LinkIx) (cs : List Nat) : State :=
  if isFrl l then
    { s with ferrule := { s.ferrule with credits := (List.range 4).map (fun i =>
        min (if i = 3 then 8192 else 1024) (s.ferrule.credits.getD i 0 + cs.getD i 0)) } }
  else s.modLink l (fun k => { k with credits := (List.range 16).map (fun i => min 1024 (k.credits.getD i 0 + cs.getD i 0)) })

/-- SHADOW of a control word: once it names the lane being spared, the spare locks within 1 µs (R273). -/
def State.seeShadow (s : State) (l : LinkIx) (v : Nat) : State :=
  (s.put (linkShadow l) v).modLink l (fun k =>
    { k with
      sparing := k.sparing.map (fun p => if p.lock = none ∧ p.logical = v then { p with lock := some (s.time + 800) } else p)
      laneOp := (match k.sparing with
        | some p => if p.logical = v then .none else k.laneOp
        | none => k.laneOp) })

/-- What waits on a link goes as room allows. -/
def State.pumpLink (s : State) (l : LinkIx) : State := if isFrl l then s.frlPump else s.pump l

/-- The control word of a frame accepted (R266, R267). -/
def State.control (s : State) (l : LinkIx) (f : Ctrl) : State :=
  let s1 := ((s.ackFrames l f.ack).takeCredits l f.credit).seeShadow l f.shadow
  let s2 := if f.nak then s1.replayLink l else s1
  (s2.laneOpIn l f.op f.lane).pumpLink l

/-- The flits of a frame accepted: packets and messages that are whole wait in the receiver for the command that takes them (R241,
R265, R276). -/
def State.takeBody (s : State) (l : LinkIx) (body : List Byte) : State :=
  let (whole, part) := takeFlits (isFrl l) body (flitRoom (isFrl l) / 16) (s.link l).part
  let t := s.modLink l (fun k => { k with part := part })
  if isFrl l then { t with ferrule := { t.ferrule with rx := t.ferrule.rx ++ whole.map fmsgOf } }
  else t.modLink l (fun k => { k with rx := k.rx ++ whole.map packetOf })

/-- A frame that decodes and whose CRC matches: the next one in order is accepted, another is discarded (R267). -/
def State.goodFrame (s : State) (l : LinkIx) (seq : Nat) (replay : Bool) (body : List Byte) : State :=
  let k := s.link l
  if seq = (k.ackRx + 1) % 4096 then
    if k.awaiting && !replay then s
    else ((s.modLink l (fun k => { k with ackRx := seq, awaiting := false, news := true })).takeBody l body).control l (ctrlOf (isFrl l) body)
  else if seqBehind k.ackRx seq < 2048 then s
  else s.modLink l (fun k => { k with awaiting := true })

/-- The physical lane that the spare shadows in a frame, while the spare is not in use: the frame's own control word says it, or, where
that cannot be read, the last one that could (R273). -/
def State.shadowed (s : State) (l : LinkIx) (x : Rx) : Option Nat :=
  let k := s.link l
  if k.spareUsed then none
  else match x with
    | .frame _ _ body => k.lanes[(ctrlOf (isFrl l) body).shadow]?
    | _ => k.lanes[s.get (linkShadow l)]?

/-- FRAME_RECEIVE (R264 to R267): the codewords are decoded and their corrected symbols counted; a bad frame is discarded and counted;
the next one in order is accepted; a duplicate is discarded. -/
def execFrameReceive (l : LinkIx) (f : RxFrame) (s : State) : Out :=
  if s.linkUp l then
    let k := s.link l
    let x := rxFrame k.lanes f.words
    let s1 := s.laneErrors l (rxErrors k.lanes k.spare (s.shadowed l x) f.words)
    if !(s1.linkUp l) then .next s1
    else match x with
      | .nothing => .next s1
      | .ucw n => .next ((s1.tally (linkUcw l) 1).badFrame l n)
      | .crc => .next ((s1.tally (linkCrc l) 1).badFrame l 1)
      | .frame seq replay body => .next (s1.goodFrame l seq replay body)
  else .next s

/-! ### Training (R269 to R271) -/

/-- The lanes of step 5 of R269: logical to physical lanes, the spare, half width; none with fewer than four good lanes. -/
def laneMap (failed : Nat) : Option (List Nat × Option Nat × Bool) :=
  let good := (List.range 9).filter (fun i => !bit failed i)
  if 8 ≤ good.length then some (good.take 8, good[8]?, false)
  else if 4 ≤ good.length then some (good.take 4, none, true)
  else none

/-- The peer's identity agrees (R269, R276). -/
def State.identOk (s : State) (l : LinkIx) (w : Identity) : Bool :=
  if isFrl l then w.role
  else s.portUsed l.val && w.module.toNat == s.neighbour l.val && w.port.toNat == Nat.xor l.val 1

/-- BOOT_ID and module of an identity word; the Ferrule port's carries no module (R276). -/
def identWho (w : Identity) (l : LinkIx) : Nat × Nat := (w.bootId.toNat, if isFrl l then 0 else w.module.toNat)

/-- This end's identity word (R269, R276). -/
def State.ownIdent (s : State) (l : LinkIx) : Identity :=
  let k := s.link l
  { module := if isFrl l then 0 else BitVec.ofNat 12 s.selfModule, port := if isFrl l then 0 else BitVec.ofNat 4 l.val, role := false,
    bootId := Config.bootId s.bootIx, seq := BitVec.ofNat 12 k.seqTx, ackSeq := BitVec.ofNat 12 k.ackRx }

/-- This end's identity word goes out, once in a training (R269 step 7). -/
def State.sendIdent (s : State) (l : LinkIx) : State :=
  if (s.link l).identSent then s
  else s.modLink l (fun k => { k with identSent := true, wire := k.wire ++ [.ident (s.ownIdent l)] })

/-- A training that goes on comes to step 7: the rules give the steps before it only a longest time, so a free value says in which aclk
(R269; log entry 168). -/
def State.identDue (s : State) (l : LinkIx) : State :=
  if s.get (linkState l) == 1 && (Config.freeWord s.free).getLsbD (16 + l.val) then s.sendIdent l else s

/-- Step 7 of R269: both ends send their identity words; they agree, or the port is MISWIRED. -/
def State.identify (s0 : State) (l : LinkIx) (w : Identity) : State :=
  let s := s0.sendIdent l
  let show_ := fun (t : State) =>
    if isFrl l then t.put FRL.PEER_BOOT.BOOT_ID w.bootId.toNat
    else (t.put (GRT.PSTATE_p.PEER_MODULE (toPort l.val)) w.module.toNat).put (GRT.PSTATE_p.PEER_PORT (toPort l.val)) w.port.toNat
  if !s.identOk l w then ((show_ s).linkRecord l 0x33 (16 * w.module.toNat + 65536 * w.port.toNat)).linkTo l 3
  else
    let warm := s.warmOpen l && (s.link l).peer == some (identWho w l)
    let s1 := show_ (s.modLink l (fun k => { k with ident := some warm, met := some (identWho w l) }))
    if warm then s1.ackFrames l w.ackSeq.toNat else s1

/-- IDENTITY_WORD (R269, R271): step 7 of a training; a port that is UP trains from step 7. -/
def execIdentityWord (l : LinkIx) (w : Identity) (s : State) : Out :=
  let st := s.get (linkState l)
  if s.live && (st == 1 || st == 2) then .next ((if st = 2 then s.leaveUp l else s).identify l w)
  else .next s

/-- A cold training ends (R270): the replay buffer and what is being filled are discarded, each packet of them counted, and a packet
received in part; SEQ and credits start again. On the Ferrule port it is a companion loss; a training with another BOOT_ID is always
cold (R270, R291). -/
def State.coldStart (s : State) (l : LinkIx) : State :=
  let lost := ((s.link l).buf.map (fun f => f.ends)).sum + (s.link l).ends
  let s1 := (s.discards l lost).bump (linkCold l) 1
  let s2 := s1.modLink l (fun k =>
    { k with buf := [], open_ := [], ends := 0, part := [], seqTx := 0, ackRx := 0, awaiting := false, nak := false,
             credits := List.replicate 16 1024, freed := List.replicate 16 0 })
  if isFrl l then
    let s3 := { s2 with ferrule := { s2.ferrule with credits := [1024, 1024, 1024, 8192], freed := [0, 0, 0, 0] } }
    if s3.attached then s3.companionLost else s3
  else s2

/-- Step 8 of R269: the port is UP, with lanes `m` to receive on and `x` to send on; a warm one resends from the peer's ACK_SEQ + 1. -/
def State.linkStart (s : State) (l : LinkIx) (m x : List Nat × Option Nat × Bool) (warm : Bool) : State :=
  let ms := 800000 * s.inForce GRT.CFG3.SHADOW_MS
  let s1 := s.modLink l (fun k =>
    { k with
      leftUp := none
      ident := none
      peer := k.met
      lastAck := s.time
      lanes := m.1
      spare := m.2.1
      spareUsed := false
      txLanes := x.1
      txSpare := x.2.1
      quiet := []
      laneOp := .none
      shadowHeld := false
      shadowTx := if x.2.1.isSome then 0 else 15
      ucwOver := false
      rotateAt := s.time + ms
      windowEnd := s.time + 800 * max 1 (s.inForce GRT.CFG.WINDOW_US)
      laneErr := List.replicate 9 0
      badFrames := 0
      buf := k.buf.map (fun f => { f with replays := 0 }) })
  let s2 := if warm then s1.resendFrames l else s1.coldStart l
  let s3 := (s2.setK l 0).putB (linkHalf l) m.2.2
  (s3.linkTo l 2).pumpLink l

/-- Step 4 of R269: a lane whose PRBS31 has more than 22,400 bits wrong in 10 ms, 10^−5 of 2.24 × 10^9, is marked failed. -/
def State.prbs (s : State) (l : LinkIx) (errs : Vector Nat 9) : State :=
  let bad := (List.range 9).foldl (fun m i => if 22400 < errs.toList.getD i 0 then m + 2 ^ i else m) 0
  s.put (linkFailed l) (Nat.lor (s.get (linkFailed l)) bad)

/-- TRAINING_COMPLETE (R269 to R271): both ends have come through step 8; the port is UP (log entry 152). -/
def execTrainingComplete (d : Trained) (s : State) : Out :=
  let t := s.prbs d.link d.errs
  match (s.link d.link).ident, laneMap (t.get (linkFailed d.link)), laneMap d.peer.toNat with
  | some warm, some m, some x => act s (s.live && s.get (linkState d.link) == 1) (t.linkStart d.link m x warm)
  | _, _, _ => .next s

/-- RETRAIN_LIMIT as it acts (R275). -/
def State.retrainLimit (s : State) : Nat := max 1 (s.inForce GRT.CFG3.RETRAIN_LIMIT)

/-- TRAINING_FAILURE (R269, R271, R276): past step 4 lanes may be marked; backoff, or HELD; the Ferrule port never enters HELD. -/
def execTrainingFailure (l : LinkIx) (how : TrainFail) (s0 : State) : Out :=
  let s := if s0.live && s0.get (linkState l) == 1 && decide (5 ≤ how.step.val) then s0.prbs l how.errs else s0
  let k := (s.link l).k
  if s.live && s.get (linkState l) == 1 then
    let t := if 7 ≤ how.step.val then s.sendIdent l else s
    if !isFrl l && s.retrainLimit ≤ k + 1 then .next ((t.linkRecord l 0x34 0).linkTo l 4)
    else
      let e := if isFrl l then min k (s.retrainLimit - 1) else k
      let s1 := (t.linkRecord l 0x32 (16 * how.step.val + 256 * k)).modLink l (fun x =>
        { x with backoff := some (s.time + 8000000 * 2 ^ min e 10) })
      .next ((s1.setK l (min 254 (k + 1))).linkTo l 0)
  else .next s

/-- BACKOFF_END (R271): the next training. -/
def execBackoffEnd (l : LinkIx) (s : State) : Out :=
  match (s.link l).backoff with
  | none => .next s
  | some t => act s (s.live && (s.link l).released && s.get (linkState l) == 0 && decide (t ≤ s.time)) (s.train l)

/-- Packets that wait at a port are discarded, and the receivers that hold them are free (R241, R263, R271, R276). -/
def State.dropWaiting (s : State) (l : LinkIx) : State :=
  if isFrl l then
    let gone := s.ferrule.waiting.filterMap (fun x => x.req)
    { s with ferrule := { s.ferrule with
      waiting := []
      reqs := s.ferrule.reqs.map (fun r => if gone.contains r.no then { r with lost := true, sent := s.time } else r) } }
  else
    let w := (s.link l).waiting
    let t := (s.discards l w.length).modLink l (fun k => { k with waiting := [] })
    w.foldl (fun u p => match p.2 with | some q => u.freeUnits q p.1 | none => u) t

/-- WARM_WINDOW_EXPIRY (R263): WARM_MS after a Graticule port left UP, packets that wait are discarded; not so on Ferrule (R276). -/
def execWarmWindowExpiry (l : LinkIx) (s : State) : Out :=
  act s (s.live && !isFrl l && s.get (linkState l) != 2 && (s.link l).leftUp.isSome && !s.warmOpen l) (s.dropWaiting l)

/-- LOSS_OF_SIGNAL (R271, R272): on two or more lanes the port trains warm; on one the lane is retired. -/
def execLossOfSignal (l : LinkIx) (lanes : BitVec 9) (s : State) : Out :=
  let ls := (List.range 9).filter (fun i => bit lanes.toNat i)
  if s.linkUp l then
    match ls with
    | [] => .next s
    | [i] => .next (s.retire l i 2)
    | _ => .next ((s.linkRecord l 0x30 16).leaveUp l)
  else .next s

/-- Four lane counts as one register of GRT.LANE_CE_p (R275). -/
def ceWord (errs : List Nat) (i : Nat) : Nat :=
  (List.range 4).foldl (fun w j => w + min 65535 (errs.getD (4 * i + j) 0) * 2 ^ (16 * j)) 0

/-- THRESHOLD_WINDOW_END (R272, R275). -/
def execThresholdWindowEnd (l : LinkIx) (s : State) : Out :=
  let e := (s.link l).laneErr
  act s (s.linkUp l && decide ((s.link l).windowEnd ≤ s.time))
    ((((s.put (linkCe l 0) (ceWord e 0)).put (linkCe l 1) (ceWord e 1)).put (linkCe l 2) (ceWord e 2)).modLink l (fun k =>
      { k with laneErr := List.replicate 9 0, badFrames := 0, ucwOver := false,
               windowEnd := k.windowEnd + 800 * max 1 (s.inForce GRT.CFG.WINDOW_US) }))

/-! ### Port control (R271, R274) -/

/-- DISABLE is written 1. -/
def State.disablePort (s : State) (l : LinkIx) : State :=
  let t := s.put (linkDisable l) 1
  if t.get (linkState l) = 5 then t
  else
    let u := if t.get (linkState l) = 2 then t.modLink l (fun k => { k with leftUp := some s.time }) else t
    ((u.dropWaiting l).modLink l (fun k => { k with backoff := none, ident := none, sparing := none, heldLanes := [] })).linkTo l 5

/-- DISABLE is written 0: DOWN, to train anew at once. -/
def State.enablePort (s : State) (l : LinkIx) : State :=
  let t := s.put (linkDisable l) 0
  if t.get (linkState l) = 5 then ((t.setK l 0).modLink l (fun k => { k with backoff := some s.time })).linkTo l 0 else t

/-- RETRAIN is written 1. -/
def State.retrainPort (s : State) (l : LinkIx) : State :=
  let st := s.get (linkState l)
  if !(s.link l).released then s
  else if st = 2 then s.leaveUp l
  else if st = 0 ∨ st = 1 then s.train l
  else if st = 3 ∨ st = 4 then (s.setK l 0).train l
  else s

/-- PORT_DISABLE (R271). -/
def execPortDisable (l : LinkIx) (s : State) : Out := act s s.settable (s.disablePort l)
/-- PORT_ENABLE (R271). -/
def execPortEnable (l : LinkIx) (s : State) : Out := act s s.settable (s.enablePort l)
/-- PORT_RETRAIN (R271). -/
def execPortRetrain (l : LinkIx) (s : State) : Out := act s s.served (s.retrainPort l)
/-- LANE_RETIRE (R274): RETIRE is written for a physical lane. -/
def execLaneRetire (l : LinkIx) (lane : BitVec 4) (s : State) : Out :=
  act s s.served ((s.put (linkLane l) lane.toNat).retire l lane.toNat 3)

end Sys2Proof.Machine
end

