-- ==== Sys2Proof/Machine/Sha.lean ====
section
/-! DEFINITION. Machine/Sha.lean: the digests of FIPS 180-4: SHA-384 (R297, R341) and SHA-256. -/

namespace Sys2Proof.Machine

/-! ### The constants

FIPS 180-4 takes them from the first primes: the first bits of the fractional parts of their roots. -/

/-- The `k`-th root of `n`, rounded down, its last `b` bits put behind `r` from the top one on. -/
def digitRoot (k n : Nat) : Nat → Nat → Nat
  | 0, r => r
  | b + 1, r => digitRoot k n b (if (r + 2 ^ b) ^ k ≤ n then r + 2 ^ b else r)

/-- The first `w` bits of the fractional part of the `k`-th root of `p`, for a root below 8. -/
def rootBits (w k p : Nat) : BitVec w := BitVec.ofNat w (digitRoot k (p * 2 ^ (k * w)) (w + 3) 0)

/-- The first 80 primes: 409 is the 80th, and none of them but those below 21 has a divisor below 21. -/
def shaPrimes : List Nat := (List.range 410).filter (fun p => 2 ≤ p && (List.range 21).all (fun d => d < 2 || p ≤ d || p % d != 0))

/-- The constants of the 80 rounds of SHA-512 and SHA-384: cube roots. -/
def shaK64 : List (BitVec 64) := shaPrimes.map (rootBits 64 3)

/-- The constants of the 64 rounds of SHA-256: cube roots of the first 64 primes. -/
def shaK32 : List (BitVec 32) := (shaPrimes.take 64).map (rootBits 32 3)

/-- The initial hash value of SHA-256: square roots of the first eight primes. -/
def sha256Init : List (BitVec 32) := (shaPrimes.take 8).map (rootBits 32 2)

/-- The initial hash value of SHA-384: square roots of the ninth to the sixteenth prime. -/
def sha384Init : List (BitVec 64) := ((shaPrimes.drop 8).take 8).map (rootBits 64 2)

/-! ### The digests -/

/-- A number of bytes as a bit vector, most significant byte first. -/
def beWord (w : Nat) (bs : List Byte) : BitVec w := BitVec.ofNat w (bs.foldl (fun a b => 256 * a + b.toNat) 0)

/-- The k bytes of a number, most significant first. -/
def toBE (k v : Nat) : List Byte := (List.range k).map (fun i => BitVec.ofNat 8 (v / 256 ^ (k - 1 - i)))

/-- Cut a list of bytes into `k` pieces of `n` bytes. -/
def cutBytes (n : Nat) : Nat → List Byte → List (List Byte)
  | 0, _ => []
  | k + 1, bs => bs.take n :: cutBytes n k (bs.drop n)

/-- The message schedule: `k` more words behind those of a window of 16, newest last. -/
def shaSchedule {w : Nat} (s0 s1 : BitVec w → BitVec w) : Nat → List (BitVec w) → List (BitVec w)
  | 0, win => win
  | k + 1, win =>
    let x := s1 (win.getD 14 0) + win.getD 9 0 + s0 (win.getD 1 0) + win.getD 0 0
    win.headD 0 :: shaSchedule s0 s1 k (win.drop 1 ++ [x])

/-- One round: the eight working variables, and the sum of the round's constant and word. -/
def shaRound {w : Nat} (e0 e1 : BitVec w → BitVec w) (v : List (BitVec w)) (kw : BitVec w) : List (BitVec w) :=
  match v with
  | [a, b, c, d, e, f, g, h] =>
    let t1 := h + e1 e + ((e &&& f) ^^^ (~~~e &&& g)) + kw
    let t2 := e0 a + ((a &&& b) ^^^ (a &&& c) ^^^ (b &&& c))
    [t1 + t2, a, b, c, d + t1, e, f, g]
  | _ => v

/-- A block of a message goes into the hash value. -/
def shaBlock {w : Nat} (s0 s1 e0 e1 : BitVec w → BitVec w) (ks : List (BitVec w)) (h : List (BitVec w)) (block : List Byte) :
    List (BitVec w) :=
  let ws := shaSchedule s0 s1 (ks.length - 16) ((cutBytes (w / 8) 16 block).map (beWord w))
  let v := (ks.zip ws).foldl (fun v p => shaRound e0 e1 v (p.1 + p.2)) h
  (h.zip v).map (fun p => p.1 + p.2)

/-- The padding of a message: a 1 bit, 0 bits, and its length in bits in the last w/4 bytes of a block of 2w bytes. -/
def shaPad (w : Nat) (bs : List Byte) : List Byte :=
  let used := bs.length + 1 + w / 4
  bs ++ (0x80 :: List.replicate ((2 * w - used % (2 * w)) % (2 * w)) 0) ++ toBE (w / 4) (8 * bs.length)

/-- A digest of FIPS 180-4, as the bytes of all eight words of the hash value. -/
def shaDigest {w : Nat} (s0 s1 e0 e1 : BitVec w → BitVec w) (ks init : List (BitVec w)) (bs : List Byte) : List Byte :=
  let m := shaPad w bs
  let h := (cutBytes (2 * w) (m.length / (2 * w)) m).foldl (fun h b => shaBlock s0 s1 e0 e1 ks h b) init
  h.flatMap (fun x => toBE (w / 8) x.toNat)

/-- SHA-384. -/
def sha384 (bs : List Byte) : List Byte :=
  (shaDigest (fun x => x.rotateRight 1 ^^^ x.rotateRight 8 ^^^ x >>> 7) (fun x => x.rotateRight 19 ^^^ x.rotateRight 61 ^^^ x >>> 6)
    (fun x => x.rotateRight 28 ^^^ x.rotateRight 34 ^^^ x.rotateRight 39)
    (fun x => x.rotateRight 14 ^^^ x.rotateRight 18 ^^^ x.rotateRight 41) shaK64 sha384Init bs).take 48

/-- SHA-256. -/
def sha256 (bs : List Byte) : List Byte :=
  shaDigest (fun x => x.rotateRight 7 ^^^ x.rotateRight 18 ^^^ x >>> 3) (fun x => x.rotateRight 17 ^^^ x.rotateRight 19 ^^^ x >>> 10)
    (fun x => x.rotateRight 2 ^^^ x.rotateRight 13 ^^^ x.rotateRight 22)
    (fun x => x.rotateRight 6 ^^^ x.rotateRight 11 ^^^ x.rotateRight 25) shaK32 sha256Init bs

end Sys2Proof.Machine
end

