-- ==== Sys2Proof/Machine/Zstd.lean ====
section
/-! DEFINITION. Machine/Zstd.lean: one Zstandard frame of RFC 8878, as R307 admits it: no dictionary, a window of at most 8 MiB, no skippable
frame. Every function answers none where the bytes are no such frame. -/

namespace Sys2Proof.Machine

/-! ### XXH64 -/

/-- The five primes of XXH64. -/
def xxP (i : Nat) : BitVec 64 :=
  [0x9E3779B185EBCA87#64, 0xC2B2AE3D27D4EB4F#64, 0x165667B19E3779F9#64, 0x85EBCA77C2B2AE63#64, 0x27D4EB2F165667C5#64].getD i 0

/-- A round of XXH64. -/
def xxRound (acc v : BitVec 64) : BitVec 64 := ((acc + v * xxP 1).rotateLeft 31) * xxP 0

/-- Stripes of 32 bytes go into the four accumulators. -/
def xxStripes : Nat → List Byte → List (BitVec 64) → List (BitVec 64)
  | 0, _, acc => acc
  | k + 1, bs, acc =>
    xxStripes k (bs.drop 32) ((List.range 4).map (fun i => xxRound (acc.getD i 0) (BitVec.ofNat 64 (leNat ((bs.drop (8 * i)).take 8)))))

/-- The last bytes, fewer than 32, go into the hash. -/
def xxTail : Nat → List Byte → BitVec 64 → BitVec 64
  | 0, _, h => h
  | k + 1, bs, h =>
    if 8 ≤ bs.length then
      xxTail k (bs.drop 8) ((h ^^^ xxRound 0 (BitVec.ofNat 64 (leNat (bs.take 8)))).rotateLeft 27 * xxP 0 + xxP 3)
    else if 4 ≤ bs.length then
      xxTail k (bs.drop 4) ((h ^^^ (BitVec.ofNat 64 (leNat (bs.take 4)) * xxP 0)).rotateLeft 23 * xxP 1 + xxP 2)
    else match bs with
      | [] => h
      | b :: r => xxTail k r ((h ^^^ (b.setWidth 64 * xxP 4)).rotateLeft 11 * xxP 0)

/-- XXH64 with seed 0. -/
def xxh64 (bs : List Byte) : Nat :=
  let n := bs.length / 32
  let h0 := if n = 0 then xxP 4
    else
      let v := xxStripes n bs [xxP 0 + xxP 1, xxP 1, 0, 0 - xxP 0]
      let s := (v.getD 0 0).rotateLeft 1 + (v.getD 1 0).rotateLeft 7 + (v.getD 2 0).rotateLeft 12 + (v.getD 3 0).rotateLeft 18
      v.foldl (fun h a => (h ^^^ xxRound 0 a) * xxP 0 + xxP 3) s
  let h1 := xxTail 32 (bs.drop (32 * n)) (h0 + BitVec.ofNat 64 bs.length)
  let h2 := (h1 ^^^ h1 >>> 33) * xxP 1
  let h3 := (h2 ^^^ h2 >>> 29) * xxP 2
  (h3 ^^^ h3 >>> 32).toNat

/-! ### Bits read backwards -/

/-- A bitstream read from its end: the number in its bytes, and the bits that are left; past its beginning lie zeros. -/
structure Back where
  val  : Nat
  left : Int
deriving DecidableEq, Repr

/-- A bitstream begins behind the highest set bit of its last byte, which is not 0. -/
def backStart (bs : List Byte) : Option Back :=
  match bs.getLast? with
  | some b => if b = 0 then none else some ⟨leNat bs, (leNat bs).log2⟩
  | none => none

/-- The next k bits, as a number whose highest bit is the first one read. -/
def Back.peek (r : Back) (k : Nat) : Nat :=
  if (k : Int) ≤ r.left then r.val / 2 ^ (r.left.toNat - k) % 2 ^ k else r.val % 2 ^ r.left.toNat * 2 ^ (k - r.left.toNat)
/-- k bits are read. -/
def Back.skip (r : Back) (k : Nat) : Back := { r with left := r.left - k }

/-! ### FSE tables -/

/-- A state of an FSE table: its symbol, the bits of the step to the next state, and what they are added to. -/
structure FseCell where
  sym  : Nat
  bits : Nat
  base : Nat
deriving DecidableEq, Repr

/-- An FSE table: its accuracy log and its states. -/
structure Fse where
  log   : Nat
  cells : List FseCell
deriving DecidableEq, Repr

/-- k bits of a number from a bit on. -/
def lowBits (v at_ k : Nat) : Nat := v / 2 ^ at_ % 2 ^ k

/-- Repeat flags behind a probability of 0: zeros that follow, and the bit behind the flags. -/
def fseZeros (v : Nat) : Nat → Nat → Nat × Nat
  | 0, at_ => (0, at_)
  | k + 1, at_ =>
    let f := lowBits v at_ 2
    if f = 3 then let r := fseZeros v k (at_ + 2); (3 + r.1, r.2) else (f, at_ + 2)

/-- The probabilities of an FSE table description, −1 for less than one, from bit `at_` on; and the bit behind them. -/
def fseProbs (v : Nat) : Nat → Nat → Nat → List Int → Option (List Int × Nat)
  | 0, _, _, _ => none
  | k + 1, at_, remaining, acc =>
    if remaining = 0 then some (acc, at_)
    else
      let w := (remaining + 1).log2 + 1
      let x := lowBits v at_ w
      let low := x % 2 ^ (w - 1)
      let limit := 2 ^ w - 1 - (remaining + 1)
      let small := decide (low < limit)
      let y := if small then low else if 2 ^ (w - 1) ≤ x then x - limit else x
      let p : Int := (y : Int) - 1
      let next := if small then at_ + (w - 1) else at_ + w
      if remaining < p.natAbs then none
      else if p = 0 then
        let z := fseZeros v 64 next
        fseProbs v k z.2 remaining (acc ++ List.replicate (1 + z.1) 0)
      else fseProbs v k next (remaining - p.natAbs) (acc ++ [p])

/-- The next place of the spread, at most `k` tried. -/
def fsePlace (size high : Nat) : Nat → Nat → Nat
  | 0, p => p
  | k + 1, p =>
    let q := (p + (size / 2 + size / 8 + 3)) % size
    if high ≤ q then fsePlace size high k q else q

/-- Places of a symbol are spread over the table, below the states of the symbols of less than one. -/
def fseSpread (size high sym : Nat) : Nat → Nat → List Nat → Nat × List Nat
  | 0, pos, t => (pos, t)
  | k + 1, pos, t =>
    let t1 := t.set pos sym
    fseSpread size high sym k (fsePlace size high size pos) t1

/-- The states of a table from its probabilities. -/
def fseTable (log : Nat) (probs : List Int) : Fse :=
  let size := 2 ^ log
  let syms := List.range probs.length
  let rare := syms.filter (fun s => probs.getD s 0 == -1)
  let high := size - rare.length
  let t0 := (rare.zip (List.range rare.length)).foldl (fun t p => t.set (size - 1 - p.2) p.1) (List.replicate size 0)
  let t1 := (syms.foldl (fun (a : Nat × List Nat) s =>
    let p := probs.getD s 0
    if 0 < p then fseSpread size high s p.toNat a.1 a.2 else a) (0, t0)).2
  let step := fun (a : List Nat × List FseCell) (s : Nat) =>
    let next := a.1.getD s 0
    let b := log - next.log2
    (a.1.set s (next + 1), a.2 ++ [⟨s, b, next * 2 ^ b - size⟩])
  ⟨log, (t1.foldl step (probs.map Int.natAbs, [])).2⟩

/-- An FSE table description: the table, and what lies behind it. -/
def fseRead (maxLog maxSyms : Nat) (bs : List Byte) : Option (Fse × List Byte) :=
  let v := leNat (bs.take 512)
  let log := lowBits v 0 4 + 5
  if maxLog < log then none
  else match fseProbs v 512 4 (2 ^ log) [] with
    | none => none
    | some (probs, at_) =>
      let used := (at_ + 7) / 8
      if maxSyms < probs.length ∨ bs.length < used then none else some (fseTable log probs, bs.drop used)

/-- A table with one state, of a symbol. -/
def fseOne (s : Nat) : Fse := ⟨0, [⟨s, 0, 0⟩]⟩
/-- The cell of a state. -/
def Fse.cell (t : Fse) (st : Nat) : FseCell := t.cells.getD st ⟨0, 0, 0⟩

/-! ### Huffman trees -/

/-- A Huffman table: the bits of its longest code, and for each of the codes of that length the symbol and the length of its code. -/
structure Huff where
  log   : Nat
  cells : List (Nat × Nat)
deriving DecidableEq, Repr

/-- Weights that two interleaved FSE states give, until the bitstream is used up. -/
def huffWeights (t : Fse) : Nat → Nat → Nat → Back → List Nat → Option (List Nat)
  | 0, _, _, _, _ => none
  | k + 1, a, b, r, acc =>
    let c := t.cell a
    let next := c.base + r.peek c.bits
    let r1 := r.skip c.bits
    if r1.left < 0 then some (acc ++ [c.sym, (t.cell b).sym]) else huffWeights t k b next r1 (acc ++ [c.sym])

/-- The table of the weights given; the weight of the last symbol follows from them. -/
def huffTable (ws : List Nat) : Option Huff :=
  let sum := (ws.map (fun w => if w = 0 then 0 else 2 ^ (w - 1))).sum
  if sum = 0 ∨ 255 < ws.length ∨ ws.any (fun w => decide (12 < w)) then none
  else
    let log := sum.log2 + 1
    let left := 2 ^ log - sum
    if 11 < log ∨ left ≠ 2 ^ left.log2 then none
    else
      let all := ws ++ [left.log2 + 1]
      let of := fun (w : Nat) => ((List.range all.length).filter (fun s => all.getD s 0 == w)).flatMap (fun s =>
        List.replicate (2 ^ (w - 1)) (s, log + 1 - w))
      some ⟨log, ((List.range log).map (fun i => i + 1)).flatMap of⟩

/-- A Huffman tree description: the table, and what lies behind it. -/
def huffRead (bs : List Byte) : Option (Huff × List Byte) :=
  match bs with
  | [] => none
  | b :: r =>
    let h := b.toNat
    if 128 ≤ h then
      let n := h - 127
      let k := (n + 1) / 2
      if r.length < k then none
      else (huffTable ((List.range n).map (fun i =>
        let x := (r.getD (i / 2) 0).toNat
        if i % 2 = 0 then x / 16 else x % 16))).map (fun t => (t, r.drop k))
    else if r.length < h then none
    else match fseRead 6 255 (r.take h) with
      | none => none
      | some (t, rest) => match backStart rest with
        | none => none
        | some q =>
          let a := q.peek t.log
          let q1 := q.skip t.log
          let b2 := q1.peek t.log
          let q2 := q1.skip t.log
          if q2.left < 0 then none
          else match huffWeights t 256 a b2 q2 [] with
            | none => none
            | some ws => (huffTable ws).map (fun u => (u, r.drop h))

/-- `k` symbols of a Huffman stream, which they use up exactly. -/
def huffStreamGo (t : Huff) : Nat → Back → List Byte → Option (List Byte)
  | 0, r, acc => if r.left = 0 then some acc.reverse else none
  | k + 1, r, acc =>
    let c := t.cells.getD (r.peek t.log) (0, 0)
    huffStreamGo t k (r.skip c.2) (BitVec.ofNat 8 c.1 :: acc)
/-- A Huffman stream of `k` symbols. -/
def huffStream (t : Huff) (k : Nat) (bs : List Byte) : Option (List Byte) := (backStart bs).bind (fun r => huffStreamGo t k r [])

/-! ### Literals -/

/-- What blocks of a frame leave for later ones: the Huffman table, the three sequence tables, the repeated offsets. -/
structure ZCarry where
  huff : Option Huff := none
  ll   : Option Fse := none
  of   : Option Fse := none
  ml   : Option Fse := none
  rep  : List Nat := [1, 4, 8]
deriving DecidableEq, Repr

/-- The four streams of compressed literals. -/
def huffFour (t : Huff) (size : Nat) (bs : List Byte) : Option (List Byte) :=
  if bs.length < 6 then none
  else
    let a := leNat (bs.take 2)
    let b := leNat ((bs.drop 2).take 2)
    let c := leNat ((bs.drop 4).take 2)
    let r := bs.drop 6
    let part := (size + 3) / 4
    if r.length ≤ a + b + c ∨ size < 3 * part then none
    else
      match huffStream t part (r.take a), huffStream t part ((r.drop a).take b), huffStream t part ((r.drop (a + b)).take c),
          huffStream t (size - 3 * part) (r.drop (a + b + c)) with
      | some x, some y, some z, some w => some (x ++ y ++ z ++ w)
      | _, _, _, _ => none

/-- The literals section of a block: the literals, the Huffman table in force, what lies behind. -/
def zLiterals (old : Option Huff) (bs : List Byte) : Option (List Byte × Option Huff × List Byte) :=
  match bs with
  | [] => none
  | b :: _ =>
    let ty := b.toNat % 4
    let sf := b.toNat / 4 % 4
    if ty < 2 then
      let n := if sf % 2 = 0 then 1 else if sf = 1 then 2 else 3
      let v := leNat (bs.take n)
      let size := if sf % 2 = 0 then v / 8 else v / 16
      let r := bs.drop n
      if bs.length < n ∨ 131072 < size then none
      else if ty = 0 then (if r.length < size then none else some (r.take size, old, r.drop size))
      else match r with
        | [] => none
        | x :: q => some (List.replicate size x, old, q)
    else
      let n := if sf < 2 then 3 else sf + 2
      let w := if sf < 2 then 10 else if sf = 2 then 14 else 18
      let v := leNat (bs.take n) / 16
      let size := v % 2 ^ w
      let comp := v / 2 ^ w
      let r := bs.drop n
      if bs.length < n ∨ 131072 < size ∨ r.length < comp then none
      else
        let tree := if ty = 2 then huffRead (r.take comp) else old.map (fun t => (t, r.take comp))
        match tree with
        | none => none
        | some (t, body) => (if sf = 0 then huffStream t size body else huffFour t size body).map (fun l => (l, some t, r.drop comp))

/-! ### Sequences -/

/-- Baselines and extra bits of the literals length codes. -/
def llCode (c : Nat) : Nat × Nat :=
  if c < 16 then (c, 0)
  else [(16, 1), (18, 1), (20, 1), (22, 1), (24, 2), (28, 2), (32, 3), (40, 3), (48, 4), (64, 6), (128, 7), (256, 8), (512, 9), (1024, 10),
    (2048, 11), (4096, 12), (8192, 13), (16384, 14), (32768, 15), (65536, 16)].getD (c - 16) (0, 0)
/-- Baselines and extra bits of the match length codes. -/
def mlCode (c : Nat) : Nat × Nat :=
  if c < 32 then (c + 3, 0)
  else [(35, 1), (37, 1), (39, 1), (41, 1), (43, 2), (47, 2), (51, 3), (59, 3), (67, 4), (83, 4), (99, 5), (131, 7), (259, 8), (515, 9),
    (1027, 10), (2051, 11), (4099, 12), (8195, 13), (16387, 14), (32771, 15), (65539, 16)].getD (c - 32) (0, 0)

/-- The default distributions. -/
def llDefault : Fse := fseTable 6 ([4, 3] ++ List.replicate 11 2 ++ [1, 1, 1] ++ List.replicate 9 2 ++ [3, 2, 1, 1, 1, 1, 1, -1, -1, -1, -1])
def mlDefault : Fse := fseTable 6 ([1, 4, 3] ++ List.replicate 6 2 ++ List.replicate 37 1 ++ List.replicate 7 (-1))
def ofDefault : Fse := fseTable 5 (List.replicate 6 1 ++ [2, 2, 2] ++ List.replicate 15 1 ++ List.replicate 5 (-1))

/-- A table of the sequences section in its mode, and what lies behind its description. -/
def zTable (mode maxLog maxSyms : Nat) (dflt : Fse) (old : Option Fse) (bs : List Byte) : Option (Fse × List Byte) :=
  if mode = 0 then some (dflt, bs)
  else if mode = 1 then
    match bs with
    | b :: r => if maxSyms ≤ b.toNat then none else some (fseOne b.toNat, r)
    | [] => none
  else if mode = 2 then fseRead maxLog maxSyms bs
  else old.map (fun t => (t, bs))

/-- The number of sequences, and what lies behind it. -/
def zCount (bs : List Byte) : Option (Nat × List Byte) :=
  match bs with
  | [] => none
  | b :: r =>
    let x := b.toNat
    if x < 128 then some (x, r)
    else if x < 255 then (match r with
      | c :: q => some ((x - 128) * 256 + c.toNat, q)
      | [] => none)
    else match r with
      | c :: d :: q => some (c.toNat + 256 * d.toNat + 0x7F00, q)
      | _ => none

/-- The offset of a sequence by its value, and the repeated offsets behind it (RFC 8878, 3.1.1.5). -/
def zOffset (rep : List Nat) (v ll : Nat) : Nat × List Nat :=
  let a := rep.getD 0 0
  let b := rep.getD 1 0
  let c := rep.getD 2 0
  if 3 < v then (v - 3, [v - 3, a, b])
  else
    let i := if ll = 0 then v + 1 else v
    if i = 1 then (a, rep)
    else if i = 2 then (b, [b, a, c])
    else if i = 3 then (c, [c, a, b])
    else (a - 1, [a - 1, a, b])

/-- A match is copied: the output, newest byte first. -/
def zCopy (off : Nat) : Nat → List Byte → List Byte
  | 0, out => out
  | k + 1, out => zCopy off k (out.getD (off - 1) 0 :: out)

/-- The sequences of a block: the states of the three tables, the bits, the literals left, the output, the repeated offsets. -/
def zSequences (tl tf tm : Fse) : Nat → Nat → Nat → Nat → Back → List Byte → List Byte → List Nat → Option (List Byte × List Byte × List Nat)
  | 0, _, _, _, r, lits, out, rep => if r.left = 0 then some (lits, out, rep) else none
  | k + 1, sl, so, sm, r, lits, out, rep =>
    let cl := tl.cell sl
    let co := tf.cell so
    let cm := tm.cell sm
    let ov := 2 ^ co.sym + r.peek co.sym
    let r1 := r.skip co.sym
    let ml := (mlCode cm.sym).1 + r1.peek (mlCode cm.sym).2
    let r2 := r1.skip (mlCode cm.sym).2
    let ll := (llCode cl.sym).1 + r2.peek (llCode cl.sym).2
    let r3 := r2.skip (llCode cl.sym).2
    let (off, rep1) := zOffset rep ov ll
    if r3.left < 0 ∨ lits.length < ll ∨ off = 0 ∨ out.length + ll < off then none
    else
      let out1 := zCopy off ml ((lits.take ll).reverse ++ out)
      if k = 0 then zSequences tl tf tm 0 sl so sm r3 (lits.drop ll) out1 rep1
      else
        let r4 := r3.skip cl.bits
        let r5 := r4.skip cm.bits
        zSequences tl tf tm k (cl.base + r3.peek cl.bits) (co.base + r5.peek co.bits) (cm.base + r4.peek cm.bits) (r5.skip co.bits)
          (lits.drop ll) out1 rep1

/-- A compressed block: the output behind it, newest byte first. -/
def zBlock (s : ZCarry) (bs out : List Byte) : Option (ZCarry × List Byte) :=
  match zLiterals s.huff bs with
  | none => none
  | some (lits, huff, r) =>
    match zCount r with
    | none => none
    | some (0, rest) => if rest.isEmpty then some ({ s with huff := huff }, lits.reverse ++ out) else none
    | some (n, []) => if n = 0 then some (s, out) else none
    | some (n, m :: r1) =>
      let x := m.toNat
      match zTable (x / 64) 9 36 llDefault s.ll r1 with
      | none => none
      | some (tl, r2) => match zTable (x / 16 % 4) 8 32 ofDefault s.of r2 with
        | none => none
        | some (tf, r3) => match zTable (x / 4 % 4) 9 53 mlDefault s.ml r3 with
          | none => none
          | some (tm, r4) => match (if x % 4 = 0 then backStart r4 else none) with
            | none => none
            | some q =>
              let q1 := q.skip tl.log
              let q2 := q1.skip tf.log
              match zSequences tl tf tm n (q.peek tl.log) (q1.peek tf.log) (q2.peek tm.log) (q2.skip tm.log) lits out s.rep with
              | none => none
              | some (rest, out1, rep) => some ({ huff := huff, ll := some tl, of := some tf, ml := some tm, rep := rep }, rest.reverse ++ out1)

/-! ### Frames -/

/-- The blocks of a frame, at most `most` bytes each: the output, newest byte first, and what lies behind the last one. -/
def zBlocks (most : Nat) : Nat → ZCarry → List Byte → List Byte → Option (List Byte × List Byte)
  | 0, _, _, _ => none
  | k + 1, s, bs, out =>
    if bs.length < 3 then none
    else
      let h := leNat (bs.take 3)
      let ty := h / 2 % 4
      let size := h / 8
      let r := bs.drop 3
      let used := if ty = 1 then 1 else size
      if ty = 3 ∨ most < size ∨ r.length < used then none
      else
        let next := if ty = 0 then some (s, (r.take size).reverse ++ out)
          else if ty = 1 then some (s, List.replicate size (r.headD 0) ++ out)
          else zBlock s (r.take size) out
        match next with
        | none => none
        | some (s1, out1) =>
          if out.length + most < out1.length then none
          else if h % 2 = 1 then some (out1, r.drop used) else zBlocks most k s1 (r.drop used) out1

/-- The header of a frame: window size, Frame_Content_Size where it is given, whether a checksum follows, and what lies behind it. A skippable
frame, a dictionary, and a window above 8 MiB are refused (R307). -/
def zHeader (bs : List Byte) : Option (Nat × Option Nat × Bool × List Byte) :=
  if bs.length < 6 ∨ leNat (bs.take 4) ≠ 0xFD2FB528 then none
  else
    let d := (bs.getD 4 0).toNat
    let single := bit d 5
    let w := (bs.getD 5 0).toNat
    let r := if single then bs.drop 5 else bs.drop 6
    let dict := [0, 1, 2, 4].getD (d % 4) 0
    let fcs := if d / 64 = 0 then b2n single else 2 ^ (d / 64)
    let r1 := r.drop dict
    let size := leNat (r1.take fcs) + (if fcs = 2 then 256 else 0)
    let base := 2 ^ (10 + w / 8)
    let window := if single then size else base + base / 8 * (w % 8)
    if r.length < dict + fcs ∨ bit d 3 ∨ leNat (r.take dict) ≠ 0 ∨ 8388608 < window then none
    else some (window, if fcs = 0 then none else some size, bit d 2, r1.drop fcs)

/-- One Zstandard frame and nothing else: its content, and whether its Content_Checksum is absent or matches (R307; log entry 24). -/
def zstd (bs : List Byte) : Option (List Byte × Bool) :=
  match zHeader bs with
  | none => none
  | some (window, size, sum, r) =>
    match zBlocks (min window 131072) (bs.length + 1) {} r [] with
    | none => none
    | some (out, rest) =>
      let content := out.reverse
      if (match size with | some n => n != content.length | none => false) || rest.length != (if sum then 4 else 0) then none
      else some (content, !sum || leNat rest == xxh64 content % 2 ^ 32)

end Sys2Proof.Machine
end

