-- ==== Sys2Proof/Machine/Weights.lean ====
section
/-! DEFINITION. Machine/Weights.lean: models (R299 to R303), loads and shards (R302 to R308), drains (R309, R310), streaming (R311), seal
sweeps (R312), and what resets do to models (R313). -/

namespace Sys2Proof.Machine

/-! ### Groups, records and the model table -/

/-- The contexts of a model's group in its partition (R301). -/
def groupCtxs (s : State) (m : Nat) : List Nat :=
  let n := s.mdPart m
  ((List.range 4096).map (fun i => 4096 * n.val + i)).filter (fun k => s.ctxGroup k == s.md4 m 23 16)

/-- Hold the group (R301). -/
def State.holdGroup (s : State) (m : Nat) : State :=
  (groupCtxs s m).foldl (fun t k => if t.ctxState k = 1 ∨ t.ctxState k = 2 then t.action k 4 else t) s
/-- Resume the group (R301). -/
def State.resumeGroup (s : State) (m : Nat) : State :=
  (groupCtxs s m).foldl (fun t k => if t.ctxState k = 3 then t.action k 5 else t) s

/-- A model reaches a state; RESIDENT, STOPPED, EVICTED and FAILED set its bit in WTS.DONE (R301). -/
def State.mdTo (s : State) (m v : Nat) : State :=
  let t := s.md4Wr m 3 0 v
  let f := WTS.DONE_i.MODELS (m / 32)
  if v = 2 ∨ v = 4 ∨ v = 6 ∨ v = 7 then t.flag f (2 ^ (m % 32)) else t
/-- GOAL of a model. -/
def State.mdSetGoal (s : State) (m v : Nat) : State := s.md4Wr m 11 9 v
/-- A model's frames in tier t. -/
def State.mdPages (s : State) (m t : Nat) : Nat := s.md m (0x38 + 4 * t) 4
/-- SHARD_COUNT. -/
def State.mdCount (s : State) (m : Nat) : Nat := bits (s.md m 8 4) 31 16
/-- TENANT. -/
def State.mdTenant (s : State) (m : Nat) : Nat := s.md4 m 31 24
/-- The interval of a seal sweep in strokes (R314). -/
def State.sweepGap (s : State) : Nat := 2 ^ max 10 (s.inForce WTS.CFG.SWEEP_LOG2)
/-- An error record of the weight agent (R320). -/
def State.wtsRecord (s : State) (code d : Nat) : State := s.raise { code := code, domain := 0, unit := 13, d0 := d }

/-! ### The owner's object space -/

/-- Where the owner's object page lies in local memory: leaf entry, frame base, tier. -/
def ownerPage (s : State) (ctx page : Nat) : Option (Nat × Nat × Nat) :=
  match leafAddr s ctx page with
  | none => none
  | some leaf => match entryLoc s ctx (s.rdLE leaf 8) false with
    | some (.local_ base t) => some (leaf, base, t)
    | _ => none

/-- The agent's own write to object space, direct (R308); none where a page is not mapped to local memory. -/
def ownerWriteGo (ctx : Nat) : Nat → Nat → List Byte → State → Option State
  | 0, _, _, s => some s
  | k + 1, addr, bs, s =>
    let here := min bs.length (65536 - addr % 65536)
    match ownerPage s ctx (addr / 65536) with
    | none => none
    | some (_, base, _) => ownerWriteGo ctx k (addr + here) (bs.drop here) (s.extWrite (base + addr % 65536) (bs.take here) [])
/-- The agent's own write. -/
def ownerWrite (s : State) (ctx addr : Nat) (bs : List Byte) : Option State := ownerWriteGo ctx (pageCount addr bs.length) addr bs s

/-- The agent's own read of object space: the bytes, and whether every page is mapped and no word is poisoned. -/
def ownerReadGo (s : State) (ctx : Nat) : Nat → Nat → Nat → List Byte × Bool
  | 0, _, _ => ([], true)
  | k + 1, addr, len =>
    let here := min len (65536 - addr % 65536)
    let rest := ownerReadGo s ctx k (addr + here) (len - here)
    match ownerPage s ctx (addr / 65536) with
    | none => (List.replicate here 0 ++ rest.1, false)
    | some (_, base, _) =>
      (s.rdBytes (base + addr % 65536) here ++ rest.1, !(s.anyPoison (base + addr % 65536) here) && rest.2)
/-- The agent's own read. -/
def ownerRead (s : State) (ctx addr len : Nat) : List Byte × Bool := ownerReadGo s ctx (pageCount addr len) addr len

/-- The agent's own read of object space meets the errors that lie there (R209, R210). -/
def ownerMeet (ctx : Nat) : Nat → Nat → Nat → State → State
  | 0, _, _, s => s
  | k + 1, addr, len, s =>
    let here := min len (65536 - addr % 65536)
    ownerMeet ctx k (addr + here) (len - here) (match ownerPage s ctx (addr / 65536) with
      | some (_, base, _) => s.meet (base + addr % 65536) here
      | none => s)

/-- Pages of an object-range shard as its record says: first page, count. -/
def recRange (s : State) (m i : Nat) : Nat × Nat :=
  (s.rdLE (s.shardAddr m i + 0x30) 8 / 65536, ceilDiv (s.rdLE (s.shardAddr m i + 0x38) 8) 65536)

/-! ### Eviction (R303) -/

/-- A leaf of a model is unmapped, and its frame waits to be pushed. -/
def State.unmapPage (s : State) (m page : Nat) : State :=
  match leafAddr s (s.mdOwner m) page with
  | none => s
  | some leaf =>
    let ent := s.rdLE leaf 8
    if bit ent 0 then
      let t := s.setLeaf leaf (putBits ent 0 0 0)
      if bits ent 2 1 = 3 then t
      else t.modWts (fun w => { w with
        pushes := w.pushes ++ [(m, (s.mdPart m).val, s.mdTenant m, bits ent 2 1, frameNo (65536 * (bits ent 63 16)))] })
    else s

/-- Evict a model under R303; `tell`: MODEL_EVICTED is delivered to the contexts held. -/
def State.evictModel (s : State) (m : Nat) (tell : Bool) : State :=
  let n := s.mdPart m
  let s1 := s.holdGroup m
  let s2 := if tell then (groupCtxs s1 m).foldl (fun t k => if t.ctxState k = 3 then t.event k 9 m else t) s1 else s1
  let s3 := (List.range (s2.mdCount m)).foldl (fun t i =>
    if t.rec40 m i 5 5 = 1 then t
    else (List.range (recRange t m i).2).foldl (fun u p => u.unmapPage m ((recRange t m i).1 + p)) t) s2
  let s4 := [0, 1, 2].foldl (fun t q => t.mdWr m (0x38 + 4 * q) 4 0) s3
  let s5 := (s4.wts.slots.filter (fun x => x.1 == m)).foldl (fun t x =>
    t.wrLE (t.wdtAddr n x.2.2.1 + 0x10 + 0x18 * x.2.2.2) 4 0) s4
  (s5.modWts (fun w => { w with slots := w.slots.filter (fun x => x.1 != m) })).bump WTS.COUNTS.EVICTIONS 1

/-- A model may be evicted for another one's load (R303). -/
def evictable (s : State) (m : Nat) (n : PartIx) (tenant t v : Nat) : Bool :=
  v != m && decide (s.mdPart v = n) && s.mdState v == 2 && s.mdTenant v == tenant && decide (0 < s.mdPages v t) && s.md4 v 8 8 == 0
  && (groupCtxs s v).all (fun k => s.ctxState k != 2 && s.ctxHead k == s.ctxTail k)

/-- The eligible model with the smallest LAST_USE, the lower index on a tie. -/
def victimModel (s : State) (m : Nat) (n : PartIx) (tenant t : Nat) : Option Nat :=
  ((List.range 256).filter (evictable s m n tenant t)).foldl (fun b v => match b with
    | none => some v
    | some x => if s.md v 0x30 8 < s.md x 0x30 8 then some v else some x) none

/-- Frames of a tier that a tenant's stack holds or is about to hold. -/
def State.comingFrames (s : State) (n : PartIx) (tenant t : Nat) : Nat :=
  s.stackCount n tenant t + (s.wts.pushes.filter (fun p => p.2.1 == n.val && p.2.2.1 == tenant && p.2.2.2.1 == t)).length

/-- Evict one model at a time until a tier has frames enough or no model is eligible. -/
def evictFor (m : Nat) (n : PartIx) (tenant t need : Nat) : Nat → State → State
  | 0, s => s
  | k + 1, s =>
    if need ≤ s.comingFrames n tenant t then s
    else match victimModel s m n tenant t with
      | none => s
      | some v => evictFor m n tenant t need k ((s.evictModel v true).mdTo v 6)

/-- MODEL_FRAME_PUSH (R303, R308): accesses under the old leaf have ended, and a frame of the model goes to its tenant's stack. -/
def execModelFramePush (m : Byte) (s : State) : Out :=
  match findIdx (fun p => p.1 == m.toNat) s.wts.pushes 0 with
  | some (i, (_, n, tenant, t, f)) =>
    act s s.live ((s.modWts (fun w => { w with pushes := w.pushes.eraseIdx i })).pushFrame (toPart n) tenant t f)
  | none => .next s

/-! ### Loads begin and fail -/

/-- Another model of the partition is in LOADING or REPLACING (R301). -/
def loadBusy (s : State) (m : Nat) : Bool :=
  (List.range 256).any (fun v => v != m && decide (s.mdPart v = s.mdPart m) && (s.mdState v == 1 || s.mdState v == 5))

/-- A load or replacement begins: the directory is read (R301, R302). -/
def State.beginLoad (s : State) (m st : Nat) (only : Option Nat) : State :=
  let t := (s.md4Wr m 3 0 st).mdWr m 0x0C 2 0
  (t.modWts (fun w => { w with loads := w.loads ++ [{ model := m, start := s.time, only := only, oldCount := s.mdCount m }] })).startRead m
    dirIdx .dirHeader (s.md m 0x10 8) 64

/-- A model's load is over: its reads end, and lanes go to other loads. -/
def State.endLoad (s : State) (m : Nat) : State :=
  let drop := fun (r : FReq) => match r.kind with
    | .shard k _ => if k = m then { r with kind := .shard 256 0 } else r
    | _ => r
  let t := s.modWts (fun w =>
    { w with
      loads := w.loads.filter (fun l => l.model != m)
      reads := w.reads.filter (fun r => r.model != m)
      past := w.past.filter (fun r => r.model != m)
      convs := w.convs.filter (fun c => c.model != m) })
  ({ t with ferrule := { t.ferrule with reqs := t.ferrule.reqs.map drop } }).showLanes.fillLoads

/-- Frames popped for a load go back to the tenant's stack. -/
def State.unpop (s : State) (m : Nat) : State :=
  match s.load m with
  | none => s
  | some l => l.frames.foldl (fun t x => x.2.2.foldl (fun u f => u.pushFrame (s.mdPart m) (s.mdTenant m) x.2.1 f) t) s

/-- A load fails with a reason at a shard, whose record says so once the load is placed (R300, R301, R305). -/
def State.loadFail (s : State) (m reason shard : Nat) : State :=
  let old := match s.load m with
    | some l => l.oldCount
    | none => 0
  let s0 := if (s.load m).any LoadSt.placed then s.rec40Wr m shard 2 0 3 else s
  let s1 := ((s0.unpop m).endLoad m).md4Wr m 15 12 reason
  let s2 := (s1.mdWr m 0x0E 2 shard).wtsRecord 0x41 (m + 256 * reason + 4096 * shard)
  if s2.mdState m = 1 then s2.mdTo m 7
  else if s2.mdGoal m = 4 then ((s2.evictModel m false).mdTo m 7)
  else (((s2.mdWr m 0x0A 2 old).mdSetGoal m 0).mdTo m 2).resumeGroup m

/-! ### Drains (R309, R310) -/

/-- A drain begins with a goal (R301, R309). -/
def State.beginDrain (s : State) (m goal : Nat) (repair : Option Nat) : State :=
  let marks := (groupCtxs s m).map (fun k => (k, s.ctxTail k))
  let due := if goal = 4 then s.time else s.time + 800000 * s.inForce WTS.CFG.DRAIN_MS
  let s1 := ((s.mdSetGoal m goal).md4Wr m 3 0 3).mdWr m 0x48 8 s.time
  let s2 := s1.modWts (fun w => { w with drains := w.drains ++ [{ model := m, due := due, marks := marks, repair := repair }] })
  marks.foldl (fun t p => if t.ctxState p.1 = 1 ∧ t.ctxHead p.1 = p.2 then t.action p.1 4 else t) s2

/-- The commands up to the mark are discarded, and the context is told (R309, R310). -/
def State.rejectCtx (s : State) (m k mark : Nat) : State :=
  let head := s.ctxHead k
  ((s.ctxWr k 0 8 mark).event k 8 (m + 256 * s.mdGoal m + 65536 * (head % 2 ^ 46))).mdWr m 0x46 2 (s.md m 0x46 2 + 1)

/-- A drain is complete: every context of the group is HELD, HALTED or FREE (R309). -/
def drained (s : State) (m : Nat) : Bool := (groupCtxs s m).all (fun k => s.ctxState k == 3 || s.ctxState k == 4 || s.ctxState k == 0)

/-- What follows a drain (R301). A replacement waits while another model of the partition loads. -/
def State.endDrain (s : State) (d : DrainSt) : State :=
  let m := d.model
  let goal := s.mdGoal m
  if (goal = 2 ∨ goal = 4) ∧ loadBusy s m then s
  else
    let t := s.modWts (fun w => { w with drains := w.drains.filter (fun x => x.model != m) })
    if goal = 1 then t.mdTo m 4
    else if goal = 3 then (t.evictModel m true).mdTo m 6
    else t.beginLoad m 5 d.repair

/-- Look at every drain: contexts whose lift was past C at the deadline are rejected once held, and a drain that is complete ends. -/
def State.checkDrains (s : State) : State :=
  s.wts.drains.foldl (fun t d =>
    let back := d.late.filter (fun k => t.ctxState k == 3)
    let u := back.foldl (fun v k => v.rejectCtx d.model k (((d.marks.find? (fun p => p.1 == k)).map Prod.snd).getD 0)) t
    let u1 := u.modWts (fun w => { w with drains := w.drains.map (fun x =>
      if x.model = d.model then { x with late := x.late.filter (fun k => !back.contains k) } else x) })
    if drained u1 d.model && d.late.all (fun k => back.contains k) then u1.endDrain d else u1) s

/-- DRAIN_DEADLINE (R309): contexts of the group still READY or RUNNING are held, and their commands up to the mark discarded. -/
def execDrainDeadline (m : Byte) (s : State) : Out :=
  match s.wts.drains.find? (fun d => d.model == m.toNat) with
  | none => .next s
  | some d =>
    if s.live && decide (d.due ≤ s.time) then
      let left := d.marks.filter (fun p => s.ctxState p.1 == 1 || s.ctxState p.1 == 2)
      let past := left.filter (fun p => match onCore s p.1 with
        | some c => !killable s c
        | none => false)
      let s1 := left.foldl (fun t p => t.action p.1 4) s
      let s2 := (left.filter (fun p => !past.contains p)).foldl (fun t p => t.rejectCtx d.model p.1 p.2) s1
      .next (s2.modWts (fun w => { w with drains := w.drains.map (fun x =>
        if x.model = d.model then { x with late := past.map Prod.fst } else x) })).checkDrains
    else .next s

/-! ### Commands to a model (R301) -/

/-- RESULT of WTS.CMD. -/
def State.wtsResult (s : State) (r : Nat) : State := s.put WTS.CMD.RESULT r

/-- LOAD and REPLACE are refused while another model of the partition loads, or while the partition is not ACTIVE. -/
def State.mayLoad (s : State) (m : Nat) (go : State) : State :=
  if loadBusy s m then s.wtsResult 3
  else if !(s.active (s.mdPart m)) || (s.part (s.mdPart m)).inReset then s.wtsResult 4
  else go.wtsResult 0

/-- TENANT of the owner at a LOAD or REPLACE (R299). -/
def State.takeTenant (s : State) (m : Nat) : State := s.md4Wr m 31 24 (s.ctxTenant (s.mdOwner m))

/-- A model entry is cleared (R301). -/
def State.mdClear (s : State) (m : Nat) : State :=
  s.modWts (fun w => { w with table := w.table.eraseRange (128 * m) (128 * m + 128) })

/-- WTS.CMD with GO (R301, R314): 1 LOAD, 2 REPLACE, 3 STOP, 4 RESUME, 5 EVICT, 6 RELEASE. -/
def State.wtsCmd (s0 : State) (m op : Nat) : State :=
  let s := (s0.put WTS.CMD.MODEL m).put WTS.CMD.OP op
  let st := s.mdState m
  let idle := st = 0 ∨ st = 6 ∨ st = 7
  if op = 0 ∨ 7 ≤ op then s.wtsResult 1
  else if op = 1 then
    (if idle then s.mayLoad m (((s.takeTenant m).holdGroup m).beginLoad m 1 none) else s.wtsResult 2)
  else if op = 2 then
    (if st = 2 then s.mayLoad m ((s.takeTenant m).beginDrain m 2 none)
     else if st = 4 then s.mayLoad m (((s.takeTenant m).mdSetGoal m 2).beginLoad m 5 none)
     else s.wtsResult 2)
  else if op = 3 then (if st = 2 then (s.beginDrain m 1 none).wtsResult 0 else s.wtsResult 2)
  else if op = 4 then (if st = 4 then (((s.mdSetGoal m 0).mdTo m 2).resumeGroup m).wtsResult 0 else s.wtsResult 2)
  else if op = 5 then
    (if st = 2 then (s.beginDrain m 3 none).wtsResult 0
     else if st = 4 then ((s.evictModel m true).mdTo m 6).wtsResult 0
     else s.wtsResult 2)
  else if idle then (s.mdClear m).wtsResult 0
  else if st = 4 then ((s.evictModel m false).mdClear m).wtsResult 0
  else s.wtsResult 2

/-- MODEL_LOAD (R301). -/
def execModelLoad (m : Byte) (s : State) : Out := act s s.served (s.wtsCmd m.toNat 1)
/-- MODEL_REPLACE (R301). -/
def execModelReplace (m : Byte) (s : State) : Out := act s s.served (s.wtsCmd m.toNat 2)
/-- MODEL_STOP (R301). -/
def execModelStop (m : Byte) (s : State) : Out := act s s.served (s.wtsCmd m.toNat 3)
/-- MODEL_RESUME (R301). -/
def execModelResume (m : Byte) (s : State) : Out := act s s.served (s.wtsCmd m.toNat 4)
/-- MODEL_EVICT (R301). -/
def execModelEvict (m : Byte) (s : State) : Out := act s s.served (s.wtsCmd m.toNat 5)
/-- MODEL_RELEASE (R301). -/
def execModelRelease (m : Byte) (s : State) : Out := act s s.served (s.wtsCmd m.toNat 6)

/-! ### Placing (R302) -/

/-- The header of a shard that placing read. -/
def LoadSt.head (l : LoadSt) (i : Nat) : List Byte := ((l.heads.find? (fun h => h.1 == i)).map Prod.snd).getD []
/-- DEST of a header. -/
def hdDest (h : List Byte) : Nat := fieldAt h 0x28 8

/-- The shadow offset in pages: that of a replacement, else 0. -/
def State.shadow (s : State) (m : Nat) : Nat := if s.mdState m = 5 then s.md m 0x20 8 / 65536 else 0

/-- The tier maps of a range are there, its leaves not VALID, and while REPLACING the leaves at DEST VALID (R302 step 1). -/
def rangeOk (s : State) (m : Nat) (l : LoadSt) (i : Nat) : Bool :=
  let first := hdDest (l.head i) / 65536
  (List.range (entPages (l.entry i))).all (fun p =>
    (match leafAddr s (s.mdOwner m) (first + s.shadow m + p) with
      | some a => !(bit (s.rdLE a 8) 0)
      | none => false)
    && (s.mdState m != 5 || (match leafAddr s (s.mdOwner m) (first + p) with
      | some a => bit (s.rdLE a 8) 0
      | none => false)))

/-- The tier that a shard goes to. -/
def placeTier (l : LoadSt) (streamed : List Nat) (i : Nat) : Nat := if streamed.contains i then 2 else entTier (l.entry i)
/-- need[t] of R302. -/
def needOf (l : LoadSt) (streamed : List Nat) (t : Nat) : Nat :=
  ((l.ranges.filter (fun i => placeTier l streamed i == t)).map (fun i => entPages (l.entry i))).sum

/-- Shards that move to T2, highest index first, until T0 has room (R302 step 3). -/
def streamMore (l : LoadSt) (room : Nat) : List Nat → List Nat → List Nat
  | [], acc => acc
  | i :: r, acc =>
    if needOf l acc 0 ≤ room then acc
    else if bit (fieldAt (l.head i) 0x23 1) 2 && entTier (l.entry i) == 0 then streamMore l room r (i :: acc)
    else streamMore l room r acc

/-- Share popped frames out among the shards of a tier, in index order. -/
def shareFrames (l : LoadSt) (t : Nat) : List Nat → List Nat → List (Nat × Nat × List Nat)
  | [], _ => []
  | i :: r, fs => (i, t, fs.take (entPages (l.entry i))) :: shareFrames l t r (fs.drop (entPages (l.entry i)))

/-- Pop the frames of each tier (R302 step 5). -/
def State.popTier (s : State) (m : Nat) (l : LoadSt) (streamed : List Nat) (t : Nat) : State :=
  match popFrames (s.mdPart m) (s.mdTenant m) t (needOf l streamed t) s with
  | none => s
  | some (fs, u) => u.modLoad m (fun q =>
    { q with frames := q.frames ++ shareFrames l t (l.ranges.filter (fun i => placeTier l streamed i == t)) fs })

/-- Shard records begin anew, pending (R300). -/
def State.newRecords (s : State) (m : Nat) (l : LoadSt) : State :=
  l.shards.foldl (fun t i =>
    if t.mdState m = 5 then (t.rec40Wr m i 2 0 0).rec40Wr m i 15 8 0
    else t.wrBytes (t.shardAddr m i) (List.replicate 128 0)) s

/-- The load is placed: shards are read (R302, R304). -/
def State.placeLoad (s : State) (m : Nat) (l : LoadSt) (streamed : List Nat) : State :=
  let s1 := [0, 1, 2].foldl (fun t q => t.popTier m l streamed q) (s.newRecords m l)
  let s2 := s1.modWts (fun w => { w with reads := w.reads.filter (fun r => r.model != m), past := w.past.filter (fun r => r.model != m) })
  (s2.modLoad m (fun q => { q with placed := true, streamed := streamed })).fillLoad m

/-- Steps 1 to 5 of R302. -/
def State.tryPlace (s : State) (m : Nat) (l : LoadSt) : State :=
  let n := s.mdPart m
  let tenant := s.mdTenant m
  match l.ranges.find? (fun i => !(rangeOk s m l i)) with
  | some i => s.loadFail m 5 i
  | none =>
    let iferen := s.md4 m 6 6 == 1
    let streamed := if iferen then streamMore l (s.stackCount n tenant 0) l.ranges.reverse [] else []
    let s1 := if iferen then s else [0, 1, 2].foldl (fun t q => evictFor m n tenant q (needOf l [] q) 256 t) s
    if [0, 1, 2].all (fun q => decide (needOf l streamed q ≤ s1.stackCount n tenant q)) then s1.placeLoad m l streamed
    else if [0, 1, 2].all (fun q => decide (needOf l streamed q ≤ s1.comingFrames n tenant q)) then s1
    else s1.loadFail m 4 0

/-- MODEL_PLACEMENT (R302, R303): the directory, and the headers of object-range shards, are read. -/
def execModelPlacement (m : Byte) (s : State) : Out :=
  let k := m.toNat
  match s.load k with
  | none => .next s
  | some l =>
    if !s.live || l.placed then .next s
    else if l.dirBad || l.shards.any (fun i => decide (l.count ≤ i) && !l.entries.isEmpty) then .next (s.loadFail k 3 0)
    else if l.entries.isEmpty || l.ranges.any (fun i => !(l.heads.any (fun h => h.1 == i))) then .next s
    else .next (s.tryPlace k l)

/-! ### Arrival (R305 to R307) -/

/-- Bytes of an element of SRC_FMT: 0 binary32, 1 BF16, 2 binary16. -/
def srcBytes (f : Nat) : Nat := if f = 0 then 4 else 2
/-- The format of SRC_FMT. -/
def srcFmt (f : Nat) : Fmt := if f = 0 then fmtB32 else if f = 1 then fmtBF16 else fmtB16

/-- The sizes of R306 and R307 hold. -/
def sizesOk (s : State) (n : PartIx) (h : List Byte) : Bool :=
  let d := hdDest h
  let len := hdLen h
  if hdRaw h then
    hdDesc h && fieldAt h 0x30 4 == s.wd n d 8 4 && fieldAt h 0x34 4 == s.wd n d 0xC 4 && decide (fieldAt h 0x38 1 ≤ 2)
    && len == fieldAt h 0x30 4 * fieldAt h 0x34 4 * srcBytes (fieldAt h 0x38 1)
    && decide (ceilDiv len 65536 ≤ s.inForce (WTS.STAGE_n.PAGES n))
    && poolOk s n 0 (s.inForce (WTS.STAGE_n.BASE n)) (s.inForce (WTS.STAGE_n.PAGES n))
  else
    !(hdPacked h) && (!(hdDesc h) || len == ((gatherParts s n d 0).map Prod.snd).sum)

/-- A header agrees with R296, with its directory entry and with the model (R305); what rests on the descriptor it names is sizesOk. -/
def shardHeaderOk (s : State) (m : Nat) (l : LoadSt) (i : Nat) (h : List Byte) : Bool :=
  let e := l.entry i
  let n := s.mdPart m
  fieldAt h 0 4 == 0x53575859 && fieldAt h 4 2 == 1 && fieldAt h 6 2 == 0x100 && fieldAt h 8 4 == s.md m 0 4
  && fieldAt h 0xC 2 == i && fieldAt h 0xE 2 == l.count && entLen e == 256 + hdPayload h && hdPayload h % 64 == 0
  && (hdPacked h || hdLen h == hdPayload h) && decide (fieldAt h 0x20 1 ≤ 1) && decide (fieldAt h 0x21 1 ≤ 1)
  && zeroBits (fieldAt h 0x23 1) 7 3 && (slice h 0x39 151).all (fun b => b == 0) && entTier e == fieldAt h 0x22 1
  && (if hdDesc h then entPages e == 0 && fieldAt h 0x24 4 != 0 && zeroBits (hdDest h) 63 12
      else decide (fieldAt h 0x22 1 ≤ 2) && hdDest h % 65536 == 0 && entPages e == ceilDiv (hdLen h) 65536
        && (entPages e == 0 || hdDest h == hdDest (l.head i)))
  && !(hdDesc h && (l.landed.any (fun x => x.desc && x.dest == hdDest h)
        || s.wts.convs.any (fun c => c.model == m && hdDest c.header == hdDest h)))
  && !(l.streamed.contains i && (s.md m 0x28 8 == 0 || decide (s.rdLE (s.md m 0x28 8 + 8) 4 < entPages e)))

/-- A shard has landed (R306, R307, R308). -/
def State.shardLanded (s : State) (m : Nat) (x : Landed) : State :=
  let s1 := (s.modLoad m (fun l => { l with landed := l.landed ++ [x] })).rec40Wr m x.idx 2 0 2
  ((s1.mdWr m 0x0C 2 (s1.md m 0x0C 2 + 1)).bump WTS.COUNTS.SHARDS_LANDED 1).fillLoads

/-- Write chunks of 64 KiB to frames in order. -/
def writeFrames (n : PartIx) (t : Nat) : List Nat → List Byte → State → State
  | [], _, s => s
  | f :: r, bs, s => writeFrames n t r (bs.drop 65536) (s.extWrite (frameBase n t f) (bs.take 65536) [])

/-- Write the copies of a descriptor's slot from their bytes, in the order of R306; none where the owner does not map them. -/
def writeParts (ctx : Nat) : List (Nat × Nat) → List Byte → State → Option State
  | [], _, s => some s
  | (a, len) :: r, bs, s =>
    match ownerWrite s ctx a (bs.take len) with
    | none => none
    | some t => writeParts ctx r (bs.drop len) t

/-- The copies of a descriptor land in the slot that is not recto (R306, R307). -/
def State.landDesc (s : State) (m i : Nat) (h payload : List Byte) : State :=
  let n := s.mdPart m
  let d := hdDest h
  let v := 1 - s.recto n d
  match writeParts (s.mdOwner m) (gatherParts s n d v) payload s with
  | none => s.loadFail m 5 i
  | some t => t.shardLanded m (Landed.mk i d payload.length 0 true (fieldAt h 0x24 4) (sha384 payload) v)

/-- A FINAL shard lands (R306). -/
def State.landFinal (s : State) (m : Nat) (l : LoadSt) (i : Nat) (h payload : List Byte) : State :=
  if hdDesc h then s.landDesc m i h payload
  else
    let (t, fs) := ((l.frames.find? (fun x => x.1 == i)).map Prod.snd).getD (fieldAt h 0x22 1, [])
    (writeFrames (s.mdPart m) t fs payload s).shardLanded m
      (Landed.mk i (hdDest h) payload.length t false (fieldAt h 0x24 4) (sha384 payload) 0)

/-- The conversion unit of a partition is free from this aclk on. -/
def convFree (s : State) (n : PartIx) : Nat :=
  (s.wts.convs.filter (fun c => c.part == n.val)).foldl (fun a c => max a c.due) s.time

/-- A RAW shard lies in its stage pages and queues for the conversion unit (R307). -/
def State.stageShard (s : State) (m i : Nat) (h data : List Byte) (pages : List Nat) : State :=
  let n := s.mdPart m
  let s1 := (List.range pages.length).foldl (fun t k =>
    t.extWrite (65536 * (pages.getD k 0)) (slice data (65536 * k) 65536) []) s
  let due := convFree s n + ceilDiv (fieldAt h 0x30 4 * fieldAt h 0x34 4) 256
  ((s1.modWts (fun w => { w with convs := w.convs ++ [{ model := m, idx := i, part := n.val, header := h, pages := pages,
                                                         len := data.length, due := due }] })).dropRead m i).fillLoads

/-- A corrupt shard is read again, or fails the load (R305). -/
def State.corruptShard (s : State) (m : Nat) (l : LoadSt) (i : Nat) : State :=
  let tries := (s.rec40 m i 15 8 + 1) % 256
  let s1 := ((s.rec40Wr m i 15 8 tries).mdWr m 0x44 2 (s.md m 0x44 2 + 1)).bump WTS.STATUS.SEAL_FAILS 1
  let s2 := s1.wtsRecord 0x40 (m + 256 * i + 16777216 * tries)
  if 1 + s.inForce WTS.CFG.RETRIES ≤ tries then s2.loadFail m 1 i else s2.readShard m i (l.entry i)

/-- What SHARD_ARRIVAL does with a whole shard. -/
def State.shardIn (s : State) (m : Nat) (l : LoadSt) (r : WtsRead) : State :=
  let i := r.idx
  let all := r.shard (l.entry i)
  let h := all.take 256
  let payload := slice all 256 (hdPayload h)
  let n := s.mdPart m
  let good := !r.bad && payload.length == hdPayload h && sha384 (h.take 0xD0 ++ payload) == h.drop 0xD0
  let data := if hdPacked h then zstd payload else some (payload, true)
  if !good || (hdRaw h && data.any (fun x => !x.2)) then s.corruptShard m l i
  else if !(shardHeaderOk s m l i h) then s.loadFail m 3 i
  else if hdDesc h && !(s.descOk n (hdDest h)) then s.loadFail m 6 i
  else if !(sizesOk s n h) then s.loadFail m 3 i
  else if !(hdRaw h) then (s.dropRead m i).landFinal m l i h payload
  else match data with
    | none => s.loadFail m 3 i
    | some (data, _) =>
      if data.length ≠ hdLen h then s.loadFail m 3 i
      else s.stageShard m i h data r.stage

/-- SHARD_ARRIVAL (R297, R305 to R307): a shard's data has all come. -/
def execShardArrival (m : Byte) (shard : BitVec 16) (s : State) : Out :=
  let k := m.toNat
  match s.load k, s.wtsRead k shard.toNat with
  | some l, some r => act s (s.live && l.placed && decide (r.what = .shard) && r.whole) (s.shardIn k l r)
  | _, _ => .next s

/-- SHARD_POLL (R304): POLL_US later, what was not READY or had no answer is tried again; none is the directory. -/
def execShardPoll (m : Byte) (shard : Option (BitVec 16)) (s : State) : Out :=
  let i := match shard with
    | some x => x.toNat
    | none => dirIdx
  match s.wtsRead m.toNat i with
  | none => .next s
  | some r => act s (s.live && (match r.poll with
      | some t => decide (t ≤ s.time)
      | none => false)) (s.wtsPoll m.toNat i)

/-- The first shard of a load that has not passed its seal. -/
def unpassed (s : State) (l : LoadSt) : Option Nat := if !l.placed then some 0 else l.shards.find? (fun i => !(passedSeal s l i))

/-- SHARD_TIMEOUT (R305): SHARD_TIMEOUT_MS after the load began. -/
def execShardTimeout (m : Byte) (s : State) : Out :=
  match s.load m.toNat with
  | none => .next s
  | some l =>
    match unpassed s l with
    | none => .next s
    | some i => act s (s.live && decide (l.start + 800000 * max 1 (s.inForce WTS.CFG2.SHARD_TIMEOUT_MS) ≤ s.time)) (s.loadFail m.toNat 2 i)

/-! ### Conversion (R307) -/

/-- The data of a staged shard, from its stage pages. -/
def stagedData (s : State) (c : Conv) : List Byte := (c.pages.flatMap (fun p => s.rdBytes (65536 * p) 65536)).take c.len

/-- The conversion unit's reads of its stage pages meet the errors that lie there (R209). -/
def State.meetPages (s : State) (pages : List Nat) : State := pages.foldl (fun t p => t.meet (65536 * p) 65536) s

/-- The rows of a RAW shard. -/
def rawRows (c : Conv) (data : List Byte) : List (List Num) :=
  let k := fieldAt c.header 0x30 4
  let w := fieldAt c.header 0x34 4
  let f := fieldAt c.header 0x38 1
  (List.range k).map (fun r => (List.range w).map (fun j =>
    decodeFmt (srcFmt f) (fieldAt data ((r * w + j) * srcBytes f) (srcBytes f))))

/-- A plain copy: rows at a pitch, the pad +0. -/
def plainBytes (fmt : Nat) (e : Int) (pitch : Nat) (rows : List (List Num)) : List Byte :=
  rows.flatMap (fun r => padTo pitch (codesBytes fmt (r.map (fun v => encodeFmt (fmtOf fmt) (v.scale e)))))

/-- An MX copy and its scale array, rows at their pitches: each block is 32 rows of one column (R65, R96). -/
def mxBytes (fmt pitch sPitch width : Nat) (rows : List (List Num)) : List Byte × List Byte :=
  let f := mxElem fmt false
  (List.range (rows.length / 32)).foldl (fun acc k =>
    let blk := (rows.drop (32 * k)).take 32
    let cols := (List.range width).map (fun j => mxWrite f (mxEmax f) (blk.filterMap (fun r => r[j]?)))
    (acc.1 ++ (List.range 32).flatMap (fun r => padTo pitch (codesBytes fmt (cols.map (fun q => ((q.2[r]?).getD (0, {})).1)))),
     acc.2 ++ padTo sPitch (cols.map (fun q => BitVec.ofNat 8 q.1)))) ([], [])

/-- A scale entry takes its exponent from one maximum (R307 step 2); NaNs are counted. An entry at or above ENTRIES is taken at the address
it would have (R103; log entry 164). -/
def State.loadScale (s : State) (n : PartIx) (fmt entry a nans : Nat) : State :=
  let at_ := s.scaleAddr n entry
  if entry = 0 then s
  else
    let t := if 0 < nans then s.mergeCapture n { entry := entry, nan := nans } else s
    if isMx fmt || !(t.entryScaled at_) then t
    else
      let cur := t.rdLE (at_ + 0x44) 1
      let u := t.wrLE (at_ + 0x45) 1 cur
      if a = 0 then u
      else
        let x := scaleExp (u.entryFmt at_) a (bits (u.rdLE (at_ + 0x40) 4) 14 12)
        u.wrLE (at_ + 0x44) 1 (code8 (if x < -127 then -127 else if 127 < x then 127 else x))

/-- The bytes of the copies that the conversion unit writes, in the order of R306. -/
def convBytes (s : State) (n : PartIx) (d v : Nat) (rows : List (List Num)) : List Byte :=
  let fmt := wdCopyFmt s n d
  let k := s.wd n d 8 4
  let w := s.wd n d 0xC 4
  let tr := columnsOf rows w
  let fp := s.wd n d 0x78 4
  let tp := s.wd n d 0x7C 4
  if isMx fmt then
    let a := mxBytes fmt fp (s.wd n d 0xA0 4) w rows
    let b := mxBytes fmt tp (s.wd n d 0xA4 4) k tr
    a.1 ++ b.1 ++ a.2 ++ b.2
  else
    plainBytes fmt (s.entryExp n (s.wd n d (0x14 + 0x18 * v) 2) fmt) fp rows
    ++ plainBytes fmt (s.entryExp n (s.wd n d (0x16 + 0x18 * v) 2) fmt) tp tr

/-- Master and blotter of every weight (R307 step 4); none where the owner does not map them. -/
def writeMaster (n : PartIx) (ctx d : Nat) : List (Nat × List Num) → State → Option State
  | [], s => some s
  | (r, vs) :: rest, s =>
    let p := densePitch (s.wd n d 0xC 4) 2
    let st := vs.map (storeW (fmtOf (wdMasterFmt s n d)))
    match ownerWrite s ctx (s.wd n d 0x40 8 + r * p) (st.flatMap (fun x => toLE 2 x.1)) with
    | none => none
    | some t =>
      match ownerWrite t ctx (s.wd n d 0x48 8 + r * p) (st.flatMap (fun x => toLE 2 x.2.1)) with
      | none => none
      | some u => writeMaster n ctx d rest u

/-- An element of a copy overflows: its entry and the partition's events say so (R95, R112, R307). -/
def State.convOver (s : State) (n : PartIx) (fmt entry : Nat) (rows : List (List Num)) : State :=
  let e := s.entryExp n entry fmt
  if entry != 0 && !(isMx fmt) && rows.any (fun r => r.any (fun v => (roundFmt (fmtOf fmt) (v.scale e)).2.overflow)) then
    s.mergeCapture n { entry := entry, overflow := true }
  else s

/-- The four steps of R307 on a staged shard. -/
def State.convert (s : State) (c : Conv) : State :=
  let n := toPart c.part
  let d := hdDest c.header
  let v := 1 - s.recto n d
  let fmt := wdCopyFmt s n d
  let rows := rawRows c (stagedData s c)
  let flat := rows.flatten
  let a := amaxCode flat
  let nans := (flat.filter Num.isNan).length
  let s1 := s.loadScale n fmt (s.wd n d (0x14 + 0x18 * v) 2) a nans
  let fe := s.wd n d (0x14 + 0x18 * v) 2
  let te := s.wd n d (0x16 + 0x18 * v) 2
  let s2 := if te = fe then s1 else s1.loadScale n fmt te a nans
  let s3 := if bit (fieldAt c.header 0x23 1) 1 then
      writeMaster n (s.mdOwner c.model) d ((List.range rows.length).zip rows) s2
    else some s2
  match s3 with
  | none => s2.loadFail c.model 5 c.idx
  | some t =>
    let t1 := t.convOver n fmt fe rows
    let t2 := if te = fe then t1 else t1.convOver n fmt te rows
    t2.landDesc c.model c.idx c.header (convBytes t n d v rows)

/-- SHARD_CONVERSION (R307): the conversion unit has finished with a shard, and its stage pages are free. -/
def execShardConversion (m : Byte) (shard : BitVec 16) (s : State) : Out :=
  match s.wts.convs.find? (fun c => c.model == m.toNat && c.idx == shard.toNat) with
  | none => .next s
  | some c =>
    act s (s.live && decide (c.due ≤ s.time))
      (((s.meetPages c.pages).convert c).modWts (fun w =>
        { w with convs := w.convs.filter (fun x => !(x.model == c.model && x.idx == c.idx)) })).fillLoads

/-! ### Completion (R308) -/

/-- A page of a landed shard is mapped (R308 steps 1 and 3). -/
def State.mapPage (s : State) (m page f t : Nat) : State :=
  let n := s.mdPart m
  let ent := frameBase n t f + 2 * t + 17
  match leafAddr s (s.mdOwner m) page with
  | none => s
  | some leaf =>
    if s.mdState m = 5 then
      let old := s.rdLE leaf 8
      let s1 := s.setLeaf leaf ent
      let s2 := match leafAddr s1 (s.mdOwner m) (page + s.shadow m) with
        | some sh => s1.setLeaf sh (putBits old 0 0 0)
        | none => s1
      if bits old 2 1 = 3 then s2
      else (s2.modWts (fun w => { w with
        pushes := w.pushes ++ [(m, n.val, s.mdTenant m, bits old 2 1, frameNo (65536 * (bits old 63 16)))] })).mdWr m
          (0x38 + 4 * bits old 2 1) 4 (s.mdPages m (bits old 2 1) - 1)
    else s.setLeaf leaf ent

/-- A descriptor's loaded slot becomes recto, and the old recto's TAG 0 (R308 step 2); each change waits under R136 for latches on its
slot. -/
def State.loadSlot (s : State) (m : Nat) (x : Landed) : State :=
  let n := s.mdPart m
  let change := fun (u : State) (d : Deferred) => if slotLatched s n d.desc d.slot then u.deferChange n d else u.commitDeferred n d
  let t := change s { desc := x.dest, slot := x.slot, tag := some x.tag, recto := true, pages := [], ctx := s.mdOwner m }
  (change t { desc := x.dest, slot := 1 - x.slot, tag := some 0, recto := false, pages := [], ctx := s.mdOwner m, clear := true }).modWts (fun w => { w with slots := w.slots.filter (fun y => !(y.1 == m && y.2.1 == x.idx)) ++ [(m, x.idx, x.dest, x.slot)] })

/-- The record of a landed shard (R300, R308 step 4). -/
def State.writeRecord (s : State) (m : Nat) (l : LoadSt) (x : Landed) : State :=
  let a := s.shardAddr m x.idx
  let w := putBits (putBits (putBits (putBits (s.rdLE (a + 0x40) 4) 2 0 2) 4 3 x.tier) 5 5 (b2n x.desc)) 6 6
    (b2n (l.streamed.contains x.idx))
  ((s.wrBytes a (padTo 48 x.digest ++ toLE 8 x.dest ++ toLE 8 x.length)).wrBytes (a + 0x40) (toLE 4 w ++ toLE 4 x.tag)).wrLE (a + 0x48) 8
    (s.get (STK.COUNT_n.STROKES (s.mdPart m)) + s.sweepGap)

/-- Steps 1 to 4 of R308. -/
def State.complete (s : State) (m : Nat) (l : LoadSt) : State :=
  let objs := l.landed.filter (fun x => !x.desc)
  let s0 := if l.only.isNone then [0, 1, 2].foldl (fun t q => t.mdWr m (0x38 + 4 * q) 4 0) s else s
  let framesOf := fun (i : Nat) => ((l.frames.find? (fun y => y.1 == i)).map (fun y => y.2.2)).getD []
  let s1 := objs.foldl (fun t x =>
    (List.range (framesOf x.idx).length).foldl (fun u p => u.mapPage m (x.dest / 65536 + p) ((framesOf x.idx).getD p 0) x.tier) t) s0
  let s2 := (l.landed.filter (fun x => x.desc)).foldl (fun t x => t.loadSlot m x) s1
  let s3 := l.landed.foldl (fun t x => t.writeRecord m l x) s2
  let s4 := objs.foldl (fun t x => t.mdWr m (0x38 + 4 * x.tier) 4 (t.mdPages m x.tier + (framesOf x.idx).length)) s3
  if l.only.isNone && s4.md4 m 6 6 == 1 && s4.md m 0x28 8 != 0 then s4.wrLE (s4.md m 0x28 8 + 0x24) 2 l.streamed.length else s4

/-- LOAD_COMPLETION (R301, R308): every shard has landed. -/
def execLoadCompletion (m : Byte) (s : State) : Out :=
  let k := m.toNat
  match s.load k with
  | none => .next s
  | some l =>
    if s.live && l.placed && l.shards.all (fun i => l.landed.any (fun x => x.idx == i)) then
      let s1 := (s.complete k l).endLoad k
      let s2 := if s.mdState k = 5 then s1.mdSetGoal k 0 else s1
      .next ((s2.mdTo k 2).resumeGroup k)
    else .next s

/-! ### Streaming (R311) -/

/-- The local offset of an object address of a model's owner. -/
def ownerAddr (s : State) (m a : Nat) : Option Nat := (ownerPage s (s.mdOwner m) (a / 65536)).map (fun p => p.2.1 + a % 65536)

/-- Write VALUE of a semaphore of the stream block directly. -/
def State.streamSem (s : State) (m a v : Nat) : State :=
  match ownerAddr s m a with
  | some l => (s.wrLE l 4 v).afterExt l 4
  | none => s

/-- Change the streaming of a model. -/
def State.modStream (s : State) (m : Nat) (f : StreamSt → StreamSt) : State :=
  s.modWts (fun w => { w with streams := w.streams.map (fun x => if x.model = m then f x else x) })

/-- STREAM_START (R311): B + START: both semaphores are 0, and streaming begins. -/
def execStreamStart (m : Byte) (s : State) : Out :=
  let k := m.toNat
  let blk := s.md k 0x28 8
  match s.wts.streams.find? (fun x => x.model == k) with
  | none => .next s
  | some x =>
    act s (s.live && !x.on && s.mdState k == 2 && decide (x.bnd + bits (s.rdLE (blk + 0x20) 4) 26 0 ≤ s.time))
      ((((s.streamSem k (s.rdLE (blk + 0x10) 8) 0).streamSem k (s.rdLE (blk + 0x18) 8) 0)).modStream k (fun y => { y with on := true }))

/-- Copy a page of local memory, poison included. -/
def State.streamPage (s : State) (m src dst : Nat) : State :=
  match ownerAddr s m (65536 * src), ownerAddr s m (65536 * dst) with
  | some a, some b => let t := s.meet a 65536; t.extWrite b (t.rdBytes a 65536) (t.poisonIn a 65536)
  | _, _ => s

/-- STREAM_SHARD_COPY (R311): the window slot of the next streamed shard is free; the shard is copied and READY_SEM advances. -/
def execStreamShardCopy (m : Byte) (s : State) : Out :=
  let k := m.toNat
  let blk := s.md k 0x28 8
  match s.wts.streams.find? (fun x => x.model == k) with
  | none => .next s
  | some x =>
    let w := s.rdLE (blk + 0xC) 1
    let free := match ownerAddr s k (s.rdLE (blk + 0x18) 8) with
      | some a => s.rdLE a 4
      | none => 0
    let j := x.j
    if s.live && x.on && s.mdState k == 2 && decide (j < x.list.length) && w != 0 && (decide (j < w) || decide (j - w + 1 ≤ free)) then
      let r := recRange s k (x.list.getD j 0)
      let dst := s.rdLE blk 8 / 65536 + j % w * s.rdLE (blk + 8) 4
      let s1 := (List.range r.2).foldl (fun t p => t.streamPage k (r.1 + p) (dst + p)) s
      .next ((s1.streamSem k (s.rdLE (blk + 0x10) 8) (j + 1)).modStream k (fun y => { y with j := j + 1 }))
    else .next s

/-! ### Seal sweeps (R312) -/

/-- The ranges of object space in which a resident shard lies. -/
def shardRanges (s : State) (m i : Nat) : List (Nat × Nat) :=
  let n := s.mdPart m
  if s.rec40 m i 5 5 = 1 then
    let d := s.rdLE (s.shardAddr m i + 0x30) 8
    let v := match s.wts.slots.find? (fun x => x.1 == m && x.2.1 == i) with
      | some x => x.2.2.2
      | none => s.recto n d
    gatherParts s n d v
  else [(s.rdLE (s.shardAddr m i + 0x30) 8, s.rdLE (s.shardAddr m i + 0x38) 8)]

/-- The bytes of a resident shard as it lies in place, and whether all could be read good. -/
def shardInPlace (s : State) (m i : Nat) : List Byte × Bool :=
  (shardRanges s m i).foldl (fun acc p =>
    let r := ownerRead s (s.mdOwner m) p.1 p.2
    (acc.1 ++ r.1, acc.2 && r.2)) ([], true)

/-- A sweep finds a shard changed or poisoned: counted, recorded, and a RESIDENT model drains to be repaired. -/
def State.sweepMismatch (s : State) (m i : Nat) : State :=
  let s1 := (s.mdWr m 0x44 2 (s.md m 0x44 2 + 1)).bump WTS.COUNTS.SWEEP_MISMATCH 1
  let s2 := s1.wtsRecord 0x42 (m + 256 * i + 16777216 * s.rec40 m i 15 8)
  if s.mdState m = 2 then s2.beginDrain m 4 (some i) else s2

/-- SEAL_SWEEP (R312): the first queued shard is hashed in place, on a lane that no load needs. -/
def execSealSweep (s : State) : Out :=
  match s.wts.sweeps with
  | [] => .next s
  | (m, i) :: r =>
    if s.live && decide (s.lanes < 32) then
      let t := s.modWts (fun w => { w with sweeps := r })
      if (s.mdState m = 2 ∨ s.mdState m = 3) ∧ s.md4 m 7 7 = 1 ∧ s.active (s.mdPart m) ∧ i < s.mdCount m then
        let u := (shardRanges t m i).foldl (fun v p => ownerMeet (t.mdOwner m) (pageCount p.1 p.2) p.1 p.2 v) t
        let d := shardInPlace u m i
        let a := s.shardAddr m i
        .next (if d.2 && sha384 d.1 == u.rdBytes a 48 then
            (u.wrLE (a + 0x48) 8 (u.rdLE (a + 0x48) 8 + s.sweepGap)).bump WTS.SWEEPS.COUNT 1
          else u.sweepMismatch m i)
      else .next t
    else .next s

/-! ### Resets (R313) -/

/-- Models of a partition. -/
def modelsOf (s : State) (n : PartIx) : List Nat := (List.range 256).filter (fun m => decide (s.mdPart m = n))

/-- A clean reset of the partition: every model becomes EMPTY, and its reads are cancelled. -/
def State.wtsClean (s : State) (n : PartIx) : State :=
  let s1 := ((modelsOf s n).filter (fun m => s.mdState m != 0)).foldl (fun t m => (t.endLoad m).md4Wr m 3 0 0) s
  let mine := fun (m : Nat) => decide (s.mdPart m = n)
  s1.modWts (fun w =>
    { w with
      drains := w.drains.filter (fun d => !mine d.model)
      slots := w.slots.filter (fun x => !mine x.1)
      pushes := w.pushes.filter (fun p => p.2.1 != n.val)
      sweeps := w.sweeps.filter (fun x => !mine x.1)
      streams := w.streams.filter (fun x => !mine x.model)
      resume := w.resume.filter (fun m => !mine m) })

/-- A retaining reset of the partition (R313). -/
def State.wtsRetain (s : State) (n : PartIx) : State :=
  let one := fun (t : State) (m : Nat) =>
    let old := match t.load m with
      | some l => l.oldCount
      | none => 0
    let back := (t.unpop m).endLoad m
    let later := fun (u : State) => u.modWts (fun w => { w with resume := w.resume ++ [m] })
    if t.mdState m = 1 then (back.md4Wr m 15 12 7).mdTo m 7
    else if t.mdState m = 5 then
      (if t.mdGoal m = 4 then ((back.evictModel m false).md4Wr m 15 12 7).mdTo m 7
       else later (((back.mdWr m 0x0A 2 old).mdSetGoal m 0).mdTo m 2))
    else t
  let s1 := (modelsOf s n).foldl one s
  let s2 := (s1.wts.pushes.filter (fun p => p.2.1 == n.val)).foldl (fun t p => t.pushFrame n p.2.2.1 p.2.2.2.1 p.2.2.2.2) s1
  s2.modWts (fun w =>
    { w with
      pushes := w.pushes.filter (fun p => p.2.1 != n.val)
      streams := w.streams.filter (fun x => decide (s2.mdPart x.model ≠ n)) })

/-- The partition leaves reset: groups that wait for it resume (R313). -/
def State.wtsOut (s : State) (n : PartIx) : State :=
  let go := s.wts.resume.filter (fun m => decide (s.mdPart m = n))
  go.foldl (fun t m => t.resumeGroup m) (s.modWts (fun w => { w with resume := w.resume.filter (fun m => decide (s.mdPart m ≠ n)) }))

end Sys2Proof.Machine
end

