-- ==== Sys2Proof/Machine/Health.lean ====
section
/-! DEFINITION. Machine/Health.lean: the commands on the error log (R317 to R319), the health score (R334, R335), and lost state (R336). -/

namespace Sys2Proof.Machine

/-! ### The error log (R317 to R319) -/

/-- An interval of R319 that has ended writes what it counted as one record. -/
def State.closeRate (s : State) (iv : RateIv) : State :=
  let t := { s with rates := s.rates.filter (fun i => !(i.domain == iv.domain && i.code == iv.code)) }
  match iv.first with
  | some r => t.produceRec { r with coalesced := true, count := min 65535 iv.count } (baseLevel iv.code)
  | none => t

/-- COALESCE_INTERVAL_END (R319). -/
def execCoalesceIntervalEnd (domain : BitVec 4) (code : BitVec 16) (s : State) : Out :=
  match s.rates.find? (fun i => i.domain == domain.toNat && i.code == code.toNat) with
  | none => .next s
  | some iv => act s (s.live && decide (iv.due ≤ s.time)) (s.closeRate iv)

/-- HANDLING := 0 and LEVEL := 0 in a domain (R318). -/
def State.clearDomain (s : State) (d : Nat) : State := (s.put (ERR.DOMAIN_d.HANDLING d) 0).put (ERR.DOMAIN_d.LEVEL d) 0

/-- ERR_ACK (R318): ERR.ACK is written with GO. -/
def execErrAck (domain : BitVec 4) (s : State) : Out := act s s.live (s.clearDomain domain.toNat)

/-- A write of ERR.CONSUMER: ignored outside PRODUCER − 4,096 to PRODUCER (R317). -/
def State.setConsumer (s : State) (v : Nat) : State :=
  if (s.get ERR.PRODUCER.SEQ + 2 ^ 32 - v % 2 ^ 32) % 2 ^ 32 ≤ 4096 then s.put ERR.CONSUMER.SEQ v else s

/-- CONSUMER_WRITE (R317). -/
def execConsumerWrite (v : BitVec 32) (s : State) : Out := act s s.live (s.setConsumer v.toNat)

/-! ### Health (R334, R335) -/

/-- Bits set among the low k bits of a number. -/
def popCount (k w : Nat) : Nat := ((List.range k).filter (fun i => bit w i)).length

/-- The ten Graticule ports and the Ferrule port. -/
def allLinks : List LinkIx := [0, 1, 2, 3, 4, 5, 6, 7, 8, 9, 10]

/-- sp of R334: lanes marked failed. -/
def failedLanes (s : State) : Nat := (allLinks.map (fun l => popCount 9 (s.get (linkFailed l)))).sum
/-- hw of R334: ports in half-width mode. -/
def halfPorts (s : State) : Nat := (allLinks.filter (fun l => s.on (linkHalf l))).length
/-- ch of R334: channels of a partition marked or retired. -/
def badChannels (s : State) (n : PartIx) : Nat :=
  popCount 32 (Nat.lor (s.get (markField n 1)) (s.get (retiredField n 1)))
  + popCount 32 (Nat.lor (s.get (markField n 2)) (s.get (retiredField n 2)))

/-- The length of a health window in aclk. -/
def State.healthWindow (s : State) : Nat := 800000000 * max 1 (s.inForce HLT.CFG.WINDOW_S)

/-- A health state change writes HEALTH_STATE and sets the cause of an In-Band Interrupt (R335, R372). -/
def State.healthTo (s : State) (n : PartIx) (v : Nat) : State :=
  if s.get (HLT.SCORE_n.STATE n) = v then s
  else
    let t := s.put (HLT.SCORE_n.STATE n) v
    (t.raiseAt { code := 0x55, domain := domPart n,
                 d0 := v + 4 * t.get (HLT.SCORE_n.SCORE n) + 1024 * t.get (HLT.SCORE_n.CONF n) } (if v = 2 then 3 else 0)).ibiCause
      MGT.IBI_CAUSE.HEALTH

/-- The row of R335 for a window's end. -/
def State.healthRow (s : State) (n : PartIx) (score : Nat) : State :=
  let st := s.get (HLT.SCORE_n.STATE n)
  let clean := s.get (HLT.SCORE_n.CLEAN n)
  let clear := fun (t : State) => t.put (HLT.SCORE_n.CLEAN n) 0
  let fail := decide (score < s.inForce HLT.CFG.FAIL_BELOW)
  if st = 0 then
    (if fail then s.healthTo n 2
     else if score < s.inForce HLT.CFG.WATCH_BELOW then (clear s).healthTo n 1
     else s)
  else if st = 1 then
    (if fail then s.healthTo n 2
     else if s.inForce HLT.CFG2.CLEAR_ABOVE ≤ score then
       (if clean + 1 < max 1 (s.inForce HLT.CFG2.CLEAR_WINDOWS) then s.put (HLT.SCORE_n.CLEAN n) (clean + 1)
        else if clean + 1 = max 1 (s.inForce HLT.CFG2.CLEAR_WINDOWS) then (clear s).healthTo n 0
        else clear s)
     else clear s)
  else s

/-- The score of R334 for partition n: the penalties, SCORE and CONF. -/
def healthScore (s : State) (n : PartIx) : List Nat × Nat × Nat :=
  let h := (s.part n).health
  let pce := min 48 (h.ce / max 1 (s.inForce HLT.CFG.CE_UNIT))
  let pue := min 64 (16 * h.ue)
  let pch := min 96 (32 * badChannels s n)
  let pln := min 48 (4 * failedLanes s + 24 * halfPorts s)
  let prr := if h.rr + h.lf = 0 then 0 else min 32 (64 * h.rr / (h.rr + h.lf))
  let pth := if h.ac = 0 then 0 else 32 * h.th / h.ac
  let score := 255 - pce - pue - pch - pln - prr - pth
  let conf := min (255 * h.ac / (s.time - h.from_)) (255 * min (h.rr + h.lf) 1000 / 1000)
  ([pce, pue, pch, pln, prr, pth], score, conf)

/-- The end of a health window (R334, R335). -/
def State.healthEnd (s : State) (n : PartIx) : State :=
  let (p, score, conf) := healthScore s n
  let g := fun (i : Nat) => p.getD i 0
  let s1 := (((((s.put (HLT.DETAIL_n.P_CE n) (g 0)).put (HLT.DETAIL_n.P_UE n) (g 1)).put (HLT.DETAIL_n.P_CH n) (g 2)).put
    (HLT.DETAIL_n.P_LN n) (g 3)).put (HLT.DETAIL_n.P_RR n) (g 4)).put (HLT.DETAIL_n.P_TH n) (g 5)
  let s2 := (((s1.bump (HLT.DETAIL_n.WINDOWS n) 1).put (HLT.SCORE_n.SCORE n) score).put (HLT.SCORE_n.CONF n) conf).modHealth n
    (fun _ => { from_ := s.time })
  if conf < s.inForce HLT.CFG2.CONF_MIN then s2 else s2.healthRow n score

/-- HEALTH_WINDOW_END (R334, R335). -/
def execHealthWindowEnd (n : PartIx) (s : State) : Out :=
  act s (s.live && decide ((s.part n).health.from_ + s.healthWindow ≤ s.time)) (s.healthEnd n)

/-- PROBATION (R335): written 1. -/
def execProbation (n : PartIx) (s : State) : Out :=
  act s s.served (((s.afterBoundary n).put (HLT.SCORE_n.CLEAN n) 0).healthTo n 1)

/-- RESET_STATE (R335): a FAILING partition returns to PROBATION. -/
def execResetState (n : PartIx) (s : State) : Out :=
  act s (s.served && s.get (HLT.SCORE_n.STATE n) == 2) (((s.afterBoundary n).put (HLT.SCORE_n.CLEAN n) 0).healthTo n 1)

/-! ### Lost state (R336) -/

/-- JOB_WRITE (R336): HLT.JOB is written. -/
def execJobWrite (v : Word) (s : State) : Out :=
  act s s.settable (((s.put HLT.JOB.JOB_ID (bits v.toNat 31 0)).put HLT.JOB.LOGICAL (bits v.toNat 47 32)).put HLT.JOB.LOST 0)

/-- STATE_LOST (R336): HLT.REPORT.STATE_LOST is written 1. -/
def execStateLost (s : State) : Out :=
  act s s.served ((s.raise { code := 0x56, domain := 0, d0 := s.get HLT.JOB.JOB_ID + 4294967296 * s.get HLT.JOB.LOGICAL }).put HLT.JOB.LOST 1)

/-! ### Tracing slots (R331) -/

/-- TRACE_SLOT_RELEASE (R331): a KEPT slot becomes FREE. -/
def execTraceSlotRelease (k : Fin 2) (s : State) : Out :=
  act s (s.live && s.get (RST.TRACE_SLOT_k.STATE k) == 2) (s.put (RST.TRACE_SLOT_k.STATE k) 0)

end Sys2Proof.Machine
end

