-- ==== Sys2Proof/Machine/RegRead.lean ====
section
/-! DEFINITION. Machine/RegRead.lean: finding a register by its offset (R10, R375), what its fields read (R6, R374), the windows of
R378, and reads by an agent (R9, R11). -/

namespace Sys2Proof.Machine

/-! ### Finding a register -/

/-- What is left of an offset once the instance strides are taken away; none past the last instance. -/
def dimRest : List (Nat × Nat) → Nat → Option Nat
  | [], r => some r
  | (stride, count) :: ds, r => if r / stride < count then dimRest ds (r % stride) else none

/-- Bytes of a register. -/
def RegRow.size (r : RegRow) : Nat := if r.wide then 8 else 4

/-- The place of an offset within a register of the table: the offset of the instance, and 0 or 4. -/
def RegRow.hit (r : RegRow) (off : Nat) : Option (Nat × Nat) :=
  if off < r.base then none
  else match dimRest r.dims (off - r.base) with
    | some d => if d < r.size then some (off - d, d) else none
    | none => none

/-- The register that an offset lies in: its row, the offset of the instance, and the offset within it. -/
def findReg (off : Nat) : Option (RegRow × Nat × Nat) :=
  regTable.findSome? (fun r => (r.hit off).map (fun p => (r, p.1, p.2)))

/-- The field of a row in the instance at an offset. -/
def FieldRow.at_ (f : FieldRow) (inst : Nat) : Field := ⟨inst, f.hi, f.lo, f.reset⟩

/-- An offset lies in a block (R375). -/
def inBlock (off : Nat) : Bool := decide (off < 0x150000) || (decide (0x800000 ≤ off) && decide (off < 0x900000))

/-- The blocks that are reached before S0 (R353, R376): BOOT, CAP, ERR and RST. -/
def earlyBlock (off : Nat) : Bool :=
  off / 0x10000 == 0x0E || off / 0x10000 == 0x0F || off / 0x10000 == 0x11 || off / 0x10000 == 0x12

/-- An offset lies in a window of 64-bit registers (R378), in the CAP block (R362) or in the model table (R299). -/
def inWindow (off : Nat) : Bool :=
  (decide (0x0E0100 ≤ off) && decide (off < 0x0E0140)) || (decide (0x0F0100 ≤ off) && decide (off < 0x0F0140))
  || (decide (0x111000 ≤ off) && decide (off < 0x112000)) || off / 0x10000 == 0x12
  || (decide (0x0D8000 ≤ off) && decide (off < 0x0E0000))

/-! ### What registers read -/

/-- A register as its fields are held. -/
def State.rawReg (s : State) (r : RegRow) (inst : Nat) : Nat :=
  (r.fields.map (fun f => if f.type = .wo then 0 else s.get (f.at_ inst) * 2 ^ f.lo)).sum

/-- The register at an offset as its fields are held. -/
def State.rawAt (s : State) (off : Nat) : Nat :=
  match findReg off with
  | some (r, i, _) => s.rawReg r i
  | none => 0

/-- Bits [hi:lo] of the fuse array (R344). -/
def State.fuse (s : State) (hi lo : Nat) : Nat := bits s.fuses hi lo
/-- DIE_ID of the fuse map. -/
def State.dieId (s : State) : Nat := s.fuse 319 256
/-- The fuse SVN: burned bits of the thermometer (R344). -/
def State.fuseSvn (s : State) : Nat := popCount 64 (s.fuse 3711 3648)
/-- Fuse word w as BOOT.FUSE_DATA reads it (R361). -/
def State.fuseWord (s : State) (w : Nat) : Nat := if w < 8 then 0 else s.fuse (32 * w + 31) (32 * w)

/-- The highest LEVEL of a domain (R374). -/
def State.topLevel (s : State) : Nat := (List.range 16).foldl (fun m d => max m (s.get (ERR.DOMAIN_d.LEVEL d))) 0
/-- HANDLING of each domain, bit d (R374). -/
def State.handlingBits (s : State) : Nat := ((List.range 16).map (fun d => s.get (ERR.DOMAIN_d.HANDLING d) * 2 ^ d)).sum
/-- HALTED of each core, bit c (R370). -/
def State.haltedBits (s : State) : Nat := ((List.range 16).map (fun c => s.get (DBG.CORE_c.HALTED c) * 2 ^ c)).sum

/-- MGT.STATUS (R374). -/
def State.mgtStatus (s : State) : Nat :=
  s.get BOOT.STATUS.STAGE + 16 * s.get BOOT.STATUS.STARTED + 32 * s.get FRL.STATUS.ATTACHED + 64 * b2n s.power.dieAlert
  + 128 * b2n s.power.inlet + 256 * s.get CHT.SELF.MODULE

/-- Registers that show what other state holds: offset and value (R40, R337, R361, R370, R374). -/
def State.mirror (s : State) (off : Nat) : Option Nat :=
  if off = STK.TIME.ACLK.addr then some (s.time % 2 ^ 64)
  else if off = BOOT.FUSE_DATA.DATA.addr then some (s.fuseWord (s.get BOOT.FUSE_INDEX.WORD))
  else if off = DBG.STATUS.HALTED.addr then some (s.rawAt off + 256 * s.haltedBits)
  else if off = MGT.STATUS.STAGE.addr then some s.mgtStatus
  else if off = MGT.TEMP.SHELL_C.addr then
    some (s.get PWR.THERM_CFG.DIE_MAX_C + 256 * s.get PWR.THERM_CFG.INLET_C + 65536 * (s.power.outletC % 256)
      + 16777216 * (s.power.shellC % 256))
  else if off = MGT.POWER.WATTS.addr then some (s.get PWR.INPUT.WATTS + 65536 * s.get PWR.INPUT.MEAN_WATTS)
  else if off = MGT.ERRORS.LEVEL.addr then
    some (s.topLevel + 16 * s.handlingBits + 1048576 * (s.get ERR.PRODUCER.SEQ % 4096))
  else if off = MGT.JOB.JOB.addr then some (s.rawAt HLT.JOB.JOB_ID.addr)
  else if off = MGT.DIE_ID.DIE_ID.addr then some (if s.get BOOT.STATUS.STAGE = 0 then 0 else s.dieId)
  else if (MGT.HEALTH_n.SCORE_STATE 0).addr ≤ off ∧ off ≤ (MGT.HEALTH_n.SCORE_STATE 3).addr then
    some (s.rawAt (0x100010 + 0x10 * ((off - 0x140010) / 4)) % 262144)
  else none

/-- The 64 bytes of record WINDOW_INDEX, zero if it is not among the last 4,096 (R337). -/
def State.errWindow (s : State) : List Byte :=
  match s.errs.find? (fun r => r.seq == s.get ERR.WINDOW_INDEX.SEQ) with
  | some r => r.bytes
  | none => List.replicate 64 0

/-- The 64 bytes that RST.TRACE_READ names (R338). -/
def State.traceWindow (s : State) : List Byte :=
  slice (if s.on RST.TRACE_READ.SLOT then s.trace1 else s.trace0) (64 * s.get RST.TRACE_READ.OFFSET) 64

/-- k bytes from an offset in a window, the CAP block or the model table. -/
def State.windowRead (s : State) (off k : Nat) : Nat :=
  if off / 0x10000 = 0x0E then fieldAt s.errWindow (off - 0x0E0100) k
  else if off / 0x10000 = 0x0F then fieldAt s.traceWindow (off - 0x0F0100) k
  else if off / 0x10000 = 0x11 then fieldAt s.boot.report (off - 0x111000) k
  else if off / 0x10000 = 0x12 then fieldAt s.cap (off - 0x120000) k
  else leNat ((List.range k).map (fun i => Sparse.get s.wts.table (off - 0x0D8000 + i) 0))

/-- What an agent reads from a field: from an RC field what it held before the events of this aclk (R9). -/
def State.seen (s : State) (f : Field) (t : RegType) : Nat :=
  if t = .rc then Sparse.get s.before f.key (s.get f) else s.get f

/-- A register as an agent reads it. -/
def State.readReg (s : State) (r : RegRow) (inst : Nat) : Nat :=
  (r.fields.map (fun f => if f.type = .wo then 0 else s.seen (f.at_ inst) f.type * 2 ^ f.lo)).sum

/-- The value of a whole register of the table. -/
def State.regValue (s : State) (r : RegRow) (inst : Nat) : Nat := (s.mirror inst).getD (s.rawReg r inst)

/-- The same as an agent reads it. -/
def State.regSeen (s : State) (r : RegRow) (inst : Nat) : Nat := (s.mirror inst).getD (s.readReg r inst)

/-- An RC field is cleared; what has happened in this aclk is counted after the clear (R9). -/
def State.clearField (s : State) (f : Field) : State :=
  let t := s.put f (Sparse.get s.noted f.key 0)
  { t with before := t.before.map (fun p => if p.1 = f.key then (p.1, 0) else p) }

/-- Clear the RC fields of a register (R9). -/
def State.clearRc (s : State) (r : RegRow) (inst : Nat) : State :=
  r.fields.foldl (fun t f => if f.type = .rc then t.clearField (f.at_ inst) else t) s

/-- The number of an agent (R355). -/
def agentIx : Agent → Fin 4
  | .ferrule => 0
  | .onaut => 1
  | .mgmt => 2
  | .firmware => 3

/-- An agent's latch and hold are replaced; an access of any other kind discards both (R11). -/
def State.setAgent (s : State) (ag : Agent) (latch hold : Option (Nat × Nat)) : State :=
  { s with agents := s.agents.set (agentIx ag) { latch := latch, hold := hold } }

/-- A read of 64 bits, or of one half, of a 64-bit register whose value is v (R11): `rc` clears its RC fields. -/
def State.readWide (s : State) (ag : Agent) (inst d v : Nat) (wide : Bool) (rc : State → State) : Nat × State :=
  if wide then (v, (rc s).setAgent ag none none)
  else if d = 0 then (v % 4294967296, (rc s).setAgent ag (some (inst, v / 4294967296)) none)
  else
    match s.agents[agentIx ag].latch with
    | some (a, hi) => if a = inst then (hi, s.setAgent ag none none) else (v / 4294967296, s.setAgent ag none none)
    | none => (v / 4294967296, s.setAgent ag none none)

/-- A register of the model table at an offset within its entry is 64 bits wide (R299). -/
def entryWide (o : Nat) : Bool := (decide (0x10 ≤ o) && decide (o < 0x38)) || (decide (0x48 ≤ o) && decide (o < 0x50))

/-- An offset lies in the model table. -/
def inModels (off : Nat) : Bool := decide (0x0D8000 ≤ off) && decide (off < 0x0E0000)

/-- A read of register space by an agent: 4 or 8 bytes at a naturally aligned offset (R9 to R11, R378). An offset in a block
that holds no register reads 0. -/
def State.regRead (s : State) (ag : Agent) (off : Nat) (wide : Bool) : Nat × State :=
  if inModels off && !entryWide (off % 128) then (s.windowRead off 4, s.setAgent ag none none)
  else if inWindow off then s.readWide ag (off / 8 * 8) (off % 8) (s.windowRead (off / 8 * 8) 8) wide id
  else match findReg off with
    | some (r, i, d) =>
      if r.wide then s.readWide ag i d (s.regSeen r i) wide (fun t => t.clearRc r i)
      else (s.regSeen r i, (s.clearRc r i).setAgent ag none none)
    | none => (0, s.setAgent ag none none)

/-- An access covers one whole register, a half of a 64-bit one, or a hole of a block (R11, R284). -/
def regFits (off : Nat) (wide : Bool) : Bool :=
  inBlock off && (if wide then off % 8 == 0 else off % 4 == 0)
  && (if inModels off then entryWide (off % 128) || !wide else inWindow off || (match findReg off with
    | some (r, _, _) => r.wide || !wide
    | none => !wide || (findReg (off + 4)).isNone))

end Sys2Proof.Machine
end

