-- ==== Sys2Proof/Machine/Trace.lean ====
section
/-! DEFINITION. Machine/Trace.lean: tracings (R329 to R331). -/

namespace Sys2Proof.Machine

/-- The read of a register has no answer within 1,024 aclk (R329). -/
def silent (q off : Nat) : Bool := decide (1024 < Config.regDelay q (off / 4 * 4))

/-- k bytes of register space from an offset, as tracing q reads them: no field clears, and a register without an answer is zero (R329). -/
def State.regDump (s : State) (q off k : Nat) : List Byte :=
  (List.range k).map (fun i => if silent q (off + i) then 0 else match findReg (off + i) with
    | some (r, inst, d) => BitVec.ofNat 8 (s.regValue r inst / 256 ^ d)
    | none => 0)

/-- Ranges of register space one after the other, and the STATUS of their section: 2 where a register had no answer (R329, R330). -/
def State.regDumps (s : State) (q : Nat) (l : List (Nat × Nat)) : List Byte × Nat :=
  (l.flatMap (fun r => s.regDump q r.1 r.2), if l.any (fun r => (List.range r.2).any (fun i => silent q (r.1 + i))) then 2 else 0)

/-- The local offset of row r of a module bank (R201). -/
def bankLine (bank r : Nat) : Nat :=
  let lo := Nat.xor (Nat.xor (Nat.xor (bank % 128) (bits r 6 0)) (bits r 13 7)) (bits r 15 14)
  0x40000000 * (bank / 128) + 16384 * r + 128 * lo

/-- A section: its header and its body (R330). -/
def section_ (ty status index : Nat) (body : List Byte) : List Byte :=
  padTo 16 (toLE 1 ty ++ toLE 1 status ++ toLE 2 index ++ toLE 4 body.length) ++ body

/-- The rows that a tracing samples of a bank (R329). -/
def sampledRows (head samples stride : Nat) : List Nat :=
  List.range head ++ (List.range samples).map (fun j => ((head + stride * (j + 1)) + 65535) % 65536)

/-- The sampled line from which on a bank is unreadable: its read has no answer within BANK_TIMEOUT (R329, R338). -/
def State.bankFails (s : State) (q bank : Nat) (rows : List Nat) : Nat :=
  ((List.range rows.length).find? (fun i => decide (max 16 (s.inForce RST.TRACE_CFG2.BANK_TIMEOUT) < Config.bankDelay q bank i))).getD rows.length

/-- The lines of a bank that were read and have a UE bit (R329). -/
def State.bankUe (s : State) (q bank : Nat) (rows : List Nat) : List Nat :=
  (List.range (s.bankFails q bank rows)).filter (fun i => s.anyPoison (bankLine bank (rows.getD i 0)) 128)

/-- The section of a bank: STATUS 1 where it is unreadable, the map of unreadable lines, the UE map, and the lines (R329, R330). -/
def State.bankSection (s : State) (q bank : Nat) (rows : List Nat) : List Byte :=
  let k := s.bankFails q bank rows
  let bits := fun (l : List Nat) => toLE 8 ((l.map (fun i => 2 ^ i)).sum)
  section_ 1 (b2n (decide (k < rows.length))) bank
    (bits ((List.range rows.length).drop k) ++ bits (s.bankUe q bank rows)
      ++ (rows.take k).flatMap (fun r => s.rdBytes (bankLine bank r) 128) ++ List.replicate (128 * (rows.length - k)) 0)

/-- The section of the shell: its bytes and its STATUS. -/
def State.shellSection (s : State) (q : Nat) : List Byte × Nat :=
  let d := s.regDumps q ([(0x0E0000, 0x80), (0x0F0000, 0x60)]
    ++ (List.range 10).flatMap (fun p => [((GRT.PSTATE_p.STATE p).addr, 8), ((GRT.PERR_p.REPLAYS p).addr, 8)]) ++ [(0x0C0000, 0x40)])
  (section_ 6 d.2 0 (padTo 1024 d.1), d.2)

/-- The section of a partition. -/
def State.partSection (s : State) (q : Nat) (n : PartIx) : List Byte × Nat :=
  let i := n.val
  let d := s.regDumps q [(0x10020 + 0x20 * i, 0x20), (0x20000 + 4 * i, 4), (0x60000 + 0x40 * i, 0x40), (0x50000 + 0x40 * i, 0x40),
    (0x70100 + 0x40 * i, 0x40), (0x20 + 4 * i, 4)]
  (section_ 5 d.2 i (padTo 512 d.1), d.2)

/-- The section of a sequencer: its registers, and the commands at SEG_START and CMD_PTR. -/
def State.seqSection (s : State) (q : Nat) (c : CoreIx) : List Byte × Nat :=
  let k := s.get (SEQ.STATE.CONTEXT c)
  let d := s.regDumps q [(0x801000 + 0x10000 * c.val, 0x44)]
  (section_ 2 d.2 c.val (padTo 128 d.1 ++ (objRead s c k (s.get (SEQ.SEG_START.ADDR c)) 64).1
    ++ (objRead s c k (s.get (SEQ.CMD_PTR.ADDR c)) 64).1), d.2)

/-- The contexts whose entries a tracing takes: every RUNNING one, and each core's last pick (R330). -/
def State.tracedCtx (s : State) (ns : List PartIx) : List Nat :=
  ns.flatMap (fun n =>
    let picks := (coresOf n).filterMap (fun c => if (s.core c).ptr.isEmpty then none else some (s.get (SEQ.STATE.CONTEXT c)))
    (List.range 4096).filterMap (fun i =>
      let k := 4096 * n.val + i
      if s.ctxState k = 2 ∨ picks.contains k then some k else none))

/-- The section of a context. -/
def State.ctxSection (s : State) (k : Nat) : List Byte := section_ 3 0 k (s.rdBytes (s.ctxAddr k) 128)

/-- The section of an engine. -/
def State.engSection (s : State) (q i : Nat) : List Byte × Nat :=
  let d := s.regDumps q [(0x800000 + 0x10000 * (i / 8) + 0x40 * (i % 8), 0x24)]
  (section_ 4 d.2 i (padTo 64 d.1), d.2)

/-- The sampling that fits in 4 MiB beside `other` bytes: SAMPLES falls first, then HEAD (R331). -/
def fitSampling (other banks head samples : Nat) : Nat × Nat :=
  let fits := fun (h j : Nat) => decide (other + banks * (32 + 128 * (h + j)) ≤ 4194304)
  match (List.range (samples + 1)).reverse.find? (fits head) with
  | some j => (head, j)
  | none => (((List.range (head + 1)).reverse.find? (fun h => fits h 0)).getD 0, 0)

/-- The slot of the tracing store that a tracing takes: a FREE one, else the older (R331). -/
def State.traceSlot (s : State) : Nat :=
  if s.get (RST.TRACE_SLOT_k.STATE 0) = 0 then 0
  else if s.get (RST.TRACE_SLOT_k.STATE 1) = 0 then 1
  else if s.on (RST.TRACE_SLOT_k.NEWER 0) then 1 else 0

/-- The cores of a tracing. -/
def TraceSt.cores (x : TraceSt) : List CoreIx := x.parts.flatMap coresOf

/-- The sections of a tracing but the banks', each with its STATUS (R330). -/
def State.stateSections (s : State) (q : Nat) (x : TraceSt) : List (List Byte × Nat) :=
  (if x.chip then [s.shellSection q] else []) ++ x.parts.map (s.partSection q) ++ x.cores.map (s.seqSection q)
    ++ (s.tracedCtx x.parts).map (fun k => (s.ctxSection k, 0))
    ++ x.cores.flatMap (fun c => (List.range 8).map (fun e => s.engSection q (8 * c.val + e)))

/-- The sampling of a tracing beside `other` bytes of it: HEAD, SAMPLES, STRIDE, and whether it was reduced (R331). -/
def State.sampling (s : State) (x : TraceSt) (other : Nat) : Nat × Nat × Nat × Bool :=
  let head0 := min 64 (s.inForce RST.TRACE_CFG.HEAD)
  let samples0 := min (s.inForce RST.TRACE_CFG.SAMPLES) (64 - head0)
  let (head, samples) := fitSampling other (128 * x.cores.length) head0 samples0
  (head, samples, max 1 (s.inForce RST.TRACE_CFG.STRIDE), head != head0 || samples != samples0)

/-- The header of a tracing (R330). -/
def State.traceHeader (s : State) (x : TraceSt) (f : Nat × Nat × Nat × Bool) (done : Bool) (length end_ sections banks units ue : Nat) : List Byte :=
  let hdr := padTo 252 (ascii [0x59, 0x58, 0x54, 0x52] ++ toLE 2 1 ++ toLE 2 0x100 ++ toLE 4 length
    ++ toLE 1 (b2n done + 2 * b2n f.2.2.2) ++ toLE 1 ((x.parts.map (fun n => 2 ^ n.val)).sum + 16 * b2n x.chip)
    ++ toLE 2 (s.get RST.PERSIST.CHIP_RESETS) ++ toLE 8 x.start ++ toLE 8 end_ ++ toLE 1 f.1 ++ toLE 1 f.2.1 ++ toLE 2 f.2.2.1
    ++ toLE 4 x.seq ++ toLE 4 sections ++ toLE 2 banks ++ toLE 2 units ++ toLE 4 ue)
  hdr ++ toLE 4 (crc32 hdr)

/-- The bytes of a slot of the tracing store, and its LENGTH. -/
def State.putTrace (s : State) (k : Nat) (bs : List Byte) : State :=
  (if k = 0 then { s with trace0 := bs } else { s with trace1 := bs }).put (RST.TRACE_SLOT_k.LENGTH k) bs.length

/-- A tracing of some partitions, or of the chip, begins (R329 to R331): its slot is WRITING, and its header stands there with
COMPLETE = 0. -/
def State.traceStart (s : State) (ns : List PartIx) (chip : Bool) : State :=
  let k := s.traceSlot
  let x : TraceSt := { parts := ns, chip := chip, slot := k, start := s.time, seq := s.get ERR.PRODUCER.SEQ }
  let t := State.putTrace { s with tracer := some x } k (s.traceHeader x (s.sampling x 256) false 256 0 0 0 0 0)
  ((t.put (RST.TRACE_SLOT_k.STATE k) 1).put (RST.TRACE_SLOT_k.NEWER k) 1).put (RST.TRACE_SLOT_k.NEWER (1 - k)) 0

/-- The tracing being taken ends: its sections stand behind its finished header, and the slot is KEPT (R329 to R331). -/
def State.traceEnd (s : State) (x : TraceSt) : State :=
  let q := s.free
  let parts := s.stateSections q x
  let f := s.sampling x (256 + (parts.map (fun p => p.1.length)).sum)
  let rows := sampledRows f.1 f.2.1 f.2.2.1
  let banks := x.cores.flatMap (fun c => (List.range 128).map (fun b => 128 * c.val + b))
  let body := parts.flatMap (fun p => p.1) ++ banks.flatMap (fun b => s.bankSection q b rows)
  let hdr := s.traceHeader x f true (256 + body.length) s.time (parts.length + banks.length)
    (banks.filter (fun b => decide (s.bankFails q b rows < rows.length))).length (parts.filter (fun p => p.2 == 2)).length
    ((banks.map (fun b => (s.bankUe q b rows).length)).sum)
  let t := State.putTrace { s with tracer := none, free := q + 1 } x.slot (hdr ++ body)
  (t.put (RST.TRACE_SLOT_k.STATE x.slot) 2).raise
    { code := 0x54, domain := if x.chip then 0 else (x.parts.map domPart).headD 0, d0 := x.slot + 2 + 4 * b2n f.2.2.2 }

/-- The tracing being taken may end in this aclk: a free value says when (log entry 98). -/
def State.traceStep (s : State) : State :=
  match s.tracer with
  | none => s
  | some x =>
    let t := s.draw.2
    if s.draw.1.toNat % 2 = 1 && decide (x.start < s.time) then t.traceEnd x else t

end Sys2Proof.Machine
end

