-- ==== Sys2Proof/Machine/Resets.lean ====
section
/-! DEFINITION. Machine/Resets.lean: unit resets (R325), partition resets (R322, R326 to R328, with R50, R51, R211, R219, R246, R247,
R250, R292, R313, R369) and the end of a power transition (R51). -/

namespace Sys2Proof.Machine

/-! ### Unit resets (R325) -/

/-- The fields of a core's block are cleared: ENG, SEQ and IDL. -/
def State.clearCoreRegs (s : State) (c : CoreIx) : State := s.clearRegs (0x800000 + 0x10000 * c.val) (0x810000 + 0x10000 * c.val)

/-- A unit discards all its state: an engine as R89 says, and its fields clear (R325). -/
def State.discardUnit (s : State) (c : CoreIx) (unit : Nat) : State :=
  if unit < 8 then
    let lo := 0x800000 + 0x10000 * c.val + 0x40 * unit
    (s.dropEngine c (toEng unit)).clearRegs lo (lo + 0x40)
  else if unit = 8 then s.modCore c (fun k => { k with rowEng := none })
  else if unit = 9 then s.modCore c (fun k => { k with upd := none })
  else s.modCore c (fun k => { k with mover := [] })

/-- RST.UNIT is written with GO (R325): refused, or the kill, and the unit's state goes; no debug field changes (R369). -/
def State.unitReset (s : State) (c : CoreIx) (unit : Nat) : State :=
  let n := partOf c
  if decide (10 < unit) || (s.part n).inReset || !s.active n || s.on RST.UNIT.BUSY then s.flag RST.UNIT.ERR 1
  else
    let s1 := ((s.put RST.UNIT.CORE c.val).put RST.UNIT.UNIT unit).put RST.UNIT.BUSY 1
    let s2 := (s1.killOrAlso c 10).put (DBG.CORE_c.STEPPING c) (s.get (DBG.CORE_c.STEPPING c))
    (s2.discardUnit c unit).modCore c (fun k => { k with unitReset := some (unit, s.time, false) })

/-- UNIT_RESET (R325). -/
def execUnitReset (c : CoreIx) (unit : BitVec 4) (s : State) : Out := act s s.live (s.unitReset c unit.toNat)

/-- A unit reset of a core is over: BUSY and the record (R325). -/
def State.unitResetOver (s : State) (c : CoreIx) (unit : Nat) : State :=
  ((s.put RST.UNIT.BUSY 0).modCore c (fun k => { k with unitReset := none })).raise
    { code := 0x52, domain := domPart (partOf c), core := c.val, unit := unit, d0 := 2 + 256 * c.val + 4096 * unit }

/-- UNIT_RESET_END (R325): the unit has returned to idle. A kill that had not completed may now (SEQUENCER_READY). -/
def execUnitResetEnd (s : State) : Out :=
  match allCores.findSome? (fun c => (s.core c).unitReset.map (fun u => (c, u.1))) with
  | some (c, u) => act s (s.live && s.on RST.UNIT.BUSY) (s.unitResetOver c u)
  | none => .next s

/-- A core's kill has not completed 1,024 aclk after it began, which no record says yet (R325). -/
def State.lateKill (s : State) (c : CoreIx) : Bool :=
  s.get (SEQ.STATE.STATE c) == 4 && (match (s.core c).killed with
    | some k => !k.late && decide (k.time + 1024 ≤ s.time)
    | none => false)

/-- A core's unit reset has not completed 4,000 aclk after its write, which no record says yet (R325). -/
def State.lateUnit (s : State) (c : CoreIx) : Bool :=
  match (s.core c).unitReset with
  | some (_, t, told) => !told && decide (t + 4000 ≤ s.time)
  | none => false

/-- The maximum of a step of a partition reset, in aclk (R326). -/
def partStepMax (retain : Bool) (k : Nat) : Nat :=
  if k = 1 then 64
  else if k = 2 then 8000000
  else if k = 3 then 800000
  else if k = 4 then (if retain then 800000 else 0)
  else if k = 5 then 80000
  else if k = 6 then (if retain then 960000000 else 1440000000)
  else if k = 7 then 192000000
  else if k = 8 then (if retain then 0 else 200000000)
  else 80000

/-- The maximum of a step of a chip reset, in aclk (R332). -/
def chipStepMax (retain : Bool) (k : Nat) : Nat :=
  if k = 1 then 16000000 else if k = 2 then 800000 else if k = 4 then 1600000000
  else if k = 5 then (if retain then 960000000 else 1680000000) else 400000000

/-- The step that a chip reset is in, and the aclk of its beginning (R332): before the reset, or in the boot behind it. -/
def State.chipStep (s : State) : Nat × Nat :=
  if s.boot.resetDue.isSome then (if s.boot.chipStop then 2 else 1, s.boot.stepAt)
  else if s.on BOOT.STATUS.STARTED then (0, 0)
  else if s.get BOOT.STATUS.STAGE = 4 then (6, s.boot.stepAt)
  else if s.get BOOT.STATUS.STAGE = 3 then (5, s.boot.stepAt)
  else (4, s.power.bootAt)

/-- RESET_STEP_LATE (R320, R325): a kill, a unit reset, or a step of a partition or chip reset has passed its maximum time; it goes on,
and no further record says so. -/
def State.stepLate (s : State) (level step target : Nat) : State :=
  let n := toPart target
  let tell := fun (t : State) =>
    t.raiseAt { code := 0x53, domain := if level = 4 then 0 else domPart n, d0 := level + 16 * step + 256 * target } (level + 1)
  let p := s.part n
  if level = 1 then
    match (coresOf n).find? s.lateKill with
    | some c => tell (s.modCore c (fun k => { k with killed := k.killed.map (fun x => { x with late := true }) }))
    | none => s
  else if level = 2 then
    match (coresOf n).find? s.lateUnit with
    | some c => tell (s.modCore c (fun k => { k with unitReset := k.unitReset.map (fun u => (u.1, u.2.1, true)) }))
    | none => s
  else if level = 3 then
    (if s.on (RST.PART_n.BUSY n) && !p.resetWait && s.get (RST.PART_n.STEP n) == step && !p.late.contains step
        && decide (p.stepAt + partStepMax p.resetRetain step < s.time) then
      tell (s.modPart n (fun q => { q with late := q.late ++ [step] }))
    else s)
  else if level = 4 && step != 0 && s.chipStep.1 == step && !s.boot.late.contains step
      && decide (s.chipStep.2 + chipStepMax s.boot.retained step < s.time) then
    tell { s with boot := { s.boot with late := s.boot.late ++ [step] } }
  else s

/-- RESET_STEP_LATE (R320, R325). -/
def execResetStepLate (level : BitVec 3) (step : BitVec 4) (target : BitVec 4) (s : State) : Out :=
  act s s.live (s.stepLate level.toNat step.toNat target.toNat)

/-! ### Channel retirement (R211, R212) -/

/-- Set the backed frames of tier t. -/
def State.setCapacity (s : State) (n : PartIx) (t v : Nat) : State :=
  if t = 1 then s.put (MEM.CAPACITY_n.T1 n) v else s.put (MEM.CAPACITY_n.T2 n) v

/-- A marked channel is retired: its bit moves, the capacity falls, and contents above it are lost. The second one of a tier
withdraws the tier (R211, R212). -/
def State.retireChan (s : State) (n : PartIx) (t ch : Nat) : State :=
  let mark := s.get (markField n t)
  let had := s.get (retiredField n t)
  let s1 := (s.put (markField n t) (putBits mark ch ch 0)).put (retiredField n t) (putBits had ch ch 1)
  let s2 := s1.raise { code := 5, domain := domPart n, d0 := t + 4 * ch + 256 * Sparse.get (s.part n).reasons (32 * t + ch) 0 }
  let first := had == 0
  let cap := if first then (if t = 1 then 406323 else 1523712) else 0
  let s3 := (s2.setCapacity n t cap).scrubZero (frameBase n t cap) (frameBase n t (if t = 1 then 419430 else 1572864))
  if first then s3
  else (s3.put (if t = 1 then MEM.STATUS_n.T1_OUT n else MEM.STATUS_n.T2_OUT n) 1).raise { code := 6, domain := domPart n, d0 := t }

/-- The words of a channel's stripes. -/
def State.inChannel (s : State) (n : PartIx) (t ch a : Nat) : Bool :=
  match place a with
  | some (u, m, o) => u == t && decide (m = n) && s.channel n t o == ch
  | none => false

/-- A retain-mode reset reads every stripe of a channel through the check code and copies it to its new place (R211): errors that lie there
are met, and uncorrectable words are written poisoned. -/
def State.copyStripes (s : State) (n : PartIx) (t ch : Nat) : State :=
  let words := (s.synd.filter (fun p => p.2 != 0x7F && s.inChannel n t ch (4 * p.1))).map (fun p => (4 * p.1, 4))
  let lines := (s.lineErrs.filter (fun e => s.inChannel n t ch e.line)).map (fun e => (e.line, 128))
  (words ++ lines).foldl (fun u r => u.meet r.1 r.2) s

/-- Every marked channel of a partition is retired at its reset (R211), its stripes copied where the reset is in retain mode; the error counts of
the window begin again. -/
def State.retireMarked (s : State) (n : PartIx) (retain : Bool) : State :=
  let go := fun (t : Nat) (u : State) =>
    ((List.range 32).filter (fun ch => bit (u.get (markField n t)) ch)).foldl (fun v ch =>
      (if retain && v.get (retiredField n t) == 0 then v.copyStripes n t ch else v).retireChan n t ch) u
  (go 2 (go 1 s)).modPart n (fun p => { p with chans1 := [], chans2 := [], chanDue := s.time + 800000 * max 1 (s.inForce MEM.ERR_CFG.WINDOW_MS) })

/-- Training failures at a reset mark channels: tier T2 or not, and channel (R211). -/
def State.markFailed (s : State) (n : PartIx) (failed : List (Bool × Fin 32)) : State :=
  failed.foldl (fun t p => t.markChan n (if p.1 then 2 else 1) p.2.val 3) s

/-- The partition's vellum, T1 and T2 are scrubbed to zero (R326 step 8). -/
def State.scrubPart (s : State) (n : PartIx) : State :=
  ((s.scrubZero (velBase n) (velBase n + 0x100000000)).scrubZero (frameBase n 1 0) (frameBase n 1 0 + 0x800000000)).scrubZero
    (frameBase n 2 0) (frameBase n 2 0 + 0x2000000000)

/-! ### The start of a partition reset: steps 1 to 5 (R326) -/

/-- Outstanding Chart requests of a partition's cores and queue (R250). -/
def CReq.ofPart (n : PartIx) (r : CReq) : Bool :=
  match r.kind with
  | .read c => partOf (toCore c) == n
  | .sem c => partOf (toCore c) == n
  | .queue m _ => m == n.val
  | .cancel => r.pkt.part == n
  | .parcel _ _ => false
  | .coll c _ _ _ => partOf (toCore c) == n

/-- Chart requests of the partition are cancelled, and credits return (R240, R250). -/
def State.cancelChart (s : State) (n : PartIx) : State :=
  let mine := s.chart.reqs.filter (CReq.ofPart n)
  let back := fun (t : State) (r : CReq) => match r.kind with
    | .read _ => t.reqBack n.val
    | .sem _ => t.reqBack n.val
    | .queue _ _ => t.creditBack n.val
    | .coll _ _ _ _ => t.creditBack n.val
    | _ => t
  mine.foldl back
    (State.setAside { s with
      chart := { s.chart with
        reqs := s.chart.reqs.filter (fun r => !r.ofPart n)
        leases := s.chart.leases.filter (fun l => ctxPart l.1 != n) }
      cancels := s.cancels.filter (fun k => decide (partOf (toCore k.1) ≠ n)) } (mine.map (fun r => r.pkt.tag.toNat)))

/-- The outbound queue is emptied: released entries to the Chart fail with one record, companion entries as in R287 (R250,
R292). -/
def State.emptyQueue (s : State) (n : PartIx) : State :=
  let lost := (s.part n).outq.filter (fun e => !e.kind.companion && decide (e.state ≠ .wet))
  let s1 := match lost with
    | [] => s
    | e :: _ => (s.bump (CHT.ERRORS_n.WRITE_LOST n) lost.length).raise
        { code := 0x21, domain := domPart n, addr := e.kind.addr, d0 := lost.length }
  ((s1.failCompanionQueue n).modPart n (fun p => { p with outq := [], failChart := false, failFrl := false })).showOutq n

/-- Requests of the partition to the companion are cancelled (R240, R292). -/
def State.cancelFerrule (s : State) (n : PartIx) : State :=
  let mine := fun (r : FReq) => r.part == some n.val
  let gone := s.ferrule.reqs.filter mine
  let keeps := fun (x : FOut) => match x.req with
    | some k => !(gone.any (fun r => r.no == k))
    | none => true
  State.setAside { s with ferrule := { s.ferrule with
      reqs := s.ferrule.reqs.filter (fun r => !mine r)
      waiting := s.ferrule.waiting.filter keeps
      parked := s.ferrule.parked.filter keeps
      waitAcc := s.ferrule.waitAcc.filter (fun a => a.2.1.part != n.val)
      cache := s.ferrule.cache.map (fun l => { l with held := l.held.filter (fun h => h.part != n.val) }) } }
    ((gone.filter (fun r => r.out)).map (fun r => r.tag))

/-- Outgoing tickets of a partition that begins a reset (R246). -/
def State.resetOut (s : State) (n : PartIx) (clean : Bool) : State :=
  s.chart.outT.foldl (fun t k =>
    let here : Bool := match k.here with
      | some b => slotPart b == n.val
      | none => false
    if t.namePart k.name = n.val ∨ here then
      (if k.phase = .forwarded then
        (if clean then t.modGaz k.name (fun e => if e.st = .forward then { e with fallbackLost := true } else e) else t)
       else t.failTicket k)
    else t) s

/-- Incoming tickets of a partition that begins a reset (R247). -/
def State.resetIn (s : State) (n : PartIx) (clean : Bool) : State :=
  s.chart.inT.foldl (fun t k => match t.gazAt k.name with
    | none => t
    | some e =>
      if slotPart e.base ≠ n.val then t
      else if e.st = .receiving then
        (t.sendPacket { t.dirMsg n.val 0x32 k.src k.id k.name e.epoch 0 with status := 3 }).restore k
      else if e.st = .prepared ∧ clean then
        (t.sendPacket { t.dirMsg n.val 0x23 k.src k.id k.name e.epoch 0 with cls := 2, status := 6 }).restore k
      else t) s

/-- Running segments end without any lift; nothing is counted as a kill (R326 step 3). -/
def State.endRunning (s : State) (n : PartIx) : State :=
  forCores (coresOf n) (fun c t => match t.seg c with
    | some g => t.wipeSeg c g
    | none => t.dropColl c) s

/-- Step 5: cores, units, sequencers, translation caches and wet state go; SEQ, ENG, IDL and the debug fields that R369 names clear
(R326, R369). -/
def State.clearCores (s : State) (n : PartIx) : State :=
  forCores (coresOf n) (fun c t =>
    let t1 := (t.setCore c {}).clearCoreRegs c
    let t2 := (((t1.put (DBG.CORE_c.HALT_REQ c) 0).put (DBG.CORE_c.HALTED c) 0).put (DBG.CORE_c.STEPPING c) 0).put (DBG.CORE_c.BP_HIT c) 0
    let t3 := t2.clearRegs (DBG.BP_c_i.MATCH c 0).addr ((DBG.BP_c_i.MATCH c 0).addr + 0x20)
    if (t.core c).unitReset.isSome then t3.put RST.UNIT.BUSY 0 else t3) s

/-- The partition's own records of its stroke, rows and pools are over; frames that were still to be pushed are pushed. -/
def State.clearPart (s : State) (n : PartIx) : State :=
  let s1 := (s.part n).pushWait.foldl (fun t w => t.pushFrame n w.1 w.2.1 w.2.2) s
  let s2 := s1.modPart n (fun p =>
    { p with
      window := false, stopping := false, restart := false
      shift := 0
      rows := []
      noStart := []
      poolFree := p.pools
      dryWait := []
      pushWait := []
      deferred := [] })
  ((s2.showFree n 0).showFree n 1).showFree n 2

/-- The power state becomes ACTIVE, in reset; from POWER_OFF the gate is 16 (R30, R51, R55, R326). -/
def State.resetPower (s : State) (n : PartIx) : State :=
  let st := s.get (PART.POWER_n.STATE n)
  let s1 := (s.put (PART.POWER_n.STATE n) 0).put (PART.POWER_n.TARGET n) 0
  let s2 := if st = 2 then s1.put (PWR.P_STATE_n.GATE n) 16 else s1
  if st = 0 then s2 else s2.bump (PART.POWER_n.TRANSITIONS n) 1

/-- A partition reset enters step 1 (R326): the fence stands, issue stops, a profile apply and a transition are abandoned (R328), and tickets
and models meet the reset that begins (R246, R247, R313). -/
def State.beginReset (s : State) (n : PartIx) : State :=
  let p := s.part n
  let clean := !p.resetRetain
  let s1 := (s.modPart n (fun q => { q with
      inReset := true, resetWait := false, stepAt := s.time, traced := false, late := [], trans := none, apply_ := none })).put
    (STK.CTRL_n.RUNNING n) 0
  let s2 := ((s1.put (SCH.PROFILE_n.BUSY n) 0).resetOut n clean).resetIn n clean
  (if clean then s2.wtsClean n else s2.wtsRetain n).put (RST.PART_n.STEP n) 1

/-- What a partition reset does as it comes to step k (R326): in step 3 everything that runs ends, in step 5 the cores and the wet state are
reset; training, retirements and the scrub are PARTITION_RESET_END's. -/
def State.enterStep (s : State) (n : PartIx) (k : Nat) : State :=
  let t := (s.put (RST.PART_n.STEP n) k).modPart n (fun p => { p with stepAt := s.time })
  if k = 3 then ((((t.endRunning n).cancelChart n).emptyQueue n).cancelFerrule n).abandonMig n
  else if k = 5 then (t.clearCores n).clearPart n
  else t

/-- A partition's tracing waits to begin, or is being taken (R326 step 2, R329). -/
def State.tracingPart (s : State) (n : PartIx) : Bool :=
  ((s.part n).resetTrace && !(s.part n).traced) || s.tracer.any (fun x => !x.chip && x.parts.contains n)

/-- An aclk of a partition reset (R326): a tracing that is asked for begins where no other is being taken (R328); a free value says whether the
step ends (log entry 103). The last step ends with PARTITION_RESET_END. -/
def State.resetStep (s : State) (n : PartIx) : State :=
  let k := s.get (RST.PART_n.STEP n)
  if !(s.on (RST.PART_n.BUSY n)) || (s.part n).resetWait || s.boot.resetDue.isSome || k == 0 || decide (9 ≤ k) then s
  else if k == 2 && s.tracingPart n then
    (if s.tracer.isNone then (s.modPart n (fun p => { p with traced := true })).traceStart [n] false else s)
  else
    let t := s.draw.2
    if s.draw.1.toNat % 2 = 1 && decide ((s.part n).stepAt < s.time) then t.enterStep n (k + 1) else t

/-- RST.PART_n is written with GO (R326). -/
def State.partReset (s : State) (n : PartIx) (retain trace : Bool) : State :=
  if s.on (RST.PART_n.BUSY n) then s.flag (RST.PART_n.ERR n) 1
  else
    let s1 := ((s.putB (RST.PART_n.MODE n) retain).putB (RST.PART_n.TRACE n) trace).put (RST.PART_n.BUSY n) 1
    let s2 := s1.modPart n (fun p => { p with resetRetain := retain, resetTrace := trace })
    if s.get (PART.POWER_n.STATE n) = 3 then s2.modPart n (fun p => { p with resetWait := true }) else s2.beginReset n

/-- PARTITION_RESET (R326): the steps follow one after the other, aclk by aclk. -/
def execPartitionReset (n : PartIx) (retain trace : Bool) (s : State) : Out :=
  act s s.live ((s.afterBoundary n).partReset n retain trace)

/-! ### The end of a partition reset: steps 6 to 9 (R326, R327) -/

/-- HOME entries of the partition that meet a condition become LOST (R250). -/
def State.loseHomes (s : State) (n : PartIx) (f : GazEntry → Bool) : State :=
  let lost := s.chart.gaz.filter (fun e => decide (e.st = .home) && e.stored && slotPart e.base == n.val && f e)
  lost.foldl (fun t e => (t.modGaz e.name (fun x => { x with st := .lost })).raise
    { code := 0x23, domain := domPart n, unit := 14, addr := nameAddr e.name }) s

/-- What clean mode leaves (R250, R327): memory zero, HOME entries LOST, host stacks and the migration ring empty, pools at their named
ranges. -/
def State.endClean (s : State) (n : PartIx) : State :=
  let s1 := (s.scrubPart n).loseHomes n (fun _ => true)
  let s2 := ([0, 1, 2].foldl (fun t i => t.put (hostCount n i) 0) s1).put (MEM.MIG_HEAD_n.INDEX n) (s.get (MEM.MIG_TAIL_n.INDEX n))
  [0, 1, 2].foldl (fun t i => t.takePool n i) s2

/-- What retain mode leaves (R250, R327): entries in withdrawn frames LOST, and every context that is not FREE HALTED. -/
def State.endRetain (s : State) (n : PartIx) : State :=
  (List.range 4096).foldl (fun t i =>
    let k := 4096 * n.val + i
    if t.ctxState k = 0 then t else (t.wrBits (t.ctxAddr k + 0x38) 1 3 0 10).haltCtx k 10)
    (s.loseHomes n (fun e => !(s.slotBacked e.base)))

/-- The stroke timer at the end of a reset (R47, R50). -/
def State.timerOut (s : State) (n : PartIx) : State :=
  if s.on (STK.CTRL_n.RUN n) then s.startTimer n (max (s.get (STK.START_n.ACLK n)) (s.time + 16))
  else s.put (STK.NEXT_n.ACLK n) never

/-- A partition is out of reset; fields of the shell that waited for one come into force with the first (R7). -/
def State.partOut (s : State) (n : PartIx) : State :=
  let first := s.lowestOut.isNone
  let t := s.modPart n (fun p => { p with inReset := false })
  if first then t.bringForce n false true else t

/-- The end of a partition reset (R326): the retirements, and in clean mode the scrub, are done; the partition leaves reset ACTIVE. -/
def State.endReset (s : State) (n : PartIx) (failed : List (Bool × Fin 32)) : State :=
  let retain := (s.part n).resetRetain
  let s1 := (s.markFailed n failed).retireMarked n retain
  let s2 := if retain then s1.endRetain n else s1.endClean n
  let s3 := (((((s2.resetPower n).partOut n).modPart n (fun p => { p with idleFrom := s.time + 1 })).put (RST.PART_n.STEP n) 0).put
    (RST.PART_n.BUSY n) 0).clearDomain (domPart n)
  let s4 := s3.raise { code := 0x52, domain := domPart n, d0 := 3 + 8 * b2n retain + 16 * 2 ^ n.val }
  (s4.timerOut n).wtsOut n

/-- PARTITION_RESET_END (R326): step 9 ends; training, with the channels whose training fails, retirement and scrub are done; not once a chip reset has
fenced every partition (R328, R332). -/
def execPartitionResetEnd (n : PartIx) (failedTraining : List (Bool × Fin 32)) (s : State) : Out :=
  act s (s.live && s.on (RST.PART_n.BUSY n) && (s.part n).inReset && s.get (RST.PART_n.STEP n) == 9 && s.boot.resetDue.isNone)
    (s.endReset n failedTraining)

/-! ### The end of a power transition (R51) -/

/-- POWER_TRANSITION_END (R51): the reached state; a partition reset that waited begins, or the value recorded last is applied. -/
def execPowerTransitionEnd (n : PartIx) (s : State) : Out :=
  match (s.part n).trans with
  | none => .next s
  | some t =>
    act s (s.live && decide (t.due ≤ s.time))
      (let u := s.reachPower n t
       if (s.part n).resetWait then u.beginReset n
       else match t.rec_ with
         | some v => u.writeTarget n v
         | none => u)

end Sys2Proof.Machine
end

