-- ==== Sys2Proof/Machine/ChipReset.lean ====
section
/-! DEFINITION. Machine/ChipReset.lean: chip resets (R39, R40, R50, R221, R252, R293, R332, R333), and attestation (R344, R356 to
R358). -/

namespace Sys2Proof.Machine

/-! ### Chip resets (R332, R333) -/

/-- Registers that a chip reset keeps, by offset: the ERR block, RST.PERSIST, RST.TRACE_SLOT_k, and the channel records of MEM
(R211, R221, R333, R337, R338). -/
def keptAddr (a : Nat) : Bool :=
  a / 0x10000 == 0x0E || a == RST.PERSIST.CHIP_RETAIN.addr || a == (RST.TRACE_SLOT_k.STATE 0).addr
  || a == (RST.TRACE_SLOT_k.STATE 1).addr
  || allParts.any (fun n => a == (MEM.CHAN_MARK_n.T1 n).addr || a == (MEM.CHAN_RETIRED_n.T1 n).addr)

/-- The same by the key of a field: of MEM.CAPACITY_n and MEM.STATUS_n, what retirement has set. -/
def keptKey (k : Nat) : Bool :=
  keptAddr (k / 64)
  || allParts.any (fun n => k == (MEM.CAPACITY_n.T1 n).key || k == (MEM.CAPACITY_n.T2 n).key || k == (MEM.STATUS_n.T1_OUT n).key
    || k == (MEM.STATUS_n.T2_OUT n).key)

/-- The power controller after a chip reset: pins and rails stay; what the sensors last reported is cleared with MGT.TEMP (R374). -/
def PowerSt.afterReset (p : PowerSt) (modResetN : Bool) : PowerSt :=
  { phase := p.phase, pwrEn := p.pwrEn, modResetN := modResetN, prsntN := p.prsntN, vinMv := p.vinMv, needLow := p.needLow,
    sawLow := p.sawLow, bootAt := 800000 }

/-- All logic is reset except what R333 keeps: what the module is after a chip reset, with the causes and counts still as they
were. Vellum is lost; T1 and T2 stay until memory is prepared. -/
def State.cleared (s : State) (modResetN : Bool) : State :=
  { pending := s.pending
    free := s.free
    regs := s.regs.filter (fun p => keptKey p.1)
    force := s.force.filter (fun p => keptKey p.1)
    shPend := s.shPend.filter (fun p => keptKey p.1)
    power := s.power.afterReset modResetN
    eeprom := s.eeprom
    mem := s.mem.filter (fun p => decide (0x400000000 ≤ p.1))
    synd := s.synd.filter (fun p => decide (0x100000000 ≤ p.1))
    parts := s.parts.map (fun p => { inReset := true, reasons := p.reasons })
    errs := s.errs
    ferruleTx := s.ferruleTx
    i3cTx := s.i3cTx
    chart := { tx := s.chart.tx }
    links := s.links.map (fun k => { wire := k.wire })
    bootIx := s.bootIx + 1
    boot := { powerUp := false, retained := s.on RST.PERSIST.CHIP_RETAIN }
    onaut := { tx := s.onaut.tx, cuts := s.onaut.cuts }
    flashA := s.flashA
    flashB := s.flashB
    fuses := s.fuses
    trace0 := s.trace0
    trace1 := s.trace1 }

/-- A chip reset takes every partition to PROBATION: a change is recorded (R335). -/
def State.probations (t s : State) : State :=
  forParts allParts (fun n u =>
    if s.get (HLT.SCORE_n.STATE n) = 1 then u else u.raise { code := 0x55, domain := domPart n, d0 := 1 + 4 * 255 }) t

/-- A chip reset with a cause: 1 RST.CHIP, 2 MOD_RESET_N, 3 loss of aclk lock (R318, R332, R338). Records of its aclk are written first;
a tracing it abandons stays in its slot with COMPLETE = 0 (R330; log entry 98). -/
def State.chipReset (s : State) (cause : Nat) (modResetN : Bool) : State :=
  let kept := match s.tracer with
    | some x => s.put (RST.TRACE_SLOT_k.STATE x.slot) 2
    | none => s
  let t := ((kept.writeRecs.cleared modResetN).put RST.PERSIST.LAST_CAUSE cause).bump RST.PERSIST.CHIP_RESETS 1 |>.probations s
  (List.range 16).foldl (fun u d => u.clearDomain d) t

/-- RST.CHIP is written with GO (R293, R332): step 1 begins: every partition is fenced, a tracing is asked for if TRACE is 1, and the cache is
flushed if the module is attached, for at most 10 ms. A further write while the reset is under way does nothing. -/
def State.softReset (s : State) (trace : Bool) : State :=
  if s.boot.resetDue.isSome then s
  else
    let s1 := forParts allParts (fun n t => t.modPart n (fun p => { p with inReset := true })) s
    let s2 := if s1.attached then s1.flush else s1
    { s2 with boot := { s2.boot with
        resetDue := some (if s1.attached then s.time + 8000000 else s.time), chipTrace := trace, chipStop := false, stepAt := s.time, late := [] } }

/-- A wait for the flush is over: it has ended, or the wait has lasted 10 ms (R293, R373). -/
def State.flushOver (s : State) (due : Option Nat) : Bool :=
  match due with
  | some t => s.get FRL.STATUS.FLUSH_BUSY == 0 || decide (t ≤ s.time)
  | none => false

/-- An aclk of a chip reset before its step 3 (R332): its tracing begins where no other is being taken; step 1 is over with the tracing and the
flush; a free value says when step 2 ends (log entry 103). -/
def State.chipStepOn (s : State) : State :=
  if s.boot.resetDue.isNone then s
  else if s.boot.chipTrace then
    (if s.tracer.isNone then State.traceStart { s with boot := { s.boot with chipTrace := false } } allParts true else s)
  else if s.boot.chipStop then
    (if s.draw.1.toNat % 2 = 1 then s.draw.2.chipReset 1 true else s.draw.2)
  else if s.tracer.isNone && s.flushOver s.boot.resetDue then
    { s with boot := { s.boot with chipStop := true, stepAt := s.time } }
  else s

/-- CHIP_RESET (R332). -/
def execChipReset (trace : Bool) (s : State) : Out := act s s.live (s.softReset trace)

/-- ACLK_LOCK_LOST (R39, R332): the aclk PLL loses lock. -/
def execAclkLockLost (s : State) : Out := act s s.live (s.chipReset 3 true)

/-! ### Fuses (R344, R354) -/

/-- Burn one fuse bit. -/
def State.burnBit (s : State) (i : Nat) : State := { s with fuses := Nat.lor s.fuses (2 ^ i) }

/-- Burn bits in order; `bad` names bits that still read 0 after a second burn: the first such one is recorded and ends the step
(R354). -/
def burnAll (bad : List Nat) : List Nat → State → State
  | [], s => s
  | i :: r, s =>
    if bit s.fuses i then burnAll bad r s
    else if bad.contains i then s.raise { code := 0x6A, domain := 0, d0 := i }
    else burnAll bad r (s.burnBit i)

/-- Unburned bits of LMS_BLOCKS (R357, R361). -/
def State.blocksLeft (s : State) : Nat := 2048 - popCount 2048 (s.fuse 6143 4096)

/-- DEVICE_SECRET, from which the device's ECDSA key and its long-term LMS key come (R344). -/
def State.deviceSecret (s : State) : Nat := s.fuse 255 0

/-- BOOT.SVN shows the fuses (R361). -/
def State.showFuses (s : State) : State := (s.put BOOT.SVN.FUSE_SVN s.fuseSvn).put BOOT.SVN.REVOKED (s.fuse 3587 3584)

/-! ### Attestation (R356 to R358) -/

/-- BOOT.ATT_CTRL is written with GO (R356). -/
def State.attRequest (s : State) : State :=
  if s.on BOOT.ATT_CTRL.BUSY || !(s.on BOOT.STATUS.STARTED) then s.flag BOOT.ATT_CTRL.ERR 1
  else
    let nonce := (List.range 8).flatMap (fun i => toLE 4 (s.get (BOOT.ATT_NONCE_i.BYTES i)))
    ({ s with boot := { s.boot with nonce := nonce } }).put BOOT.ATT_CTRL.BUSY 1

/-- ATTESTATION_REQUEST (R356). -/
def execAttestationRequest (s : State) : Out := act s s.live s.attRequest

/-- A request ends with a result (R356). -/
def State.attEnd (s : State) (r : Nat) : State := (s.put BOOT.ATT_CTRL.RESULT r).put BOOT.ATT_CTRL.BUSY 0

/-- Cores whose vellum is withdrawn, bit c (R358). -/
def State.coreOut (s : State) : Nat := ((List.range 4).map (fun n => s.get (MEM.STATUS_n.T0_CORE_OUT n) * 16 ^ n)).sum

/-- The BOOT_ID of this boot (R269). -/
def State.bootId (s : State) : Nat := (Config.bootId s.bootIx).toNat

/-- The type codes of RFC 8554: LMS_SHA256_M32_H20, LMS_SHA256_M32_H10 and LMOTS_SHA256_N32_W8, most significant byte first (R343). -/
def h20Code : List Byte := ascii [0, 0, 0, 8]
def h10Code : List Byte := ascii [0, 0, 0, 6]
def otsCode : List Byte := ascii [0, 0, 0, 4]

/-- The public key of a per-boot key: its type codes, and what the security engine drew (RFC 8554; log entry 24). -/
def lmsPublic (k : Nat) : List Byte := h10Code ++ otsCode ++ padTo 48 (Config.lmsKey k)

/-- An LMS signature at a leaf of a tree of height h: the leaf and the type codes stand in it as RFC 8554 has them (log entry 24). -/
def lmsSignature (h : Nat) (code : List Byte) (seed key leaf : Nat) (msg : List Byte) : List Byte :=
  let b := Config.lmsSign seed key leaf msg
  toBE 4 leaf ++ otsCode ++ padTo 1120 b ++ code ++ padTo (32 * h) (b.drop 1120)

/-- A per-boot key is generated and certified with the next leaf of the block (R357). -/
def State.newKey (s : State) (block : Nat) : State :=
  let k := s.free + 1
  let leaf := 512 * block + s.boot.leaf
  let msg := lmsPublic k ++ toLE 8 s.dieId ++ toLE 4 s.bootId
  let t := { s with
    free := s.free + 1
    boot := { s.boot with key := some k, cert := lmsSignature 20 h20Code s.deviceSecret 0 leaf msg, ltLeaf := leaf, leaf := s.boot.leaf + 1, h10Leaf := 0 } }
  t.bump BOOT.ATT_COUNT.H10_KEYS 1

/-- The body of a report (R358). -/
def State.reportBody (s : State) : List Byte :=
  let health := ((List.range 4).map (fun n => s.get (HLT.SCORE_n.STATE n) * 4 ^ n)).sum
  let sum := fun (b : List Byte) => if b.isEmpty then List.replicate 48 0 else padTo 48 (sha384 b)
  padTo 512 (ascii [0x59, 0x58, 0x41, 0x54] ++ toLE 2 1 ++ toLE 2 0x200 ++ toLE 8 s.dieId ++ toLE 2 s.selfModule
    ++ toLE 1 (s.get BOOT.STATUS.IMAGE) ++ toLE 1 (s.get BOOT.SVN.KEY_SLOT) ++ toLE 2 (s.get RST.PERSIST.CHIP_RESETS)
    ++ toLE 1 (s.get RST.PERSIST.LAST_CAUSE) ++ toLE 1 (s.get BOOT.SVN.IMAGE_SVN) ++ toLE 1 s.fuseSvn ++ toLE 1 (s.fuse 3587 3584)
    ++ toLE 2 s.coreOut ++ toLE 4 (s.boot.seq + 1) ++ padTo 48 s.boot.digest ++ padTo 48 s.boot.lk ++ sum s.boot.remap
    ++ sum s.boot.seeds ++ padTo 32 s.boot.nonce ++ toLE 4 s.bootId ++ toLE 4 s.boot.ltLeaf ++ toLE 4 s.boot.h10Leaf
    ++ toLE 4 (s.get BOOT.LK_COUNT.COUNT) ++ toLE 1 health)

/-- Produce a report with the per-boot key (R357, R358). -/
def State.produce (s : State) : State :=
  match s.boot.key with
  | none => s
  | some k =>
    let body := s.reportBody
    let rep := body ++ padTo 96 (Config.ecdsaSign s.deviceSecret s.free body) ++ lmsPublic k ++ toLE 8 0 ++ padTo 1772 s.boot.cert
      ++ toLE 4 0 ++ lmsSignature 10 h10Code 0 k s.boot.h10Leaf body
    ({ s with
      free := s.free + 1
      boot := { s.boot with report := padTo 4096 rep, seq := s.boot.seq + 1, h10Leaf := s.boot.h10Leaf + 1 } }).attEnd 0

/-- A per-boot key is there, or is made in a block: the report, or RESULT 2 (R357). -/
def State.withBlock (s : State) (block : Nat) : State :=
  if 512 ≤ s.boot.leaf then s.attEnd 2 else (s.newKey block).produce

/-- The request that runs ends (R357). `burned`: a fuse bit burned for it reads 1; where it does not, the manual states no RESULT
(log entry 1). -/
def State.attFinish (s : State) (burned : Bool) : State :=
  if s.boot.key.isSome && decide (s.boot.h10Leaf < 1024) then s.produce
  else match s.boot.block with
    | some j => s.withBlock j
    | none =>
      match (List.range 2048).find? (fun j => !(bit s.fuses (4096 + j))) with
      | none => (s.raise { code := 0x6B, domain := 0 }).attEnd 3
      | some j =>
        if burned then
          let t := s.burnBit (4096 + j)
          (State.put { t with boot := { t.boot with block := some j } } BOOT.ATT_COUNT.BLOCKS_LEFT t.blocksLeft).withBlock j
        else
          ((s.raise { code := 0x6A, domain := 0, d0 := 4096 + j }).putFree BOOT.ATT_CTRL.RESULT).put BOOT.ATT_CTRL.BUSY 0

/-- REPORT_READY (R357, R358). -/
def execReportReady (burned : Bool) (s : State) : Out := act s (s.live && s.on BOOT.ATT_CTRL.BUSY) (s.attFinish burned)

end Sys2Proof.Machine
end

