-- ==== Sys2Proof/Machine/Access.lean ====
section
/-! DEFINITION. Machine/Access.lean: register writes by an agent (R6 to R11, R352, R370), the actions that registers carry, and the
companion's reads and writes (R284, R353). -/

namespace Sys2Proof.Machine

/-! ### Storing fields (R6, R7, R10, R11) -/

/-- What a write gives a field: its value before, the register's new value, and the first bit written (0, or 32 where only the
high half is written); none where the field is left as it stands (R11). -/
def written (f : FieldRow) (old v from_ : Nat) : Option Nat :=
  if f.hi < from_ then none
  else if from_ ≤ f.lo then some (bits v f.hi f.lo)
  else some (old % 2 ^ (from_ - f.lo) + bits v f.hi from_ * 2 ^ (from_ - f.lo))

/-- Whose boundary an SH field of a register waits for (R7): 0 to 3 a partition, 4 the shell. -/
def ownerOf (r : RegRow) (inst : Nat) : Nat :=
  match r.owner, r.dims with
  | .part, (stride, count) :: _ => (inst - r.base) / stride % count
  | _, _ => 4

/-- A field that a profile apply writes, while that apply is busy (R191). -/
def State.applyHolds (s : State) (f : Field) : Option PartIx :=
  allParts.find? (fun n => s.on (SCH.PROFILE_n.BUSY n) && (applyFields n).any (fun g => g.key == f.key))

/-- One field takes what is written (R6): a W1C bit that an event has set in this aclk stays (R8); RO and RC ignore it, WO acts elsewhere. LK is RW before the start and is ignored from
then on (R352). -/
def State.storeField (s : State) (r : RegRow) (inst v from_ : Nat) (f : FieldRow) : State :=
  let g := f.at_ inst
  match written f (s.get g) v from_ with
  | none => s
  | some w =>
    match f.type with
    | .rw => s.put g w
    | .sh => (match s.applyHolds g with
      | some n => s.flag (SCH.STATUS_n.PROFILE_ERR n) 1
      | none => (s.put g w).pendSh g.key (ownerOf r inst))
    | .w1c =>
      let clear := if f.hi < from_ then 0 else if from_ ≤ f.lo then w else bits v f.hi from_ * 2 ^ (from_ - f.lo)
      let kept := Sparse.get s.noted g.key 0
      s.put g (s.get g - Nat.land (s.get g) (clear - Nat.land clear kept))
    | .lk => if s.on BOOT.STATUS.STARTED then s else s.put g w
    | _ => s

/-- A write to an LK field after the start is counted and recorded with its agent (R352). -/
def State.lkIgnored (s : State) (r : RegRow) (inst : Nat) (ag : Agent) : State :=
  if s.on BOOT.STATUS.STARTED && r.fields.any (fun f => decide (f.type = .lk)) then
    ((s.bump BOOT.LK_COUNT.COUNT 1).flag BOOT.STATUS.LK_WRITE 1).raise
      { code := 0x68, domain := 0, addr := inst, d0 := (agentIx ag).val }
  else s

/-! ### What some registers do when written -/

/-- A link's lanes go quiet for good (R373). -/
def State.quietLink (s : State) (l : LinkIx) : State :=
  let up := s.get (linkState l) == 2
  ((s.modLink l (fun k => { k with released := false, backoff := none, leftUp := if up then some s.time else k.leftUp }))).linkTo l 0

/-- The end of step 2 of R373: no lane is driven, and QUIESCED is set. -/
def State.quiesce (s : State) : State :=
  (allLinks.foldl State.quietLink { s with mgt := { s.mgt with notice := none } }).put MGT.NOTICE.QUIESCED 1

/-- MGT.NOTICE.OFF_NOTICE is written 1 (R373): the flush of R293 where the module is attached, for at most 10 ms; then the lanes go quiet. -/
def State.offNotice (s : State) : State :=
  if s.attached then { s.flush with mgt := { s.mgt with notice := some (s.time + 8000000) } } else s.quiesce

/-- MGT.TRAY_REQ.CODE is written (R373, R374): 3 is taken as 0; a code that becomes non-zero sets the cause. -/
def State.trayReq (s : State) (v : Nat) : State :=
  let c := if v = 3 then 0 else v
  let t := s.put MGT.TRAY_REQ.CODE c
  if s.get MGT.TRAY_REQ.CODE = 0 ∧ c ≠ 0 then t.ibiCause MGT.IBI_CAUSE.TRAY else t

/-- After MGT.IBI_CFG or MGT.IBI_CAUSE is written: with every cause clear a further one interrupts again (R372). -/
def State.ibiAfter (s : State) : State :=
  let none_ := !(s.on MGT.IBI_CAUSE.HEALTH || s.on MGT.IBI_CAUSE.ERROR || s.on MGT.IBI_CAUSE.TRAY || s.on MGT.IBI_CAUSE.THERMAL)
  (if none_ then { s with mgt := { s.mgt with ibiSent := false } } else s).ibiTry

/-- GAZ.CMD is written with GO (R257). -/
def State.gazCmd (s : State) : State :=
  let name := s.get GAZ.CMD.NAME
  let base := s.get GAZ.CMD_ARG.BASE
  let n := toPart (s.get GAZ.CMD_ARG.PART)
  let t := s.get GAZ.CMD_ARG.TIER
  let op := s.get GAZ.CMD.OP
  if op = 1 then s.gazCreate name
  else if op = 2 then s.gazDestroy name
  else if op = 3 then s.gazPin name true
  else if op = 4 then s.gazPin name false
  else if op = 5 then s.gazRestore name base (s.get GAZ.CMD_ARG.EPOCH) (s.get GAZ.CMD_ARG.MODULE)
  else if op = 6 then s.gazKeep name
  else if op = 7 then s.gazGone name
  else if op = 8 then s.gazPush n t base
  else if op = 9 then s.gazPop n t
  else if op = 10 then s.gazLookup name
  else if op = 11 then s.gazMarkLost name
  else s.gazEnd 7

/-- DISABLE, RETRAIN and RETIRE of a port (R271, R274): DISABLE as written, and the two actions. -/
def State.portCtrl (s : State) (l : LinkIx) (was disable retrain retire : Bool) (lane : Nat) : State :=
  let s1 := if disable && !was then s.disablePort l else if !disable && was then s.enablePort l else s
  let s2 := if retrain then s1.retrainPort l else s1
  if retire then s2.retire l lane 3 else s2

/-- The index of an instance among its register's. -/
def instIx (r : RegRow) (inst : Nat) : Nat :=
  match r.dims with
  | (stride, _) :: _ => (inst - r.base) / stride
  | [] => 0

/-- What a write of a register does beside storing its fields. `s` has the fields stored, `o` is the state before; v: the value
written, with the low half of the register as it stands where only the high half is written; `low`: the low half is written. -/
def State.regAction (s o : State) (r : RegRow) (inst v : Nat) (low : Bool) : State :=
  let i := instIx r inst
  let n := toPart i
  let go := fun (b : Nat) => low && bit v b
  match r.name with
  | "STK.CTRL_n" => Out.after s (execStkCtrlRun n (bit v 0) s)
  | "STK.START_n" => Out.after s (execStkStartWrite n (BitVec.ofNat 64 v) s)
  | "PART.POWER_n" => s.writeTarget n (bits v 1 0)
  | "SEQ.CTRL" => if bit v 0 then Out.after s (execSeqCtrlKill (toCore i) s) else s
  | "SCH.CTX_CMD_n" => s.action (4096 * n.val + bits v 11 0) (bits v 14 12)
  | "SCH.PROFILE_n" => if bit v 4 then s.applyProfile n (bits v 3 0) else s
  | "MEM.INV_CTRL" =>
    if bit v 15 then
      Out.after s (execTranslationInvalidation (BitVec.ofNat 30 (s.get MEM.INV_ADDR.PAGE)) (BitVec.ofNat 12 (bits v 11 0))
        (toPart (bits v 13 12)) (bit v 14) s)
    else s
  | "MEM.FRAME_CMD" =>
    if bit v 36 then
      s.frameOp (s.get MEM.FRAME_CMD.OP) (toPart (s.get MEM.FRAME_CMD.PARTITION)) (s.get MEM.FRAME_CMD.TIER) (s.get MEM.FRAME_CMD.TENANT)
        (s.get MEM.FRAME_CMD.FRAME)
    else s
  | "GAZ.CTRL" => if bit v 0 then s.put GAZ.CTRL.OPEN 1 else s
  | "GAZ.CMD" => if bit v 47 then s.gazCmd else s
  | "CHT.HINT" => if bit v 0 then { s with chart := { s.chart with hints := [] } } else s
  | "GRT.PCTRL_p" => s.portCtrl (toLink i) (o.on (GRT.PCTRL_p.DISABLE i)) (bit v 0) (bit v 1) (bit v 2) (bits v 6 3)
  | "FRL.CTRL" =>
    let s1 := s.portCtrl 10 (o.on FRL.CTRL.DISABLE) (bit v 3) (bit v 4) (bit v 5) (bits v 9 6)
    let s2 := if bit v 0 then Out.after s1 (execAttach s1) else s1
    if bit v 1 then s2.flush else s2
  | "FRL.DOORBELL" => Out.after s (execDoorbell (toCtx (bits v 13 0)) s)
  | "WTS.CMD" => if bit v 11 then s.wtsCmd (bits v 7 0) (bits v 10 8) else s
  | "ERR.CONSUMER" => s.setConsumer v
  | "ERR.ACK" => if bit v 4 then s.clearDomain (bits v 3 0) else s
  | "RST.UNIT" => if bit v 8 then s.unitReset (toCore (bits v 3 0)) (bits v 7 4) else (s.put RST.UNIT.CORE v).put RST.UNIT.UNIT (v / 16)
  | "RST.PART_n" =>
    if bit v 0 then s.partReset n (bit v 1) (bit v 2) else (s.putB (RST.PART_n.MODE n) (bit v 1)).putB (RST.PART_n.TRACE n) (bit v 2)
  | "RST.CHIP" => if bit v 0 then s.softReset (bit v 1) else s
  | "RST.TRACE_SLOT_k" =>
    if go 3 && s.get (RST.TRACE_SLOT_k.STATE i) == 2 then s.put (RST.TRACE_SLOT_k.STATE i) 0 else s
  | "HLT.SCORE_n" =>
    let s1 := if bit v 18 then Out.after s (execProbation n s) else s
    if bit v 19 then Out.after s1 (execResetState n s1) else s1
  | "HLT.JOB" => s.put HLT.JOB.LOST 0
  | "HLT.REPORT" => if bit v 0 then Out.after s (execStateLost s) else s
  | "BOOT.ATT_CTRL" => if bit v 0 then s.attRequest else s
  | "MGT.NOTICE" => if bit v 0 then s.offNotice else s
  | "MGT.TRAY_REQ" => s.trayReq (bits v 1 0)
  | "MGT.IBI_CFG" => s.ibiAfter
  | "MGT.IBI_CAUSE" => s.ibiAfter
  | _ => s

/-- Registers whose RW fields are stored by what the register does. -/
def ownStore (r : RegRow) : Bool :=
  ["STK.CTRL_n", "STK.START_n", "PART.POWER_n", "ERR.CONSUMER", "RST.UNIT", "RST.PART_n", "MGT.TRAY_REQ", "GAZ.CTRL"].contains r.name

/-- The partition whose register it is: by its own number, or by that of its core (R49). -/
def regPart (r : RegRow) (inst : Nat) : Option PartIx :=
  match r.dims with
  | (stride, count) :: _ =>
    let i := (inst - r.base) / stride % count
    if count = 4 then some (toPart i) else if count = 16 && r.name != "ERR.DOMAIN_d" then some (partOf (toCore i)) else none
  | [] => none

/-- A register of the table is written as a whole, or its high half alone (R11): `from_` is 0 or 32. A write to a register of a
partition comes after a boundary of the same aclk (R49). -/
def State.updateReg (s0 : State) (ag : Agent) (r : RegRow) (inst v from_ : Nat) : State :=
  let s := match regPart r inst with
    | some n => s0.afterBoundary n
    | none => s0
  let s1 := s.lkIgnored r inst ag
  let s2 := r.fields.foldl (fun t f => if ownStore r && decide (f.type = .rw) then t else t.storeField r inst v from_ f) s1
  let whole := if from_ = 0 then v else s.rawReg r inst % 4294967296 + 4294967296 * (v / 4294967296)
  s2.regAction s r inst whole (decide (from_ = 0))

/-! ### The model table (R299) -/

/-- Fields of a model entry that software writes: offset and bytes of the number they lie in, bits, and whether they may also be
written in RESIDENT and STOPPED. -/
def entryFields : List (Nat × Nat × Nat × Nat × Bool) :=
  [(0x00, 4, 31, 0, false), (0x04, 4, 5, 4, false), (0x04, 4, 6, 6, false), (0x04, 4, 7, 7, true), (0x04, 4, 8, 8, true),
   (0x04, 4, 23, 16, false), (0x08, 4, 11, 0, false), (0x10, 8, 63, 0, true), (0x18, 8, 63, 0, false), (0x20, 8, 63, 0, false),
   (0x28, 8, 63, 0, false)]

/-- A number of a model entry is written from bit `from_` on: a field that may not change now, or that software never writes, is left
as it stands. WRITE_ERR is set where no field of the number may be written now, or where a field that may not be would change (R299; log
entry 154). -/
def State.entryWrite (s : State) (m o k v from_ : Nat) : State :=
  let st := s.mdState m
  let idle := st == 0 || st == 6 || st == 7
  let mine := entryFields.filter (fun f => f.1 == o)
  let old := s.md m o k
  let want := if from_ = 0 then v else old % 4294967296 + 4294967296 * (v / 4294967296)
  let ok := fun (f : Nat × Nat × Nat × Nat × Bool) => idle || (f.2.2.2.2 && (st == 2 || st == 4))
  let may := mine.filter ok
  let next := may.foldl (fun w f => putBits w f.2.2.1 f.2.2.2.1 (bits want f.2.2.1 f.2.2.2.1)) old
  let t := if next = old then s else s.mdWr m o k next
  if next % 256 ^ k = want % 256 ^ k && !may.isEmpty then t else t.flag WTS.STATUS.WRITE_ERR 1

/-! ### A write by an agent (R11) -/

/-- A write of a 64-bit register, or of one half (R11). -/
def State.writeWide (s : State) (ag : Agent) (inst d v : Nat) (wide : Bool) (upd : Nat → Nat → State → State) : State :=
  if wide then upd v 0 (s.setAgent ag none none)
  else if d = 0 then s.setAgent ag none (some (inst, v % 4294967296))
  else
    let t := s.setAgent ag none none
    match s.agents[agentIx ag].hold with
    | some (a, lo) => if a = inst then upd (lo + 4294967296 * (v % 4294967296)) 0 t else upd (4294967296 * (v % 4294967296)) 32 t
    | none => upd (4294967296 * (v % 4294967296)) 32 t

/-- A write of register space by an agent: 4 or 8 bytes at a naturally aligned offset (R6 to R11, R378). -/
def State.regWrite (s : State) (ag : Agent) (off : Nat) (wide : Bool) (v : Nat) : State :=
  if inModels off then
    let m := (off - 0x0D8000) / 128
    let o := off % 128
    if entryWide o then s.writeWide ag (off / 8 * 8) (off % 8) v wide (fun w f t => t.entryWrite m (o / 8 * 8) 8 w f)
    else (s.setAgent ag none none).entryWrite m o 4 v 0
  else if inWindow off then s.writeWide ag (off / 8 * 8) (off % 8) v wide (fun _ _ t => t)
  else match findReg off with
    | some (r, i, d) =>
      if r.wide then s.writeWide ag i d v wide (fun w f t => t.updateReg ag r i w f)
      else (s.setAgent ag none none).updateReg ag r i (v % 4294967296) 0
    | none => s.setAgent ag none none

/-- The blocks that an agent reaches now (R353, R364, R376): `wr` for a write. -/
def State.reaches (s : State) (ag : Agent) (off : Nat) (wr : Bool) : Bool :=
  let early := s.on BOOT.STATUS.STARTED || earlyBlock off
  match ag with
  | .ferrule => early
  | .onaut => early && s.on DBG.STATUS.UNLOCKED && (!wr || s.get DBG.STATUS.SCOPE == 2)
  | .mgmt => off / 0x10000 == 0x14
  | .firmware => s.get BOOT.STATUS.STAGE == 4

/-- Field types that a preset may write (R350, R376). -/
def presetType (t : RegType) : Bool :=
  match t with
  | .rw => true
  | .sh => true
  | .lk => true
  | .ro => false
  | .w1c => false
  | .rc => false
  | .wo => false

/-- A preset's value fits a register of the table: it has a field to write, and sets no bit of any other field. -/
def presetFits (r : RegRow) (v : Nat) : Bool :=
  (r.wide || decide (v < 4294967296)) && r.fields.any (fun f => presetType f.type)
  && r.fields.all (fun f => presetType f.type || zeroBits v f.hi f.lo)

/-- The same for a number of the model table (R299). -/
def presetModel (o v : Nat) : Bool :=
  entryFields.any (fun f => f.1 == o) && (entryWide o || decide (v < 4294967296))

/-- The boot firmware's own write fits fields that a preset may write (R350, R376). -/
def firmwareFits (off v : Nat) : Bool :=
  if inModels off then
    (if entryWide (off % 128) then entryFields.any (fun f => f.1 == off % 128 / 8 * 8) else presetModel (off % 128) (v % 4294967296))
  else match findReg off with
    | some (r, _, d) => presetFits r (if r.wide then v * 2 ^ (8 * d) else v % 4294967296)
    | none => false

/-- A write of the boot firmware that is skipped: the rule gives the record a preset's index, and this write has none (R350; log
entry 171). -/
def State.presetSkipped (s : State) (off : Nat) : State :=
  s.draw.2.raise { code := 0x66, domain := 0, addr := off, d0 := s.draw.1.toNat % 1024 }

/-- The LK register that a write before the start reaches, as it stood before: a START of this aclk takes the write as made after it
(R352). -/
def State.noteLk (s o : State) (off : Nat) : State :=
  match findReg off with
  | some (r, i, _) =>
    if !(o.on BOOT.STATUS.STARTED) && r.fields.any (fun f => decide (f.type = .lk)) then { s with lkNow := (i, o.rawReg r i) :: s.lkNow } else s
  | none => s

/-- Writes to LK registers in aclk S0 that came before START are taken back, and ignored as any after the start (R352). -/
def State.lkUndo (s : State) : State :=
  let t := s.lkNow.foldl (fun u w => match findReg w.1 with
    | some (r, i, _) => (r.fields.filter (fun f => decide (f.type = .lk))).foldl (fun v f => v.put (f.at_ i) (bits w.2 f.hi f.lo)) u
    | none => u) s
  s.lkNow.reverse.foldl (fun u w => match findReg w.1 with
    | some (r, i, _) => u.lkIgnored r i .firmware
    | none => u) { t with lkNow := [] }

/-- REGISTER_WRITE (R6 to R11): an agent writes a register; the boot firmware writes what a preset may (R376). -/
def execRegisterWrite (ag : Agent) (off : BitVec 24) (wide : Bool) (v : Word) (s : State) : Out :=
  act s (s.live && regFits off.toNat wide && s.reaches ag off.toNat true)
    (if decide (ag = .firmware) && !(firmwareFits off.toNat v.toNat) then s.presetSkipped off.toNat
     else (s.regWrite ag off.toNat wide v.toNat).noteLk s off.toNat)

/-- RC_FIELD_READ (R9, R11): an agent reads a register. -/
def execRcFieldRead (ag : Agent) (off : BitVec 24) (wide : Bool) (s : State) : Out :=
  act s (s.live && regFits off.toNat wide && s.reaches ag off.toNat false) (s.regRead ag off.toNat wide).2

/-! ### The companion's reads and writes (R284, R353) -/

/-- What an access to a range of local memory meets (R284): 0 served, 1 ADDRESS_ERROR, 2 UNAVAILABLE. -/
def State.reach (s : State) (a len : Nat) : Nat :=
  let ok := fun (x : Nat) => match place x with
    | some (t, n, o) => if !(s.frameBacked n t (o / 65536)) then 1 else if s.unavailable t n then 2 else 0
    | none => 1
  if s.get BOOT.STATUS.STARTED = 0 then 2
  else if len = 0 then 0
  else max (ok a) (ok (a + len - 1))

/-- Offset within register space of a local offset. -/
def regOffset (a : Nat) : Option Nat := if regSpace ≤ a ∧ a < regSpace + 0x1000000 then some (a - regSpace) else none

/-- The register access that a one-line message names by its mask: offset within the line and whether 64 bits (R284). -/
def maskAccess (m : FMsg) : Option (Nat × Bool) :=
  if m.linesM1 ≠ 0 then none
  else match (List.range 16).filter (fun w => bit m.mask.toNat w) with
    | [w] => some (4 * w, false)
    | [w, x] => if w % 2 = 0 ∧ x = w + 1 then some (4 * w, true) else none
    | _ => none

/-- Answer a companion request with NACK. -/
def State.frlNack (s : State) (m : FMsg) (st : Nat) : State :=
  s.frlSend { fmsg 2 0x33 m.tag.toNat m.addr.toNat with status := BitVec.ofNat 4 st }

/-- Answer an MWR with CMP OK. -/
def State.frlCmp (s : State) (m : FMsg) : State := s.frlSend (fmsg 2 0x31 m.tag.toNat m.addr.toNat)

/-- An access of the companion outside register space discards its latch and hold (R11). -/
def State.noReg (s : State) : State := s.setAgent .ferrule none none

/-- RD_DATA for an MRD: poisoned words of the first line marked in it, those of later lines by the lines sent again (R277); each
poisoned word writes one record (R210). -/
def State.mrdData (s0 : State) (m : FMsg) (a len : Nat) : State :=
  let s := s0.meet a len
  let bad := s.poisonIn a len
  let bs := s.rdBytes a len
  let s1 := bad.foldl (fun t o => t.raise { code := 3, domain := domPart (offPart (a + o)), addr := a + o, d0 := 4 }) s
  let lineMask := fun (l : Nat) => badMask (bad.filterMap (fun o => if o / 64 = l then some (o % 64) else none))
  let msg := fun (ad l : Nat) (lines : List Byte) =>
    { fmsg 3 0x26 m.tag.toNat ad with linesM1 := BitVec.ofNat 3 (lines.length / 64 - 1), mask := BitVec.ofNat 16 (lineMask l), lines := lines }
  let s2 := s1.frlSend (msg a 0 bs)
  ((List.range (len / 64)).filter (fun l => l != 0 && lineMask l != 0)).foldl (fun t l => t.frlSend (msg (a + 64 * l) l (slice bs (64 * l) 64))) s2

/-- 256 MRDs are accepted whose answers have not left (R284). -/
def State.mrdFull (s : State) : Bool :=
  let open_ := s.ferrule.waiting.filter (fun x => x.req.isNone && (x.msg.opcode == 0x26 || x.msg.opcode == 0x33))
  decide (256 ≤ (open_.foldl (fun l x => if l.contains x.msg.tag.toNat then l else x.msg.tag.toNat :: l) ([] : List Nat)).length)

/-- An MRD or MWR is taken in the order of arrival of both (R285). -/
def frlOrdered (s : State) (m : FMsg) (op : Nat) (go : State → State) : Out :=
  if s.frlBehind m then .next s else frlArrive s m op go

/-- MRD (R284, R285, R353). -/
def execMrd (m : FMsg) (s : State) : Out :=
  if s.mrdFull then .next s
  else frlOrdered s m 0x06 (fun s =>
    let a := m.addr.toNat
    let len := 64 * (m.linesM1.toNat + 1)
    if a % 64 ≠ 0 then s.protocol
    else match regOffset a with
      | some off =>
        if !(inBlock off) then s.noReg.frlNack m (if s.on BOOT.STATUS.STARTED then 1 else 2)
        else if !(s.reaches .ferrule off false) then s.noReg.frlNack m 2
        else match maskAccess m with
          | none => s.noReg.frlNack m 1
          | some (d, wide) =>
            if regFits (off + d) wide then
              let (v, t) := s.regRead .ferrule (off + d) wide
              t.frlSend { fmsg 3 0x26 m.tag.toNat a with
                lines := padTo 64 (List.replicate d 0 ++ toLE (if wide then 8 else 4) v) }
            else s.noReg.frlNack m 1
      | none =>
        let r := s.reach a len
        if r = 0 then s.noReg.mrdData m a len else s.noReg.frlNack m r)

/-- The enabled words of a one-line MWR are stored; a longer one stores every word (R277, R284). -/
def State.mwrStore (s : State) (m : FMsg) : State :=
  let a := m.addr.toNat
  if m.linesM1 ≠ 0 then s.extWrite a m.lines []
  else
    let ws := (List.range 16).filter (fun w => bit m.mask.toNat w)
    if ws.isEmpty then s
    else (ws.foldl (fun t w => t.wrBytes (a + 4 * w) (slice m.lines (4 * w) 4)) s).afterExt a 64

/-- MWR (R284, R285, R353). -/
def execMwr (m : FMsg) (s : State) : Out :=
  frlOrdered s m 0x27 (fun s =>
    let a := m.addr.toNat
    if a % 64 ≠ 0 then s.protocol
    else match regOffset a with
      | some off =>
        if !(inBlock off) then s.noReg.frlNack m (if s.on BOOT.STATUS.STARTED then 1 else 2)
        else if !(s.reaches .ferrule off true) then s.noReg.frlNack m 2
        else match maskAccess m with
          | none => s.noReg.frlNack m 1
          | some (d, wide) =>
            if regFits (off + d) wide then
              (s.regWrite .ferrule (off + d) wide (fieldAt m.lines d (if wide then 8 else 4))).frlCmp m
            else s.noReg.frlNack m 1
      | none =>
        let r := s.reach a m.lines.length
        if r = 0 then (s.noReg.mwrStore m).frlCmp m else s.noReg.frlNack m r)

end Sys2Proof.Machine
end

