-- ==== Sys2Proof/Machine/Signature.lean ====
section
/-! DEFINITION. Machine/Signature.lean: the signatures that the module verifies (R345, R365): ECDSA over P-384 with SHA-384 of FIPS 186-5, and
LMS of RFC 8554 with SHA-256. -/

namespace Sys2Proof.Machine

/-- The number in bytes, most significant first (R343). -/
def beNat (bs : List Byte) : Nat := bs.foldl (fun a b => 256 * a + b.toNat) 0

/-! ### P-384 -/

/-- The field's prime. -/
def p384 : Nat := 2 ^ 384 - 2 ^ 128 - 2 ^ 96 + 2 ^ 32 - 1
/-- The order of the group. -/
def n384 : Nat := 0xffffffffffffffffffffffffffffffffffffffffffffffffc7634d81f4372ddf581a0db248b0a77aecec196accc52973
/-- The coefficient b of the curve; a is −3. -/
def b384 : Nat := 0xb3312fa7e23ee7e4988e056be3f82d19181d9c6efe8141120314088f5013875ac656398d8a2ed19d2a85c8edd3ec2aef

/-- A point of the curve, none the point at infinity. -/
abbrev Point := Option (Nat × Nat)

/-- The base point. -/
def g384 : Point :=
  some (0xaa87ca22be8b05378eb1c71ef320ad746e1d3b628ba79b9859f741e082542a385502f25dbf55296c3a545e3872760ab7,
    0x3617de4a96262c6f5d9e98bf9292dc29f8f41dbd289a147ce9da3113b5f0b8c00a60b1ce1d7e819d7a431d7c90ea0e5f)

/-- b to the power e, modulo m, e of at most k bits: the bits from the highest one. -/
def powMod (m b e : Nat) : Nat → Nat → Nat
  | 0, acc => acc
  | k + 1, acc => powMod m b e k (if e.testBit k then acc * acc % m * b % m else acc * acc % m)

/-- The inverse modulo a prime of 384 bits. -/
def invMod (m b : Nat) : Nat := powMod m (b % m) (m - 2) 384 1

/-- The sum of two points. -/
def addPoint (a b : Point) : Point :=
  match a, b with
  | none, q => q
  | q, none => q
  | some (x1, y1), some (x2, y2) =>
    if x1 = x2 ∧ (y1 + y2) % p384 = 0 then none
    else
      let l := if x1 = x2 then (3 * x1 * x1 + p384 - 3) * invMod p384 (2 * y1) % p384
        else (y2 + p384 - y1) * invMod p384 (x2 + p384 - x1) % p384
      let x3 := (l * l + 2 * p384 - x1 - x2) % p384
      some (x3, (l * (x1 + p384 - x3) + p384 - y1) % p384)

/-- The low k bits of a number times a point, from the highest bit. -/
def mulPoint (e : Nat) (q : Point) : Nat → Point → Point
  | 0, acc => acc
  | k + 1, acc => mulPoint e q k (if e.testBit k then addPoint (addPoint acc acc) q else addPoint acc acc)

/-- A public key, X then Y, is a point of the curve. -/
def onCurve (x y : Nat) : Bool :=
  decide (x < p384) && decide (y < p384) && decide (y * y % p384 = (x * x * x + (p384 - 3) * x + b384) % p384)

/-- An ECDSA signature, r then s, of a message verifies under a public key, X then Y (FIPS 186-5, with SHA-384). -/
def ecdsaVerify (key msg sig : List Byte) : Bool :=
  let x := beNat (key.take 48)
  let y := beNat (key.drop 48)
  let r := beNat (sig.take 48)
  let s := beNat (sig.drop 48)
  if onCurve x y && decide (1 ≤ r) && decide (r < n384) && decide (1 ≤ s) && decide (s < n384) then
    let w := invMod n384 s
    match addPoint (mulPoint (beNat (sha384 msg) * w % n384) g384 384 none) (mulPoint (r * w % n384) (some (x, y)) 384 none) with
    | some (rx, _) => rx % n384 == r
    | none => false
  else false

/-! ### LMS -/

/-- Steps `j` to 254 of a chain of LM-OTS with w = 8: k of them to go. -/
def otsChain (pre : List Byte) : Nat → Nat → List Byte → List Byte
  | 0, _, v => v
  | k + 1, j, v => otsChain pre k (j + 1) (sha256 (pre ++ toBE 1 j ++ v))

/-- The public key candidate of an LM-OTS signature of LMOTS_SHA256_N32_W8: identifier, leaf, C and the 34 values, message. -/
def otsKey (id : List Byte) (q : Nat) (c y msg : List Byte) : List Byte :=
  let h := sha256 (id ++ toBE 4 q ++ toBE 2 0x8181 ++ c ++ msg)
  let sum := (h.map (fun b => 255 - b.toNat)).sum
  let digits := h.map (fun b => b.toNat) ++ (toBE 2 sum).map (fun b => b.toNat)
  let z := (List.range 34).flatMap (fun i =>
    otsChain (id ++ toBE 4 q ++ toBE 2 i) (255 - digits.getD i 0) (digits.getD i 0) ((y.drop (32 * i)).take 32))
  sha256 (id ++ toBE 4 q ++ toBE 2 0x8080 ++ z)

/-- The root candidate of an LMS path from a node up. -/
def lmsRoot (id : List Byte) : List (List Byte) → Nat → List Byte → List Byte
  | [], _, t => t
  | p :: r, node, t =>
    lmsRoot id r (node / 2) (sha256 (id ++ toBE 4 (node / 2) ++ toBE 2 0x8383 ++ (if node % 2 = 1 then p ++ t else t ++ p)))

/-- An LMS signature of a message verifies under a public key, for LMOTS_SHA256_N32_W8 and a tree of SHA-256 of height h (RFC 8554). -/
def lmsVerify (h : Nat) (key msg sig : List Byte) : Bool :=
  let id := (key.drop 8).take 16
  let q := beNat (sig.take 4)
  let kc := otsKey id q ((sig.drop 8).take 32) ((sig.drop 40).take 1088) msg
  let leaf := sha256 (id ++ toBE 4 (2 ^ h + q) ++ toBE 2 0x8282 ++ kc)
  decide (key.length = 56) && decide (sig.length = 1132 + 32 * h) && decide (q < 2 ^ h)
  && decide (key.take 8 = (sig.drop 1128).take 4 ++ (sig.drop 4).take 4)
  && decide (lmsRoot id (cutBytes 32 h (sig.drop 1132)) (2 ^ h + q) leaf = key.drop 24)

end Sys2Proof.Machine
end

