-- ==== Sys2Proof/Machine/Verify.lean ====
section
/-! DEFINITION. Machine/Verify.lean: boot flash and image checks (R340 to R347), profiles of an image (R351), and the identity EEPROM
(R35, R36). -/

namespace Sys2Proof.Machine

/-! ### Boot flash (R340) -/

/-- k bytes of a boot flash device; a byte not listed reads FFh (log entry 10). -/
def flashBytes (m : Sparse Byte) (a k : Nat) : List Byte := (List.range k).map (fun i => Sparse.get m (a + i) 0xFF)
/-- The number in k bytes of a boot flash device. -/
def flashNat (m : Sparse Byte) (a k : Nat) : Nat := leNat (flashBytes m a k)
/-- k bytes of a boot flash device are zero. -/
def flashZero (m : Sparse Byte) (a k : Nat) : Bool := (flashBytes m a k).all (fun b => b == 0)

/-! ### The header and its sections (R341, R342) -/

/-- SECTION_COUNT of an image. -/
def sectionCount (m : Sparse Byte) : Nat := flashNat m 0x0E 1
/-- IMAGE_LEN of an image. -/
def imageLen (m : Sparse Byte) : Nat := flashNat m 0x08 4
/-- TYPE, OFFSET and LENGTH of section entry i. -/
def sectionAt (m : Sparse Byte) (i : Nat) : Nat × Nat × Nat :=
  (flashNat m (0x20 + 64 * i) 2, flashNat m (0x24 + 64 * i) 4, flashNat m (0x28 + 64 * i) 4)
/-- The section entries of an image. -/
def sections (m : Sparse Byte) : List (Nat × Nat × Nat) := (List.range (sectionCount m)).map (sectionAt m)
/-- The bytes of the section of a type, empty if the image holds none. -/
def sectionBytes (m : Sparse Byte) (ty : Nat) : List Byte :=
  match (sections m).find? (fun x => x.1 == ty) with
  | some (_, o, l) => flashBytes m o l
  | none => []

/-- Whether two sections do not overlap. -/
def disjoint (x y : Nat × Nat × Nat) : Bool := decide (x.2.1 + x.2.2 ≤ y.2.1) || decide (y.2.1 + y.2.2 ≤ x.2.1)
/-- No two sections of a list overlap. -/
def allDisjoint : List (Nat × Nat × Nat) → Bool
  | [] => true
  | x :: r => r.all (disjoint x) && allDisjoint r

/-- R342, and what R341 says of OFFSET and LENGTH. -/
def sectionsOk (m : Sparse Byte) : Bool :=
  let l := sections m
  let count := fun (ty : Nat) => (l.filter (fun x => x.1 == ty)).length
  l.all (fun x => (x.1 == 1 || x.1 == 2 || x.1 == 3) && x.2.1 % 4096 == 0 && decide (0x1000 ≤ x.2.1) && decide (1 ≤ x.2.2)
    && decide (x.2.1 + x.2.2 ≤ imageLen m))
  && count 1 == 1 && count 2 == 1 && decide (count 3 ≤ 1) && allDisjoint l

/-- Step 1 of R345. -/
def imageHeaderOk (m : Sparse Byte) : Bool :=
  let n := sectionCount m
  decide (flashBytes m 0 4 = ascii [0x59, 0x58, 0x42, 0x49]) && flashNat m 4 2 == 1 && flashNat m 6 2 == 0x1000
  && imageLen m % 4096 == 0 && decide (8192 ≤ imageLen m) && decide (imageLen m ≤ 0x4000000) && (n == 2 || n == 3)
  && flashZero m 0x0F 9 && flashZero m (0x20 + 64 * n) (0x400 - 64 * n) && flashZero m 0x4B8 840 && flashZero m 0xF4C 176
  && (List.range n).all (fun i => flashZero m (0x22 + 64 * i) 2 && flashZero m (0x2C + 64 * i) 4)
  && crc32 (flashBytes m 0 0xFFC) == flashNat m 0xFFC 4 && sectionsOk m

/-! ### Keys and signatures (R343 to R345) -/

/-- The hash of a key slot, byte i in bits [8i + 7:8i]; `lms` the hash of the LMS key (R344). -/
def State.keyHash (s : State) (k : Nat) (lms : Bool) : List Byte :=
  let lo := 512 + 768 * k + 384 * b2n lms
  toLE 48 (s.fuse (lo + 383) lo)

/-- Step 2 of R345. -/
def State.keysOk (s : State) (m : Sparse Byte) : Bool :=
  let k := flashNat m 0x0D 1
  decide (k < 4) && !(s.fuse (512 + 768 * k + 767) (512 + 768 * k) == 0) && !(bit (s.fuse 3587 3584) k)
  && decide (padTo 48 (sha384 (flashBytes m 0x420 96)) = s.keyHash k false)
  && decide (padTo 48 (sha384 (flashBytes m 0x480 56)) = s.keyHash k true)
  && decide (flashBytes m 0x480 4 = h20Code) && decide (flashBytes m 0x484 4 = otsCode)

/-- The signed message (R341). -/
def signedMessage (m : Sparse Byte) : List Byte := flashBytes m 0 0x800 ++ flashBytes m 0x1000 (imageLen m - 0x1000)

/-- Step 4 of R345: each section's DIGEST. -/
def digestsOk (m : Sparse Byte) : Bool :=
  (List.range (sectionCount m)).all (fun i =>
    let (_, o, l) := sectionAt m i
    decide (padTo 48 (sha384 (flashBytes m o l)) = flashBytes m (0x30 + 64 * i) 48))

/-- Step 5 of R345. -/
def ecdsaOk (m : Sparse Byte) : Bool := ecdsaVerify (flashBytes m 0x420 96) (signedMessage m) (flashBytes m 0x800 96)

/-- Step 6 of R345; the type codes lie at bytes 1128 and 4 of an LMS signature of RFC 8554. -/
def lmsOk (m : Sparse Byte) : Bool :=
  decide (flashBytes m (0x860 + 1128) 4 = h20Code) && decide (flashBytes m (0x860 + 4) 4 = otsCode)
  && lmsVerify 20 (flashBytes m 0x480 56) (signedMessage m) (flashBytes m 0x860 1772)

/-- The reason code of R345 for an image, 0 where it is accepted; `err`: the flash does not read. -/
def State.imageReason (s : State) (m : Sparse Byte) (err : Bool) : Nat :=
  if err || !(imageHeaderOk m) then 1
  else if !(s.keysOk m) then 2
  else if flashNat m 0x0C 1 < s.fuseSvn then 3
  else if !(digestsOk m) then 4
  else if ecdsaOk m then (if lmsOk m then 0 else 6)
  else if lmsOk m then 5 else 7

/-! ### Remap and seeds (R347) -/

/-- The remap or seeds section as loaded, header and body; empty where it is ignored. -/
def State.dieSection (s : State) (m : Sparse Byte) (base : Nat) (magic : List Nat) : List Byte :=
  let len := flashNat m (base + 4) 4
  if flashBytes m base 4 = ascii magic ∧ len ≤ 0x100000 - 64 ∧ flashNat m (base + 8) 8 = s.dieId
      ∧ crc32 (flashBytes m base 0x3C ++ flashBytes m (base + 64) len) = flashNat m (base + 60) 4 then
    flashBytes m base (64 + len)
  else []

/-! ### Profiles (R351) -/

/-- Profile i at an offset of the PROFILES section is loaded. -/
def profileOk (b : List Byte) (i off : Nat) : Bool :=
  let w := fieldAt b off 4
  let rows := bits w 26 16
  bits w 3 0 == i && decide (rows ≤ 1024) && zeroBits w 15 6 && zeroBits w 31 27 && (slice b (off + 0x40) 0x40).all (fun x => x == 0)
  && decide (off + 0x80 + 16 * rows ≤ b.length)

/-- The profiles loaded from index i on, `k` to go; and whether one failed. -/
def profilesFrom (b : List Byte) : Nat → Nat → Nat → List (List Byte) × Bool
  | 0, _, _ => ([], false)
  | k + 1, i, off =>
    if profileOk b i off then
      let size := 0x80 + 16 * bits (fieldAt b off 4) 26 16
      let (l, bad) := profilesFrom b k (i + 1) (off + size)
      (slice b off size :: l, bad)
    else ([], true)

/-- The profiles that the PROFILES section of an image gives; an INDEX has four bits, so the seventeenth fails. -/
def profilesOf (m : Sparse Byte) : List (List Byte) × Bool :=
  let b := sectionBytes m 3
  if b.isEmpty then ([], false) else profilesFrom b (min 17 (fieldAt b 0 4)) 0 4

/-- The profile store is filled, and a profile that failed is recorded. -/
def State.loadProfiles (s : State) (m : Sparse Byte) : State :=
  let (l, bad) := profilesOf m
  let t := State.put { s with profiles := l } SCH.PROFILES.LOADED l.length
  if bad then t.raise { code := 0x67, domain := 0, d0 := l.length % 16 } else t

/-! ### The identity EEPROM (R35, R36) -/

/-- Fixed bytes of the factory area and of what is padded with zeros; none for a byte that belongs to one module. -/
def factoryFixed (a : Nat) : Option Byte :=
  if a < 0x18 then
    some (BitVec.ofNat 8 ([0x59, 0x58, 0x49, 0x44, 1, 0, 0, 2, 0x59, 0x58, 0x2D, 0x45, 0x4E, 0x31, 0x36, 0x4D].getD a 0))
  else if a < 0x30 then none
  else if a < 0x38 then (if a = 0x30 ∨ a = 0x31 then some 32 else if a = 0x34 then some 4 else if a = 0x35 then some 96 else none)
  else if a < 0x40 then none
  else some (BitVec.ofNat 8 ([0xDC, 5, 8, 7, 10, 0, 0xA0, 0, 0xC2, 1].getD (a - 0x40) 0))

/-- A byte of the serial number: ASCII, padded with 00h (R35). -/
def serialByte (a : Nat) : Byte :=
  if (List.range (a + 1 - 0x18)).any (fun i => (Config.eepromByte (0x18 + i)).toNat % 128 == 0) then 0
  else BitVec.ofNat 8 ((Config.eepromByte a).toNat % 128)

/-- A factory byte that belongs to one module: the serial number, the day 1 to 7 and the week 1 to 53 of manufacture, and what R35 leaves
free (log entry 4). -/
def moduleByte (a : Nat) : Byte :=
  let v := Config.eepromByte a
  if a < 0x28 then serialByte a
  else if a = 0x28 then BitVec.ofNat 8 (1 + v.toNat % 7)
  else if a = 0x29 then BitVec.ofNat 8 (1 + v.toNat % 53)
  else v

/-- A byte of the EEPROM before its CRC, as it stands or as the factory wrote it (log entry 4). -/
def State.eepromBody (s : State) (a : Nat) : Byte :=
  match Sparse.find? s.eeprom a with
  | some b => b
  | none =>
    if 0x38 ≤ a ∧ a < 0x40 then BitVec.ofNat 8 (s.dieId / 256 ^ (a - 0x38))
    else if a < 0x1FC then (factoryFixed a).getD (moduleByte a)
    else Config.eepromByte a

/-- CRC-32 over 000h to 1FBh. -/
def State.eepromCrc (s : State) : Nat := crc32 ((List.range 0x1FC).map s.eepromBody)

/-- A byte of the EEPROM. -/
def State.eepromRead (s : State) (a : Nat) : Byte :=
  if 0x1FC ≤ a ∧ a < 0x200 ∧ (Sparse.find? s.eeprom a).isNone then BitVec.ofNat 8 (s.eepromCrc / 256 ^ (a - 0x1FC))
  else s.eepromBody a

/-- A number of k bytes of the EEPROM. -/
def State.eepromNat (s : State) (a k : Nat) : Nat := leNat ((List.range k).map (fun i => s.eepromRead (a + i)))

/-- What R36 rejects: bit 0 magic, format version or CRC, bit 1 the unique ID. -/
def State.identityBad (s : State) : Nat :=
  b2n (s.eepromNat 0 4 != 0x44495859 || s.eepromNat 4 2 != 1 || s.eepromNat 0x1FC 4 != s.eepromCrc)
  + 2 * b2n (s.eepromNat 0x38 8 != s.dieId)

end Sys2Proof.Machine
end

