-- ==== Sys2Proof/Machine/Boot.lean ====
section
/-! DEFINITION. Machine/Boot.lean: the boot stages and the start (R346, R348 to R354), the capability list (R359, R360, R377), and
LK_DIGEST (R358). -/

namespace Sys2Proof.Machine

/-! ### BOOT_ROM_START (R346, R347, R351) -/

/-- Boot stops at a stage, until a chip reset. -/
def State.bootStop (s : State) (stage : Nat) : State :=
  State.put { s with boot := { s.boot with stopped := true } } BOOT.STATUS.STAGE stage

/-- A section of the accepted device is taken; one that is ignored is recorded (R347). -/
def State.sectionNote (s : State) (b : List Byte) (code dev : Nat) : State :=
  if b.isEmpty then s.raise { code := code, domain := 0, d0 := dev } else s

/-- The image of device `dev` runs (R345 to R347, R351). -/
def State.runImage (s : State) (m : Sparse Byte) (dev : Nat) : State :=
  let d := padTo 48 (sha384 (signedMessage m))
  let remap := s.dieSection m 0x4000000 [0x59, 0x58, 0x52, 0x4D]
  let seeds := s.dieSection m 0x4100000 [0x59, 0x58, 0x53, 0x44]
  let s1 : State := { s with boot := { s.boot with config := sectionBytes m 2, remap := remap, seeds := seeds, digest := d } }
  let s2 := (((s1.put BOOT.STATUS.IMAGE dev).put BOOT.STATUS.FELL_BACK dev).put BOOT.SVN.IMAGE_SVN (flashNat m 0x0C 1)).put BOOT.SVN.KEY_SLOT
    (flashNat m 0x0D 1)
  let s3 := (List.range 12).foldl (fun t i => t.put (BOOT.DIGEST_i.BYTES i) (fieldAt d (4 * i) 4)) s2
  (((s3.sectionNote remap 0x62 dev).sectionNote seeds 0x63 dev).loadProfiles m).put BOOT.STATUS.STAGE 2

/-- Stages 0 and 1 (R346, R348): the Ferrule port trains, and the images are checked; `errA`, `errB`: a device does not read. -/
def State.bootRom (s : State) (errA errB : Bool) : State :=
  let s1 := (s.showFuses.modLink 10 (fun k => { k with released := true })).train 10
  let a := s1.imageReason s1.flashA errA
  let s2 := s1.put BOOT.STATUS.REASON_A a
  if a = 0 then s2.runImage s2.flashA 0
  else
    let s3 := s2.raise { code := 0x60, domain := 0, d0 := 16 * a }
    let b := s3.imageReason s3.flashB errB
    let s4 := s3.put BOOT.STATUS.REASON_B b
    if b = 0 then s4.runImage s4.flashB 1
    else ((s4.raise { code := 0x60, domain := 0, d0 := 1 + 16 * b }).raise { code := 0x61, domain := 0, d0 := a + 16 * b }).bootStop 14

/-- BOOT_ROM_START (R22, R23, R332, R348). -/
def execBootRomStart (errA errB : Bool) (s : State) : Out :=
  act s (s.live && s.get BOOT.STATUS.STAGE == 0 && !s.boot.stopped && decide (s.power.bootAt ≤ s.time)) (s.bootRom errA errB)

/-! ### VELLUM_TEST (R204, R348) -/

/-- Spare lines that the remap table takes in a bank. -/
def State.remapped (s : State) (bank : Nat) : List Nat :=
  if s.boot.remap.isEmpty then [] else (Config.remapLines s.boot.remap).eraseDups.filter (fun l => l / 65536 == bank)

/-- A core's vellum is withdrawn (R204). -/
def State.coreVellumOut (s : State) (c : Nat) : State :=
  let n := toPart (c / 4)
  let out := s.get (MEM.STATUS_n.T0_CORE_OUT n)
  if bit out (c % 4) then s
  else (((s.put (MEM.STATUS_n.T0_CORE_OUT n) (out + 2 ^ (c % 4))).drop (MEM.CAPACITY_n.T0 n) 16384).raise
    { code := 8, domain := domPart n, d0 := c })

/-- A failing line, bank × 65,536 + row, is found: one that the remap table names is replaced already; with a spare free it is
repaired for this boot; in a bank out of spares it withdraws its core. -/
def State.failingLine (s : State) (line : Nat) : State :=
  let bank := line / 65536
  let mine := s.remapped bank
  let used := Sparse.get s.boot.spares bank 0
  if mine.contains line then s
  else if mine.length + used < 64 then
    State.raise { s with boot := { s.boot with spares := Sparse.insert s.boot.spares bank (used + 1) } }
      { code := 0x64, domain := 0, addr := bankLine bank (line % 65536) }
  else s.coreVellumOut (bank / 128)

/-- Stage 2: the failing lines in turn; the vellum is overwritten. -/
def State.testVellum (s : State) (failing : List (Fin 2048 × BitVec 16)) : State :=
  let s1 := ((failing.map (fun p => 65536 * p.1.val + p.2.toNat)).eraseDups).foldl State.failingLine s
  State.put { s1.scrubZero 0 0x400000000 with boot := { s1.boot with stepAt := s.time } } BOOT.STATUS.STAGE 3

/-- VELLUM_TEST (R204, R348). -/
def execVellumTest (failing : List (Fin 2048 × BitVec 16)) (s : State) : Out :=
  act s (s.live && s.get BOOT.STATUS.STAGE == 2) (s.testVellum failing)

/-! ### MEMORY_PREPARATION (R211, R332, R348) -/

/-- Stage 3 in a partition: training failures, retirements, and in clean mode the scrub of T1 and T2. -/
def State.prepareMemory (s : State) (failed : List (PartIx × Bool × Fin 32)) (n : PartIx) : State :=
  let t := (s.markFailed n ((failed.filter (fun f => f.1 == n)).map (fun f => f.2))).retireMarked n s.boot.retained
  if t.boot.retained then t
  else (t.scrubZero (frameBase n 1 0) (frameBase n 1 0 + 0x800000000)).scrubZero (frameBase n 2 0) (frameBase n 2 0 + 0x2000000000)

/-- MEMORY_PREPARATION (R332, R348): `failedTraining` names channels whose training fails, T2 or not. -/
def execMemoryPreparation (failedTraining : List (PartIx × Bool × Fin 32)) (s : State) : Out :=
  act s (s.live && s.get BOOT.STATUS.STAGE == 3)
    ((forParts allParts (fun n t => t.prepareMemory failedTraining n) { s with boot := { s.boot with stepAt := s.time } }).put BOOT.STATUS.STAGE 4)

/-! ### SHELL_INIT (R36, R349, R350) -/

/-- The first bad field of the CONFIG section, by byte offset (R349). -/
def configBad (b : List Byte) : Option Nat :=
  let count := fieldAt b 2 2
  if fieldAt b 0 2 ≠ 1 then some 0
  else if 1024 < count ∨ b.length ≠ 0x190 + 16 * count then some 2
  else if fieldAt b 4 2 % 64 ≠ 0 then some 4
  else if fieldAt b 6 2 / 8 ≠ 0 then some 6
  else if fieldAt b 0x0E 2 ≠ 0 then some 0x0E
  else ((List.range count).find? (fun i => fieldAt b (0x194 + 16 * i) 4 != 0)).map (fun i => 0x194 + 16 * i)

/-- Preset i, register offset and value, is applied or rejected (R350 step 1). -/
def State.preset (s : State) (i off v : Nat) : State :=
  let no := s.raise { code := 0x66, domain := 0, addr := off, d0 := i }
  if inModels off then
    if presetModel (off % 128) v then s.regWrite .firmware off (entryWide (off % 128)) v else no
  else match findReg off with
    | some (r, inst, 0) => if presetFits r v then s.updateReg .firmware r inst v 0 else no
    | _ => no

/-- The presets in list order. -/
def State.presets (s : State) : State :=
  let b := s.boot.config
  (List.range (fieldAt b 2 2)).foldl (fun t i => t.preset i (fieldAt b (0x190 + 16 * i) 4) (fieldAt b (0x198 + 16 * i) 8)) s

/-- GRT.ROUTE of dimension d from GRT.TOPO and the module's coordinates: the shortest direction, + on a tie (R262, R350 step 3). -/
def State.defaultRoute (s : State) (d : Nat) : Nat :=
  let size := s.sizeM1 d + 1
  let own := coord s.selfModule d % size
  ((List.range size).map (fun v =>
    if (own + size - v) % size < (v + size - own) % size then 2 ^ v else 0)).sum

/-- Ports of R350 step 5 are released and train; a disabled one stays so. -/
def State.releasePort (s : State) (p : Nat) : State :=
  if s.portUsed p then
    let t := s.modLink (toLink p) (fun k => { k with released := true })
    if t.get (linkState (toLink p)) = 5 then t else t.train (toLink p)
  else s

/-- Steps 1 to 5 of R350, and the records that end step 6 of R332. -/
def State.initShell (s : State) (slotId : Nat) : State :=
  let b := s.boot.config
  let s1 := s.presets.put CHT.SELF.MODULE (fieldAt b 4 2 + slotId)
  let s2 := (List.range 5).foldl (fun t d => t.put (routeField d) (t.defaultRoute d)) s1
  let s3 := if s2.boot.powerUp then s2.putB RST.PERSIST.CHIP_RETAIN (bit (fieldAt b 6 2) 1) else s2
  let s4 := (List.range 10).foldl State.releasePort s3
  let cause := s4.get RST.PERSIST.LAST_CAUSE
  let s5 := if cause = 3 then s4.raise { code := 0x50, domain := 0 } else s4
  let s6 := if cause = 0 then s5 else s5.raise { code := 0x52, domain := 0, d0 := 4 + 8 * b2n s.boot.retained + 16 * 15 }
  { s6 with boot := { s6.boot with shellOk := true } }

/-- Stage 4 (R36, R349, R350). -/
def State.shellStage (s : State) (slotId : Nat) : State :=
  let bad := s.identityBad
  if bad ≠ 0 then (s.raise { code := 0x51, domain := 0, d0 := bad }).bootStop 15
  else match configBad s.boot.config with
    | some o => (s.raise { code := 0x65, domain := 0, d0 := o }).bootStop 4
    | none => s.initShell slotId

/-- SHELL_INIT (R36, R349, R350): `slotId` is what the SLOT_ID straps read. -/
def execShellInit (slotId : BitVec 6) (s : State) : Out :=
  act s (s.live && s.get BOOT.STATUS.STAGE == 4 && !s.boot.shellOk && !s.boot.stopped) (s.shellStage slotId.toNat)

/-! ### START (R352, R354) -/

/-- The header of a capability (R359). -/
def capHead (id len next : Nat) : List Byte := toLE 2 id ++ toLE 1 1 ++ toLE 1 0 ++ toLE 2 len ++ toLE 2 next

/-- Ports in UP, bit p (R360). -/
def State.portsUp (s : State) : Nat := ((List.range 10).map (fun p => if s.get (linkState (toLink p)) = 2 then 2 ^ p else 0)).sum

/-- The capability list (R360, R377); type codes as R343 orders them. -/
def State.capList (s : State) : List Byte :=
  padTo 0x18 (capHead 1 0x16 0x18 ++ toLE 8 s.dieId ++ toLE 2 s.selfModule ++ ascii [4, 16, 128, 10])
  ++ padTo 0x40 (capHead 2 0x3C 0x58 ++ toLE 1 (s.get BOOT.STATUS.IMAGE) ++ toLE 1 (s.get BOOT.SVN.IMAGE_SVN)
    ++ toLE 1 (s.get BOOT.SVN.KEY_SLOT) ++ toLE 1 (s.get BOOT.STATUS.FELL_BACK) ++ padTo 48 s.boot.digest)
  ++ padTo 0x18 (capHead 3 0x16 0x70 ++ toLE 2 s.blocksLeft ++ h20Code ++ h10Code ++ otsCode)
  ++ capHead 4 8 0x78
  ++ (capHead 5 0x10 0x88 ++ toLE 4 8192 ++ toLE 4 256)
  ++ padTo 0x10 (capHead 6 0x0E 0 ++ toLE 4 (s.rawAt GRT.TOPO.SX_M1.addr) ++ toLE 2 s.portsUp)

/-- The fields of type LK in ascending register offset. -/
def lkFields : List Field :=
  [CHT.SELF.MODULE, GRT.TOPO.SX_M1, GRT.TOPO.SY_M1, GRT.TOPO.SZ_M1, GRT.TOPO.SU_M1, GRT.TOPO.SV_M1]

/-- LK_DIGEST (R358): each value as its register's width. -/
def State.lkDigest (s : State) : List Byte := padTo 48 (sha384 (lkFields.flatMap (fun f => toLE 4 (s.get f))))

/-- A partition leaves reset at S0, ACTIVE with RUN = 0 (R50, R352). -/
def State.partStart (s : State) (n : PartIx) : State :=
  ((s.put (STK.CTRL_n.RUN n) 0).put (STK.NEXT_n.ACLK n) never).modPart n (fun p =>
    { p with inReset := s.on (RST.PART_n.BUSY n) && p.inReset, chanDue := s.time + 800000 * max 1 (s.inForce MEM.ERR_CFG.WINDOW_MS) })

/-- What happens in the aclk S0 (R352). -/
def State.s0 (s : State) : State :=
  let s1 := forParts allParts (fun n t => t.partStart n) (s.put BOOT.STATUS.STARTED 1).lkUndo
  let s2 := forParts allParts (fun n t => t.bringForce n true true) s1
  State.put { s2 with cap := s2.capList, boot := { s2.boot with lk := s2.lkDigest } } BOOT.ATT_COUNT.BLOCKS_LEFT s2.blocksLeft

/-- DEFAULT_PROFILE of a partition (R352). -/
def State.defaultProfile (s : State) (n : PartIx) : State :=
  let i := fieldAt s.boot.config (8 + n.val) 1
  if i = 255 then s
  else if i < s.get SCH.PROFILES.LOADED then (s.put (SCH.PROFILE_n.INDEX n) i).applyProfile n i
  else s.raise { code := 0x67, domain := 0, d0 := i % 16 + 16 * n.val }

/-- The lowest k unburned bits of the SVN thermometer. -/
def State.svnBits (s : State) (k : Nat) : List Nat :=
  (((List.range 64).map (fun i => 3648 + i)).filter (fun i => !(bit s.fuses i))).take k

/-- Some bit of a list is unburned and does not burn. -/
def State.burnFails (s : State) (bad l : List Nat) : Bool := l.any (fun i => !(bit s.fuses i) && bad.contains i)

/-- A slot of PROVISION_MASK (R354 step 2): the state, and whether the step has ended. A slot partly burned with nothing but bits of
these hashes is one that an interrupted boot left (log entry 120); any other that is not empty is left, with a record. -/
def State.provision (s : State) (bad : List Nat) (k : Nat) : State × Bool :=
  let lo := 512 + 768 * k
  let want := leNat (slice s.boot.config (0x10 + 96 * k) 96)
  let have_ := s.fuse (lo + 767) lo
  if have_ = 0 ∨ (have_ ≠ want ∧ Nat.land have_ want = have_) then
    let l := ((List.range 768).filter (fun i => bit want i)).map (fun i => lo + i)
    (burnAll bad l s, s.burnFails bad l)
  else (s.raise { code := 0x69, domain := 0, d0 := k }, false)

/-- The slots of PROVISION_MASK in order, until the step ends. -/
def State.provisionAll (s : State) (bad : List Nat) : List Nat → State
  | [] => s
  | k :: r =>
    let (t, refused) := s.provision bad k
    if refused then t else t.provisionAll bad r

/-- The slots of REVOKE_MASK in order, until the step ends (R354 step 3). -/
def State.revokeAll (s : State) (bad : List Nat) : List Nat → State
  | [] => s
  | k :: r =>
    if k = s.get BOOT.SVN.KEY_SLOT then (s.raise { code := 0x69, domain := 0, d0 := k + 4 }).revokeAll bad r
    else if s.burnFails bad [3584 + k] then burnAll bad [3584 + k] s
    else (burnAll bad [3584 + k] s).revokeAll bad r

/-- The fuse changes that CONFIG asks for (R354). -/
def State.fuseChanges (s : State) (bad : List Nat) : State :=
  let b := s.boot.config
  let slots := fun (m : Nat) => (List.range 4).filter (fun k => bit m k)
  let s1 := if bit (fieldAt b 6 2) 0 then burnAll bad (s.svnBits (s.get BOOT.SVN.IMAGE_SVN - s.fuseSvn)) s else s
  let s2 := s1.provisionAll bad (slots (fieldAt b 0x0D 1))
  (s2.revokeAll bad (slots (fieldAt b 0x0C 1))).showFuses

/-- OPEN is set by the firmware (R352). -/
def State.autoOpen (s : State) : State :=
  let first := s.get RST.PERSIST.LAST_CAUSE == 0
  if (bit (fieldAt s.boot.config 6 2) 2 && first) || (!first && !s.boot.retained) then s.put GAZ.CTRL.OPEN 1 else s

/-- The start and what follows it (R352): `bad` names fuse bits that do not burn. -/
def State.started (s : State) (bad : List Nat) : State :=
  let s1 := forParts allParts (fun n t => t.defaultProfile n) s.s0
  ((s1.fuseChanges bad).autoOpen.put BOOT.STATUS.STAGE 5).put BOOT.STATUS.READY 1

/-- START (R352, R354). -/
def execStart (bad : List (BitVec 13)) (s : State) : Out :=
  act s (s.live && s.get BOOT.STATUS.STAGE == 4 && s.boot.shellOk && !(s.on BOOT.STATUS.STARTED)) (s.started (bad.map BitVec.toNat))

end Sys2Proof.Machine
end

