-- ==== Sys2Proof/Machine/Debug.lean ====
section
/-! DEFINITION. Machine/Debug.lean: the Onaut port: requests and responses (R363, R364), unlock (R365), halt, step and breakpoints
(R366 to R369). A request command stands for a frame of 192 edges with a good CRC; ONAUT_BAD_REQUEST for any raw frame. -/

namespace Sys2Proof.Machine

/-! ### Requests and responses (R363, R364) -/

/-- The 128 bits of a response frame, the least significant byte first (R363). -/
def OnautResp.frame (r : OnautResp) : List Byte :=
  let body := toLE 1 r.status ++ toLE 1 r.op ++ toLE 2 r.seq ++ toLE 8 r.data
  body ++ toLE 4 (crc32 body)

/-- A response is sent. -/
def State.onautSend (s : State) (r : OnautResp) : State := { s with onaut := { s.onaut with tx := s.onaut.tx ++ [r.frame] } }

/-- A response is sent, and kept with its SEQ. -/
def State.onautAnswer (s : State) (r : OnautResp) : State :=
  State.onautSend { s with onaut := { s.onaut with kept := some r } } r

/-- The scope of the port: 0 locked, 1 read, 2 full. -/
def State.onautScope (s : State) : Nat := if s.on DBG.STATUS.UNLOCKED then s.get DBG.STATUS.SCOPE else 0

/-- What an operation answers: STATUS, DATA and the state after it. -/
abbrev OnautOut := Nat × Nat × State

/-- A request with a good CRC. `need` is the scope that the operation asks for, `early` says that it is served before the start; a
request whose SEQ is the kept one is answered with what is kept. -/
def State.onautAsk (s : State) (op seq need : Nat) (early : Bool) (eff : State → OnautOut) : State :=
  match s.onaut.kept.filter (fun r => r.seq == seq) with
  | some r => s.onautSend r
  | none =>
    let (status, data, t) : OnautOut :=
      if s.onautScope < need then (2, 0, s)
      else if !early && !(s.on BOOT.STATUS.STARTED) then (5, 0, s)
      else eff s
    t.onautAnswer { status := status, op := op, seq := seq, data := data }

/-- A request reaches the port while the module's logic runs. -/
def onautReq (s : State) (op : Nat) (seq : BitVec 16) (need : Nat) (early : Bool) (eff : State → OnautOut) : Out :=
  act s s.live (s.onautAsk op seq.toNat need early eff)

/-- ONAUT_ID (R364). -/
def execOnautId (seq : BitVec 16) (s : State) : Out := onautReq s 0x00 seq 0 true (fun t => (0, t.dieId, t))

/-- DBG.STATUS as it reads. -/
def State.dbgStatus (s : State) : Nat := (s.mirror DBG.STATUS.HALTED.addr).getD 0

/-- ONAUT_STATUS (R364). -/
def execOnautStatus (seq : BitVec 16) (s : State) : Out := onautReq s 0x01 seq 0 true (fun t => (0, t.dbgStatus, t))

/-- A new nonce is drawn (R364, R365). -/
def State.drawNonce (s : State) : State :=
  let v := padTo 32 (Config.onautNonce s.free)
  { s with free := s.free + 1, onaut := { s.onaut with nonce := some v, drawn := v } }

/-- CHALLENGE (R364). -/
def execChallenge (seq : BitVec 16) (q : BitVec 2) (s : State) : Out :=
  onautReq s 0x02 seq 0 true (fun t =>
    if t.get BOOT.STATUS.STAGE = 0 then (5, 0, t)
    else
      let u := if q = 0 then t.drawNonce else t
      (0, fieldAt u.onaut.drawn (8 * q.toNat) 8, u))

/-- TOKEN (R364); the manual gives no answer for j above 24: REFUSED (log entry 38). -/
def execToken (seq : BitVec 16) (j : BitVec 5) (data : Word) (s : State) : Out :=
  onautReq s 0x03 seq 0 true (fun t =>
    if 24 < j.toNat then (5, 0, t)
    else (0, 0, { t with onaut := { t.onaut with token := splice t.onaut.token (8 * j.toNat) (toLE 8 data.toNat) } }))

/-! ### Unlock (R365) -/

/-- UNLOCK (R364, R365 steps 1 to 3). -/
def execUnlock (seq : BitVec 16) (s : State) : Out :=
  onautReq s 0x04 seq 0 true (fun t =>
    if t.get BOOT.STATUS.STAGE = 0 then (5, 0, t)
    else if t.on DBG.STATUS.BACKOFF then (9, 0, t)
    else match t.onaut.nonce with
      | none => (8, 0, t)
      | some v => (1, 0, { t with onaut := { t.onaut with nonce := none, verify := t.onaut.verify ++ [(seq.toNat, v, t.onaut.token)] } }))

/-- The checks of step 4 of R365. -/
def State.tokenOk (s : State) (nonce token : List Byte) : Bool :=
  let scope := fieldAt token 0 4
  let key := slice token 4 96
  let hash := s.fuse 4095 3712
  hash != 0 && decide (padTo 48 (sha384 key) = toLE 48 hash) && (scope == 1 || scope == 2)
  && ecdsaVerify key (ascii [0x59, 0x58, 0x55, 0x4C] ++ toLE 8 s.dieId ++ nonce ++ toLE 4 scope) (slice token 100 96)

/-- The outcome of a pending UNLOCK becomes known to POLL, if it is the kept request (R364). -/
def State.onautOutcome (s : State) (seq status : Nat) : State :=
  { s with onaut := { s.onaut with kept := s.onaut.kept.map (fun r =>
      if r.seq = seq ∧ r.op = 4 ∧ r.status = 1 then { r with status := status } else r) } }

/-- Aclk in the backoff after `fails` failures: 2^min(fails − 1, 6) seconds. -/
def backoffAclk (fails : Nat) : Nat := 800000000 * 2 ^ min (fails - 1) 6

/-- Steps 4 to 6 of R365. -/
def State.unlockEnd (s : State) (seq : Nat) (nonce token : List Byte) : State :=
  if s.tokenOk nonce token then
    (((s.put DBG.STATUS.UNLOCKED 1).put DBG.STATUS.SCOPE (fieldAt token 0 4)).put DBG.STATUS.FAILS 0).onautOutcome seq 0
  else
    let t := (s.bumpSat DBG.STATUS.FAILS 1).put DBG.STATUS.BACKOFF 1
    State.onautOutcome { t with onaut := { t.onaut with due := t.time + backoffAclk (t.get DBG.STATUS.FAILS) } } seq 8

/-- UNLOCK_VERIFIED (R365): the verification of the oldest pending token ends. -/
def execUnlockVerified (s : State) : Out :=
  match s.onaut.verify with
  | [] => .next s
  | (seq, nonce, token) :: r => act s s.live (State.unlockEnd { s with onaut := { s.onaut with verify := r } } seq nonce token)

/-- UNLOCK_BACKOFF_END (R365). -/
def execUnlockBackoffEnd (s : State) : Out :=
  act s (s.live && s.on DBG.STATUS.BACKOFF && decide (s.onaut.due ≤ s.time)) (s.put DBG.STATUS.BACKOFF 0)

/-- LOCK (R364). -/
def execLock (seq : BitVec 16) (s : State) : Out :=
  onautReq s 0x05 seq 0 true (fun t => (0, 0, (t.put DBG.STATUS.UNLOCKED 0).put DBG.STATUS.SCOPE 0))

/-- POLL (R364): with the kept SEQ the kept response goes out again; with any other, REFUSED. -/
def execPoll (seq : BitVec 16) (s : State) : Out := onautReq s 0x06 seq 0 true (fun t => (5, 0, t))

/-! ### READ and WRITE (R364, R284) -/

/-- What READ and WRITE meet before they are done: 0 nothing, else the STATUS they answer. -/
def State.onautReach (s : State) (a len : Nat) : Nat :=
  match regOffset a with
  | some off =>
    if !(s.on BOOT.STATUS.STARTED) && !(earlyBlock off) then 5
    else if regFits off (len == 8) then 0 else 6
  | none =>
    if !(s.on BOOT.STATUS.STARTED) then 5
    else match s.reach a len with
      | 0 => 0
      | 1 => 6
      | _ => 7

/-- A read of local space: a register, or dry memory, in which a poisoned word reads as a free value (log entry 1). -/
def State.onautRead (s : State) (a len : Nat) : Nat × State :=
  match regOffset a with
  | some off => s.regRead .onaut off (len == 8)
  | none =>
    let t := (s.setAgent .onaut none none).meet a len
    if t.anyPoison a len then
      let (v, u) := t.draw
      (v.toNat % 256 ^ len, u)
    else (t.rdLE a len, t)

/-- ONAUT_READ (R364). -/
def execOnautRead (seq : BitVec 16) (size8 : Bool) (at_ : Word) (s : State) : Out :=
  onautReq s 0x10 seq 1 true (fun t =>
    let len := if size8 then 8 else 4
    let r := t.onautReach at_.toNat len
    if r = 0 then
      let (v, u) := t.onautRead at_.toNat len
      (0, v, u)
    else (r, 0, t))

/-- A write of local space. -/
def State.onautWrite (s : State) (a len v : Nat) : State :=
  match regOffset a with
  | some off => s.regWrite .onaut off (len == 8) v
  | none => (s.setAgent .onaut none none).extWrite a (toLE len v) []

/-- ONAUT_WRITE (R364). -/
def execOnautWrite (seq : BitVec 16) (size8 : Bool) (at_ data : Word) (s : State) : Out :=
  onautReq s 0x11 seq 2 true (fun t =>
    let len := if size8 then 8 else 4
    let r := t.onautReach at_.toNat len
    if r = 0 then (0, 0, t.onautWrite at_.toNat len data.toNat) else (r, 0, t))

/-! ### Halt, resume, step and breakpoints (R366 to R369) -/

/-- The cores whose bit is set. -/
def maskCores (m : BitVec 16) : List CoreIx := allCores.filter (fun c => bit m.toNat c.val)

/-- HALT_REQ of a core is set; a halt asked for anew does not come from a breakpoint. -/
def State.haltReq (s : State) (c : CoreIx) : State :=
  if s.on (DBG.CORE_c.HALT_REQ c) then s else (s.put (DBG.CORE_c.HALT_REQ c) 1).put (DBG.CORE_c.BP_HIT c) 0

/-- ONAUT_HALT (R366). -/
def execOnautHalt (seq : BitVec 16) (cores : BitVec 16) (s : State) : Out :=
  onautReq s 0x20 seq 2 false (fun t => (0, 0, forCores (maskCores cores) (fun c u => u.haltReq c) t))

/-- Nothing of a core is outstanding: no command issued and not complete, no lift, no semaphore command, no unit reset (R366). -/
def nothingOut (s : State) (c : CoreIx) : Bool :=
  (s.core c).unitReset.isNone
  && (match s.seg c with
      | none => true
      | some g => g.work.isEmpty && g.lift.isNone && g.semWait.isEmpty)

/-- CORE_HALTED (R366). -/
def execCoreHalted (c : CoreIx) (s : State) : Out :=
  act s (s.live && s.on (DBG.CORE_c.HALT_REQ c) && !(s.on (DBG.CORE_c.HALTED c)) && nothingOut s c) (s.put (DBG.CORE_c.HALTED c) 1)

/-- A core is resumed; the command it stands at is compared with the breakpoints as it issues (R366, R368). -/
def State.resumeCore (s : State) (c : CoreIx) : State :=
  (((s.put (DBG.CORE_c.HALT_REQ c) 0).put (DBG.CORE_c.HALTED c) 0).put (DBG.CORE_c.STEPPING c) 0).bpCheck c

/-- ONAUT_RESUME (R366). -/
def execOnautResume (seq : BitVec 16) (cores : BitVec 16) (s : State) : Out :=
  onautReq s 0x21 seq 2 false (fun t => (0, 0, forCores (maskCores cores) (fun c u => u.resumeCore c) t))

/-- STEP (R367). -/
def execStep (seq : BitVec 16) (c : CoreIx) (s : State) : Out :=
  onautReq s 0x22 seq 2 false (fun t =>
    if t.on (DBG.CORE_c.HALTED c) && !(t.on (DBG.CORE_c.STEPPING c)) then (0, 0, (t.put (DBG.CORE_c.STEPPING c) 1).bpCheck c)
    else (5, 0, t))

/-- BP_SET (R364, R368); bits [63:57] are reserved, and one set to 1 answers BAD_OP. -/
def execBpSet (seq : BitVec 16) (c : CoreIx) (i : Fin 4) (v : Word) (s : State) : Out :=
  if 2 ^ 57 ≤ v.toNat then onautReq s 0x23 seq 0 true (fun t => (4, 0, t))
  else onautReq s 0x23 seq 2 false (fun t => (0, 0, (t.put (DBG.BP_c_i.MATCH c i) v.toNat).bpCheck c))

/-- BP_CLEAR (R364). -/
def execBpClear (seq : BitVec 16) (c : CoreIx) (i : Fin 4) (s : State) : Out :=
  onautReq s 0x24 seq 2 false (fun t => (0, 0, t.put (DBG.BP_c_i.MATCH c i) 0))

/-! ### Request frames (R363) -/

/-- The CRC of a request frame matches (R363). -/
def frameCrcOk (f : Nat) : Bool := crc32 (toLE 20 f) == bits f 191 160

/-- A request frame names an operation and sets no bit that the operation does not use (R364; log entry 157). -/
def frameFits (f : Nat) : Bool :=
  let op := bits f 7 0
  let at_ := bits f 95 32
  let data := bits f 159 96
  let core := bits f 11 8
  let size := bits f 15 12
  if [0x00, 0x01, 0x04, 0x05, 0x06].contains op then core == 0 && size == 0 && at_ == 0 && data == 0
  else if op = 0x02 then core == 0 && size == 0 && decide (at_ < 4) && data == 0
  else if op = 0x03 then core == 0 && size == 0 && decide (at_ < 32)
  else if op = 0x10 then core == 0 && decide (size ≤ 1) && data == 0
  else if op = 0x11 then core == 0 && decide (size ≤ 1)
  else if op = 0x20 ∨ op = 0x21 then core == 0 && size == 0 && at_ == 0 && decide (data < 2 ^ 16)
  else if op = 0x22 then size == 0 && at_ == 0 && data == 0
  else if op = 0x23 then decide (size < 4) && data == 0
  else if op = 0x24 then decide (size < 4) && at_ == 0 && data == 0
  else false

/-- ONT_FRM has risen while the last response was being driven, after so many of its bits: it goes no further (R363). -/
def State.onautCut (s : State) (cut : Option (Fin 128)) : State :=
  match cut with
  | some k =>
    let i := s.onaut.tx.length
    if i = 0 ∨ s.onaut.cuts.any (fun x => x.1 == i - 1) then s
    else { s with onaut := { s.onaut with cuts := s.onaut.cuts ++ [(i - 1, k.val)] } }
  | none => s

/-- A good request frame runs its operation, as the command of that operation does. -/
def onautRun (f : Nat) (s : State) : Out :=
  let op := bits f 7 0
  let c := toCore (bits f 11 8)
  let size := bits f 15 12
  let seq := BitVec.ofNat 16 (bits f 31 16)
  let at_ := BitVec.ofNat 64 (bits f 95 32)
  let data := BitVec.ofNat 64 (bits f 159 96)
  let bp : Fin 4 := ⟨size % 4, by omega⟩
  if op = 0x00 then execOnautId seq s
  else if op = 0x01 then execOnautStatus seq s
  else if op = 0x02 then execChallenge seq (BitVec.ofNat 2 at_.toNat) s
  else if op = 0x03 then execToken seq (BitVec.ofNat 5 at_.toNat) data s
  else if op = 0x04 then execUnlock seq s
  else if op = 0x05 then execLock seq s
  else if op = 0x06 then execPoll seq s
  else if op = 0x10 then execOnautRead seq (size == 1) at_ s
  else if op = 0x11 then execOnautWrite seq (size == 1) at_ data s
  else if op = 0x20 then execOnautHalt seq (BitVec.ofNat 16 data.toNat) s
  else if op = 0x21 then execOnautResume seq (BitVec.ofNat 16 data.toNat) s
  else if op = 0x22 then execStep seq c s
  else if op = 0x23 then execBpSet seq c bp at_ s
  else execBpClear seq c bp s

/-- ONAUT_BAD_REQUEST (R363, R364): a frame of 160 bits and its CRC-32, its edges, and where in the last response ONT_FRM rose. One of the wrong length
is discarded; a bad CRC is answered BAD_CRC with OP and SEQ 0; an unknown OP or a reserved bit set BAD_OP; a frame that is good after all
runs. -/
def execOnautBadRequest (edges : Nat) (cut : Option (Fin 128)) (body : BitVec 160) (crc : BitVec 32) (s : State) : Out :=
  let t := s.onautCut cut
  let f := (crc ++ body).toNat
  if !s.live then .next s
  else if edges ≠ 192 then .next t
  else if !(frameCrcOk f) then .next (t.onautSend { status := 3, op := 0, seq := 0, data := 0 })
  else if !(frameFits f) then onautReq t (bits f 7 0) (BitVec.ofNat 16 (bits f 31 16)) 0 true (fun u => (4, 0, u))
  else onautRun f t

end Sys2Proof.Machine
end

