-- ==== Sys2Proof/Machine/Mgmt.lean ====
section
/-! DEFINITION. Machine/Mgmt.lean: the management sideband (R371 to R374). A command stands for a transfer addressed to the module's
target. -/

namespace Sys2Proof.Machine

/-- The target answers: from step 3 of R21 until the rails fall, and not while a trip is latched (R371). -/
def State.mgmtUp (s : State) : Bool :=
  match s.power.phase with
  | .up k => decide (3 ≤ k)
  | .off _ => false
  | .tripped => false

/-- Bytes go to the tray controller. -/
def State.i3cSend (s : State) (bs : List Byte) : State := { s with i3cTx := s.i3cTx ++ [.data bs] }

/-- A change of the target's own state. -/
def State.modMgt (s : State) (f : MgtSt → MgtSt) : State := { s with mgt := f s.mgt }

/-! ### Common command codes (R371) -/

/-- The Provisional ID: bits [47:0] of DIE_ID, the most significant byte first (R371; log entry 11). -/
def State.i3cPid (s : State) : List Byte := toBE 6 s.dieId
/-- The bus characteristics: a target (bits [7:6] 0) without HDR modes (bit 5), whose In-Band Interrupts (bit 1) carry a data byte (bit 2)
(R371, R372); the other bits are free (log entry 11). -/
def i3cBcr : Byte := (Config.i3cBcr &&& 0x19) ||| 6

/-- ENTDAA (R371): a target with no dynamic address sends its Provisional ID, BCR and DCR and takes the one assigned. -/
def execEntdaa (addr : BitVec 7) (s : State) : Out :=
  act s (s.mgmtUp && s.mgt.addr.isNone)
    ((s.i3cSend (s.i3cPid ++ [i3cBcr, Config.i3cDcr])).modMgt (fun m => { m with addr := some addr }))

/-- SETDASA (R371): the same, by the static address 30h. -/
def execSetdasa (addr : BitVec 7) (s : State) : Out :=
  act s (s.mgmtUp && s.mgt.addr.isNone) (s.modMgt (fun m => { m with addr := some addr }))

/-- RSTDAA (R371). -/
def execRstdaa (s : State) : Out := act s s.mgmtUp (s.modMgt (fun m => { m with addr := none }))

/-- ENEC (R371, R372): In-Band Interrupts are enabled; a cause that stands interrupts. -/
def execEnec (s : State) : Out := act s s.mgmtUp (s.modMgt (fun m => { m with ibiOn := true })).ibiTry

/-- DISEC (R371, R372). -/
def execDisec (s : State) : Out := act s s.mgmtUp (s.modMgt (fun m => { m with ibiOn := false }))

/-- GETPID (R371). -/
def execGetpid (s : State) : Out := act s s.mgmtUp (s.i3cSend s.i3cPid)
/-- GETBCR (R371, R372). -/
def execGetbcr (s : State) : Out := act s s.mgmtUp (s.i3cSend [i3cBcr])
/-- GETDCR (R371); the manual does not give the byte (log entry 11). -/
def execGetdcr (s : State) : Out := act s s.mgmtUp (s.i3cSend [Config.i3cDcr])
/-- GETSTATUS (R371); likewise, a value drawn at each reading. -/
def execGetstatus (s : State) : Out :=
  act s s.mgmtUp (State.i3cSend { s with free := s.free + 1 } (toBE 2 (Config.i3cStatus s.free).toNat))
/-- GETMRL (R371). -/
def execGetmrl (s : State) : Out := act s s.mgmtUp (s.i3cSend (toBE 2 64))

/-! ### Private transfers (R371, R374) -/

/-- Whole 32-bit registers are written from an offset of the MGT block. -/
def State.mgtWrite (s : State) (off : Nat) (bs : List Byte) : State :=
  (List.range (bs.length / 4)).foldl (fun t i =>
    let o := off + 4 * i
    if o % 4 = 0 ∧ o < 0x10000 then t.regWrite .mgmt (0x140000 + o) false (fieldAt bs (4 * i) 4) else t) s

/-- PRIVATE_WRITE (R371): the offset, and whole registers from it. -/
def execPrivateWrite (off : Byte) (bytes : List Byte) (s : State) : Out :=
  let t := s.modMgt (fun m => { m with off := off.toNat })
  act s s.mgmtUp (if s.live then t.mgtWrite off.toNat bytes else t)

/-- One 32-bit word of the MGT block is read; 0 beyond the block (R11, R371). -/
def State.mgtWord (s : State) (o : Nat) : Nat × State :=
  if o < 0x10000 then s.regRead .mgmt (0x140000 + o) false else (0, s.setAgent .mgmt none none)

/-- n words of the MGT block from an offset, one 32-bit read after the other. -/
def State.mgtWords : Nat → Nat → State → List Byte × State
  | 0, _, s => ([], s)
  | n + 1, o, s =>
    let (v, t) := s.mgtWord o
    let (bs, u) := State.mgtWords n (o + 4) t
    (toLE 4 v ++ bs, u)

/-- PRIVATE_READ (R371): up to 64 bytes from the offset, which advances; each 32-bit word that they lie in is one read of the agent
(R11; log entry 139). -/
def execPrivateRead (count : Nat) (s : State) : Out :=
  let n := min count 64
  let o := s.mgt.off
  let (bs, t) := State.mgtWords (ceilDiv (o % 4 + n) 4) (o / 4 * 4) s
  act s s.mgmtUp (if n = 0 then s.i3cSend [] else (t.i3cSend (slice bs (o % 4) n)).modMgt (fun m => { m with off := o + n }))

/-! ### Power cycles and requests (R373) -/

/-- OFF_NOTICE (R373 step 2). -/
def execOffNotice (s : State) : Out := act s s.live s.offNotice

/-- TRAY_REQ (R373, R374). -/
def execTrayReq (code : BitVec 2) (s : State) : Out := act s s.live (s.trayReq code.toNat)

end Sys2Proof.Machine
end

