-- ==== Sys2Proof/Machine/Power.lean ====
section
/-! DEFINITION. Machine/Power.lean: power sequencing and supply (R18 to R27), the power controller (R28 to R31), temperature (R33, R34),
and accesses to the identity EEPROM (R35). -/

namespace Sys2Proof.Machine

/-! ### Power sequencing (R19 to R27) -/

/-- Every rail but those of the given phase is gone: no state is kept but what flash, fuses and the EEPROM hold (R24, R27, R34). What
has left the module on a link or bus stays as sent. -/
def State.unpowered (s : State) (phase : PowerPhase) (needLow : Bool) : State :=
  { pending := s.pending
    free := s.free
    power := { phase := phase, pwrEn := s.power.pwrEn, modResetN := s.power.modResetN, prsntN := s.power.prsntN, vinMv := s.power.vinMv,
               needLow := needLow, sawLow := !s.power.pwrEn }
    eeprom := s.eeprom
    ferruleTx := s.ferruleTx
    i3cTx := s.i3cTx
    chart := { tx := s.chart.tx }
    links := s.links.map (fun k => { wire := k.wire })
    bootIx := s.bootIx + 1
    onaut := { tx := s.onaut.tx, cuts := s.onaut.cuts }
    flashA := s.flashA
    flashB := s.flashB
    fuses := s.fuses }

/-- Change the power controller's state. -/
def State.modPower (s : State) (f : PowerSt → PowerSt) : State := { s with power := f s.power }

/-- The hot-swap switch is open and the minimum off time has run (R25). -/
def State.canStart (s : State) : Bool := decide (s.power.phase = .off false) && !s.power.needLow

/-- Steps of the power-up sequence that are complete. -/
def State.stepsUp (s : State) : Nat :=
  match s.power.phase with
  | .up k => k
  | .off _ => 0
  | .tripped => 0

/-- `steps` of the power-up sequence are complete; from internal power good on the internal reset holds for 1 ms more, and for as long as
MOD_RESET_N is low (R21, R22). -/
def State.riseTo (s : State) (steps : Nat) : State :=
  s.modPower (fun p => { p with phase := .up steps, hold := if steps = 7 then 800000 else 0 })

/-- The power-up sequence starts if PWR_EN is high, PRSNT_N low and VIN_48 at least 46.0 V (R19, R21); `steps` of it complete, 7 is internal
power good. -/
def State.startUp (s : State) (steps : Nat) : State :=
  if s.canStart && s.power.pwrEn && !s.power.prsntN && decide (46000 ≤ s.power.vinMv) then s.riseTo steps
  else s

/-- A rail sequence is under way and not complete. -/
def State.rising (s : State) : Bool :=
  match s.power.phase with
  | .up k => decide (k < 7)
  | .off _ => false
  | .tripped => false

/-- POWER_UP_SEQUENCE (R21, R22, R25): PWR_EN rises, and `steps` of the sequence complete; of one under way, further steps do. -/
def execPowerUpSequence (vinMv : Nat) (steps : Fin 8) (s : State) : Out :=
  let t := s.modPower (fun p => { p with pwrEn := true, vinMv := vinMv })
  done (if s.rising then t.riseTo (max s.stepsUp steps.val) else t.startUp steps.val)

/-- Rails are up beyond the hot-swap switch: in or after the sequence, or the auxiliary ones of a trip. -/
def State.switched (s : State) : Bool :=
  match s.power.phase with
  | .up _ => true
  | .tripped => true
  | .off _ => false

/-- RAIL_TOLERANCE_TIMEOUT (R21): off until PWR_EN has been low for the minimum off time and goes high again. -/
def execRailToleranceTimeout (s : State) : Out := act s s.rising (s.unpowered (.off true) true)

/-- POWER_DOWN_SEQUENCE (R24 to R26, R34): PWR_EN falls. -/
def execPowerDownSequence (s : State) : Out :=
  let t := s.modPower (fun p => { p with pwrEn := false })
  done (if t.switched then t.unpowered (.off true) false
    else if t.power.needLow && s.power.pwrEn then t.modPower (fun p => { p with phase := .off true, sawLow := true })
    else t)

/-- MINIMUM_OFF_TIME_EXPIRY (R19, R21, R25): after a removal, the time counts only while PWR_EN was low all along; then, with PWR_EN high,
the sequence starts. -/
def execMinimumOffTimeExpiry (vinMv : Nat) (steps : Fin 8) (s : State) : Out :=
  let t := s.modPower (fun p =>
    { p with phase := .off false, needLow := p.needLow && !(p.sawLow && !p.pwrEn), sawLow := !p.pwrEn, vinMv := vinMv })
  act s (decide (s.power.phase = .off true)) (t.startUp steps.val)

/-- VIN_48 is out of its limits for long enough (R19). -/
def supplyOut (vinMv us : Nat) : Bool :=
  (decide (vinMv < 44000) && decide (100 ≤ us)) || (decide (57000 < vinMv) && decide (10 ≤ us))

/-- SUPPLY_REMOVAL (R19): every rail goes. -/
def execSupplyRemoval (vinMv us : Nat) (s : State) : Out :=
  act s (s.switched && supplyOut vinMv us) ((s.modPower (fun p => { p with vinMv := vinMv })).unpowered (.off true) true)

/-! ### MOD_RESET_N (R22, R23, R34) -/

/-- MOD_RESET_N_LOW (R23): the pin is low for `ns`, and still is where that is 10 microseconds or more; a pulse of 1 to 10 microseconds resets
or not (log entry 22). -/
def execModResetNLow (ns : Nat) (s : State) : Out :=
  if ns < 1000 then .next s
  else if ns < 10000 then
    (if s.live then
      let t : State := { s with free := s.free + 1 }
      .next (if Config.shortPulseResets s.free then t.chipReset 2 true else t)
    else .next s)
  else if s.live then .next (s.chipReset 2 false)
  else .next (s.modPower (fun p => { p with modResetN := false, bootAt := if p.phase = .up 7 then 800000 else p.bootAt }))

/-- MOD_RESET_N_HIGH (R22, R23). -/
def execModResetNHigh (s : State) : Out := done (s.modPower (fun p => { p with modResetN := true }))

/-! ### The power controller (R29, R30) and temperature (R33, R34) -/

/-- The limit in force (R31). -/
def State.powerLimit (s : State) : Nat := clamp 600 1500 (s.inForce PWR.MODULE_LIMIT.WATTS)

/-- The first list that is not empty. -/
def firstFull {α : Type} : List (List α) → List α
  | [] => []
  | l :: r => if l.isEmpty then firstFull r else l

/-- The target set of R30, with what each partition's power exceeds: its cap, or, for a thermal reduction, anything. -/
def State.targets (s : State) (thermal : Bool) : List PartIx :=
  let live := allParts.filter (fun n => s.active n)
  let prot := fun (n : PartIx) => s.inForce (PWR.P_CAP_n.PROTECT n) == 1
  let hot := fun (n : PartIx) => thermal || decide (s.inForce (PWR.P_CAP_n.WATTS n) < s.get (PWR.P_STATE_n.WATTS n))
  let high := fun (n : PartIx) => decide (4 < s.get (PWR.P_STATE_n.GATE n))
  firstFull [live.filter (fun n => !prot n && hot n), live.filter (fun n => !prot n && high n),
    live.filter (fun n => prot n && hot n), live.filter (fun n => prot n && high n)]

/-- The gates fall by the larger of the reductions that fall to each partition (R29, R33). -/
def State.reduceGates (s : State) (step : Nat) (th : Bool) : State :=
  let pw := s.targets false
  let tm := s.targets true
  forParts (allParts.filter (fun n => s.active n)) (fun n t =>
    let r := max (if pw.contains n then step else 0) (if th && tm.contains n then 1 else 0)
    t.put (PWR.P_STATE_n.GATE n) (max 4 (t.get (PWR.P_STATE_n.GATE n) - r))) s

/-- Every active partition's gate rises by 1, to 16 (R29). -/
def State.raiseGates (s : State) : State :=
  forParts (allParts.filter (fun n => s.active n)) (fun n t =>
    let g := t.get (PWR.P_STATE_n.GATE n)
    if g < 16 then t.put (PWR.P_STATE_n.GATE n) (g + 1) else t) s

/-- The power test of R29: the reduction called for, and the state with its flags; times in samples of 10 microseconds. -/
def State.powerTest (s : State) (p : Nat) : Nat × State :=
  let limit := s.powerLimit
  let (step, t) : Nat × State :=
    if 1800 < p ∧ 1800 < s.power.prevP then (4, s.flag PWR.EVENTS.PEAK 1)
    else if limit < p then
      let o := s.power.overTime + 1
      let t := s.modPower (fun q => { q with overTime := o })
      if 800 ≤ o then (2, t.flag PWR.EVENTS.EXCURSION 1) else (0, t)
    else (0, s.modPower (fun q => { q with overTime := 0 }))
  if step = 0 ∧ limit * t.power.samples.length < t.power.samples.sum then (1, t.flag PWR.EVENTS.AVERAGE 1) else (step, t)

/-- Steps of R29 at a sample; `th`: the thermal condition holds. -/
def State.powerStep (s : State) (p : Nat) (th : Bool) : State :=
  let (step, t) := s.powerTest p
  if 0 < step ∨ th then
    let u := t.tally PWR.EVENTS.COUNT 1
    let v := if th then u.flag PWR.EVENTS.THERMAL 1 else u
    (v.reduceGates step th).modPower (fun q => { q with quietTime := 0, prevP := p })
  else if 20 * p ≤ 19 * t.powerLimit then
    let q := t.power.quietTime + 1
    if 10 ≤ q then t.raiseGates.modPower (fun w => { w with quietTime := 0, prevP := p })
    else t.modPower (fun w => { w with quietTime := q, prevP := p })
  else t.modPower (fun q => { q with quietTime := 0, prevP := p })

/-- A condition that is set at or above `hi` and cleared at or below `lo` (R33). -/
def hysteresis (was : Bool) (v hi lo : Nat) : Bool := if hi ≤ v then true else if v ≤ lo then false else was

/-- The sensors' values and the conditions of R33; an alert that begins sets its cause (R374). -/
def State.sense (s : State) (dieMax shell inlet outlet : Nat) : State :=
  let top := max dieMax shell
  let thr := clamp 80 100 (s.inForce PWR.THERM_CFG.THROTTLE_C)
  let alert := clamp 85 105 (s.inForce PWR.THERM_CFG.ALERT_C)
  let die := hysteresis s.power.dieAlert top alert (alert - 3)
  let inl := hysteresis s.power.inlet inlet 51 47
  let t := ((s.put PWR.THERM_CFG.DIE_MAX_C top).put PWR.THERM_CFG.INLET_C inlet).modPower (fun p =>
    { p with
      thermal := hysteresis p.thermal top thr (thr - 3)
      dieAlert := die
      inlet := inl
      outletC := outlet
      shellC := shell })
  if (die && !s.power.dieAlert) || (inl && !s.power.inlet) then t.ibiCause MGT.IBI_CAUSE.THERMAL else t

/-- The power samples: PWR.INPUT, PWR.P_STATE_n, and the last 10,000 (R28, R31). -/
def State.measure (s : State) (watts : Nat) (partWatts : Vector Nat 4) : State :=
  let l := (watts :: s.power.samples).take 10000
  let s1 := forParts allParts (fun n t => t.put (PWR.P_STATE_n.WATTS n) partWatts[n]) s
  ((s1.put PWR.INPUT.WATTS watts).put PWR.INPUT.MEAN_WATTS (l.sum / l.length)).modPower (fun p => { p with samples := l })

/-- A thermal trip is latched (R34). -/
def State.trip (s : State) : State := s.unpowered .tripped false

/-- THERM_ALERT_N is asserted: the die alert or the inlet condition holds, or a thermal trip is latched (R33, R34). -/
def State.thermAlert (s : State) : Bool := s.power.dieAlert || s.power.inlet || decide (s.power.phase = .tripped)

/-- POWER_SAMPLE (R28 to R34), every 8,000 aclk: powers in watts, temperatures in °C, `dieMax` the highest of the 16 die sensors. -/
def execPowerSample (watts : Nat) (partWatts : Vector Nat 4) (dieMax shell inlet outlet : BitVec 8) (s : State) : Out :=
  let u := s.modPower (fun p => { p with sampleAt := s.time + 8000 })
  let t := (u.measure watts partWatts).sense dieMax.toNat shell.toNat inlet.toNat outlet.toNat
  act s (s.live && decide (s.power.sampleAt ≤ s.time)) (if 110 ≤ max dieMax.toNat shell.toNat then s.trip else t.powerStep watts t.power.thermal)

/-- A trip can be latched: rails beyond the auxiliary ones are up or coming up. -/
def State.canTrip (s : State) : Bool :=
  match s.power.phase with
  | .up _ => true
  | .off _ => false
  | .tripped => false

/-- THERMAL_TRIP (R34): a sensor reads `celsius`. -/
def execThermalTrip (celsius : Nat) (s : State) : Out := act s (s.canTrip && decide (110 ≤ celsius)) s.trip

/-! ### The identity EEPROM (R35) -/

/-- The EEPROM is readable: from step 2 of R21 onward, and while a trip is latched (R34, R371). -/
def State.eepromUp (s : State) : Bool :=
  match s.power.phase with
  | .up k => decide (2 ≤ k)
  | .tripped => true
  | .off _ => false

/-- IDENTITY_EEPROM_ACCESS (R35): a byte is written, or read; a write to the factory area is ignored. -/
def execIdentityEepromAccess (at_ : BitVec 13) (wr : Option Byte) (s : State) : Out :=
  act s s.eepromUp
    (match wr with
     | some b => if at_.toNat < 0x200 then s else { s with eeprom := Sparse.insert s.eeprom at_.toNat b }
     | none => s.i3cSend [s.eepromRead at_.toNat])

end Sys2Proof.Machine
end

