-- ==== Sys2Proof/Machine/Dispatch.lean ====
section
/-! DEFINITION. Machine/Dispatch.lean: the meaning of each command. -/

namespace Sys2Proof.Machine

/-- The effect of a command on everything but the queue. -/
def exec (i : Instr) (s : State) : Host.Outcome State Fault Refusal :=
  match i with
  | .registerWrite ag off wide v => Sys2Proof.Machine.execRegisterWrite ag off wide v s
  | .rcFieldRead ag off wide => Sys2Proof.Machine.execRcFieldRead ag off wide s
  | .powerUpSequence vinMv steps => Sys2Proof.Machine.execPowerUpSequence vinMv steps s
  | .railToleranceTimeout => Sys2Proof.Machine.execRailToleranceTimeout s
  | .powerDownSequence => Sys2Proof.Machine.execPowerDownSequence s
  | .minimumOffTimeExpiry vinMv steps => Sys2Proof.Machine.execMinimumOffTimeExpiry vinMv steps s
  | .supplyRemoval vinMv us => Sys2Proof.Machine.execSupplyRemoval vinMv us s
  | .modResetNLow ns => Sys2Proof.Machine.execModResetNLow ns s
  | .modResetNHigh => Sys2Proof.Machine.execModResetNHigh s
  | .powerSample watts partWatts dieMax shell inlet outlet => Sys2Proof.Machine.execPowerSample watts partWatts dieMax shell inlet outlet s
  | .thermalTrip celsius => Sys2Proof.Machine.execThermalTrip celsius s
  | .identityEepromAccess at_ wr => Sys2Proof.Machine.execIdentityEepromAccess at_ wr s
  | .strokeBoundary n => Sys2Proof.Machine.execStrokeBoundary n s
  | .boundaryWindowEnd n => Sys2Proof.Machine.execBoundaryWindowEnd n s
  | .stkCtrlRun n v => Sys2Proof.Machine.execStkCtrlRun n v s
  | .stkStartWrite n v => Sys2Proof.Machine.execStkStartWrite n v s
  | .targetActive n => Sys2Proof.Machine.execTargetActive n s
  | .targetClockStop n => Sys2Proof.Machine.execTargetClockStop n s
  | .targetPowerOff n => Sys2Proof.Machine.execTargetPowerOff n s
  | .targetInvalid n v => Sys2Proof.Machine.execTargetInvalid n v s
  | .powerTransitionEnd n => Sys2Proof.Machine.execPowerTransitionEnd n s
  | .engineStart c e => Sys2Proof.Machine.execEngineStart c e s
  | .planeLoad c e kp => Sys2Proof.Machine.execPlaneLoad c e kp s
  | .passStart c e => Sys2Proof.Machine.execPassStart c e s
  | .arrayHold c e tier late => Sys2Proof.Machine.execArrayHold c e tier late s
  | .operationComplete c e => Sys2Proof.Machine.execOperationComplete c e s
  | .engineCompletion c e => Sys2Proof.Machine.execEngineCompletion c e s
  | .engineReady c e => Sys2Proof.Machine.execEngineReady c e s
  | .commandFetch c => Sys2Proof.Machine.execCommandFetch c s
  | .tailPoll c => Sys2Proof.Machine.execTailPoll c s
  | .nop c => Sys2Proof.Machine.execNop c s
  | .matmul c => Sys2Proof.Machine.execMatmul c s
  | .mxScales c => Sys2Proof.Machine.execMxScales c s
  | .rowop c => Sys2Proof.Machine.execRowop c s
  | .rowopComplete c => Sys2Proof.Machine.execRowopComplete c s
  | .mbBegin c => Sys2Proof.Machine.execMbBegin c s
  | .mbEnd c => Sys2Proof.Machine.execMbEnd c s
  | .stashPut c => Sys2Proof.Machine.execStashPut c s
  | .stashPutComplete c => Sys2Proof.Machine.execStashPutComplete c s
  | .stashFree c => Sys2Proof.Machine.execStashFree c s
  | .update c => Sys2Proof.Machine.execUpdate c s
  | .sumOfSquares c => Sys2Proof.Machine.execSumOfSquares c s
  | .updateStart c => Sys2Proof.Machine.execUpdateStart c s
  | .updateComplete c => Sys2Proof.Machine.execUpdateComplete c s
  | .deferredSlotChange n => Sys2Proof.Machine.execDeferredSlotChange n s
  | .scaleStep c => Sys2Proof.Machine.execScaleStep c s
  | .copy c => Sys2Proof.Machine.execCopy c s
  | .copyFill c => Sys2Proof.Machine.execCopyFill c s
  | .copyGather c => Sys2Proof.Machine.execCopyGather c s
  | .copyComplete c => Sys2Proof.Machine.execCopyComplete c s
  | .notify c => Sys2Proof.Machine.execNotify c s
  | .collective c => Sys2Proof.Machine.execCollective c s
  | .semWait c => Sys2Proof.Machine.execSemWait c s
  | .semWaitComplete c => Sys2Proof.Machine.execSemWaitComplete c s
  | .semAdd c => Sys2Proof.Machine.execSemAdd c s
  | .semAcquire c => Sys2Proof.Machine.execSemAcquire c s
  | .leaseGrant c => Sys2Proof.Machine.execLeaseGrant c s
  | .leaseExpiry sem => Sys2Proof.Machine.execLeaseExpiry sem s
  | .semRelease c => Sys2Proof.Machine.execSemRelease c s
  | .fence c => Sys2Proof.Machine.execFence c s
  | .jump c => Sys2Proof.Machine.execJump c s
  | .lift c => Sys2Proof.Machine.execLift c s
  | .penLift c => Sys2Proof.Machine.execPenLift c s
  | .wetPageFlip c => Sys2Proof.Machine.execWetPageFlip c s
  | .penLiftComplete c => Sys2Proof.Machine.execPenLiftComplete c s
  | .wetConflictEnd c => Sys2Proof.Machine.execWetConflictEnd c s
  | .inkHoldEnd c => Sys2Proof.Machine.execInkHoldEnd c s
  | .outboundQueueSend n entry => Sys2Proof.Machine.execOutboundQueueSend n entry s
  | .seqCtrlKill c => Sys2Proof.Machine.execSeqCtrlKill c s
  | .sequencerReady c => Sys2Proof.Machine.execSequencerReady c s
  | .enable k => Sys2Proof.Machine.execEnable k s
  | .disable k => Sys2Proof.Machine.execDisable k s
  | .preempt k => Sys2Proof.Machine.execPreempt k s
  | .preemptHold k => Sys2Proof.Machine.execPreemptHold k s
  | .resume k => Sys2Proof.Machine.execResume k s
  | .halt k => Sys2Proof.Machine.execHalt k s
  | .clearEvents k => Sys2Proof.Machine.execClearEvents k s
  | .hardRowStart n row => Sys2Proof.Machine.execHardRowStart n row s
  | .elasticRowStart c row => Sys2Proof.Machine.execElasticRowStart c row s
  | .contextLoad c => Sys2Proof.Machine.execContextLoad c s
  | .pickPoll c => Sys2Proof.Machine.execPickPoll c s
  | .preemptionPoint c row => Sys2Proof.Machine.execPreemptionPoint c row s
  | .hardRowEnd c row => Sys2Proof.Machine.execHardRowEnd c row s
  | .elasticRowEnd c row => Sys2Proof.Machine.execElasticRowEnd c row s
  | .tierDeadline c unit held => Sys2Proof.Machine.execTierDeadline c unit held s
  | .profileApply n index => Sys2Proof.Machine.execProfileApply n index s
  | .profileFieldWrite n => Sys2Proof.Machine.execProfileFieldWrite n s
  | .profileApplyEnd n => Sys2Proof.Machine.execProfileApplyEnd n s
  | .translationInvalidation page ctx n all => Sys2Proof.Machine.execTranslationInvalidation page ctx n all s
  | .invalidationDone => Sys2Proof.Machine.execInvalidationDone s
  | .patrolScrub r again => Sys2Proof.Machine.execPatrolScrub r again s
  | .channelErrorWindowEnd n => Sys2Proof.Machine.execChannelErrorWindowEnd n s
  | .deviceTemperatureReadout dev celsius => Sys2Proof.Machine.execDeviceTemperatureReadout dev celsius s
  | .frameGrant n tier tenant frame => Sys2Proof.Machine.execFrameGrant n tier tenant frame s
  | .frameRevoke n tier tenant => Sys2Proof.Machine.execFrameRevoke n tier tenant s
  | .frameReturn n tier tenant frame => Sys2Proof.Machine.execFrameReturn n tier tenant frame s
  | .frameTake n tier tenant => Sys2Proof.Machine.execFrameTake n tier tenant s
  | .migrationRequest n => Sys2Proof.Machine.execMigrationRequest n s
  | .migrationCopy n page => Sys2Proof.Machine.execMigrationCopy n page s
  | .migrationSwitch n page => Sys2Proof.Machine.execMigrationSwitch n page s
  | .migrationSourcePush n page => Sys2Proof.Machine.execMigrationSourcePush n page s
  | .openChart => Sys2Proof.Machine.execOpenChart s
  | .hintFlush => Sys2Proof.Machine.execHintFlush s
  | .create name base => Sys2Proof.Machine.execCreate name base s
  | .destroy name => Sys2Proof.Machine.execDestroy name s
  | .pin name => Sys2Proof.Machine.execPin name s
  | .unpin name => Sys2Proof.Machine.execUnpin name s
  | .restore name base epoch module => Sys2Proof.Machine.execRestore name base epoch module s
  | .resolveKeep name => Sys2Proof.Machine.execResolveKeep name s
  | .resolveGone name => Sys2Proof.Machine.execResolveGone name s
  | .pushSlot n tier base => Sys2Proof.Machine.execPushSlot n tier base s
  | .popSlot n tier => Sys2Proof.Machine.execPopSlot n tier s
  | .lookup name => Sys2Proof.Machine.execLookup name s
  | .markLost name => Sys2Proof.Machine.execMarkLost name s
  | .packetForward p => Sys2Proof.Machine.execPacketForward p s
  | .chartRequestSend index => Sys2Proof.Machine.execChartRequestSend index s
  | .chartRead p => Sys2Proof.Machine.execChartRead p s
  | .chartWrite p => Sys2Proof.Machine.execChartWrite p s
  | .add32 p => Sys2Proof.Machine.execAdd32 p s
  | .chartSemWait p => Sys2Proof.Machine.execChartSemWait p s
  | .chartSemAcquire p => Sys2Proof.Machine.execChartSemAcquire p s
  | .semCancel p => Sys2Proof.Machine.execSemCancel p s
  | .chartSemAdd p => Sys2Proof.Machine.execChartSemAdd p s
  | .chartSemRelease p => Sys2Proof.Machine.execChartSemRelease p s
  | .parcelData p => Sys2Proof.Machine.execParcelData p s
  | .collData p => Sys2Proof.Machine.execCollData p s
  | .chartReadData p => Sys2Proof.Machine.execChartReadData p s
  | .chartAck p => Sys2Proof.Machine.execChartAck p s
  | .semResult p => Sys2Proof.Machine.execSemResult p s
  | .chartNack p => Sys2Proof.Machine.execChartNack p s
  | .ticketReq p => Sys2Proof.Machine.execTicketReq p s
  | .ticketOffer p => Sys2Proof.Machine.execTicketOffer p s
  | .ticketAnswer p => Sys2Proof.Machine.execTicketAnswer p s
  | .commit p => Sys2Proof.Machine.execCommit p s
  | .prepared p => Sys2Proof.Machine.execPrepared p s
  | .chartRelease p => Sys2Proof.Machine.execChartRelease p s
  | .releaseAck p => Sys2Proof.Machine.execReleaseAck p s
  | .abort p => Sys2Proof.Machine.execAbort p s
  | .statusQuery p => Sys2Proof.Machine.execStatusQuery p s
  | .statusAnswer p => Sys2Proof.Machine.execStatusAnswer p s
  | .pointerUpdate p => Sys2Proof.Machine.execPointerUpdate p s
  | .freed p => Sys2Proof.Machine.execFreed p s
  | .ticketDone p => Sys2Proof.Machine.execTicketDone p s
  | .landed p => Sys2Proof.Machine.execLanded p s
  | .dirAck p => Sys2Proof.Machine.execDirAck p s
  | .collCtlAbort p => Sys2Proof.Machine.execCollCtlAbort p s
  | .collCtlDone p => Sys2Proof.Machine.execCollCtlDone p s
  | .collCtlFinal p => Sys2Proof.Machine.execCollCtlFinal p s
  | .ticketRingEntry => Sys2Proof.Machine.execTicketRingEntry s
  | .responseTimeout index => Sys2Proof.Machine.execResponseTimeout index s
  | .retryAfterExpiry index => Sys2Proof.Machine.execRetryAfterExpiry index s
  | .directoryTimeout index => Sys2Proof.Machine.execDirectoryTimeout index s
  | .receivingTimeout name => Sys2Proof.Machine.execReceivingTimeout name s
  | .semHoldExpiry index => Sys2Proof.Machine.execSemHoldExpiry index s
  | .duplicateWindowExpiry => Sys2Proof.Machine.execDuplicateWindowExpiry s
  | .forwardLifetimeExpiry name => Sys2Proof.Machine.execForwardLifetimeExpiry name s
  | .promotionHoldExpiry name => Sys2Proof.Machine.execPromotionHoldExpiry name s
  | .frameReceive l f => Sys2Proof.Machine.execFrameReceive l f s
  | .replayTimeout l => Sys2Proof.Machine.execReplayTimeout l s
  | .identityWord l w => Sys2Proof.Machine.execIdentityWord l w s
  | .trainingComplete d => Sys2Proof.Machine.execTrainingComplete d s
  | .trainingFailure l how => Sys2Proof.Machine.execTrainingFailure l how s
  | .backoffEnd l => Sys2Proof.Machine.execBackoffEnd l s
  | .warmWindowExpiry l => Sys2Proof.Machine.execWarmWindowExpiry l s
  | .lossOfSignal l lanes => Sys2Proof.Machine.execLossOfSignal l lanes s
  | .thresholdWindowEnd l => Sys2Proof.Machine.execThresholdWindowEnd l s
  | .spareReq l lane => Sys2Proof.Machine.execSpareReq l lane s
  | .spareDone l lane => Sys2Proof.Machine.execSpareDone l lane s
  | .halfReq l => Sys2Proof.Machine.execHalfReq l s
  | .spareSwitch l => Sys2Proof.Machine.execSpareSwitch l s
  | .shadowRotation l => Sys2Proof.Machine.execShadowRotation l s
  | .portDisable l => Sys2Proof.Machine.execPortDisable l s
  | .portEnable l => Sys2Proof.Machine.execPortEnable l s
  | .portRetrain l => Sys2Proof.Machine.execPortRetrain l s
  | .laneRetire l lane => Sys2Proof.Machine.execLaneRetire l lane s
  | .attach => Sys2Proof.Machine.execAttach s
  | .cacheFlush => Sys2Proof.Machine.execCacheFlush s
  | .flushComplete => Sys2Proof.Machine.execFlushComplete s
  | .doorbell k => Sys2Proof.Machine.execDoorbell k s
  | .mrd m => Sys2Proof.Machine.execMrd m s
  | .mwr m => Sys2Proof.Machine.execMwr m s
  | .gntS m => Sys2Proof.Machine.execGntS m s
  | .gntE m => Sys2Proof.Machine.execGntE m s
  | .rdData m => Sys2Proof.Machine.execRdData m s
  | .snpInv m => Sys2Proof.Machine.execSnpInv m s
  | .snpShared m => Sys2Proof.Machine.execSnpShared m s
  | .cmp m => Sys2Proof.Machine.execCmp m s
  | .ferruleNack m => Sys2Proof.Machine.execFerruleNack m s
  | .ferruleTimeout index => Sys2Proof.Machine.execFerruleTimeout index s
  | .companionLoss => Sys2Proof.Machine.execCompanionLoss s
  | .modelLoad m => Sys2Proof.Machine.execModelLoad m s
  | .modelReplace m => Sys2Proof.Machine.execModelReplace m s
  | .modelStop m => Sys2Proof.Machine.execModelStop m s
  | .modelResume m => Sys2Proof.Machine.execModelResume m s
  | .modelEvict m => Sys2Proof.Machine.execModelEvict m s
  | .modelRelease m => Sys2Proof.Machine.execModelRelease m s
  | .modelPlacement m => Sys2Proof.Machine.execModelPlacement m s
  | .shardArrival m shard => Sys2Proof.Machine.execShardArrival m shard s
  | .shardPoll m shard => Sys2Proof.Machine.execShardPoll m shard s
  | .shardTimeout m => Sys2Proof.Machine.execShardTimeout m s
  | .shardConversion m shard => Sys2Proof.Machine.execShardConversion m shard s
  | .loadCompletion m => Sys2Proof.Machine.execLoadCompletion m s
  | .drainDeadline m => Sys2Proof.Machine.execDrainDeadline m s
  | .streamStart m => Sys2Proof.Machine.execStreamStart m s
  | .streamShardCopy m => Sys2Proof.Machine.execStreamShardCopy m s
  | .sealSweep => Sys2Proof.Machine.execSealSweep s
  | .coalesceIntervalEnd domain code => Sys2Proof.Machine.execCoalesceIntervalEnd domain code s
  | .errAck domain => Sys2Proof.Machine.execErrAck domain s
  | .consumerWrite v => Sys2Proof.Machine.execConsumerWrite v s
  | .unitReset c unit => Sys2Proof.Machine.execUnitReset c unit s
  | .unitResetEnd => Sys2Proof.Machine.execUnitResetEnd s
  | .resetStepLate level step target => Sys2Proof.Machine.execResetStepLate level step target s
  | .partitionReset n retain trace => Sys2Proof.Machine.execPartitionReset n retain trace s
  | .partitionResetEnd n failedTraining => Sys2Proof.Machine.execPartitionResetEnd n failedTraining s
  | .chipReset trace => Sys2Proof.Machine.execChipReset trace s
  | .aclkLockLost => Sys2Proof.Machine.execAclkLockLost s
  | .traceSlotRelease k => Sys2Proof.Machine.execTraceSlotRelease k s
  | .healthWindowEnd n => Sys2Proof.Machine.execHealthWindowEnd n s
  | .probation n => Sys2Proof.Machine.execProbation n s
  | .resetState n => Sys2Proof.Machine.execResetState n s
  | .jobWrite v => Sys2Proof.Machine.execJobWrite v s
  | .stateLost => Sys2Proof.Machine.execStateLost s
  | .bootRomStart errA errB => Sys2Proof.Machine.execBootRomStart errA errB s
  | .vellumTest failing => Sys2Proof.Machine.execVellumTest failing s
  | .memoryPreparation failedTraining => Sys2Proof.Machine.execMemoryPreparation failedTraining s
  | .shellInit slotId => Sys2Proof.Machine.execShellInit slotId s
  | .start bad => Sys2Proof.Machine.execStart bad s
  | .attestationRequest => Sys2Proof.Machine.execAttestationRequest s
  | .reportReady burned => Sys2Proof.Machine.execReportReady burned s
  | .onautId seq => Sys2Proof.Machine.execOnautId seq s
  | .onautStatus seq => Sys2Proof.Machine.execOnautStatus seq s
  | .challenge seq q => Sys2Proof.Machine.execChallenge seq q s
  | .token seq j data => Sys2Proof.Machine.execToken seq j data s
  | .unlock seq => Sys2Proof.Machine.execUnlock seq s
  | .unlockVerified => Sys2Proof.Machine.execUnlockVerified s
  | .unlockBackoffEnd => Sys2Proof.Machine.execUnlockBackoffEnd s
  | .lock seq => Sys2Proof.Machine.execLock seq s
  | .poll seq => Sys2Proof.Machine.execPoll seq s
  | .onautRead seq size8 at_ => Sys2Proof.Machine.execOnautRead seq size8 at_ s
  | .onautWrite seq size8 at_ data => Sys2Proof.Machine.execOnautWrite seq size8 at_ data s
  | .onautHalt seq cores => Sys2Proof.Machine.execOnautHalt seq cores s
  | .coreHalted c => Sys2Proof.Machine.execCoreHalted c s
  | .onautResume seq cores => Sys2Proof.Machine.execOnautResume seq cores s
  | .step seq c => Sys2Proof.Machine.execStep seq c s
  | .bpSet seq c slot v => Sys2Proof.Machine.execBpSet seq c slot v s
  | .bpClear seq c slot => Sys2Proof.Machine.execBpClear seq c slot s
  | .entdaa addr => Sys2Proof.Machine.execEntdaa addr s
  | .setdasa addr => Sys2Proof.Machine.execSetdasa addr s
  | .rstdaa => Sys2Proof.Machine.execRstdaa s
  | .enec => Sys2Proof.Machine.execEnec s
  | .disec => Sys2Proof.Machine.execDisec s
  | .getpid => Sys2Proof.Machine.execGetpid s
  | .getbcr => Sys2Proof.Machine.execGetbcr s
  | .getdcr => Sys2Proof.Machine.execGetdcr s
  | .getstatus => Sys2Proof.Machine.execGetstatus s
  | .getmrl => Sys2Proof.Machine.execGetmrl s
  | .privateWrite off bytes => Sys2Proof.Machine.execPrivateWrite off bytes s
  | .privateRead count => Sys2Proof.Machine.execPrivateRead count s
  | .offNotice => Sys2Proof.Machine.execOffNotice s
  | .trayReq code => Sys2Proof.Machine.execTrayReq code s
  | .preparedTimeout name => Sys2Proof.Machine.execPreparedTimeout name s
  | .dryPageReturn n => Sys2Proof.Machine.execDryPageReturn n s
  | .modelFramePush m => Sys2Proof.Machine.execModelFramePush m s
  | .onautBadRequest edges cut body crc => Sys2Proof.Machine.execOnautBadRequest edges cut body crc s

end Sys2Proof.Machine
end

