-- ==== Sys2Proof/Machine/Tick.lean ====
section
/-! DEFINITION. Machine/Tick.lean: one aclk: STK.TIME (R40), open slots (R41, R42), halts (R366), idle causes (R187), the health
accumulators (R334), the loading of rows (R178), and the agents that look at their lists in every aclk (log entry 39), and the end of the
aclk (R267, R293, R318, R373). -/

namespace Sys2Proof.Machine

/-- A remote read or a semaphore round trip of a segment waits for a credit: a Chart request for a REQ credit or a tag (R242), a request to
the companion for room, a tracker or a tag (R286), a packet behind 512 unacknowledged frames (R267). -/
def creditHeld (s : State) (c : CoreIx) (p : Piece) : Bool :=
  if p.space = 2 then
    s.get FRL.STATUS.STATE == 2 && s.ferrule.reqs.any (fun r => !r.out && !r.lost && (match r.kind with
      | .rdNc d k => d == c.val && k == p.tag
      | .fill => (lineAt s r.addr).any (fun l => l.held.any (fun h => !h.write && h.core == c.val && h.tag == p.tag))
      | _ => false))
  else if !p.sent then s.get (CHT.CREDITS_n.REQ_FREE (partOf c)) == 0 || (s.coreTag c.val).isNone
  else allLinks.any (fun l => !isFrl l && s.get (linkState l) == 2 && decide (512 ≤ (s.link l).buf.length)
    && (s.link l).waiting.any (fun x => x.2.isNone && x.1.tag.toNat == p.tag))

/-- A remote read or a semaphore round trip of a segment whose answer has not come, and which waits for no credit (R171). -/
def onWay (s : State) (c : CoreIx) (p : Piece) : Bool := p.data.isNone && !(creditHeld s c p)

/-- A packet of the collective on a core waits at a port that is UP for the acknowledgement of 512 frames (R267). -/
def collAtPort (s : State) (c : CoreIx) : Bool :=
  match s.collOf c.val with
  | none => false
  | some r => allLinks.any (fun l => !isFrl l && s.get (linkState l) == 2 && decide (512 ≤ (s.link l).buf.length)
      && (s.link l).waiting.any (fun x => x.2.isNone && x.1.opcode == 0x15 && bits x.1.addr.toNat 31 0 == r.id))

/-- A collective waits for a WRITE credit (R242), or at a port (R267). -/
def collHeld (s : State) (c : CoreIx) : Bool :=
  collAtPort s c ||
  s.get (CHT.CREDITS_n.WRITE_FREE (partOf c)) == 0
  && s.chart.runs.any (fun r => r.core == c.val && (r.ready 0 || r.ready 1))

/-- The row engine, the update unit or the mover is past the time of its operation, which only a hold for data in T1 to T3 lets it be
(R120, R142; log entry 155). -/
def unitLate (s : State) (c : CoreIx) (g : Seg) : Bool :=
  let now := s.slot (partOf c)
  let k := s.core c
  let local_ := fun (w : Nat) => !(g.remote.any (fun p => p.work == w && p.data.isNone))
  !g.queueHold && (k.rowEng.any (fun o => decide (o.due ≤ now) && local_ o.work)
    || k.upd.any (fun u => u.started && decide (u.due ≤ now) && local_ u.work)
    || k.mover.any (fun m => m.started && decide (m.due ≤ now) && local_ m.work))

/-- The unit of a command can accept it (R147). -/
def unitTakes (s : State) (c : CoreIx) (b : List Byte) : Bool :=
  let k := s.core c
  let op := cmdOpcode b
  if op = 0x10 then (mmTaker s c b).isSome
  else if op = 0x12 then k.rowEng.isNone
  else if op = 0x13 then k.upd.isNone
  else if op = 0x15 ∨ op = 0x20 then moverFree s c
  else if op = 0x22 then k.coll.isNone
  else true

/-- The sequencer of a segment waits (R172): for its first issue, for TAIL, for a pool or the queue, or because what is fetched
cannot issue in this slot (R147). -/
def seqWaits (s : State) (c : CoreIx) (g : Seg) : Bool :=
  if decide (s.slot (partOf c) < g.issueSlot) then g.nextId == 0
  else g.waitTail || g.queueHold || (match g.fetched with
    | some (_, b) => (issueReady s c).isNone || !(unitTakes s c b)
    | none => false)

/-- The commands that the next command of a segment, or its LIFT, waits for (R147, R158). -/
def waitsFor (s : State) (c : CoreIx) (g : Seg) : List Work :=
  match g.lift with
  | some _ => g.work
  | none =>
    match g.fetched with
    | some (_, b) =>
      if s.slot (partOf c) < g.issueSlot then []
      else (heldWork g (s.slot (partOf c))).filter (fun w => cmdFence b || (w.token != 0 && bit (cmdWait b) w.token))
    | none => []

/-- A command that waits on a peer, and not on a credit: a semaphore command, a collective, or a read of companion memory (R187). -/
def onPeer (s : State) (c : CoreIx) (g : Seg) (w : Work) : Bool :=
  ((w.opcode == 0x30 || w.opcode == 0x32) && !(g.remote.any (fun p => p.work == w.id && p.data.isNone && creditHeld s c p)))
  || (w.opcode == 0x22 && !(collHeld s c))
  || g.remote.any (fun p => p.work == w.id && p.space == 2 && onWay s c p)

/-- The idle cause of a core in an open slot, for an engine that is not BUSY (R187, R366). -/
def idleCause (s : State) (c : CoreIx) : Nat :=
  let n := partOf c
  let co := s.core c
  if s.on (DBG.CORE_c.HALTED c) then 7
  else match co.seg with
    | none => if co.row.isSome && co.leftStash && co.ctx.isNone && !(s.part n).window then 4 else 7
    | some g =>
      if co.ctx.isSome then 7 else
      let fill := match g.lift with
        | some l => decide (s.slot n < l.tierTo)
        | none => false
      if g.poolHold || fill || unitLate s c g || g.remote.any (fun p => p.space == 1 && onWay s c p) then 1
      else if !g.heldBy.isEmpty || g.waitTail || (waitsFor s c g).any (onPeer s c g) then 2
      else if g.queueHold || collHeld s c || g.remote.any (fun p => p.data.isNone && creditHeld s c p) then 3
      else if !g.hard && decide (g.rowTo.getD (rowEnd s n g.row) ≤ s.time) then 5
      else 6

/-- One aclk of a core's idle counters (R43, R187). -/
def State.countIdle (s : State) (c : CoreIx) (isOpen : Bool) : State :=
  let cause := idleCause s c
  (List.range 8).foldl (fun t e =>
    if !isOpen then t.bump (IDL.COUNT_i_k.ACLK c e 0) 1
    else if t.on (ENG.STATE_i.BUSY c e) then t
    else t.bump (IDL.COUNT_i_k.ACLK c e cause) 1) s

/-- An open slot of the engines of a core, behind the drains of all (`State.drainAll`). -/
def State.engSlots (s : State) (c : CoreIx) : State :=
  if (s.core c).engs.toList.all (fun g => g.run.isNone) then s else upTo 8 (fun e t => t.engSlot c (toEng e)) s

/-- SEQ.STATE shows whether the sequencer issues or waits (R172). -/
def State.showWait (s : State) (c : CoreIx) : State :=
  match s.seg c with
  | none => s
  | some g =>
    let v := s.get (SEQ.STATE.STATE c)
    let w := if seqWaits s c g then 2 else 1
    if (v = 1 ∨ v = 2) ∧ v ≠ w then s.seqState c w else s

/-- The drains of every partition whose slot is open (R42, R202). -/
def State.drainAll (s : State) : State :=
  forCores allCores (fun c t => if t.runs (partOf c) && t.slotIsOpen (partOf c) then t.drainSlots c else t) s

/-- Some core of a partition is asked to halt (R366). -/
def State.anyHalt (s : State) (n : PartIx) : Bool := (coresOf n).any (fun c => s.on (DBG.CORE_c.HALT_REQ c))

/-- The boundary and the rows of a partition with a halted core move by one aclk (R366). -/
def State.shiftHalt (s : State) (n : PartIx) : State :=
  let t := forCores (coresOf n) (fun c u => u.modSeg c (fun g => { g with rowTo := g.rowTo.map (· + 1) }))
    (s.modPart n (fun p => { p with shift := p.shift + 1 }))
  if t.on (STK.CTRL_n.RUNNING n) then t.bump (STK.NEXT_n.ACLK n) 1 else t

/-- One aclk of a partition. -/
def State.tickPart (s : State) (n : PartIx) : State :=
  let isOpen := s.slotIsOpen n
  let run := s.runs n
  let counts := decide ((s.part n).idleFrom ≤ s.time)
  let s1 := s.loadStep n
  let s2 := if run then forCores (coresOf n) (fun c t => 
    let u := (((if isOpen then t.engSlots c else t).semLook c).semTryGrant c).showWait c
    if counts then u.countIdle c isOpen else u) s1 else s1
  let s3 := s2.modHealth n (fun h => { h with th := h.th + b2n (!isOpen), ac := h.ac + b2n run })
  let s4 := if run && isOpen then { s3 with slots := s3.slots.set n (s3.slot n + 1) } else s3
  if s4.anyHalt n then s4.shiftHalt n else s4

/-- The end of an aclk: its records go to the ring in order (R318), frames that are due leave (R267), identity words go out (R269), its events are past (R8, R9,
R177), the gates that it has changed act from the next one on (R29), and a free value says which transfers of memory meet an error in
the next one (R206, log entry 166). -/
def State.endAclk (s : State) : State :=
  let t := allLinks.foldl (fun u l => (u.frameDue l).identDue l) s.writeRecs
  { t with
    time := t.time + 1, noted := [], before := [], acts := [], fallen := [], lkNow := []
    free := t.free + 1, lineErrs := Config.lineErrs t.free
    power := { t.power with gates := allParts.map (fun (n : PartIx) => t.get (PWR.P_STATE_n.GATE n)) } }

/-- What goes on beside the units: a power-off notice that waited for a flush of the device cache (R373), the tracing being taken (R329), the
partition resets (R326), and a chip reset (R332). -/
def State.resetsOn (s : State) : State :=
  let t := if s.flushOver s.mgt.notice then s.quiesce else s
  (forParts allParts (fun n u => u.resetStep n) t.traceStep).chipStepOn

/-- One aclk of the module. While its logic does not run nothing counts (R23, R27) but the internal reset of R22. -/
def State.tick (s : State) : State :=
  if s.live then
    let t := ((forParts allParts (fun n u => u.tickPart n) s.landFlips.drainAll).wakeWaiters).checkDrains
    t.endAclk.resetsOn
  else if s.power.phase = .up 7 then s.modPower (fun p => { p with hold := p.hold - 1 })
  else s

end Sys2Proof.Machine
end

