-- ==== Sys2Proof/WellFormed.lean ====
section
/-! DEFINITION. WellFormed.lean: what the environment can present to the module. Every command has a meaning on every operand; a term
that is not well-formed stands for nothing that comes about at the part's pins. -/

namespace Sys2Proof

/-- A packet's payload is LEN64 units of 64 bytes, at most 8 (R229). -/
def Packet.wf (p : Packet) : Bool := decide (p.len64.toNat ≤ 8) && p.payload.length == 64 * p.len64.toNat

/-- A message carries no payload, or the lines that it names (R277). -/
def FMsg.wf (m : FMsg) : Bool := m.lines.isEmpty || m.lines.length == 64 * (m.linesM1.toNat + 1)

/-- A frame is two codewords, with one with MARKER among them at most, and a codeword is ten-bit symbols on nine lanes (R264, R265). -/
def RxFrame.wf (f : RxFrame) : Bool :=
  (f.words.length == 2 || f.words.length == 3)
  && f.words.all (fun w => w.length == 9 && w.all (fun k => k.all (fun x => decide (x < 1024))))

/-- Whether a command is one that can be presented. -/
def Instr.wellFormed (i : Instr) : Bool :=
  match i with
  | .registerWrite _ off wide v => off.toNat % (if wide then 8 else 4) == 0 && (wide || decide (v.toNat < 2 ^ 32))
  | .rcFieldRead _ off wide => off.toNat % (if wide then 8 else 4) == 0
  | .powerUpSequence vinMv _ => decide (vinMv < 65536)
  | .minimumOffTimeExpiry vinMv _ => decide (vinMv < 65536)
  | .supplyRemoval vinMv _ => decide (vinMv < 65536)
  | .powerSample watts partWatts _ _ _ _ => decide (watts < 65536) && partWatts.toList.all (fun w => decide (w < 65536))
  | .frameGrant _ tier _ _ => decide (tier ≠ 3)
  | .frameRevoke _ tier _ => decide (tier ≠ 3)
  | .frameReturn _ tier _ _ => decide (tier ≠ 3)
  | .frameTake _ tier _ => decide (tier ≠ 3)
  | .pushSlot _ tier _ => decide (tier ≠ 3)
  | .popSlot _ tier => decide (tier ≠ 3)
  | .packetForward p => p.wf
  | .chartRead p => p.wf
  | .chartWrite p => p.wf
  | .add32 p => p.wf
  | .chartSemWait p => p.wf
  | .chartSemAcquire p => p.wf
  | .semCancel p => p.wf
  | .chartSemAdd p => p.wf
  | .chartSemRelease p => p.wf
  | .parcelData p => p.wf
  | .collData p => p.wf
  | .chartReadData p => p.wf
  | .chartAck p => p.wf
  | .semResult p => p.wf
  | .chartNack p => p.wf
  | .ticketReq p => p.wf
  | .ticketOffer p => p.wf
  | .ticketAnswer p => p.wf
  | .commit p => p.wf
  | .prepared p => p.wf
  | .chartRelease p => p.wf
  | .releaseAck p => p.wf
  | .abort p => p.wf
  | .statusQuery p => p.wf
  | .statusAnswer p => p.wf
  | .pointerUpdate p => p.wf
  | .freed p => p.wf
  | .ticketDone p => p.wf
  | .landed p => p.wf
  | .dirAck p => p.wf
  | .collCtlAbort p => p.wf
  | .collCtlDone p => p.wf
  | .collCtlFinal p => p.wf
  | .frameReceive _ f => f.wf
  | .spareReq _ lane => decide (lane.toNat ≤ 8)
  | .spareDone _ lane => decide (lane.toNat ≤ 8)
  | .mrd m => m.wf
  | .mwr m => m.wf
  | .gntS m => m.wf
  | .gntE m => m.wf
  | .rdData m => m.wf
  | .snpInv m => m.wf
  | .snpShared m => m.wf
  | .cmp m => m.wf
  | .ferruleNack m => m.wf
  | .resetStepLate level _ _ => decide (1 ≤ level.toNat) && decide (level.toNat ≤ 4)
  | .vellumTest failing => decide failing.Nodup
  | .token _ j _ => decide (j.toNat ≤ 24)
  | .privateRead count => decide (count ≤ 64)
  | .onautBadRequest edges _ body crc => edges == 192 || (body == 0 && crc == 0)
  | .railToleranceTimeout | .powerDownSequence | .modResetNLow _ | .modResetNHigh | .thermalTrip _ |
    .identityEepromAccess _ _ | .strokeBoundary _ | .boundaryWindowEnd _ | .stkCtrlRun _ _ | .stkStartWrite _ _ |
    .targetActive _ | .targetClockStop _ | .targetPowerOff _ | .targetInvalid _ _ | .powerTransitionEnd _ | .engineStart _ _ |
    .planeLoad _ _ _ | .passStart _ _ | .arrayHold _ _ _ _ | .operationComplete _ _ | .engineCompletion _ _ | .engineReady _ _ |
    .commandFetch _ | .tailPoll _ | .nop _ | .matmul _ | .mxScales _ | .rowop _ | .rowopComplete _ | .mbBegin _ | .mbEnd _ |
    .stashPut _ | .stashPutComplete _ | .stashFree _ | .update _ | .sumOfSquares _ | .updateStart _ | .updateComplete _ |
    .deferredSlotChange _ | .scaleStep _ | .copy _ | .copyFill _ | .copyGather _ | .copyComplete _ | .notify _ |
    .collective _ | .semWait _ | .semWaitComplete _ | .semAdd _ | .semAcquire _ | .leaseGrant _ | .leaseExpiry _ |
    .semRelease _ | .fence _ | .jump _ | .lift _ | .penLift _ | .wetPageFlip _ | .penLiftComplete _ | .wetConflictEnd _ |
    .inkHoldEnd _ | .outboundQueueSend _ _ | .seqCtrlKill _ | .sequencerReady _ | .enable _ | .disable _ | .preempt _ |
    .preemptHold _ | .resume _ | .halt _ | .clearEvents _ | .hardRowStart _ _ | .elasticRowStart _ _ | .contextLoad _ |
    .pickPoll _ | .preemptionPoint _ _ | .hardRowEnd _ _ | .elasticRowEnd _ _ | .tierDeadline _ _ _ | .profileApply _ _ |
    .profileFieldWrite _ | .profileApplyEnd _ | .translationInvalidation _ _ _ _ | .invalidationDone | .patrolScrub _ _ |
    .channelErrorWindowEnd _ | .deviceTemperatureReadout _ _ | .migrationRequest _ | .migrationCopy _ _ |
    .migrationSwitch _ _ | .migrationSourcePush _ _ | .openChart | .hintFlush | .create _ _ | .destroy _ | .pin _ | .unpin _ |
    .restore _ _ _ _ | .resolveKeep _ | .resolveGone _ | .lookup _ | .markLost _ | .chartRequestSend _ | .ticketRingEntry |
    .responseTimeout _ | .retryAfterExpiry _ | .directoryTimeout _ | .receivingTimeout _ | .semHoldExpiry _ |
    .duplicateWindowExpiry | .forwardLifetimeExpiry _ | .promotionHoldExpiry _ | .replayTimeout _ | .identityWord _ _ |
    .trainingComplete _ | .trainingFailure _ _ | .backoffEnd _ | .warmWindowExpiry _ | .lossOfSignal _ _ |
    .thresholdWindowEnd _ | .halfReq _ | .spareSwitch _ | .shadowRotation _ | .portDisable _ | .portEnable _ | .portRetrain _ |
    .laneRetire _ _ | .attach | .cacheFlush | .flushComplete | .doorbell _ | .ferruleTimeout _ | .companionLoss |
    .modelLoad _ | .modelReplace _ | .modelStop _ | .modelResume _ | .modelEvict _ | .modelRelease _ | .modelPlacement _ |
    .shardArrival _ _ | .shardPoll _ _ | .shardTimeout _ | .shardConversion _ _ | .loadCompletion _ | .drainDeadline _ |
    .streamStart _ | .streamShardCopy _ | .sealSweep | .coalesceIntervalEnd _ _ | .errAck _ | .consumerWrite _ |
    .unitReset _ _ | .unitResetEnd | .partitionReset _ _ _ | .partitionResetEnd _ _ | .chipReset _ | .aclkLockLost |
    .traceSlotRelease _ | .healthWindowEnd _ | .probation _ | .resetState _ | .jobWrite _ | .stateLost | .bootRomStart _ _ |
    .memoryPreparation _ | .shellInit _ | .start _ | .attestationRequest | .reportReady _ | .onautId _ | .onautStatus _ |
    .challenge _ _ | .unlock _ | .unlockVerified | .unlockBackoffEnd | .lock _ | .poll _ | .onautRead _ _ _ |
    .onautWrite _ _ _ _ | .onautHalt _ _ | .coreHalted _ | .onautResume _ _ | .step _ _ | .bpSet _ _ _ _ | .bpClear _ _ _ |
    .entdaa _ | .setdasa _ | .rstdaa | .enec | .disec | .getpid | .getbcr | .getdcr | .getstatus | .getmrl |
    .privateWrite _ _ | .offNotice | .trayReq _ | .preparedTimeout _ | .dryPageReturn _ | .modelFramePush _ => true

end Sys2Proof
end

