-- ==== Sys2Proof/Safety.lean ====
section
/-! DEFINITION. Safety.lean: what a good state of the module is, and the orders that every step keeps. -/

namespace Sys2Proof.Machine

/-- Local memory and its check bits are in canonical form: addresses strictly rising, nothing listed that an unlisted address
would read as. -/
def State.memWf (s : State) : Bool := Sparse.wf s.mem 0 && Sparse.wf s.synd 0

/-- Every fuse bit that is burned in s is burned in t: a fuse is burned once, from 0 to 1 (R344). -/
def fusesKept (s t : State) : Prop := ∀ i, s.fuses.testBit i = true → t.fuses.testBit i = true

/-- The module runs without stopping: a step answers a next state. -/
def State.goesOn (s : State) : Prop := ∃ t, step s = .next t

/-- A command answers a next state, of which P holds. -/
def Completes (c : Instr) (s : State) (P : State → Prop) : Prop := ∃ t, exec c s = .next t ∧ P t

/-- Every byte of local memory reads in t as it read in s, and is poisoned as it was. -/
def sameMemory (s t : State) : Prop := ∀ a, t.rd8 a = s.rd8 a ∧ t.poisoned a = s.poisoned a

/-- Every register field whose key is not in l reads in t as it read in s. -/
def sameFieldsBut (l : List Field) (s t : State) : Prop := ∀ f : Field, f.key ∉ l.map Field.key → t.get f = s.get f

/-- Every page of the ranges is translated and its entry cached: the accesses of a command to them change nothing (R198). -/
def translated (s : State) (c : CoreIx) (ctx : Nat) (rs : List (Nat × Nat × Bool)) : Prop := touchAll c ctx rs s = (s, none)

/-- No word of k bytes from a local offset is in error or poisoned (R205), and no access to them meets an error in this aclk. -/
def noErrors (s : State) (a k : Nat) : Prop :=
  (∀ p ∈ s.synd, ¬(a < 4 * p.1 + 4 ∧ 4 * p.1 < a + k)) ∧ s.errsIn a k = []

/-- The ranges lie in local memory and none of their words is in error or poisoned. -/
def localSound (s : State) (c : CoreIx) (ctx : Nat) (rs : List (Nat × Nat)) : Prop :=
  ∀ r ∈ rs, chartRanges s c ctx (pageCount r.1 r.2) r.1 r.2 = [] ∧ objPoison s c ctx r.1 r.2 = false ∧ s.meetObj c ctx r.1 r.2 = s

/-- The resolved operands of a MATMUL break no rule (R61, R63, R103), and its pages are translated. -/
def matmulFits (s : State) (c : CoreIx) (g : Seg) (b mx : List Byte) (r : MmRes) : Prop :=
  1 ≤ r.nv ∧ r.nv ≤ mmN b ∧ 1 ≤ r.kv ∧ r.kv ≤ mmK b ∧ s.scaleOk (partOf c) r.bEntry = true
  ∧ r.bPitch ≠ 0 ∧ r.bPitch % 64 = 0 ∧ rowBytes (mmBFmt b) (mmN b) ≤ r.bPitch
  ∧ r.cPitch ≠ 0 ∧ rowBytes (mmCFmt b) (mmN b) ≤ r.cPitch
  ∧ mmDisjoint (mmSpans s (partOf c) g b mx r) = true ∧ translated s c g.ctx (mmRanges b mx r)

/-- A packet that reaches this module, is well formed, has the opcode op (R230) and can be taken now (R235, R239, R241). -/
def arrivesHere (s : State) (p : Packet) (op : Nat) : Prop :=
  s.live = true ∧ p.dst.toNat = s.selfModule ∧ malformed p = false ∧ p.opcode.toNat = op ∧ admits s p = true

/-- A writing request that the duplicate filter has not seen and has room for (R239). -/
def unseen (s : State) (p : Packet) : Prop :=
  s.chart.dups.find? (fun d => d.src == p.src.toNat && d.part == p.part.val && d.nonce == p.nonce.toNat) = none
  ∧ s.chart.dups.length < 16384

/-- A write of k bytes at a local offset that no segment makes changes the bytes it names and no others: no segment holds a wet
page of which it has written one of these lines (R163), no page held back for a latch has one of them, and no line meets an error. -/
def noWetInk (s : State) (a k : Nat) : Prop :=
  (∀ c, wroteWet s c a k = false) ∧ (∀ n, ∀ d ∈ (s.part n).deferred, ∀ w ∈ d.pages, ¬(a < w.dry + 65536 ∧ w.dry < a + k))
  ∧ s.errsIn a k = []

/-- A message of the opcode op that the companion sends while the Ferrule port is UP, in order by R278. -/
def companionSends (s : State) (m : FMsg) (op : Nat) : Prop :=
  s.live = true ∧ s.get FRL.STATUS.STATE = 2 ∧ protocolBad m = false ∧ m.opcode.toNat = op

end Sys2Proof.Machine
end

