-- ==== Sys2Proof/Certificates/Slice0/Obligations.lean ====
section
/-! DEFINITION. Certificates/Slice0/Obligations.lean: the statements for the provers. A statement that a command answers a next state
gives that state, or names it and says what it holds; its hypotheses are on the state and the operands alone. -/

set_option autoImplicit false

open Sys2Proof Sys2Proof.Machine


/-- The queue of the model: a step is `exec` of the front command. What a step on an empty queue does is the model's choice (log entry
39): `tick` is one aclk. -/
def Obligations.StepRunsTheFrontCommand : Prop :=
  ∀ (s : State) (c : Instr) (r : List Instr),
    (s.pending = c :: r → step s = exec c { s with pending := r })
    ∧ step (s.withCommand c) = exec c s
    ∧ (s.pending = [] → step s = .next s.tick)
    ∧ (s.live = false → s.power.phase ≠ .up 7 → s.tick = s)
    ∧ (s.live = false → s.power.phase = .up 7 → s.tick = { s with power := { s.power with hold := s.power.hold - 1 } })
    ∧ s.tick.pending = s.pending

/-- R22, R332: the state of reset. That memory reads 0 (log entry 2), no fuse is burned (10), and time is 0 (5) are the model's choices. -/
def Obligations.ResetValues : Prop :=
  (∀ f : Field, State.reset.get f = f.reset ∧ State.reset.inForce f = f.reset)
  ∧ (∀ n : PartIx, (State.reset.part n).inReset = true ∧ State.reset.get (STK.CTRL_n.RUN n) = 0 ∧ State.reset.get (STK.CTRL_n.RUNNING n) = 0
      ∧ State.reset.get (STK.NEXT_n.ACLK n) = 0xFFFFFFFFFFFFFFFF)
  ∧ (∀ c : CoreIx, State.reset.seg c = none)
  ∧ State.reset.get BOOT.STATUS.STAGE = 0 ∧ State.reset.get BOOT.STATUS.READY = 0 ∧ State.reset.on BOOT.STATUS.STARTED = false
  ∧ State.reset.chartOpen = false ∧ (∀ l : LinkIx, State.reset.get (linkState l) = 0)
  ∧ State.reset.pending = [] ∧ State.reset.live = true ∧ State.reset.fuses = 0 ∧ State.reset.time = 0
  ∧ ∀ a : Nat, State.reset.rd8 a = 0 ∧ State.reset.poisoned a = false

/-- The invariant of StepsKeepMemoryCanonical holds at reset; that memory lists nothing is the model's choice (log entry 2). -/
def Obligations.ResetMemoryCanonical : Prop :=
  State.reset.memWf = true ∧ State.reset.mem = [] ∧ State.reset.synd = []

/-- The form of the memory of every state that a step reaches from a state in that form, over all commands and the tick. -/
def Obligations.StepsKeepMemoryCanonical : Prop :=
  ∀ s t : State, s.memWf = true → step s = .next t → t.memWf = true

/-- R344 (a fuse is burned once and never returns to 0) and R35 (the factory area is read only), over all commands and the tick; that
every command answers a next state is the model's (log entry 13). -/
def Obligations.StepsAnswerAndKeepFuses : Prop :=
  ∀ s : State, s.goesOn ∧ ∀ t : State, step s = .next t →
    t.pending = s.pending.tail
    ∧ (∀ i : Nat, s.fuses.testBit i = true → t.fuses.testBit i = true)
    ∧ (∀ a : Nat, a < 0x200 → Sparse.find? t.eeprom a = Sparse.find? s.eeprom a)

/-- R93: `encodeFmt` is the code that a value is written as in a format, `decodeFmt` the value of a code. -/
def Obligations.NaNsAndSigns : Prop :=
  encodeFmt fmtB32 .nan = 0x7FC00000 ∧ encodeFmt fmtB16 .nan = 0x7E00 ∧ encodeFmt fmtBF16 .nan = 0x7FC0
  ∧ encodeFmt fmtE4M3 .nan = 0x7F ∧ encodeFmt fmtE5M2 .nan = 0x7F
  ∧ ∀ f ∈ [fmtB32, fmtB16, fmtBF16, fmtE4M3, fmtE5M2],
    (∀ w : Nat, decodeFmt f w = .nan → encodeFmt f (decodeFmt f w) = f.nanOut)
    ∧ ∀ v : Machine.Num, v ≠ .nan → decodeFmt f (encodeFmt f v) ≠ .nan ∧ (decodeFmt f (encodeFmt f v)).sign = v.sign

/-- R92, R95: rounding to a format leaves the values of the format as they are, subnormal ones too. -/
def Obligations.CodesRoundTrip : Prop :=
  ∀ f ∈ [fmtB32, fmtB16, fmtBF16, fmtE4M3, fmtE5M2, fmtE2M1], ∀ w : Nat, w < 2 ^ (f.signAt + 1) → decodeFmt f w ≠ .nan →
    encodeFmt f (decodeFmt f w) = w

/-- R371: the common command codes of the management bus, while the target answers. The order of the bytes of a number and the bytes
that GETDCR and GETSTATUS send, and bits 0, 3 and 4 of the one that GETBCR sends, are open: the model's choice (log entry 11). -/
def Obligations.ManagementCodes : Prop :=
  ∀ (s : State) (k : Nat), s.power.phase = .up k → 3 ≤ k →
    (∀ a, s.mgt.addr = none →
      (∃ bcr : Byte, bcr &&& 0xE6 = 6 ∧ exec .getbcr s = .next { s with i3cTx := s.i3cTx ++ [.data [bcr]] }
        ∧ exec (.entdaa a) s = .next { s with
            i3cTx := s.i3cTx ++ [.data ((toLE 6 s.dieId).reverse ++ [bcr, Config.i3cDcr])], mgt := { s.mgt with addr := some a } })
      ∧ exec (.setdasa a) s = .next { s with mgt := { s.mgt with addr := some a } })
    ∧ exec .rstdaa s = .next { s with mgt := { s.mgt with addr := none } }
    ∧ Completes .enec s (fun t => t.mgt.ibiOn = true ∧ t.mgt.addr = s.mgt.addr ∧ t.regs = s.regs ∧ t.mem = s.mem ∧ t.synd = s.synd
        ∧ (s.mgt.ibiSent = true → t.i3cTx = s.i3cTx))
    ∧ exec .disec s = .next { s with mgt := { s.mgt with ibiOn := false } }
    ∧ exec .getpid s = .next { s with i3cTx := s.i3cTx ++ [.data (toLE 6 s.dieId).reverse] }
    ∧ (∃ bcr : Byte, bcr &&& 0xE6 = 6 ∧ exec .getbcr s = .next { s with i3cTx := s.i3cTx ++ [.data [bcr]] })
    ∧ exec .getdcr s = .next { s with i3cTx := s.i3cTx ++ [.data [Config.i3cDcr]] }
    ∧ (∃ b0 b1 : Byte, exec .getstatus s = .next { s with free := s.free + 1, i3cTx := s.i3cTx ++ [.data [b1, b0]] })
    ∧ exec .getmrl s = .next { s with i3cTx := s.i3cTx ++ [.data [0, 64]] }

/-- R371: private transfers, while the target answers; `mgtWords` reads 32-bit registers of the MGT block one after the other, for the
management agent. That a read that covers part of a register reads all of it (log entry 139) and that a private write's offset is
where the next private read begins, unadvanced by the bytes written (log entry 127), are the model's choices. -/
def Obligations.PrivateTransfers : Prop :=
  ∀ (s : State) (k : Nat), s.power.phase = .up k → 3 ≤ k →
    (∀ off : Byte, exec (.privateWrite off []) s = .next { s with mgt := { s.mgt with off := off.toNat } })
    ∧ (∀ (off : Byte) (v : BitVec 32), s.live = true → off.toNat % 4 = 0 →
        exec (.privateWrite off (toLE 4 v.toNat)) s
          = .next (State.regWrite { s with mgt := { s.mgt with off := off.toNat } } .mgmt (0x140000 + off.toNat) false v.toNat))
    ∧ (s.mgt.off % 4 = 0 → s.mgt.off < 0x10000 → exec (.privateRead 4) s
        = .next (((s.regRead .mgmt (0x140000 + s.mgt.off) false).2.i3cSend
            (toLE 4 (s.regRead .mgmt (0x140000 + s.mgt.off) false).1)).modMgt (fun m => { m with off := s.mgt.off + 4 })))
    ∧ (s.mgt.off % 4 = 0 → 0x10000 ≤ s.mgt.off → exec (.privateRead 4) s
        = .next (((s.setAgent .mgmt none none).i3cSend [0, 0, 0, 0]).modMgt (fun m => { m with off := s.mgt.off + 4 })))
    ∧ (∀ n : Nat, 1 ≤ n → n ≤ 64 → exec (.privateRead n) s
        = .next (((State.mgtWords (ceilDiv (s.mgt.off % 4 + n) 4) (s.mgt.off / 4 * 4) s).2.i3cSend
            (slice (State.mgtWords (ceilDiv (s.mgt.off % 4 + n) 4) (s.mgt.off / 4 * 4) s).1 (s.mgt.off % 4) n)).modMgt
              (fun m => { m with off := s.mgt.off + n })))
    ∧ exec (.privateRead 0) s = .next { s with i3cTx := s.i3cTx ++ [.data []] }

/-- R372. `ibiTry` is what follows every change of a cause or an enable, `ibiAfter` what follows a write of the two registers; ibiSent says
that an interrupt has gone out since every set cause was cleared. -/
def Obligations.InBandInterrupt : Prop :=
  ∀ (s : State),
    (s.mgt.ibiOn = true → s.mgt.ibiSent = false →
      ((s.on MGT.IBI_CAUSE.HEALTH = true ∧ s.on MGT.IBI_CFG.HEALTH = true)
        ∨ (s.on MGT.IBI_CAUSE.ERROR = true ∧ s.on MGT.IBI_CFG.ERROR = true)
        ∨ (s.on MGT.IBI_CAUSE.TRAY = true ∧ s.on MGT.IBI_CFG.TRAY = true)
        ∨ (s.on MGT.IBI_CAUSE.THERMAL = true ∧ s.on MGT.IBI_CFG.THERMAL = true)) →
      s.ibiTry = { s with
        mgt := { s.mgt with ibiSent := true }
        i3cTx := s.i3cTx ++ [.ibi (BitVec.ofNat 8 (s.get MGT.IBI_CAUSE.HEALTH + 2 * s.get MGT.IBI_CAUSE.ERROR
          + 4 * s.get MGT.IBI_CAUSE.TRAY + 8 * s.get MGT.IBI_CAUSE.THERMAL))] })
    ∧ (s.mgt.ibiOn = false ∨ s.mgt.ibiSent = true
        ∨ ((s.on MGT.IBI_CAUSE.HEALTH = false ∨ s.on MGT.IBI_CFG.HEALTH = false)
          ∧ (s.on MGT.IBI_CAUSE.ERROR = false ∨ s.on MGT.IBI_CFG.ERROR = false)
          ∧ (s.on MGT.IBI_CAUSE.TRAY = false ∨ s.on MGT.IBI_CFG.TRAY = false)
          ∧ (s.on MGT.IBI_CAUSE.THERMAL = false ∨ s.on MGT.IBI_CFG.THERMAL = false)) → s.ibiTry = s)
    ∧ (s.mgt.ibiSent = true → s.on MGT.IBI_CAUSE.HEALTH = false → s.on MGT.IBI_CAUSE.ERROR = false →
        s.on MGT.IBI_CAUSE.TRAY = false → s.on MGT.IBI_CAUSE.THERMAL = false →
        s.ibiAfter = { s with mgt := { s.mgt with ibiSent := false } })
    ∧ (s.on MGT.IBI_CAUSE.HEALTH = true ∨ s.on MGT.IBI_CAUSE.ERROR = true ∨ s.on MGT.IBI_CAUSE.TRAY = true
        ∨ s.on MGT.IBI_CAUSE.THERMAL = true → s.mgt.ibiSent = true → s.ibiAfter = s)

/-- R373, R374: OFF_NOTICE and TRAY_REQ; `flush` is the flush of R293. That links stop by going to state 0 is the model's choice (log
entry 46). -/
def Obligations.OffNoticeAndTrayRequest : Prop :=
  ∀ (s : State), s.live = true →
    (s.attached = true → exec .offNotice s = .next { s.flush with mgt := { s.mgt with notice := some (s.time + 8000000) } })
    ∧ (s.attached = false → Completes .offNotice s (fun t => t.on MGT.NOTICE.QUIESCED = true ∧ t.mgt.notice = none
        ∧ t.mem = s.mem ∧ t.synd = s.synd ∧ ∀ l : LinkIx, (t.link l).released = false ∧ (t.link l).backoff = none))
    ∧ (∀ code : BitVec 2, Completes (.trayReq code) s (fun t =>
        t.get MGT.TRAY_REQ.CODE = (if code.toNat = 3 then 0 else code.toNat)
        ∧ (s.get MGT.TRAY_REQ.CODE = 0 → code.toNat = 1 ∨ code.toNat = 2 → t.on MGT.IBI_CAUSE.TRAY = true)
        ∧ sameFieldsBut [MGT.TRAY_REQ.CODE, MGT.IBI_CAUSE.TRAY] s t ∧ t.mem = s.mem ∧ t.synd = s.synd))

/-- R363 to R365: the requests that a locked port serves, with a SEQ other than the kept one (`onautAnswer` keeps the response and sends it),
and the answers that leave everything but the port's own responses as it was. That LOCKED is answered before REFUSED is the model's
reading (log entry 46), and so are: that refused requests are kept too and POLL with another SEQ is REFUSED (log entry 124), that
CHALLENGE with q of 1 to 3 returns 0 where nothing was drawn (log entry 125), and that a frame that is no request of the table is taken
by ONAUT_BAD_REQUEST, as are the frames of other requests (log entry 157). -/
def Obligations.OnautRequests : Prop :=
  (∀ (s : State) (q : BitVec 16), s.live = true → (∀ r, s.onaut.kept = some r → r.seq ≠ q.toNat) →
    exec (.onautId q) s = .next (s.onautAnswer { status := 0, op := 0, seq := q.toNat, data := s.dieId })
    ∧ exec (.onautStatus q) s = .next (s.onautAnswer { status := 0, op := 1, seq := q.toNat, data := s.dbgStatus })
    ∧ exec (.lock q) s
        = .next (State.onautAnswer ((s.put DBG.STATUS.UNLOCKED 0).put DBG.STATUS.SCOPE 0) { status := 0, op := 5, seq := q.toNat, data := 0 })
    ∧ exec (.poll q) s = .next (s.onautAnswer { status := 5, op := 6, seq := q.toNat, data := 0 })
    ∧ (∀ (j : BitVec 5) (d : Word), j.toNat ≤ 24 → exec (.token q j d) s
        = .next (State.onautAnswer { s with onaut := { s.onaut with token := splice s.onaut.token (8 * j.toNat) (toLE 8 d.toNat) } }
            { status := 0, op := 3, seq := q.toNat, data := 0 }))
    ∧ (∀ i : BitVec 2, s.get BOOT.STATUS.STAGE ≠ 0 → i ≠ 0 → exec (.challenge q i) s
        = .next (s.onautAnswer { status := 0, op := 2, seq := q.toNat, data := fieldAt s.onaut.drawn (8 * i.toNat) 8 }))
    ∧ (s.get BOOT.STATUS.STAGE ≠ 0 → Completes (.challenge q 0) s (fun t => ∃ v : List Byte, v.length = 32
        ∧ t = State.onautAnswer { s with free := s.free + 1, onaut := { s.onaut with nonce := some v, drawn := v } }
            { status := 0, op := 2, seq := q.toNat, data := fieldAt v 0 8 }))
    ∧ (∀ v : List Byte, s.get BOOT.STATUS.STAGE ≠ 0 → s.on DBG.STATUS.BACKOFF = false → s.onaut.nonce = some v →
        exec (.unlock q) s = .next (State.onautAnswer
          { s with onaut := { s.onaut with nonce := none, verify := s.onaut.verify ++ [(q.toNat, v, s.onaut.token)] } }
          { status := 1, op := 4, seq := q.toNat, data := 0 })))
  ∧ (∀ (s : State) (q : BitVec 16), s.live = true →
    (∀ r, s.onaut.kept = some r → r.seq = q.toNat → ∀ (c : CoreIx) (i : Fin 4) (v d : Word) (m : BitVec 16) (j : BitVec 5) (z : Bool),
      ∀ x ∈ [Instr.onautId q, .onautStatus q, .challenge q 0, .token q j d, .unlock q, .lock q, .poll q, .onautRead q z v,
        .onautWrite q z v d, .onautHalt q m, .onautResume q m, .step q c, .bpSet q c i v, .bpClear q c i],
      exec x s = .next { s with onaut := { s.onaut with tx := s.onaut.tx ++ [r.frame] } })
    ∧ ((∀ r, s.onaut.kept = some r → r.seq ≠ q.toNat) → s.get BOOT.STATUS.STAGE ≠ 0 →
        (s.on DBG.STATUS.BACKOFF = true →
          exec (.unlock q) s = .next (s.onautAnswer { status := 9, op := 4, seq := q.toNat, data := 0 }))
        ∧ (s.on DBG.STATUS.BACKOFF = false → s.onaut.nonce = none →
          exec (.unlock q) s = .next (s.onautAnswer { status := 8, op := 4, seq := q.toNat, data := 0 })))
    ∧ ((∀ r, s.onaut.kept = some r → r.seq ≠ q.toNat) → s.on DBG.STATUS.UNLOCKED = false →
        ∀ (c : CoreIx) (i : Fin 4) (v d : Word) (m : BitVec 16) (z : Bool),
        ∀ x ∈ [(Instr.onautRead q z v, 0x10), (.onautWrite q z v d, 0x11), (.onautHalt q m, 0x20), (.onautResume q m, 0x21),
          (.step q c, 0x22), (.bpSet q c i v, 0x23), (.bpClear q c i, 0x24)],
        exec x.1 s = .next (s.onautAnswer { status := 2, op := x.2, seq := q.toNat, data := 0 }))
    ∧ ((∀ r, s.onaut.kept = some r → r.seq ≠ q.toNat) → s.on DBG.STATUS.UNLOCKED = true → s.get DBG.STATUS.SCOPE = 2 →
        s.on BOOT.STATUS.STARTED = false →
        ∀ (c : CoreIx) (i : Fin 4) (v : Word) (m : BitVec 16),
        ∀ x ∈ [(Instr.onautHalt q m, 0x20), (.onautResume q m, 0x21), (.step q c, 0x22), (.bpSet q c i v, 0x23), (.bpClear q c i, 0x24)],
        exec x.1 s = .next (s.onautAnswer { status := 5, op := x.2, seq := q.toNat, data := 0 }))
    ∧ (∀ (n : Nat) (body : BitVec 160) (crc : BitVec 32), n ≠ 192 → exec (.onautBadRequest n none body crc) s = .next s)
    ∧ (∀ (f : BitVec 192) (body : BitVec 160) (crc : BitVec 32), f = crc ++ body → crc32 (toLE 20 f.toNat) ≠ bits f.toNat 191 160 →
        exec (.onautBadRequest 192 none body crc) s
        = .next { s with onaut := { s.onaut with tx := s.onaut.tx ++ [OnautResp.frame { status := 3, op := 0, seq := 0, data := 0 }] } })
    ∧ (∀ (f : BitVec 192) (body : BitVec 160) (crc : BitVec 32), f = crc ++ body → crc32 (toLE 20 f.toNat) = bits f.toNat 191 160 → bits f.toNat 31 16 = q.toNat →
        ((∀ r, s.onaut.kept = some r → r.seq ≠ q.toNat) →
          bits f.toNat 7 0 ∉ [0, 1, 2, 3, 4, 5, 6, 0x10, 0x11, 0x20, 0x21, 0x22, 0x23, 0x24] → exec (.onautBadRequest 192 none body crc) s
            = .next (s.onautAnswer { status := 4, op := bits f.toNat 7 0, seq := q.toNat, data := 0 }))
        ∧ (bits f.toNat 15 8 = 0 → bits f.toNat 159 32 = 0 →
          (bits f.toNat 7 0 = 0 → exec (.onautBadRequest 192 none body crc) s = exec (.onautId q) s)
          ∧ (bits f.toNat 7 0 = 5 → exec (.onautBadRequest 192 none body crc) s = exec (.lock q) s)))
    ∧ (∀ (k : Fin 128) (body : BitVec 160) (crc : BitVec 32), s.onaut.tx ≠ [] → (∀ x ∈ s.onaut.cuts, x.1 ≠ s.onaut.tx.length - 1) →
        exec (.onautBadRequest 5 (some k) body crc) s
          = .next { s with onaut := { s.onaut with cuts := s.onaut.cuts ++ [(s.onaut.tx.length - 1, k.val)] } }))

/-- R366 to R368, in full scope after the start; `bpCheck` compares the enabled breakpoints with the command at the core's issue point.
HALT and RESUME act on every core of their mask, in rising order. That HALTED stays 1 in a STEP and RESUME clears STEPPING (log entry
122), and that a STEP compares the breakpoints too (log entry 123), are the model's choices. -/
def Obligations.HaltAndStep : Prop :=
  ∀ (s : State) (q : BitVec 16) (c : CoreIx), s.live = true → (∀ r, s.onaut.kept = some r → r.seq ≠ q.toNat) →
    s.on DBG.STATUS.UNLOCKED = true → s.get DBG.STATUS.SCOPE = 2 → s.on BOOT.STATUS.STARTED = true →
    (∀ m : BitVec 16, Completes (.onautHalt q m) s (fun t =>
      t.onaut.tx = s.onaut.tx ++ [OnautResp.frame { status := 0, op := 0x20, seq := q.toNat, data := 0 }]
      ∧ (∀ d : CoreIx, m.getLsbD d.val = true → t.on (DBG.CORE_c.HALT_REQ d) = true
        ∧ t.get (DBG.CORE_c.BP_HIT d) = (if s.on (DBG.CORE_c.HALT_REQ d) then s.get (DBG.CORE_c.BP_HIT d) else 0))
      ∧ (∀ d : CoreIx, m.getLsbD d.val = false → t.get (DBG.CORE_c.HALT_REQ d) = s.get (DBG.CORE_c.HALT_REQ d)
        ∧ t.get (DBG.CORE_c.BP_HIT d) = s.get (DBG.CORE_c.BP_HIT d))
      ∧ (∀ f : Field, (∀ d : CoreIx, f.key ≠ (DBG.CORE_c.HALT_REQ d).key ∧ f.key ≠ (DBG.CORE_c.BP_HIT d).key) → t.get f = s.get f)
      ∧ t.mem = s.mem ∧ t.synd = s.synd ∧ t.cores = s.cores))
    ∧ (∀ m : BitVec 16, exec (.onautResume q m) s
        = .next (State.onautAnswer ((allCores.filter (fun d => m.getLsbD d.val)).foldl (fun (t : State) (d : CoreIx) =>
              (((t.put (DBG.CORE_c.HALT_REQ d) 0).put (DBG.CORE_c.HALTED d) 0).put (DBG.CORE_c.STEPPING d) 0).bpCheck d) s)
            { status := 0, op := 0x21, seq := q.toNat, data := 0 }))
    ∧ (s.on (DBG.CORE_c.HALTED c) = true → s.on (DBG.CORE_c.STEPPING c) = false → exec (.step q c) s
        = .next (State.onautAnswer ((s.put (DBG.CORE_c.STEPPING c) 1).bpCheck c) { status := 0, op := 0x22, seq := q.toNat, data := 0 }))
    ∧ (s.on (DBG.CORE_c.HALTED c) = false ∨ s.on (DBG.CORE_c.STEPPING c) = true → exec (.step q c) s
        = .next (s.onautAnswer { status := 5, op := 0x22, seq := q.toNat, data := 0 }))
    ∧ (∀ (i : Fin 4) (v : Word), v.toNat < 2 ^ 57 → exec (.bpSet q c i v) s
        = .next (State.onautAnswer ((s.put (DBG.BP_c_i.MATCH c i) v.toNat).bpCheck c) { status := 0, op := 0x23, seq := q.toNat, data := 0 }))
    ∧ (∀ (i : Fin 4) (v : Word), 2 ^ 57 ≤ v.toNat → exec (.bpSet q c i v) s
        = .next (s.onautAnswer { status := 4, op := 0x23, seq := q.toNat, data := 0 }))
    ∧ (∀ i : Fin 4, exec (.bpClear q c i) s
        = .next (State.onautAnswer (s.put (DBG.BP_c_i.MATCH c i) 0) { status := 0, op := 0x24, seq := q.toNat, data := 0 }))
    ∧ (s.on (DBG.CORE_c.HALT_REQ c) = true → s.on (DBG.CORE_c.HALTED c) = false → nothingOut s c = true →
        exec (.coreHalted c) s = .next (s.put (DBG.CORE_c.HALTED c) 1))

/-- R364: READ and WRITE of local memory (an address that names no register), where an MRD or MWR would be answered OK (R284); R11: any
other access drops the agent's latch and hold. That an access to memory needs no alignment is the model's reading (log entry 126). -/
def Obligations.OnautMemory : Prop :=
  ∀ (s : State) (q : BitVec 16) (a d : Word) (z : Bool), s.live = true → (∀ r, s.onaut.kept = some r → r.seq ≠ q.toNat) →
    s.on DBG.STATUS.UNLOCKED = true → s.get DBG.STATUS.SCOPE = 2 → s.on BOOT.STATUS.STARTED = true →
    regOffset a.toNat = none → s.reach a.toNat (if z then 8 else 4) = 0 →
    (noWetInk s a.toNat (if z then 8 else 4) → Completes (.onautWrite q z a d) s (fun t =>
      t.onaut.tx = s.onaut.tx ++ [OnautResp.frame { status := 0, op := 0x11, seq := q.toNat, data := 0 }]
      ∧ t.rdBytes a.toNat (if z then 8 else 4) = toLE (if z then 8 else 4) d.toNat
      ∧ (∀ b : Nat, b < a.toNat ∨ a.toNat + (if z then 8 else 4) ≤ b → t.rd8 b = s.rd8 b) ∧ t.regs = s.regs))
    ∧ (noErrors s a.toNat (if z then 8 else 4) →
        Completes (.onautRead q z a) s (fun t =>
          t.onaut.tx = s.onaut.tx ++ [OnautResp.frame { status := 0, op := 0x10, seq := q.toNat, data := s.rdLE a.toNat (if z then 8 else 4) }]
          ∧ t.mem = s.mem ∧ t.synd = s.synd ∧ t.regs = s.regs))

/-- R365, steps 4 to 6, for the oldest token being verified; that several tokens are verified in the order they came in is the model's
reading (log entry 125). -/
def Obligations.UnlockEnds : Prop :=
  ∀ (s : State), s.live = true →
    (∀ seq nonce token rest, s.onaut.verify = (seq, nonce, token) :: rest →
      (s.tokenOk nonce token = true → Completes .unlockVerified s (fun t =>
        t.on DBG.STATUS.UNLOCKED = true ∧ t.get DBG.STATUS.SCOPE = fieldAt token 0 4 ∧ t.get DBG.STATUS.FAILS = 0
        ∧ t.onaut.verify = rest ∧ t.mem = s.mem ∧ t.synd = s.synd
        ∧ sameFieldsBut [DBG.STATUS.UNLOCKED, DBG.STATUS.SCOPE, DBG.STATUS.FAILS] s t))
      ∧ (s.tokenOk nonce token = false → Completes .unlockVerified s (fun t =>
        t.get DBG.STATUS.FAILS = min (s.get DBG.STATUS.FAILS + 1) (2 ^ DBG.STATUS.FAILS.width - 1)
        ∧ t.on DBG.STATUS.BACKOFF = true ∧ t.onaut.due = s.time + 2 ^ min (t.get DBG.STATUS.FAILS - 1) 6 * 800000000
        ∧ t.onaut.verify = rest ∧ t.mem = s.mem ∧ t.synd = s.synd
        ∧ sameFieldsBut [DBG.STATUS.FAILS, DBG.STATUS.BACKOFF] s t)))
    ∧ (s.on DBG.STATUS.BACKOFF = true → s.onaut.due ≤ s.time →
        exec .unlockBackoffEnd s = .next (s.put DBG.STATUS.BACKOFF 0))

/-- R6, R8: one field f of a register at offset `inst`, when the whole register is written with v; `noted` holds the bits of a W1C field
that events of this aclk have set. An SH field that a busy profile apply writes
is left (R191) and is not meant here. -/
def Obligations.FieldTypes : Prop :=
  ∀ (s : State) (r : RegRow) (inst v : Nat) (f : FieldRow), f.lo ≤ f.hi →
    (f.type = .rw → s.storeField r inst v 0 f = s.put (f.at_ inst) (bits v f.hi f.lo))
    ∧ (f.type = .ro ∨ f.type = .rc → s.storeField r inst v 0 f = s)
    ∧ (f.type = .w1c → (s.get (f.at_ inst)) < 2 ^ (f.at_ inst).width → ∀ i : Nat, i < (f.at_ inst).width →
        ((s.storeField r inst v 0 f).get (f.at_ inst)).testBit i
          = ((s.get (f.at_ inst)).testBit i
            && (!((bits v f.hi f.lo).testBit i) || (Sparse.get s.noted (f.at_ inst).key 0).testBit i)))
    ∧ (f.type = .lk → s.on BOOT.STATUS.STARTED = false → s.storeField r inst v 0 f = s.put (f.at_ inst) (bits v f.hi f.lo))
    ∧ (f.type = .lk → s.on BOOT.STATUS.STARTED = true → s.storeField r inst v 0 f = s)
    ∧ (f.type = .sh → s.applyHolds (f.at_ inst) = none →
        (s.storeField r inst v 0 f).get (f.at_ inst) = bits v f.hi f.lo % 2 ^ (f.at_ inst).width
        ∧ (∀ g, (s.storeField r inst v 0 f).inForce g = s.inForce g))
    ∧ ∀ g : Field, g.key ≠ (f.at_ inst).key → s.applyHolds (f.at_ inst) = none →
        (s.storeField r inst v 0 f).get g = s.get g
        ∧ (s.storeField r inst v 0 f).mem = s.mem ∧ (s.storeField r inst v 0 f).synd = s.synd

/-- R6, R9 to R11: REGISTER_WRITE and RC_FIELD_READ of any register (the effect named as the model's operations name it), of a hole of a
block, of HLT.CFG (100000h) and of PWR.EVENTS (000008h), whose COUNT is an RC field; `noted` holds what events of this aclk have added to
an RC field. An access that does not reach its register comes to nothing (the model's choice, log entry 13), `noteLk` remembers what an LK
register held before the start for an aclk in which the start follows (log entry 117), and which bits a PRESET_REJECTED of a write by the
boot firmware names is free (log entry 171): the model's choices. The two halves of a 64-bit register. -/
def Obligations.RegisterAccesses : Prop :=
  (∀ (s : State) (ag : Agent) (off : BitVec 24) (wide : Bool) (v : Word), s.live = true → regFits off.toNat wide = true →
    (s.reaches ag off.toNat true = true → ag ≠ .firmware ∨ firmwareFits off.toNat v.toNat = true →
      exec (.registerWrite ag off wide v) s = .next ((s.regWrite ag off.toNat wide v.toNat).noteLk s off.toNat))
    ∧ (s.reaches .firmware off.toNat true = true → firmwareFits off.toNat v.toNat = false →
      Completes (.registerWrite .firmware off wide v) s (fun t => ∃ j : Nat, j < 1024
        ∧ t = State.raise { s with free := s.free + 1 } { code := 0x66, domain := 0, addr := off.toNat, d0 := j }))
    ∧ (s.reaches ag off.toNat true = false → exec (.registerWrite ag off wide v) s = .next s)
    ∧ (s.reaches ag off.toNat false = true → exec (.rcFieldRead ag off wide) s = .next (s.regRead ag off.toNat wide).2)
    ∧ (s.reaches ag off.toNat false = false → exec (.rcFieldRead ag off wide) s = .next s)
    ∧ (ag ≠ .firmware → s.reaches ag off.toNat true = true → inModels off.toNat = false → inWindow off.toNat = false → findReg off.toNat = none →
        exec (.registerWrite ag off wide v) s
          = .next { s with agents := s.agents.set (agentIx ag) { latch := none, hold := none } }))
  ∧ (∀ (s : State) (ag : Agent) (v : Word), s.live = true → v.toNat < 2 ^ 32 →
    (s.reaches ag 0x100000 true = true → (∀ n : PartIx, s.on (SCH.PROFILE_n.BUSY n) = false) →
      Completes (.registerWrite ag 0x100000 false v) s (fun t =>
        t.get HLT.CFG.WINDOW_S = bits v.toNat 7 0 ∧ t.get HLT.CFG.CE_UNIT = bits v.toNat 15 8
        ∧ t.get HLT.CFG.WATCH_BELOW = bits v.toNat 23 16 ∧ t.get HLT.CFG.FAIL_BELOW = bits v.toNat 31 24
        ∧ sameFieldsBut [HLT.CFG.WINDOW_S, HLT.CFG.CE_UNIT, HLT.CFG.WATCH_BELOW, HLT.CFG.FAIL_BELOW] s t
        ∧ (∀ f, t.inForce f = s.inForce f) ∧ t.mem = s.mem ∧ t.synd = s.synd))
    ∧ (s.reaches ag 8 false = true → Completes (.rcFieldRead ag 8 false) s (fun t =>
        t.get PWR.EVENTS.COUNT = Sparse.get s.noted PWR.EVENTS.COUNT.key 0 % 2 ^ 16
        ∧ sameFieldsBut [PWR.EVENTS.COUNT] s t ∧ t.mem = s.mem ∧ t.synd = s.synd)))
  ∧ (∀ (s : State) (ag other : Agent) (inst lo hi v : Nat) (upd : Nat → Nat → State → State) (rc : State → State),
    lo < 2 ^ 32 → hi < 2 ^ 32 →
    s.writeWide ag inst 0 lo false upd = { s with agents := s.agents.set (agentIx ag) { latch := none, hold := some (inst, lo) } }
    ∧ (s.agents[agentIx ag].hold = some (inst, lo) →
        s.writeWide ag inst 4 hi false upd
          = upd (lo + 4294967296 * hi) 0 { s with agents := s.agents.set (agentIx ag) { latch := none, hold := none } })
    ∧ (s.agents[agentIx ag].hold = none →
        s.writeWide ag inst 4 hi false upd
          = upd (4294967296 * hi) 32 { s with agents := s.agents.set (agentIx ag) { latch := none, hold := none } })
    ∧ (s.readWide ag inst 0 v false rc).1 = v % 2 ^ 32
    ∧ (s.agents[agentIx ag].latch = some (inst, hi) → (s.readWide ag inst 4 v false rc).1 = hi)
    ∧ (s.agents[agentIx ag].latch = none → (s.readWide ag inst 4 v false rc).1 = v / 2 ^ 32)
    ∧ (agentIx other ≠ agentIx ag → ∀ l h, (s.setAgent ag l h).agents[agentIx other] = s.agents[agentIx other]))

/-- R284: MRD and MWR at an address that names no register; `frlSend` queues the answer on the Ferrule link, and `noReg` discards the
companion's register latch and hold: that an access to memory, and one that is answered NACK, discards them is the model's reading of R11
(log entry 83). -/
def Obligations.CompanionMemory : Prop :=
  ∀ (s0 s : State) (m : FMsg), s = s0.frlTake m → s0.live = true → s0.get FRL.STATUS.STATE = 2 → protocolBad m = false →
    s0.frlBehind m = false → m.addr.toNat % 64 = 0 → regOffset m.addr.toNat = none →
    (m.opcode = 0x27 → m.linesM1 ≠ 0 → s.reach m.addr.toNat m.lines.length = 0 → noWetInk s m.addr.toNat m.lines.length →
      Completes (.mwr m) s0 (fun t => t.rdBytes m.addr.toNat m.lines.length = m.lines
        ∧ (∀ b : Nat, b < m.addr.toNat ∨ m.addr.toNat + m.lines.length ≤ b → t.rd8 b = s.rd8 b)))
    ∧ (m.opcode = 0x27 → m.linesM1 = 0 → m.lines.length = 64 → s.reach m.addr.toNat 64 = 0 → noWetInk s m.addr.toNat 64 →
      Completes (.mwr m) s0 (fun t => ∀ b : Nat, t.rd8 b =
        (if m.addr.toNat ≤ b ∧ b < m.addr.toNat + 64 ∧ m.mask.toNat.testBit ((b - m.addr.toNat) / 4) = true
          then m.lines.getD (b - m.addr.toNat) 0 else s.rd8 b)))
    ∧ (m.opcode = 0x27 → s.reach m.addr.toNat m.lines.length ≠ 0 →
      exec (.mwr m) s0 = .next (s.noReg.frlNack m (s.reach m.addr.toNat m.lines.length)))
    ∧ (m.opcode = 0x06 → s0.mrdFull = false → s.reach m.addr.toNat (64 * (m.linesM1.toNat + 1)) = 0 →
      noErrors s m.addr.toNat (64 * (m.linesM1.toNat + 1)) →
      exec (.mrd m) s0 = .next (s.noReg.frlSend { fmsg 3 0x26 m.tag.toNat m.addr.toNat with
        linesM1 := m.linesM1, lines := s.rdBytes m.addr.toNat (64 * (m.linesM1.toNat + 1)) }))
    ∧ (m.opcode = 0x06 → s0.mrdFull = false → s.reach m.addr.toNat (64 * (m.linesM1.toNat + 1)) ≠ 0 →
      exec (.mrd m) s0 = .next (s.noReg.frlNack m (s.reach m.addr.toNat (64 * (m.linesM1.toNat + 1)))))
    ∧ (m.opcode = 0x06 → s0.mrdFull = true → exec (.mrd m) s0 = .next s0)

/-- R19, R21, R24 to R26. `unpowered` is a module without rails; what it keeps is stated of each removal. -/
def Obligations.PowerSequencing : Prop :=
  ∀ (s : State) (v us : Nat) (k : Fin 8),
    (s.power.phase = .off false → s.power.needLow = false → s.power.prsntN = false → 46000 ≤ v →
      exec (.powerUpSequence v k) s = .next { s with power := { s.power with
        pwrEn := true, vinMv := v, phase := .up k.val, hold := if k.val = 7 then 800000 else 0 } })
    ∧ (∀ j : Nat, s.power.phase = .up j → j < 7 → exec (.powerUpSequence v k) s = .next { s with power := { s.power with
        pwrEn := true, vinMv := v, phase := .up (max j k.val),
        hold := if max j k.val = 7 then 800000 else 0 } })
    ∧ (s.power.phase = .off false → v < 46000 →
      exec (.powerUpSequence v k) s = .next { s with power := { s.power with pwrEn := true, vinMv := v } })
    ∧ (∀ j : Nat, s.power.phase = .up j → j < 7 → Completes .railToleranceTimeout s (fun t =>
        t.power.phase = .off true ∧ t.power.needLow = true ∧ t.regs = [] ∧ t.mem = [] ∧ t.synd = []
        ∧ t.eeprom = s.eeprom ∧ t.fuses = s.fuses ∧ t.flashA = s.flashA ∧ t.flashB = s.flashB))
    ∧ (∀ j : Nat, s.power.phase = .up j ∨ s.power.phase = .tripped → Completes .powerDownSequence s (fun t =>
        t.power.phase = .off true ∧ t.power.pwrEn = false ∧ t.power.needLow = false ∧ t.regs = [] ∧ t.mem = [] ∧ t.synd = []
        ∧ t.eeprom = s.eeprom ∧ t.fuses = s.fuses ∧ t.flashA = s.flashA ∧ t.flashB = s.flashB))
    ∧ (∀ j : Nat, s.power.phase = .up j → (v < 44000 ∧ 100 ≤ us) ∨ (57000 < v ∧ 10 ≤ us) → Completes (.supplyRemoval v us) s (fun t =>
        t.power.phase = .off true ∧ t.power.needLow = true ∧ t.regs = [] ∧ t.mem = [] ∧ t.synd = []
        ∧ t.eeprom = s.eeprom ∧ t.fuses = s.fuses ∧ t.flashA = s.flashA ∧ t.flashB = s.flashB))
    ∧ (s.power.phase = .off true → s.power.needLow = false → s.power.prsntN = false → s.power.pwrEn = true → 46000 ≤ v →
      Completes (.minimumOffTimeExpiry v k) s (fun t => t.power.phase = .up k.val ∧ t.mem = s.mem ∧ t.regs = s.regs))
    ∧ (s.power.phase = .off true → s.power.pwrEn = false →
      Completes (.minimumOffTimeExpiry v k) s (fun t => t.power.phase = .off false ∧ t.mem = s.mem ∧ t.regs = s.regs))

/-- R22, R23, R34, R35. A pulse of 1 to 10 microseconds is left open by R23 and drawn by the model (log entry 22); it is not stated here.
What an unlisted byte of the EEPROM reads as is the factory's and the model's choice (log entry 4). -/
def Obligations.ResetPinTripAndEeprom : Prop :=
  (∀ (s : State) (ns c : Nat),
    (ns < 1000 → exec (.modResetNLow ns) s = .next s)
    ∧ (10000 ≤ ns → s.live = true → exec (.modResetNLow ns) s = .next (s.chipReset 2 false)
        ∧ (s.chipReset 2 false).live = false ∧ (s.chipReset 2 false).get RST.PERSIST.LAST_CAUSE = 2)
    ∧ (10000 ≤ ns → s.live = false → exec (.modResetNLow ns) s = .next { s with power := { s.power with
        modResetN := false, bootAt := if s.power.phase = .up 7 then 800000 else s.power.bootAt } })
    ∧ exec .modResetNHigh s = .next { s with power := { s.power with modResetN := true } }
    ∧ (∀ j : Nat, s.power.phase = .up j → 110 ≤ c → Completes (.thermalTrip c) s (fun t => t.power.phase = .tripped ∧ t.live = false
        ∧ t.regs = [] ∧ t.mem = [] ∧ t.synd = [] ∧ t.eeprom = s.eeprom ∧ t.fuses = s.fuses ∧ t.flashA = s.flashA ∧ t.flashB = s.flashB))
    ∧ ((∀ j : Nat, s.power.phase ≠ .up j) → exec (.thermalTrip c) s = .next s))
  ∧ (∀ (s : State) (j : Nat) (a : BitVec 13) (b : Byte), (s.power.phase = .up j ∧ 2 ≤ j) ∨ s.power.phase = .tripped →
    (a.toNat < 0x200 → exec (.identityEepromAccess a (some b)) s = .next s)
    ∧ (0x200 ≤ a.toNat → exec (.identityEepromAccess a (some b)) s
        = .next { s with eeprom := Sparse.insert s.eeprom a.toNat b })
    ∧ exec (.identityEepromAccess a none) s = .next { s with i3cTx := s.i3cTx ++ [.data [s.eepromRead a.toNat]] })

/-- R28 to R30, R33, R34: POWER_SAMPLE, due every 8,000 aclk; `powerTest` is the test of R29 (its reduction, and the state with its flags),
`powerStep` the step of the power controller, `targets false` and `targets true` the target sets of R30 and of R33. That the mean is over
the samples taken so far while there are fewer than 10,000 (log entry 54) and that the trip comes at once in the sample that shows it (log
entry 55) are the model's choices. -/
def Obligations.PowerSample : Prop :=
  (∀ (s : State) (w : Nat) (pw : Vector Nat 4) (die shell inlet outlet : BitVec 8), s.live = true → s.power.sampleAt ≤ s.time →
    (110 ≤ max die.toNat shell.toNat → Completes (.powerSample w pw die shell inlet outlet) s (fun t =>
      t.power.phase = .tripped ∧ t.mem = [] ∧ t.regs = [] ∧ t.eeprom = s.eeprom ∧ t.fuses = s.fuses))
    ∧ (max die.toNat shell.toNat < 110 → Completes (.powerSample w pw die shell inlet outlet) s (fun t =>
      t.get PWR.INPUT.WATTS = w % 2 ^ 16 ∧ t.power.samples = (w :: s.power.samples).take 10000
      ∧ t.get PWR.INPUT.MEAN_WATTS = (t.power.samples.sum / t.power.samples.length) % 2 ^ 16
      ∧ (∀ n : PartIx, t.get (PWR.P_STATE_n.WATTS n) = pw[n] % 2 ^ 16)
      ∧ t.get PWR.THERM_CFG.DIE_MAX_C = max die.toNat shell.toNat ∧ t.get PWR.THERM_CFG.INLET_C = inlet.toNat
      ∧ t.power.outletC = outlet.toNat ∧ t.power.shellC = shell.toNat ∧ t.power.prevP = w ∧ t.power.sampleAt = s.time + 8000
      ∧ (∀ n : PartIx, t.slotIsOpen n = s.slotIsOpen n) ∧ t.mem = s.mem ∧ t.synd = s.synd))
    ∧ (max die.toNat shell.toNat < 110 → ∀ u : State, u = (((s.modPower (fun p => { p with sampleAt := s.time + 8000 })).measure w pw).sense
        die.toNat shell.toNat inlet.toNat outlet.toNat) →
      exec (.powerSample w pw die shell inlet outlet) s = .next (u.powerStep w u.power.thermal)))
  ∧ (∀ (s : State) (w : Nat),
    (1800 < w → 1800 < s.power.prevP → s.powerTest w = (4, s.flag PWR.EVENTS.PEAK 1))
    ∧ (s.powerLimit < w → w ≤ 1800 ∨ s.power.prevP ≤ 1800 → 799 ≤ s.power.overTime →
        s.powerTest w = (2, State.flag { s with power := { s.power with overTime := s.power.overTime + 1 } } PWR.EVENTS.EXCURSION 1))
    ∧ (s.powerLimit < w → w ≤ 1800 ∨ s.power.prevP ≤ 1800 → s.power.overTime < 799 →
        s.powerTest w = (if s.powerLimit * s.power.samples.length < s.power.samples.sum
          then (1, State.flag { s with power := { s.power with overTime := s.power.overTime + 1 } } PWR.EVENTS.AVERAGE 1)
          else (0, { s with power := { s.power with overTime := s.power.overTime + 1 } })))
    ∧ (w ≤ s.powerLimit → s.powerLimit * s.power.samples.length < s.power.samples.sum →
        s.powerTest w = (1, State.flag { s with power := { s.power with overTime := 0 } } PWR.EVENTS.AVERAGE 1))
    ∧ (w ≤ s.powerLimit → s.power.samples.sum ≤ s.powerLimit * s.power.samples.length →
        s.powerTest w = (0, { s with power := { s.power with overTime := 0 } }))
    ∧ (∀ th : Bool, (s.powerStep w th).power.prevP = w)
    ∧ (s.powerStep w true).power.quietTime = 0 ∧ (s.powerStep w true).on PWR.EVENTS.THERMAL = true
    ∧ (∀ (th : Bool) (n : PartIx), s.get (PWR.P_STATE_n.GATE n) ≤ 16 →
        (0 < (s.powerTest w).1 ∨ th = true → (s.powerStep w th).power.quietTime = 0
          ∧ (s.powerStep w th).get (PWR.P_STATE_n.GATE n) = (if s.active n then
              max 4 (s.get (PWR.P_STATE_n.GATE n) - max (if n ∈ s.targets false then (s.powerTest w).1 else 0)
                (if th = true ∧ n ∈ s.targets true then 1 else 0)) else s.get (PWR.P_STATE_n.GATE n)))
        ∧ ((s.powerTest w).1 = 0 → 20 * w ≤ 19 * s.powerLimit →
          (9 ≤ s.power.quietTime → (s.powerStep w false).power.quietTime = 0
            ∧ (s.powerStep w false).get (PWR.P_STATE_n.GATE n) = (if s.active n then min 16 (s.get (PWR.P_STATE_n.GATE n) + 1)
                else s.get (PWR.P_STATE_n.GATE n)))
          ∧ (s.power.quietTime < 9 → (s.powerStep w false).power.quietTime = s.power.quietTime + 1
            ∧ (s.powerStep w false).get (PWR.P_STATE_n.GATE n) = s.get (PWR.P_STATE_n.GATE n)))
        ∧ ((s.powerTest w).1 = 0 → 19 * s.powerLimit < 20 * w → (s.powerStep w false).power.quietTime = 0
            ∧ (s.powerStep w false).get (PWR.P_STATE_n.GATE n) = s.get (PWR.P_STATE_n.GATE n))))
  ∧ (∀ (s : State) (th : Bool) (hot high prot : PartIx → Prop),
    (∀ n : PartIx, hot n ↔ th = true ∨ s.inForce (PWR.P_CAP_n.WATTS n) < s.get (PWR.P_STATE_n.WATTS n)) →
    (∀ n : PartIx, high n ↔ 4 < s.get (PWR.P_STATE_n.GATE n)) →
    (∀ n : PartIx, prot n ↔ s.inForce (PWR.P_CAP_n.PROTECT n) = 1) →
    ((∃ n, s.active n = true ∧ ¬prot n ∧ hot n) → ∀ n, n ∈ s.targets th ↔ s.active n = true ∧ ¬prot n ∧ hot n)
    ∧ ((∀ n, s.active n = true → hot n → prot n) → (∃ n, s.active n = true ∧ ¬prot n ∧ high n) →
        ∀ n, n ∈ s.targets th ↔ s.active n = true ∧ ¬prot n ∧ high n)
    ∧ ((∀ n, s.active n = true → hot n ∨ high n → prot n) → (∃ n, s.active n = true ∧ hot n) →
        ∀ n, n ∈ s.targets th ↔ s.active n = true ∧ hot n)
    ∧ ((∀ n, s.active n = true → ¬hot n) → (∀ n, s.active n = true → high n → prot n) →
        ∀ n, n ∈ s.targets th ↔ s.active n = true ∧ high n))

/-- R48, for each partition; u is s after a boundary that is due in this aclk (R49). -/
def Obligations.StartWrite : Prop :=
  ∀ (s u : State) (n : PartIx) (v : Word), s.settable = true → u = s.afterBoundary n →
    (s.boundaryDue n = false → u = s)
    ∧ (u.on (STK.CTRL_n.RUNNING n) = true → exec (.stkStartWrite n v) s = .next (u.flag (STK.CTRL_n.ERR n) 1))
    ∧ (u.on (STK.CTRL_n.RUNNING n) = false → exec (.stkStartWrite n v) s = .next (u.put (STK.START_n.ACLK n) v.toNat))

/-- R47, R50; u is s after a boundary that is due in this aclk (R49). That a 0 written behind a 1 in one boundary window takes the restart
back is the model's choice (log entry 137). -/
def Obligations.StrokeControl : Prop :=
  ∀ (s u : State) (n : PartIx), s.settable = true → u = s.afterBoundary n →
    ((u.part n).inReset = false → u.on (STK.CTRL_n.RUNNING n) = false → u.active n = true →
      exec (.stkCtrlRun n true) s = .next (((u.put (STK.CTRL_n.RUN n) 1).put (STK.CTRL_n.RUNNING n) 1).put (STK.NEXT_n.ACLK n)
        (max (u.get (STK.START_n.ACLK n)) (u.time + 16))))
    ∧ ((u.part n).inReset = false → u.on (STK.CTRL_n.RUNNING n) = false → u.active n = false →
      exec (.stkCtrlRun n true) s = .next (((u.put (STK.CTRL_n.RUN n) 0).put (STK.CTRL_n.RUNNING n) 0).flag (STK.CTRL_n.ERR n) 1))
    ∧ ((u.part n).inReset = false → u.on (STK.CTRL_n.RUNNING n) = true → (u.part n).stopping = false ∨ (u.part n).window = false →
      exec (.stkCtrlRun n true) s = .next (u.put (STK.CTRL_n.RUN n) 1))
    ∧ ((u.part n).inReset = false → u.on (STK.CTRL_n.RUNNING n) = true → (u.part n).stopping = true → (u.part n).window = true →
      exec (.stkCtrlRun n true) s = .next ((u.put (STK.CTRL_n.RUN n) 1).modPart n (fun p => { p with restart := true })))
    ∧ ((u.part n).inReset = false → exec (.stkCtrlRun n false) s
        = .next ((u.put (STK.CTRL_n.RUN n) 0).modPart n (fun p => { p with restart := false })))
    ∧ ((u.part n).inReset = true → ∀ b : Bool, exec (.stkCtrlRun n b) s = .next (u.put (STK.CTRL_n.RUN n) (b2n b)))

/-- R7, R44, R47: a segment is `killable` up to the aclk of C of its lift (R176); the shell's SH fields come into force at a boundary of the
lowest partition that is out of reset; `checkRows` judges the rows of the store (R179). That a restart is not taken in the window of a profile apply's B1 is the model's choice (log entry
137). `judgeRows` writes what the check finds, `startTimer` is the start of StrokeControl. -/
def Obligations.StrokeBoundary : Prop :=
  ∀ (s : State) (n : PartIx), s.live = true → (s.part n).inReset = false →
    (s.on (STK.CTRL_n.RUNNING n) = true → (s.part n).window = false → s.get (STK.NEXT_n.ACLK n) ≤ s.time →
      s.get (STK.NEXT_n.ACLK n) ≠ 0xFFFFFFFFFFFFFFFF →
      Completes (.strokeBoundary n) s (fun t => (t.part n).window = true ∧ (t.part n).bnd = s.get (STK.NEXT_n.ACLK n)
        ∧ (t.part n).rows = []
        ∧ ((t.part n).stopping = true ↔ s.get (STK.CTRL_n.RUN n) = 0 ∨ ∃ a, (s.part n).apply_ = some a ∧ a.b1 = none)
        ∧ ((t.part n).stopping = true → t.get (STK.NEXT_n.ACLK n) = 0xFFFFFFFFFFFFFFFF)
        ∧ ((t.part n).stopping = false → t.get (STK.NEXT_n.ACLK n) = (s.get (STK.NEXT_n.ACLK n) + t.period n) % 2 ^ 64)
        ∧ t.get (STK.COUNT_n.STROKES n) = (s.get (STK.COUNT_n.STROKES n) + 1) % 2 ^ 64
        ∧ (∀ c : CoreIx, partOf c = n → killable s c = true → t.seg c = none)
        ∧ (∀ c : CoreIx, partOf c = n → killable s c = false → (t.seg c).isSome = (s.seg c).isSome)
        ∧ (∀ f ∈ [STK.PERIOD_n.ACLK n, SCH.ROW_BASE_n.BASE n, SCH.ROW_COUNT_n.ROWS n, PWR.P_CAP_n.WATTS n, PWR.P_CAP_n.PROTECT n],
            (f.key, n.val) ∈ s.shPend → t.inForce f = s.get f)
        ∧ (∀ f ∈ [HLT.CFG.WINDOW_S, HLT.CFG.CE_UNIT, PWR.MODULE_LIMIT.WATTS], (f.key, 4) ∈ s.shPend → s.lowestOut = some n →
            t.inForce f = s.get f)
        ∧ (∀ f : Field, (∀ p ∈ s.shPend, p.1 = f.key → p.2 ≠ n.val ∧ (p.2 = 4 → s.lowestOut ≠ some n)) → t.inForce f = s.inForce f)))
    ∧ ((s.part n).window = true → (s.part n).bnd + 64 ≤ s.time →
      ∀ u : State, u = (s.modPart n (fun q => { q with window := false, restart := false })).judgeRows n →
      ((s.part n).stopping = false → exec (.boundaryWindowEnd n) s = .next u)
      ∧ ((s.part n).stopping = true → (s.part n).restart = false ∨ (s.part n).apply_ ≠ none →
        exec (.boundaryWindowEnd n) s = .next (u.put (STK.CTRL_n.RUNNING n) 0))
      ∧ ((s.part n).stopping = true → (s.part n).restart = true → (s.part n).apply_ = none →
        exec (.boundaryWindowEnd n) s = .next (u.startTimer n (max (s.get (STK.START_n.ACLK n)) ((s.part n).bnd + 80))))
      ∧ (u.part n).window = false ∧ u.get (SCH.STATUS_n.BAD_ROWS n) = ((u.part n).rows.filter (fun r => r.2)).length % 2 ^ 16
      ∧ (u.part n).rows = checkRows (s.period n) (s.part n).rows [0, 0, 0, 0] [0, 0, 0, 0]
      ∧ (∀ i : Nat, ((u.part n).rows.getD i ([], false)).2 = true → (∀ j : Nat, j < i → ((u.part n).rows.getD j ([], false)).2 = false) →
          u.get (SCH.STATUS_n.FIRST_BAD n) = i % 2 ^ (SCH.STATUS_n.FIRST_BAD n).width ∧ u.on (SCH.STATUS_n.BAD_ROW n) = true)
      ∧ ((∀ r ∈ (u.part n).rows, r.2 = false) → u.get (SCH.STATUS_n.FIRST_BAD n) = 0
          ∧ u.get (SCH.STATUS_n.BAD_ROW n) = s.get (SCH.STATUS_n.BAD_ROW n))
      ∧ sameFieldsBut [SCH.STATUS_n.BAD_ROW n, SCH.STATUS_n.BAD_ROWS n, SCH.STATUS_n.FIRST_BAD n] s u ∧ u.mem = s.mem ∧ u.synd = s.synd)
    ∧ (40000 ≤ s.period n ∧ s.period n ≤ 80000000)

/-- R51. STATE: 0 ACTIVE, 1 CLOCK_STOP, 2 POWER_OFF, 3 TRANSIT. How long a transition takes within its bound is the model's choice (log
entry 41). u is s after a boundary that is due in this aclk (R49). -/
def Obligations.PartitionPower : Prop :=
  ∀ (s u : State) (n : PartIx), s.settable = true → u = s.afterBoundary n →
    ((u.part n).inReset = false → u.get (PART.POWER_n.STATE n) = 0 → u.on (STK.CTRL_n.RUNNING n) = false →
      Completes (.targetClockStop n) s (fun t => t.get (PART.POWER_n.STATE n) = 3 ∧ t.get (PART.POWER_n.TARGET n) = 1)
      ∧ Completes (.targetPowerOff n) s (fun t => t.get (PART.POWER_n.STATE n) = 3 ∧ t.get (PART.POWER_n.TARGET n) = 2))
    ∧ ((u.part n).inReset = false → u.get (PART.POWER_n.STATE n) = 0 → u.on (STK.CTRL_n.RUNNING n) = true →
      exec (.targetClockStop n) s = .next (u.flag (PART.POWER_n.ERR n) 1)
      ∧ exec (.targetPowerOff n) s = .next (u.flag (PART.POWER_n.ERR n) 1))
    ∧ ((u.part n).inReset = false →
      (u.get (PART.POWER_n.STATE n) = 0 → exec (.targetActive n) s = .next (u.put (PART.POWER_n.TARGET n) 0))
      ∧ (u.get (PART.POWER_n.STATE n) = 1 → exec (.targetClockStop n) s = .next (u.put (PART.POWER_n.TARGET n) 1))
      ∧ (u.get (PART.POWER_n.STATE n) = 2 → exec (.targetPowerOff n) s = .next (u.put (PART.POWER_n.TARGET n) 2)))
    ∧ ((u.part n).inReset = false → u.get (PART.POWER_n.STATE n) = 1 ∨ u.get (PART.POWER_n.STATE n) = 2 →
      Completes (.targetActive n) s (fun t => t.get (PART.POWER_n.STATE n) = 3 ∧ t.get (PART.POWER_n.TARGET n) = 0))
    ∧ ((u.part n).inReset = false → u.get (PART.POWER_n.STATE n) = 1 →
      Completes (.targetPowerOff n) s (fun t => t.get (PART.POWER_n.STATE n) = 3 ∧ t.get (PART.POWER_n.TARGET n) = 2))
    ∧ ((u.part n).inReset = false → u.get (PART.POWER_n.STATE n) = 2 →
      Completes (.targetClockStop n) s (fun t => t.get (PART.POWER_n.STATE n) = 3 ∧ t.get (PART.POWER_n.TARGET n) = 1))
    ∧ ((u.part n).inReset = false → u.get (PART.POWER_n.STATE n) = 3 → ∀ d : PowTrans, (u.part n).trans = some d →
      Completes (.targetActive n) s (fun t => t.get (PART.POWER_n.TARGET n) = 0 ∧ (t.part n).trans = some { d with rec_ := some 0 })
      ∧ Completes (.targetClockStop n) s (fun t => t.get (PART.POWER_n.TARGET n) = 1 ∧ (t.part n).trans = some { d with rec_ := some 1 })
      ∧ Completes (.targetPowerOff n) s (fun t => t.get (PART.POWER_n.TARGET n) = 2 ∧ (t.part n).trans = some { d with rec_ := some 2 }))
    ∧ exec (.targetInvalid n 3) s = .next (u.flag (PART.POWER_n.ERR n) 1)
    ∧ ((u.part n).inReset = true → (s.part n).inReset = true → ∀ v : BitVec 2,
      exec (.targetInvalid n v) s = .next (u.flag (PART.POWER_n.ERR n) 1)
      ∧ exec (.targetActive n) s = .next (u.flag (PART.POWER_n.ERR n) 1)
      ∧ exec (.targetClockStop n) s = .next (u.flag (PART.POWER_n.ERR n) 1)
      ∧ exec (.targetPowerOff n) s = .next (u.flag (PART.POWER_n.ERR n) 1))
    ∧ (∀ d : PowTrans, (s.part n).trans = some d → d.due ≤ s.time → (s.part n).resetWait = false →
      (∀ v : Nat, d.rec_ = some v → exec (.powerTransitionEnd n) s = .next ((s.reachPower n d).writeTarget n v))
      ∧ (d.rec_ = none → exec (.powerTransitionEnd n) s = .next (s.reachPower n d))
      ∧ (d.target < 2 → (s.reachPower n d).get (PART.POWER_n.STATE n) = d.target ∧ ((s.reachPower n d).part n).trans = none
        ∧ sameFieldsBut [PART.POWER_n.STATE n, PART.POWER_n.TRANSITIONS n, PWR.P_STATE_n.GATE n] s (s.reachPower n d)
        ∧ (s.reachPower n d).mem = s.mem ∧ (s.reachPower n d).synd = s.synd))

/-- ENGINE_START, PLANE_LOAD, PASS_START, ARRAY_HOLD, OPERATION_COMPLETE, ENGINE_COMPLETION and ENGINE_READY (R69 to R71, R78, R82, R83,
R89, R91): `s.advances` is a running partition in an open slot with no boundary due, `s.slot` counts its open slots, `clk` is the
array's clock, which a hold stops, and `passReady` the recurrence of R78. That plane 0 is first (log entry 136), that ARRAY_HOLD presents
each held aclk and that bank arbitration delays nothing else (log entry 133) are the model's choices; `dropEngine` is what a kill does to
an engine (R89). -/
def Obligations.EngineOperations : Prop :=
  ∀ (s : State) (c : CoreIx) (e : EngIx) (o : MatOp), s.advances (partOf c) = true →
    ((s.eng c e).run = some o → o.started = false → o.start ≤ s.slot (partOf c) →
      (o.chained = false → exec (.engineStart c e) s = .next (((((s.modEng c e (fun k =>
          { k with run := some { o with started := true }, planes := [none, none], active := 1, open_ := false, pass := none,
                   loading := none, released := false })).put (ENG.STATE_i.BUSY c e) 1).put
          (ENG.STATE_i.CLASS c e) (fmtClass (mmAFmt o.cmd))).put (ENG.STATE_i.PLANE0_FULL c e) 0).put (ENG.STATE_i.PLANE1_FULL c e) 0))
      ∧ (o.chained = true → Completes (.engineStart c e) s (fun t => t.eng c e = { s.eng c e with run := some { o with started := true } }
          ∧ t.on (ENG.STATE_i.BUSY c e) = true ∧ t.mem = s.mem ∧ t.synd = s.synd)))
    ∧ (∀ q : MatOp, (s.eng c e).run = some o → o.started = true → (s.eng c e).pend = some q → q.chained = true → q.started = false →
      q.start ≤ s.slot (partOf c) →
      exec (.engineStart c e) s = .next (s.modEng c e (fun k => { k with pend := some { q with started := true } })))
    ∧ (∀ (l : Loading) (kp : BitVec 10), (s.eng c e).loading = some l → (s.eng c e).op l.work = some o →
      (planeLoadTime (fmtClass (mmAFmt o.cmd)) ≤ l.row → l.kp = kp.toNat → Completes (.planeLoad c e kp) s (fun t =>
          (t.eng c e).planes = (s.eng c e).planes.set l.plane (some { nb := l.nb, kp := l.kp, weights := l.weights, scales := l.scales })
          ∧ (t.eng c e).loading = none ∧ (t.eng c e).op l.work = some { o with loads := o.loads + 1 }
          ∧ t.on (if l.plane = 0 then ENG.STATE_i.PLANE0_FULL c e else ENG.STATE_i.PLANE1_FULL c e) = true
          ∧ sameFieldsBut [ENG.STATE_i.PLANE0_FULL c e, ENG.STATE_i.PLANE1_FULL c e] s t ∧ t.mem = s.mem ∧ t.synd = s.synd))
      ∧ (l.row < planeLoadTime (fmtClass (mmAFmt o.cmd)) ∨ l.kp ≠ kp.toNat → exec (.planeLoad c e kp) s = .next s))
    ∧ (∀ (d : Bool) (p : Plane), passOp (s.eng c e) = some (d, o) → (s.eng c e).planes.getD (1 - (s.eng c e).active) none = some p →
      o.started = true → p.nb = (pairOf o.cmd o.j).1 →
      (passReady (s.eng c e) o (s.slot (partOf c)) = false → exec (.passStart c e) s = .next s)
      ∧ (passReady (s.eng c e) o (s.slot (partOf c)) = true → Completes (.passStart c e) s (fun t =>
        t.get (ENG.STATE_i.PASS c e) = min 65535 (o.j + 1) ∧ (t.eng c e).active = 1 - (s.eng c e).active
        ∧ (t.eng c e).sj = (s.eng c e).clk ∧ (t.eng c e).open_ = true ∧ (t.eng c e).inj = 0
        ∧ (t.eng c e).mj = min (chunkRows (fmtClass (mmAFmt o.cmd))) (mmM o.cmd - (pairOf o.cmd o.j).2 * chunkRows (fmtClass (mmAFmt o.cmd)))
        ∧ (∃ w, (if d then (t.eng c e).pend else (t.eng c e).run) = some w ∧ w.j = o.j + 1 ∧ w.cmd = o.cmd)
        ∧ sameFieldsBut [ENG.STATE_i.PASS c e, ENG.BUBBLE_i.ACLK c e] s t ∧ t.mem = s.mem ∧ t.synd = s.synd)))
    ∧ ((s.eng c e).run = some o → o.started = true → ∀ tier : BitVec 2,
      (arrayMoves (s.eng c e) = true → (s.eng c e).held = false → Completes (.arrayHold c e tier false) s (fun t =>
        t.eng c e = { s.eng c e with held := true }
        ∧ t.get (if tier = 0 then ENG.HOLD_i.ACLK c e else IDL.COUNT_i_k.ACLK c e 1)
          = (s.get (if tier = 0 then ENG.HOLD_i.ACLK c e else IDL.COUNT_i_k.ACLK c e 1) + 1) % 2 ^ 64
        ∧ sameFieldsBut (if tier = 0 then [ENG.HOLD_i.ACLK c e] else [IDL.COUNT_i_k.ACLK c e 1]) s t ∧ t.mem = s.mem ∧ t.synd = s.synd))
      ∧ (lateStart s c (s.eng c e) = some false → (s.eng c e).late = false → Completes (.arrayHold c e tier true) s (fun t =>
        t.eng c e = { s.eng c e with holds := (s.eng c e).holds + 1, late := true }
        ∧ t.get (if tier = 0 then ENG.HOLD_i.ACLK c e else IDL.COUNT_i_k.ACLK c e 1)
          = (s.get (if tier = 0 then ENG.HOLD_i.ACLK c e else IDL.COUNT_i_k.ACLK c e 1) + 1) % 2 ^ 64
        ∧ sameFieldsBut (if tier = 0 then [ENG.HOLD_i.ACLK c e] else [IDL.COUNT_i_k.ACLK c e 1]) s t ∧ t.mem = s.mem ∧ t.synd = s.synd)))
    ∧ (∀ x : Nat, (s.eng c e).run = some o → o.t = some x → x ≤ (s.eng c e).clk → (∀ r ∈ (s.eng c e).pipe, r.pass.work ≠ o.work) →
      Completes (.operationComplete c e) s (fun t => (t.eng c e).finish = (s.eng c e).finish ++ [(o.work, s.slot (partOf c) + 4)]
        ∧ t.get (ENG.OPS_i.COUNT c e) = (s.get (ENG.OPS_i.COUNT c e) + 1) % 2 ^ 32
        ∧ ((s.eng c e).pend = none → (t.eng c e).run = none ∧ t.on (ENG.STATE_i.BUSY c e) = false ∧ t.get (ENG.STATE_i.PASS c e) = 0)
        ∧ (∀ q : MatOp, (s.eng c e).pend = some q → (t.eng c e).pend = none ∧ (t.eng c e).run =
            some (if q.chained then q else { q with start := s.slot (partOf c), started := false }))
        ∧ sameFieldsBut [ENG.OPS_i.COUNT c e, IDL.COUNT_i_k.ACLK c e 8, ENG.STATE_i.BUSY c e, ENG.STATE_i.PASS c e] s t
        ∧ t.mem = s.mem ∧ t.synd = s.synd))
    ∧ (∀ w due r, (s.eng c e).finish = (w, due) :: r → due ≤ s.slot (partOf c) → exec (.engineCompletion c e) s
        = .next ((s.modEng c e (fun k => { k with finish := r })).completeWork c w))
    ∧ ((s.eng c e).ready ≤ s.slot (partOf c) → (s.eng c e).ready ≠ 0 →
        exec (.engineReady c e) s = .next (s.modEng c e (fun k => { k with ready := 0 })))
    ∧ (((s.dropEngine c e).eng c e).run = none
      ∧ ((s.eng c e).run ≠ none → ((s.dropEngine c e).eng c e).ready = s.slot (partOf c) + 16)
      ∧ ((s.eng c e).run = none → ((s.dropEngine c e).eng c e).ready = (s.eng c e).ready))

/-- NOP, and with it the effect that the issue of any command has on the registers (R147, R148, R172), `ready` giving the segment and the fetched
command of a core that may issue it; COMMAND_FETCH and TAIL_POLL. `fetchAt` is CMD_PTR, or the command behind a fetched MX_SCALES;
`wantsPeek` says that one is fetched whose next command is not known yet (R152). -/
def Obligations.FetchPollAndNop : Prop :=
  (∀ (s : State) (c : CoreIx) (g : Seg) (b : List Byte), ready s c 0x00 = some (g, b) →
    (plainOk b 8 = true → Completes (.nop c) s (fun t =>
      t.get (SEQ.CMD_PTR.ADDR c) = (s.get (SEQ.CMD_PTR.ADDR c) + 64) % 2 ^ (SEQ.CMD_PTR.ADDR c).width
      ∧ t.get (SEQ.LAST_CMD.CMD_ID c) = cmdId b % 2 ^ (SEQ.LAST_CMD.CMD_ID c).width ∧ t.get (SEQ.LAST_CMD.OPCODE c) = 0
      ∧ t.get (SEQ.STATE.STATE c) = 1
      ∧ t.get (SEQ.HEARTBEAT.COUNT c) = (s.get (SEQ.HEARTBEAT.COUNT c) + 1) % 2 ^ (SEQ.HEARTBEAT.COUNT c).width
      ∧ t.get (SEQ.PROGRESS_TIME.ACLK c) = s.time % 2 ^ (SEQ.PROGRESS_TIME.ACLK c).width
      ∧ sameFieldsBut [SEQ.CMD_PTR.ADDR c, SEQ.LAST_CMD.CMD_ID c, SEQ.LAST_CMD.OPCODE c, SEQ.STATE.STATE c, SEQ.HEARTBEAT.COUNT c,
          SEQ.PROGRESS_TIME.ACLK c, DBG.CORE_c.STEPPING c] s t
      ∧ t.mem = s.mem ∧ t.synd = s.synd ∧ t.eeprom = s.eeprom ∧ t.fuses = s.fuses))
    ∧ (plainOk b 8 = false → exec (.nop c) s = .next (s.descFault c 0 1)))
  ∧ (∀ (s : State) (c : CoreIx) (g : Seg), s.advances (partOf c) = true → s.seg c = some g → g.lift = none → (s.core c).ctx = none →
    (g.fetched = none ∨ wantsPeek g = true → g.waitTail = false →
      (fetchAt s c g = s.ctxRd g.ctx 0x08 8 → exec (.commandFetch c) s
        = .next ((s.modSeg c (fun h => { h with waitTail := true, pollAt := s.time + 256 })).put (SEQ.STATE.STATE c) 2))
      ∧ (∀ p : Nat, fetchAt s c g = p → p ≠ s.ctxRd g.ctx 0x08 8 →
        translated s c g.ctx [(p, 64, false)] → localSound s c g.ctx [(p, 64)] →
        (g.fetched = none → p = s.get (SEQ.CMD_PTR.ADDR c) ∧ exec (.commandFetch c) s
          = .next ((s.modSeg c (fun h => { h with fetched := some (p, (objRead s c g.ctx p 64).1) })).bpCheck c))
        ∧ (g.fetched ≠ none → p = s.get (SEQ.CMD_PTR.ADDR c) + 64 ∧ exec (.commandFetch c) s
          = .next (s.modSeg c (fun h => { h with peek := some (p, (objRead s c g.ctx p 64).1) })))))
    ∧ (∀ p b, g.fetched = some (p, b) → issueReady s c = some (g, b) →
      (g.skip = false → knownOpcode (cmdOpcode b) = false → exec (.commandFetch c) s = .next (s.descFault c 0 1))
      ∧ (g.skip = true → skipRuns (cmdOpcode b) = false → exec (.commandFetch c) s
          = .next (((s.bump (SEQ.CMD_PTR.ADDR c) 64).modSeg c (fun h => { h with fetched := none })).modCore c (fun k =>
              { k with bpPass := false })))))
  ∧ (∀ (s : State) (c : CoreIx) (g : Seg), s.advances (partOf c) = true → s.seg c = some g → g.waitTail = true → g.pollAt ≤ s.time →
      (fetchAt s c g ≠ s.ctxRd g.ctx 0x08 8 → exec (.tailPoll c) s
        = .next ((s.modSeg c (fun h => { h with waitTail := false })).put (SEQ.STATE.STATE c) 1))
      ∧ (fetchAt s c g = s.ctxRd g.ctx 0x08 8 → exec (.tailPoll c) s
        = .next (s.modSeg c (fun h => { h with pollAt := s.time + 256 }))))

/-- MX_SCALES, FENCE, JUMP, SCALE_STEP, MB_END and LIFT; `issueCmd` is the issue of a command, its last argument whether it completes at
once. That MB_END of a segment without an open micro-batch is a descriptor fault is the model's reading (log entry 35). -/
def Obligations.PlainCommands : Prop :=
  ∀ (s : State) (c : CoreIx) (g : Seg) (b : List Byte), s.live = true →
    (ready s c 0x11 = some (g, b) →
      (g.peek = none → exec (.mxScales c) s = .next s)
      ∧ (∀ p m, g.peek = some (p, m) →
        (plainOk b 0x2C = true → cmdOpcode m = 0x10 → exec (.mxScales c) s
          = .next (((s.issueCmd c g b true).modSeg c (fun h => { h with mx := some b, fetched := some (p, m), peek := none })).bpCheck c))
        ∧ (plainOk b 0x2C = true → cmdOpcode m ≠ 0x10 → exec (.mxScales c) s = .next (s.descFault c 0 7))
        ∧ (plainOk b 0x2C = false → exec (.mxScales c) s = .next (s.descFault c 0 1))))
    ∧ (ready s c 0x39 = some (g, b) → plainOk b 0x10 = true →
      (fieldAt b 8 8 % 64 = 0 → exec (.jump c) s = .next ((s.issueCmd c g b true).put (SEQ.CMD_PTR.ADDR c) (fieldAt b 8 8)))
      ∧ (fieldAt b 8 8 % 64 ≠ 0 → exec (.jump c) s = .next (s.descFault c (fieldAt b 8 8) 6)))
    ∧ (ready s c 0x39 = some (g, b) → plainOk b 0x10 = false → exec (.jump c) s = .next (s.descFault c 0 1))
    ∧ (ready s c 0x38 = some (g, b) → plainOk b 8 = true → exec (.fence c) s = .next (s.issueCmd c g b g.work.isEmpty))
    ∧ (∀ w r, ready s c 0x38 = none → s.seg c = some g → g.work = w :: r → w.opcode = 0x38 → s.advances (partOf c) = true →
      exec (.fence c) s = .next (s.completeWork c w.id))
    ∧ (ready s c 0x02 = some (g, b) → plainOk b 8 = true → s.ctxRd g.ctx 0x18 8 ≠ 0 → g.mbSlot.isSome = true →
      exec (.mbEnd c) s = .next ((s.issueCmd c g b true).modSeg c (fun h => { h with mbEnd := true })))
    ∧ (ready s c 0x02 = some (g, b) → plainOk b 8 = true → g.mbSlot = none → exec (.mbEnd c) s = .next (s.descFault c 0 7))
    ∧ (ready s c 0x14 = some (g, b) → plainOk b 0x10 = true → fieldAt b 0x08 4 < 2 ^ 13 → 1 ≤ fieldAt b 0x0C 4 →
      fieldAt b 0x08 4 + fieldAt b 0x0C 4 ≤ s.scaleLen (partOf c) →
      exec (.scaleStep c) s = .next ((s.issueCmd c g b true).modSeg c (fun h =>
        { h with steps := h.steps ++ ((List.range (fieldAt b 0x0C 4)).map (fun i => fieldAt b 0x08 4 + i)).filter (fun i => i != 0) })))
    ∧ (ready s c 0x3F = some (g, b) → plainOk b 8 = true → Completes (.lift c) s (fun t =>
        t.get (SEQ.STATE.STATE c) = 3 ∧ t.mem = s.mem ∧ t.synd = s.synd
        ∧ ∃ h l, t.seg c = some h ∧ h.lift = some l ∧ l.yield = false ∧ l.flipped = false ∧ h.work = g.work ∧ h.wet = g.wet))

/-- MATMUL, B named by its base or by a descriptor: `mmTaker` is the engine that takes it, `mmBreach` the first rule of R61 to R63, R149 and
R151 that the command breaks, `resolveDesc` the version that a descriptor gives, `mmResolve` the operands, `matmulFits` that they break no
rule, `dispatch` the dispatch to an engine. That only the descriptor named as B resolves and latches a slot is the model's reading (log entry
163). -/
def Obligations.MatmulIssue : Prop :=
  ∀ (s : State) (c : CoreIx) (g : Seg) (b : List Byte), ready s c 0x10 = some (g, b) →
    (∀ a d, mmTaker s c b ≠ none → mmBreach s (partOf c) b g.mx = some (a, d) → exec (.matmul c) s = .next (s.descFault c a d))
    ∧ (mmTaker s c b = none → exec (.matmul c) s = .next s)
    ∧ (engNamed b = true → mmTaker s c b = engFor s c b)
    ∧ (engNamed b = false → mmTaker s c b ≠ none ∧ mmBreach s (partOf c) b g.mx ≠ none)
    ∧ (∀ e : EngIx, mmBreach s (partOf c) b g.mx = none → engFor s c b = some e →
      (∀ r : MmRes, mmBDesc b = false → s.seg c = some g → mmResolve s c g b (g.mx.getD []) 0 = r →
        matmulFits s c g b (g.mx.getD []) r → exec (.matmul c) s = .next (s.dispatch c e g b (g.mx.getD []) r))
      ∧ (mmBDesc b = true → s.wd (partOf c) (mmBBase b % 4096) 0xB0 8 = 0 →
        (resolveDesc s c g (mmBBase b % 4096) = .fault → exec (.matmul c) s = .next (s.descFault c 0 7))
        ∧ (∀ x, resolveDesc s c g (mmBBase b % 4096) = .stale x → exec (.matmul c) s = .next (s.staleDrop c g (mmBBase b % 4096) x))
        ∧ (∀ v t h r, resolveDesc s c g (mmBBase b % 4096) = .slot v t → t.seg c = some h → h.ctx = g.ctx →
          t.wd (partOf c) (mmBBase b % 4096) 0xB0 8 = 0 → mmResolve t c h b (g.mx.getD []) v = r → matmulFits t c h b (g.mx.getD []) r →
          exec (.matmul c) s = .next (t.dispatch c e h b (g.mx.getD []) r)))
      ∧ (∀ sh, mmBDesc b = true → s.wd (partOf c) (mmBBase b % 4096) 0xB0 8 = sh → sh ≠ 0 → localSound s c g.ctx [(sh, 16)] →
        (resolveDesc s c g (mmBBase b % 4096) = .fault → exec (.matmul c) s = .next (s.descFault c 0 7))
        ∧ (∀ v t h r, resolveDesc s c g (mmBBase b % 4096) = .slot v t → t.seg c = some h → h.ctx = g.ctx →
          t.wd (partOf c) (mmBBase b % 4096) 0xB0 8 = sh → localSound t c g.ctx [(sh, 16)] → mmResolve t c h b (g.mx.getD []) v = r →
          (shardOk t c g.ctx sh = true → matmulFits t c h b (g.mx.getD []) r →
            exec (.matmul c) s = .next (t.dispatch c e h b (g.mx.getD []) r))
          ∧ (shardOk t c g.ctx sh = false → exec (.matmul c) s = .next (t.descFault c sh 7))
          ∧ (shardOk t c g.ctx sh = true → r.nv = 0 ∨ mmN b < r.nv ∨ r.kv = 0 ∨ mmK b < r.kv →
            exec (.matmul c) s = .next (t.descFault c sh 3)))))

/-- MB_BEGIN, STASH_PUT, STASH_PUT_COMPLETE and STASH_FREE of a context with a stash, its control block translated, and in local memory
where MB_BEGIN reads it; t is s with what MB_BEGIN keeps of a block in T3 (nothing here). That a STASH_PUT with SOURCE 0 completes at its
issue (log entry 27), the faults of MB_BEGIN and STASH_FREE (35, 36), that the data goes as wet pages (45), that tag 0 is a fault (142) and
what the commands read of the block (169) are the model's choices. -/
def Obligations.MicroBatchesAndStash : Prop :=
  ∀ (s : State) (c : CoreIx) (g : Seg) (b : List Byte), s.seg c = some g → translated s c g.ctx (stashRange s g.ctx) →
    s.ctxRd g.ctx 0x18 8 ≠ 0 →
    (∀ (tag : Nat) (t : State) (h : Seg), ready s c 0x01 = some (g, b) → plainOk b 0x0C = true →
      zeroBits (fieldAt b 0x08 4) 31 17 = true → fieldAt b 8 2 = tag → t = s.takeBlock c → t.seg c = some h → h.ctx = g.ctx →
      (tag ≠ 0 → g.nextId = 0 → localSound s c g.ctx [(s.ctxRd g.ctx 0x18 8, 16640)] → mbFind t c h tag = none →
        (∀ slot, cmdBits b 8 4 16 16 = 0 → mbFree t c h = some slot →
          (stashRd t c h 0x4A 1 % 2 = 0 → stashRd t c h 0x49 1 < mbInflight (stashRd t c h 0x48 1) → exec (.mbBegin c) s
            = .next ((((t.stashWr c g.ctx (mbAt slot) 2 tag).stashWr c g.ctx (mbAt slot + 2) 1 1).stashWr c g.ctx 0x49 1
                (stashRd t c h 0x49 1 + 1)).mbJoin c h b slot tag 0 false))
          ∧ (stashRd t c h 0x4A 1 % 2 = 1 ∨ mbInflight (stashRd t c h 0x48 1) ≤ stashRd t c h 0x49 1 →
            exec (.mbBegin c) s = .next (t.pausedStart c h)))
        ∧ (cmdBits b 8 4 16 16 = 0 → mbFree t c h = none → exec (.mbBegin c) s = .next (t.pausedStart c h))
        ∧ (cmdBits b 8 4 16 16 = 1 → exec (.mbBegin c) s = .next (t.descFault c 0 7)))
      ∧ (∀ slot, tag ≠ 0 → g.nextId = 0 → localSound s c g.ctx [(s.ctxRd g.ctx 0x18 8, 16640)] → mbFind t c h tag = some slot →
        (mbState t c h slot = 3 → exec (.mbBegin c) s = .next (t.mbJoin c h b slot tag (cmdBits b 8 4 16 16) true))
        ∧ (mbState t c h slot = 2 → cmdBits b 8 4 16 16 = 0 → exec (.mbBegin c) s = .next (t.descFault c 0 7))
        ∧ (mbState t c h slot = 2 → cmdBits b 8 4 16 16 = 1 → exec (.mbBegin c) s = .next (t.mbJoin c h b slot tag 1 false))
        ∧ (mbState t c h slot = 1 → cmdBits b 8 4 16 16 = 0 → exec (.mbBegin c) s = .next (t.mbJoin c h b slot tag 0 false))
        ∧ (mbState t c h slot = 1 → cmdBits b 8 4 16 16 = 1 → exec (.mbBegin c) s
          = .next ((t.stashWr c g.ctx (mbAt slot + 2) 1 2).mbJoin c h b slot tag 1 false)))
      ∧ (tag = 0 ∨ g.nextId ≠ 0 → exec (.mbBegin c) s = .next (s.descFault c 0 7)))
    ∧ (∀ slot leaves, ready s c 0x15 = some (g, b) → headerOk b = true → zeroBytes b 0x14 0x18 = true →
      zeroBytes b 0x20 0x40 = true → spSource b = 0 ∨ moverFree s c = true →
      translated s c g.ctx (stashRange s g.ctx ++ if spSource b = 0 then [] else [(spSource b, spLen b, false)]) →
      localSound s c g.ctx (stashReads s c g) → g.mbSlot = some slot → spAddr b % 65536 = 0 → stashRd s c g 0x38 8 ≤ spAddr b →
      spAddr b + 65536 * ceilDiv (spLen b) 65536 ≤ stashRd s c g 0x38 8 + stashRd s c g 0x40 8 → stashRd s c g (mbAt slot + 4) 1 < 16 →
      leavesOf s g.ctx (spAddr b) (ceilDiv (spLen b) 65536) = some leaves →
      (∀ tier, stashTier s c g (65536 * ceilDiv (spLen b) 65536) (ceilDiv (spLen b) 65536) = some tier →
        exec (.stashPut c) s = .next (s.stashPlace c g b slot tier (65536 * ceilDiv (spLen b) 65536) leaves false))
      ∧ (stashTier s c g (65536 * ceilDiv (spLen b) 65536) (ceilDiv (spLen b) 65536) = none →
        (stashRd s c g 0x18 8 + 65536 * ceilDiv (spLen b) 65536 ≤ 65536 * (stashRd s c g 0 8 / 65536) →
          ceilDiv (spLen b) 65536 ≤ s.stackCount (partOf c) (s.ctxTenant g.ctx) 0 →
          exec (.stashPut c) s = .next ((s.stashFull c g).stashPlace c g b slot 0 (65536 * ceilDiv (spLen b) 65536) leaves true))
        ∧ (65536 * (stashRd s c g 0 8 / 65536) < stashRd s c g 0x18 8 + 65536 * ceilDiv (spLen b) 65536
            ∨ s.stackCount (partOf c) (s.ctxTenant g.ctx) 0 < ceilDiv (spLen b) 65536 →
          exec (.stashPut c) s = .next ((s.stashFull c g).killSeg c 7))))
    ∧ (ready s c 0x15 = some (g, b) → spSource b ≠ 0 → moverFree s c = false → exec (.stashPut c) s = .next s)
    ∧ (∀ slot, ready s c 0x16 = some (g, b) → plainOk b 0x10 = true → localSound s c g.ctx (stashReads s c g) → g.mbSlot = some slot →
      (List.range (stashRd s c g (mbAt slot + 4) 1)).find? (fun e => stashRd s c g (stashEnt slot e) 8 == fieldAt b 8 8) = none →
      exec (.stashFree c) s = .next (s.descFault c (fieldAt b 8 8) 7))
    ∧ (∀ slot e cnt pages u w, ready s c 0x16 = some (g, b) → plainOk b 0x10 = true → localSound s c g.ctx (stashReads s c g) →
      g.mbSlot = some slot → stashRd s c g (mbAt slot + 4) 1 = cnt → e < cnt → stashRd s c g (stashEnt slot e) 8 = fieldAt b 8 8 →
      (∀ i, i < e → stashRd s c g (stashEnt slot i) 8 ≠ fieldAt b 8 8) → pages = stashRd s c g (stashEnt slot e + 8) 4 / 65536 →
      u = (s.stashUncharge c g (fieldAt b 8 8) pages).stashDropPages c g (fieldAt b 8 8) pages →
      w = (List.range (cnt - 1 - e)).foldl (fun (x : State) i =>
        x.stashWr c g.ctx (stashEnt slot (e + i)) 16 (stashRd s c g (stashEnt slot (e + i + 1)) 16)) u →
      exec (.stashFree c) s = .next ((w.stashWr c g.ctx (mbAt slot + 4) 1 (cnt - 1)).issueCmd c ((w.seg c).getD g) b true))
    ∧ (∀ m r, (s.core c).mover = m :: r → s.advances (partOf c) = true → m.started = true → cmdOpcode m.cmd = 0x15 →
      m.due ≤ s.slot (partOf c) → remoteDone s c m.work = true →
      exec (.stashPutComplete c) s = .next ((claimRanges c g.ctx [(spAddr m.cmd, spLen m.cmd)] s).run c (fun t =>
        ((t.consume c g.ctx 10 1 m.cmd [(spSource m.cmd, spLen m.cmd)]).objStoreBad c g.ctx (spAddr m.cmd)
          (objRead t c g.ctx (spSource m.cmd) (spLen m.cmd)).1 (objRead t c g.ctx (spSource m.cmd) (spLen m.cmd)).2).moverDone c m.work)))

/-- COPY, COPY_FILL, COPY_GATHER and COPY_COMPLETE. That a gather does not look at FILL, nor at the descriptor's GATHERED (log entry 134), and
the steps in which it reads (log entry 51), are the model's choices. -/
def Obligations.Copies : Prop :=
  ∀ (s : State) (c : CoreIx) (g : Seg) (b : List Byte), s.seg c = some g →
    (ready s c 0x20 = some (g, b) →
      (copyBreach b = none → moverFree s c = true → translated s c g.ctx (copyRanges b) → cpWdesc b = false →
        (∀ v, s.copyClaims c g.ctx g.nextId b = .ok v →
          (cpFill b = false → exec (.copy c) s = .next (v.toMover c ((v.seg c).getD g) b))
          ∧ (cpFill b = true → exec (.copyFill c) s = .next (v.toMover c ((v.seg c).getD g) b)))
        ∧ (∀ v, s.copyClaims c g.ctx g.nextId b = .wait v → cpFill b = false → exec (.copy c) s = .next v))
      ∧ (copyBreach b = none → moverFree s c = true → cpWdesc b = true → s.descOk (partOf c) (cpDst b % 4096) = true →
        cpLen b = 64 + ((gatherParts s (partOf c) (cpDst b % 4096) 0).map Prod.snd).sum →
        translated s c g.ctx ([0, 1].flatMap (fun v => (gatherParts s (partOf c) (cpDst b % 4096) v).map (fun r => (r.1, r.2, true)))) →
        exec (.copyGather c) s = .next (s.toMover c g b))
      ∧ (∀ a d, copyBreach b = some (a, d) → moverFree s c = true →
        (cpWdesc b = false → cpFill b = false → exec (.copy c) s = .next (s.descFault c a d))
        ∧ (cpWdesc b = false → cpFill b = true → exec (.copyFill c) s = .next (s.descFault c a d))
        ∧ (cpWdesc b = true → exec (.copyGather c) s = .next (s.descFault c a d)))
      ∧ (copyBreach b = none → moverFree s c = true → cpWdesc b = true →
        (s.descOk (partOf c) (cpDst b % 4096) = false → exec (.copyGather c) s = .next (s.descFault c 0 4))
        ∧ (s.descOk (partOf c) (cpDst b % 4096) = true →
          cpLen b ≠ 64 + ((gatherParts s (partOf c) (cpDst b % 4096) 0).map Prod.snd).sum →
          exec (.copyGather c) s = .next (s.descFault c 0 7)))
      ∧ (moverFree s c = false → exec (.copy c) s = .next s ∧ exec (.copyFill c) s = .next s ∧ exec (.copyGather c) s = .next s))
    ∧ (∀ m r, (s.core c).mover = m :: r → s.advances (partOf c) = true → m.started = true → cmdOpcode m.cmd = 0x20 →
      m.due ≤ s.slot (partOf c) → remoteDone s c m.work = true →
      (cpWdesc m.cmd = true → exec (.copyComplete c) s = .next (s.gatherStep c g m))
      ∧ (cpWdesc m.cmd = false → exec (.copyComplete c) s = .next ((copyClaim s c g.ctx m.cmd).run c (fun t =>
          ((t.copyPoison c g.ctx m.cmd).copyOut c g.ctx m.work m.cmd (copyData t c g.ctx m.cmd).1 (copyData t c g.ctx m.cmd).2).moverDone c
            m.work))))

/-- NOTIFY, SEM_WAIT, SEM_WAIT_COMPLETE, SEM_ADD, SEM_ACQUIRE, LEASE_GRANT, LEASE_EXPIRY and SEM_RELEASE; `semPlace` says whether the
semaphore is in local memory (`here`) or reached over the Chart (`there`), `semAcquireAt` takes the lease. Which acquisition came first
(log entry 80) and that commands issue behind a wait (log entry 29) are the model's readings. -/
def Obligations.NotifyAndSemaphores : Prop :=
  ∀ (s : State) (c : CoreIx) (g : Seg) (b : List Byte), s.seg c = some g →
    (ready s c 0x21 = some (g, b) → plainOk b 0x1C = true → zeroBits (fieldAt b 0x18 4) 31 1 = true → fieldAt b 8 8 % 8 = 0 →
      g.outq + 128 ≤ 1024 * s.ctxRd g.ctx 0x2E 2 → 128 ≤ s.outqFree (partOf c) →
      exec (.notify c) s = .next ((s.enqueue c g.ctx 128 (.notify (fieldAt b 8 8) (fieldAt b 0x10 8) (cmdBits b 0x18 4 0 0 == 1))
        g.nextId).issueCmd c g b true))
    ∧ (∀ a : Nat, semBreach b = none → smChart b = false → translated s c g.ctx [(smAddr b, 16, cmdOpcode b != 0x30)] →
      localSound s c g.ctx [(smAddr b, 16)] → semPlace s c g.ctx b = .here a →
      (ready s c 0x30 = some (g, b) → exec (.semWait c) s = .next (s.semBegin c g b))
      ∧ (ready s c 0x32 = some (g, b) → exec (.semAcquire c) s = .next (s.semBegin c g b))
      ∧ (ready s c 0x31 = some (g, b) → exec (.semAdd c) s
          = .next ((s.modSeg c (fun h => { h with semOps := h.semOps ++ [⟨a, some (smValue b), smAddr b⟩] })).issueCmd c g b true))
      ∧ (ready s c 0x33 = some (g, b) → exec (.semRelease c) s
          = .next ((s.modSeg c (fun h => { h with semOps := h.semOps ++ [⟨a, none, smAddr b⟩] })).issueCmd c g b true)))
    ∧ (∀ a : Nat, semBreach b = none → translated s c g.ctx (if smChart b then [] else [(smAddr b, 16, cmdOpcode b != 0x30)]) →
      semPlace s c g.ctx b = .there a →
      (ready s c 0x30 = some (g, b) → exec (.semWait c) s = .next (s.semBegin c g b))
      ∧ (ready s c 0x32 = some (g, b) → exec (.semAcquire c) s = .next (s.semBegin c g b))
      ∧ (g.outq + 128 ≤ 1024 * s.ctxRd g.ctx 0x2E 2 → 128 ≤ s.outqFree (partOf c) →
        (ready s c 0x31 = some (g, b) → exec (.semAdd c) s
          = .next ((s.enqueue c g.ctx 128 (.semAdd a (smValue b)) g.nextId).issueCmd c g b true))
        ∧ (ready s c 0x33 = some (g, b) → exec (.semRelease c) s
          = .next ((s.enqueue c g.ctx 128 (.semRelease a) g.nextId).issueCmd c g b true))))
    ∧ (∀ x d, semBreach b = some (x, d) → ready s c 0x31 = some (g, b) → exec (.semAdd c) s = .next (s.descFault c x d))
    ∧ (∀ w r, g.semWait = w :: r → s.runs (partOf c) = true → w.chart = false →
      (w.opcode = 0x30 → w.due ≤ s.time → w.met = true ∨ semCond w.cond (s.rdLE w.addr 4) w.value = true →
        exec (.semWaitComplete c) s = .next (s.semEnd c w.work))
      ∧ (∀ t anew expired, w.opcode = 0x32 → w.met = false → semFirst s g.ctx w = true →
          semAcquireAt s w.addr s.selfModule g.ctx w.value = some (t, anew, expired) → exec (.leaseGrant c) s
            = .next (if w.due ≤ s.time then (t.semGranted c w anew expired).semEnd c w.work
                else t.semGranted c w anew expired))
      ∧ (w.opcode = 0x32 → w.met = true → w.due ≤ s.time → r = [] →
          exec (.leaseGrant c) s = .next (s.semEnd c w.work)))
    ∧ ((∀ w ∈ g.semWait, w.opcode = 0x30 → w.met = false ∧ semCond w.cond (s.rdLE w.addr 4) w.value = false) →
        exec (.semWaitComplete c) s = .next s)
    ∧ ((∀ w ∈ g.semWait, w.opcode = 0x32 → w.met = false ∧ semAcquireAt s w.addr s.selfModule g.ctx w.value = none) →
        exec (.leaseGrant c) s = .next s)
    ∧ (∀ a : BitVec 52, exec (.leaseExpiry a) s = .next s)

/-- ROWOP and ROWOP_COMPLETE; `paramBreach` is the first rule that the parameter block breaks, `shardAt` the shard descriptor's fields,
`margReadOk` the check of R125, `rowAll` computes the rows and the gradient vectors, `addVec` sends one to the bank-side adders. That the
scale bytes of an MXFP8 row stand directly behind its elements (log entry 32), that a record's address is 16-byte aligned (162) and that the
output is claimed and written when the operation completes (173) are the model's choices. -/
def Obligations.RowOperations : Prop :=
  ∀ (s : State) (c : CoreIx) (g : Seg) (b : List Byte), s.seg c = some g →
    (ready s c 0x12 = some (g, b) →
      ((s.core c).rowEng.isSome = true → exec (.rowop c) s = .next s)
      ∧ (∀ a d, (s.core c).rowEng = none → rowBreach b = some (a, d) → exec (.rowop c) s = .next (s.descFault c a d))
      ∧ (∀ (p : List Byte) (dv groups : Nat), (s.core c).rowEng = none → rowBreach b = none → translated s c g.ctx [(roParam b, 128, false)] →
        localSound s c g.ctx [(roParam b, 128)] → p = (objRead s c g.ctx (roParam b) 128).1 →
        (rpShard p ≠ 0 → translated s c g.ctx [(rpShard p, 16, false)] ∧ localSound s c g.ctx [(rpShard p, 16)]) →
        dv = (if rpShard p = 0 then roDv b else (shardAt s c g.ctx (rpShard p)).2.2.2.1) →
        groups = (if rpShard p = 0 then dv else min dv (shardAt s c g.ctx (rpShard p)).2.2.2.2.2) →
        paramBreach s c g.ctx b p = none → translated s c g.ctx (rowRanges b p) →
        (readsMarg (roOp b) = true → roMargAddr b = true → chartRanges s c g.ctx (pageCount (rpMarg p) (16 * roRows b)) (rpMarg p) (16 * roRows b) = []) →
        (readsMarg (roOp b) = true → (List.range (roRows b)).all (margReadOk s c g b p) = false →
          exec (.rowop c) s = .next (s.margFault c g b p))
        ∧ (readsMarg (roOp b) = false ∨ (List.range (roRows b)).all (margReadOk s c g b p) = true →
          ∃ v, v = s.modCore c (fun k => { k with rowEng := some (
              { work := g.nextId, cmd := b, param := p, dv := dv, groups := groups, due := s.slot (partOf c) + rowTime b } : RowOp) })
            ∧ exec (.rowop c) s = .next ((v.needRemote c 1 g.nextId (((rowRanges b p).filter (fun q => !q.2.2)).flatMap
                (fun q => chartRanges v c g.ctx (pageCount q.1 q.2.1) q.1 q.2.1))).issueCmd c g b false))))
    ∧ (∀ o : RowOp, (s.core c).rowEng = some o → s.advances (partOf c) = true → remoteDone s c o.work = true →
      (s.slot (partOf c) < o.due → exec (.rowopComplete c) s = .next s)
      ∧ (∀ (ws : List (Nat × Nat)) (t u v1 v2 : State) (gs bs zs : List Machine.Num) (r : State × List Machine.Num × List Machine.Num),
        o.due ≤ s.slot (partOf c) → localSound s c g.ctx (rowSound o.cmd o.param) →
        ws = ((rowRanges o.cmd o.param).filterMap (fun r => if r.2.2 then some (r.1, r.2.1) else none)).map
          (fun r => if roOut o.cmd = 5 then (r.1, r.2 + ceilDiv (roD o.cmd) 32) else r) →
        claimRanges c g.ctx ws s = .ok t → u = (t.writes c o.work).consume c g.ctx 8 0 o.cmd (rowReads o.cmd o.param o.dv) →
        gs = (if usesGamma (roOp o.cmd) then rowValues u c g.ctx (rpGamma o.param) (if rpGB16 o.param then 1 else 0) o.dv else []) →
        bs = (if usesBeta (roOp o.cmd) then rowValues u c g.ctx (rpBeta o.param) (if rpGB16 o.param then 1 else 0) o.dv else []) →
        zs = List.replicate (if usesDGamma (roOp o.cmd) then o.dv else 0) Machine.Num.zero →
        r = rowAll c g o gs bs (roRows o.cmd) (u, zs, if usesDBeta (roOp o.cmd) then zs else []) →
        v1 = (if usesDGamma (roOp o.cmd) then r.1.addVec c g.ctx (rpDGamma o.param) r.2.1 else r.1) →
        v2 = (if usesDBeta (roOp o.cmd) then v1.addVec c g.ctx (rpDBeta o.param) r.2.2 else v1) →
        exec (.rowopComplete c) s = .next ((v2.modCore c (fun k => { k with rowEng := none })).completeWork c o.work)))

/-- R139: UPDATE, SUM_OF_SQUARES, UPDATE_START and UPDATE_COMPLETE, where `shardOk` is the check of a shard descriptor, `updTime` the time of
R142, `updRows` and `writeCopies` the arithmetic of R140; R136: DEFERRED_SLOT_CHANGE. That MOM_FMT 0 is no momentum (log entry 26), the
order of the sums and powers (33), the time of an update that counted nothing (58) and that the output is claimed and written when the unit
completes (173) are the model's choices. -/
def Obligations.UpdatesAndSlotChanges : Prop :=
  (∀ (s : State) (c : CoreIx) (g : Seg) (b : List Byte), s.seg c = some g →
    (ready s c 0x13 = some (g, b) → ∀ (q sh : Nat) (small : List (Nat × Nat)),
      ((s.core c).upd.isSome = true → exec (.update c) s = .next s ∧ exec (.sumOfSquares c) s = .next s)
      ∧ (∀ a d, (s.core c).upd = none → upSumsq b = false → updBreach s c b = some (a, d) → exec (.update c) s = .next (s.descFault c a d))
      ∧ (∀ a d, (s.core c).upd = none → upSumsq b = true → updBreach s c b = some (a, d) →
        exec (.sumOfSquares c) s = .next (s.descFault c a d))
      ∧ ((s.core c).upd = none → updBreach s c b = none → s.wd (partOf c) (upDesc b) 0xB0 8 = sh → sh = 0 ∨ shardOk s c g.ctx sh = true →
        q = (if bit (s.wd (partOf c) (upDesc b) 0 1) 3 then bits (s.wd (partOf c) (upDesc b) 0 1) 4 4
          else bits (s.wd (partOf c) (upDesc b) 0 1) 2 2) →
        small = (s.wd (partOf c) (upDesc b) 0xA8 8, 32) :: (if sh = 0 then [] else [(sh, 16)]) →
        translated s c g.ctx (small.map (fun r => (r.1, r.2, false)) ++ updRanges s (partOf c) (upDesc b) q b) →
        localSound s c g.ctx small →
        ∃ v : State, v = (s.claimBuffer (partOf c) (upDesc b)).modCore c (fun k => { k with upd := some (
            { work := g.nextId, cmd := b, desc := upDesc b, sumsq := upSumsq b, result := upResult b, buf := q } : UpdOp) })
          ∧ exec (if upSumsq b then .sumOfSquares c else .update c) s = .next ((v.needRemote c 1 g.nextId
            ((updRanges s (partOf c) (upDesc b) q b).flatMap (fun r =>
              chartRanges s c g.ctx (pageCount r.1 r.2.1) r.1 r.2.1))).issueCmd c g b false)))
    ∧ (∀ u : UpdOp, (s.core c).upd = some u → s.advances (partOf c) = true →
      (u.started = false → gradLatched s (partOf c) u.desc u.buf = true → exec (.updateStart c) s = .next s)
      ∧ (u.started = false → gradLatched s (partOf c) u.desc u.buf = false → Completes (.updateStart c) s (fun t =>
          t.mem = s.mem ∧ t.synd = s.synd ∧ t.regs = s.regs ∧ ∃ w : UpdOp, (t.core c).upd = some w ∧ w.started = true
            ∧ w.count = s.wd (partOf c) u.desc (0x70 + 4 * u.buf) 4 ∧ w.hyper = (objRead s c g.ctx (s.wd (partOf c) u.desc 0xA8 8) 32).1
            ∧ w.due = s.slot (partOf c) + updTime (s.wd (partOf c) u.desc 8 4) (s.wd (partOf c) u.desc 0xC 4) u.sumsq))
      ∧ (u.started = true → u.due ≤ s.slot (partOf c) → remoteDone s c u.work = true → u.count = 0 →
        (u.sumsq = true → exec (.updateComplete c) s
          = .next ((s.modCore c (fun k => { k with upd := none })).completeWork c u.work))
        ∧ (u.sumsq = false → exec (.updateComplete c) s = .next (((s.modSeg c (fun h =>
            { h with updates := h.updates ++ [(u.desc, true)] })).modCore c (fun k => { k with upd := none })).completeWork c u.work)))
      ∧ (∀ t, u.started = true → u.due ≤ s.slot (partOf c) → remoteDone s c u.work = true → u.count ≠ 0 → u.sumsq = true →
        claimRanges c g.ctx [(u.result, 4)] s = .ok t →
        ∃ x : State, x = (t.writes c u.work).consume c g.ctx 9 0 u.cmd (updReads t (partOf c) u (wdValid s c g.ctx u.desc).1 (wdValid s c g.ctx u.desc).2)
          ∧ exec (.updateComplete c) s = .next (((x.objAdd c g.ctx u.result (to32 (sumSquares x c g.ctx u
            (div32N (hyp u.hyper 0x18) (round32 (.ofNat u.count))) (wdValid s c g.ctx u.desc).1 (wdValid s c g.ctx u.desc).2))).modCore c
              (fun k => { k with upd := none })).completeWork c u.work))
      ∧ (∀ (mc : Nat) (rs : List (Nat × Nat)) (t x y : State) (ws : List (List Machine.Num)), u.started = true → u.due ≤ s.slot (partOf c) →
        remoteDone s c u.work = true → u.count ≠ 0 → u.sumsq = false →
        mc = (if momBytes (wdMomFmt s (partOf c) u.desc) = 0 then 0 else momCount (wdRecipe s (partOf c) u.desc)) →
        rs = ([(0x60 + 8 * u.buf, 4), (0x40, 2), (0x48, 2)] ++ (if 1 ≤ mc then [(0x50, momBytes (wdMomFmt s (partOf c) u.desc))] else [])
            ++ (if 2 ≤ mc then [(0x58, momBytes (wdMomFmt s (partOf c) u.desc))] else [])).map (fun (r : Nat × Nat) =>
              (s.wd (partOf c) u.desc r.1 8, s.wd (partOf c) u.desc 8 4 * densePitch (s.wd (partOf c) u.desc 0xC 4) r.2))
          ++ slotRanges s (partOf c) u.desc (1 - s.recto (partOf c) u.desc) →
        claimRanges c g.ctx rs s = .ok t →
        x = (t.writes c u.work).consume c g.ctx 9 0 u.cmd (updReads t (partOf c) u (wdValid s c g.ctx u.desc).1 (wdValid s c g.ctx u.desc).2) →
        (ws, y) = updRows c g.ctx u (div32N (mul32N (hyp u.hyper 0x14) (hyp u.hyper 0x18)) (round32 (.ofNat u.count)))
          (wdValid s c g.ctx u.desc).2 (wdValid s c g.ctx u.desc).1 ([], x) →
        exec (.updateComplete c) s = .next ((((y.writeCopies c g.ctx u ws (wdValid s c g.ctx u.desc).2).modSeg c (fun h =>
          { h with updates := h.updates ++ [(u.desc, false)] })).modCore c (fun k => { k with upd := none })).completeWork c u.work))))
  ∧ (∀ (s : State) (n : PartIx), s.runs n = true →
    (∀ l d r, (s.part n).deferred = l ++ d :: r → (∀ e ∈ l, slotLatched s n e.desc e.slot = true) → slotLatched s n d.desc d.slot = false →
      exec (.deferredSlotChange n) s = .next ((s.modPart n (fun p => { p with deferred := l ++ r })).commitDeferred n d))
    ∧ ((∀ d ∈ (s.part n).deferred, slotLatched s n d.desc d.slot = true) → exec (.deferredSlotChange n) s = .next s))

/-- R230, R262: `route` is the port of R262, `toPortOut` a packet that goes to a port (R263), `heldAt` the port whose receiver holds a
packet, which `unbox` frees (R241), `admits` that it can be taken now (R235, R239, R241). A packet that no receiver holds is the
environment's to offer, and frees none: the model's choice (log entry 59). -/
def Obligations.PacketArrival : Prop :=
  ∀ (s : State) (p : Packet) (l : List (Nat × Instr)), s.live = true →
    l = [(1, Instr.chartRead p), (2, .chartSemWait p), (3, .chartSemAcquire p), (4, .semCancel p), (0x10, .chartWrite p),
      (0x11, .add32 p), (0x12, .chartSemAdd p), (0x13, .chartSemRelease p), (0x14, .parcelData p), (0x15, .collData p),
      (0x20, .chartReadData p), (0x21, .chartAck p), (0x22, .semResult p), (0x23, .chartNack p), (0x30, .ticketReq p),
      (0x31, .ticketOffer p), (0x32, .ticketAnswer p), (0x33, .commit p), (0x34, .prepared p), (0x35, .chartRelease p),
      (0x36, .releaseAck p), (0x37, .abort p), (0x38, .statusQuery p), (0x39, .statusAnswer p), (0x3A, .pointerUpdate p),
      (0x3B, .freed p), (0x3C, .ticketDone p), (0x3D, .landed p), (0x3F, .dirAck p), (0x3E, .collCtlAbort p),
      (0x3E, .collCtlDone p), (0x3E, .collCtlFinal p)] →
    (p.dst.toNat ≠ s.selfModule →
      (∀ i q, s.route p.dst.toNat = some i → s.heldAt p = some q →
        exec (.packetForward p) s = .next ((s.takeRx p q).toPortOut (toLink i) p (some q)))
      ∧ (∀ i, s.route p.dst.toNat = some i → s.heldAt p = none → exec (.packetForward p) s = .next (s.toPortOut (toLink i) p none))
      ∧ (s.route p.dst.toNat = none → exec (.packetForward p) s = .next (s.unbox p))
      ∧ (∀ x ∈ l, exec x.2 s = .next s))
    ∧ (p.dst.toNat = s.selfModule → exec (.packetForward p) s = .next s
      ∧ (malformed p = true → ∀ x ∈ l, x.1 ≠ 0x3E →
        exec x.2 s = .next ((s.unbox p).put (CHT.COUNTS_n.MALFORMED p.part) ((s.unbox p).get (CHT.COUNTS_n.MALFORMED p.part) + 1)))
      ∧ (∀ k ∈ [(0, Instr.collCtlAbort p), (1, .collCtlDone p), (2, .collCtlFinal p)],
        (malformed p = true → bits p.aux.toNat 1 0 = k.1 → exec k.2 s
          = .next ((s.unbox p).put (CHT.COUNTS_n.MALFORMED p.part) ((s.unbox p).get (CHT.COUNTS_n.MALFORMED p.part) + 1)))
        ∧ (bits p.aux.toNat 1 0 ≠ k.1 → exec k.2 s = .next s))
      ∧ (malformed p = false → ∀ x ∈ l, x.1 ≠ p.opcode.toNat ∨ admits s p = false → exec x.2 s = .next s))
    ∧ (s.heldAt p = none → s.unbox p = s)

/-- R227, R233, R239: CHART_READ, CHART_WRITE, ADD32 and DUPLICATE_WINDOW_EXPIRY; `serveAt` is what this module answers for a name, s the
state in which the receiver that held the packet is free again, `lineRange` the 64 to 512 B of R232; that another range is refused is the
model's choice (log entry 145), and so are that the duplicate filter comes before the gazetteer entry (log entry 66) and what the poison
of an ADD32 does (log entry 76). -/
def Obligations.HomeServes : Prop :=
  (∀ (s0 s : State) (p : Packet) (e : GazEntry) (off : Nat), s = s0.unbox p → off = p.addr.toNat % 2097152 →
    (serveAt s (nameOf p.addr.toNat) = .at_ e →
      (∀ len : Nat, arrivesHere s0 p 0x01 → len = bits p.aux.toNat 9 0 + 1 → lineRange p len = true → s.parcelRange e off len = true →
        exec (.chartRead p) s0 = .next ((s.meet (e.at_ + off) len).readAnswer p (e.at_ + off) len)
        ∧ (noErrors s (e.at_ + off) len → (s.meet (e.at_ + off) len).readAnswer p (e.at_ + off) len
          = s.sendPacket (carry (s.answer p 2 0x20 0) (s.rdBytes (e.at_ + off) len) [])))
      ∧ (arrivesHere s0 p 0x10 → unseen s p → lineRange p p.payload.length = true → s.parcelRange e off p.payload.length = true →
        exec (.chartWrite p) s0
          = .next (((s.extWrite (e.at_ + off) p.payload (badWordsOf p)).markLines e.name off p.payload.length).applied p (s.ack p)))
      ∧ (arrivesHere s0 p 0x11 → unseen s p → lineRange p p.payload.length = true → s.parcelRange e off p.payload.length = true →
        exec (.add32 p) s0 = .next ((((s.extAdd (e.at_ + off) (wordsOf p)).poisonAt (e.at_ + off) (badWordsOf p)).markLines e.name off
            p.payload.length).applied p (s.ack p)))
      ∧ (unseen s p → (lineRange p p.payload.length && s.parcelRange e off p.payload.length) = false →
        (arrivesHere s0 p 0x10 → exec (.chartWrite p) s0 = .next (s.refuse p 5 0 0 0))
        ∧ (arrivesHere s0 p 0x11 → exec (.add32 p) s0 = .next (s.refuse p 5 0 0 0))))
    ∧ (∀ st r m x, serveAt s (nameOf p.addr.toNat) = .no st r m x → arrivesHere s0 p 0x01 →
        exec (.chartRead p) s0 = .next (s.refuse p st r m x))
    ∧ (∀ d, s.dupOf p = some d →
      (arrivesHere s0 p 0x10 → exec (.chartWrite p) s0 = .next (s.sendPacket d.resp))
      ∧ (arrivesHere s0 p 0x11 → exec (.add32 p) s0 = .next (s.sendPacket d.resp))))
  ∧ (∀ (s : State) (p : Packet), s.live = true →
    (malformed p = false → p.opcode.toNat = 0x10 → 16384 ≤ s.chart.dups.length → s.dupOf p = none → exec (.chartWrite p) s = .next s)
    ∧ exec .duplicateWindowExpiry s
        = .next { s with chart := { s.chart with dups := s.chart.dups.filter (fun d => decide (s.time < d.due)) } })

/-- R167, R168, R234: CHART_SEM_ADD, CHART_SEM_RELEASE, CHART_SEM_WAIT, CHART_SEM_ACQUIRE, SEM_HOLD_EXPIRY and SEM_CANCEL; s is the state
in which the receiver that held the packet is free again, `semTry` answers a request that can complete, `semQueued` says that an acquisition waits behind one
that came before it. The order of arrival (log entry 80) and when the waiters are looked at again (log entry 57) are the model's readings. -/
def Obligations.HomeSemaphores : Prop :=
  (∀ (s0 s : State) (p : Packet) (e : GazEntry) (off a : Nat), s = s0.unbox p → off = p.addr.toNat % 2097152 → a = e.at_ + off →
    serveAt s (nameOf p.addr.toNat) = .at_ e → s.parcelRange e off 16 = true →
    (arrivesHere s0 p 0x12 → unseen s p → exec (.chartSemAdd p) s0
      = .next (((s.semAddTo a (semVal p)).markLines e.name off 16).applied p (s.ack p)))
    ∧ (arrivesHere s0 p 0x13 → unseen s p →
      (leaseOf s a = .live → heldByCtx s a p.src.toNat (semCtxOf p) = true → exec (.chartSemRelease p) s0
        = .next (((s.semFree a).markLines e.name off 16).applied p (s.ack p)))
      ∧ (leaseOf s a ≠ .live ∨ heldByCtx s a p.src.toNat (semCtxOf p) = false → exec (.chartSemRelease p) s0
        = .next (s.applied p { s.ack p with aux := 1 })))
    ∧ (arrivesHere s0 p 0x02 → noErrors s a 16 →
      (∀ t, semTry s p a = some t → exec (.chartSemWait p) s0 = .next (t.markLines e.name off 16))
      ∧ (semTry s p a = none → s.chart.waiters.length < 1024 → exec (.chartSemWait p) s0
        = .next { s with chart := { s.chart with waiters := s.chart.waiters ++ [{ pkt := p, since := s.time, at_ := a, order := semOrder s }] } })
      ∧ (semTry s p a = none → 1024 ≤ s.chart.waiters.length → exec (.chartSemWait p) s0 = .next (s.refuse p 11 10 0 0)))
    ∧ (arrivesHere s0 p 0x03 → noErrors s a 16 →
      (∀ t, semQueued s p a (semOrder s) = false → semTry s p a = some t → exec (.chartSemAcquire p) s0 = .next (t.markLines e.name off 16))
      ∧ (semQueued s p a (semOrder s) = true ∨ semTry s p a = none → s.chart.waiters.length < 1024 → exec (.chartSemAcquire p) s0
        = .next { s with chart := { s.chart with waiters := s.chart.waiters ++ [{ pkt := p, since := s.time, at_ := a, order := semOrder s }] } })
      ∧ (semQueued s p a (semOrder s) = true ∨ semTry s p a = none → 1024 ≤ s.chart.waiters.length →
        exec (.chartSemAcquire p) s0 = .next (s.refuse p 11 10 0 0)))
    ∧ (arrivesHere s0 p 0x04 → ∀ u : State, u = { s with chart := { s.chart with waiters := s.chart.waiters.filter (fun w =>
            !(w.pkt.addr == p.addr && w.pkt.src == p.src && semCtxOf w.pkt == semCtxOf p)) } } →
      (heldByCtx s a p.src.toNat (semCtxOf p) = false → exec (.semCancel p) s0 = .next (u.sendPacket (u.ack p)))
      ∧ (heldByCtx s a p.src.toNat (semCtxOf p) = true → ∀ v : State, v = (u.semFree a).markLines e.name off 16 →
        exec (.semCancel p) s0 = .next (v.sendPacket (v.ack p)))))
  ∧ (∀ (s : State) (i : Nat) (w : Waiter), s.live = true → s.chart.waiters[i]? = some w →
      w.since + 800 * clamp 1 255 (s.inForce CHT.TIMERS2.SEM_HOLD_US) ≤ s.time →
      exec (.semHoldExpiry i) s = .next (State.refuse { s with chart := { s.chart with waiters := s.chart.waiters.eraseIdx i } } w.pkt 10 0 0 0))

/-- R42, R223, R236, R242, R285: CHART_REQUEST_SEND of each kind of item, and OUTBOUND_QUEUE_SEND of a queue's first entry; that a
collective sends in open slots only is the model's reading (log entry 175). -/
def Obligations.ChartSending : Prop :=
  ∀ (s : State) (i : Nat), s.live = true →
    (s.chartOpen = true →
      (∀ c p, (readyList s)[i]? = some (.piece c p) →
        exec (.chartRequestSend i) s = .next (if s.slotIsOpen (partOf c) then s.sendRead c p else s))
      ∧ (∀ c k a, (readyList s)[i]? = some (.cancel c k a) → exec (.chartRequestSend i) s = .next (s.sendCancel c k a))
      ∧ (∀ slot t, (readyList s)[i]? = some (.block slot) → s.chart.outT.find? (fun t => t.slot == slot) = some t →
        exec (.chartRequestSend i) s = .next (s.nextBlock t))
      ∧ (∀ c k r, (readyList s)[i]? = some (.coll c k) → s.collOf c = some r →
        exec (.chartRequestSend i) s = .next (if s.slotIsOpen (partOf (toCore c)) = true
            ∧ s.get (CHT.CREDITS_n.WRITE_FREE (partOf (toCore c))) ≠ 0 then s.sendPiece r k else s))
      ∧ (∀ x y d n, (readyList s)[i]? = some (.abort x y d n) →
        ∀ t : State, t = { s with chart := { s.chart with aborts := s.chart.aborts.erase (x, y, d, n) } } →
        ((∀ k, s.collRec x = some k → k.fin = false) → exec (.chartRequestSend i) s = .next (t.collCtl n 0 x y d))
        ∧ (∀ k, s.collRec x = some k → k.fin = true → exec (.chartRequestSend i) s = .next t))
      ∧ ((readyList s)[i]? = none → exec (.chartRequestSend i) s = .next s))
    ∧ (s.chartOpen = false → exec (.chartRequestSend i) s = .next s)
    ∧ (∀ (n : PartIx) (e : OutEntry) (r : List OutEntry), (s.part n).outq = e :: r → e.state = .released →
      (e.kind.companion = false → e.kind.last = false ∨ (s.part n).failChart = false → s.chartOpen = true →
        exec (.outboundQueueSend n 0) s = .next (s.sendEntry n e))
      ∧ (e.kind.companion = false → e.kind.last = true → (s.part n).failChart = true →
        exec (.outboundQueueSend n 0) s = .next (s.queueFailChart n e))
      ∧ (e.kind.companion = true → s.attached = false ∨ (e.kind.last = true ∧ (s.part n).failFrl = true) →
        exec (.outboundQueueSend n 0) s = .next (s.queueFailFrl n e))
      ∧ (e.kind.companion = true → s.attached = true → e.kind.last = true → (s.part n).failFrl = false → (s.part n).failChart = true →
        exec (.outboundQueueSend n 0) s = .next (s.queueFailChart n e))
      ∧ (e.kind.companion = true → s.attached = true → e.kind.last = false ∨ ((s.part n).failFrl = false ∧ (s.part n).failChart = false) →
        exec (.outboundQueueSend n 0) s = .next (s.sendCompanion n e)))

/-- R171, R231, R237, R238, R240, R245: CHART_READ_DATA, CHART_ACK, SEM_RESULT, CHART_NACK, DIR_ACK, RESPONSE_TIMEOUT, DIRECTORY_TIMEOUT
and RETRY_AFTER_EXPIRY; s is the state in which the receiver that held the packet is free again. Whether a granted acquisition of another
module's semaphore followed an expired lease is a free value (log entry 77); that UNAVAIL_MS is looked at when a resend is due (67) and that
answers are matched by TAG and NONCE (68) are the model's readings. -/
def Obligations.ChartAnswersAndTimers : Prop :=
  (∀ (s0 s : State) (p : Packet), s = s0.unbox p →
    (∀ r c, arrivesHere s0 p 0x20 → s.reqFor p = some r → r.kind = .read c → exec (.chartReadData p) s0
      = .next (((s.forget r).reqBack r.part.val).deliver (toCore c) p.tag.toNat p.payload (badWordsOf p)))
    ∧ (s.reqFor p = none → (arrivesHere s0 p 0x20 → exec (.chartReadData p) s0 = .next (s.late p))
      ∧ (arrivesHere s0 p 0x21 → exec (.chartAck p) s0 = .next (s.late p))
      ∧ (arrivesHere s0 p 0x22 → exec (.semResult p) s0 = .next (s.late p)))
    ∧ (∀ r n id e, arrivesHere s0 p 0x21 → s.reqFor p = some r → r.kind = .queue n id →
      (((s.forget r).creditBack n).part (toPart n)).outq.find? (fun e => e.id == id) = some e →
      (r.pkt.opcode ≠ 0x13 → exec (.chartAck p) s0 = .next (((s.forget r).creditBack n).queueDone (toPart n) id))
      ∧ (r.pkt.opcode = 0x13 → bit p.aux.toNat 0 = false →
        exec (.chartAck p) s0 = .next ((((s.forget r).creditBack n).leaseEnds e).queueDone (toPart n) id))
      ∧ (r.pkt.opcode = 0x13 → bit p.aux.toNat 0 = true →
        exec (.chartAck p) s0 = .next (((((s.forget r).creditBack n).leaseEnds e).chartLeaseLost (toPart n) e).queueDone (toPart n) id)))
    ∧ (∀ r slot k, arrivesHere s0 p 0x21 → s.reqFor p = some r → r.kind = .parcel slot k →
      exec (.chartAck p) s0 = .next ((s.forget r).blockDone slot))
    ∧ (∀ r c g w, arrivesHere s0 p 0x22 → s.reqFor p = some r → r.kind = .sem c →
      ((s.forget r).reqBack r.part.val).seg (toCore c) = some g → semOf g p.tag.toNat = some w →
      (w.opcode = 0x30 → exec (.semResult p) s0 = .next (((s.forget r).reqBack r.part.val).semEnd (toCore c) w.work))
      ∧ (w.opcode = 0x32 → exec (.semResult p) s0
        = .next ((((s.forget r).reqBack r.part.val).semGot (toCore c) g w.addr p.tag.toNat).semEnd (toCore c) w.work)))
    ∧ (∀ r, arrivesHere s0 p 0x23 → s.reqFor p = some r → exec (.chartNack p) s0 = .next (s.reqNack r p))
    ∧ (∀ d, arrivesHere s0 p 0x23 → s.reqFor p = none → s.dirFor p = some d → exec (.chartNack p) s0 = .next (s.dirNack d p))
    ∧ (arrivesHere s0 p 0x23 → s.reqFor p = none → s.dirFor p = none →
      (∀ t, s.refusedTicket p = some t → exec (.chartNack p) s0 = .next (s.releaseRefused t))
      ∧ (s.refusedTicket p = none → exec (.chartNack p) s0 = .next (s.late p)))
    ∧ (∀ d i, arrivesHere s0 p 0x3F → s.dirFor p = some d → d.kind = .ring i → exec (.dirAck p) s0 = .next (s.ringAnswer d i p))
    ∧ (∀ d, arrivesHere s0 p 0x3F → s.dirFor p = some d → d.kind = .plain →
      (p.status.toNat ∉ [2, 3, 10, 11] → exec (.dirAck p) s0 = .next (s.forgetDir d))
      ∧ (p.status.toNat ∈ [2, 3, 10, 11] →
        exec (.dirAck p) s0 = .next (s.modDir d (fun x => { x with again := some (s.time + 800 * p.retry.toNat) }))))
    ∧ (arrivesHere s0 p 0x3F → s.dirFor p = none → exec (.dirAck p) s0 = .next (s.late p)))
  ∧ (∀ (s : State) (i : Nat), s.live = true →
    (∀ r, s.chart.reqs[i]? = some r →
      (r.again = none → r.sent + 800 * clamp 10 10000 (s.inForce CHT.TIMERS.RESP_US) ≤ s.time →
        exec (.responseTimeout i) s = .next (s.attemptOver r))
      ∧ (s.time < r.sent + 800 * clamp 10 10000 (s.inForce CHT.TIMERS.RESP_US) → exec (.responseTimeout i) s = .next s)
      ∧ (∀ t, r.again = some t → t ≤ s.time →
        (s.unavailOver r.first = true → exec (.retryAfterExpiry i) s = .next (s.reqFailed r r.last))
        ∧ (s.unavailOver r.first = false → exec (.retryAfterExpiry i) s = .next (s.resend r (fun q => { q with hops := 0 })))))
    ∧ (∀ d, s.chart.dirs[i]? = some d → d.again = none → d.sent + 800 * clamp 10 65535 (s.inForce CHT.DIR.DIR_US) ≤ s.time →
        exec (.directoryTimeout i) s = .next (s.dirOver d))
    ∧ (∀ d t, s.chart.dirs[i]? = some d → d.kind = .plain → d.again = some t → t ≤ s.time → d.tagged = false ∨ s.unavailOver d.first = false →
        exec (.retryAfterExpiry (s.chart.reqs.length + i)) s = .next (s.resendDir d d.pkt.dst.toNat id)))

/-- R163, R210: `extWrite`, the write that CHART_WRITE and MWR make, of whole words at a word address, where no page of a flip that waits
for a latch and no line in error is met; `wroteWet` says that a segment has written, as wet ink, a line that the write covers a byte of. The
write goes to the dry page, and what it covers of such lines is lost at the flip. -/
def Obligations.ExternalWrite : Prop :=
  ∀ (s : State) (a : Nat) (bs : List Byte) (bad : List Nat),
    (∀ n, ∀ d ∈ (s.part n).deferred, ∀ w ∈ d.pages, ¬(a < w.dry + 65536 ∧ w.dry < a + bs.length)) → s.errsIn a bs.length = [] →
    a % 4 = 0 → bs.length % 4 = 0 → (∀ o ∈ bad, o < bs.length) →
    (∀ i : Nat, i < bs.length → (s.extWrite a bs bad).rd8 (a + i) = bs.getD i 0)
    ∧ (∀ b : Nat, b < a ∨ a + bs.length ≤ b → (s.extWrite a bs bad).rd8 b = s.rd8 b
        ∧ (s.extWrite a bs bad).poisoned b = s.poisoned b)
    ∧ (∀ i : Nat, i < bs.length → ((s.extWrite a bs bad).poisoned (a + i) = true ↔ ∃ o ∈ bad, (a + o) / 4 = (a + i) / 4))
    ∧ ((∀ c, wroteWet s c a bs.length = false) → (s.extWrite a bs bad).regs = s.regs)
    ∧ (∀ c, wroteWet s c a bs.length = true → (∀ d, d ≠ c → wroteWet s d a bs.length = false) →
        (s.extWrite a bs bad).get (WET.STATUS_n.CLOBBERED (partOf c)) = (s.get (WET.STATUS_n.CLOBBERED (partOf c)) + 1) % 2 ^ 16
        ∧ sameFieldsBut [WET.STATUS_n.CLOBBERED (partOf c)] s (s.extWrite a bs bad))
    ∧ (∀ c, (s.extWrite a bs bad).seg c = s.seg c)

/-- R155, R254 to R256: COLLECTIVE, COLL_DATA, COLL_CTL_ABORT, COLL_CTL_DONE and COLL_CTL_FINAL. That a COLL_CTL of a collective without a
run is answered NOT_YET (log entry 79) and that MEMBERS, CHUNK and BUFFER out of their ranges run as they read (159) are the model's
readings. -/
def Obligations.Collectives : Prop :=
  (∀ (s : State) (c : CoreIx) (g : Seg) (b d tab : List Byte) (rank n : Nat), s.seg c = some g →
    (ready s c 0x22 = some (g, b) →
      ((s.core c).coll.isSome = true → exec (.collective c) s = .next s)
      ∧ (plainOk b 0x10 = false → (s.core c).coll = none → exec (.collective c) s = .next (s.descFault c 0 1))
      ∧ (plainOk b 0x10 = true → (s.core c).coll = none → translated s c g.ctx [(fieldAt b 8 8, 64, false)] →
        localSound s c g.ctx [(fieldAt b 8 8, 64)] → d = (objRead s c g.ctx (fieldAt b 8 8) 64).1 →
        rank = bits (fieldAt d 8 4) 11 0 → n = bits (fieldAt d 8 4) 24 12 → zeroBits (fieldAt d 0 4) 31 2 = true →
        zeroBits (fieldAt d 8 4) 31 25 = true → zeroBytes d 0x24 0x40 = true →
        (bits (fieldAt d 0 4) 1 0 = 0 ∨ bits (fieldAt d 0 4) 1 0 = 3 ∨ fieldAt d 4 4 = 0 ∨ n ≤ rank →
          exec (.collective c) s = .next (s.descFault c (fieldAt b 8 8) 7))
        ∧ (bits (fieldAt d 0 4) 1 0 = 1 ∨ bits (fieldAt d 0 4) 1 0 = 2 → fieldAt d 4 4 ≠ 0 → rank < n →
          translated s c g.ctx [(fieldAt d 0x10 8, 2 * n, false)] →
          localSound s c g.ctx [(fieldAt d 0x10 8, 2 * n)] → tab = (objRead s c g.ctx (fieldAt d 0x10 8) (2 * n)).1 →
          (bits (fieldAt tab (2 * (rank % n)) 2) 11 0 ≠ s.selfModule → exec (.collective c) s = .next (s.descFault c (fieldAt b 8 8) 7))
          ∧ (bits (fieldAt tab (2 * (rank % n)) 2) 11 0 = s.selfModule → translated s c g.ctx [(fieldAt d 0x18 8, n * fieldAt d 0x20 4, true)] →
            (bufferFar s c g.ctx (fieldAt d 0x18 8) (n * fieldAt d 0x20 4) = true →
              exec (.collective c) s = .next (s.descFault c (fieldAt d 0x18 8) 7))
            ∧ (bufferFar s c g.ctx (fieldAt d 0x18 8) (n * fieldAt d 0x20 4) = false →
              exec (.collective c) s = .next (s.collStart c g b d (bits (fieldAt tab (2 * ((rank + 1) % n)) 2) 11 0)
                (bits (fieldAt tab (2 * ((rank + n - 1) % n)) 2) 11 0))))))))
  ∧ (∀ (s0 s : State) (p : Packet) (id att : Nat), s = s0.unbox p → s.chartOpen = true →
    (∀ r : CollRun, arrivesHere s0 p 0x15 → unseen s p → s.collId (bits p.addr.toNat 31 0) = some r → att = bits p.addr.toNat 47 32 →
      (att = r.attempt → exec (.collData p) s0 = .next (s.takePiece r p))
      ∧ (∀ x, att ≠ r.attempt → newer att r.attempt = true → (s.collRestart r att).collId (bits p.addr.toNat 31 0) = some x →
        exec (.collData p) s0 = .next ((s.collRestart r att).takePiece x p))
      ∧ (att ≠ r.attempt → newer att r.attempt = false → exec (.collData p) s0 = .next (s.refuse p 8 0 0 0)))
    ∧ (arrivesHere s0 p 0x3E → id = bits p.addr.toNat 31 0 → att = bits p.aux.toNat 31 16 →
      (bits p.aux.toNat 1 0 = 0 → s.collId id = none → s.collRec id = none → exec (.collCtlAbort p) s0
        = .next ((s.putRec { id := id, attempt := att }).dirAck p 0 0))
      ∧ (∀ r, bits p.aux.toNat 1 0 = 0 → s.collId id = some r → newer att r.attempt = false →
        exec (.collCtlAbort p) s0 = .next (s.dirAck p 0 0))
      ∧ (bits p.aux.toNat 1 0 = 1 → s.collId id = none → exec (.collCtlDone p) s0 = .next (s.dirAck p 10 10))
      ∧ (∀ r, bits p.aux.toNat 1 0 = 1 → s.collId id = some r → att = r.attempt → r.rank = 0 → r.passed = true →
        exec (.collCtlDone p) s0 = .next ((s.dirAck p 0 0).collFinal id att p.part.val (some r.next)))
      ∧ (∀ k, bits p.aux.toNat 1 0 = 2 → s.collRec id = some k → k.fin = false →
        exec (.collCtlFinal p) s0 = .next ((s.dirAck p 0 0).collFinal id att p.part.val k.next))
      ∧ (∀ k, bits p.aux.toNat 1 0 = 2 → s.collRec id = some k → k.fin = true → exec (.collCtlFinal p) s0 = .next (s.dirAck p 0 0))
      ∧ (bits p.aux.toNat 1 0 = 2 → s.collRec id = none →
        exec (.collCtlFinal p) s0 = .next ((s.dirAck p 0 0).collFinal id att p.part.val none))
      ∧ (∀ r, bits p.aux.toNat 1 0 = 1 → s.collId id = some r → att = r.attempt → r.rank ≠ 0 → exec (.collCtlDone p) s0
        = .next (((s.modColl r.core (fun x => { x with done_ := true })).dirAck p 0 0).collDone r.core))
      ∧ (∀ r, bits p.aux.toNat 1 0 = 0 → s.collId id = some r → newer att r.attempt = true → r.fin = false →
        ∀ t : State, t = s.collRestart r att →
        (∀ d, onward p (some r.next) (some r.prev) = some d → exec (.collCtlAbort p) s0 = .next ((t.collCtl p.part.val 0 id att d).dirAck p 0 0))
        ∧ (onward p (some r.next) (some r.prev) = none → exec (.collCtlAbort p) s0 = .next (t.dirAck p 0 0)))))

/-- R244 to R247: TICKET_REQ, TICKET_OFFER, TICKET_ANSWER, COMMIT, PREPARED, CHART_RELEASE and RELEASE_ACK; s is the state in which the
receiver that held the packet is free again. That RELEASE acts in IN_DOUBT as in PREPARED (log entry 72) and that a request for a parcel on
the move is answered as `reqActive` says (log entry 73) are the model's readings. -/
def Obligations.TicketHandover : Prop :=
  ∀ (s0 s : State) (p : Packet), s = s0.unbox p →
    (arrivesHere s0 p 0x30 →
      (s.chartOpen = false → exec (.ticketReq p) s0 = .next (s.dirAck p 3 100))
      ∧ (s.chartOpen = true → s.gazAt (pktName p) = none → exec (.ticketReq p) s0
        = .next (s.dirAck p (if s.isOrigin (pktName p) then 5 else 4) 0))
      ∧ (∀ e, s.chartOpen = true → s.gazAt (pktName p) = some e →
        (∀ t, e.st = .home → s.outOf (pktName p) = some t → exec (.ticketReq p) s0 = .next (s.reqActive p t))
        ∧ (e.st = .home → s.outOf (pktName p) = none → exec (.ticketReq p) s0 = .next (s.reqIdle p e))
        ∧ (e.st = .forward ∨ e.st = .receiving → exec (.ticketReq p) s0
          = .next (s.sendPacket { s.answer p 3 0x3F 1 with aux := BitVec.ofNat 32 e.module, epoch := BitVec.ofNat 16 e.epoch }))
        ∧ (e.st = .prepared ∨ e.st = .inDoubt → exec (.ticketReq p) s0 = .next (s.dirAck p 3 100))
        ∧ (e.st = .lost → exec (.ticketReq p) s0 = .next (s.dirAck p 6 0))))
    ∧ (arrivesHere s0 p 0x31 →
      (s.chartOpen = false → exec (.ticketOffer p) s0 = .next (s.ticketAnswer p 3))
      ∧ (s.chartOpen = true → s.inId (tkId p) = none → absent (s.gazAt (pktName p)) = false → exec (.ticketOffer p) s0 = .next s)
      ∧ (∀ i b t, s.chartOpen = true → s.inId (tkId p) = none → absent (s.gazAt (pktName p)) = true →
        ((s.gazAt (pktName p)).isSome || s.hasWay (pktName p)) = true →
        (List.range 64).find? (fun i => s.chart.inT.all (fun t => t.slot != i)) = some i →
        s.slotRefusal (toPart (tkPart p)) (tkTier p) true = none → s.popHost (toPart (tkPart p)) (tkTier p) = some (b, t) →
        exec (.ticketOffer p) s0 = .next (t.receive p b i)))
    ∧ (∀ t, arrivesHere s0 p 0x32 → s.outId p.nonce.toNat = some t →
      (t.phase = .offered → p.status = 0 → exec (.ticketAnswer p) s0
        = .next ((s.dropDirs (fun d => d.kind == .offer t.slot)).modOut t.slot (fun t => { t with phase := .copying })))
      ∧ (t.phase = .offered → p.status.toNat ≠ 0 → exec (.ticketAnswer p) s0 = .next (s.endTicket t (ringStatus p.status.toNat)))
      ∧ (t.phase = .forwarded → exec (.ticketAnswer p) s0 = .next s))
    ∧ (arrivesHere s0 p 0x33 → s.chartOpen = false → exec (.commit p) s0 = .next (s.nack p 3 100))
    ∧ (arrivesHere s0 p 0x35 → s.chartOpen = false → exec (.chartRelease p) s0 = .next (s.nack p 3 100))
    ∧ (arrivesHere s0 p 0x33 → s.chartOpen = true →
      (∀ t e, s.inId p.nonce.toNat = some t → s.gazAt (pktName p) = some e → e.st = .receiving → Completes (.commit p) s0 (fun u =>
        ∃ v : State, v = (s.modGaz e.name (fun e =>
          { e with st := .prepared, epoch := (p.epoch.toNat + 1) % 65536, hold := tkPromoter p })).heard t.id ∧ u = v.sendPacket (v.answer p 3 0x34 0)))
      ∧ (s.inId p.nonce.toNat = none → s.chart.doneIn.contains p.nonce.toNat = true →
        exec (.commit p) s0 = .next (s.sendPacket (s.answer p 3 0x34 0)))
      ∧ (s.inId p.nonce.toNat = none → s.chart.doneIn.contains p.nonce.toNat = false → absent (s.gazAt (pktName p)) = true →
        exec (.commit p) s0 = .next (s.nack p 8 0)))
    ∧ (∀ t, arrivesHere s0 p 0x34 → s.outId p.nonce.toNat = some t →
      (t.phase = .frozen → exec (.prepared p) s0 = .next (s.forwardParcel t))
      ∧ (t.phase ≠ .frozen → exec (.prepared p) s0 = .next s))
    ∧ (∀ t e, arrivesHere s0 p 0x35 → s.chartOpen = true → s.inId p.nonce.toNat = some t → s.gazAt (pktName p) = some e →
      (e.st = .prepared ∨ e.st = .inDoubt → exec (.chartRelease p) s0 = .next (s.becomeHome t p))
      ∧ (e.st = .receiving → exec (.chartRelease p) s0 = .next s))
    ∧ (∀ t, arrivesHere s0 p 0x36 → s.outId p.nonce.toNat = some t →
      (t.phase = .forwarded → exec (.releaseAck p) s0 = .next (s.settle t))
      ∧ (t.phase ≠ .forwarded → exec (.releaseAck p) s0 = .next s))

/-- ABORT, STATUS_QUERY, STATUS_ANSWER, PARCEL_DATA, POINTER_UPDATE, FREED, TICKET_DONE, LANDED, TICKET_RING_ENTRY, RECEIVING_TIMEOUT and
PREPARED_TIMEOUT; s is the state in which the receiver that held the packet is free again. That PARCEL_DATA is still written in PREPARED (log
entry 71) and that a ring entry whose name has low bits set is refused (log entry 74) are the model's readings. -/
def Obligations.TicketMessages : Prop :=
  (∀ (s0 s : State) (p : Packet), s = s0.unbox p →
    (s.chartOpen = false → (arrivesHere s0 p 0x37 → exec (.abort p) s0 = .next (s.dirAck p 3 100))
      ∧ (arrivesHere s0 p 0x38 → exec (.statusQuery p) s0 = .next (s.sendPacket { s.answer p 3 0x39 3 with retry := 100 }))
      ∧ (arrivesHere s0 p 0x3C → exec (.ticketDone p) s0 = .next (s.dirAck p 3 100))
      ∧ (arrivesHere s0 p 0x3D → exec (.landed p) s0 = .next (s.dirAck p 3 100)))
    ∧ (∀ t e, arrivesHere s0 p 0x37 → s.chartOpen = true → s.inId p.nonce.toNat = some t → s.gazAt (pktName p) = some e →
      (e.st = .receiving ∨ e.st = .prepared → exec (.abort p) s0 = .next ((s.restore t).dirAck p 0 0))
      ∧ (e.st = .home → exec (.abort p) s0 = .next (s.dirAck p 0 0)))
    ∧ (arrivesHere s0 p 0x38 → s.chartOpen = true →
      (∀ e, s.gazAt (pktName p) = some e → exec (.statusQuery p) s0
        = .next (s.sendPacket { s.answer p 3 0x39 0 with aux := BitVec.ofNat 32 (gazCode e.st + 8 * e.module) }))
      ∧ (s.gazAt (pktName p) = none → exec (.statusQuery p) s0 = .next (s.sendPacket { s.answer p 3 0x39 0 with aux := 0 })))
    ∧ (∀ t e, arrivesHere s0 p 0x39 → p.status = 0 → s.inId p.nonce.toNat = some t → s.gazAt (pktName p) = some e → e.st = .prepared →
      (bits p.aux.toNat 2 0 = 2 → bits p.aux.toNat 14 3 = s.selfModule → exec (.statusAnswer p) s0 = .next (s.becomeHome t p))
      ∧ (bits p.aux.toNat 2 0 ≠ 2 ∨ bits p.aux.toNat 14 3 ≠ s.selfModule → exec (.statusAnswer p) s0 = .next (s.restore t)))
    ∧ (∀ d, arrivesHere s0 p 0x39 → p.status ≠ 0 → s.dirFor p = some d → exec (.statusAnswer p) s0
      = .next (s.modDir d (fun x => { x with again := some (s.time + 800 * p.retry.toNat) })))
    ∧ (∀ t e, arrivesHere s0 p 0x14 → unseen s p → s.chartOpen = true → s.inOf (pktName p) = some t → s.gazAt (pktName p) = some e →
      (t.src = p.src.toNat → s.storageOut e.base = false → Completes (.parcelData p) s0 (fun u => ∃ v : State,
        v = (((s.wrBytes (e.at_ + p.addr.toNat % 2097152) p.payload).poisonAt (e.at_ + p.addr.toNat % 2097152) (badWordsOf p)).wrote
          (e.at_ + p.addr.toNat % 2097152) p.payload.length).heard t.id
          ∧ u = v.applied p (v.ack p)))
      ∧ (t.src ≠ p.src.toNat → exec (.parcelData p) s0 = .next (s.refuse p 8 0 0 0)))
    ∧ (∀ e, arrivesHere s0 p 0x3A → s.chartOpen = true → s.gazAt (pktName p) = some e →
      (e.st = .forward → e.origin = true → newer p.epoch.toNat e.epoch = true → exec (.pointerUpdate p) s0
        = .next ((s.modGaz e.name (fun e => { e with module := bits p.aux.toNat 11 0, epoch := p.epoch.toNat })).dirAck p 0 0))
      ∧ (newer p.epoch.toNat e.epoch = false → exec (.pointerUpdate p) s0 = .next (s.dirAck p 0 0)))
    ∧ (∀ e, arrivesHere s0 p 0x3B → s.chartOpen = true → s.gazAt (pktName p) = some e →
      (e.st = .forward → e.origin = true → newer e.epoch p.epoch.toNat = false → exec (.freed p) s0
        = .next ((s.freeGaz e.name).dirAck p 0 0))
      ∧ (e.st = .home → exec (.freed p) s0 = .next (s.dirAck p 0 0)))
    ∧ (arrivesHere s0 p 0x3C → s.chartOpen = true →
      (∀ e, s.chart.ring.find? (fun e => e.id == p.nonce.toNat && !e.final) = some e → exec (.ticketDone p) s0
        = .next (((s.dropDirs (fun d => d.kind == .ring e.index)).ringFinal e.index (bits p.aux.toNat 3 0) p.epoch.toNat).dirAck p 0 0))
      ∧ (s.chart.ring = [] → exec (.ticketDone p) s0 = .next (s.dirAck p 0 0)))
    ∧ (arrivesHere s0 p 0x3D → s.chartOpen = true →
      (∀ e, s.chart.ring.find? (fun e => e.id == p.nonce.toNat && e.wait && !e.final) = some e → exec (.landed p) s0
        = .next (((s.modRing e.index (fun x => { x with wait := false })).askTicket e.index e.id (bits p.aux.toNat 11 0)).dirAck p 0 0))
      ∧ (s.chart.ring = [] → exec (.landed p) s0 = .next (s.dirAck p 0 0))))
  ∧ (∀ s : State, s.live = true →
    (∀ (i : Nat) (x : State), s.chartOpen = true → i = (s.get GAZ.TRING_HEAD.INDEX + s.chart.taken) % 65536 →
      i % s.tringSize ≠ s.get GAZ.TRING_TAIL.INDEX % s.tringSize → (s.chart.ring.filter (fun e => !e.final)).length < 16 →
      s.chart.taken < s.tringSize →
      x = { s with chart := { s.chart with
        ring := s.chart.ring ++ [{ index := i, id := s.selfModule * 2 ^ 20 + s.chart.ticketNo % 2 ^ 20 }]
        taken := s.chart.taken + 1
        ticketNo := s.chart.ticketNo + 1 } } →
      (bits (s.rdLE (s.tringAt i + 8) 4) 15 14 = 3 ∨ bits (s.rdLE (s.tringAt i + 8) 4) 17 16 ∉ [1, 2] ∨ s.rdLE (s.tringAt i) 8 % 2097152 ≠ 0 →
        exec .ticketRingEntry s = .next (x.ringFinal i 3 0))
      ∧ (bits (s.rdLE (s.tringAt i + 8) 4) 15 14 ≠ 3 → bits (s.rdLE (s.tringAt i + 8) 4) 17 16 ∈ [1, 2] →
        s.rdLE (s.tringAt i) 8 % 2097152 = 0 →
        exec .ticketRingEntry s = .next ((x.target (nameOf (s.rdLE (s.tringAt i) 8))).2.askTicket i
          (s.selfModule * 2 ^ 20 + s.chart.ticketNo % 2 ^ 20) (x.target (nameOf (s.rdLE (s.tringAt i) 8))).1)))
    ∧ (∀ (name : BitVec 43) t e, s.inOf name.toNat = some t → s.gazAt name.toNat = some e →
      (e.st = .receiving → t.last + 800 * clamp 10 65535 (s.inForce CHT.DIR.DIR_US) * (clamp 1 255 (s.inForce CHT.TIMERS2.DIR_RETRIES) + 1)
          ≤ s.time → exec (.receivingTimeout name) s = .next (s.restore t))
      ∧ (e.st = .prepared → e.time + 800 * clamp 10 65535 (s.inForce CHT.DIR.DIR_US) ≤ s.time →
        (∀ d ∈ s.chart.dirs, d.kind ≠ .query t.slot) →
        exec (.preparedTimeout name) s = .next (s.sendDir (s.dirMsg (slotPart e.base) 0x38 t.src t.id t.name e.epoch 0) (.query t.slot)))))

/-- PEN_LIFT, WET_PAGE_FLIP and PEN_LIFT_COMPLETE (`liftStart` is L of R158 and `fillTime` is F; `landFlips` is the end of an aclk, at which
the lifts whose C it is land: the merges of all, `flip`, then their scale steps; `countLift` writes the counters of the lift, `killDue`
says that a kill of this aclk comes first, R176); WET_CONFLICT_END, INK_HOLD_END, SEQ_CTRL_KILL, SEQUENCER_READY and DRY_PAGE_RETURN. That
INK_HOLD_END needs room in some pool only (log entry 42), and that a wet page's owner is named by its core and GEN (48) and gone from C of its
lift on (47), are the model's choices. -/
def Obligations.LiftsHoldsAndKills : Prop :=
  (∀ (s : State) (c : CoreIx) (g : Seg) (l : LiftSt), s.advances (partOf c) = true → s.seg c = some g → g.lift = some l →
    (l.begun = false → g.work = [] → exec (.penLift c) s = .next (s.modSeg c (fun h => { h with lift := some { l with
        begun := true, dueC := liftStart g (s.slot (partOf c)) + fillTime g + 8, tierTo := s.slot (partOf c) + fillFar g } })))
    ∧ (g.work ≠ [] → exec (.penLift c) s = .next s)
    ∧ (l.begun = true → l.flipped = false → l.dueC ≤ s.slot (partOf c) →
      (∀ o ∈ g.semOps, o.delta = none → fencedFor s c o.addr = false) →
      (failedRelease s g = none → killDue s c = false →
        exec (.wetPageFlip c) s = .next (s.modSeg c (fun h => { h with lift := some { l with atC := true } })))
      ∧ (failedRelease s g = none → killDue s c = true → exec (.wetPageFlip c) s = .next s)
      ∧ (∀ o, failedRelease s g = some o → exec (.wetPageFlip c) s = .next (s.leaseLost c g o)))
    ∧ (s.slot (partOf c) < l.dueC → exec (.wetPageFlip c) s = .next s)
    ∧ (∀ u v : State, l.flipped = true → l.atC = false → l.dueS ≤ s.slot (partOf c) →
      u = ((((g.semOps.foldl (fun t o => t.semOp c g.ctx o) s).releaseQueue c).failDetached (partOf c)).countLift c g) →
      v = (if (s.core c).stepWork.isSome then (u.modCore c (fun k => { k with stepWork := none })).put (DBG.CORE_c.STEPPING c) 0 else u) →
      (keepsCore v c g l = false → exec (.penLiftComplete c) s = .next ((v.leaveCore c g l).pick c))
      ∧ (keepsCore v c g l = true → exec (.penLiftComplete c) s
        = .next ((v.modCore c (fun k => { k with seg := some (newSeg v c g.ctx g.row 2) })).showSeg c g.ctx))))
  ∧ (∀ (s : State) (c : CoreIx) (g : Seg) (l : LiftSt), s.seg c = some g → g.lift = some l →
    (l.atC = true → s.landMerge c = s.flip c g l
      ∧ s.landSteps c = (g.steps.foldl (fun t i => t.scaleStep (partOf c) i g.ctx) s).modSeg c (fun h =>
        { h with steps := [], lift := some { l with atC := false } }))
    ∧ (l.atC = false → s.landMerge c = s ∧ s.landSteps c = s)
    ∧ s.landFlips = forCores allCores (fun c t => t.landSteps c) (forCores allCores (fun c t => t.landMerge c) s))
  ∧ (∀ (s : State) (c : CoreIx) (n : PartIx) (g : Seg) (d gen : Nat),
    (s.seg c = some g → (s.core c).conflict = [] → g.heldBy ≠ [] → (∀ p ∈ g.heldBy, ownerGone s p.1 p.2.1 = true) →
      exec (.wetConflictEnd c) s = .next (((s.modCore c (fun k => { k with conflict := [] })).modSeg c
        (fun h => { h with heldBy := [] })).put (SEQ.STATE.STATE c) (if g.lift.isSome then 3 else 1)))
    ∧ (∀ k, s.seg c = none → (s.core c).conflict = [(k, d, gen)] → ownerGone s d gen = true →
      exec (.wetConflictEnd c) s = .next ((s.modCore c (fun q => { q with conflict := [] })).pickGroup k))
    ∧ ((s.part (partOf c)).poolFree.any (fun l => !l.isEmpty) = true → 0 < s.outqFree (partOf c) →
      exec (.inkHoldEnd c) s = .next (s.modSeg c (fun g => { g with poolHold := false, queueHold := false })))
    ∧ (∀ u : State, s.runs (partOf c) = true → u = s.afterBoundary (partOf c) →
      (killable u c = true → exec (.seqCtrlKill c) s = .next (u.killSeg c 10))
      ∧ (killable u c = false → exec (.seqCtrlKill c) s = .next (u.killAlso c 10) ∧ (u.killedNow c = none → u.killAlso c 10 = u)))
    ∧ (s.runs (partOf c) = true → s.get (SEQ.STATE.STATE c) = 4 → (s.core c).seg = none → (s.core c).canIssue ≤ s.time →
      exec (.sequencerReady c) s = .next ((s.put (SEQ.STATE.STATE c) 0).pick c))
    ∧ (∀ w r, (s.part n).dryWait = w :: r → exec (.dryPageReturn n) s
      = .next ((s.modPart n (fun p => { p with dryWait := r })).pushPool n w.1 (w.2 / 65536)))
    ∧ (∀ w r, (s.part n).dryWait = [] → (s.part n).pushWait = w :: r → exec (.dryPageReturn n) s
      = .next ((s.modPart n (fun p => { p with pushWait := r })).pushFrame n w.1 w.2.1 w.2.2))
    ∧ ((s.part n).dryWait = [] → (s.part n).pushWait = [] → exec (.dryPageReturn n) s = .next s))

/-- R176, by the context's state in `u`, the state after a stroke boundary of the aclk (R49): 0 DISABLED, 1 READY, 2 RUNNING, 3 HELD,
4 HALTED. `killedCtx`: the context's segment was killed in this aclk; `acted`: the strongest action that has reached it in this aclk. -/
def Obligations.ContextActions : Prop :=
  ∀ (s u : State) (k : CtxIx), s.served = true → u = s.afterBoundary (ctxPart k.val) →
    exec (.clearEvents k) s = .next (u.ctxWr k.val 0x34 2 0)
    ∧ (u.ctxState k.val = 0 → exec (.enable k) s = .next ((u.ctxSetBoundaryKills k.val 0).makeReady k.val))
    ∧ (u.ctxState k.val = 3 → exec (.resume k) s = .next (u.makeReady k.val))
    ∧ (u.ctxState k.val = 4 → exec (.resume k) s = .next ((u.ctxSetBoundaryKills k.val 0).makeReady k.val))
    ∧ ((u.ctxState k.val = 1 ∨ u.ctxState k.val = 2 ∨ u.ctxState k.val = 3 ∨ u.ctxState k.val = 4) →
      exec (.enable k) s = .next (u.flag (SCH.STATUS_n.CMD_ERR (ctxPart k.val)) 1))
    ∧ ((u.ctxState k.val = 0 ∨ u.ctxState k.val = 1 ∨ u.ctxState k.val = 2) →
      exec (.resume k) s = .next (u.flag (SCH.STATUS_n.CMD_ERR (ctxPart k.val)) 1))
    ∧ (u.ctxState k.val = 2 →
      exec (.disable k) s = .next ((u.actOnRunning k.val 2).noteAct k.val 2)
      ∧ exec (.preempt k) s = .next ((u.actOnRunning k.val 3).noteAct k.val 3)
      ∧ exec (.preemptHold k) s = .next ((u.actOnRunning k.val 4).noteAct k.val 4)
      ∧ exec (.halt k) s = .next ((u.actOnRunning k.val 6).noteAct k.val 6))
    ∧ (killedCtx u k.val = none → u.acted k.val = none →
      (u.ctxState k.val = 1 →
        exec (.disable k) s = .next ((u.ctxSetState k.val 0).noteAct k.val 2) ∧ exec (.preempt k) s = .next (u.noteAct k.val 3)
        ∧ exec (.preemptHold k) s = .next ((u.ctxSetState k.val 3).noteAct k.val 4)
        ∧ exec (.halt k) s = .next ((u.haltCtx k.val 0).noteAct k.val 6))
      ∧ (u.ctxState k.val = 3 →
        exec (.disable k) s = .next ((u.ctxSetState k.val 0).noteAct k.val 2)
        ∧ exec (.halt k) s = .next ((u.haltCtx k.val 0).noteAct k.val 6))
      ∧ (u.ctxState k.val = 4 → exec (.disable k) s = .next ((u.ctxSetState k.val 0).noteAct k.val 2))
      ∧ ((u.ctxState k.val = 0 ∨ u.ctxState k.val = 3 ∨ u.ctxState k.val = 4) → ∀ x ∈ [Instr.preempt k, .preemptHold k],
        exec x s = .next (u.flag (SCH.STATUS_n.CMD_ERR (ctxPart k.val)) 1))
      ∧ (u.ctxState k.val = 0 → exec (.disable k) s = .next (u.flag (SCH.STATUS_n.CMD_ERR (ctxPart k.val)) 1))
      ∧ ((u.ctxState k.val = 0 ∨ u.ctxState k.val = 4) →
        exec (.halt k) s = .next (u.flag (SCH.STATUS_n.CMD_ERR (ctxPart k.val)) 1)))
    ∧ (killedCtx u k.val = none → u.ctxState k.val ≠ 2 → ∀ b, u.acted k.val = some b →
      (strongerAction b 2 = b → exec (.disable k) s = .next (u.noteAct k.val 2))
      ∧ (strongerAction b 2 ≠ b → exec (.disable k) s = .next ((u.ctxSetState k.val 0).noteAct k.val 2))
      ∧ (strongerAction b 3 = b → exec (.preempt k) s = .next (u.noteAct k.val 3))
      ∧ (strongerAction b 4 = b → exec (.preemptHold k) s = .next (u.noteAct k.val 4))
      ∧ (strongerAction b 4 ≠ b → exec (.preemptHold k) s = .next ((u.ctxSetState k.val 3).noteAct k.val 4))
      ∧ (strongerAction b 6 = b → exec (.halt k) s = .next (u.noteAct k.val 6))
      ∧ (strongerAction b 6 ≠ b → exec (.halt k) s = .next ((u.haltCtx k.val 0).noteAct k.val 6)))
    ∧ (∀ c, killedCtx u k.val = some c → u.ctxState k.val = 4 →
      exec (.disable k) s = .next (u.noteAct k.val 2) ∧ exec (.preempt k) s = .next (u.noteAct k.val 3)
      ∧ exec (.preemptHold k) s = .next (u.noteAct k.val 4)
      ∧ ((u.killAlso c 10).ctxState k.val = 4 → exec (.halt k) s = .next ((u.killAlso c 10).noteAct k.val 6)))

/-- HARD_ROW_START, PREEMPTION_POINT, HARD_ROW_END, ELASTIC_ROW_START, ELASTIC_ROW_END, CONTEXT_LOAD, PICK_POLL and TIER_DEADLINE. That the
row a hard row pre-empts does not go on, that an elastic row which would start in the aclk of a pre-emption point is skipped, and that the
poll counts from the last pick are the model's choices (log entry 158). -/
def Obligations.StrokeRows : Prop :=
  ∀ (s : State) (c : CoreIx) (r : Fin 1024), s.issues (partOf c) = true →
    (rowRuns s (partOf c) r.val = true → rowHard s (partOf c) r.val = true → rowStart s (partOf c) r.val ≤ s.time →
      exec (.hardRowStart (partOf c) r) s = .next (forCores (coresOf (partOf c)) (fun d t =>
        if rowOn t d r.val && !rowPast t d r.val && !killable t d then ((t.clearFor d r.val).beginRow d r.val).pick d else t) s))
    ∧ (s.time < rowStart s (partOf c) r.val → exec (.hardRowStart (partOf c) r) s = .next s)
    ∧ (rowOn s c r.val = true → rowHard s (partOf c) r.val = true → rowPast s c r.val = false → rowPoint s (partOf c) r.val ≤ s.time →
      (killable (s.clearFor c r.val) c = true → exec (.preemptionPoint c r) s = .next ((s.clearFor c r.val).killSeg c 2))
      ∧ (killable (s.clearFor c r.val) c = false → exec (.preemptionPoint c r) s = .next (s.clearFor c r.val)))
    ∧ (∀ v, v = s.modCore c (fun k => { k with row := none }) → (s.core c).row = some r.val → rowEnd s (partOf c) r.val ≤ s.time →
      (rowHard s (partOf c) r.val = true →
        (∀ g, v.seg c = some g → killable v c = true → exec (.hardRowEnd c r) s = .next ((v.boundaryLog c g).killSeg c 1))
        ∧ (∀ g, v.seg c = some g → killable v c = false → exec (.hardRowEnd c r) s = .next v)
        ∧ (∀ x, v.seg c = none → v.killedNow c = some x → exec (.hardRowEnd c r) s
            = .next (if x.seg.row = r.val then v.killAlso c 1 else v))
        ∧ (v.seg c = none → v.killedNow c = none → exec (.hardRowEnd c r) s = .next v))
      ∧ (rowHard s (partOf c) r.val = false →
        (∀ g, v.seg c = some g → killable v c = true → g.counted = false → exec (.elasticRowEnd c r) s = .next (v.overrun c g.ctx))
        ∧ (∀ g, v.seg c = some g → g.counted = true ∨ killable v c = false → exec (.elasticRowEnd c r) s = .next v)
        ∧ (v.seg c = none → exec (.elasticRowEnd c r) s = .next v)))
    ∧ (rowOn s c r.val = true → rowHard s (partOf c) r.val = false → rowPast s c r.val = false →
      (∀ q, (s.core c).row = some q → rowEnd s (partOf c) q ≤ s.time) →
      (∀ q : Nat, q < r.val → rowOn s c q = false ∨ rowPast s c q = true) → s.seg c = none → pointReached s c = false →
      rowStart s (partOf c) r.val ≤ s.time →
      (s.time < rowEnd s (partOf c) r.val → exec (.elasticRowStart c r) s = .next ((s.beginRow c r.val).pick c))
      ∧ (rowEnd s (partOf c) r.val ≤ s.time → exec (.elasticRowStart c r) s = .next (s.skipRow c r.val)))
    ∧ (∀ g, s.seg c = some g → (s.core c).ctx.isSome = true → g.issueSlot ≤ s.slot (partOf c) →
      (s.slotIsOpen (partOf c) = true → exec (.contextLoad c) s
        = .next ((s.modCore c (fun k => { k with ctx := none })).modSeg c (fun h => { h with start := s.time })))
      ∧ (s.slotIsOpen (partOf c) = false → exec (.contextLoad c) s = .next s))
    ∧ ((s.core c).seg = none → (s.core c).pickTime ≤ s.time → s.get (SEQ.STATE.STATE c) ≠ 4 →
      exec (.pickPoll c) s = .next (s.pick c)
      ∧ (∀ q, s.slotIsOpen (partOf c) = true → mayPick s c = some q →
        (∀ k, choose s c q = some k → exec (.pickPoll c) s = .next (s.takeCtx c k q))
        ∧ (choose s c q = none → exec (.pickPoll c) s = .next (s.modCore c (fun co => { co with pickTime := s.time + 256 })))))
    ∧ (∀ (g : Seg) (u : Fin 11) (h : BitVec 32), s.seg c = some g →
      (s.runs (partOf c) = true → s.ctxRd g.ctx 0x30 4 ≠ 0 → s.ctxRd g.ctx 0x30 4 < h.toNat → g.tierEvent = false →
        unitWorks s c u.val = true →
        exec (.tierDeadline c u h) s = .next ((s.event g.ctx 7 (h.toNat + 4294967296 * u.val)).modSeg c (fun h => { h with tierEvent := true })))
      ∧ (s.ctxRd g.ctx 0x30 4 = 0 → exec (.tierDeadline c u h) s = .next s))

/-- PROFILE_APPLY, PROFILE_FIELD_WRITE and PROFILE_APPLY_END; `u`: the state after a stroke boundary of the aclk (R49). -/
def Obligations.Profiles : Prop :=
  ∀ (s u : State) (n : PartIx) (i : Fin 16), s.served = true → u = s.afterBoundary n →
    (i.val < u.get SCH.PROFILES.LOADED → u.on (SCH.PROFILE_n.BUSY n) = false → u.active n = true →
      Completes (.profileApply n i) s (fun t => t.get (SCH.PROFILE_n.INDEX n) = i.val ∧ t.on (SCH.PROFILE_n.BUSY n) = true
        ∧ (∃ a : Apply, (t.part n).apply_ = some a ∧ a.index = i.val ∧ a.written = false ∧ a.ran = u.on (STK.CTRL_n.RUNNING n)
          ∧ a.b1 = if u.on (STK.CTRL_n.RUNNING n) then none else some u.time)
        ∧ sameFieldsBut [SCH.PROFILE_n.INDEX n, SCH.PROFILE_n.BUSY n] u t ∧ t.mem = u.mem ∧ t.synd = u.synd))
    ∧ (u.get SCH.PROFILES.LOADED ≤ i.val → exec (.profileApply n i) s
      = .next ((u.put (SCH.PROFILE_n.INDEX n) i.val).flag (SCH.STATUS_n.PROFILE_ERR n) 1))
    ∧ (∀ a b, (s.part n).apply_ = some a → a.b1 = some b →
      (a.written = false → b + 64 ≤ s.time → (s.part n).window = false → exec (.profileFieldWrite n) s
        = .next ((s.writeProfile n (s.profiles.getD a.index [])).modPart n (fun p => { p with apply_ := some { a with written := true } })))
      ∧ (a.written = true → b + 2048 ≤ s.time → a.ran = false → exec (.profileApplyEnd n) s
        = .next ((((s.put (SCH.PROFILE_n.BUSY n) 0).put (SCH.PROFILE_n.CURRENT n) a.index).put (SCH.PROFILE_n.APPLIED n) 1).modPart n
            (fun p => { p with apply_ := none })))
      ∧ (a.written = true → b + 2048 ≤ s.time → a.ran = true → (s.endApply n a.index).on (STK.CTRL_n.RUNNING n) = false →
        exec (.profileApplyEnd n) s = .next ((s.endApply n a.index).startTimer n (b + 2048 + 16))))

/-- TRANSLATION_INVALIDATION, INVALIDATION_DONE, PATROL_SCRUB, CHANNEL_ERROR_WINDOW_END, DEVICE_TEMPERATURE_READOUT, FRAME_GRANT,
FRAME_REVOKE, FRAME_RETURN and FRAME_TAKE. `x` shows the operation in MEM.FRAME_CMD, `q` is the quota entry of the tenant and tier (LIMIT at 0,
HELD at 4, the stack's offset at 8, COUNT at Ch), `st` the stack, `h` HELD and `k` COUNT. That a quota entry and a stack are memory that a read
meets as any other (167), that bursts fail as the command says (143) and the scrubber's way through memory (53) are the model's choices. -/
def Obligations.MemoryManagement : Prop :=
  ∀ (s : State) (n : PartIx) (ctx : BitVec 12) (page : BitVec 30) (tier : BitVec 2) (tn : Byte) (f : BitVec 21), s.served = true →
    (∀ all : Bool, Completes (.translationInvalidation page ctx n all) s (fun t => t.on MEM.INV_CTRL.BUSY = true
        ∧ (∀ c : CoreIx, (t.core c).tcache = (s.core c).tcache.filter (fun e =>
            !(e.ctx == 4096 * n.val + ctx.toNat && (all || e.page == page.toNat))))
        ∧ t.mem = s.mem ∧ t.synd = s.synd
        ∧ sameFieldsBut [MEM.INV_ADDR.PAGE, MEM.INV_CTRL.CONTEXT, MEM.INV_CTRL.PARTITION, MEM.INV_CTRL.ALL, MEM.INV_CTRL.BUSY] s t))
    ∧ (s.on MEM.INV_CTRL.BUSY = true → exec .invalidationDone s = .next (s.put MEM.INV_CTRL.BUSY 0))
    ∧ (∀ (x : Nat → Nat → State) (q st h k : Nat → Nat → Nat), (∀ op g, x op g = ((((s.put MEM.FRAME_CMD.FRAME g).put MEM.FRAME_CMD.TIER
          tier.toNat).put MEM.FRAME_CMD.PARTITION n.val).put MEM.FRAME_CMD.TENANT tn.toNat).put MEM.FRAME_CMD.OP op) →
        (∀ op g, q op g = (x op g).quotaAddr n tn.toNat tier.toNat) → (∀ op g, st op g = velBase n + (x op g).rdLE (q op g + 8) 4) →
        (∀ op g, h op g = (x op g).rdLE (q op g + 4) 4) → (∀ op g, k op g = (x op g).rdLE (q op g + 0xC) 4) →
      (tier = 3 → exec (.frameGrant n tier tn f) s = .next ((x 1 f.toNat).frameEnd 4)
        ∧ exec (.frameReturn n tier tn f) s = .next ((x 3 f.toNat).frameEnd 4)
        ∧ exec (.frameRevoke n tier tn) s = .next ((x 2 (s.get MEM.FRAME_CMD.FRAME)).frameEnd 4)
        ∧ exec (.frameTake n tier tn) s = .next ((x 4 (s.get MEM.FRAME_CMD.FRAME)).frameEnd 4))
      ∧ (tier ≠ 3 → ∀ u y : State, u = x 1 f.toNat → y = x 3 f.toNat →
        (u.rdLE (q 1 f.toNat) 4 ≤ h 1 f.toNat → exec (.frameGrant n tier tn f) s = .next (u.frameEnd 1))
        ∧ (h 1 f.toNat < u.rdLE (q 1 f.toNat) 4 → u.frameBacked n tier.toNat f.toNat = false →
            exec (.frameGrant n tier tn f) s = .next (u.frameEnd 3))
        ∧ (h 1 f.toNat < u.rdLE (q 1 f.toNat) 4 → u.frameBacked n tier.toNat f.toNat = true → exec (.frameGrant n tier tn f) s
            = .next ((((u.wrLE (st 1 f.toNat + 4 * k 1 f.toNat) 4 f.toNat).wrLE (q 1 f.toNat + 0xC) 4 (k 1 f.toNat + 1)).setHeld n tn.toNat
                tier.toNat (h 1 f.toNat + 1)).frameEnd 0))
        ∧ (y.frameBacked n tier.toNat f.toNat = false → exec (.frameReturn n tier tn f) s = .next (y.frameEnd 3))
        ∧ (y.frameBacked n tier.toNat f.toNat = true → k 3 f.toNat = h 3 f.toNat →
            exec (.frameReturn n tier tn f) s = .next (y.frameEnd 5))
        ∧ (y.frameBacked n tier.toNat f.toNat = true → k 3 f.toNat ≠ h 3 f.toNat → exec (.frameReturn n tier tn f) s
            = .next (((y.wrLE (st 3 f.toNat + 4 * k 3 f.toNat) 4 f.toNat).wrLE (q 3 f.toNat + 0xC) 4 (k 3 f.toNat + 1)).frameEnd 0)))
      ∧ (tier ≠ 3 → ∀ (g : Nat) (u y : State), g = s.get MEM.FRAME_CMD.FRAME → u = x 2 g → y = x 4 g →
        (k 2 g = 0 → exec (.frameRevoke n tier tn) s = .next (u.frameEnd 2))
        ∧ (k 2 g ≠ 0 → exec (.frameRevoke n tier tn) s = .next (((((u.meet (st 2 g + 4 * (k 2 g - 1)) 4).wrLE (q 2 g + 0xC) 4
            (k 2 g - 1)).put MEM.FRAME_CMD.FRAME (u.rdLE (st 2 g + 4 * (k 2 g - 1)) 4)).setHeld n tn.toNat tier.toNat (h 2 g - 1)).frameEnd 0))
        ∧ (k 4 g = 0 → exec (.frameTake n tier tn) s = .next (y.frameEnd 2))
        ∧ (k 4 g ≠ 0 → exec (.frameTake n tier tn) s = .next ((((y.meet (st 4 g + 4 * (k 4 g - 1)) 4).wrLE (q 4 g + 0xC) 4
            (k 4 g - 1)).put MEM.FRAME_CMD.FRAME (y.rdLE (st 4 g + 4 * (k 4 g - 1)) 4)).frameEnd 0))))
    ∧ (∀ (r : LineRead) (again : Bool), s.inForce MEM.SCRUB.HOURS = 0 → exec (.patrolScrub r again) s = .next s)
    ∧ (∀ (r : LineRead) (again : Bool) (t o : Nat), s.inForce MEM.SCRUB.HOURS ≠ 0 → place s.scrub = some (t, n, o) →
      ((s.unavailable t n = true ∨ s.frameBacked n t (o / 65536) = false) → exec (.patrolScrub r again) s = .next s.scrubOn)
      ∧ (s.unavailable t n = false → s.frameBacked n t (o / 65536) = true →
        ∀ v, v = s.meet s.scrub 128 →
        (t ≠ 1 → r.words = [] → exec (.patrolScrub r again) s = .next v.scrubOn)
        ∧ (∀ (i : Fin 32) (y : BitVec 7), t ≠ 1 → r.words = [(i, y)] → v.poisoned (s.scrub + 4 * i.val) = false →
            exec (.patrolScrub r again) s = .next (v.meetWord (s.scrub + 4 * i.val) y.toNat again).scrubOn)
        ∧ (∀ b, t = 1 → b = (burstsOf s.scrub s.scrub 128).foldl (fun u i => u.burst s.scrub o n r.crc again i) v →
          (r.tag.toNat ≠ lineTag s.scrub → exec (.patrolScrub r again) s = .next (b.badWords s.scrub (List.range 32) again).scrubOn)
          ∧ (r.tag.toNat = lineTag s.scrub → r.words = [] → exec (.patrolScrub r again) s = .next b.scrubOn))))
    ∧ ((s.part n).chanDue ≤ s.time → exec (.channelErrorWindowEnd n) s = .next (s.modPart n (fun p =>
        { p with chans1 := [], chans2 := [], chanDue := s.time + 800000 * max 1 (s.inForce MEM.ERR_CFG.WINDOW_MS) })))
    ∧ (∀ (dev : Fin 32) (d : Nat), s.poweredOff (toPart (dev.val / 8)) = false → exec (.deviceTemperatureReadout dev d) s
      = .next (s.modPart (toPart (dev.val / 8)) (fun p =>
          { p with hot := putBits p.hot (dev.val % 8) (dev.val % 8) (b2n (decide (85 < d))) })))

/-- MIGRATION_REQUEST, MIGRATION_COPY, MIGRATION_SWITCH and MIGRATION_SOURCE_PUSH. That a page is copied in one command and the lines written
since then are copied at the switch (log entry 52), and that the switch waits while its leaf or its source is fenced off (170), are the model's
choices. -/
def Obligations.Migrations : Prop :=
  ∀ (s : State) (n : PartIx), s.runs n = true →
    (∀ h a w : Nat, (s.part n).mig = none → h = s.get (MEM.MIG_HEAD_n.INDEX n) → a = s.migAddr n h → w = s.rdLE (a + 8) 4 →
      h % s.migSize n ≠ s.get (MEM.MIG_TAIL_n.INDEX n) % s.migSize n →
      (bits w 13 12 ≠ 3 → s.rdLE (a + 0xC) 4 ≠ 0 → zeroBits w 31 14 = true → s.rdLE a 2 = 0 → zeroBits (s.rdLE (a + 0x10) 4) 31 4 = true →
        exec (.migrationRequest n) s = .next (s.modPart n (fun p => { p with mig := some (
          { index := h, ctx := 4096 * n.val + bits w 11 0, first := s.rdLE a 8 / 65536, pages := s.rdLE (a + 0xC) 4,
            dest := bits w 13 12, next := 0, moved := 0, open_ := [], wait := [], fail := none } : Migration) })))
      ∧ (bits w 13 12 = 3 ∨ s.rdLE (a + 0xC) 4 = 0 ∨ zeroBits w 31 14 = false ∨ s.rdLE a 2 ≠ 0 ∨ zeroBits (s.rdLE (a + 0x10) 4) 31 4 = false →
        exec (.migrationRequest n) s = .next (s.migEnd n h 4 0)))
    ∧ (∀ (m : Migration) (page : BitVec 30) (asked : BitVec 48), (s.part n).mig = some m →
      (m.fail = none → m.open_.length < 4 → m.next < m.pages → asked.toNat = m.first + m.next → exec (.migrationCopy n asked) s
        = .next (((s.modMig n (fun q => { q with next := q.next + 1, wait := q.wait.filter (fun x => x != asked.toNat) })).migPage n m
            asked.toNat).migDone n))
      ∧ (m.fail = none → m.open_.length < 4 → asked.toNat ∈ m.wait → asked.toNat ≠ m.first + m.next → exec (.migrationCopy n asked) s
        = .next (((s.modMig n (fun q => { q with wait := q.wait.filter (fun x => x != asked.toNat) })).migPage n m
            asked.toNat).migDone n))
      ∧ (4 ≤ m.open_.length → exec (.migrationCopy n asked) s = .next s)
      ∧ (∀ p : MigPage, m.open_.find? (fun p => p.page == page.toNat && p.copied && !p.switched) = some p →
        (∀ v, v = p.dirty.foldl (fun t l => (((t.meet (p.src + 128 * l) 128).wrBytes (p.dst + 128 * l) ((t.meet (p.src + 128 * l) 128).rdBytes
              (p.src + 128 * l) 128)).poisonAt (p.dst + 128 * l) ((t.meet (p.src + 128 * l) 128).poisonIn (p.src + 128 * l) 128)).wrote
              (p.dst + 128 * l) 128) s → s.fencedOff n p.leaf = false → s.fencedOff n p.src = false →
          exec (.migrationSwitch n page) s = .next (((v.setLeaf p.leaf (putBits (putBits (v.rdLE p.leaf 8 % 65536) 5 5 0) 2 1 p.dstTier
              + p.dst)).moveCharge n m.ctx p.page p.srcTier p.dstTier).modMig n (fun q => { q with open_ := q.open_.map (fun x =>
                if x.page = p.page then { x with switched := true, dirty := [] } else x) })))
        ∧ (s.fencedOff n p.leaf = true ∨ s.fencedOff n p.src = true → exec (.migrationSwitch n page) s = .next s))
      ∧ (∀ p : MigPage, m.open_.find? (fun p => p.page == page.toNat && p.switched) = some p →
        exec (.migrationSourcePush n page) s = .next (((s.pushFrame n p.tenant p.srcTier (frameNo p.src)).modMig n (fun q =>
          { q with moved := q.moved + 1, open_ := q.open_.filter (fun x => x.page != p.page) })).migDone n)))

/-- OPEN, HINT_FLUSH, CREATE, DESTROY, PIN, UNPIN, RESTORE, MARK_LOST, LOOKUP, RESOLVE_KEEP, RESOLVE_GONE, PUSH_SLOT, POP_SLOT,
FORWARD_LIFETIME_EXPIRY and PROMOTION_HOLD_EXPIRY; `shown op` is the state with the command in GAZ.CMD. The results of MARK_LOST and
RESTORE, and that CREATE takes the parcel index from the address (log entry 64), and that a slot released to a full stack is dropped (65), are
the model's choices. -/
def Obligations.GazetteerOperations : Prop :=
  ∀ (s : State) (name : BitVec 43) (base : BitVec 31) (ep : BitVec 16) (md : BitVec 12) (n : PartIx) (t : BitVec 2)
    (shown : Nat → State), s.served = true → (∀ op, shown op = (s.put GAZ.CMD.NAME name.toNat).put GAZ.CMD.OP op) →
    exec .openChart s = .next (s.put GAZ.CTRL.OPEN 1)
    ∧ exec .hintFlush s = .next { s with chart := { s.chart with hints := [] } }
    ∧ (∀ e, s.gazAt name.toNat = some e →
      (exec (.create name base) s = .next (((shown 1).put GAZ.CMD_ARG.BASE base.toNat).gazEnd 1))
      ∧ (e.st = .home → e.ticket = none → e.origin = true → exec (.destroy name) s
          = .next ((((shown 2).releaseSlot e.base).freeGaz name.toNat).gazEnd 0))
      ∧ (e.st = .home → exec (.pin name) s = .next (((shown 3).modGaz name.toNat (fun e => { e with pinned := true })).gazEnd 0)
          ∧ exec (.unpin name) s = .next (((shown 4).modGaz name.toNat (fun e => { e with pinned := false })).gazEnd 0))
      ∧ (e.st = .home → e.ticket = none → exec (.markLost name) s
          = .next (((shown 11).modGaz name.toNat (fun e => { e with st := .lost })).gazEnd 0))
      ∧ exec (.lookup name) s = .next ((((((shown 10).put GAZ.CMD.STATE (gazCode e.st)).put GAZ.CMD_ARG.BASE e.base).put GAZ.CMD_ARG.EPOCH
          e.epoch).put GAZ.CMD_ARG.MODULE e.module).gazEnd 0)
      ∧ (e.st = .inDoubt → s.outOf name.toNat = none → s.inOf name.toNat = none → Completes (.resolveKeep name) s (fun u =>
          ∃ v g, v = (shown 6).modGaz name.toNat (fun e => { e with st := .home, module := 0 }) ∧ v.gazAt name.toNat = some g
            ∧ u = (v.pointerUpdate g (shown 6).selfModule (shown 6).selfModule).gazEnd 0))
      ∧ (∀ o, e.st = .inDoubt → s.outOf name.toNat = some o → exec (.resolveGone name) s = .next (((shown 7).settle o).gazEnd 0))
      ∧ (e.st ≠ .inDoubt → exec (.resolveKeep name) s = .next ((shown 6).gazEnd 4) ∧ exec (.resolveGone name) s = .next ((shown 7).gazEnd 4))
      ∧ (freeable e = true → e.time + 800000 * clamp 1 65535 (s.inForce GAZ.CFG.FWD_MS) ≤ s.time →
          exec (.forwardLifetimeExpiry name) s = .next (s.freeGaz name.toNat))
      ∧ (e.hold.isSome = true → e.time + 800 * clamp 1 255 (s.inForce GAZ.CFG.PROMO_HOLD_US) ≤ s.time →
          exec (.promotionHoldExpiry name) s = .next (s.modGaz name.toNat (fun e => { e with hold := none }))))
    ∧ (s.gazAt name.toNat = none →
      (∀ u x : State, x = (shown 1).put GAZ.CMD_ARG.BASE base.toNat →
        (x.isOrigin name.toNat = false → exec (.create name base) s = .next (x.gazEnd 7)) ∧ (x.isOrigin name.toNat = true →
          x.slotBacked (name.toNat % 2 ^ 31) = false → exec (.create name base) s = .next (x.gazEnd 5)) ∧ (x.isOrigin name.toNat = true → x.slotBacked (name.toNat % 2 ^ 31) = true →
        x.addGaz { name := name.toNat, st := .home, origin := true, base := name.toNat % 2 ^ 31, stored := true, time := s.time } = some u →
        exec (.create name base) s = .next (u.gazEnd 0)))
      ∧ (∀ u x : State, x = (((shown 5).put GAZ.CMD_ARG.BASE base.toNat).put GAZ.CMD_ARG.EPOCH ep.toNat).put GAZ.CMD_ARG.MODULE
          md.toNat → md.toNat ≠ x.selfModule →
        x.addGaz { name := name.toNat, st := .forward, origin := x.isOrigin name.toNat, epoch := ep.toNat, module := md.toNat, base := 0,
                   stored := false, time := s.time } = some u →
        exec (.restore name base ep md) s = .next (u.gazEnd 0))
      ∧ exec (.destroy name) s = .next ((shown 2).gazEnd 2) ∧ exec (.lookup name) s = .next (((shown 10).put GAZ.CMD.STATE 0).gazEnd 2))
    ∧ (∀ u x : State, x = ((((s.put GAZ.CMD.OP 8).put GAZ.CMD_ARG.PART n.val).put GAZ.CMD_ARG.TIER t.toNat).put GAZ.CMD_ARG.BASE base.toNat) →
        t.toNat ≠ 3 → x.slotBacked base.toNat = true → slotPlace base.toNat = some (t.toNat, n) → x.pushHost n t.toNat base.toNat = some u →
        exec (.pushSlot n t base) s = .next (u.gazEnd 0))
    ∧ (∀ b u x, x = (((s.put GAZ.CMD.OP 9).put GAZ.CMD_ARG.PART n.val).put GAZ.CMD_ARG.TIER t.toNat) → t.toNat ≠ 3 →
        x.popHost n t.toNat = some (b, u) → exec (.popSlot n t) s = .next ((u.put GAZ.CMD_ARG.BASE b).gazEnd 0))
    ∧ exec (.popSlot n 3) s = .next (State.gazEnd (((s.put GAZ.CMD.OP 9).put GAZ.CMD_ARG.PART n.val).put GAZ.CMD_ARG.TIER 3) 7)

/-- FRAME_RECEIVE, REPLAY_TIMEOUT, SPARE_REQ, SPARE_DONE, HALF_REQ, SPARE_SWITCH, SHADOW_ROTATION, THRESHOLD_WINDOW_END and
LOSS_OF_SIGNAL. A frame's codewords are decoded by `rxFrame`; `u` is the state once their corrected symbols are counted (R272). The code and the
places of a frame's halves (log entry 146, presumed) and what a control word says next (60) are the model's choices. -/
def Obligations.LinkFrames : Prop :=
  ∀ (s : State) (l : LinkIx), s.linkUp l = true →
    (∀ (f : RxFrame) (u : State) (x : Rx), rxFrame (s.link l).lanes f.words = x →
      u = s.laneErrors l (rxErrors (s.link l).lanes (s.link l).spare (s.shadowed l x) f.words) →
      (u.linkUp l = false → exec (.frameReceive l f) s = .next u)
      ∧ (u.linkUp l = true →
        (x = .nothing → exec (.frameReceive l f) s = .next u)
        ∧ (∀ n, x = .ucw n → exec (.frameReceive l f) s = .next ((u.tally (linkUcw l) 1).badFrame l n))
        ∧ (x = .crc → exec (.frameReceive l f) s = .next ((u.tally (linkCrc l) 1).badFrame l 1))
        ∧ (∀ seq replay body, x = .frame seq replay body →
          (seq = ((u.link l).ackRx + 1) % 4096 →
            (((u.link l).awaiting = false ∨ replay = true) → exec (.frameReceive l f) s = .next (((u.modLink l (fun k =>
              { k with ackRx := seq, awaiting := false, news := true })).takeBody l body).control l (ctrlOf (isFrl l) body)))
            ∧ ((u.link l).awaiting = true → replay = false → exec (.frameReceive l f) s = .next u))
          ∧ (seq ≠ ((u.link l).ackRx + 1) % 4096 →
            (seqBehind (u.link l).ackRx seq < 2048 → exec (.frameReceive l f) s = .next u)
            ∧ (2048 ≤ seqBehind (u.link l).ackRx seq → exec (.frameReceive l f) s
                = .next (u.modLink l (fun k => { k with awaiting := true })))))))
    ∧ (∀ x r, (s.link l).buf = x :: r →
        (s.link l).lastAck + 800 * max 1 (s.inForce GRT.CFG2.REPLAY_TIMEOUT_US) ≤ s.time →
        exec (.replayTimeout l) s = .next (s.replayLink l))
    ∧ ((s.link l).buf = [] → exec (.replayTimeout l) s = .next s)
    ∧ (∀ lane : BitVec 4, exec (.spareReq l lane) s = .next (s.modLink l (fun k =>
          if k.shadowHeld && k.shadowTx != lane.toNat then k else { k with shadowTx := lane.toNat, shadowHeld := true, news := true }))
        ∧ exec (.spareDone l lane) s = .next (s.modLink l (fun k => match k.txLanes[lane.toNat]? with
          | some p => if k.quiet.contains p then k else { k with quiet := k.quiet ++ [p] }
          | none => k)))
    ∧ exec (.halfReq l) s = .next (s.leaveUp l)
    ∧ (∀ p t v, (s.link l).sparing = some p → p.lock = some t → t ≤ s.time →
        v = (s.modLink l (fun k => { k with lanes := k.lanes.set p.logical (k.spare.getD 8), spareUsed := true, sparing := none,
                                            heldLanes := [], laneOp := .spareDone, laneArg := p.logical })).tell l →
      ((s.link l).heldLanes = [] → exec (.spareSwitch l) s = .next v)
      ∧ (∀ h r, (s.link l).heldLanes = h :: r →
        ((v.link l).buf.length < 512 → exec (.spareSwitch l) s = .next ((v.closeFrame l).halfWidth l (h :: r)))
        ∧ (512 ≤ (v.link l).buf.length → exec (.spareSwitch l) s = .next (v.halfWidth l (h :: r)))))
    ∧ ((s.link l).txSpare.isSome = true → (s.link l).shadowHeld = false → s.inForce GRT.CFG3.SHADOW_MS ≠ 0 →
        (s.link l).rotateAt ≤ s.time → exec (.shadowRotation l) s = .next (s.modLink l (fun k =>
          { k with shadowTx := if k.shadowTx < 7 then k.shadowTx + 1 else 0
                   rotateAt := s.time + 800000 * s.inForce GRT.CFG3.SHADOW_MS
                   news := true })))
    ∧ ((s.link l).txSpare = none → exec (.shadowRotation l) s = .next s)
    ∧ ((s.link l).windowEnd ≤ s.time → Completes (.thresholdWindowEnd l) s (fun t => (t.link l).laneErr = List.replicate 9 0
        ∧ (t.link l).badFrames = 0 ∧ (t.link l).windowEnd = (s.link l).windowEnd + 800 * max 1 (s.inForce GRT.CFG.WINDOW_US)
        ∧ t.get (linkCe l 0) = ceWord (s.link l).laneErr 0
        ∧ sameFieldsBut [linkCe l 0, linkCe l 1, linkCe l 2] s t ∧ t.mem = s.mem ∧ t.synd = s.synd))
    ∧ (∀ (m : BitVec 9) (i : Fin 9), (∀ j : Fin 9, bit m.toNat j.val = true ↔ j = i) →
        exec (.lossOfSignal l m) s = .next (s.retire l i.val 2))
    ∧ (∀ (m : BitVec 9) (i j : Fin 9), i ≠ j → bit m.toNat i.val = true → bit m.toNat j.val = true →
        exec (.lossOfSignal l m) s = .next ((s.linkRecord l 0x30 16).leaveUp l))
    ∧ exec (.lossOfSignal l 0) s = .next s

/-- IDENTITY_WORD, TRAINING_COMPLETE, TRAINING_FAILURE, BACKOFF_END, WARM_WINDOW_EXPIRY, PORT_DISABLE, PORT_ENABLE, PORT_RETRAIN and
LANE_RETIRE; STATE: 0 DOWN, 1 TRAINING, 2 UP, 3 MISWIRED, 4 HELD, 5 DISABLED. `prbs` is step 4, which marks lanes failed, and `sendIdent`
puts the port's own identity word on the wire where this training has not (168). That HELD writes its own record only (log entry 63), what
waits in backoff (62), the bits wrong in step 4 and the peer's lanes as operands (152) are the model's choices. -/
def Obligations.LinkTraining : Prop :=
  ∀ (s : State) (l : LinkIx), s.live = true →
    (∀ w : Identity, (s.get (linkState l) = 1 → exec (.identityWord l w) s = .next (s.identify l w))
      ∧ (s.get (linkState l) = 2 → exec (.identityWord l w) s = .next ((s.leaveUp l).identify l w))
      ∧ (s.get (linkState l) ≠ 1 → s.get (linkState l) ≠ 2 → exec (.identityWord l w) s = .next s)
      ∧ (s.get (linkState l) = 1 → isFrl l = false → (s.sendIdent l).identOk l w = false → exec (.identityWord l w) s
        = .next ((((((s.sendIdent l).put (GRT.PSTATE_p.PEER_MODULE (toPort l.val)) w.module.toNat).put (GRT.PSTATE_p.PEER_PORT
            (toPort l.val)) w.port.toNat)).linkRecord l 0x33 (16 * w.module.toNat + 65536 * w.port.toNat)).linkTo l 3)))
    ∧ (∀ (d : Trained) warm m x, d.link = l → s.get (linkState l) = 1 → (s.link l).ident = some warm →
        laneMap ((s.prbs l d.errs).get (linkFailed l)) = some m → laneMap d.peer.toNat = some x →
        exec (.trainingComplete d) s = .next ((s.prbs l d.errs).linkStart l m x warm))
    ∧ (∀ d : Trained, d.link = l → (s.link l).ident = none → exec (.trainingComplete d) s = .next s)
    ∧ (∀ (how : TrainFail) u v, u = (if 5 ≤ how.step.val then s.prbs l how.errs else s) →
      v = (if 7 ≤ how.step.val then u.sendIdent l else u) → s.get (linkState l) = 1 → u.get (linkState l) = 1 → u.live = true →
      (isFrl l = false → u.retrainLimit ≤ (u.link l).k + 1 → exec (.trainingFailure l how) s = .next ((v.linkRecord l 0x34 0).linkTo l 4))
      ∧ (∀ e, (isFrl l = false → (u.link l).k + 1 < u.retrainLimit ∧ e = (u.link l).k) →
          (isFrl l = true → e = min (u.link l).k (u.retrainLimit - 1)) → exec (.trainingFailure l how) s
        = .next (((((v.linkRecord l 0x32 (16 * how.step.val + 256 * (u.link l).k)).modLink l (fun x =>
            { x with backoff := some (u.time + 8000000 * 2 ^ min e 10) })).setK l (min 254 ((u.link l).k + 1)))).linkTo l 0)))
    ∧ (∀ t, (s.link l).backoff = some t → (s.link l).released = true → s.get (linkState l) = 0 →
      (t ≤ s.time → exec (.backoffEnd l) s = .next (s.train l)) ∧ (s.time < t → exec (.backoffEnd l) s = .next s))
    ∧ (s.get (linkState l) ≠ 2 → (s.link l).leftUp.isSome = true → s.warmOpen l = false →
      (isFrl l = false → exec (.warmWindowExpiry l) s = .next (s.dropWaiting l))
      ∧ (isFrl l = true → exec (.warmWindowExpiry l) s = .next s))
    ∧ (s.settable = true → exec (.portDisable l) s = .next (s.disablePort l) ∧ exec (.portEnable l) s = .next (s.enablePort l))
    ∧ (s.served = true →
      ((s.link l).released = false → exec (.portRetrain l) s = .next s)
      ∧ ((s.link l).released = true → s.get (linkState l) = 2 → exec (.portRetrain l) s = .next (s.leaveUp l))
      ∧ ((s.link l).released = true → s.get (linkState l) = 0 ∨ s.get (linkState l) = 1 → exec (.portRetrain l) s = .next (s.train l))
      ∧ ((s.link l).released = true → s.get (linkState l) = 3 ∨ s.get (linkState l) = 4 →
          exec (.portRetrain l) s = .next ((s.setK l 0).train l))
      ∧ (∀ lane : BitVec 4, exec (.laneRetire l lane) s = .next ((s.put (linkLane l) lane.toNat).retire l lane.toNat 3)))

/-- GNT_S, GNT_E, RD_DATA, SNP_INV and SNP_SHARED; `s` is the state once the message has left the receiver, and a snoop first counts in
FRL.CACHE_CNT.SNOOPS, in `x`. That an ADDRESS with low bits set is a protocol error (log entry 84), where a late reply of the weight agent
counts (151) and that a message is acted on by a command of its own (59) are the model's choices. -/
def Obligations.CompanionCoherence : Prop :=
  ∀ (s0 s : State) (m : FMsg) (x : State), s = s0.frlTake m → x = s.tally FRL.CACHE_CNT.SNOOPS 1 →
    (∀ r l, s.frlFor m = some r → lineAt s r.addr = some l → r.kind = .fill →
      (companionSends s0 m 0x24 → r.op = 0x01 → l.st = .is_ → exec (.gntS m) s0 = .next ((s.frlDone r).lineFilled l .s m))
      ∧ (companionSends s0 m 0x24 → l.st = .im → exec (.gntS m) s0 = .next s.protocol)
      ∧ (companionSends s0 m 0x25 →
        (l.st = .is_ → exec (.gntE m) s0 = .next ((s.frlDone r).lineFilled l .e m))
        ∧ (l.st = .im ∨ l.st = .sm → exec (.gntE m) s0 = .next ((s.frlDone r).lineFilled l .m m))))
    ∧ (s.frlFor m = none → (companionSends s0 m 0x24 → exec (.gntS m) s0 = .next s.protocol)
      ∧ (companionSends s0 m 0x25 → exec (.gntE m) s0 = .next s.protocol))
    ∧ (∀ r c i, companionSends s0 m 0x26 → s.frlFor m = some r → r.kind = .rdNc c i → awaited s (toCore c) m.tag.toNat = true →
      exec (.rdData m) s0 = .next ((s.frlDone r).deliver (toCore c) m.tag.toNat m.lines (maskBad m.mask.toNat 16)))
    ∧ (∀ r k i, companionSends s0 m 0x26 → s.frlFor m = some r → r.kind = .shard k i →
      exec (.rdData m) s0 = .next ((s.frlDone r).wtsData k i r.addr r.tag m.lines (m.mask != 0)))
    ∧ (companionSends s0 m 0x26 → s.frlFor m = none → m.linesM1 ≠ 0 → exec (.rdData m) s0 = .next (s.frlLate m))
    ∧ (companionSends s0 m 0x10 →
      (lineAt x m.addr.toNat = none → exec (.snpInv m) s0 = .next (x.snpRsp m 0))
      ∧ (∀ l, lineAt x m.addr.toNat = some l →
        (l.st = .s ∨ l.st = .e → exec (.snpInv m) s0 = .next ((x.snpRsp m 0).snooped l.addr))
        ∧ (l.st = .m → exec (.snpInv m) s0 = .next ((x.snpData m l 0).snooped l.addr))
        ∧ (l.st = .sm → exec (.snpInv m) s0 = .next ((x.snpRsp m 0).putLine { l with st := .im }))
        ∧ (l.st = .is_ ∨ l.st = .im ∨ l.st = .ei → exec (.snpInv m) s0 = .next (x.snpRsp m 0))
        ∧ (l.st = .mi → exec (.snpInv m) s0 = .next (x.snpRsp m 2))))
    ∧ (companionSends s0 m 0x11 →
      (lineAt x m.addr.toNat = none → exec (.snpShared m) s0 = .next (x.snpRsp m 0))
      ∧ (∀ l, lineAt x m.addr.toNat = some l →
        (l.st = .s ∨ l.st = .sm → exec (.snpShared m) s0 = .next (x.snpRsp m 1))
        ∧ (l.st = .e → exec (.snpShared m) s0 = .next ((x.snpRsp m 1).putLine { l with st := .s }))
        ∧ (l.st = .m → exec (.snpShared m) s0 = .next ((x.snpData m l 1).putLine { l with st := .s }))
        ∧ (l.st = .is_ ∨ l.st = .im ∨ l.st = .ei → exec (.snpShared m) s0 = .next (x.snpRsp m 0))
        ∧ (l.st = .mi → exec (.snpShared m) s0 = .next (x.snpRsp m 2))))
    ∧ (s0.live = true → s0.get FRL.STATUS.STATE = 2 → protocolBad m = true →
      ∀ y ∈ [Instr.gntS m, .gntE m, .rdData m, .snpInv m, .snpShared m, .cmp m, .ferruleNack m],
        exec y s0 = .next (s.put FRL.ERRORS.PROTOCOL (s.get FRL.ERRORS.PROTOCOL + 1)))

/-- CMP, FERRULE_NACK, FERRULE_TIMEOUT, DOORBELL, ATTACH, COMPANION_LOSS, CACHE_FLUSH and FLUSH_COMPLETE; `s` is the state once the
message has left the receiver. That a NACK ends a request as a timeout does (log entry 81), the tag of a queue's write (82), where a late reply
counts (151) and that a message is acted on by a command of its own (59) are the model's choices. -/
def Obligations.CompanionRequests : Prop :=
  ∀ (s0 s : State) (m : FMsg), s = s0.frlTake m →
    (∀ r, companionSends s0 m 0x31 → s.frlFor m = some r →
      (∀ l, r.kind = .evict → lineAt s r.addr = some l → (l.st = .mi ∨ l.st = .ei) →
        exec (.cmp m) s0 = .next ((s.frlDone r).lineEvicted l))
      ∧ (∀ n id, r.kind = .queue n id → exec (.cmp m) s0 = .next (((s.frlDone r).queueDone (toPart n) id).letIntr r))
      ∧ (r.kind = .event ∨ r.kind = .mirror → exec (.cmp m) s0 = .next ((s.frlDone r).letIntr r))
      ∧ (r.kind = .intr → exec (.cmp m) s0 = .next (s.frlDone r))
      ∧ (r.kind = .fill → exec (.cmp m) s0 = .next s.protocol))
    ∧ (∀ r, companionSends s0 m 0x33 → s.frlFor m = some r → exec (.ferruleNack m) s0 = .next (s.frlFailed r))
    ∧ (s.frlFor m = none → (companionSends s0 m 0x31 → exec (.cmp m) s0 = .next (s.frlLate m))
      ∧ (companionSends s0 m 0x33 → exec (.ferruleNack m) s0 = .next (s.frlLate m)))
    ∧ (∀ (i : Nat) r, s0.live = true → s0.ferrule.reqs[i]? = some r → (r.out = true ∨ r.lost = true) →
      (r.sent + 800 * max 10 (s0.inForce FRL.TIMERS.RESP_US) ≤ s0.time → exec (.ferruleTimeout i) s0
        = .next (((s0.put FRL.ERRORS.TIMEOUTS (s0.get FRL.ERRORS.TIMEOUTS + 1)).raise
            { code := 0x38, domain := 15, addr := r.addr, d0 := r.op }).frlFailed r))
      ∧ (s0.time < r.sent + 800 * max 10 (s0.inForce FRL.TIMERS.RESP_US) → exec (.ferruleTimeout i) s0 = .next s0))
    ∧ (∀ k : CtxIx, s0.served = true → exec (.doorbell k) s0 = .next ((forCores (coresOf (ctxPart k.val)) (fun c t =>
        match t.seg c with
        | some g => if g.ctx = k.val ∧ g.waitTail then t.readTail c g else t
        | none => t) s0).pickGroup k.val))
    ∧ (s0.served = true → s0.get FRL.STATUS.STATE = 2 → exec .attach s0 = .next (s0.put FRL.STATUS.ATTACHED 1))
    ∧ (s0.get FRL.STATUS.STATE ≠ 2 → exec .attach s0 = .next s0)
    ∧ (∀ t, s0.live = true → s0.attached = true → s0.get FRL.STATUS.STATE ≠ 2 → (s0.link 10).leftUp = some t →
      (t + 800000 * s0.inForce GRT.CFG2.WARM_MS ≤ s0.time → exec .companionLoss s0 = .next s0.companionLost)
      ∧ (s0.time < t + 800000 * s0.inForce GRT.CFG2.WARM_MS → exec .companionLoss s0 = .next s0))
    ∧ (s0.served = true → exec .cacheFlush s0 = .next s0.flush)
    ∧ (s0.live = true → s0.on FRL.STATUS.FLUSH_BUSY = true → flushEmpty s0 = true → exec .flushComplete s0
      = .next ((s0.put FRL.STATUS.FLUSH_BUSY 0).wakeWaiting (fun _ => true)))
    ∧ (flushEmpty s0 = false → exec .flushComplete s0 = .next s0)

/-- MODEL_LOAD, MODEL_REPLACE, MODEL_STOP, MODEL_RESUME, MODEL_EVICT and MODEL_RELEASE; `shown op` is the state with the command in
WTS.CMD, `wtsResult` ends it with a result. States: 0 EMPTY, 1 LOADING, 2 RESIDENT, 3 DRAINING, 4 STOPPED, 5 REPLACING, 6 EVICTED, 7 FAILED. Which
of several refusals comes first is the model's choice (log entry 90). -/
def Obligations.ModelCommands : Prop :=
  ∀ (s : State) (m : Byte) (shown : Nat → State), s.served = true →
    (∀ op, shown op = (s.put WTS.CMD.MODEL m.toNat).put WTS.CMD.OP op) →
    (s.mdState m.toNat = 0 ∨ s.mdState m.toNat = 6 ∨ s.mdState m.toNat = 7 →
      (loadBusy (shown 1) m.toNat = false → (shown 1).active ((shown 1).mdPart m.toNat) = true →
        ((shown 1).part ((shown 1).mdPart m.toNat)).inReset = false → exec (.modelLoad m) s
          = .next (((((shown 1).takeTenant m.toNat).holdGroup m.toNat).beginLoad m.toNat 1 none).wtsResult 0))
      ∧ (loadBusy (shown 1) m.toNat = true → exec (.modelLoad m) s = .next ((shown 1).wtsResult 3))
      ∧ (loadBusy (shown 1) m.toNat = false → (shown 1).active ((shown 1).mdPart m.toNat) = false → exec (.modelLoad m) s
          = .next ((shown 1).wtsResult 4))
      ∧ exec (.modelResume m) s = .next ((shown 4).wtsResult 2) ∧ exec (.modelEvict m) s = .next ((shown 5).wtsResult 2)
      ∧ exec (.modelReplace m) s = .next ((shown 2).wtsResult 2)
      ∧ exec (.modelStop m) s = .next ((shown 3).wtsResult 2)
      ∧ exec (.modelRelease m) s = .next (((shown 6).mdClear m.toNat).wtsResult 0))
    ∧ (s.mdState m.toNat = 2 →
      (loadBusy (shown 2) m.toNat = false → (shown 2).active ((shown 2).mdPart m.toNat) = true →
        ((shown 2).part ((shown 2).mdPart m.toNat)).inReset = false → exec (.modelReplace m) s
          = .next ((((shown 2).takeTenant m.toNat).beginDrain m.toNat 2 none).wtsResult 0))
      ∧ exec (.modelStop m) s = .next (((shown 3).beginDrain m.toNat 1 none).wtsResult 0)
      ∧ exec (.modelEvict m) s = .next (((shown 5).beginDrain m.toNat 3 none).wtsResult 0)
      ∧ exec (.modelLoad m) s = .next ((shown 1).wtsResult 2) ∧ exec (.modelResume m) s = .next ((shown 4).wtsResult 2)
      ∧ exec (.modelRelease m) s = .next ((shown 6).wtsResult 2))
    ∧ (s.mdState m.toNat = 1 ∨ s.mdState m.toNat = 3 ∨ s.mdState m.toNat = 5 →
      exec (.modelLoad m) s = .next ((shown 1).wtsResult 2) ∧ exec (.modelReplace m) s = .next ((shown 2).wtsResult 2)
      ∧ exec (.modelStop m) s = .next ((shown 3).wtsResult 2) ∧ exec (.modelResume m) s = .next ((shown 4).wtsResult 2)
      ∧ exec (.modelEvict m) s = .next ((shown 5).wtsResult 2) ∧ exec (.modelRelease m) s = .next ((shown 6).wtsResult 2))
    ∧ (s.mdState m.toNat = 4 →
      (loadBusy (shown 2) m.toNat = false → (shown 2).active ((shown 2).mdPart m.toNat) = true →
        ((shown 2).part ((shown 2).mdPart m.toNat)).inReset = false → exec (.modelReplace m) s
          = .next (((((shown 2).takeTenant m.toNat).mdSetGoal m.toNat 2).beginLoad m.toNat 5 none).wtsResult 0)) ∧
      exec (.modelLoad m) s = .next ((shown 1).wtsResult 2) ∧
      exec (.modelResume m) s = .next (((((shown 4).mdSetGoal m.toNat 0).mdTo m.toNat 2).resumeGroup m.toNat).wtsResult 0)
      ∧ exec (.modelEvict m) s = .next ((((shown 5).evictModel m.toNat true).mdTo m.toNat 6).wtsResult 0)
      ∧ exec (.modelRelease m) s = .next ((((shown 6).evictModel m.toNat false).mdClear m.toNat).wtsResult 0)
      ∧ exec (.modelStop m) s = .next ((shown 3).wtsResult 2))

/-- MODEL_PLACEMENT, SHARD_ARRIVAL, SHARD_POLL, SHARD_TIMEOUT, SHARD_CONVERSION and LOAD_COMPLETION. That the headers are read before placement
(log entry 87), how shards are read and read again (88, 89, 153), the reasons given (91), the order of conversions (95) and that the records are
written in one command (97) are the model's choices. -/
def Obligations.ModelLoading : Prop :=
  ∀ (s : State) (m : Byte) (l : LoadSt), s.live = true → s.load m.toNat = some l →
    (l.placed = false →
      (l.dirBad = true → exec (.modelPlacement m) s = .next (s.loadFail m.toNat 3 0))
      ∧ (l.dirBad = false → l.entries = [] → exec (.modelPlacement m) s = .next s)
      ∧ (l.entries ≠ [] → (∃ i ∈ l.shards, l.count ≤ i) → exec (.modelPlacement m) s = .next (s.loadFail m.toNat 3 0))
      ∧ (l.dirBad = false → l.entries ≠ [] → (∀ i ∈ l.shards, i < l.count) → (∀ i ∈ l.ranges, ∃ h ∈ l.heads, h.1 = i) →
        exec (.modelPlacement m) s = .next (s.tryPlace m.toNat l)))
    ∧ (∀ (i : BitVec 16) r, s.wtsRead m.toNat i.toNat = some r →
      (l.placed = true → r.what = .shard → r.whole = true → exec (.shardArrival m i) s = .next (s.shardIn m.toNat l r)
        ∧ (r.bad = true → exec (.shardArrival m i) s = .next (s.corruptShard m.toNat l r.idx)))
      ∧ (r.whole = false → exec (.shardArrival m i) s = .next s)
      ∧ (∀ t, r.poll = some t → t ≤ s.time → exec (.shardPoll m (some i)) s = .next (s.wtsPoll m.toNat i.toNat)))
    ∧ (∀ i, unpassed s l = some i → l.start + 800000 * max 1 (s.inForce WTS.CFG2.SHARD_TIMEOUT_MS) ≤ s.time →
        exec (.shardTimeout m) s = .next (s.loadFail m.toNat 2 i))
    ∧ (∀ (i : BitVec 16) c, s.wts.convs.find? (fun c => c.model == m.toNat && c.idx == i.toNat) = some c → c.due ≤ s.time →
        exec (.shardConversion m i) s = .next (((s.meetPages c.pages).convert c).modWts (fun w =>
          { w with convs := w.convs.filter (fun x => !(x.model == c.model && x.idx == c.idx)) })).fillLoads)
    ∧ (l.placed = true → (∀ i ∈ l.shards, ∃ x ∈ l.landed, x.idx = i) →
      (s.mdState m.toNat ≠ 5 →
        exec (.loadCompletion m) s = .next ((((s.complete m.toNat l).endLoad m.toNat).mdTo m.toNat 2).resumeGroup m.toNat))
      ∧ (s.mdState m.toNat = 5 → exec (.loadCompletion m) s
        = .next (((((s.complete m.toNat l).endLoad m.toNat).mdSetGoal m.toNat 0).mdTo m.toNat 2).resumeGroup m.toNat)))

/-- DRAIN_DEADLINE, STREAM_START, STREAM_SHARD_COPY, SEAL_SWEEP and MODEL_FRAME_PUSH. When a drain is seen to be over (log entry 94), the sweep
of a queued shard in DRAINING (96) and whole pages a command (97) are the model's choices. -/
def Obligations.WeightsOverTime : Prop :=
  ∀ (s : State) (m : Byte), s.live = true →
    (∀ d, s.wts.drains.find? (fun d => d.model == m.toNat) = some d →
      (s.time < d.due → exec (.drainDeadline m) s = .next s)
      ∧ (d.due ≤ s.time → (∀ p ∈ d.marks, s.ctxState p.1 ≠ 1 ∧ s.ctxState p.1 ≠ 2) → exec (.drainDeadline m) s
          = .next ((s.modWts (fun w => { w with drains := w.drains.map (fun x =>
              if x.model = d.model then { x with late := [] } else x) })).checkDrains))
      ∧ (∀ p, d.due ≤ s.time → d.marks = [p] → (s.ctxState p.1 = 1 ∨ s.ctxState p.1 = 2) →
          (∀ c, onCore s p.1 = some c → killable s c = true) → exec (.drainDeadline m) s
          = .next ((((s.action p.1 4).rejectCtx d.model p.1 p.2).modWts (fun w => { w with drains := w.drains.map (fun x =>
              if x.model = d.model then { x with late := [] } else x) })).checkDrains)))
    ∧ (∀ x blk, s.wts.streams.find? (fun x => x.model == m.toNat) = some x → blk = s.md m.toNat 0x28 8 → s.mdState m.toNat = 2 →
      (x.on = false → x.bnd + bits (s.rdLE (blk + 0x20) 4) 26 0 ≤ s.time → exec (.streamStart m) s
        = .next ((((s.streamSem m.toNat (s.rdLE (blk + 0x10) 8) 0).streamSem m.toNat (s.rdLE (blk + 0x18) 8) 0)).modStream m.toNat
            (fun y => { y with on := true })))
      ∧ (∀ w, x.on = true → x.j < x.list.length → w = s.rdLE (blk + 0xC) 1 → w ≠ 0 → x.j < w → exec (.streamShardCopy m) s
        = .next ((((List.range (recRange s m.toNat (x.list.getD x.j 0)).2).foldl (fun t p => t.streamPage m.toNat
            ((recRange s m.toNat (x.list.getD x.j 0)).1 + p) (s.rdLE blk 8 / 65536 + x.j % w * s.rdLE (blk + 8) 4 + p)) s).streamSem
              m.toNat (s.rdLE (blk + 0x10) 8) (x.j + 1)).modStream m.toNat (fun y => { y with j := x.j + 1 })))
      ∧ (x.list.length ≤ x.j → exec (.streamShardCopy m) s = .next s))
    ∧ (∀ k i r, s.wts.sweeps = (k, i) :: r → s.lanes < 32 → ∀ t, t = s.modWts (fun w => { w with sweeps := r }) →
      (s.mdState k = 0 → exec .sealSweep s = .next t)
      ∧ (∀ u, (s.mdState k = 2 ∨ s.mdState k = 3) → s.md4 k 7 7 = 1 → s.active (s.mdPart k) = true → i < s.mdCount k →
        u = (shardRanges t k i).foldl (fun v p => ownerMeet (t.mdOwner k) (pageCount p.1 p.2) p.1 p.2 v) t →
        ((shardInPlace u k i).2 = true → sha384 (shardInPlace u k i).1 = u.rdBytes (s.shardAddr k i) 48 → exec .sealSweep s
          = .next ((u.wrLE (s.shardAddr k i + 0x48) 8 (u.rdLE (s.shardAddr k i + 0x48) 8 + s.sweepGap)).bump WTS.SWEEPS.COUNT 1))
        ∧ (((shardInPlace u k i).2 = false ∨ sha384 (shardInPlace u k i).1 ≠ u.rdBytes (s.shardAddr k i) 48) → exec .sealSweep s
          = .next (u.sweepMismatch k i))))
    ∧ (s.wts.sweeps = [] → exec .sealSweep s = .next s)
    ∧ (∀ n tn t f r, s.wts.pushes = (m.toNat, n, tn, t, f) :: r → exec (.modelFramePush m) s
        = .next ((s.modWts (fun w => { w with pushes := r })).pushFrame (toPart n) tn t f))
    ∧ (s.wts.pushes = [] → exec (.modelFramePush m) s = .next s)

/-- ERR_ACK, CONSUMER_WRITE, COALESCE_INTERVAL_END, HEALTH_WINDOW_END, PROBATION, RESET_STATE, JOB_WRITE, STATE_LOST and
TRACE_SLOT_RELEASE; `healthTo` writes the record and the In-Band Interrupt cause of a state change. A write that acts here stands for a
register write of an agent that reaches the register (log entry 175). -/
def Obligations.HealthAndErrors : Prop :=
  ∀ (s : State) (n : PartIx) (d : BitVec 4) (v : BitVec 32), s.live = true →
    exec (.errAck d) s = .next ((s.put (ERR.DOMAIN_d.HANDLING d.toNat) 0).put (ERR.DOMAIN_d.LEVEL d.toNat) 0)
    ∧ (s.get ERR.PRODUCER.SEQ < 2 ^ 32 → v.toNat ≤ s.get ERR.PRODUCER.SEQ →
      (s.get ERR.PRODUCER.SEQ - v.toNat ≤ 4096 → exec (.consumerWrite v) s = .next (s.put ERR.CONSUMER.SEQ v.toNat))
      ∧ (4096 < s.get ERR.PRODUCER.SEQ - v.toNat → exec (.consumerWrite v) s = .next s))
    ∧ (s.get ERR.PRODUCER.SEQ < v.toNat → v.toNat ≤ s.get ERR.PRODUCER.SEQ + 1000 → exec (.consumerWrite v) s = .next s)
    ∧ (∀ (code : BitVec 16) iv, s.rates.find? (fun i => i.domain == d.toNat && i.code == code.toNat) = some iv → iv.due ≤ s.time →
      exec (.coalesceIntervalEnd d code) s = .next (s.closeRate iv))
    ∧ ((s.part n).health.from_ + s.healthWindow ≤ s.time → exec (.healthWindowEnd n) s = .next (s.healthEnd n))
    ∧ (s.time < (s.part n).health.from_ + s.healthWindow → exec (.healthWindowEnd n) s = .next s)
    ∧ (s.served = true → exec (.probation n) s = .next (((s.afterBoundary n).put (HLT.SCORE_n.CLEAN n) 0).healthTo n 1))
    ∧ (s.served = true → s.get (HLT.SCORE_n.STATE n) = 2 →
        exec (.resetState n) s = .next (((s.afterBoundary n).put (HLT.SCORE_n.CLEAN n) 0).healthTo n 1))
    ∧ (s.get (HLT.SCORE_n.STATE n) ≠ 2 → exec (.resetState n) s = .next s)
    ∧ (∀ w : Word, s.settable = true → Completes (.jobWrite w) s (fun t => t.get HLT.JOB.JOB_ID = w.toNat % 2 ^ 32
        ∧ t.get HLT.JOB.LOGICAL = w.toNat / 2 ^ 32 % 2 ^ 16 ∧ t.get HLT.JOB.LOST = 0
        ∧ sameFieldsBut [HLT.JOB.JOB_ID, HLT.JOB.LOGICAL, HLT.JOB.LOST] s t ∧ t.mem = s.mem ∧ t.synd = s.synd))
    ∧ (s.served = true → exec .stateLost s = .next ((s.raise
        { code := 0x56, domain := 0, d0 := s.get HLT.JOB.JOB_ID + 4294967296 * s.get HLT.JOB.LOGICAL }).put HLT.JOB.LOST 1))
    ∧ (∀ k : Fin 2, (s.get (RST.TRACE_SLOT_k.STATE k) = 2 → exec (.traceSlotRelease k) s = .next (s.put (RST.TRACE_SLOT_k.STATE k) 0))
      ∧ (s.get (RST.TRACE_SLOT_k.STATE k) ≠ 2 → exec (.traceSlotRelease k) s = .next s))

/-- UNIT_RESET, UNIT_RESET_END, PARTITION_RESET, PARTITION_RESET_END, RESET_STEP_LATE, CHIP_RESET and ACLK_LOCK_LOST; `chipStepOn` is what an
aclk of a chip reset does. How long a step of a reset takes within its maximum is free (log entry 103); that refused writes store ERR only
(101), that a chip reset drops the open rate intervals and a second request does nothing (105), and when a step is late (156) are the model's
choices. -/
def Obligations.ResetCommands : Prop :=
  ∀ (s : State) (c : CoreIx) (n : PartIx), s.live = true →
    (∀ u : BitVec 4, (10 < u.toNat ∨ (s.part (partOf c)).inReset = true ∨ s.active (partOf c) = false ∨ s.on RST.UNIT.BUSY = true →
        exec (.unitReset c u) s = .next (s.flag RST.UNIT.ERR 1))
      ∧ (∀ x, u.toNat ≤ 10 → (s.part (partOf c)).inReset = false → s.active (partOf c) = true → s.on RST.UNIT.BUSY = false →
        x = ((s.put RST.UNIT.CORE c.val).put RST.UNIT.UNIT u.toNat).put RST.UNIT.BUSY 1 →
        (killable x c = true → exec (.unitReset c u) s = .next ((((x.killSeg c 10).put (DBG.CORE_c.STEPPING c)
          (s.get (DBG.CORE_c.STEPPING c))).discardUnit c u.toNat).modCore c (fun k => { k with unitReset := some (u.toNat, s.time, false) })))
        ∧ (killable x c = false → exec (.unitReset c u) s = .next ((((x.killAlso c 10).put (DBG.CORE_c.STEPPING c)
          (s.get (DBG.CORE_c.STEPPING c))).discardUnit c u.toNat).modCore c (fun k => { k with unitReset := some (u.toNat, s.time, false) })))))
    ∧ (∀ u t0, s.on RST.UNIT.BUSY = true → (s.core c).unitReset = some (u, t0) → (∀ d : CoreIx, d ≠ c → (s.core d).unitReset = none) →
      exec .unitResetEnd s = .next (((s.put RST.UNIT.BUSY 0).modCore c (fun k => { k with unitReset := none })).raise
        { code := 0x52, domain := domPart (partOf c), core := c.val, unit := u, d0 := 2 + 256 * c.val + 4096 * u }))
    ∧ (∀ (v : State) (r t : Bool), v = s.afterBoundary n →
      (v.on (RST.PART_n.BUSY n) = true → exec (.partitionReset n r t) s = .next (v.flag (RST.PART_n.ERR n) 1))
      ∧ (v.on (RST.PART_n.BUSY n) = false →
        ∀ x : State, x = State.modPart (((v.putB (RST.PART_n.MODE n) r).putB (RST.PART_n.TRACE n) t).put (RST.PART_n.BUSY n) 1) n
            (fun p => { p with resetRetain := r, resetTrace := t }) →
        (v.get (PART.POWER_n.STATE n) = 3 → exec (.partitionReset n r t) s = .next (x.modPart n (fun p => { p with resetWait := true })))
        ∧ (v.get (PART.POWER_n.STATE n) ≠ 3 → exec (.partitionReset n r t) s = .next (x.beginReset n)
            ∧ (x.beginReset n).get (RST.PART_n.STEP n) = 1)))
    ∧ (∀ f, s.on (RST.PART_n.BUSY n) = true → (s.part n).inReset = true → s.boot.resetDue = none →
      (s.get (RST.PART_n.STEP n) = 9 → exec (.partitionResetEnd n f) s = .next (s.endReset n f))
      ∧ (s.get (RST.PART_n.STEP n) ≠ 9 → exec (.partitionResetEnd n f) s = .next s))
    ∧ (∀ (st t : BitVec 4) (m : PartIx), m = toPart t.toNat →
      (∀ d, (coresOf m).find? s.lateKill = some d → exec (.resetStepLate 1 st t) s
        = .next ((s.modCore d (fun k => { k with killed := k.killed.map (fun x => { x with late := true }) })).raiseAt
            { code := 0x53, domain := domPart m, d0 := 1 + 16 * st.toNat + 256 * t.toNat } 2))
      ∧ (∀ d, (coresOf m).find? s.lateUnit = some d → exec (.resetStepLate 2 st t) s
        = .next ((s.modCore d (fun k => { k with unitReset := k.unitReset.map (fun u => (u.1, u.2.1, true)) })).raiseAt
            { code := 0x53, domain := domPart m, d0 := 2 + 16 * st.toNat + 256 * t.toNat } 3))
      ∧ (s.on (RST.PART_n.BUSY m) = true → (s.part m).resetWait = false →
        s.get (RST.PART_n.STEP m) = st.toNat → (s.part m).late.contains st.toNat = false →
        (s.part m).stepAt + partStepMax (s.part m).resetRetain st.toNat < s.time → exec (.resetStepLate 3 st t) s = .next ((s.modPart m (fun q => { q with late := q.late ++ [st.toNat] })).raiseAt
            { code := 0x53, domain := domPart m, d0 := 3 + 16 * st.toNat + 256 * t.toNat } 4))
      ∧ (s.on (RST.PART_n.BUSY m) = false → exec (.resetStepLate 3 st t) s = .next s)
      ∧ (∀ at_, st ≠ 0 → s.chipStep = (st.toNat, at_) → s.boot.late.contains st.toNat = false →
        at_ + chipStepMax s.boot.retained st.toNat < s.time → exec (.resetStepLate 4 st t) s = .next (State.raiseAt { s with boot := { s.boot with late := s.boot.late ++ [st.toNat] } }
            { code := 0x53, domain := 0, d0 := 4 + 16 * st.toNat + 256 * t.toNat } 5))
      ∧ (s.chipStep.1 ≠ st.toNat → exec (.resetStepLate 4 st t) s = .next s))
    ∧ Completes .aclkLockLost s (fun t => t.eeprom = s.eeprom ∧ t.fuses = s.fuses ∧ t.flashA = s.flashA ∧ t.flashB = s.flashB
        ∧ t.get RST.PERSIST.LAST_CAUSE = 3 ∧ t.get BOOT.STATUS.STAGE = 0 ∧ t.get ERR.PRODUCER.SEQ = s.writeRecs.get ERR.PRODUCER.SEQ)
    ∧ (s.boot.resetDue = none →
      (s.attached = false → ∀ b : Bool, Completes (.chipReset b) s (fun t => t.boot.resetDue = some s.time ∧ t.boot.chipTrace = b
        ∧ t.boot.chipStop = false ∧ (∀ m, (t.part m).inReset = true) ∧ t.mem = s.mem ∧ t.fuses = s.fuses))
      ∧ (s.attached = true → ∀ b : Bool, Completes (.chipReset b) s (fun t => t.boot.resetDue = some (s.time + 8000000)
        ∧ t.boot.chipTrace = b ∧ t.get BOOT.STATUS.STAGE = s.get BOOT.STATUS.STAGE ∧ t.mem = s.mem ∧ t.fuses = s.fuses)))
    ∧ (∀ d, s.boot.resetDue = some d → s.boot.chipTrace = false →
      (s.boot.chipStop = false → s.tracer = none → s.get FRL.STATUS.FLUSH_BUSY = 0 ∨ d ≤ s.time →
        s.chipStepOn = { s with boot := { s.boot with chipStop := true, stepAt := s.time } })
      ∧ (s.boot.chipStop = false → s.get FRL.STATUS.FLUSH_BUSY ≠ 0 → s.time < d → s.chipStepOn = s)
      ∧ (∀ t : State, s.boot.chipStop = true → s.draw.1.toNat % 2 = 1 → t = s.chipStepOn → t.eeprom = s.eeprom ∧ t.fuses = s.fuses
        ∧ t.flashA = s.flashA ∧ t.flashB = s.flashB ∧ t.get RST.PERSIST.LAST_CAUSE = 1 ∧ t.get BOOT.STATUS.STAGE = 0))
    ∧ (∀ b : Bool, s.boot.resetDue.isSome = true → exec (.chipReset b) s = .next s)

/-- BOOT_ROM_START, VELLUM_TEST, MEMORY_PREPARATION, SHELL_INIT, START, ATTESTATION_REQUEST and REPORT_READY. When the boot ROM starts (log
entry 111), read errors as its operands (112), what START does in its one command (117) and which fuses fail to burn (107) are the model's
choices. -/
def Obligations.BootStages : Prop :=
  ∀ (s : State), s.live = true →
    (∀ a b : Bool, s.get BOOT.STATUS.STAGE = 0 → s.boot.stopped = false →
      (s.power.bootAt ≤ s.time → exec (.bootRomStart a b) s = .next (s.bootRom a b))
      ∧ (s.time < s.power.bootAt → exec (.bootRomStart a b) s = .next s))
    ∧ (∀ a b : Bool, s.boot.stopped = true → exec (.bootRomStart a b) s = .next s)
    ∧ (s.get BOOT.STATUS.STAGE = 2 → Completes (.vellumTest []) s (fun t => t.get BOOT.STATUS.STAGE = 3
        ∧ (∀ a : Nat, a < 0x400000000 → t.rd8 a = 0 ∧ t.poisoned a = false)
        ∧ (∀ a : Nat, 0x400000000 ≤ a → t.rd8 a = s.rd8 a) ∧ sameFieldsBut [BOOT.STATUS.STAGE] s t))
    ∧ (∀ bad, s.get BOOT.STATUS.STAGE = 2 → Completes (.vellumTest bad) s (fun t => t.get BOOT.STATUS.STAGE = 3
        ∧ (∀ a : Nat, a < 0x400000000 → t.rd8 a = 0 ∧ t.poisoned a = false)))
    ∧ (∀ (b : Fin 2048) (w : BitVec 16) (x : State), s.get BOOT.STATUS.STAGE = 2 →
        (s.remapped b.val).contains (65536 * b.val + w.toNat) = false →
        (((s.remapped b.val).length + Sparse.get s.boot.spares b.val 0 < 64 ∧ x = State.raise { s with boot := { s.boot with
            spares := Sparse.insert s.boot.spares b.val (Sparse.get s.boot.spares b.val 0 + 1) } }
              { code := 0x64, domain := 0, addr := bankLine b.val w.toNat })
          ∨ (64 ≤ (s.remapped b.val).length + Sparse.get s.boot.spares b.val 0 ∧ x = s.coreVellumOut (b.val / 128))) →
        exec (.vellumTest [(b, w)]) s = .next (State.put { x.scrubZero 0 0x400000000 with boot := { x.boot with stepAt := s.time } }
          BOOT.STATUS.STAGE 3))
    ∧ (∀ f, s.get BOOT.STATUS.STAGE = 3 → exec (.memoryPreparation f) s
      = .next ((forParts allParts (fun n t => t.prepareMemory f n) { s with boot := { s.boot with stepAt := s.time } }).put BOOT.STATUS.STAGE 4))
    ∧ (∀ i : BitVec 6, s.get BOOT.STATUS.STAGE = 4 → s.boot.shellOk = false → s.boot.stopped = false →
      (s.identityBad ≠ 0 → exec (.shellInit i) s = .next ((s.raise { code := 0x51, domain := 0, d0 := s.identityBad }).bootStop 15))
      ∧ (∀ o, s.identityBad = 0 → configBad s.boot.config = some o →
          exec (.shellInit i) s = .next ((s.raise { code := 0x65, domain := 0, d0 := o }).bootStop 4))
      ∧ (s.identityBad = 0 → configBad s.boot.config = none → exec (.shellInit i) s = .next (s.initShell i.toNat)))
    ∧ (∀ bad, s.get BOOT.STATUS.STAGE = 4 → s.boot.shellOk = true → s.on BOOT.STATUS.STARTED = false →
      Completes (.start bad) s (fun t => t.get BOOT.STATUS.STAGE = 5 ∧ t.get BOOT.STATUS.READY = 1 ∧ t.on BOOT.STATUS.STARTED = true))
    ∧ (∀ bad, s.on BOOT.STATUS.STARTED = true → exec (.start bad) s = .next s)
    ∧ (s.on BOOT.ATT_CTRL.BUSY = true ∨ s.on BOOT.STATUS.STARTED = false →
        exec .attestationRequest s = .next (s.flag BOOT.ATT_CTRL.ERR 1))
    ∧ (s.on BOOT.ATT_CTRL.BUSY = false → s.on BOOT.STATUS.STARTED = true → Completes .attestationRequest s (fun t =>
        t.on BOOT.ATT_CTRL.BUSY = true ∧ t.boot.nonce = (List.range 8).flatMap (fun i => toLE 4 (s.get (BOOT.ATT_NONCE_i.BYTES i)))
        ∧ sameFieldsBut [BOOT.ATT_CTRL.BUSY] s t ∧ t.mem = s.mem ∧ t.synd = s.synd))
    ∧ (∀ b : Bool, s.on BOOT.ATT_CTRL.BUSY = true →
      (s.boot.key.isSome = true → s.boot.h10Leaf < 1024 → exec (.reportReady b) s = .next s.produce)
      ∧ (s.boot.key = none → s.boot.block = none → (∀ j : Nat, j < 2048 → bit s.fuses (4096 + j) = true) →
        exec (.reportReady b) s = .next ((s.raise { code := 0x6B, domain := 0 }).attEnd 3))
      ∧ (∀ j, s.boot.key = none → s.boot.block = none → (List.range 2048).find? (fun j => !(bit s.fuses (4096 + j))) = some j →
        exec (.reportReady false) s = .next (((s.raise { code := 0x6A, domain := 0, d0 := 4096 + j }).putFree BOOT.ATT_CTRL.RESULT).put
          BOOT.ATT_CTRL.BUSY 0)))
    ∧ (∀ b : Bool, s.on BOOT.ATT_CTRL.BUSY = false → exec (.reportReady b) s = .next s)
end

