-- ==== Sys2Proof/Laws/Sparse.lean ====
section
/-! SUPPORT. Laws/Sparse.lean: reading after writing in sparse maps, and the canonical form. -/

namespace Sys2Proof.Machine

theorem Sparse.find?_insert_same {α : Type} (m : Sparse α) (a : Nat) (v : α) : Sparse.find? (Sparse.insert m a v) a = some v := by
  induction m with
  | nil => simp [Sparse.insert, Sparse.find?]
  | cons p r ih =>
    obtain ⟨k, w⟩ := p
    simp only [Sparse.insert]
    split
    · simp [Sparse.find?]
    · split
      · simp [Sparse.find?]
      · rename_i h1 h2
        have : ¬ k = a := fun h => h2 h.symm
        simp [Sparse.find?, this, ih]

theorem Sparse.find?_insert_other {α : Type} (m : Sparse α) (a b : Nat) (v : α) (h : b ≠ a) :
    Sparse.find? (Sparse.insert m a v) b = Sparse.find? m b := by
  have hab : ¬ a = b := fun e => h e.symm
  induction m with
  | nil => simp [Sparse.insert, Sparse.find?, hab]
  | cons p r ih =>
    obtain ⟨k, w⟩ := p
    simp only [Sparse.insert]
    split
    · simp [Sparse.find?, hab]
    · split
      · rename_i h1 h2
        subst h2
        simp [Sparse.find?, hab]
      · simp only [Sparse.find?]
        split
        · rfl
        · exact ih

theorem Sparse.get_insert_same {α : Type} (m : Sparse α) (a : Nat) (v d : α) : Sparse.get (Sparse.insert m a v) a d = v := by
  simp [Sparse.get, Sparse.find?_insert_same]

theorem Sparse.get_insert_other {α : Type} (m : Sparse α) (a b : Nat) (v d : α) (h : b ≠ a) :
    Sparse.get (Sparse.insert m a v) b d = Sparse.get m b d := by
  simp [Sparse.get, Sparse.find?_insert_other m a b v h]

theorem Sparse.find?_filter {α : Type} (m : Sparse α) (p : Nat → Bool) (a : Nat) :
    Sparse.find? (m.filter (fun q => p q.1)) a = if p a then Sparse.find? m a else none := by
  induction m with
  | nil => simp [Sparse.find?]
  | cons q r ih =>
    obtain ⟨k, w⟩ := q
    by_cases hk : p k = true
    · rw [List.filter_cons_of_pos (by simpa using hk)]
      simp only [Sparse.find?]
      by_cases h : k = a
      · subst h; simp [hk]
      · simp [h, ih]
    · rw [List.filter_cons_of_neg (by simpa using hk), ih]
      by_cases h : k = a
      · subst h; simp [hk]
      · simp [Sparse.find?, h]

theorem Sparse.find?_erase {α : Type} (m : Sparse α) (a b : Nat) :
    Sparse.find? (Sparse.erase m a) b = if b = a then none else Sparse.find? m b := by
  have := Sparse.find?_filter m (fun k => k != a) b
  simp only [Sparse.erase]
  rw [this]
  by_cases h : b = a <;> simp [h]

theorem Sparse.get_set_same {α : Type} [DecidableEq α] (m : Sparse α) (a : Nat) (v d : α) :
    Sparse.get (Sparse.set m a v d) a d = v := by
  unfold Sparse.set
  split
  · rename_i h; simp [Sparse.get, Sparse.find?_erase, h]
  · exact Sparse.get_insert_same m a v d

theorem Sparse.get_set_other {α : Type} [DecidableEq α] (m : Sparse α) (a b : Nat) (v d : α) (h : b ≠ a) :
    Sparse.get (Sparse.set m a v d) b d = Sparse.get m b d := by
  unfold Sparse.set
  split
  · simp [Sparse.get, Sparse.find?_erase, h]
  · exact Sparse.get_insert_other m a b v d h

theorem Sparse.find?_eraseRange {α : Type} (m : Sparse α) (lo hi b : Nat) :
    Sparse.find? (Sparse.eraseRange m lo hi) b = if lo ≤ b ∧ b < hi then none else Sparse.find? m b := by
  have := Sparse.find?_filter m (fun k => !(decide (lo ≤ k) && decide (k < hi))) b
  simp only [Sparse.eraseRange]
  rw [this]
  by_cases h : lo ≤ b ∧ b < hi
  · simp [h]
  · have h' : ¬ (decide (lo ≤ b) && decide (b < hi)) = true := by simpa using h
    simp [h, h']

/-! ### The canonical form -/

/-- Every key of a list lies above a bound. -/
def Sparse.above {α : Type} (m : Sparse α) (b : Nat) : Prop := ∀ p ∈ m, b < p.1

theorem Sparse.rising_cons {α : Type} (k : Nat) (w : α) (r : Sparse α) :
    Sparse.rising ((k, w) :: r) = true ↔ Sparse.above r k ∧ Sparse.rising r = true := by
  induction r generalizing k w with
  | nil => simp [Sparse.rising, Sparse.above]
  | cons p r ih =>
    obtain ⟨j, v⟩ := p
    have h1 : Sparse.rising ((k, w) :: (j, v) :: r) = (decide (k < j) && Sparse.rising ((j, v) :: r)) := rfl
    rw [h1]
    constructor
    · intro h
      simp only [Bool.and_eq_true, decide_eq_true_eq] at h
      refine ⟨?_, h.2⟩
      intro q hq
      rcases List.mem_cons.mp hq with rfl | hq
      · exact h.1
      · exact Nat.lt_trans h.1 (((ih j v).mp h.2).1 q hq)
    · intro h
      simp only [Bool.and_eq_true, decide_eq_true_eq]
      exact ⟨h.1 (j, v) (by simp), h.2⟩

theorem Sparse.rising_filter {α : Type} (m : Sparse α) (p : Nat × α → Bool) (h : Sparse.rising m = true) :
    Sparse.rising (m.filter p) = true := by
  induction m with
  | nil => simpa using h
  | cons q r ih =>
    obtain ⟨k, w⟩ := q
    have hr := (Sparse.rising_cons k w r).mp h
    by_cases hp : p (k, w) = true
    · rw [List.filter_cons_of_pos hp]
      refine (Sparse.rising_cons k w _).mpr ⟨?_, ih hr.2⟩
      intro q hq
      exact hr.1 q (List.mem_filter.mp hq).1
    · rw [List.filter_cons_of_neg hp]
      exact ih hr.2

theorem Sparse.above_insert {α : Type} (m : Sparse α) (a b : Nat) (v : α) (hb : b < a) (h : Sparse.above m b) :
    Sparse.above (Sparse.insert m a v) b := by
  induction m with
  | nil => intro p hp; simp [Sparse.insert] at hp; subst hp; exact hb
  | cons q r ih =>
    obtain ⟨k, w⟩ := q
    have hk : b < k := h (k, w) (by simp)
    have hr : Sparse.above r b := fun p hp => h p (by simp [hp])
    simp only [Sparse.insert]
    split
    · intro p hp
      rcases List.mem_cons.mp hp with rfl | hp
      · exact hb
      · exact h p hp
    · split
      · intro p hp
        rcases List.mem_cons.mp hp with rfl | hp
        · exact hb
        · exact hr p hp
      · intro p hp
        rcases List.mem_cons.mp hp with rfl | hp
        · exact hk
        · exact ih hr p hp

theorem Sparse.rising_insert {α : Type} (m : Sparse α) (a : Nat) (v : α) (h : Sparse.rising m = true) :
    Sparse.rising (Sparse.insert m a v) = true := by
  induction m with
  | nil => simp [Sparse.insert, Sparse.rising]
  | cons q r ih =>
    obtain ⟨k, w⟩ := q
    have hr := (Sparse.rising_cons k w r).mp h
    simp only [Sparse.insert]
    split
    · rename_i hlt
      refine (Sparse.rising_cons a v _).mpr ⟨?_, h⟩
      intro p hp
      rcases List.mem_cons.mp hp with rfl | hp
      · exact hlt
      · exact Nat.lt_trans hlt (hr.1 p hp)
    · split
      · rename_i he
        subst he
        exact (Sparse.rising_cons a v r).mpr hr
      · rename_i h1 h2
        exact (Sparse.rising_cons k w _).mpr ⟨Sparse.above_insert r a k v (by omega) hr.1, ih hr.2⟩

theorem Sparse.mem_insert {α : Type} (m : Sparse α) (a : Nat) (v : α) (p : Nat × α) (h : p ∈ Sparse.insert m a v) :
    p = (a, v) ∨ p ∈ m := by
  induction m with
  | nil => left; simpa [Sparse.insert] using h
  | cons q r ih =>
    obtain ⟨k, w⟩ := q
    simp only [Sparse.insert] at h
    split at h
    · rcases List.mem_cons.mp h with h | h
      · exact .inl h
      · exact .inr h
    · split at h
      · rcases List.mem_cons.mp h with h | h
        · exact .inl h
        · exact .inr (List.mem_cons_of_mem _ h)
      · rcases List.mem_cons.mp h with h | h
        · exact .inr (by simp [h])
        · rcases ih h with h | h
          · exact .inl h
          · exact .inr (List.mem_cons_of_mem _ h)

theorem Sparse.wf_filter {α : Type} [DecidableEq α] (m : Sparse α) (d : α) (p : Nat × α → Bool) (h : Sparse.wf m d = true) :
    Sparse.wf (m.filter p) d = true := by
  simp only [Sparse.wf, Bool.and_eq_true, List.all_eq_true] at h ⊢
  exact ⟨Sparse.rising_filter m p h.1, fun q hq => h.2 q (List.mem_filter.mp hq).1⟩

theorem Sparse.wf_erase {α : Type} [DecidableEq α] (m : Sparse α) (a : Nat) (d : α) (h : Sparse.wf m d = true) :
    Sparse.wf (Sparse.erase m a) d = true := Sparse.wf_filter m d _ h

theorem Sparse.wf_eraseRange {α : Type} [DecidableEq α] (m : Sparse α) (lo hi : Nat) (d : α) (h : Sparse.wf m d = true) :
    Sparse.wf (Sparse.eraseRange m lo hi) d = true := Sparse.wf_filter m d _ h

/-- Storing keeps the canonical form. -/
theorem Sparse.wf_set {α : Type} [DecidableEq α] (m : Sparse α) (a : Nat) (v d : α) (h : Sparse.wf m d = true) :
    Sparse.wf (Sparse.set m a v d) d = true := by
  unfold Sparse.set
  split
  · exact Sparse.wf_erase m a d h
  · rename_i hv
    simp only [Sparse.wf, Bool.and_eq_true, List.all_eq_true] at h ⊢
    refine ⟨Sparse.rising_insert m a v h.1, ?_⟩
    intro q hq
    rcases Sparse.mem_insert m a v q hq with rfl | hq
    · simpa using hv
    · exact h.2 q hq

end Sys2Proof.Machine
end

