-- ==== Sys2Proof/Laws/Keeps.lean ====
section
/-! SUPPORT. Laws/Keeps.lean: what every command leaves: the queue as it was, burned fuses burned, the factory area of the EEPROM as
written, and memory in canonical form. The files Laws/Keeps*.lean show it of each operation of the model in turn. -/

namespace Sys2Proof.Machine

/-- t comes from u by an operation of the module. -/
structure Keeps (u t : State) : Prop where
  queue   : t.pending = u.pending
  fuses   : fusesKept u t
  factory : ∀ a, a < 0x200 → Sparse.find? t.eeprom a = Sparse.find? u.eeprom a
  mem     : u.memWf = true → t.memWf = true

theorem Keeps.refl (s : State) : Keeps s s := ⟨rfl, fun _ h => h, fun _ _ => rfl, fun h => h⟩

theorem Keeps.trans {a b c : State} (h : Keeps a b) (k : Keeps b c) : Keeps a c :=
  ⟨k.queue.trans h.queue, fun i x => k.fuses i (h.fuses i x), fun a x => (k.factory a x).trans (h.factory a x), fun x => k.mem (h.mem x)⟩

/-- Nothing that Keeps speaks of has changed. -/
theorem Keeps.of_eq {u s t : State} (h : Keeps u s) (e1 : t.pending = s.pending) (e2 : t.fuses = s.fuses) (e3 : t.eeprom = s.eeprom)
    (e4 : t.mem = s.mem) (e5 : t.synd = s.synd) : Keeps u t :=
  ⟨e1.trans h.queue, fun i x => by rw [e2]; exact h.fuses i x, fun a x => by rw [e3]; exact h.factory a x,
    fun x => by have := h.mem x; simpa [State.memWf, e4, e5] using this⟩

/-- Nothing that Keeps speaks of has changed in a record written out. -/
theorem Keeps.of_mk {u s : State} {time : Nat} {slots : Vector Nat 4} {free : Nat} {regs : Sparse Nat} {force : Sparse Nat}
    {shPend : List (Nat × Nat)} {noted : Sparse Nat} {before : Sparse Nat} {acts : List (Nat × Nat)} {fallen : List (Nat × Core)}
    {lkNow : List (Nat × Nat)} {agents : Vector AgentSt 4} {power : PowerSt} {lineErrs : List LineErr} {parts : Vector Part 4}
    {cores : Vector Core 16} {errs : List ErrRecord} {newErrs : List (ErrRecord × Nat)} {rates : List RateIv} {ferrule : Ferrule}
    {ferruleTx : List FMsg} {cancels : List (Nat × Nat × Nat)} {profiles : List (List Byte)} {wts : WtsSt} {scrub : Nat}
    {mgt : MgtSt} {i3cTx : List I3cMsg} {chart : ChartSt} {links : Vector LinkSt 11} {bootIx : Nat} {boot : BootSt}
    {onaut : OnautSt} {flashA : Sparse Byte} {flashB : Sparse Byte} {trace0 : List Byte} {trace1 : List Byte}
    {tracer : Option TraceSt} {cap : List Byte}
    (h : Keeps u s) :
    Keeps u (State.mk s.pending time slots free regs force shPend noted before acts fallen lkNow agents power s.eeprom s.mem s.synd
      lineErrs parts cores errs newErrs rates ferrule ferruleTx cancels profiles wts scrub mgt i3cTx chart links bootIx boot onaut
      flashA flashB s.fuses trace0 trace1 tracer cap) := h.of_eq rfl rfl rfl rfl rfl

/-- Memory and check bits change and stay in canonical form. -/
theorem Keeps.of_mem {u s t : State} (h : Keeps u s) (e1 : t.pending = s.pending) (e2 : t.fuses = s.fuses) (e3 : t.eeprom = s.eeprom)
    (e4 : Sparse.wf s.mem 0 = true → Sparse.wf t.mem 0 = true) (e5 : Sparse.wf s.synd 0 = true → Sparse.wf t.synd 0 = true) : Keeps u t :=
  ⟨e1.trans h.queue, fun i x => by rw [e2]; exact h.fuses i x, fun a x => by rw [e3]; exact h.factory a x,
    fun x => by
      have := h.mem x
      simp only [State.memWf, Bool.and_eq_true] at this ⊢
      exact ⟨e4 this.1, e5 this.2⟩⟩

/-- The next state of an outcome keeps. -/
def KeepsOut (u : State) (o : Out) : Prop := ∀ t, o = .next t → Keeps u t

theorem KeepsOut.next {u t : State} (h : Keeps u t) : KeepsOut u (.next t) := by
  intro x e
  cases e
  exact h

/-- The state an answer may hold keeps. -/
def KeepsOpt (u : State) (o : Option State) : Prop := ∀ t, o = some t → Keeps u t
def KeepsOptL {α : Type} (u : State) (o : Option (State × α)) : Prop := ∀ t, o = some t → Keeps u t.1
def KeepsOptR {α : Type} (u : State) (o : Option (α × State)) : Prop := ∀ t, o = some t → Keeps u t.2
/-- The same of a grant of a semaphore, whose state stands second. -/
def KeepsOptM {α β : Type} (u : State) (o : Option (α × State × β)) : Prop := ∀ t, o = some t → Keeps u t.2.1
def KeepsL {α : Type} (u : State) (p : State × α) : Prop := Keeps u p.1
def KeepsR {α : Type} (u : State) (p : α × State) : Prop := Keeps u p.2
def KeepsRR {α β : Type} (u : State) (p : α × β × State) : Prop := Keeps u p.2.2

/-- The state a claim answers with keeps. -/
def KeepsGot (u : State) (g : Got) : Prop :=
  match g with
  | .ok t => Keeps u t
  | .wait t => Keeps u t
  | .kill t _ _ => Keeps u t

theorem KeepsOpt.none {u : State} : KeepsOpt u none := fun _ e => by cases e
theorem KeepsOpt.some {u t : State} (h : Keeps u t) : KeepsOpt u (some t) := fun _ e => by cases e; exact h
theorem KeepsOpt.get {u t : State} {o : Option State} (h : KeepsOpt u o) (e : o = Option.some t) : Keeps u t := h t e
theorem KeepsOptL.none {α : Type} {u : State} : KeepsOptL (α := α) u none := fun _ e => by cases e
theorem KeepsOptL.some {α : Type} {u t : State} {a : α} (h : Keeps u t) : KeepsOptL u (some (t, a)) := fun _ e => by cases e; exact h
theorem KeepsOptL.get {α : Type} {u t : State} {a : α} {o : Option (State × α)} (h : KeepsOptL u o) (e : o = Option.some (t, a)) : Keeps u t := h _ e
theorem KeepsOptR.none {α : Type} {u : State} : KeepsOptR (α := α) u none := fun _ e => by cases e
theorem KeepsOptR.some {α : Type} {u t : State} {a : α} (h : Keeps u t) : KeepsOptR u (some (a, t)) := fun _ e => by cases e; exact h
theorem KeepsOptR.get {α : Type} {u t : State} {a : α} {o : Option (α × State)} (h : KeepsOptR u o) (e : o = Option.some (a, t)) : Keeps u t := h _ e
theorem KeepsOptM.none {α β : Type} {u : State} : KeepsOptM (α := α) (β := β) u none := fun _ e => by cases e
theorem KeepsOptM.some {α β : Type} {u t : State} {a : α} {b : β} (h : Keeps u t) : KeepsOptM u (some (a, t, b)) := fun _ e => by cases e; exact h
theorem KeepsOptM.get {α β : Type} {u t : State} {a : α} {b : β} {o : Option (α × State × β)} (h : KeepsOptM u o)
    (e : o = Option.some (a, t, b)) : Keeps u t := h _ e
theorem KeepsOpt.map {α : Type} {u : State} {f : α → State} {o : Option α} (h : ∀ a, Keeps u (f a)) : KeepsOpt u (o.map f) := by
  cases o with
  | none => exact KeepsOpt.none
  | some a => exact KeepsOpt.some (h a)
theorem KeepsOptR.map {α β : Type} {u : State} {f : α → β × State} {o : Option α} (h : ∀ a, Keeps u (f a).2) : KeepsOptR u (o.map f) := by
  cases o with
  | none => exact KeepsOptR.none
  | some a => exact KeepsOptR.some (h a)
theorem KeepsOptR.mapTo {α : Type} {u : State} {f : α × State → State} {o : Option (α × State)} (h : KeepsOptR u o)
    (k : ∀ a t, Keeps u t → Keeps u (f (a, t))) : KeepsOpt u (o.map f) := by
  cases o with
  | none => exact KeepsOpt.none
  | some p => exact KeepsOpt.some (k p.1 p.2 (h p rfl))
theorem KeepsL.of {α : Type} {u t : State} {a : α} (h : Keeps u t) : KeepsL u (t, a) := h
theorem KeepsL.get {α : Type} {u t : State} {a : α} {p : State × α} (h : KeepsL u p) (e : p = (t, a)) : Keeps u t := by cases e; exact h
theorem KeepsL.fst {α : Type} {u : State} {p : State × α} (h : KeepsL u p) : Keeps u p.1 := h
theorem KeepsR.of {α : Type} {u t : State} {a : α} (h : Keeps u t) : KeepsR u (a, t) := h
theorem KeepsR.get {α : Type} {u t : State} {a : α} {p : α × State} (h : KeepsR u p) (e : p = (a, t)) : Keeps u t := by cases e; exact h
theorem KeepsR.snd {α : Type} {u : State} {p : α × State} (h : KeepsR u p) : Keeps u p.2 := h
theorem KeepsRR.of {α β : Type} {u t : State} {a : α} {b : β} (h : Keeps u t) : KeepsRR u (a, b, t) := h
theorem KeepsRR.get {α β : Type} {u t : State} {a : α} {b : β} {p : α × β × State} (h : KeepsRR u p) (e : p = (a, b, t)) : Keeps u t := by
  cases e; exact h
theorem KeepsRR.snd {α β : Type} {u : State} {p : α × β × State} (h : KeepsRR u p) : Keeps u p.2.2 := h
theorem KeepsGot.ofOk {u t : State} (h : Keeps u t) : KeepsGot u (.ok t) := h
theorem KeepsGot.ofWait {u t : State} (h : Keeps u t) : KeepsGot u (.wait t) := h
theorem KeepsGot.ofKill {u t : State} {a b : Nat} (h : Keeps u t) : KeepsGot u (.kill t a b) := h
theorem KeepsGot.ok {u t : State} {g : Got} (h : KeepsGot u g) (e : g = .ok t) : Keeps u t := by cases e; exact h
theorem KeepsGot.wait {u t : State} {g : Got} (h : KeepsGot u g) (e : g = .wait t) : Keeps u t := by cases e; exact h
theorem KeepsGot.kill {u t : State} {a b : Nat} {g : Got} (h : KeepsGot u g) (e : g = .kill t a b) : Keeps u t := by cases e; exact h

theorem ite_keeps {u a b : State} {p : Prop} [Decidable p] (h : Keeps u a) (k : Keeps u b) : Keeps u (if p then a else b) := by
  split
  · exact h
  · exact k

theorem iteOut_keeps {u : State} {a b : Out} {p : Prop} [Decidable p] (h : KeepsOut u a) (k : KeepsOut u b) :
    KeepsOut u (if p then a else b) := by
  split
  · exact h
  · exact k

theorem iteOpt_keeps {u : State} {a b : Option State} {p : Prop} [Decidable p] (h : KeepsOpt u a) (k : KeepsOpt u b) :
    KeepsOpt u (if p then a else b) := by
  split
  · exact h
  · exact k

theorem iteOptR_keeps {α : Type} {u : State} {a b : Option (α × State)} {p : Prop} [Decidable p] (h : KeepsOptR u a)
    (k : KeepsOptR u b) : KeepsOptR u (if p then a else b) := by
  split
  · exact h
  · exact k

theorem iteGot_keeps {u : State} {a b : Got} {p : Prop} [Decidable p] (h : KeepsGot u a) (k : KeepsGot u b) :
    KeepsGot u (if p then a else b) := by
  split
  · exact h
  · exact k

theorem iteR_keeps {α : Type} {u : State} {a b : α × State} {p : Prop} [Decidable p] (h : KeepsR u a) (k : KeepsR u b) :
    KeepsR u (if p then a else b) := by
  split
  · exact h
  · exact k

theorem KeepsOpt.getD {u s : State} {o : Option State} (h : KeepsOpt u o) (k : Keeps u s) : Keeps u (o.getD s) := by
  cases o with
  | none => exact k
  | some t => exact h t rfl

theorem id_keeps {u s : State} (h : Keeps u s) : Keeps u (id s) := h

theorem foldl_snd_keeps {α β : Type} {u : State} {p : β × State} {f : β × State → α → β × State} {l : List α}
    (h : Keeps u p.2) (hf : ∀ q x, Keeps u q.2 → Keeps u (f q x).2) : Keeps u (l.foldl f p).2 := by
  induction l generalizing p with
  | nil => exact h
  | cons a r ih => exact ih (hf p a h)

theorem act_keeps {u s t : State} {g : Bool} (h : Keeps u s) (k : Keeps u t) : KeepsOut u (act s g t) := by
  unfold act
  apply KeepsOut.next
  split
  · exact k
  · exact h

theorem done_keeps {u t : State} (h : Keeps u t) : KeepsOut u (done t) := KeepsOut.next h

theorem after_keeps {u s : State} {o : Out} (h : Keeps u s) (k : KeepsOut u o) : Keeps u (Out.after s o) := by
  unfold Out.after
  split
  · exact k _ rfl
  · exact h

theorem foldl_keeps {α : Type} {u s : State} {f : State → α → State} {l : List α} (h : Keeps u s)
    (hf : ∀ t x, Keeps u t → Keeps u (f t x)) : Keeps u (l.foldl f s) := by
  induction l generalizing s with
  | nil => exact h
  | cons a r ih => exact ih (hf s a h)

theorem upTo_keeps {u s : State} {k : Nat} {f : Nat → State → State} (h : Keeps u s)
    (hf : ∀ i t, Keeps u t → Keeps u (f i t)) : Keeps u (upTo k f s) := by
  induction k with
  | zero => exact h
  | succ k ih => exact hf k _ ih

theorem forParts_keeps {u s : State} {l : List PartIx} {f : PartIx → State → State} (h : Keeps u s)
    (hf : ∀ i t, Keeps u t → Keeps u (f i t)) : Keeps u (forParts l f s) := foldl_keeps h (fun t x k => hf x t k)

theorem forCores_keeps {u s : State} {l : List CoreIx} {f : CoreIx → State → State} (h : Keeps u s)
    (hf : ∀ i t, Keeps u t → Keeps u (f i t)) : Keeps u (forCores l f s) := foldl_keeps h (fun t x k => hf x t k)

/-! ### The operations that touch what Keeps speaks of -/

theorem storeBytes_wf (m : Sparse Byte) (a : Nat) (bs : List Byte) (h : Sparse.wf m 0 = true) : Sparse.wf (storeBytes m a bs) 0 = true := by
  induction bs generalizing m a with
  | nil => exact h
  | cons b r ih => exact ih _ _ (Sparse.wf_set m a b 0 h)

theorem State.wrBytes_keeps {u s : State} {a : Nat} {bs : List Byte} (h : Keeps u s) : Keeps u (s.wrBytes a bs) :=
  h.of_mem rfl rfl rfl (fun x => storeBytes_wf s.mem a bs x) (fun x => Sparse.wf_filter s.synd 0 _ x)

theorem State.poison_keeps {u s : State} {a : Nat} (h : Keeps u s) : Keeps u (s.poison a) :=
  h.of_mem rfl rfl rfl (fun x => x) (fun x => Sparse.wf_set s.synd (a / 4) 0x7F 0 x)

theorem State.scrubZero_keeps {u s : State} {lo hi : Nat} (h : Keeps u s) : Keeps u (s.scrubZero lo hi) :=
  h.of_mem rfl rfl rfl (fun x => Sparse.wf_eraseRange s.mem lo hi 0 x) (fun x => Sparse.wf_eraseRange s.synd (lo / 4) (hi / 4) 0 x)

theorem State.burnBit_keeps {u s : State} {i : Nat} (h : Keeps u s) : Keeps u (s.burnBit i) :=
  ⟨h.queue, fun j x => by
      have hj := h.fuses j x
      show (Nat.lor s.fuses (2 ^ i)).testBit j = true
      have : (s.fuses ||| 2 ^ i).testBit j = true := by rw [Nat.testBit_or, hj]; rfl
      exact this,
    h.factory, h.mem⟩

theorem State.cleared_keeps {u s : State} {b : Bool} (h : Keeps u s) : Keeps u (s.cleared b) :=
  h.of_mem rfl rfl rfl (fun x => Sparse.wf_filter s.mem 0 _ x) (fun x => Sparse.wf_filter s.synd 0 _ x)

theorem State.unpowered_keeps {u s : State} {p : PowerPhase} {b : Bool} (h : Keeps u s) : Keeps u (s.unpowered p b) :=
  h.of_mem rfl rfl rfl (fun _ => rfl) (fun _ => rfl)

/-- A byte above the factory area of the EEPROM is written (R35). -/
theorem eeprom_keeps {u s : State} {a : Nat} {b : Byte} (ha : 0x200 ≤ a) (h : Keeps u s) :
    Keeps u { s with eeprom := Sparse.insert s.eeprom a b } :=
  ⟨h.queue, h.fuses, fun x hx => by
      show Sparse.find? (Sparse.insert s.eeprom a b) x = _
      rw [Sparse.find?_insert_other _ _ _ _ (by omega)]
      exact h.factory x hx, h.mem⟩

end Sys2Proof.Machine
end

