-- ==== Sys2Proof/Laws/KeepsSegments.lean ====
section
/-! SUPPORT. Laws/KeepsSegments.lean: the registers, the memory and the segments of a core keep what Laws/Keeps.lean names, operation by operation; a meaning execX by
execX_keeps. -/

set_option linter.unusedTactic false
set_option linter.unreachableTactic false

namespace Sys2Proof.Machine

/-! ### Machine/Ops.lean -/

theorem State.put_keeps {u : State} {s : State} {f : Field} {v : Nat} (h_s : Keeps u s) : Keeps u (State.put s f v) := by
  unfold State.put
  repeat' first
    | with_reducible assumption
    | fail_if_no_progress with_reducible refine Keeps.of_mk ?_

theorem State.putB_keeps {u : State} {s : State} {f : Field} {v : Bool} (h_s : Keeps u s) : Keeps u (State.putB s f v) := by
  unfold State.putB
  repeat' first
    | (with_reducible first
        | assumption | refine State.put_keeps ?_)
    | fail_if_no_progress with_reducible refine Keeps.of_mk ?_

theorem State.setCore_keeps {u : State} {s : State} {c : CoreIx} {k : Core} (h_s : Keeps u s) : Keeps u (State.setCore s c k) := by
  unfold State.setCore
  repeat' first
    | with_reducible assumption
    | fail_if_no_progress with_reducible refine Keeps.of_mk ?_

theorem State.modCore_keeps {u : State} {s : State} {c : CoreIx} {f : Core → Core}
    (h_s : Keeps u s) : Keeps u (State.modCore s c f) := by
  unfold State.modCore
  repeat' first
    | (with_reducible first
        | assumption | refine State.setCore_keeps ?_ | intro _)
    | fail_if_no_progress with_reducible refine Keeps.of_mk ?_

theorem State.wrLE_keeps {u : State} {s : State} {x1 : Nat} {k : Nat} {v : Nat} (h_s : Keeps u s) : Keeps u (State.wrLE s x1 k v) := by
  unfold State.wrLE
  repeat' first
    | (with_reducible first
        | assumption | refine State.wrBytes_keeps ?_ | refine ite_keeps ?_ ?_)
    | dsimp only | split
    | fail_if_no_progress with_reducible refine Keeps.of_mk ?_

theorem State.setPart_keeps {u : State} {s : State} {n : PartIx} {p : Part} (h_s : Keeps u s) : Keeps u (State.setPart s n p) := by
  unfold State.setPart
  repeat' first
    | with_reducible assumption
    | fail_if_no_progress with_reducible refine Keeps.of_mk ?_

theorem State.modPart_keeps {u : State} {s : State} {n : PartIx} {f : Part → Part}
    (h_s : Keeps u s) : Keeps u (State.modPart s n f) := by
  unfold State.modPart
  repeat' first
    | (with_reducible first
        | assumption | refine State.setPart_keeps ?_ | intro _)
    | fail_if_no_progress with_reducible refine Keeps.of_mk ?_

theorem State.note_keeps {u : State} {s : State} {f : Field} {v : Nat} (h_s : Keeps u s) : Keeps u (State.note s f v) := by
  unfold State.note
  repeat' first
    | with_reducible assumption
    | fail_if_no_progress with_reducible refine Keeps.of_mk ?_

theorem State.bumpSat_keeps {u : State} {s : State} {f : Field} {k : Nat} (h_s : Keeps u s) : Keeps u (State.bumpSat s f k) := by
  unfold State.bumpSat
  repeat' first
    | (with_reducible first
        | assumption | refine State.put_keeps ?_)
    | fail_if_no_progress with_reducible refine Keeps.of_mk ?_

theorem State.keepOld_keeps {u : State} {s : State} {f : Field} (h_s : Keeps u s) : Keeps u (State.keepOld s f) := by
  unfold State.keepOld
  repeat' first
    | (with_reducible first
        | assumption | intro _)
    | fail_if_no_progress with_reducible refine Keeps.of_mk ?_

theorem State.tally_keeps {u : State} {s : State} {f : Field} {k : Nat} (h_s : Keeps u s) : Keeps u (State.tally s f k) := by
  unfold State.tally
  repeat' first
    | (with_reducible first
        | assumption | refine State.note_keeps ?_ | refine State.bumpSat_keeps ?_ | refine State.keepOld_keeps ?_)
    | fail_if_no_progress with_reducible refine Keeps.of_mk ?_

theorem State.produceRec_keeps {u : State} {s : State} {r : ErrRecord} {b : Nat}
    (h_s : Keeps u s) : Keeps u (State.produceRec s r b) := by
  unfold State.produceRec
  repeat' first
    | with_reducible assumption
    | fail_if_no_progress with_reducible refine Keeps.of_mk ?_

theorem State.raiseAt_keeps {u : State} {s : State} {r : ErrRecord} {b : Nat} (h_s : Keeps u s) : Keeps u (State.raiseAt s r b) := by
  unfold State.raiseAt
  repeat' first
    | (with_reducible first
        | assumption | refine State.produceRec_keeps ?_ | refine ite_keeps ?_ ?_ | intro _)
    | dsimp only | split
    | fail_if_no_progress with_reducible refine Keeps.of_mk ?_

theorem State.raise_keeps {u : State} {s : State} {r : ErrRecord} (h_s : Keeps u s) : Keeps u (State.raise s r) := by
  unfold State.raise
  repeat' first
    | (with_reducible first
        | assumption | refine State.raiseAt_keeps ?_)
    | fail_if_no_progress with_reducible refine Keeps.of_mk ?_

theorem State.poisonAt_keeps {u : State} {s : State} {x1 : Nat} {offs : List Nat}
    (h_s : Keeps u s) : Keeps u (State.poisonAt s x1 offs) := by
  unfold State.poisonAt
  repeat' first
    | (with_reducible first
        | assumption | refine State.poison_keeps ?_ | refine foldl_keeps ?_ ?_ | refine foldl_snd_keeps ?_ ?_ | intro _)
    | fail_if_no_progress with_reducible refine Keeps.of_mk ?_

theorem State.ctxWr_keeps {u : State} {s : State} {k : Nat} {off : Nat} {bytes : Nat} {v : Nat}
    (h_s : Keeps u s) : Keeps u (State.ctxWr s k off bytes v) := by
  unfold State.ctxWr
  repeat' first
    | (with_reducible first
        | assumption | refine State.wrLE_keeps ?_)
    | fail_if_no_progress with_reducible refine Keeps.of_mk ?_

theorem State.ctxBump_keeps {u : State} {s : State} {k : Nat} {off : Nat} {bytes : Nat} {d : Nat}
    (h_s : Keeps u s) : Keeps u (State.ctxBump s k off bytes d) := by
  unfold State.ctxBump
  repeat' first
    | (with_reducible first
        | assumption | refine State.ctxWr_keeps ?_)
    | fail_if_no_progress with_reducible refine Keeps.of_mk ?_

theorem State.bump_keeps {u : State} {s : State} {f : Field} {k : Nat} (h_s : Keeps u s) : Keeps u (State.bump s f k) := by
  unfold State.bump
  repeat' first
    | (with_reducible first
        | assumption | refine State.put_keeps ?_)
    | fail_if_no_progress with_reducible refine Keeps.of_mk ?_

theorem State.frlRecord_keeps {u : State} {s : State} {m : FMsg} {part : Option Nat} {kind : FKind} {intr : Option Nat}
    (h_s : Keeps u s) : KeepsR u (State.frlRecord s m part kind intr) := by
  unfold State.frlRecord
  repeat' first
    | with_reducible assumption
    | refine KeepsR.of ?_
    | fail_if_no_progress with_reducible refine Keeps.of_mk ?_

theorem State.setCache_keeps {u : State} {s : State} {c : List CacheLine} (h_s : Keeps u s) : Keeps u (State.setCache s c) := by
  unfold State.setCache
  repeat' first
    | (with_reducible first
        | assumption | refine State.put_keeps ?_)
    | fail_if_no_progress with_reducible refine Keeps.of_mk ?_

theorem State.delLine_keeps {u : State} {s : State} {x1 : Nat} (h_s : Keeps u s) : Keeps u (State.delLine s x1) := by
  unfold State.delLine
  repeat' first
    | (with_reducible first
        | assumption | refine State.setCache_keeps ?_ | intro _)
    | fail_if_no_progress with_reducible refine Keeps.of_mk ?_

theorem State.retag_keeps {u : State} {s : State} {kind : FKind} {tag : Nat} (h_s : Keeps u s) : Keeps u (State.retag s kind tag) := by
  unfold State.retag
  repeat' first
    | (with_reducible first
        | assumption | refine State.modCore_keeps ?_ | refine ite_keeps ?_ ?_ | intro _)
    | dsimp only | split
    | fail_if_no_progress with_reducible refine Keeps.of_mk ?_

theorem State.modLink_keeps {u : State} {s : State} {l : LinkIx} {f : LinkSt → LinkSt}
    (h_s : Keeps u s) : Keeps u (State.modLink s l f) := by
  unfold State.modLink
  repeat' first
    | (with_reducible first
        | assumption | intro _)
    | fail_if_no_progress with_reducible refine Keeps.of_mk ?_

theorem State.closeFrame_keeps {u : State} {s : State} {l : LinkIx} (h_s : Keeps u s) : Keeps u (State.closeFrame s l) := by
  unfold State.closeFrame
  repeat' first
    | (with_reducible first
        | assumption | refine State.modLink_keeps ?_ | refine ite_keeps ?_ ?_ | intro _)
    | dsimp only | split
    | fail_if_no_progress with_reducible refine Keeps.of_mk ?_

theorem State.putFlits_keeps {u : State} {s : State} {l : LinkIx} {bs : List Byte}
    (h_s : Keeps u s) : Keeps u (State.putFlits s l bs) := by
  unfold State.putFlits
  repeat' first
    | (with_reducible first
        | assumption | refine State.modLink_keeps ?_ | refine State.closeFrame_keeps ?_ | refine ite_keeps ?_ ?_ | intro _)
    | dsimp only | split
    | fail_if_no_progress with_reducible refine Keeps.of_mk ?_

theorem State.frlOut_keeps {u : State} {s : State} {m : FMsg} (h_s : Keeps u s) : Keeps u (State.frlOut s m) := by
  unfold State.frlOut
  repeat' first
    | (with_reducible first
        | assumption | refine State.putFlits_keeps ?_ | intro _)
    | fail_if_no_progress with_reducible refine Keeps.of_mk ?_

theorem State.freshTag_keeps {u : State} {s : State} {unit : Nat} {gen : Nat}
    (h_s : Keeps u s) : KeepsOptR u (State.freshTag s unit gen) := by
  unfold State.freshTag
  exact KeepsOptR.map (fun _ => Keeps.of_mk h_s)

theorem State.frlTag_keeps {u : State} {s : State} {kind : FKind} (h_s : Keeps u s) : KeepsOptR u (State.frlTag s kind) := by
  unfold State.frlTag
  repeat' first
    | (with_reducible first
        | assumption | refine State.freshTag_keeps ?_ | exact KeepsOptR.none | refine KeepsOptR.some ?_)
    | dsimp only | split
    | with_reducible refine KeepsOptR.get (State.freshTag_keeps ?_) (by with_reducible assumption)
    | fail_if_no_progress with_reducible refine Keeps.of_mk ?_

theorem State.frlTry_keeps {u : State} {s : State} {x : FOut} (h_s : Keeps u s) : KeepsOpt u (State.frlTry s x) := by
  unfold State.frlTry
  dsimp only
  split
  · split
    · exact KeepsOpt.some h_s
    · exact iteOpt_keeps (KeepsOptR.mapTo (State.frlTag_keeps h_s)
        (fun _ _ ht => State.frlOut_keeps (Keeps.of_mk (State.retag_keeps ht)))) KeepsOpt.none
  · exact iteOpt_keeps (KeepsOpt.some (State.frlOut_keeps h_s)) KeepsOpt.none

theorem frlPumpGo_keeps {u : State} {x0 : List FOut} {x1 : List (BitVec 2)} {x2 : State}
    (h_x2 : Keeps u x2) : KeepsR u (frlPumpGo x0 x1 x2) := by
  induction x0 generalizing x1 x2 with
  | nil => exact h_x2
  | cons m r ih =>
    unfold frlPumpGo
    split
    · rename_i t ht
      exact ih (KeepsOpt.get (iteOpt_keeps KeepsOpt.none (State.frlTry_keeps h_x2)) ht)
    · exact KeepsR.of (KeepsR.snd (ih h_x2))

theorem State.frlPump_keeps {u : State} {s : State} (h_s : Keeps u s) : Keeps u (State.frlPump s) := by
  unfold State.frlPump
  repeat' first
    | (with_reducible first
        | assumption | refine frlPumpGo_keeps ?_ | refine KeepsR.snd (frlPumpGo_keeps ?_))
    | dsimp only | split
    | (with_reducible first
        | refine KeepsR.get (frlPumpGo_keeps ?_) (by with_reducible assumption) | refine KeepsR.of ?_)
    | fail_if_no_progress with_reducible refine Keeps.of_mk ?_

theorem State.frlPush_keeps {u : State} {s : State} {x : FOut} (h_s : Keeps u s) : Keeps u (State.frlPush s x) := by
  unfold State.frlPush
  repeat' first
    | (with_reducible first
        | assumption | refine State.frlPump_keeps ?_)
    | fail_if_no_progress with_reducible refine Keeps.of_mk ?_

theorem State.frlRequest_keeps {u : State} {s : State} {m : FMsg} {part : Option Nat} {kind : FKind} {intr : Option Nat}
    (h_s : Keeps u s) : Keeps u (State.frlRequest s m part kind intr) := by
  unfold State.frlRequest
  repeat' first
    | (with_reducible first
        | assumption | refine State.frlRecord_keeps ?_ | refine State.frlPush_keeps ?_ | refine KeepsR.snd (State.frlRecord_keeps ?_))
    | dsimp only | split
    | (with_reducible first
        | refine KeepsR.get (State.frlRecord_keeps ?_) (by with_reducible assumption) | refine KeepsR.of ?_)
    | fail_if_no_progress with_reducible refine Keeps.of_mk ?_

theorem State.putLine_keeps {u : State} {s : State} {l : CacheLine} (h_s : Keeps u s) : Keeps u (State.putLine s l) := by
  unfold State.putLine
  repeat' first
    | (with_reducible first
        | assumption | refine State.setCache_keeps ?_ | refine ite_keeps ?_ ?_ | intro _)
    | dsimp only | split
    | fail_if_no_progress with_reducible refine Keeps.of_mk ?_

theorem State.evict_keeps {u : State} {s : State} {l : CacheLine} (h_s : Keeps u s) : Keeps u (State.evict s l) := by
  unfold State.evict
  repeat' first
    | (with_reducible first
        | assumption | refine State.delLine_keeps ?_ | refine State.frlRequest_keeps ?_ | refine State.putLine_keeps ?_
        | refine State.poison_keeps ?_)
    | dsimp only | split
    | fail_if_no_progress with_reducible refine Keeps.of_mk ?_

theorem State.frlUncached_keeps {u : State} {s : State} {x : FOut} (h_s : Keeps u s) : Keeps u (State.frlUncached s x) := by
  unfold State.frlUncached
  repeat' first
    | (with_reducible first
        | assumption | refine State.evict_keeps ?_ | refine State.frlPush_keeps ?_ | refine foldl_keeps ?_ ?_
        | refine foldl_snd_keeps ?_ ?_ | refine ite_keeps ?_ ?_ | intro _)
    | dsimp only | split
    | fail_if_no_progress with_reducible refine Keeps.of_mk ?_

theorem State.frlDirect_keeps {u : State} {s : State} {addr : Nat} {bytes : List Byte} {kind : FKind} {intr : Option Nat}
    (h_s : Keeps u s) : Keeps u (State.frlDirect s addr bytes kind intr) := by
  unfold State.frlDirect
  repeat' first
    | (with_reducible first
        | assumption | refine State.frlRecord_keeps ?_ | refine State.frlUncached_keeps ?_
        | refine KeepsR.snd (State.frlRecord_keeps ?_))
    | dsimp only | split
    | (with_reducible first
        | refine KeepsR.get (State.frlRecord_keeps ?_) (by with_reducible assumption) | refine KeepsR.of ?_)
    | fail_if_no_progress with_reducible refine Keeps.of_mk ?_

theorem State.event_keeps {u : State} {s : State} {k : Nat} {code : Nat} {detail : Nat}
    (h_s : Keeps u s) : Keeps u (State.event s k code detail) := by
  unfold State.event
  repeat' first
    | (with_reducible first
        | assumption | refine State.ctxWr_keeps ?_ | refine State.frlDirect_keeps ?_ | refine State.bump_keeps ?_
        | refine ite_keeps ?_ ?_)
    | dsimp only | split
    | fail_if_no_progress with_reducible refine Keeps.of_mk ?_

theorem State.wrBits_keeps {u : State} {s : State} {x1 : Nat} {k : Nat} {hi : Nat} {lo : Nat} {v : Nat}
    (h_s : Keeps u s) : Keeps u (State.wrBits s x1 k hi lo v) := by
  unfold State.wrBits
  repeat' first
    | (with_reducible first
        | assumption | refine State.wrLE_keeps ?_)
    | fail_if_no_progress with_reducible refine Keeps.of_mk ?_

theorem State.ctxSetBoundaryKills_keeps {u : State} {s : State} {k : Nat} {v : Nat}
    (h_s : Keeps u s) : Keeps u (State.ctxSetBoundaryKills s k v) := by
  unfold State.ctxSetBoundaryKills
  repeat' first
    | (with_reducible first
        | assumption | refine State.wrBits_keeps ?_)
    | fail_if_no_progress with_reducible refine Keeps.of_mk ?_

theorem State.ctxSetState_keeps {u : State} {s : State} {k : Nat} {v : Nat} (h_s : Keeps u s) : Keeps u (State.ctxSetState s k v) := by
  unfold State.ctxSetState
  repeat' first
    | (with_reducible first
        | assumption | refine State.wrBits_keeps ?_)
    | fail_if_no_progress with_reducible refine Keeps.of_mk ?_

theorem State.drop_keeps {u : State} {s : State} {f : Field} {k : Nat} (h_s : Keeps u s) : Keeps u (State.drop s f k) := by
  unfold State.drop
  repeat' first
    | (with_reducible first
        | assumption | refine State.put_keeps ?_)
    | fail_if_no_progress with_reducible refine Keeps.of_mk ?_

theorem State.flag_keeps {u : State} {s : State} {f : Field} {m : Nat} (h_s : Keeps u s) : Keeps u (State.flag s f m) := by
  unfold State.flag
  repeat' first
    | (with_reducible first
        | assumption | refine State.note_keeps ?_ | refine State.put_keeps ?_)
    | fail_if_no_progress with_reducible refine Keeps.of_mk ?_

theorem State.setAside_keeps {u : State} {s : State} {tags : List Nat} (h_s : Keeps u s) : Keeps u (State.setAside s tags) := by
  unfold State.setAside
  repeat' first
    | (with_reducible first
        | assumption | intro _)
    | fail_if_no_progress with_reducible refine Keeps.of_mk ?_

theorem State.applySh_keeps {u : State} {s : State} {n : PartIx} {own : Bool} {shell : Bool}
    (h_s : Keeps u s) : Keeps u (State.applySh s n own shell) := by
  unfold State.applySh
  repeat' first
    | (with_reducible first
        | assumption | refine foldl_keeps ?_ ?_ | refine foldl_snd_keeps ?_ ?_ | intro _)
    | dsimp only | split
    | fail_if_no_progress with_reducible refine Keeps.of_mk ?_

theorem State.draw_keeps {u : State} {s : State} (h_s : Keeps u s) : KeepsR u (State.draw s) := by
  unfold State.draw
  repeat' first
    | with_reducible assumption
    | refine KeepsR.of ?_
    | fail_if_no_progress with_reducible refine Keeps.of_mk ?_

theorem State.mdWr_keeps {u : State} {s : State} {m : Nat} {off : Nat} {k : Nat} {v : Nat}
    (h_s : Keeps u s) : Keeps u (State.mdWr s m off k v) := by
  unfold State.mdWr
  repeat' first
    | with_reducible assumption
    | fail_if_no_progress with_reducible refine Keeps.of_mk ?_

theorem State.md4Wr_keeps {u : State} {s : State} {m : Nat} {hi : Nat} {lo : Nat} {v : Nat}
    (h_s : Keeps u s) : Keeps u (State.md4Wr s m hi lo v) := by
  unfold State.md4Wr
  repeat' first
    | (with_reducible first
        | assumption | refine State.mdWr_keeps ?_)
    | fail_if_no_progress with_reducible refine Keeps.of_mk ?_

theorem State.tell_keeps {u : State} {s : State} {l : LinkIx} (h_s : Keeps u s) : Keeps u (State.tell s l) := by
  unfold State.tell
  repeat' first
    | (with_reducible first
        | assumption | refine State.modLink_keeps ?_ | intro _)
    | fail_if_no_progress with_reducible refine Keeps.of_mk ?_

theorem State.frlSend_keeps {u : State} {s : State} {m : FMsg} (h_s : Keeps u s) : Keeps u (State.frlSend s m) := by
  unfold State.frlSend
  repeat' first
    | (with_reducible first
        | assumption | refine State.frlPush_keeps ?_)
    | fail_if_no_progress with_reducible refine Keeps.of_mk ?_

theorem State.sendIntr_keeps {u : State} {s : State} {vec : Nat} (h_s : Keeps u s) : Keeps u (State.sendIntr s vec) := by
  unfold State.sendIntr
  repeat' first
    | (with_reducible first
        | assumption | refine State.frlRequest_keeps ?_ | refine ite_keeps ?_ ?_)
    | dsimp only | split
    | fail_if_no_progress with_reducible refine Keeps.of_mk ?_

theorem State.domainStep_keeps {u : State} {s : State} {d : Nat} {b : Nat} (h_s : Keeps u s) : KeepsRR u (State.domainStep s d b) := by
  unfold State.domainStep
  repeat' first
    | (with_reducible first
        | assumption | refine State.bump_keeps ?_ | refine State.put_keeps ?_ | refine ite_keeps ?_ ?_)
    | dsimp only | split
    | refine KeepsRR.of ?_
    | fail_if_no_progress with_reducible refine Keeps.of_mk ?_

theorem State.mirrorRec_keeps {u : State} {s : State} {r : ErrRecord} (h_s : Keeps u s) : Keeps u (State.mirrorRec s r) := by
  unfold State.mirrorRec
  repeat' first
    | (with_reducible first
        | assumption | refine State.frlDirect_keeps ?_ | refine State.sendIntr_keeps ?_ | refine ite_keeps ?_ ?_)
    | dsimp only | split
    | fail_if_no_progress with_reducible refine Keeps.of_mk ?_

theorem State.ibiTry_keeps {u : State} {s : State} (h_s : Keeps u s) : Keeps u (State.ibiTry s) := by
  unfold State.ibiTry
  repeat' first
    | (with_reducible first
        | assumption | refine ite_keeps ?_ ?_)
    | dsimp only | split
    | fail_if_no_progress with_reducible refine Keeps.of_mk ?_

theorem State.ibiCause_keeps {u : State} {s : State} {f : Field} (h_s : Keeps u s) : Keeps u (State.ibiCause s f) := by
  unfold State.ibiCause
  repeat' first
    | (with_reducible first
        | assumption | refine State.ibiTry_keeps ?_ | refine State.flag_keeps ?_)
    | fail_if_no_progress with_reducible refine Keeps.of_mk ?_

theorem State.logRec_keeps {u : State} {s : State} {r : ErrRecord} {b : Nat} (h_s : Keeps u s) : Keeps u (State.logRec s r b) := by
  unfold State.logRec
  repeat' first
    | (with_reducible first
        | assumption | refine State.domainStep_keeps ?_ | refine State.flag_keeps ?_ | refine State.bump_keeps ?_
        | refine State.mirrorRec_keeps ?_ | refine State.put_keeps ?_ | refine State.ibiCause_keeps ?_
        | refine KeepsRR.snd (State.domainStep_keeps ?_) | refine ite_keeps ?_ ?_)
    | dsimp only | split
    | (with_reducible first
        | refine KeepsRR.get (State.domainStep_keeps ?_) (by with_reducible assumption) | refine KeepsR.of ?_)
    | fail_if_no_progress with_reducible refine Keeps.of_mk ?_

theorem State.writeRecs_keeps {u : State} {s : State} (h_s : Keeps u s) : Keeps u (State.writeRecs s) := by
  unfold State.writeRecs
  repeat' first
    | (with_reducible first
        | assumption | refine State.logRec_keeps ?_ | refine foldl_keeps ?_ ?_ | refine foldl_snd_keeps ?_ ?_ | intro _)
    | fail_if_no_progress with_reducible refine Keeps.of_mk ?_

theorem State.clearRegs_keeps {u : State} {s : State} {lo : Nat} {hi : Nat} (h_s : Keeps u s) : Keeps u (State.clearRegs s lo hi) := by
  unfold State.clearRegs
  repeat' first
    | (with_reducible first
        | assumption | intro _)
    | fail_if_no_progress with_reducible refine Keeps.of_mk ?_

theorem State.frameDue_keeps {u : State} {s : State} {l : LinkIx} (h_s : Keeps u s) : Keeps u (State.frameDue s l) := by
  unfold State.frameDue
  repeat' first
    | (with_reducible first
        | assumption | refine State.closeFrame_keeps ?_ | refine ite_keeps ?_ ?_)
    | dsimp only | split
    | fail_if_no_progress with_reducible refine Keeps.of_mk ?_

theorem State.pendSh_keeps {u : State} {s : State} {key : Nat} {owner : Nat}
    (h_s : Keeps u s) : Keeps u (State.pendSh s key owner) := by
  unfold State.pendSh
  repeat' first
    | (with_reducible first
        | assumption | intro _)
    | fail_if_no_progress with_reducible refine Keeps.of_mk ?_

theorem State.putForce_keeps {u : State} {s : State} {f : Field} {v : Nat} (h_s : Keeps u s) : Keeps u (State.putForce s f v) := by
  unfold State.putForce
  repeat' first
    | (with_reducible first
        | assumption | refine State.put_keeps ?_ | intro _)
    | fail_if_no_progress with_reducible refine Keeps.of_mk ?_

theorem State.unpark_keeps {u : State} {s : State} (h_s : Keeps u s) : Keeps u (State.unpark s) := by
  unfold State.unpark
  repeat' first
    | (with_reducible first
        | assumption | refine State.frlUncached_keeps ?_ | refine foldl_keeps ?_ ?_ | refine foldl_snd_keeps ?_ ?_ | intro _)
    | fail_if_no_progress with_reducible refine Keeps.of_mk ?_

/-! ### Machine/Flags.lean -/

theorem State.scaleRing_keeps {u : State} {s : State} {x1 : Nat} (h_s : Keeps u s) : Keeps u (State.scaleRing s x1) := by
  unfold State.scaleRing
  repeat' first
    | (with_reducible first
        | assumption | refine State.wrLE_keeps ?_ | refine foldl_keeps ?_ ?_ | refine foldl_snd_keeps ?_ ?_ | refine ite_keeps ?_ ?_
        | intro _)
    | dsimp only | split
    | fail_if_no_progress with_reducible refine Keeps.of_mk ?_

theorem State.scaleStep_keeps {u : State} {s : State} {n : PartIx} {i : Nat} {k : Nat}
    (h_s : Keeps u s) : Keeps u (State.scaleStep s n i k) := by
  unfold State.scaleStep
  repeat' first
    | (with_reducible first
        | assumption | refine State.scaleRing_keeps ?_ | refine State.wrLE_keeps ?_ | refine State.wrBits_keeps ?_
        | refine State.event_keeps ?_ | refine State.bump_keeps ?_ | refine State.flag_keeps ?_ | refine State.raise_keeps ?_
        | refine State.wrBytes_keeps ?_ | refine ite_keeps ?_ ?_)
    | dsimp only | split
    | fail_if_no_progress with_reducible refine Keeps.of_mk ?_

theorem State.mergeCapture_keeps {u : State} {s : State} {n : PartIx} {c : Capture}
    (h_s : Keeps u s) : Keeps u (State.mergeCapture s n c) := by
  unfold State.mergeCapture
  repeat' first
    | (with_reducible first
        | assumption | refine State.wrLE_keeps ?_ | refine State.flag_keeps ?_ | refine State.wrBits_keeps ?_ | refine ite_keeps ?_ ?_
        | intro _)
    | dsimp only | split
    | fail_if_no_progress with_reducible refine Keeps.of_mk ?_

/-! ### Machine/Words.lean -/

theorem State.migDirty_keeps {u : State} {s : State} {base : Nat} {ls : List Nat}
    (h_s : Keeps u s) : Keeps u (State.migDirty s base ls) := by
  unfold State.migDirty
  repeat' first
    | (with_reducible first
        | assumption | refine forParts_keeps ?_ ?_ | refine State.modPart_keeps ?_ | refine ite_keeps ?_ ?_ | intro _)
    | dsimp only | split
    | fail_if_no_progress with_reducible refine Keeps.of_mk ?_

theorem State.modHealth_keeps {u : State} {s : State} {n : PartIx} {f : HealthAcc → HealthAcc}
    (h_s : Keeps u s) : Keeps u (State.modHealth s n f) := by
  unfold State.modHealth
  repeat' first
    | (with_reducible first
        | assumption | refine State.modPart_keeps ?_ | intro _)
    | fail_if_no_progress with_reducible refine Keeps.of_mk ?_

theorem State.modChan_keeps {u : State} {s : State} {n : PartIx} {t : Nat} {ch : Nat} {f : ChanCount → ChanCount}
    (h_s : Keeps u s) : Keeps u (State.modChan s n t ch f) := by
  unfold State.modChan
  repeat' first
    | (with_reducible first
        | assumption | refine State.modPart_keeps ?_ | refine ite_keeps ?_ ?_ | intro _)
    | dsimp only | split
    | fail_if_no_progress with_reducible refine Keeps.of_mk ?_

theorem State.markChan_keeps {u : State} {s : State} {n : PartIx} {t : Nat} {ch : Nat} {reason : Nat}
    (h_s : Keeps u s) : Keeps u (State.markChan s n t ch reason) := by
  unfold State.markChan
  repeat' first
    | (with_reducible first
        | assumption | refine State.raise_keeps ?_ | refine State.modPart_keeps ?_ | refine State.put_keeps ?_ | refine ite_keeps ?_ ?_
        | intro _)
    | dsimp only | split
    | fail_if_no_progress with_reducible refine Keeps.of_mk ?_

theorem State.chanError_keeps {u : State} {s : State} {n : PartIx} {t : Nat} {ch : Nat} {ue : Bool}
    (h_s : Keeps u s) : Keeps u (State.chanError s n t ch ue) := by
  unfold State.chanError
  repeat' first
    | (with_reducible first
        | assumption | refine State.modChan_keeps ?_ | refine State.markChan_keeps ?_ | refine ite_keeps ?_ ?_ | intro _)
    | dsimp only | split
    | fail_if_no_progress with_reducible refine Keeps.of_mk ?_

theorem State.corrected_keeps {u : State} {s : State} {x1 : Nat} {t : Nat} {n : PartIx} {o : Nat} {y : Nat}
    (h_s : Keeps u s) : Keeps u (State.corrected s x1 t n o y) := by
  unfold State.corrected
  have h0 : Keeps u { s with synd := Sparse.erase s.synd (x1 / 4) } :=
    h_s.of_mem rfl rfl rfl (fun x => x) (fun x => Sparse.wf_erase s.synd (x1 / 4) 0 x)
  have h2 := State.raise_keeps (r := { code := 1, domain := domPart n, addr := x1, d0 := s.memDetail n x1 t o y })
    (State.modHealth_keeps (n := n) (f := fun h => { h with ce := h.ce + 1 })
      (State.tally_keeps (f := ceField n t) (k := 1) (State.migDirty_keeps (base := 65536 * (x1 / 65536)) (ls := [x1 % 65536 / 128]) h0)))
  exact ite_keeps h2 (State.chanError_keeps h2)

theorem State.uncorrected_keeps {u : State} {s : State} {x1 : Nat} {t : Nat} {n : PartIx} {o : Nat} {y : Nat}
    (h_s : Keeps u s) : Keeps u (State.uncorrected s x1 t n o y) := by
  unfold State.uncorrected
  repeat' first
    | (with_reducible first
        | assumption | refine State.modHealth_keeps ?_ | refine State.tally_keeps ?_ | refine State.migDirty_keeps ?_
        | refine State.poison_keeps ?_ | refine State.raise_keeps ?_ | refine State.chanError_keeps ?_ | refine ite_keeps ?_ ?_
        | intro _)
    | dsimp only | split
    | fail_if_no_progress with_reducible refine Keeps.of_mk ?_

theorem State.meetWord_keeps {u : State} {s : State} {x1 : Nat} {y : Nat} {again : Bool}
    (h_s : Keeps u s) : Keeps u (State.meetWord s x1 y again) := by
  unfold State.meetWord
  repeat' first
    | (with_reducible first
        | assumption | refine State.corrected_keeps ?_ | refine State.tally_keeps ?_ | refine State.uncorrected_keeps ?_
        | refine ite_keeps ?_ ?_)
    | dsimp only | split
    | fail_if_no_progress with_reducible refine Keeps.of_mk ?_

theorem State.burstRun_keeps {u : State} {s : State} {n : PartIx} {ch : Nat} {failed : Bool}
    (h_s : Keeps u s) : Keeps u (State.burstRun s n ch failed) := by
  unfold State.burstRun
  repeat' first
    | (with_reducible first
        | assumption | refine State.modChan_keeps ?_ | refine State.markChan_keeps ?_ | refine ite_keeps ?_ ?_ | intro _)
    | dsimp only | split
    | fail_if_no_progress with_reducible refine Keeps.of_mk ?_

theorem State.badWords_keeps {u : State} {s : State} {x1 : Nat} {ws : List Nat} {again : Bool}
    (h_s : Keeps u s) : Keeps u (State.badWords s x1 ws again) := by
  unfold State.badWords
  repeat' first
    | (with_reducible first
        | assumption | refine State.meetWord_keeps ?_ | refine foldl_keeps ?_ ?_ | refine foldl_snd_keeps ?_ ?_
        | refine ite_keeps ?_ ?_ | intro _)
    | dsimp only | split
    | fail_if_no_progress with_reducible refine Keeps.of_mk ?_

theorem State.burst_keeps {u : State} {s : State} {x1 : Nat} {o : Nat} {n : PartIx} {crc : List (Fin 5)} {again : Bool} {i : Nat}
    (h_s : Keeps u s) : Keeps u (State.burst s x1 o n crc again i) := by
  unfold State.burst
  repeat' first
    | (with_reducible first
        | assumption | refine State.burstRun_keeps ?_ | refine State.badWords_keeps ?_ | refine ite_keeps ?_ ?_ | intro _)
    | dsimp only | split
    | fail_if_no_progress with_reducible refine Keeps.of_mk ?_

theorem State.rewrite_keeps {u : State} {s : State} {x1 : Nat} {w : Fin 32 × BitVec 7} {r : LineRead}
    (h_s : Keeps u s) : Keeps u (State.rewrite s x1 w r) := by
  unfold State.rewrite
  repeat' first
    | (with_reducible first
        | assumption | refine State.poisonAt_keeps ?_ | refine ite_keeps ?_ ?_)
    | dsimp only | split
    | fail_if_no_progress with_reducible refine Keeps.of_mk ?_

theorem State.lineMet_keeps {u : State} {s : State} {e : LineErr} {x2 : Nat} {k : Nat}
    (h_s : Keeps u s) : Keeps u (State.lineMet s e x2 k) := by
  unfold State.lineMet
  repeat' first
    | (with_reducible first
        | assumption | refine State.burst_keeps ?_ | refine State.badWords_keeps ?_ | refine State.meetWord_keeps ?_
        | refine State.rewrite_keeps ?_ | refine foldl_keeps ?_ ?_ | refine foldl_snd_keeps ?_ ?_ | refine ite_keeps ?_ ?_ | intro _)
    | dsimp only | split
    | fail_if_no_progress with_reducible refine Keeps.of_mk ?_

theorem State.meet_keeps {u : State} {s : State} {x1 : Nat} {k : Nat} (h_s : Keeps u s) : Keeps u (State.meet s x1 k) := by
  unfold State.meet
  repeat' first
    | (with_reducible first
        | assumption | refine State.meetWord_keeps ?_ | refine State.lineMet_keeps ?_ | refine foldl_keeps ?_ ?_
        | refine foldl_snd_keeps ?_ ?_ | intro _)
    | fail_if_no_progress with_reducible refine Keeps.of_mk ?_

theorem State.wrote_keeps {u : State} {s : State} {x1 : Nat} {k : Nat} (h_s : Keeps u s) : Keeps u (State.wrote s x1 k) := by
  unfold State.wrote
  repeat' first
    | (with_reducible first
        | assumption | refine State.burstRun_keeps ?_ | refine State.poisonAt_keeps ?_ | refine foldl_keeps ?_ ?_
        | refine foldl_snd_keeps ?_ ?_ | refine ite_keeps ?_ ?_ | intro _)
    | dsimp only | split
    | fail_if_no_progress with_reducible refine Keeps.of_mk ?_

/-! ### Machine/Operands.lean -/

theorem State.modSeg_keeps {u : State} {s : State} {c : CoreIx} {f : Seg → Seg} (h_s : Keeps u s) : Keeps u (State.modSeg s c f) := by
  unfold State.modSeg
  repeat' first
    | (with_reducible first
        | assumption | refine State.modCore_keeps ?_ | intro _)
    | fail_if_no_progress with_reducible refine Keeps.of_mk ?_

theorem State.showFree_keeps {u : State} {s : State} {n : PartIx} {t : Nat} (h_s : Keeps u s) : Keeps u (State.showFree s n t) := by
  unfold State.showFree
  repeat' first
    | (with_reducible first
        | assumption | refine State.put_keeps ?_)
    | fail_if_no_progress with_reducible refine Keeps.of_mk ?_

theorem State.pushPool_keeps {u : State} {s : State} {n : PartIx} {t : Nat} {f : Nat}
    (h_s : Keeps u s) : Keeps u (State.pushPool s n t f) := by
  unfold State.pushPool
  repeat' first
    | (with_reducible first
        | assumption | refine State.showFree_keeps ?_ | refine State.modPart_keeps ?_ | intro _)
    | fail_if_no_progress with_reducible refine Keeps.of_mk ?_

theorem State.fenceRecord_keeps {u : State} {s : State} {c : CoreIx} {ctx : Nat} {x3 : Nat}
    (h_s : Keeps u s) : Keeps u (State.fenceRecord s c ctx x3) := by
  unfold State.fenceRecord
  repeat' first
    | (with_reducible first
        | assumption | refine State.raise_keeps ?_)
    | dsimp only | split
    | fail_if_no_progress with_reducible refine Keeps.of_mk ?_

theorem State.afterExtPage_keeps {u : State} {s : State} {base : Nat} {off : Nat} {len : Nat}
    (h_s : Keeps u s) : Keeps u (State.afterExtPage s base off len) := by
  unfold State.afterExtPage
  repeat' first
    | (with_reducible first
        | assumption | refine forParts_keeps ?_ ?_ | refine State.poisonAt_keeps ?_ | refine State.wrBytes_keeps ?_
        | refine State.migDirty_keeps ?_ | refine foldl_keeps ?_ ?_ | refine foldl_snd_keeps ?_ ?_ | refine ite_keeps ?_ ?_ | intro _)
    | dsimp only | split
    | fail_if_no_progress with_reducible refine Keeps.of_mk ?_

theorem State.clobbered_keeps {u : State} {s : State} {x1 : Nat} {k : Nat} (h_s : Keeps u s) : Keeps u (State.clobbered s x1 k) := by
  unfold State.clobbered
  repeat' first
    | (with_reducible first
        | assumption | refine forCores_keeps ?_ ?_ | refine State.bump_keeps ?_ | refine ite_keeps ?_ ?_ | intro _)
    | dsimp only | split
    | fail_if_no_progress with_reducible refine Keeps.of_mk ?_

theorem State.afterExt_keeps {u : State} {s : State} {x1 : Nat} {k : Nat} (h_s : Keeps u s) : Keeps u (State.afterExt s x1 k) := by
  unfold State.afterExt
  repeat' first
    | (with_reducible first
        | assumption | refine State.afterExtPage_keeps ?_ | refine State.clobbered_keeps ?_ | refine State.wrote_keeps ?_
        | refine ite_keeps ?_ ?_)
    | dsimp only | split
    | fail_if_no_progress with_reducible refine Keeps.of_mk ?_

theorem State.showOutq_keeps {u : State} {s : State} {n : PartIx} (h_s : Keeps u s) : Keeps u (State.showOutq s n) := by
  unfold State.showOutq
  repeat' first
    | (with_reducible first
        | assumption | refine State.put_keeps ?_)
    | fail_if_no_progress with_reducible refine Keeps.of_mk ?_

theorem State.fenceNote_keeps {u : State} {s : State} {n : PartIx} {x2 : Nat}
    (h_s : Keeps u s) : Keeps u (State.fenceNote s n x2) := by
  unfold State.fenceNote
  repeat' first
    | (with_reducible first
        | assumption | refine State.raise_keeps ?_)
    | dsimp only | split
    | fail_if_no_progress with_reducible refine Keeps.of_mk ?_

theorem State.dryLine_keeps {u : State} {s : State} {n : PartIx} {w : WetPage} {line : Nat}
    (h_s : Keeps u s) : Keeps u (State.dryLine s n w line) := by
  unfold State.dryLine
  repeat' first
    | (with_reducible first
        | assumption | refine State.fenceNote_keeps ?_ | refine State.poisonAt_keeps ?_ | refine State.wrBytes_keeps ?_
        | refine State.meet_keeps ?_ | refine State.wrote_keeps ?_ | refine ite_keeps ?_ ?_ | intro _)
    | dsimp only | split
    | fail_if_no_progress with_reducible refine Keeps.of_mk ?_

theorem State.fillLine_keeps {u : State} {s : State} {c : CoreIx} {w : WetPage} {line : Nat}
    (h_s : Keeps u s) : Keeps u (State.fillLine s c w line) := by
  unfold State.fillLine
  repeat' first
    | (with_reducible first
        | assumption | refine State.dryLine_keeps ?_ | refine State.modSeg_keeps ?_ | refine ite_keeps ?_ ?_ | intro _)
    | dsimp only | split
    | fail_if_no_progress with_reducible refine Keeps.of_mk ?_

theorem State.fillPart_keeps {u : State} {s : State} {c : CoreIx} {dry : Nat} {off : Nat} {len : Nat} {but : List Nat}
    (h_s : Keeps u s) : Keeps u (State.fillPart s c dry off len but) := by
  unfold State.fillPart
  repeat' first
    | (with_reducible first
        | assumption | refine State.fillLine_keeps ?_ | refine upTo_keeps ?_ ?_ | refine ite_keeps ?_ ?_ | intro _)
    | dsimp only | split
    | fail_if_no_progress with_reducible refine Keeps.of_mk ?_

theorem State.fillLines_keeps {u : State} {s : State} {c : CoreIx} {dry : Nat} {off : Nat} {len : Nat}
    (h_s : Keeps u s) : Keeps u (State.fillLines s c dry off len) := by
  unfold State.fillLines
  repeat' first
    | (with_reducible first
        | assumption | refine State.fillPart_keeps ?_)
    | fail_if_no_progress with_reducible refine Keeps.of_mk ?_

theorem State.markFilled_keeps {u : State} {s : State} {c : CoreIx} {dry : Nat} {ls : List Nat}
    (h_s : Keeps u s) : Keeps u (State.markFilled s c dry ls) := by
  unfold State.markFilled
  repeat' first
    | (with_reducible first
        | assumption | refine State.modSeg_keeps ?_ | refine ite_keeps ?_ ?_ | intro _)
    | dsimp only | split
    | fail_if_no_progress with_reducible refine Keeps.of_mk ?_

theorem State.wetPageStore_keeps {u : State} {s : State} {c : CoreIx} {base : Nat} {off : Nat} {bs : List Byte}
    (h_s : Keeps u s) : Keeps u (State.wetPageStore s c base off bs) := by
  unfold State.wetPageStore
  repeat' first
    | (with_reducible first
        | assumption | refine State.wrote_keeps ?_ | refine State.wrBytes_keeps ?_ | refine State.markFilled_keeps ?_
        | refine State.fillPart_keeps ?_ | refine State.raise_keeps ?_ | refine ite_keeps ?_ ?_)
    | dsimp only | split
    | fail_if_no_progress with_reducible refine Keeps.of_mk ?_

theorem State.setEntry_keeps {u : State} {s : State} {c : CoreIx} {id : Nat} {k : OutKind}
    (h_s : Keeps u s) : Keeps u (State.setEntry s c id k) := by
  unfold State.setEntry
  repeat' first
    | (with_reducible first
        | assumption | refine State.modPart_keeps ?_ | refine id_keeps ?_ | refine ite_keeps ?_ ?_ | intro _)
    | dsimp only | split
    | fail_if_no_progress with_reducible refine Keeps.of_mk ?_

theorem State.growEntry_keeps {u : State} {s : State} {c : CoreIx} {id : Nat} {k : OutKind}
    (h_s : Keeps u s) : Keeps u (State.growEntry s c id k) := by
  unfold State.growEntry
  repeat' first
    | (with_reducible first
        | assumption | refine State.modPart_keeps ?_ | refine State.showOutq_keeps ?_ | refine State.modSeg_keeps ?_
        | refine State.put_keeps ?_ | refine id_keeps ?_ | refine ite_keeps ?_ ?_ | intro _)
    | dsimp only | split
    | fail_if_no_progress with_reducible refine Keeps.of_mk ?_

theorem State.enqueue_keeps {u : State} {s : State} {c : CoreIx} {ctx : Nat} {charge : Nat} {k : OutKind} {seq : Nat}
    (h_s : Keeps u s) : Keeps u (State.enqueue s c ctx charge k seq) := by
  unfold State.enqueue
  repeat' first
    | (with_reducible first
        | assumption | refine State.modPart_keeps ?_ | refine State.modSeg_keeps ?_ | refine State.showOutq_keeps ?_
        | refine State.put_keeps ?_ | refine id_keeps ?_ | intro _)
    | dsimp only | split
    | fail_if_no_progress with_reducible refine Keeps.of_mk ?_

theorem State.chartAddWord_keeps {u : State} {s : State} {c : CoreIx} {ctx : Nat} {x3 : Nat} {code : Nat}
    (h_s : Keeps u s) : Keeps u (State.chartAddWord s c ctx x3 code) := by
  unfold State.chartAddWord
  repeat' first
    | (with_reducible first
        | assumption | refine State.setEntry_keeps ?_ | refine State.growEntry_keeps ?_ | refine State.enqueue_keeps ?_
        | refine id_keeps ?_ | refine ite_keeps ?_ ?_ | intro _)
    | dsimp only | split
    | fail_if_no_progress with_reducible refine Keeps.of_mk ?_

theorem State.objAdd_keeps {u : State} {s : State} {c : CoreIx} {ctx : Nat} {addr : Nat} {code : Nat}
    (h_s : Keeps u s) : Keeps u (State.objAdd s c ctx addr code) := by
  unfold State.objAdd
  repeat' first
    | (with_reducible first
        | assumption | refine State.meet_keeps ?_ | refine State.fillLines_keeps ?_ | refine State.wrote_keeps ?_
        | refine State.wrLE_keeps ?_ | refine State.poison_keeps ?_ | refine State.wetPageStore_keeps ?_
        | refine State.chartAddWord_keeps ?_ | refine ite_keeps ?_ ?_)
    | dsimp only | split
    | fail_if_no_progress with_reducible refine Keeps.of_mk ?_

theorem State.capture_keeps {u : State} {s : State} {c : CoreIx} {entry : Nat} {amax : Nat} {rs : List Report}
    (h_s : Keeps u s) : Keeps u (State.capture s c entry amax rs) := by
  unfold State.capture
  repeat' first
    | (with_reducible first
        | assumption | refine State.modSeg_keeps ?_ | intro _)
    | fail_if_no_progress with_reducible refine Keeps.of_mk ?_

theorem State.freeWords_keeps {u : State} {s : State} {bs : List Byte} {bad : List Nat}
    (h_s : Keeps u s) : KeepsR u (State.freeWords s bs bad) := by
  unfold State.freeWords
  repeat' first
    | (with_reducible first
        | assumption | refine State.draw_keeps ?_ | refine KeepsR.snd (State.draw_keeps ?_) | refine foldl_keeps ?_ ?_
        | refine foldl_snd_keeps ?_ ?_ | intro _ | refine KeepsR.get (State.draw_keeps ?_) (by with_reducible assumption))
    | refine KeepsR.of ?_
    | fail_if_no_progress with_reducible refine Keeps.of_mk ?_

theorem State.chartLine_keeps {u : State} {s : State} {c : CoreIx} {ctx : Nat} {la : Nat} {o : Nat} {bs : List Byte} {bad : List Nat}
    (h_s : Keeps u s) : Keeps u (State.chartLine s c ctx la o bs bad) := by
  unfold State.chartLine
  repeat' first
    | (with_reducible first
        | assumption | refine State.setEntry_keeps ?_ | refine State.freeWords_keeps ?_ | refine State.growEntry_keeps ?_
        | refine State.enqueue_keeps ?_ | refine KeepsR.snd (State.freeWords_keeps ?_) | refine id_keeps ?_ | refine ite_keeps ?_ ?_
        | intro _)
    | dsimp only | split
    | (with_reducible first
        | refine KeepsR.get (State.freeWords_keeps ?_) (by with_reducible assumption) | refine KeepsR.of ?_)
    | fail_if_no_progress with_reducible refine Keeps.of_mk ?_

theorem State.chartStore_keeps {u : State} {s : State} {c : CoreIx} {ctx : Nat} {x3 : Nat} {bs : List Byte} {bad : List Nat}
    (h_s : Keeps u s) : Keeps u (State.chartStore s c ctx x3 bs bad) := by
  unfold State.chartStore
  repeat' first
    | (with_reducible first
        | assumption | refine State.chartLine_keeps ?_ | refine foldl_keeps ?_ ?_ | refine foldl_snd_keeps ?_ ?_
        | refine ite_keeps ?_ ?_ | intro _)
    | dsimp only | split
    | fail_if_no_progress with_reducible refine Keeps.of_mk ?_

theorem objStoreGo_keeps {u : State} {c : CoreIx} {ctx : Nat} {x2 : Nat} {x3 : Nat} {x4 : List Byte} {x5 : List Nat} {x6 : State}
    (h_x6 : Keeps u x6) : Keeps u (objStoreGo c ctx x2 x3 x4 x5 x6) := by
  induction x2 generalizing x3 x4 x5 x6 with
  | zero =>
    unfold objStoreGo
    repeat' first
      | with_reducible assumption
      | fail_if_no_progress with_reducible refine Keeps.of_mk ?_
  | succ kk ih =>
    unfold objStoreGo
    try dsimp only
    repeat' first
      | (with_reducible first
          | assumption | refine ih ?_ | refine State.poisonAt_keeps ?_ | refine State.drop_keeps ?_
          | refine State.wetPageStore_keeps ?_ | refine State.chartStore_keeps ?_ | refine ite_keeps ?_ ?_ | intro _)
      | dsimp only | split
      | fail_if_no_progress with_reducible refine Keeps.of_mk ?_

theorem State.objStoreBad_keeps {u : State} {s : State} {c : CoreIx} {ctx : Nat} {addr : Nat} {bs : List Byte} {bad : List Nat}
    (h_s : Keeps u s) : Keeps u (State.objStoreBad s c ctx addr bs bad) := by
  unfold State.objStoreBad
  repeat' first
    | (with_reducible first
        | assumption | refine objStoreGo_keeps ?_)
    | fail_if_no_progress with_reducible refine Keeps.of_mk ?_

theorem State.objStore_keeps {u : State} {s : State} {c : CoreIx} {ctx : Nat} {addr : Nat} {bs : List Byte}
    (h_s : Keeps u s) : Keeps u (State.objStore s c ctx addr bs) := by
  unfold State.objStore
  repeat' first
    | (with_reducible first
        | assumption | refine State.objStoreBad_keeps ?_)
    | fail_if_no_progress with_reducible refine Keeps.of_mk ?_

theorem State.writeRow_keeps {u : State} {s : State} {c : CoreIx} {ctx : Nat} {addr : Nat} {fmt : Nat} {e : Int} {entry : Nat}
    {vs : List Num}
    (h_s : Keeps u s) : Keeps u (State.writeRow s c ctx addr fmt e entry vs) := by
  unfold State.writeRow
  repeat' first
    | (with_reducible first
        | assumption | refine State.capture_keeps ?_ | refine State.objStore_keeps ?_ | intro _)
    | fail_if_no_progress with_reducible refine Keeps.of_mk ?_

theorem State.dropLeaf_keeps {u : State} {s : State} {leaf : Nat} (h_s : Keeps u s) : Keeps u (State.dropLeaf s leaf) := by
  unfold State.dropLeaf
  repeat' first
    | (with_reducible first
        | assumption | refine forCores_keeps ?_ ?_ | refine State.modCore_keeps ?_ | intro _)
    | fail_if_no_progress with_reducible refine Keeps.of_mk ?_

theorem State.setLeaf_keeps {u : State} {s : State} {leaf : Nat} {ent : Nat}
    (h_s : Keeps u s) : Keeps u (State.setLeaf s leaf ent) := by
  unfold State.setLeaf
  repeat' first
    | (with_reducible first
        | assumption | refine State.dropLeaf_keeps ?_ | refine State.wrLE_keeps ?_)
    | fail_if_no_progress with_reducible refine Keeps.of_mk ?_

theorem State.extWrite_keeps {u : State} {s : State} {x1 : Nat} {bs : List Byte} {bad : List Nat}
    (h_s : Keeps u s) : Keeps u (State.extWrite s x1 bs bad) := by
  unfold State.extWrite
  repeat' first
    | (with_reducible first
        | assumption | refine State.afterExt_keeps ?_ | refine State.poisonAt_keeps ?_ | refine State.wrBytes_keeps ?_)
    | fail_if_no_progress with_reducible refine Keeps.of_mk ?_

theorem State.writes_keeps {u : State} {s : State} {c : CoreIx} {w : Nat} (h_s : Keeps u s) : Keeps u (State.writes s c w) := by
  unfold State.writes
  repeat' first
    | (with_reducible first
        | assumption | refine State.modSeg_keeps ?_ | intro _)
    | fail_if_no_progress with_reducible refine Keeps.of_mk ?_

theorem State.popPool_keeps {u : State} {s : State} {n : PartIx} {t : Nat} (h_s : Keeps u s) : KeepsOptR u (State.popPool s n t) := by
  unfold State.popPool
  repeat' first
    | (with_reducible first
        | assumption | refine State.modPart_keeps ?_ | exact KeepsOptR.none | refine KeepsOptR.some ?_ | intro _)
    | dsimp only | split
    | fail_if_no_progress with_reducible refine Keeps.of_mk ?_

theorem takeWet_keeps {u : State} {s : State} {c : CoreIx} {ctx : Nat} {page : Nat}
    (h_s : Keeps u s) : KeepsGot u (takeWet s c ctx page) := by
  unfold takeWet
  repeat' first
    | (with_reducible first
        | assumption | refine State.modSeg_keeps ?_ | refine State.bump_keeps ?_ | refine State.modCore_keeps ?_
        | refine State.put_keeps ?_ | refine State.popPool_keeps ?_ | refine State.showFree_keeps ?_ | refine ite_keeps ?_ ?_
        | refine KeepsGot.ofOk ?_ | refine KeepsGot.ofWait ?_ | refine KeepsGot.ofKill ?_ | intro _)
    | dsimp only | split
    | (with_reducible first
        | refine KeepsOptR.get (iteOptR_keeps KeepsOptR.none (State.popPool_keeps ?_)) (by with_reducible assumption)
        | refine KeepsOptR.get (State.popPool_keeps ?_) (by with_reducible assumption))
    | fail_if_no_progress with_reducible refine Keeps.of_mk ?_

theorem takeWets_keeps {u : State} {c : CoreIx} {ctx : Nat} {x2 : Nat} {x3 : Nat} {x4 : State}
    (h_x4 : Keeps u x4) : KeepsGot u (takeWets c ctx x2 x3 x4) := by
  induction x2 generalizing x3 x4 with
  | zero =>
    unfold takeWets
    repeat' first
      | with_reducible assumption
      | refine KeepsGot.ofOk ?_
      | fail_if_no_progress with_reducible refine Keeps.of_mk ?_
  | succ kk ih =>
    unfold takeWets
    try dsimp only
    repeat' first
      | (with_reducible first
          | assumption | refine ih ?_ | refine takeWet_keeps ?_ | refine KeepsGot.ofOk ?_ | refine KeepsGot.ofWait ?_
          | refine KeepsGot.ofKill ?_ | intro _)
      | dsimp only | split
      | (with_reducible first
          | refine KeepsGot.ok (takeWet_keeps ?_) (by with_reducible assumption)
          | refine KeepsGot.wait (takeWet_keeps ?_) (by with_reducible assumption)
          | refine KeepsGot.kill (takeWet_keeps ?_) (by with_reducible assumption))
      | fail_if_no_progress with_reducible refine Keeps.of_mk ?_

theorem wetRanges_keeps {u : State} {c : CoreIx} {ctx : Nat} {x2 : List (Nat × Nat)} {x3 : State}
    (h_x3 : Keeps u x3) : KeepsGot u (wetRanges c ctx x2 x3) := by
  induction x2 generalizing x3 with
  | nil =>
    unfold wetRanges
    repeat' first
      | with_reducible assumption
      | refine KeepsGot.ofOk ?_
      | fail_if_no_progress with_reducible refine Keeps.of_mk ?_
  | cons aa rr ih =>
    unfold wetRanges
    try dsimp only
    repeat' first
      | (with_reducible first
          | assumption | refine ih ?_ | refine takeWets_keeps ?_ | refine KeepsGot.ofOk ?_ | refine KeepsGot.ofWait ?_
          | refine KeepsGot.ofKill ?_ | intro _)
      | dsimp only | split
      | (with_reducible first
          | refine KeepsGot.ok (takeWets_keeps ?_) (by with_reducible assumption)
          | refine KeepsGot.wait (takeWets_keeps ?_) (by with_reducible assumption)
          | refine KeepsGot.kill (takeWets_keeps ?_) (by with_reducible assumption))
      | fail_if_no_progress with_reducible refine Keeps.of_mk ?_

theorem State.needRemote_keeps {u : State} {s : State} {c : CoreIx} {space : Nat} {work : Nat} {ranges : List (Nat × Nat)}
    (h_s : Keeps u s) : Keeps u (State.needRemote s c space work ranges) := by
  unfold State.needRemote
  repeat' first
    | (with_reducible first
        | assumption | refine State.modSeg_keeps ?_ | refine foldl_keeps ?_ ?_ | refine foldl_snd_keeps ?_ ?_ | intro _)
    | fail_if_no_progress with_reducible refine Keeps.of_mk ?_

theorem State.meetPage_keeps {u : State} {s : State} {c : CoreIx} {base : Nat} {off : Nat} {len : Nat}
    (h_s : Keeps u s) : Keeps u (State.meetPage s c base off len) := by
  unfold State.meetPage
  repeat' first
    | (with_reducible first
        | assumption | refine State.meet_keeps ?_ | refine upTo_keeps ?_ ?_ | refine ite_keeps ?_ ?_ | intro _)
    | dsimp only | split
    | fail_if_no_progress with_reducible refine Keeps.of_mk ?_

theorem meetObjGo_keeps {u : State} {c : CoreIx} {ctx : Nat} {x2 : Nat} {x3 : Nat} {x4 : Nat} {x5 : State}
    (h_x5 : Keeps u x5) : Keeps u (meetObjGo c ctx x2 x3 x4 x5) := by
  revert h_x5
  fun_induction meetObjGo c ctx x2 x3 x4 x5
  all_goals intro _
  all_goals repeat' first
    | (with_reducible first
        | assumption | apply_assumption | refine State.meetPage_keeps ?_ | intro _)
    | dsimp only | split
    | fail_if_no_progress with_reducible refine Keeps.of_mk ?_

theorem State.meetObj_keeps {u : State} {s : State} {c : CoreIx} {ctx : Nat} {addr : Nat} {len : Nat}
    (h_s : Keeps u s) : Keeps u (State.meetObj s c ctx addr len) := by
  unfold State.meetObj
  repeat' first
    | (with_reducible first
        | assumption | refine meetObjGo_keeps ?_)
    | fail_if_no_progress with_reducible refine Keeps.of_mk ?_

theorem State.consume_keeps {u : State} {s : State} {c : CoreIx} {ctx : Nat} {unit : Nat} {consumer : Nat} {cmd : List Byte}
    {rs : List (Nat × Nat)}
    (h_s : Keeps u s) : Keeps u (State.consume s c ctx unit consumer cmd rs) := by
  unfold State.consume
  repeat' first
    | (with_reducible first
        | assumption | refine State.raise_keeps ?_ | refine State.meetObj_keeps ?_ | refine foldl_keeps ?_ ?_
        | refine foldl_snd_keeps ?_ ?_ | intro _)
    | dsimp only | split
    | fail_if_no_progress with_reducible refine Keeps.of_mk ?_

theorem State.setLeafBy_keeps {u : State} {s : State} {n : PartIx} {leaf : Nat} {ent : Nat}
    (h_s : Keeps u s) : Keeps u (State.setLeafBy s n leaf ent) := by
  unfold State.setLeafBy
  repeat' first
    | (with_reducible first
        | assumption | refine State.fenceNote_keeps ?_ | refine State.setLeaf_keeps ?_ | refine ite_keeps ?_ ?_)
    | dsimp only | split
    | fail_if_no_progress with_reducible refine Keeps.of_mk ?_

theorem State.walked_keeps {u : State} {s : State} {c : CoreIx} {ctx : Nat} {page : Nat}
    (h_s : Keeps u s) : Keeps u (State.walked s c ctx page) := by
  unfold State.walked
  repeat' first
    | (with_reducible first
        | assumption | refine State.meet_keeps ?_ | refine foldl_keeps ?_ ?_ | refine foldl_snd_keeps ?_ ?_ | refine id_keeps ?_
        | refine ite_keeps ?_ ?_ | intro _)
    | dsimp only | split
    | fail_if_no_progress with_reducible refine Keeps.of_mk ?_

theorem touchPage_keeps {u : State} {s : State} {c : CoreIx} {ctx : Nat} {page : Nat} {write : Bool}
    (h_s : Keeps u s) : KeepsOpt u (touchPage s c ctx page write) := by
  unfold touchPage
  repeat' first
    | (with_reducible first
        | assumption | refine State.wrLE_keeps ?_ | refine State.modCore_keeps ?_ | refine ite_keeps ?_ ?_ | exact KeepsOpt.none
        | refine KeepsOpt.some ?_ | intro _)
    | dsimp only | split
    | fail_if_no_progress with_reducible refine Keeps.of_mk ?_

theorem touchPages_keeps {u : State} {c : CoreIx} {ctx : Nat} {write : Bool} {x3 : Nat} {x4 : Nat} {x5 : State}
    (h_x5 : Keeps u x5) : KeepsL u (touchPages c ctx write x3 x4 x5) := by
  induction x3 generalizing x4 x5 with
  | zero =>
    unfold touchPages
    repeat' first
      | with_reducible assumption
      | refine KeepsL.of ?_
      | fail_if_no_progress with_reducible refine Keeps.of_mk ?_
  | succ kk ih =>
    unfold touchPages
    try dsimp only
    repeat' first
      | (with_reducible first
          | assumption | refine ih ?_ | refine State.walked_keeps ?_ | refine touchPage_keeps ?_ | refine State.fenceRecord_keeps ?_
          | refine KeepsOpt.getD (touchPage_keeps ?_) ?_ | refine ite_keeps ?_ ?_ | intro _)
      | dsimp only | split
      | (with_reducible first
          | refine KeepsOpt.get (iteOpt_keeps KeepsOpt.none (touchPage_keeps ?_)) (by with_reducible assumption)
          | refine KeepsOpt.get (touchPage_keeps ?_) (by with_reducible assumption))
      | refine KeepsL.of ?_
      | with_reducible refine KeepsL.get (ih ?_) (by with_reducible assumption)
      | fail_if_no_progress with_reducible refine Keeps.of_mk ?_

theorem touch_keeps {u : State} {s : State} {c : CoreIx} {ctx : Nat} {addr : Nat} {len : Nat} {write : Bool}
    (h_s : Keeps u s) : KeepsL u (touch s c ctx addr len write) := by
  unfold touch
  repeat' first
    | (with_reducible first
        | assumption | refine touchPages_keeps ?_ | refine KeepsL.fst (touchPages_keeps ?_))
    | dsimp only | split
    | with_reducible refine KeepsL.get (touchPages_keeps ?_) (by with_reducible assumption)
    | refine KeepsL.of ?_
    | fail_if_no_progress with_reducible refine Keeps.of_mk ?_

theorem State.fetchFar_keeps {u : State} {s : State} {c : CoreIx} {ctx : Nat} {work : Nat} {ranges : List (Nat × Nat)}
    (h_s : Keeps u s) : Keeps u (State.fetchFar s c ctx work ranges) := by
  unfold State.fetchFar
  repeat' first
    | (with_reducible first
        | assumption | refine State.needRemote_keeps ?_ | refine ite_keeps ?_ ?_ | intro _)
    | dsimp only | split
    | fail_if_no_progress with_reducible refine Keeps.of_mk ?_

theorem coverGo_keeps {u : State} {c : CoreIx} {ctx : Nat} {x2 : Nat} {x3 : Nat} {x4 : Nat} {x5 : State}
    (h_x5 : Keeps u x5) : Keeps u (coverGo c ctx x2 x3 x4 x5) := by
  revert h_x5
  fun_induction coverGo c ctx x2 x3 x4 x5
  all_goals intro _
  all_goals repeat' first
    | (with_reducible first
        | assumption | apply_assumption | refine State.markFilled_keeps ?_ | intro _)
    | dsimp only | split
    | fail_if_no_progress with_reducible refine Keeps.of_mk ?_

theorem State.coverLines_keeps {u : State} {s : State} {c : CoreIx} {ctx : Nat} {addr : Nat} {len : Nat}
    (h_s : Keeps u s) : Keeps u (State.coverLines s c ctx addr len) := by
  unfold State.coverLines
  repeat' first
    | (with_reducible first
        | assumption | refine coverGo_keeps ?_)
    | fail_if_no_progress with_reducible refine Keeps.of_mk ?_

theorem State.latchExp_keeps {u : State} {s : State} {c : CoreIx} {i : Nat} {fmt : Nat}
    (h_s : Keeps u s) : KeepsR u (State.latchExp s c i fmt) := by
  unfold State.latchExp
  repeat' first
    | (with_reducible first
        | assumption | refine State.modSeg_keeps ?_ | refine ite_keeps ?_ ?_ | intro _)
    | dsimp only | split
    | refine KeepsR.of ?_
    | fail_if_no_progress with_reducible refine Keeps.of_mk ?_

theorem State.extAdd_keeps {u : State} {s : State} {x1 : Nat} {words : List Nat}
    (h_s : Keeps u s) : Keeps u (State.extAdd s x1 words) := by
  unfold State.extAdd
  repeat' first
    | (with_reducible first
        | assumption | refine State.afterExt_keeps ?_ | refine State.wrLE_keeps ?_ | refine State.poison_keeps ?_
        | refine State.meet_keeps ?_ | refine foldl_keeps ?_ ?_ | refine foldl_snd_keeps ?_ ?_ | refine ite_keeps ?_ ?_ | intro _)
    | dsimp only | split
    | fail_if_no_progress with_reducible refine Keeps.of_mk ?_

/-! ### Machine/Segment.lean -/

theorem State.popFrame_keeps {u : State} {s : State} {n : PartIx} {tenant : Nat} {t : Nat}
    (h_s : Keeps u s) : KeepsOptR u (State.popFrame s n tenant t) := by
  unfold State.popFrame
  repeat' first
    | (with_reducible first
        | assumption | refine State.wrLE_keeps ?_ | refine State.meet_keeps ?_ | refine ite_keeps ?_ ?_ | exact KeepsOptR.none
        | refine KeepsOptR.some ?_)
    | dsimp only | split
    | fail_if_no_progress with_reducible refine Keeps.of_mk ?_

theorem State.haltCtx_keeps {u : State} {s : State} {k : Nat} {cause : Nat} (h_s : Keeps u s) : Keeps u (State.haltCtx s k cause) := by
  unfold State.haltCtx
  repeat' first
    | (with_reducible first
        | assumption | refine State.event_keeps ?_ | refine State.ctxSetState_keeps ?_)
    | fail_if_no_progress with_reducible refine Keeps.of_mk ?_

theorem State.killHealth_keeps {u : State} {s : State} {n : PartIx} {cause : Nat}
    (h_s : Keeps u s) : Keeps u (State.killHealth s n cause) := by
  unfold State.killHealth
  repeat' first
    | (with_reducible first
        | assumption | refine State.modPart_keeps ?_ | refine ite_keeps ?_ ?_ | intro _)
    | dsimp only | split
    | fail_if_no_progress with_reducible refine Keeps.of_mk ?_

theorem State.idleAdd_keeps {u : State} {s : State} {c : CoreIx} {e : Nat} {cause : Nat} {k : Nat}
    (h_s : Keeps u s) : Keeps u (State.idleAdd s c e cause k) := by
  unfold State.idleAdd
  repeat' first
    | (with_reducible first
        | assumption | refine State.note_keeps ?_ | refine State.bump_keeps ?_ | refine State.keepOld_keeps ?_)
    | fail_if_no_progress with_reducible refine Keeps.of_mk ?_

theorem State.killLoss_keeps {u : State} {s : State} {c : CoreIx} {g : Seg} {cause : Nat}
    (h_s : Keeps u s) : Keeps u (State.killLoss s c g cause) := by
  unfold State.killLoss
  repeat' first
    | (with_reducible first
        | assumption | refine State.idleAdd_keeps ?_ | refine foldl_keeps ?_ ?_ | refine foldl_snd_keeps ?_ ?_ | intro _)
    | dsimp only | split
    | fail_if_no_progress with_reducible refine Keeps.of_mk ?_

theorem State.idleBack_keeps {u : State} {s : State} {c : CoreIx} {e : Nat} {cause : Nat} {k : Nat}
    (h_s : Keeps u s) : Keeps u (State.idleBack s c e cause k) := by
  unfold State.idleBack
  repeat' first
    | (with_reducible first
        | assumption | refine State.note_keeps ?_ | refine State.drop_keeps ?_)
    | fail_if_no_progress with_reducible refine Keeps.of_mk ?_

theorem State.lossBack_keeps {u : State} {s : State} {c : CoreIx} {g : Seg} {cause : Nat}
    (h_s : Keeps u s) : Keeps u (State.lossBack s c g cause) := by
  unfold State.lossBack
  repeat' first
    | (with_reducible first
        | assumption | refine State.idleBack_keeps ?_ | refine foldl_keeps ?_ ?_ | refine foldl_snd_keeps ?_ ?_ | intro _)
    | dsimp only | split
    | fail_if_no_progress with_reducible refine Keeps.of_mk ?_

theorem State.otherCause_keeps {u : State} {s : State} {c : CoreIx} {x : KillSt} {cause : Nat}
    (h_s : Keeps u s) : Keeps u (State.otherCause s c x cause) := by
  unfold State.otherCause
  repeat' first
    | (with_reducible first
        | assumption | refine State.put_keeps ?_ | refine State.killLoss_keeps ?_ | refine State.lossBack_keeps ?_
        | refine State.wrBits_keeps ?_ | refine State.ctxWr_keeps ?_ | refine State.modCore_keeps ?_ | refine ite_keeps ?_ ?_ | intro _)
    | dsimp only | split
    | fail_if_no_progress with_reducible refine Keeps.of_mk ?_

theorem State.killMore_keeps {u : State} {s : State} {c : CoreIx} {cause : Nat}
    (h_s : Keeps u s) : Keeps u (State.killMore s c cause) := by
  unfold State.killMore
  repeat' first
    | (with_reducible first
        | assumption | refine State.otherCause_keeps ?_ | refine State.haltCtx_keeps ?_ | refine ite_keeps ?_ ?_)
    | dsimp only | split
    | fail_if_no_progress with_reducible refine Keeps.of_mk ?_

theorem State.dropQueue_keeps {u : State} {s : State} {c : CoreIx} (h_s : Keeps u s) : Keeps u (State.dropQueue s c) := by
  unfold State.dropQueue
  repeat' first
    | (with_reducible first
        | assumption | refine State.modPart_keeps ?_ | intro _)
    | fail_if_no_progress with_reducible refine Keeps.of_mk ?_

theorem State.showColl_keeps {u : State} {s : State} (h_s : Keeps u s) : Keeps u (State.showColl s) := by
  unfold State.showColl
  repeat' first
    | (with_reducible first
        | assumption | refine State.put_keeps ?_)
    | fail_if_no_progress with_reducible refine Keeps.of_mk ?_

theorem State.putRec_keeps {u : State} {s : State} {r : CollRec} (h_s : Keeps u s) : Keeps u (State.putRec s r) := by
  unfold State.putRec
  repeat' first
    | (with_reducible first
        | assumption | refine id_keeps ?_ | intro _)
    | fail_if_no_progress with_reducible refine Keeps.of_mk ?_

theorem State.dropColl_keeps {u : State} {s : State} {c : CoreIx} (h_s : Keeps u s) : Keeps u (State.dropColl s c) := by
  unfold State.dropColl
  repeat' first
    | (with_reducible first
        | assumption | refine State.showColl_keeps ?_ | refine State.putRec_keeps ?_ | refine State.bump_keeps ?_ | refine id_keeps ?_
        | refine ite_keeps ?_ ?_ | intro _)
    | dsimp only | split
    | fail_if_no_progress with_reducible refine Keeps.of_mk ?_

theorem State.dropUnits_keeps {u : State} {s : State} {c : CoreIx} (h_s : Keeps u s) : Keeps u (State.dropUnits s c) := by
  unfold State.dropUnits
  repeat' first
    | (with_reducible first
        | assumption | refine State.modCore_keeps ?_ | intro _)
    | fail_if_no_progress with_reducible refine Keeps.of_mk ?_

theorem State.dropEngine_keeps {u : State} {s : State} {c : CoreIx} {e : EngIx}
    (h_s : Keeps u s) : Keeps u (State.dropEngine s c e) := by
  unfold State.dropEngine
  repeat' first
    | (with_reducible first
        | assumption | refine State.modCore_keeps ?_ | refine State.put_keeps ?_ | refine ite_keeps ?_ ?_ | intro _)
    | dsimp only | split
    | fail_if_no_progress with_reducible refine Keeps.of_mk ?_

theorem State.dropEngines_keeps {u : State} {s : State} {c : CoreIx} (h_s : Keeps u s) : Keeps u (State.dropEngines s c) := by
  unfold State.dropEngines
  repeat' first
    | (with_reducible first
        | assumption | refine State.dropEngine_keeps ?_ | refine upTo_keeps ?_ ?_ | intro _)
    | fail_if_no_progress with_reducible refine Keeps.of_mk ?_

theorem State.pushFrame_keeps {u : State} {s : State} {n : PartIx} {tenant : Nat} {t : Nat} {f : Nat}
    (h_s : Keeps u s) : Keeps u (State.pushFrame s n tenant t f) := by
  unfold State.pushFrame
  repeat' first
    | (with_reducible first
        | assumption | refine State.wrLE_keeps ?_)
    | fail_if_no_progress with_reducible refine Keeps.of_mk ?_

theorem State.dropRemote_keeps {u : State} {s : State} {c : CoreIx} {x : Seg}
    (h_s : Keeps u s) : Keeps u (State.dropRemote s c x) := by
  unfold State.dropRemote
  repeat' first
    | (with_reducible first
        | assumption | refine State.put_keeps ?_ | refine State.setAside_keeps ?_ | intro _)
    | dsimp only | split
    | fail_if_no_progress with_reducible refine Keeps.of_mk ?_

theorem State.semFree_keeps {u : State} {s : State} {x1 : Nat} (h_s : Keeps u s) : Keeps u (State.semFree s x1) := by
  unfold State.semFree
  repeat' first
    | (with_reducible first
        | assumption | refine State.afterExt_keeps ?_ | refine State.wrBits_keeps ?_)
    | fail_if_no_progress with_reducible refine Keeps.of_mk ?_

theorem State.dropMarked_keeps {u : State} {s : State} {c : CoreIx} {g : Seg}
    (h_s : Keeps u s) : Keeps u (State.dropMarked s c g) := by
  unfold State.dropMarked
  repeat' first
    | (with_reducible first
        | assumption | refine State.fenceRecord_keeps ?_ | refine State.semFree_keeps ?_ | refine foldl_keeps ?_ ?_
        | refine foldl_snd_keeps ?_ ?_ | refine ite_keeps ?_ ?_ | intro _)
    | dsimp only | split
    | fail_if_no_progress with_reducible refine Keeps.of_mk ?_

theorem State.wipeSeg_keeps {u : State} {s : State} {c : CoreIx} {g : Seg} (h_s : Keeps u s) : Keeps u (State.wipeSeg s c g) := by
  unfold State.wipeSeg
  repeat' first
    | (with_reducible first
        | assumption | refine State.dropQueue_keeps ?_ | refine State.dropColl_keeps ?_ | refine State.dropUnits_keeps ?_
        | refine State.dropEngines_keeps ?_ | refine State.pushPool_keeps ?_ | refine State.pushFrame_keeps ?_
        | refine State.dropRemote_keeps ?_ | refine State.dropMarked_keeps ?_ | refine State.modCore_keeps ?_
        | refine State.showOutq_keeps ?_ | refine State.put_keeps ?_ | refine State.bump_keeps ?_ | refine foldl_keeps ?_ ?_
        | refine foldl_snd_keeps ?_ ?_ | intro _)
    | fail_if_no_progress with_reducible refine Keeps.of_mk ?_

theorem State.beat_keeps {u : State} {s : State} {c : CoreIx} (h_s : Keeps u s) : Keeps u (State.beat s c) := by
  unfold State.beat
  repeat' first
    | (with_reducible first
        | assumption | refine State.put_keeps ?_ | refine State.bump_keeps ?_)
    | fail_if_no_progress with_reducible refine Keeps.of_mk ?_

theorem State.killCtx_keeps {u : State} {s : State} {c : CoreIx} {g : Seg} {cause : Nat} {next : Option Nat}
    (h_s : Keeps u s) : Keeps u (State.killCtx s c g cause next) := by
  unfold State.killCtx
  repeat' first
    | (with_reducible first
        | assumption | refine State.wrBits_keeps ?_ | refine State.ctxBump_keeps ?_ | refine State.ctxSetBoundaryKills_keeps ?_
        | refine State.haltCtx_keeps ?_ | refine State.raise_keeps ?_ | refine State.ctxSetState_keeps ?_ | refine ite_keeps ?_ ?_)
    | dsimp only | split
    | fail_if_no_progress with_reducible refine Keeps.of_mk ?_

theorem State.seqState_keeps {u : State} {s : State} {c : CoreIx} {v : Nat} (h_s : Keeps u s) : Keeps u (State.seqState s c v) := by
  unfold State.seqState
  repeat' first
    | (with_reducible first
        | assumption | refine State.put_keeps ?_)
    | fail_if_no_progress with_reducible refine Keeps.of_mk ?_

theorem State.notePause_keeps {u : State} {s : State} {c : CoreIx} {g : Seg} (h_s : Keeps u s) : Keeps u (State.notePause s c g) := by
  unfold State.notePause
  repeat' first
    | (with_reducible first
        | assumption | refine State.modPart_keeps ?_ | refine ite_keeps ?_ ?_ | intro _)
    | dsimp only | split
    | fail_if_no_progress with_reducible refine Keeps.of_mk ?_

theorem State.enqueueDry_keeps {u : State} {s : State} {c : CoreIx} {k : Nat} {what : OutKind}
    (h_s : Keeps u s) : Keeps u (State.enqueueDry s c k what) := by
  unfold State.enqueueDry
  repeat' first
    | (with_reducible first
        | assumption | refine State.showOutq_keeps ?_ | refine State.modPart_keeps ?_ | refine id_keeps ?_ | intro _)
    | fail_if_no_progress with_reducible refine Keeps.of_mk ?_

theorem State.stashNow_keeps {u : State} {s : State} {c : CoreIx} {k : Nat} {off : Nat} {bs : List Byte}
    (h_s : Keeps u s) : Keeps u (State.stashNow s c k off bs) := by
  unfold State.stashNow
  repeat' first
    | (with_reducible first
        | assumption | refine State.fenceNote_keeps ?_ | refine State.wrBytes_keeps ?_ | refine State.modSeg_keeps ?_
        | refine State.enqueueDry_keeps ?_ | refine State.modPart_keeps ?_ | refine ite_keeps ?_ ?_ | intro _)
    | dsimp only | split
    | fail_if_no_progress with_reducible refine Keeps.of_mk ?_

theorem State.pauseDry_keeps {u : State} {s : State} {c : CoreIx} {g : Seg} (h_s : Keeps u s) : Keeps u (State.pauseDry s c g) := by
  unfold State.pauseDry
  repeat' first
    | (with_reducible first
        | assumption | refine State.notePause_keeps ?_ | refine State.stashNow_keeps ?_)
    | dsimp only | split
    | fail_if_no_progress with_reducible refine Keeps.of_mk ?_

theorem State.killWith_keeps {u : State} {s : State} {c : CoreIx} {cause : Nat} {next : Option Nat}
    (h_s : Keeps u s) : Keeps u (State.killWith s c cause next) := by
  unfold State.killWith
  repeat' first
    | (with_reducible first
        | assumption | refine State.wipeSeg_keeps ?_ | refine State.killLoss_keeps ?_ | refine State.beat_keeps ?_
        | refine State.put_keeps ?_ | refine State.bump_keeps ?_ | refine State.killHealth_keeps ?_ | refine State.killCtx_keeps ?_
        | refine State.seqState_keeps ?_ | refine State.modPart_keeps ?_ | refine State.pauseDry_keeps ?_
        | refine State.modCore_keeps ?_ | refine ite_keeps ?_ ?_ | intro _)
    | dsimp only | split
    | fail_if_no_progress with_reducible refine Keeps.of_mk ?_

theorem State.killSeg_keeps {u : State} {s : State} {c : CoreIx} {cause : Nat}
    (h_s : Keeps u s) : Keeps u (State.killSeg s c cause) := by
  unfold State.killSeg
  repeat' first
    | (with_reducible first
        | assumption | refine State.killWith_keeps ?_)
    | fail_if_no_progress with_reducible refine Keeps.of_mk ?_

theorem State.completeWork_keeps {u : State} {s : State} {c : CoreIx} {id : Nat}
    (h_s : Keeps u s) : Keeps u (State.completeWork s c id) := by
  unfold State.completeWork
  repeat' first
    | (with_reducible first
        | assumption | refine State.beat_keeps ?_ | refine State.modSeg_keeps ?_ | refine State.put_keeps ?_
        | refine State.modCore_keeps ?_ | refine id_keeps ?_ | refine ite_keeps ?_ ?_ | intro _)
    | dsimp only | split
    | fail_if_no_progress with_reducible refine Keeps.of_mk ?_

theorem State.meanwhile_keeps {u : State} {s : State} {c : CoreIx} {f : State → Out}
    (h_s : Keeps u s) (h_f : ∀ tt, Keeps u tt → KeepsOut u (f tt)) : KeepsOut u (State.meanwhile s c f) := by
  unfold State.meanwhile
  repeat' first
    | (with_reducible first
        | assumption | refine State.modCore_keeps ?_ | refine State.killMore_keeps ?_ | apply h_f | refine ite_keeps ?_ ?_
        | refine iteOut_keeps ?_ ?_ | refine KeepsOut.next ?_ | intro _)
    | dsimp only | split
    | fail_if_no_progress with_reducible refine Keeps.of_mk ?_

theorem State.inkOverflow_keeps {u : State} {s : State} {c : CoreIx} {which : Nat}
    (h_s : Keeps u s) : Keeps u (State.inkOverflow s c which) := by
  unfold State.inkOverflow
  repeat' first
    | (with_reducible first
        | assumption | refine State.killSeg_keeps ?_ | refine State.raise_keeps ?_)
    | dsimp only | split
    | fail_if_no_progress with_reducible refine Keeps.of_mk ?_

theorem Got.run_keeps {u : State} {r : Got} {c : CoreIx} {go : State → State}
    (h_r : KeepsGot u r) (h_go : ∀ tt, Keeps u tt → Keeps u (go tt)) : Keeps u (Got.run r c go) := by
  unfold Got.run
  cases r with
  | ok t => exact h_go t h_r
  | wait t => exact h_r
  | kill t cause dd => exact ite_keeps (State.inkOverflow_keeps h_r) (State.killSeg_keeps h_r)

theorem queueRoom_keeps {u : State} {s : State} {c : CoreIx} {ctx : Nat} {charge : Nat}
    (h_s : Keeps u s) : KeepsGot u (queueRoom s c ctx charge) := by
  unfold queueRoom
  repeat' first
    | (with_reducible first
        | assumption | refine State.modSeg_keeps ?_ | refine ite_keeps ?_ ?_ | refine KeepsGot.ofOk ?_ | refine KeepsGot.ofWait ?_
        | refine KeepsGot.ofKill ?_ | intro _)
    | dsimp only | split
    | fail_if_no_progress with_reducible refine Keeps.of_mk ?_

theorem claimRanges_keeps {u : State} {c : CoreIx} {ctx : Nat} {rs : List (Nat × Nat)} {s : State}
    (h_s : Keeps u s) : KeepsGot u (claimRanges c ctx rs s) := by
  unfold claimRanges
  repeat' first
    | (with_reducible first
        | assumption | refine wetRanges_keeps ?_ | refine queueRoom_keeps ?_ | refine KeepsGot.ofOk ?_ | refine KeepsGot.ofWait ?_
        | refine KeepsGot.ofKill ?_ | intro _)
    | dsimp only | split
    | (with_reducible first
        | refine KeepsGot.ok (wetRanges_keeps ?_) (by with_reducible assumption)
        | refine KeepsGot.wait (wetRanges_keeps ?_) (by with_reducible assumption)
        | refine KeepsGot.kill (wetRanges_keeps ?_) (by with_reducible assumption)
        | refine KeepsGot.ok (queueRoom_keeps ?_) (by with_reducible assumption)
        | refine KeepsGot.wait (queueRoom_keeps ?_) (by with_reducible assumption)
        | refine KeepsGot.kill (queueRoom_keeps ?_) (by with_reducible assumption))
    | fail_if_no_progress with_reducible refine Keeps.of_mk ?_

theorem State.semAddTo_keeps {u : State} {s : State} {x1 : Nat} {delta : Nat}
    (h_s : Keeps u s) : Keeps u (State.semAddTo s x1 delta) := by
  unfold State.semAddTo
  repeat' first
    | (with_reducible first
        | assumption | refine State.afterExt_keeps ?_ | refine State.wrLE_keeps ?_)
    | fail_if_no_progress with_reducible refine Keeps.of_mk ?_

theorem touchAll_keeps {u : State} {c : CoreIx} {ctx : Nat} {x2 : List (Nat × Nat × Bool)} {x3 : State}
    (h_x3 : Keeps u x3) : KeepsL u (touchAll c ctx x2 x3) := by
  induction x2 generalizing x3 with
  | nil =>
    unfold touchAll
    repeat' first
      | with_reducible assumption
      | refine KeepsL.of ?_
      | fail_if_no_progress with_reducible refine Keeps.of_mk ?_
  | cons aa rr ih =>
    unfold touchAll
    try dsimp only
    repeat' first
      | (with_reducible first
          | assumption | refine ih ?_ | refine touch_keeps ?_ | refine KeepsL.fst (touch_keeps ?_) | intro _)
      | dsimp only | split
      | with_reducible refine KeepsL.get (touch_keeps ?_) (by with_reducible assumption)
      | refine KeepsL.of ?_
      | with_reducible refine KeepsL.get (ih ?_) (by with_reducible assumption)
      | fail_if_no_progress with_reducible refine Keeps.of_mk ?_

theorem State.semTake_keeps {u : State} {s : State} {x1 : Nat} {m : Nat} {k : Nat} {until_ : Nat}
    (h_s : Keeps u s) : Keeps u (State.semTake s x1 m k until_) := by
  unfold State.semTake
  repeat' first
    | (with_reducible first
        | assumption | refine State.afterExt_keeps ?_ | refine State.wrLE_keeps ?_)
    | fail_if_no_progress with_reducible refine Keeps.of_mk ?_

theorem semAcquireAt_keeps {u : State} {s : State} {x1 : Nat} {m : Nat} {k : Nat} {lease : Nat}
    (h_s : Keeps u s) : KeepsOptL u (semAcquireAt s x1 m k lease) := by
  unfold semAcquireAt
  repeat' first
    | (with_reducible first
        | assumption | refine State.semTake_keeps ?_ | refine State.afterExt_keeps ?_ | refine State.wrLE_keeps ?_
        | refine ite_keeps ?_ ?_ | exact KeepsOptL.none | refine KeepsOptL.some ?_)
    | dsimp only | split
    | fail_if_no_progress with_reducible refine Keeps.of_mk ?_

theorem State.descFault_keeps {u : State} {s : State} {c : CoreIx} {addr : Nat} {detail : Nat}
    (h_s : Keeps u s) : Keeps u (State.descFault s c addr detail) := by
  unfold State.descFault
  repeat' first
    | (with_reducible first
        | assumption | refine State.killSeg_keeps ?_ | refine State.raise_keeps ?_)
    | dsimp only | split
    | fail_if_no_progress with_reducible refine Keeps.of_mk ?_

theorem State.semFenced_keeps {u : State} {s : State} {c : CoreIx} {g : Seg} {x3 : Nat}
    (h_s : Keeps u s) : Keeps u (State.semFenced s c g x3) := by
  unfold State.semFenced
  repeat' first
    | (with_reducible first
        | assumption | refine State.descFault_keeps ?_ | refine State.fenceRecord_keeps ?_)
    | fail_if_no_progress with_reducible refine Keeps.of_mk ?_

theorem checked_keeps {u : State} {s : State} {c : CoreIx} {ctx : Nat} {breach : Option (Nat × Nat)}
    {ranges : List (Nat × Nat × Bool)} {sound : List (Nat × Nat)} {go : State → State}
    (h_s : Keeps u s) (h_go : ∀ tt, Keeps u tt → Keeps u (go tt)) : Keeps u (checked s c ctx breach ranges sound go) := by
  unfold checked
  repeat' first
    | (with_reducible first
        | assumption | refine State.descFault_keeps ?_ | refine touchAll_keeps ?_ | refine State.consume_keeps ?_
        | refine State.meetObj_keeps ?_ | apply h_go | refine KeepsL.fst (touchAll_keeps ?_) | refine foldl_keeps ?_ ?_
        | refine foldl_snd_keeps ?_ ?_ | intro _)
    | dsimp only | split
    | (with_reducible first
        | refine KeepsL.get (touchAll_keeps ?_) (by with_reducible assumption) | refine KeepsL.of ?_)
    | fail_if_no_progress with_reducible refine Keeps.of_mk ?_

theorem withRemote_keeps {u : State} {s : State} {c : CoreIx} {g : Seg} {ranges : List (Nat × Nat)} {go : State → State}
    (h_s : Keeps u s) (h_go : ∀ tt, Keeps u tt → Keeps u (go tt)) : Keeps u (withRemote s c g ranges go) := by
  unfold withRemote
  repeat' first
    | (with_reducible first
        | assumption | refine State.needRemote_keeps ?_ | apply h_go | refine ite_keeps ?_ ?_ | intro _)
    | dsimp only | split
    | fail_if_no_progress with_reducible refine Keeps.of_mk ?_

theorem refuseOr_keeps {u : State} {s : State} {c : CoreIx} {why : Option (Nat × Nat)} {go : State}
    (h_s : Keeps u s) (h_go : Keeps u go) : Keeps u (refuseOr s c why go) := by
  unfold refuseOr
  repeat' first
    | (with_reducible first
        | assumption | refine State.descFault_keeps ?_)
    | dsimp only | split
    | fail_if_no_progress with_reducible refine Keeps.of_mk ?_

theorem State.issueCmd_keeps {u : State} {s : State} {c : CoreIx} {g : Seg} {b : List Byte} {atOnce : Bool}
    (h_s : Keeps u s) : Keeps u (State.issueCmd s c g b atOnce) := by
  unfold State.issueCmd
  repeat' first
    | (with_reducible first
        | assumption | refine State.bump_keeps ?_ | refine State.put_keeps ?_ | refine State.modSeg_keeps ?_
        | refine State.seqState_keeps ?_ | refine State.modCore_keeps ?_ | refine State.beat_keeps ?_ | refine ite_keeps ?_ ?_
        | intro _)
    | dsimp only | split
    | fail_if_no_progress with_reducible refine Keeps.of_mk ?_

theorem popFrames_keeps {u : State} {n : PartIx} {tenant : Nat} {t : Nat} {x3 : Nat} {x4 : State}
    (h_x4 : Keeps u x4) : KeepsOptR u (popFrames n tenant t x3 x4) := by
  induction x3 generalizing x4 with
  | zero =>
    unfold popFrames
    repeat' first
      | with_reducible assumption
      | refine KeepsOptR.some ?_
      | fail_if_no_progress with_reducible refine Keeps.of_mk ?_
  | succ kk ih =>
    unfold popFrames
    try dsimp only
    repeat' first
      | (with_reducible first
          | assumption | refine ih ?_ | refine State.popFrame_keeps ?_ | exact KeepsOptR.none | refine KeepsOptR.some ?_ | intro _)
      | dsimp only | split
      | (with_reducible first
          | refine KeepsOptR.get (State.popFrame_keeps ?_) (by with_reducible assumption)
          | refine KeepsOptR.get (ih ?_) (by with_reducible assumption))
      | fail_if_no_progress with_reducible refine Keeps.of_mk ?_

theorem State.popFail_keeps {u : State} {s : State} {n : PartIx} {tenant : Nat}
    (h_s : Keeps u s) : Keeps u (State.popFail s n tenant) := by
  unfold State.popFail
  repeat' first
    | (with_reducible first
        | assumption | refine State.wrLE_keeps ?_)
    | fail_if_no_progress with_reducible refine Keeps.of_mk ?_

end Sys2Proof.Machine
end

