-- ==== Sys2Proof/Laws/KeepsEngines.lean ====
section
/-! SUPPORT. Laws/KeepsEngines.lean: the engines, the row engine, the update unit, the cache and the movers keep what Laws/Keeps.lean names, operation by operation; a meaning execX by
execX_keeps. -/

set_option linter.unusedTactic false
set_option linter.unreachableTactic false

namespace Sys2Proof.Machine

/-! ### Machine/Engine.lean -/

theorem State.drainRow_keeps {u : State} {s : State} {c : CoreIx} {o : MatOp} {m : Nat} {n0 : Nat} {sums : List Num}
    (h_s : Keeps u s) : Keeps u (State.drainRow s c o m n0 sums) := by
  unfold State.drainRow
  repeat' first
    | (with_reducible first
        | assumption | refine State.objAdd_keeps ?_ | refine State.capture_keeps ?_ | refine State.objStore_keeps ?_
        | refine State.writeRow_keeps ?_ | refine foldl_keeps ?_ ?_ | refine foldl_snd_keeps ?_ ?_ | refine ite_keeps ?_ ?_ | intro _)
    | dsimp only | split
    | fail_if_no_progress with_reducible refine Keeps.of_mk ?_

theorem State.modEng_keeps {u : State} {s : State} {c : CoreIx} {e : EngIx} {f : Eng → Eng}
    (h_s : Keeps u s) : Keeps u (State.modEng s c e f) := by
  unfold State.modEng
  repeat' first
    | (with_reducible first
        | assumption | refine State.modCore_keeps ?_ | intro _)
    | fail_if_no_progress with_reducible refine Keeps.of_mk ?_

theorem execEngineStart_keeps {u : State} {c : CoreIx} {e : EngIx} {s : State}
    (h_s : Keeps u s) : KeepsOut u (execEngineStart c e s) := by
  unfold execEngineStart
  repeat' first
    | (with_reducible first
        | assumption | refine State.put_keeps ?_ | refine State.modEng_keeps ?_ | refine ite_keeps ?_ ?_ | refine iteOut_keeps ?_ ?_
        | refine KeepsOut.next ?_ | intro _)
    | dsimp only | split
    | fail_if_no_progress with_reducible refine Keeps.of_mk ?_

theorem State.beginPlane_keeps {u : State} {s : State} {c : CoreIx} {e : EngIx}
    (h_s : Keeps u s) : Keeps u (State.beginPlane s c e) := by
  unfold State.beginPlane
  repeat' first
    | (with_reducible first
        | assumption | refine State.fetchFar_keeps ?_ | refine State.put_keeps ?_ | refine State.modEng_keeps ?_
        | refine ite_keeps ?_ ?_ | intro _)
    | dsimp only | split
    | fail_if_no_progress with_reducible refine Keeps.of_mk ?_

theorem State.fetchBlock_keeps {u : State} {s : State} {c : CoreIx} {e : EngIx} {o : MatOp} {t : TBlock} {k : Nat}
    (h_s : Keeps u s) : Keeps u (State.fetchBlock s c e o t k) := by
  unfold State.fetchBlock
  repeat' first
    | (with_reducible first
        | assumption | refine State.fetchFar_keeps ?_ | refine State.modEng_keeps ?_ | refine State.consume_keeps ?_
        | refine upTo_keeps ?_ ?_ | refine ite_keeps ?_ ?_ | intro _)
    | dsimp only | split
    | fail_if_no_progress with_reducible refine Keeps.of_mk ?_

theorem State.fetchFirst_keeps {u : State} {s : State} {c : CoreIx} {e : EngIx} {o : MatOp} {kp : Nat} {r : Nat}
    (h_s : Keeps u s) : Keeps u (State.fetchFirst s c e o kp r) := by
  unfold State.fetchFirst
  repeat' first
    | (with_reducible first
        | assumption | refine State.fetchBlock_keeps ?_ | refine State.modEng_keeps ?_ | refine State.consume_keeps ?_
        | refine ite_keeps ?_ ?_ | intro _)
    | dsimp only | split
    | fail_if_no_progress with_reducible refine Keeps.of_mk ?_

theorem State.loaderSlot_keeps {u : State} {s : State} {c : CoreIx} {e : EngIx}
    (h_s : Keeps u s) : Keeps u (State.loaderSlot s c e) := by
  unfold State.loaderSlot
  repeat' first
    | (with_reducible first
        | assumption | refine State.beginPlane_keeps ?_ | refine State.modEng_keeps ?_ | refine State.consume_keeps ?_
        | refine State.fetchFirst_keeps ?_ | refine ite_keeps ?_ ?_ | intro _)
    | dsimp only | split
    | fail_if_no_progress with_reducible refine Keeps.of_mk ?_

theorem State.turnBlock_keeps {u : State} {s : State} {c : CoreIx} {e : EngIx} {o : MatOp} {p : PassSt} {i : Nat}
    (h_s : Keeps u s) : Keeps u (State.turnBlock s c e o p i) := by
  unfold State.turnBlock
  repeat' first
    | (with_reducible first
        | assumption | refine State.fetchBlock_keeps ?_ | refine State.modEng_keeps ?_ | refine ite_keeps ?_ ?_ | intro _)
    | dsimp only | split
    | fail_if_no_progress with_reducible refine Keeps.of_mk ?_

theorem State.readAhead_keeps {u : State} {s : State} {c : CoreIx} {e : EngIx} {p : PassSt} {i : Nat}
    (h_s : Keeps u s) : Keeps u (State.readAhead s c e p i) := by
  unfold State.readAhead
  repeat' first
    | (with_reducible first
        | assumption | refine State.fetchBlock_keeps ?_)
    | dsimp only | split
    | fail_if_no_progress with_reducible refine Keeps.of_mk ?_

theorem State.fetchRow_keeps {u : State} {s : State} {c : CoreIx} {e : EngIx} {o : MatOp} {p : PassSt} {i : Nat}
    (h_s : Keeps u s) : KeepsOptR u (State.fetchRow s c e o p i) := by
  unfold State.fetchRow
  repeat' first
    | (with_reducible first
        | assumption | refine State.turnBlock_keeps ?_ | refine State.readAhead_keeps ?_ | refine State.modEng_keeps ?_
        | refine State.consume_keeps ?_ | refine ite_keeps ?_ ?_ | exact KeepsOptR.none | refine KeepsOptR.some ?_ | intro _)
    | dsimp only | split
    | fail_if_no_progress with_reducible refine Keeps.of_mk ?_

theorem State.feedSlot_keeps {u : State} {s : State} {c : CoreIx} {e : EngIx} (h_s : Keeps u s) : Keeps u (State.feedSlot s c e) := by
  unfold State.feedSlot
  repeat' first
    | (with_reducible first
        | assumption | refine State.fetchRow_keeps ?_ | refine State.turnBlock_keeps ?_ | refine State.modEng_keeps ?_
        | refine State.idleAdd_keeps ?_ | refine State.bump_keeps ?_ | refine ite_keeps ?_ ?_ | intro _)
    | dsimp only | split
    | (with_reducible first
        | refine KeepsOptR.get (iteOptR_keeps KeepsOptR.none (State.fetchRow_keeps ?_)) (by with_reducible assumption)
        | refine KeepsOptR.get (State.fetchRow_keeps ?_) (by with_reducible assumption))
    | fail_if_no_progress with_reducible refine Keeps.of_mk ?_

theorem State.engSlot_keeps {u : State} {s : State} {c : CoreIx} {e : EngIx} (h_s : Keeps u s) : Keeps u (State.engSlot s c e) := by
  unfold State.engSlot
  repeat' first
    | (with_reducible first
        | assumption | refine State.loaderSlot_keeps ?_ | refine State.feedSlot_keeps ?_ | refine State.modEng_keeps ?_
        | refine State.put_keeps ?_ | refine ite_keeps ?_ ?_ | intro _)
    | dsimp only | split
    | fail_if_no_progress with_reducible refine Keeps.of_mk ?_

theorem State.takeCol_keeps {u : State} {s : State} {c : CoreIx} {e : EngIx} {o : MatOp} {r : PipeRow} {q : Nat}
    (h_s : Keeps u s) : Keeps u (State.takeCol s c e o r q) := by
  unfold State.takeCol
  repeat' first
    | (with_reducible first
        | assumption | refine State.modEng_keeps ?_ | refine State.drainRow_keeps ?_ | refine State.writes_keeps ?_
        | refine ite_keeps ?_ ?_ | intro _)
    | dsimp only | split
    | fail_if_no_progress with_reducible refine Keeps.of_mk ?_

theorem State.takeCols_keeps {u : State} {s : State} {c : CoreIx} {e : EngIx} {o : MatOp} {r : PipeRow} {clk : Nat}
    (h_s : Keeps u s) : Keeps u (State.takeCols s c e o r clk) := by
  unfold State.takeCols
  repeat' first
    | (with_reducible first
        | assumption | refine State.takeCol_keeps ?_ | refine foldl_keeps ?_ ?_ | refine foldl_snd_keeps ?_ ?_ | refine ite_keeps ?_ ?_
        | intro _)
    | dsimp only | split
    | fail_if_no_progress with_reducible refine Keeps.of_mk ?_

theorem State.beginRow__keeps {u : State} {s : State} {c : CoreIx} {o : MatOp} {r : PipeRow}
    (h_s : Keeps u s) : KeepsGot u (State.beginRow_ s c o r) := by
  unfold State.beginRow_
  repeat' first
    | (with_reducible first
        | assumption | refine claimRanges_keeps ?_ | refine State.coverLines_keeps ?_ | refine foldl_keeps ?_ ?_
        | refine foldl_snd_keeps ?_ ?_ | refine ite_keeps ?_ ?_ | refine KeepsGot.ofOk ?_ | refine KeepsGot.ofWait ?_
        | refine KeepsGot.ofKill ?_ | intro _)
    | dsimp only | split
    | (with_reducible first
        | refine KeepsGot.ok (claimRanges_keeps ?_) (by with_reducible assumption)
        | refine KeepsGot.wait (claimRanges_keeps ?_) (by with_reducible assumption)
        | refine KeepsGot.kill (claimRanges_keeps ?_) (by with_reducible assumption))
    | fail_if_no_progress with_reducible refine Keeps.of_mk ?_

theorem State.drainSlot_keeps {u : State} {s : State} {c : CoreIx} {e : EngIx}
    (h_s : Keeps u s) : Keeps u (State.drainSlot s c e) := by
  unfold State.drainSlot
  repeat' first
    | (with_reducible first
        | assumption | refine State.modEng_keeps ?_ | refine State.takeCols_keeps ?_ | refine State.beginRow__keeps ?_
        | refine Got.run_keeps ?_ ?_ | refine foldl_keeps ?_ ?_ | refine foldl_snd_keeps ?_ ?_ | refine iteGot_keeps ?_ ?_
        | refine KeepsGot.ofOk ?_ | refine ite_keeps ?_ ?_ | intro _)
    | dsimp only | split
    | (with_reducible first
        | refine KeepsGot.ok (State.beginRow__keeps ?_) (by with_reducible assumption)
        | refine KeepsGot.wait (State.beginRow__keeps ?_) (by with_reducible assumption)
        | refine KeepsGot.kill (State.beginRow__keeps ?_) (by with_reducible assumption))
    | fail_if_no_progress with_reducible refine Keeps.of_mk ?_

theorem State.drainSlots_keeps {u : State} {s : State} {c : CoreIx} (h_s : Keeps u s) : Keeps u (State.drainSlots s c) := by
  unfold State.drainSlots
  repeat' first
    | (with_reducible first
        | assumption | refine State.drainSlot_keeps ?_ | refine upTo_keeps ?_ ?_ | refine ite_keeps ?_ ?_ | intro _)
    | dsimp only | split
    | fail_if_no_progress with_reducible refine Keeps.of_mk ?_

theorem State.stashWr_keeps {u : State} {s : State} {c : CoreIx} {ctx : Nat} {off : Nat} {k : Nat} {v : Nat}
    (h_s : Keeps u s) : Keeps u (State.stashWr s c ctx off k v) := by
  unfold State.stashWr
  repeat' first
    | (with_reducible first
        | assumption | refine State.modSeg_keeps ?_ | refine foldl_keeps ?_ ?_ | refine foldl_snd_keeps ?_ ?_ | intro _)
    | dsimp only | split
    | fail_if_no_progress with_reducible refine Keeps.of_mk ?_

theorem execPlaneLoad_keeps {u : State} {c : CoreIx} {e : EngIx} {kp : BitVec 10} {s : State}
    (h_s : Keeps u s) : KeepsOut u (execPlaneLoad c e kp s) := by
  unfold execPlaneLoad
  repeat' first
    | (with_reducible first
        | assumption | refine act_keeps ?_ ?_ | refine State.put_keeps ?_ | refine State.modEng_keeps ?_ | refine ite_keeps ?_ ?_
        | refine iteOut_keeps ?_ ?_ | refine KeepsOut.next ?_ | intro _)
    | dsimp only | split
    | fail_if_no_progress with_reducible refine Keeps.of_mk ?_

theorem execPassStart_keeps {u : State} {c : CoreIx} {e : EngIx} {s : State} (h_s : Keeps u s) : KeepsOut u (execPassStart c e s) := by
  unfold execPassStart
  repeat' first
    | (with_reducible first
        | assumption | refine State.fetchFar_keeps ?_ | refine act_keeps ?_ ?_ | refine State.put_keeps ?_
        | refine State.modEng_keeps ?_ | refine State.bump_keeps ?_ | refine ite_keeps ?_ ?_ | refine iteOut_keeps ?_ ?_
        | refine KeepsOut.next ?_ | intro _)
    | dsimp only | split
    | fail_if_no_progress with_reducible refine Keeps.of_mk ?_

theorem execArrayHold_keeps {u : State} {c : CoreIx} {e : EngIx} {tier : BitVec 2} {late : Bool} {s : State}
    (h_s : Keeps u s) : KeepsOut u (execArrayHold c e tier late s) := by
  unfold execArrayHold
  repeat' first
    | (with_reducible first
        | assumption | refine State.bump_keeps ?_ | refine State.idleAdd_keeps ?_ | refine act_keeps ?_ ?_
        | refine State.modEng_keeps ?_ | refine ite_keeps ?_ ?_ | refine iteOut_keeps ?_ ?_ | refine KeepsOut.next ?_ | intro _)
    | dsimp only | split
    | fail_if_no_progress with_reducible refine Keeps.of_mk ?_

theorem execOperationComplete_keeps {u : State} {c : CoreIx} {e : EngIx} {s : State}
    (h_s : Keeps u s) : KeepsOut u (execOperationComplete c e s) := by
  unfold execOperationComplete
  repeat' first
    | (with_reducible first
        | assumption | refine State.idleAdd_keeps ?_ | refine State.bump_keeps ?_ | refine State.modEng_keeps ?_
        | refine State.put_keeps ?_ | refine ite_keeps ?_ ?_ | refine iteOut_keeps ?_ ?_ | refine KeepsOut.next ?_ | intro _)
    | dsimp only | split
    | fail_if_no_progress with_reducible refine Keeps.of_mk ?_

theorem execEngineCompletion_keeps {u : State} {c : CoreIx} {e : EngIx} {s : State}
    (h_s : Keeps u s) : KeepsOut u (execEngineCompletion c e s) := by
  unfold execEngineCompletion
  repeat' first
    | (with_reducible first
        | assumption | refine act_keeps ?_ ?_ | refine State.completeWork_keeps ?_ | refine State.modEng_keeps ?_
        | refine KeepsOut.next ?_ | intro _)
    | dsimp only | split
    | fail_if_no_progress with_reducible refine Keeps.of_mk ?_

theorem execEngineReady_keeps {u : State} {c : CoreIx} {e : EngIx} {s : State}
    (h_s : Keeps u s) : KeepsOut u (execEngineReady c e s) := by
  unfold execEngineReady
  repeat' first
    | (with_reducible first
        | assumption | refine act_keeps ?_ ?_ | refine State.modEng_keeps ?_ | refine KeepsOut.next ?_ | intro _)
    | fail_if_no_progress with_reducible refine Keeps.of_mk ?_

theorem State.dispatch_keeps {u : State} {s : State} {c : CoreIx} {e : EngIx} {g : Seg} {b : List Byte} {mx : List Byte} {r : MmRes}
    (h_s : Keeps u s) : Keeps u (State.dispatch s c e g b mx r) := by
  unfold State.dispatch
  repeat' first
    | (with_reducible first
        | assumption | refine State.latchExp_keeps ?_ | refine State.modSeg_keeps ?_ | refine State.modEng_keeps ?_
        | refine State.issueCmd_keeps ?_ | refine KeepsR.snd (State.latchExp_keeps ?_) | refine ite_keeps ?_ ?_ | intro _)
    | dsimp only | split
    | (with_reducible first
        | refine KeepsR.get (State.latchExp_keeps ?_) (by with_reducible assumption) | refine KeepsR.of ?_)
    | fail_if_no_progress with_reducible refine Keeps.of_mk ?_

theorem State.staleDrop_keeps {u : State} {s : State} {c : CoreIx} {g : Seg} {i : Nat} {tag : Nat}
    (h_s : Keeps u s) : Keeps u (State.staleDrop s c g i tag) := by
  unfold State.staleDrop
  repeat' first
    | (with_reducible first
        | assumption | refine State.stashNow_keeps ?_ | refine State.wrLE_keeps ?_ | refine State.event_keeps ?_
        | refine State.bump_keeps ?_ | refine State.flag_keeps ?_ | refine State.killSeg_keeps ?_)
    | dsimp only | split
    | fail_if_no_progress with_reducible refine Keeps.of_mk ?_

theorem State.latchDesc_keeps {u : State} {s : State} {c : CoreIx} {i : Nat} {v : Nat}
    (h_s : Keeps u s) : Keeps u (State.latchDesc s c i v) := by
  unfold State.latchDesc
  repeat' first
    | (with_reducible first
        | assumption | refine State.modSeg_keeps ?_ | intro _)
    | fail_if_no_progress with_reducible refine Keeps.of_mk ?_

/-- The state a resolved descriptor answers with keeps. -/
def KeepsRes (u : State) (r : Resolved) : Prop :=
  match r with
  | .slot _ t => Keeps u t
  | .fault => True
  | .stale _ => True

theorem iteRes_keeps {u : State} {a b : Resolved} {p : Prop} [Decidable p] (h : KeepsRes u a) (k : KeepsRes u b) :
    KeepsRes u (if p then a else b) := by
  split
  · exact h
  · exact k

theorem KeepsRes.slot {u t : State} {v : Nat} (h : Keeps u t) : KeepsRes u (.slot v t) := h
theorem KeepsRes.fault {u : State} : KeepsRes u .fault := True.intro
theorem KeepsRes.stale {u : State} {k : Nat} : KeepsRes u (.stale k) := True.intro
theorem KeepsRes.get {u t : State} {v : Nat} {r : Resolved} (h : KeepsRes u r) (e : r = .slot v t) : Keeps u t := by cases e; exact h

theorem resolveDesc_keeps {u : State} {s : State} {c : CoreIx} {g : Seg} {i : Nat} (h : Keeps u s) :
    KeepsRes u (resolveDesc s c g i) := by
  unfold resolveDesc
  repeat' first
    | with_reducible exact h
    | with_reducible refine State.latchDesc_keeps ?_
    | with_reducible refine State.stashWr_keeps ?_
    | with_reducible refine iteRes_keeps ?_ ?_
    | with_reducible refine KeepsRes.slot ?_
    | with_reducible exact KeepsRes.fault
    | with_reducible exact KeepsRes.stale
    | dsimp only
    | split

theorem execMatmul_keeps {u : State} {c : CoreIx} {s : State} (h_s : Keeps u s) : KeepsOut u (execMatmul c s) := by
  unfold execMatmul
  repeat' first
    | (with_reducible first
        | assumption | refine State.meanwhile_keeps ?_ ?_ | refine State.descFault_keeps ?_ | refine checked_keeps ?_ ?_
        | refine State.dispatch_keeps ?_ | refine withRemote_keeps ?_ ?_ | refine State.staleDrop_keeps ?_
        | refine State.latchDesc_keeps ?_ | refine State.stashWr_keeps ?_ | refine ite_keeps ?_ ?_ | refine iteOut_keeps ?_ ?_
        | refine KeepsOut.next ?_ | intro _)
    | dsimp only | split
    | with_reducible refine KeepsRes.get (resolveDesc_keeps ?_) (by with_reducible assumption)
    | fail_if_no_progress with_reducible refine Keeps.of_mk ?_

/-! ### Machine/RowEngine.lean -/

theorem State.margFault_keeps {u : State} {s : State} {c : CoreIx} {g : Seg} {b : List Byte} {p : List Byte}
    (h_s : Keeps u s) : Keeps u (State.margFault s c g b p) := by
  unfold State.margFault
  repeat' first
    | (with_reducible first
        | assumption | refine State.killSeg_keeps ?_ | refine State.raise_keeps ?_ | refine State.flag_keeps ?_
        | refine ite_keeps ?_ ?_)
    | dsimp only | split
    | fail_if_no_progress with_reducible refine Keeps.of_mk ?_

theorem execRowop_keeps {u : State} {c : CoreIx} {s : State} (h_s : Keeps u s) : KeepsOut u (execRowop c s) := by
  unfold execRowop
  repeat' first
    | (with_reducible first
        | assumption | refine State.meanwhile_keeps ?_ ?_ | refine checked_keeps ?_ ?_ | refine withRemote_keeps ?_ ?_
        | refine State.margFault_keeps ?_ | refine State.modCore_keeps ?_ | refine State.issueCmd_keeps ?_
        | refine State.needRemote_keeps ?_ | refine ite_keeps ?_ ?_ | refine iteOut_keeps ?_ ?_ | refine KeepsOut.next ?_ | intro _)
    | dsimp only | split
    | fail_if_no_progress with_reducible refine Keeps.of_mk ?_

theorem State.rowIn_keeps {u : State} {s : State} {c : CoreIx} {ctx : Nat} {x3 : Nat} {fmt : Nat} {entry : Nat} {k : Nat}
    (h_s : Keeps u s) : KeepsR u (State.rowIn s c ctx x3 fmt entry k) := by
  unfold State.rowIn
  repeat' first
    | (with_reducible first
        | assumption | refine State.latchExp_keeps ?_ | refine KeepsR.snd (State.latchExp_keeps ?_) | intro _)
    | dsimp only | split
    | with_reducible refine KeepsR.get (State.latchExp_keeps ?_) (by with_reducible assumption)
    | refine KeepsR.of ?_
    | fail_if_no_progress with_reducible refine Keeps.of_mk ?_

theorem State.margWrite_keeps {u : State} {s : State} {c : CoreIx} {g : Seg} {b : List Byte} {p : List Byte} {i : Nat} {st : Num × Num}
    (h_s : Keeps u s) : Keeps u (State.margWrite s c g b p i st) := by
  unfold State.margWrite
  repeat' first
    | (with_reducible first
        | assumption | refine State.objStore_keeps ?_ | refine State.modSeg_keeps ?_ | refine State.modCore_keeps ?_
        | refine ite_keeps ?_ ?_ | intro _)
    | dsimp only | split
    | fail_if_no_progress with_reducible refine Keeps.of_mk ?_

theorem State.rowWrite_keeps {u : State} {s : State} {c : CoreIx} {ctx : Nat} {x3 : Nat} {fmt : Nat} {e5 : Bool} {entry : Nat}
    {width : Nat} {vs : List Num}
    (h_s : Keeps u s) : Keeps u (State.rowWrite s c ctx x3 fmt e5 entry width vs) := by
  unfold State.rowWrite
  repeat' first
    | (with_reducible first
        | assumption | refine State.latchExp_keeps ?_ | refine State.objStore_keeps ?_ | refine State.capture_keeps ?_
        | refine State.writeRow_keeps ?_ | refine KeepsR.snd (State.latchExp_keeps ?_) | refine foldl_keeps ?_ ?_
        | refine foldl_snd_keeps ?_ ?_ | refine ite_keeps ?_ ?_ | intro _)
    | dsimp only | split
    | (with_reducible first
        | refine KeepsR.get (State.latchExp_keeps ?_) (by with_reducible assumption) | refine KeepsR.of ?_)
    | fail_if_no_progress with_reducible refine Keeps.of_mk ?_

theorem rowAll_keeps {u : State} {c : CoreIx} {g : Seg} {o : RowOp} {gs : List Num} {bs : List Num} {x5 : Nat}
    {x6 : State × List Num × List Num}
    (h_x6 : KeepsL u x6) : KeepsL u (rowAll c g o gs bs x5 x6) := by
  induction x5 generalizing x6 with
  | zero => exact h_x6
  | succ kk ih =>
    have h0 : Keeps u (rowAll c g o gs bs kk x6).1 := ih h_x6
    unfold rowAll
    dsimp only
    refine KeepsL.of ?_
    generalize rowAll c g o gs bs kk x6 = acc at h0
    have h3 : ∀ (p q r s' : Nat) (k : Nat) (t : State), Keeps u t → Keeps u (t.rowIn c p q r s' k).2 :=
      fun p q r s' k t ht => State.rowIn_keeps ht
    repeat' first
      | with_reducible assumption
      | with_reducible refine State.margWrite_keeps ?_
      | with_reducible refine State.rowWrite_keeps ?_
      | with_reducible refine State.objStore_keeps ?_
      | with_reducible refine ite_keeps ?_ ?_
      | with_reducible refine h3 _ _ _ _ _ _ ?_
      | with_reducible refine KeepsR.snd (iteR_keeps ?_ ?_)
      | with_reducible refine State.rowIn_keeps ?_
      | with_reducible refine KeepsR.of ?_

theorem State.addVec_keeps {u : State} {s : State} {c : CoreIx} {ctx : Nat} {x3 : Nat} {vs : List Num}
    (h_s : Keeps u s) : Keeps u (State.addVec s c ctx x3 vs) := by
  unfold State.addVec
  repeat' first
    | (with_reducible first
        | assumption | refine State.objAdd_keeps ?_ | refine foldl_keeps ?_ ?_ | refine foldl_snd_keeps ?_ ?_ | intro _)
    | fail_if_no_progress with_reducible refine Keeps.of_mk ?_

theorem execRowopComplete_keeps {u : State} {c : CoreIx} {s : State} (h_s : Keeps u s) : KeepsOut u (execRowopComplete c s) := by
  unfold execRowopComplete
  repeat' first
    | (with_reducible first
        | assumption | refine State.meanwhile_keeps ?_ ?_ | refine checked_keeps ?_ ?_ | refine Got.run_keeps ?_ ?_
        | refine claimRanges_keeps ?_ | refine State.consume_keeps ?_ | refine State.writes_keeps ?_ | refine rowAll_keeps ?_
        | refine State.addVec_keeps ?_ | refine State.completeWork_keeps ?_ | refine State.modCore_keeps ?_
        | refine KeepsL.fst (rowAll_keeps ?_) | refine iteGot_keeps ?_ ?_ | refine KeepsGot.ofOk ?_ | refine ite_keeps ?_ ?_
        | refine iteOut_keeps ?_ ?_ | refine KeepsOut.next ?_ | intro _)
    | dsimp only | split
    | (with_reducible first
        | refine KeepsGot.ok (claimRanges_keeps ?_) (by with_reducible assumption)
        | refine KeepsGot.wait (claimRanges_keeps ?_) (by with_reducible assumption)
        | refine KeepsGot.kill (claimRanges_keeps ?_) (by with_reducible assumption)
        | refine KeepsL.get (rowAll_keeps ?_) (by with_reducible assumption) | refine KeepsL.of ?_)
    | fail_if_no_progress with_reducible refine Keeps.of_mk ?_

/-! ### Machine/Update.lean -/

theorem State.showPools_keeps {u : State} {s : State} {n : PartIx} (h_s : Keeps u s) : Keeps u (State.showPools s n) := by
  unfold State.showPools
  repeat' first
    | (with_reducible first
        | assumption | refine State.wrBytes_keeps ?_ | intro _)
    | fail_if_no_progress with_reducible refine Keeps.of_mk ?_

theorem State.fillRest_keeps {u : State} {s : State} {n : PartIx} {w : WetPage}
    (h_s : Keeps u s) : Keeps u (State.fillRest s n w) := by
  unfold State.fillRest
  repeat' first
    | (with_reducible first
        | assumption | refine State.dryLine_keeps ?_ | refine upTo_keeps ?_ ?_ | refine ite_keeps ?_ ?_ | intro _)
    | dsimp only | split
    | fail_if_no_progress with_reducible refine Keeps.of_mk ?_

theorem State.flipWet_keeps {u : State} {s : State} {n : PartIx} {w : WetPage} (h_s : Keeps u s) : Keeps u (State.flipWet s n w) := by
  unfold State.flipWet
  repeat' first
    | (with_reducible first
        | assumption | refine State.setLeafBy_keeps ?_ | refine State.showPools_keeps ?_ | refine State.modPart_keeps ?_
        | refine ite_keeps ?_ ?_ | intro _)
    | dsimp only | split
    | fail_if_no_progress with_reducible refine Keeps.of_mk ?_

theorem State.deferChange_keeps {u : State} {s : State} {n : PartIx} {d : Deferred}
    (h_s : Keeps u s) : Keeps u (State.deferChange s n d) := by
  unfold State.deferChange
  repeat' first
    | (with_reducible first
        | assumption | refine State.bumpSat_keeps ?_ | refine State.wrLE_keeps ?_ | refine State.modPart_keeps ?_ | intro _)
    | fail_if_no_progress with_reducible refine Keeps.of_mk ?_

theorem State.commitGather_keeps {u : State} {s : State} {n : PartIx} {i : Nat} {v : Nat} {tag : Nat} {recto : Bool}
    (h_s : Keeps u s) : Keeps u (State.commitGather s n i v tag recto) := by
  unfold State.commitGather
  repeat' first
    | (with_reducible first
        | assumption | refine State.wrBits_keeps ?_ | refine State.wrLE_keeps ?_ | refine ite_keeps ?_ ?_)
    | dsimp only | split
    | fail_if_no_progress with_reducible refine Keeps.of_mk ?_

theorem State.commitUpdate_keeps {u : State} {s : State} {n : PartIx} {i : Nat}
    (h_s : Keeps u s) : Keeps u (State.commitUpdate s n i) := by
  unfold State.commitUpdate
  repeat' first
    | (with_reducible first
        | assumption | refine State.wrLE_keeps ?_ | refine State.wrBits_keeps ?_)
    | fail_if_no_progress with_reducible refine Keeps.of_mk ?_

theorem State.claimBuffer_keeps {u : State} {s : State} {n : PartIx} {i : Nat}
    (h_s : Keeps u s) : Keeps u (State.claimBuffer s n i) := by
  unfold State.claimBuffer
  repeat' first
    | (with_reducible first
        | assumption | refine State.wrLE_keeps ?_ | refine ite_keeps ?_ ?_)
    | dsimp only | split
    | fail_if_no_progress with_reducible refine Keeps.of_mk ?_

theorem issueUpdate_keeps {u : State} {c : CoreIx} {sumsq : Bool} {s : State}
    (h_s : Keeps u s) : KeepsOut u (issueUpdate c sumsq s) := by
  unfold issueUpdate
  repeat' first
    | (with_reducible first
        | assumption | refine checked_keeps ?_ ?_ | refine withRemote_keeps ?_ ?_ | refine State.modCore_keeps ?_
        | refine State.claimBuffer_keeps ?_ | refine State.issueCmd_keeps ?_ | refine State.needRemote_keeps ?_
        | refine ite_keeps ?_ ?_ | refine iteOut_keeps ?_ ?_ | refine KeepsOut.next ?_ | intro _)
    | dsimp only | split
    | fail_if_no_progress with_reducible refine Keeps.of_mk ?_

theorem execUpdate_keeps {u : State} {c : CoreIx} {s : State} (h_s : Keeps u s) : KeepsOut u (execUpdate c s) := by
  unfold execUpdate
  exact State.meanwhile_keeps h_s (fun _ h => issueUpdate_keeps h)

theorem execSumOfSquares_keeps {u : State} {c : CoreIx} {s : State} (h_s : Keeps u s) : KeepsOut u (execSumOfSquares c s) := by
  unfold execSumOfSquares
  exact State.meanwhile_keeps h_s (fun _ h => issueUpdate_keeps h)

theorem execUpdateStart_keeps {u : State} {c : CoreIx} {s : State} (h_s : Keeps u s) : KeepsOut u (execUpdateStart c s) := by
  unfold execUpdateStart
  repeat' first
    | (with_reducible first
        | assumption | refine State.latchExp_keeps ?_ | refine State.modCore_keeps ?_ | refine KeepsR.snd (State.latchExp_keeps ?_)
        | refine ite_keeps ?_ ?_ | refine iteOut_keeps ?_ ?_ | refine KeepsOut.next ?_ | intro _)
    | dsimp only | split
    | (with_reducible first
        | refine KeepsR.get (State.latchExp_keeps ?_) (by with_reducible assumption) | refine KeepsR.of ?_)
    | fail_if_no_progress with_reducible refine Keeps.of_mk ?_

theorem updRow_keeps {u : State} {s : State} {c : CoreIx} {ctx : Nat} {x3 : UpdOp} {gs : Num} {vc : Nat} {r : Nat}
    (h_s : Keeps u s) : KeepsR u (updRow s c ctx x3 gs vc r) := by
  unfold updRow
  repeat' first
    | (with_reducible first
        | assumption | refine State.objStore_keeps ?_ | refine ite_keeps ?_ ?_ | intro _)
    | dsimp only | split
    | refine KeepsR.of ?_
    | fail_if_no_progress with_reducible refine Keeps.of_mk ?_

theorem updRows_keeps {u : State} {c : CoreIx} {ctx : Nat} {x2 : UpdOp} {gs : Num} {vc : Nat} {x5 : Nat} {x6 : List (List Num) × State}
    (h_x6 : KeepsR u x6) : KeepsR u (updRows c ctx x2 gs vc x5 x6) := by
  revert h_x6
  fun_induction updRows c ctx x2 gs vc x5 x6
  all_goals intro _
  all_goals repeat' first
    | (with_reducible first
        | assumption | apply_assumption | refine updRow_keeps ?_ | exact KeepsR.get h_x6 (by with_reducible assumption)
        | refine KeepsR.snd (updRow_keeps ?_) | intro _)
    | dsimp only | split
    | with_reducible refine KeepsR.get (updRow_keeps ?_) (by with_reducible assumption)
    | refine KeepsR.of ?_
    | fail_if_no_progress with_reducible refine Keeps.of_mk ?_

theorem State.copyMx_keeps {u : State} {s : State} {c : CoreIx} {ctx : Nat} {base : Nat} {pitch : Nat} {sBase : Nat} {sPitch : Nat}
    {fmt : Nat} {entry : Nat} {width : Nat} {rows : List (List Num)} {height : Nat}
    (h_s : Keeps u s) : Keeps u (State.copyMx s c ctx base pitch sBase sPitch fmt entry width rows height) := by
  unfold State.copyMx
  repeat' first
    | (with_reducible first
        | assumption | refine State.objStore_keeps ?_ | refine State.capture_keeps ?_ | refine foldl_keeps ?_ ?_
        | refine foldl_snd_keeps ?_ ?_ | intro _)
    | fail_if_no_progress with_reducible refine Keeps.of_mk ?_

theorem State.copyRow_keeps {u : State} {s : State} {c : CoreIx} {ctx : Nat} {addr : Nat} {fmt : Nat} {e : Int} {entry : Nat}
    {width : Nat} {vs : List Num}
    (h_s : Keeps u s) : Keeps u (State.copyRow s c ctx addr fmt e entry width vs) := by
  unfold State.copyRow
  repeat' first
    | (with_reducible first
        | assumption | refine State.writeRow_keeps ?_ | refine State.objStore_keeps ?_)
    | fail_if_no_progress with_reducible refine Keeps.of_mk ?_

theorem State.writeCopies_keeps {u : State} {s : State} {c : CoreIx} {ctx : Nat} {x3 : UpdOp} {ws : List (List Num)} {vc : Nat}
    (h_s : Keeps u s) : Keeps u (State.writeCopies s c ctx x3 ws vc) := by
  unfold State.writeCopies
  repeat' first
    | (with_reducible first
        | assumption | refine State.copyMx_keeps ?_ | refine State.copyRow_keeps ?_ | refine upTo_keeps ?_ ?_ | refine ite_keeps ?_ ?_
        | intro _)
    | dsimp only | split
    | fail_if_no_progress with_reducible refine Keeps.of_mk ?_

theorem execUpdateComplete_keeps {u : State} {c : CoreIx} {s : State} (h_s : Keeps u s) : KeepsOut u (execUpdateComplete c s) := by
  unfold execUpdateComplete
  repeat' first
    | (with_reducible first
        | assumption | refine State.meanwhile_keeps ?_ ?_ | refine State.completeWork_keeps ?_ | refine State.modCore_keeps ?_
        | refine State.modSeg_keeps ?_ | refine Got.run_keeps ?_ ?_ | refine claimRanges_keeps ?_ | refine State.consume_keeps ?_
        | refine State.writes_keeps ?_ | refine State.objAdd_keeps ?_ | refine updRows_keeps ?_ | refine State.writeCopies_keeps ?_
        | refine KeepsR.snd (updRows_keeps ?_) | refine iteGot_keeps ?_ ?_ | refine KeepsGot.ofOk ?_ | refine ite_keeps ?_ ?_
        | refine iteOut_keeps ?_ ?_ | refine KeepsOut.next ?_ | intro _)
    | dsimp only | split
    | (with_reducible first
        | refine KeepsGot.ok (claimRanges_keeps ?_) (by with_reducible assumption)
        | refine KeepsGot.wait (claimRanges_keeps ?_) (by with_reducible assumption)
        | refine KeepsGot.kill (claimRanges_keeps ?_) (by with_reducible assumption)
        | refine KeepsR.get (updRows_keeps ?_) (by with_reducible assumption) | refine KeepsR.of ?_)
    | fail_if_no_progress with_reducible refine Keeps.of_mk ?_

theorem State.commitDeferred_keeps {u : State} {s : State} {n : PartIx} {d : Deferred}
    (h_s : Keeps u s) : Keeps u (State.commitDeferred s n d) := by
  unfold State.commitDeferred
  repeat' first
    | (with_reducible first
        | assumption | refine State.flipWet_keeps ?_ | refine State.wrLE_keeps ?_ | refine State.commitGather_keeps ?_
        | refine State.commitUpdate_keeps ?_ | refine foldl_keeps ?_ ?_ | refine foldl_snd_keeps ?_ ?_ | refine ite_keeps ?_ ?_
        | intro _)
    | dsimp only | split
    | fail_if_no_progress with_reducible refine Keeps.of_mk ?_

theorem execDeferredSlotChange_keeps {u : State} {n : PartIx} {s : State}
    (h_s : Keeps u s) : KeepsOut u (execDeferredSlotChange n s) := by
  unfold execDeferredSlotChange
  repeat' first
    | (with_reducible first
        | assumption | refine act_keeps ?_ ?_ | refine State.commitDeferred_keeps ?_ | refine State.modPart_keeps ?_
        | refine KeepsOut.next ?_ | intro _)
    | dsimp only | split
    | fail_if_no_progress with_reducible refine Keeps.of_mk ?_

/-! ### Machine/Cache.lean -/

theorem State.deliverPoison_keeps {u : State} {s : State} {c : CoreIx} {tag : Nat}
    (h_s : Keeps u s) : Keeps u (State.deliverPoison s c tag) := by
  unfold State.deliverPoison
  repeat' first
    | (with_reducible first
        | assumption | refine State.modSeg_keeps ?_ | refine ite_keeps ?_ ?_ | intro _)
    | dsimp only | split
    | fail_if_no_progress with_reducible refine Keeps.of_mk ?_

theorem State.queueDone_keeps {u : State} {s : State} {n : PartIx} {id : Nat}
    (h_s : Keeps u s) : Keeps u (State.queueDone s n id) := by
  unfold State.queueDone
  repeat' first
    | (with_reducible first
        | assumption | refine State.showOutq_keeps ?_ | refine State.modPart_keeps ?_ | refine id_keeps ?_ | intro _)
    | fail_if_no_progress with_reducible refine Keeps.of_mk ?_

theorem State.queueFailChart_keeps {u : State} {s : State} {n : PartIx} {e : OutEntry}
    (h_s : Keeps u s) : Keeps u (State.queueFailChart s n e) := by
  unfold State.queueFailChart
  repeat' first
    | (with_reducible first
        | assumption | refine State.raise_keeps ?_ | refine State.bump_keeps ?_ | refine State.queueDone_keeps ?_
        | refine State.modPart_keeps ?_ | refine id_keeps ?_ | intro _)
    | fail_if_no_progress with_reducible refine Keeps.of_mk ?_

theorem State.holdAcc_keeps {u : State} {s : State} {x1 : Nat} {h : HeldAcc} {why : Nat}
    (h_s : Keeps u s) : Keeps u (State.holdAcc s x1 h why) := by
  unfold State.holdAcc
  repeat' first
    | with_reducible assumption
    | fail_if_no_progress with_reducible refine Keeps.of_mk ?_

theorem State.ageTick_keeps {u : State} {s : State} (h_s : Keeps u s) : Keeps u (State.ageTick s) := by
  unfold State.ageTick
  repeat' first
    | with_reducible assumption
    | fail_if_no_progress with_reducible refine Keeps.of_mk ?_

theorem State.askLine_keeps {u : State} {s : State} {x1 : Nat} {h : HeldAcc} (h_s : Keeps u s) : Keeps u (State.askLine s x1 h) := by
  unfold State.askLine
  repeat' first
    | (with_reducible first
        | assumption | refine State.frlRequest_keeps ?_ | refine State.putLine_keeps ?_ | refine State.ageTick_keeps ?_
        | refine ite_keeps ?_ ?_)
    | dsimp only | split
    | fail_if_no_progress with_reducible refine Keeps.of_mk ?_

theorem State.queueMerged_keeps {u : State} {s : State} {n : PartIx} {id : Nat}
    (h_s : Keeps u s) : Keeps u (State.queueMerged s n id) := by
  unfold State.queueMerged
  repeat' first
    | (with_reducible first
        | assumption | refine State.queueDone_keeps ?_ | refine State.modPart_keeps ?_ | refine id_keeps ?_ | refine ite_keeps ?_ ?_
        | intro _)
    | dsimp only | split
    | fail_if_no_progress with_reducible refine Keeps.of_mk ?_

theorem State.deliver_keeps {u : State} {s : State} {c : CoreIx} {tag : Nat} {data : List Byte} {bad : List Nat}
    (h_s : Keeps u s) : Keeps u (State.deliver s c tag data bad) := by
  unfold State.deliver
  repeat' first
    | (with_reducible first
        | assumption | refine State.modSeg_keeps ?_ | refine ite_keeps ?_ ?_ | intro _)
    | dsimp only | split
    | fail_if_no_progress with_reducible refine Keeps.of_mk ?_

theorem State.serveAcc_keeps {u : State} {s : State} {l : CacheLine} {h : HeldAcc}
    (h_s : Keeps u s) : Keeps u (State.serveAcc s l h) := by
  unfold State.serveAcc
  repeat' first
    | (with_reducible first
        | assumption | refine State.ageTick_keeps ?_ | refine State.queueMerged_keeps ?_ | refine State.putLine_keeps ?_
        | refine State.deliver_keeps ?_ | refine ite_keeps ?_ ?_)
    | dsimp only | split
    | fail_if_no_progress with_reducible refine Keeps.of_mk ?_

theorem State.holdOn_keeps {u : State} {s : State} {l : CacheLine} {h : HeldAcc} (h_s : Keeps u s) : Keeps u (State.holdOn s l h) := by
  unfold State.holdOn
  repeat' first
    | (with_reducible first
        | assumption | refine State.putLine_keeps ?_)
    | fail_if_no_progress with_reducible refine Keeps.of_mk ?_

theorem State.cacheAccess_keeps {u : State} {s : State} {x1 : Nat} {h : HeldAcc} {was : Option Nat}
    (h_s : Keeps u s) : Keeps u (State.cacheAccess s x1 h was) := by
  unfold State.cacheAccess
  repeat' first
    | (with_reducible first
        | assumption | refine State.holdAcc_keeps ?_ | refine State.tally_keeps ?_ | refine State.askLine_keeps ?_
        | refine State.evict_keeps ?_ | refine State.frlRequest_keeps ?_ | refine State.putLine_keeps ?_
        | refine State.serveAcc_keeps ?_ | refine State.holdOn_keeps ?_ | refine ite_keeps ?_ ?_ | intro _)
    | dsimp only | split
    | fail_if_no_progress with_reducible refine Keeps.of_mk ?_

theorem State.queueFailFrl_keeps {u : State} {s : State} {n : PartIx} {e : OutEntry}
    (h_s : Keeps u s) : Keeps u (State.queueFailFrl s n e) := by
  unfold State.queueFailFrl
  repeat' first
    | (with_reducible first
        | assumption | refine State.raise_keeps ?_ | refine State.bump_keeps ?_ | refine State.queueDone_keeps ?_
        | refine State.modPart_keeps ?_ | refine id_keeps ?_ | intro _)
    | fail_if_no_progress with_reducible refine Keeps.of_mk ?_

theorem State.failAccs_keeps {u : State} {s : State} {hs : List HeldAcc} (h_s : Keeps u s) : Keeps u (State.failAccs s hs) := by
  unfold State.failAccs
  repeat' first
    | (with_reducible first
        | assumption | refine State.queueFailFrl_keeps ?_ | refine State.deliverPoison_keeps ?_ | refine foldl_keeps ?_ ?_
        | refine foldl_snd_keeps ?_ ?_ | refine id_keeps ?_ | refine ite_keeps ?_ ?_ | intro _)
    | dsimp only | split
    | fail_if_no_progress with_reducible refine Keeps.of_mk ?_

theorem State.wakeWaiting_keeps {u : State} {s : State} {sets : Nat → Bool}
    (h_s : Keeps u s) : Keeps u (State.wakeWaiting s sets) := by
  unfold State.wakeWaiting
  repeat' first
    | (with_reducible first
        | assumption | refine State.cacheAccess_keeps ?_ | refine foldl_keeps ?_ ?_ | refine foldl_snd_keeps ?_ ?_ | intro _)
    | fail_if_no_progress with_reducible refine Keeps.of_mk ?_

theorem State.flushLine_keeps {u : State} {s : State} {x1 : Nat} (h_s : Keeps u s) : Keeps u (State.flushLine s x1) := by
  unfold State.flushLine
  repeat' first
    | (with_reducible first
        | assumption | refine State.evict_keeps ?_ | refine ite_keeps ?_ ?_)
    | dsimp only | split
    | fail_if_no_progress with_reducible refine Keeps.of_mk ?_

theorem serveHeld_keeps {u : State} {x0 : Nat} {x1 : List HeldAcc} {x2 : State}
    (h_x2 : Keeps u x2) : Keeps u (serveHeld x0 x1 x2) := by
  induction x1 generalizing x2 with
  | nil =>
    unfold serveHeld
    repeat' first
      | with_reducible assumption
      | fail_if_no_progress with_reducible refine Keeps.of_mk ?_
  | cons aa rr ih =>
    unfold serveHeld
    try dsimp only
    repeat' first
      | (with_reducible first
          | assumption | refine ih ?_ | refine State.serveAcc_keeps ?_ | refine State.putLine_keeps ?_
          | refine State.frlRequest_keeps ?_ | refine State.holdOn_keeps ?_ | refine ite_keeps ?_ ?_ | intro _)
      | dsimp only | split
      | fail_if_no_progress with_reducible refine Keeps.of_mk ?_

theorem State.lineFilled_keeps {u : State} {s : State} {l : CacheLine} {st : CacheState} {m : FMsg}
    (h_s : Keeps u s) : Keeps u (State.lineFilled s l st m) := by
  unfold State.lineFilled
  repeat' first
    | (with_reducible first
        | assumption | refine State.unpark_keeps ?_ | refine State.wakeWaiting_keeps ?_ | refine State.flushLine_keeps ?_
        | refine serveHeld_keeps ?_ | refine State.frlSend_keeps ?_ | refine State.putLine_keeps ?_ | intro _)
    | fail_if_no_progress with_reducible refine Keeps.of_mk ?_

theorem State.replay_keeps {u : State} {s : State} {x1 : Nat} {hs : List HeldAcc}
    (h_s : Keeps u s) : Keeps u (State.replay s x1 hs) := by
  unfold State.replay
  repeat' first
    | (with_reducible first
        | assumption | refine State.cacheAccess_keeps ?_ | refine foldl_keeps ?_ ?_ | refine foldl_snd_keeps ?_ ?_ | intro _)
    | fail_if_no_progress with_reducible refine Keeps.of_mk ?_

theorem State.lineEvicted_keeps {u : State} {s : State} {l : CacheLine} (h_s : Keeps u s) : Keeps u (State.lineEvicted s l) := by
  unfold State.lineEvicted
  repeat' first
    | (with_reducible first
        | assumption | refine State.unpark_keeps ?_ | refine State.wakeWaiting_keeps ?_ | refine State.replay_keeps ?_
        | refine State.delLine_keeps ?_ | intro _)
    | fail_if_no_progress with_reducible refine Keeps.of_mk ?_

theorem State.lineFailed_keeps {u : State} {s : State} {l : CacheLine} (h_s : Keeps u s) : Keeps u (State.lineFailed s l) := by
  unfold State.lineFailed
  repeat' first
    | (with_reducible first
        | assumption | refine State.unpark_keeps ?_ | refine State.wakeWaiting_keeps ?_ | refine State.failAccs_keeps ?_
        | refine State.delLine_keeps ?_ | intro _)
    | fail_if_no_progress with_reducible refine Keeps.of_mk ?_

/-! ### Machine/Commands.lean -/

theorem State.bpCheck_keeps {u : State} {s : State} {c : CoreIx} (h_s : Keeps u s) : Keeps u (State.bpCheck s c) := by
  unfold State.bpCheck
  repeat' first
    | (with_reducible first
        | assumption | refine State.modCore_keeps ?_ | refine State.put_keeps ?_ | refine ite_keeps ?_ ?_ | intro _)
    | dsimp only | split
    | fail_if_no_progress with_reducible refine Keeps.of_mk ?_

theorem State.startMover_keeps {u : State} {s : State} {c : CoreIx} {start : MovOp → State → State}
    (h_s : Keeps u s) (h_start : ∀ y0 tt, Keeps u tt → Keeps u (start y0 tt)) : Keeps u (State.startMover s c start) := by
  unfold State.startMover
  repeat' first
    | (with_reducible first
        | assumption | refine State.modCore_keeps ?_ | apply h_start | refine ite_keeps ?_ ?_ | intro _)
    | dsimp only | split
    | fail_if_no_progress with_reducible refine Keeps.of_mk ?_

theorem State.companionRead_keeps {u : State} {s : State} {c : CoreIx} {p : Piece}
    (h_s : Keeps u s) : Keeps u (State.companionRead s c p) := by
  unfold State.companionRead
  repeat' first
    | (with_reducible first
        | assumption | refine State.deliverPoison_keeps ?_ | refine State.raise_keeps ?_ | refine State.bump_keeps ?_
        | refine State.cacheAccess_keeps ?_ | refine State.frlRequest_keeps ?_ | refine ite_keeps ?_ ?_)
    | dsimp only | split
    | fail_if_no_progress with_reducible refine Keeps.of_mk ?_

theorem State.needCompanion_keeps {u : State} {s : State} {c : CoreIx} {work : Nat} {addr : Nat} {len : Nat}
    (h_s : Keeps u s) : Keeps u (State.needCompanion s c work addr len) := by
  unfold State.needCompanion
  repeat' first
    | (with_reducible first
        | assumption | refine State.companionRead_keeps ?_ | refine State.modSeg_keeps ?_ | refine foldl_keeps ?_ ?_
        | refine foldl_snd_keeps ?_ ?_ | refine ite_keeps ?_ ?_ | intro _)
    | dsimp only | split
    | fail_if_no_progress with_reducible refine Keeps.of_mk ?_

theorem moverStart_keeps {u : State} {c : CoreIx} {m : MovOp} {s : State} (h_s : Keeps u s) : Keeps u (moverStart c m s) := by
  unfold moverStart
  repeat' first
    | (with_reducible first
        | assumption | refine State.modCore_keeps ?_ | refine State.needRemote_keeps ?_ | refine State.needCompanion_keeps ?_
        | refine ite_keeps ?_ ?_ | intro _)
    | dsimp only | split
    | fail_if_no_progress with_reducible refine Keeps.of_mk ?_

theorem State.moverDone_keeps {u : State} {s : State} {c : CoreIx} {work : Nat}
    (h_s : Keeps u s) : Keeps u (State.moverDone s c work) := by
  unfold State.moverDone
  repeat' first
    | (with_reducible first
        | assumption | refine State.startMover_keeps ?_ ?_ | refine State.completeWork_keeps ?_ | refine State.modCore_keeps ?_
        | refine moverStart_keeps ?_ | intro _)
    | fail_if_no_progress with_reducible refine Keeps.of_mk ?_

theorem execStashPutComplete_keeps {u : State} {c : CoreIx} {s : State} (h_s : Keeps u s) : KeepsOut u (execStashPutComplete c s) := by
  unfold execStashPutComplete
  repeat' first
    | (with_reducible first
        | assumption | refine State.meanwhile_keeps ?_ ?_ | refine Got.run_keeps ?_ ?_ | refine claimRanges_keeps ?_
        | refine State.moverDone_keeps ?_ | refine State.objStoreBad_keeps ?_ | refine State.consume_keeps ?_
        | refine iteGot_keeps ?_ ?_ | refine KeepsGot.ofOk ?_ | refine ite_keeps ?_ ?_ | refine iteOut_keeps ?_ ?_
        | refine KeepsOut.next ?_ | intro _)
    | dsimp only | split
    | (with_reducible first
        | refine KeepsGot.ok (claimRanges_keeps ?_) (by with_reducible assumption)
        | refine KeepsGot.wait (claimRanges_keeps ?_) (by with_reducible assumption)
        | refine KeepsGot.kill (claimRanges_keeps ?_) (by with_reducible assumption))
    | fail_if_no_progress with_reducible refine Keeps.of_mk ?_

theorem semGrant_keeps {u : State} {s : State} {c : CoreIx} {g : Seg} (h_s : Keeps u s) : KeepsOptM u (semGrant s c g) := by
  intro t e
  obtain ⟨w, _, hw⟩ := List.exists_of_findSome?_eq_some e
  split at hw
  · obtain ⟨r, hr, rfl⟩ := Option.map_eq_some_iff.mp hw
    exact semAcquireAt_keeps h_s r hr
  · cases hw

theorem State.semGranted_keeps {u : State} {s : State} {c : CoreIx} {w : SemWaitSt} {anew : Bool} {expired : Bool}
    (h_s : Keeps u s) : Keeps u (State.semGranted s c w anew expired) := by
  unfold State.semGranted
  repeat' first
    | (with_reducible first
        | assumption | refine State.modSeg_keeps ?_ | refine State.bump_keeps ?_ | refine ite_keeps ?_ ?_ | intro _)
    | dsimp only | split
    | fail_if_no_progress with_reducible refine Keeps.of_mk ?_

theorem State.semTryGrant_keeps {u : State} {s : State} {c : CoreIx} (h_s : Keeps u s) : Keeps u (State.semTryGrant s c) := by
  unfold State.semTryGrant
  repeat' first
    | (with_reducible first
        | assumption | refine semGrant_keeps ?_ | refine State.semGranted_keeps ?_)
    | dsimp only | split
    | with_reducible refine KeepsOptM.get (semGrant_keeps ?_) (by with_reducible assumption)
    | fail_if_no_progress with_reducible refine Keeps.of_mk ?_

theorem State.semLook_keeps {u : State} {s : State} {c : CoreIx} (h_s : Keeps u s) : Keeps u (State.semLook s c) := by
  unfold State.semLook
  repeat' first
    | (with_reducible first
        | assumption | refine State.semFenced_keeps ?_ | refine State.modSeg_keeps ?_ | refine ite_keeps ?_ ?_ | intro _)
    | dsimp only | split
    | fail_if_no_progress with_reducible refine Keeps.of_mk ?_

theorem State.stashDropPages_keeps {u : State} {s : State} {c : CoreIx} {g : Seg} {addr : Nat} {pages : Nat}
    (h_s : Keeps u s) : Keeps u (State.stashDropPages s c g addr pages) := by
  unfold State.stashDropPages
  repeat' first
    | (with_reducible first
        | assumption | refine State.modSeg_keeps ?_ | intro _)
    | dsimp only | split
    | fail_if_no_progress with_reducible refine Keeps.of_mk ?_

theorem State.stashUncharge_keeps {u : State} {s : State} {c : CoreIx} {g : Seg} {addr : Nat} {pages : Nat}
    (h_s : Keeps u s) : Keeps u (State.stashUncharge s c g addr pages) := by
  unfold State.stashUncharge
  repeat' first
    | (with_reducible first
        | assumption | refine State.stashWr_keeps ?_ | refine foldl_keeps ?_ ?_ | refine foldl_snd_keeps ?_ ?_ | intro _)
    | dsimp only | split
    | fail_if_no_progress with_reducible refine Keeps.of_mk ?_

theorem State.readTail_keeps {u : State} {s : State} {c : CoreIx} {g : Seg} (h_s : Keeps u s) : Keeps u (State.readTail s c g) := by
  unfold State.readTail
  repeat' first
    | (with_reducible first
        | assumption | refine State.modSeg_keeps ?_ | refine State.seqState_keeps ?_ | refine ite_keeps ?_ ?_ | intro _)
    | dsimp only | split
    | fail_if_no_progress with_reducible refine Keeps.of_mk ?_

theorem State.fetchNext_keeps {u : State} {s : State} {c : CoreIx} {g : Seg} (h_s : Keeps u s) : Keeps u (State.fetchNext s c g) := by
  unfold State.fetchNext
  repeat' first
    | (with_reducible first
        | assumption | refine State.seqState_keeps ?_ | refine State.modSeg_keeps ?_ | refine checked_keeps ?_ ?_
        | refine withRemote_keeps ?_ ?_ | refine State.bpCheck_keeps ?_ | refine ite_keeps ?_ ?_ | intro _)
    | dsimp only | split
    | fail_if_no_progress with_reducible refine Keeps.of_mk ?_

theorem execCommandFetch_keeps {u : State} {c : CoreIx} {s : State} (h_s : Keeps u s) : KeepsOut u (execCommandFetch c s) := by
  unfold execCommandFetch
  repeat' first
    | (with_reducible first
        | assumption | refine State.meanwhile_keeps ?_ ?_ | refine State.fetchNext_keeps ?_ | refine State.modCore_keeps ?_
        | refine State.modSeg_keeps ?_ | refine State.bump_keeps ?_ | refine State.descFault_keeps ?_ | refine ite_keeps ?_ ?_
        | refine iteOut_keeps ?_ ?_ | refine KeepsOut.next ?_ | intro _)
    | dsimp only | split
    | fail_if_no_progress with_reducible refine Keeps.of_mk ?_

theorem execTailPoll_keeps {u : State} {c : CoreIx} {s : State} (h_s : Keeps u s) : KeepsOut u (execTailPoll c s) := by
  unfold execTailPoll
  repeat' first
    | (with_reducible first
        | assumption | refine act_keeps ?_ ?_ | refine State.readTail_keeps ?_ | refine KeepsOut.next ?_)
    | dsimp only | split
    | fail_if_no_progress with_reducible refine Keeps.of_mk ?_

theorem execNop_keeps {u : State} {c : CoreIx} {s : State} (h_s : Keeps u s) : KeepsOut u (execNop c s) := by
  unfold execNop
  repeat' first
    | (with_reducible first
        | assumption | refine State.meanwhile_keeps ?_ ?_ | refine refuseOr_keeps ?_ ?_ | refine State.issueCmd_keeps ?_
        | refine KeepsOut.next ?_ | intro _)
    | dsimp only | split
    | fail_if_no_progress with_reducible refine Keeps.of_mk ?_

theorem execMxScales_keeps {u : State} {c : CoreIx} {s : State} (h_s : Keeps u s) : KeepsOut u (execMxScales c s) := by
  unfold execMxScales
  repeat' first
    | (with_reducible first
        | assumption | refine State.meanwhile_keeps ?_ ?_ | refine refuseOr_keeps ?_ ?_ | refine State.bpCheck_keeps ?_
        | refine State.modSeg_keeps ?_ | refine State.issueCmd_keeps ?_ | refine KeepsOut.next ?_ | intro _)
    | dsimp only | split
    | fail_if_no_progress with_reducible refine Keeps.of_mk ?_

theorem State.takeBlock_keeps {u : State} {s : State} {c : CoreIx} (h_s : Keeps u s) : Keeps u (State.takeBlock s c) := by
  unfold State.takeBlock
  repeat' first
    | (with_reducible first
        | assumption | refine State.modSeg_keeps ?_ | intro _)
    | fail_if_no_progress with_reducible refine Keeps.of_mk ?_

theorem State.readBlock_keeps {u : State} {s : State} {c : CoreIx} {g : Seg} {go : State → State}
    (h_s : Keeps u s) (h_go : ∀ tt, Keeps u tt → Keeps u (go tt)) : Keeps u (State.readBlock s c g go) := by
  unfold State.readBlock
  repeat' first
    | (with_reducible first
        | assumption | refine withRemote_keeps ?_ ?_ | refine checked_keeps ?_ ?_ | refine State.takeBlock_keeps ?_ | apply h_go
        | intro _)
    | fail_if_no_progress with_reducible refine Keeps.of_mk ?_

theorem State.pausedStart_keeps {u : State} {s : State} {c : CoreIx} {g : Seg}
    (h_s : Keeps u s) : Keeps u (State.pausedStart s c g) := by
  unfold State.pausedStart
  repeat' first
    | (with_reducible first
        | assumption | refine State.seqState_keeps ?_ | refine State.modCore_keeps ?_ | refine State.ctxSetState_keeps ?_ | intro _)
    | fail_if_no_progress with_reducible refine Keeps.of_mk ?_

theorem State.mbJoin_keeps {u : State} {s : State} {c : CoreIx} {g : Seg} {b : List Byte} {slot : Nat} {tag : Nat} {dir : Nat}
    {skip : Bool}
    (h_s : Keeps u s) : Keeps u (State.mbJoin s c g b slot tag dir skip) := by
  unfold State.mbJoin
  repeat' first
    | (with_reducible first
        | assumption | refine State.modSeg_keeps ?_ | refine State.issueCmd_keeps ?_ | intro _)
    | fail_if_no_progress with_reducible refine Keeps.of_mk ?_

theorem execMbBegin_keeps {u : State} {c : CoreIx} {s : State} (h_s : Keeps u s) : KeepsOut u (execMbBegin c s) := by
  unfold execMbBegin
  repeat' first
    | (with_reducible first
        | assumption | refine State.meanwhile_keeps ?_ ?_ | refine checked_keeps ?_ ?_ | refine State.readBlock_keeps ?_ ?_
        | refine State.descFault_keeps ?_ | refine State.pausedStart_keeps ?_ | refine State.mbJoin_keeps ?_
        | refine State.stashWr_keeps ?_ | refine ite_keeps ?_ ?_ | refine iteOut_keeps ?_ ?_ | refine KeepsOut.next ?_ | intro _)
    | dsimp only | split
    | fail_if_no_progress with_reducible refine Keeps.of_mk ?_

theorem execMbEnd_keeps {u : State} {c : CoreIx} {s : State} (h_s : Keeps u s) : KeepsOut u (execMbEnd c s) := by
  unfold execMbEnd
  repeat' first
    | (with_reducible first
        | assumption | refine State.meanwhile_keeps ?_ ?_ | refine refuseOr_keeps ?_ ?_ | refine State.modSeg_keeps ?_
        | refine State.issueCmd_keeps ?_ | refine KeepsOut.next ?_ | intro _)
    | dsimp only | split
    | fail_if_no_progress with_reducible refine Keeps.of_mk ?_

theorem State.toMover_keeps {u : State} {s : State} {c : CoreIx} {g : Seg} {b : List Byte}
    (h_s : Keeps u s) : Keeps u (State.toMover s c g b) := by
  unfold State.toMover
  repeat' first
    | (with_reducible first
        | assumption | refine State.modCore_keeps ?_ | refine State.startMover_keeps ?_ ?_ | refine State.issueCmd_keeps ?_
        | refine moverStart_keeps ?_ | intro _)
    | fail_if_no_progress with_reducible refine Keeps.of_mk ?_

theorem State.stashPlace_keeps {u : State} {s : State} {c : CoreIx} {g : Seg} {b : List Byte} {slot : Nat} {t : Nat} {len : Nat}
    {leaves : List Nat} {reserve : Bool}
    (h_s : Keeps u s) : Keeps u (State.stashPlace s c g b slot t len leaves reserve) := by
  unfold State.stashPlace
  repeat' first
    | (with_reducible first
        | assumption | refine popFrames_keeps ?_ | refine State.stashWr_keeps ?_ | refine State.modSeg_keeps ?_
        | refine State.issueCmd_keeps ?_ | refine State.toMover_keeps ?_ | refine ite_keeps ?_ ?_ | intro _)
    | dsimp only | split
    | (with_reducible first
        | refine KeepsOptR.get (iteOptR_keeps KeepsOptR.none (popFrames_keeps ?_)) (by with_reducible assumption)
        | refine KeepsOptR.get (popFrames_keeps ?_) (by with_reducible assumption))
    | fail_if_no_progress with_reducible refine Keeps.of_mk ?_

theorem State.stashFull_keeps {u : State} {s : State} {c : CoreIx} {g : Seg} (h_s : Keeps u s) : Keeps u (State.stashFull s c g) := by
  unfold State.stashFull
  repeat' first
    | (with_reducible first
        | assumption | refine State.stashNow_keeps ?_ | refine State.bump_keeps ?_ | refine State.flag_keeps ?_
        | refine State.event_keeps ?_ | refine State.raise_keeps ?_)
    | fail_if_no_progress with_reducible refine Keeps.of_mk ?_

theorem execStashPut_keeps {u : State} {c : CoreIx} {s : State} (h_s : Keeps u s) : KeepsOut u (execStashPut c s) := by
  unfold execStashPut
  repeat' first
    | (with_reducible first
        | assumption | refine State.meanwhile_keeps ?_ ?_ | refine checked_keeps ?_ ?_ | refine State.descFault_keeps ?_
        | refine State.stashPlace_keeps ?_ | refine State.stashFull_keeps ?_ | refine State.killSeg_keeps ?_ | refine ite_keeps ?_ ?_
        | refine iteOut_keeps ?_ ?_ | refine KeepsOut.next ?_ | intro _)
    | dsimp only | split
    | fail_if_no_progress with_reducible refine Keeps.of_mk ?_

theorem execStashFree_keeps {u : State} {c : CoreIx} {s : State} (h_s : Keeps u s) : KeepsOut u (execStashFree c s) := by
  unfold execStashFree
  repeat' first
    | (with_reducible first
        | assumption | refine State.meanwhile_keeps ?_ ?_ | refine checked_keeps ?_ ?_ | refine State.descFault_keeps ?_
        | refine State.stashDropPages_keeps ?_ | refine State.stashUncharge_keeps ?_ | refine State.stashWr_keeps ?_
        | refine State.issueCmd_keeps ?_ | refine foldl_keeps ?_ ?_ | refine foldl_snd_keeps ?_ ?_ | refine KeepsOut.next ?_ | intro _)
    | dsimp only | split
    | fail_if_no_progress with_reducible refine Keeps.of_mk ?_

theorem execScaleStep_keeps {u : State} {c : CoreIx} {s : State} (h_s : Keeps u s) : KeepsOut u (execScaleStep c s) := by
  unfold execScaleStep
  repeat' first
    | (with_reducible first
        | assumption | refine State.meanwhile_keeps ?_ ?_ | refine refuseOr_keeps ?_ ?_ | refine State.modSeg_keeps ?_
        | refine State.issueCmd_keeps ?_ | refine KeepsOut.next ?_ | intro _)
    | dsimp only | split
    | fail_if_no_progress with_reducible refine Keeps.of_mk ?_

theorem State.copyClaims_keeps {u : State} {s : State} {c : CoreIx} {ctx : Nat} {seq : Nat} {b : List Byte}
    (h_s : Keeps u s) : KeepsGot u (State.copyClaims s c ctx seq b) := by
  unfold State.copyClaims
  repeat' first
    | (with_reducible first
        | assumption | refine queueRoom_keeps ?_ | refine State.enqueue_keeps ?_ | refine foldl_keeps ?_ ?_
        | refine foldl_snd_keeps ?_ ?_ | refine ite_keeps ?_ ?_ | refine KeepsGot.ofOk ?_ | refine KeepsGot.ofWait ?_
        | refine KeepsGot.ofKill ?_ | intro _)
    | dsimp only | split
    | (with_reducible first
        | refine KeepsGot.ok (queueRoom_keeps ?_) (by with_reducible assumption)
        | refine KeepsGot.wait (queueRoom_keeps ?_) (by with_reducible assumption)
        | refine KeepsGot.kill (queueRoom_keeps ?_) (by with_reducible assumption))
    | fail_if_no_progress with_reducible refine Keeps.of_mk ?_

theorem issueCopy_keeps {u : State} {c : CoreIx} {form : List Byte → Bool} {more : State → List Byte → Option (Nat × Nat)}
    {ranges : State → List Byte → List (Nat × Nat × Bool)} {s : State}
    (h_s : Keeps u s) : KeepsOut u (issueCopy c form more ranges s) := by
  unfold issueCopy
  repeat' first
    | (with_reducible first
        | assumption | refine checked_keeps ?_ ?_ | refine Got.run_keeps ?_ ?_ | refine State.copyClaims_keeps ?_
        | refine State.toMover_keeps ?_ | refine iteGot_keeps ?_ ?_ | refine KeepsGot.ofOk ?_ | refine ite_keeps ?_ ?_
        | refine iteOut_keeps ?_ ?_ | refine KeepsOut.next ?_ | intro _)
    | dsimp only | split
    | (with_reducible first
        | refine KeepsGot.ok (State.copyClaims_keeps ?_) (by with_reducible assumption)
        | refine KeepsGot.wait (State.copyClaims_keeps ?_) (by with_reducible assumption)
        | refine KeepsGot.kill (State.copyClaims_keeps ?_) (by with_reducible assumption))
    | fail_if_no_progress with_reducible refine Keeps.of_mk ?_

theorem execCopy_keeps {u : State} {c : CoreIx} {s : State} (h_s : Keeps u s) : KeepsOut u (execCopy c s) := by
  unfold execCopy
  repeat' first
    | (with_reducible first
        | assumption | refine State.meanwhile_keeps ?_ ?_ | refine issueCopy_keeps ?_ | refine KeepsOut.next ?_ | intro _)
    | fail_if_no_progress with_reducible refine Keeps.of_mk ?_

theorem execCopyFill_keeps {u : State} {c : CoreIx} {s : State} (h_s : Keeps u s) : KeepsOut u (execCopyFill c s) := by
  unfold execCopyFill
  repeat' first
    | (with_reducible first
        | assumption | refine State.meanwhile_keeps ?_ ?_ | refine issueCopy_keeps ?_ | refine KeepsOut.next ?_ | intro _)
    | fail_if_no_progress with_reducible refine Keeps.of_mk ?_

theorem execCopyGather_keeps {u : State} {c : CoreIx} {s : State} (h_s : Keeps u s) : KeepsOut u (execCopyGather c s) := by
  unfold execCopyGather
  repeat' first
    | (with_reducible first
        | assumption | refine State.meanwhile_keeps ?_ ?_ | refine issueCopy_keeps ?_ | refine KeepsOut.next ?_ | intro _)
    | fail_if_no_progress with_reducible refine Keeps.of_mk ?_

theorem State.reread_keeps {u : State} {s : State} {c : CoreIx} {m : MovOp} {phase : Nat} {off : Nat} {len : Nat}
    {stamp : Option (List Byte)} {tries : Nat}
    (h_s : Keeps u s) : Keeps u (State.reread s c m phase off len stamp tries) := by
  unfold State.reread
  repeat' first
    | (with_reducible first
        | assumption | refine State.modSeg_keeps ?_ | refine State.needRemote_keeps ?_ | refine State.modCore_keeps ?_
        | refine ite_keeps ?_ ?_ | intro _)
    | dsimp only | split
    | fail_if_no_progress with_reducible refine Keeps.of_mk ?_

theorem State.gatherOut_keeps {u : State} {s : State} {c : CoreIx} {ctx : Nat} {i : Nat} {v : Nat} {bs : List Byte} {bad : List Nat}
    {fail : Bool}
    (h_s : Keeps u s) : Keeps u (State.gatherOut s c ctx i v bs bad fail) := by
  unfold State.gatherOut
  repeat' first
    | (with_reducible first
        | assumption | refine State.objStoreBad_keeps ?_ | refine foldl_keeps ?_ ?_ | refine foldl_snd_keeps ?_ ?_
        | refine ite_keeps ?_ ?_ | intro _)
    | dsimp only | split
    | fail_if_no_progress with_reducible refine Keeps.of_mk ?_

theorem State.gatherStep_keeps {u : State} {s : State} {c : CoreIx} {g : Seg} {m : MovOp}
    (h_s : Keeps u s) : Keeps u (State.gatherStep s c g m) := by
  unfold State.gatherStep
  repeat' first
    | (with_reducible first
        | assumption | refine State.descFault_keeps ?_ | refine State.raise_keeps ?_ | refine State.reread_keeps ?_
        | refine Got.run_keeps ?_ ?_ | refine claimRanges_keeps ?_ | refine State.gatherOut_keeps ?_ | refine State.modSeg_keeps ?_
        | refine State.moverDone_keeps ?_ | refine iteGot_keeps ?_ ?_ | refine KeepsGot.ofOk ?_ | refine ite_keeps ?_ ?_ | intro _)
    | dsimp only | split
    | (with_reducible first
        | refine KeepsGot.ok (claimRanges_keeps ?_) (by with_reducible assumption)
        | refine KeepsGot.wait (claimRanges_keeps ?_) (by with_reducible assumption)
        | refine KeepsGot.kill (claimRanges_keeps ?_) (by with_reducible assumption))
    | fail_if_no_progress with_reducible refine Keeps.of_mk ?_

theorem copyClaim_keeps {u : State} {s : State} {c : CoreIx} {ctx : Nat} {b : List Byte}
    (h_s : Keeps u s) : KeepsGot u (copyClaim s c ctx b) := by
  unfold copyClaim
  repeat' first
    | (with_reducible first
        | assumption | refine claimRanges_keeps ?_ | refine ite_keeps ?_ ?_ | refine KeepsGot.ofOk ?_ | refine KeepsGot.ofWait ?_
        | refine KeepsGot.ofKill ?_)
    | dsimp only | split
    | (with_reducible first
        | refine KeepsGot.ok (claimRanges_keeps ?_) (by with_reducible assumption)
        | refine KeepsGot.wait (claimRanges_keeps ?_) (by with_reducible assumption)
        | refine KeepsGot.kill (claimRanges_keeps ?_) (by with_reducible assumption))
    | fail_if_no_progress with_reducible refine Keeps.of_mk ?_

theorem State.queueData_keeps {u : State} {s : State} {c : CoreIx} {seq : Nat} {addr : Nat} {k : OutKind}
    (h_s : Keeps u s) : Keeps u (State.queueData s c seq addr k) := by
  unfold State.queueData
  repeat' first
    | (with_reducible first
        | assumption | refine State.modPart_keeps ?_ | refine ite_keeps ?_ ?_ | intro _)
    | dsimp only | split
    | fail_if_no_progress with_reducible refine Keeps.of_mk ?_

theorem State.copyOut_keeps {u : State} {s : State} {c : CoreIx} {ctx : Nat} {work : Nat} {b : List Byte} {bs : List Byte}
    {bad : List Nat}
    (h_s : Keeps u s) : Keeps u (State.copyOut s c ctx work b bs bad) := by
  unfold State.copyOut
  repeat' first
    | (with_reducible first
        | assumption | refine State.objStoreBad_keeps ?_ | refine State.writes_keeps ?_ | refine State.queueData_keeps ?_
        | refine State.freeWords_keeps ?_ | refine KeepsR.snd (State.freeWords_keeps ?_) | refine foldl_keeps ?_ ?_
        | refine foldl_snd_keeps ?_ ?_ | refine ite_keeps ?_ ?_ | intro _)
    | dsimp only | split
    | (with_reducible first
        | refine KeepsR.get (State.freeWords_keeps ?_) (by with_reducible assumption) | refine KeepsR.of ?_)
    | fail_if_no_progress with_reducible refine Keeps.of_mk ?_

theorem State.copyPoison_keeps {u : State} {s : State} {c : CoreIx} {ctx : Nat} {b : List Byte}
    (h_s : Keeps u s) : Keeps u (State.copyPoison s c ctx b) := by
  unfold State.copyPoison
  repeat' first
    | (with_reducible first
        | assumption | refine State.consume_keeps ?_ | refine State.raise_keeps ?_ | refine foldl_keeps ?_ ?_
        | refine foldl_snd_keeps ?_ ?_ | refine ite_keeps ?_ ?_ | intro _)
    | dsimp only | split
    | fail_if_no_progress with_reducible refine Keeps.of_mk ?_

theorem execCopyComplete_keeps {u : State} {c : CoreIx} {s : State} (h_s : Keeps u s) : KeepsOut u (execCopyComplete c s) := by
  unfold execCopyComplete
  repeat' first
    | (with_reducible first
        | assumption | refine State.meanwhile_keeps ?_ ?_ | refine State.gatherStep_keeps ?_ | refine Got.run_keeps ?_ ?_
        | refine copyClaim_keeps ?_ | refine State.moverDone_keeps ?_ | refine State.copyOut_keeps ?_
        | refine State.copyPoison_keeps ?_ | refine iteGot_keeps ?_ ?_ | refine KeepsGot.ofOk ?_ | refine ite_keeps ?_ ?_
        | refine iteOut_keeps ?_ ?_ | refine KeepsOut.next ?_ | intro _)
    | dsimp only | split
    | (with_reducible first
        | refine KeepsGot.ok (copyClaim_keeps ?_) (by with_reducible assumption)
        | refine KeepsGot.wait (copyClaim_keeps ?_) (by with_reducible assumption)
        | refine KeepsGot.kill (copyClaim_keeps ?_) (by with_reducible assumption))
    | fail_if_no_progress with_reducible refine Keeps.of_mk ?_

theorem execNotify_keeps {u : State} {c : CoreIx} {s : State} (h_s : Keeps u s) : KeepsOut u (execNotify c s) := by
  unfold execNotify
  repeat' first
    | (with_reducible first
        | assumption | refine State.meanwhile_keeps ?_ ?_ | refine refuseOr_keeps ?_ ?_ | refine Got.run_keeps ?_ ?_
        | refine queueRoom_keeps ?_ | refine State.issueCmd_keeps ?_ | refine State.enqueue_keeps ?_ | refine iteGot_keeps ?_ ?_
        | refine KeepsGot.ofOk ?_ | refine KeepsOut.next ?_ | intro _)
    | dsimp only | split
    | (with_reducible first
        | refine KeepsGot.ok (queueRoom_keeps ?_) (by with_reducible assumption)
        | refine KeepsGot.wait (queueRoom_keeps ?_) (by with_reducible assumption)
        | refine KeepsGot.kill (queueRoom_keeps ?_) (by with_reducible assumption))
    | fail_if_no_progress with_reducible refine Keeps.of_mk ?_

theorem semChecked_keeps {u : State} {s : State} {c : CoreIx} {ctx : Nat} {b : List Byte} {go : State → State}
    (h_s : Keeps u s) (h_go : ∀ tt, Keeps u tt → Keeps u (go tt)) : Keeps u (semChecked s c ctx b go) := by
  unfold semChecked
  repeat' first
    | (with_reducible first
        | assumption | refine checked_keeps ?_ ?_ | apply h_go | refine ite_keeps ?_ ?_ | intro _)
    | dsimp only | split
    | fail_if_no_progress with_reducible refine Keeps.of_mk ?_

theorem State.semBegin_keeps {u : State} {s : State} {c : CoreIx} {g : Seg} {b : List Byte}
    (h_s : Keeps u s) : Keeps u (State.semBegin s c g b) := by
  unfold State.semBegin
  repeat' first
    | (with_reducible first
        | assumption | refine State.issueCmd_keeps ?_ | refine State.modSeg_keeps ?_ | refine State.semTryGrant_keeps ?_
        | refine State.semLook_keeps ?_ | refine ite_keeps ?_ ?_ | intro _)
    | dsimp only | split
    | fail_if_no_progress with_reducible refine Keeps.of_mk ?_

theorem execSemWait_keeps {u : State} {c : CoreIx} {s : State} (h_s : Keeps u s) : KeepsOut u (execSemWait c s) := by
  unfold execSemWait
  repeat' first
    | (with_reducible first
        | assumption | refine State.meanwhile_keeps ?_ ?_ | refine semChecked_keeps ?_ ?_ | refine State.semBegin_keeps ?_
        | refine KeepsOut.next ?_ | intro _)
    | dsimp only | split
    | fail_if_no_progress with_reducible refine Keeps.of_mk ?_

theorem State.semEnd_keeps {u : State} {s : State} {c : CoreIx} {work : Nat} (h_s : Keeps u s) : Keeps u (State.semEnd s c work) := by
  unfold State.semEnd
  repeat' first
    | (with_reducible first
        | assumption | refine State.completeWork_keeps ?_ | refine State.modSeg_keeps ?_ | intro _)
    | fail_if_no_progress with_reducible refine Keeps.of_mk ?_

theorem execSemWaitComplete_keeps {u : State} {c : CoreIx} {s : State} (h_s : Keeps u s) : KeepsOut u (execSemWaitComplete c s) := by
  unfold execSemWaitComplete
  repeat' first
    | (with_reducible first
        | assumption | refine act_keeps ?_ ?_ | refine State.semEnd_keeps ?_ | refine KeepsOut.next ?_)
    | dsimp only | split
    | fail_if_no_progress with_reducible refine Keeps.of_mk ?_

theorem State.semRecord_keeps {u : State} {s : State} {c : CoreIx} {g : Seg} {b : List Byte} {delta : Option Nat}
    (h_s : Keeps u s) : Keeps u (State.semRecord s c g b delta) := by
  unfold State.semRecord
  repeat' first
    | (with_reducible first
        | assumption | refine State.issueCmd_keeps ?_ | refine State.modSeg_keeps ?_ | refine Got.run_keeps ?_ ?_
        | refine queueRoom_keeps ?_ | refine State.enqueue_keeps ?_ | refine iteGot_keeps ?_ ?_ | refine KeepsGot.ofOk ?_ | intro _)
    | dsimp only | split
    | (with_reducible first
        | refine KeepsGot.ok (queueRoom_keeps ?_) (by with_reducible assumption)
        | refine KeepsGot.wait (queueRoom_keeps ?_) (by with_reducible assumption)
        | refine KeepsGot.kill (queueRoom_keeps ?_) (by with_reducible assumption))
    | fail_if_no_progress with_reducible refine Keeps.of_mk ?_

theorem execSemAdd_keeps {u : State} {c : CoreIx} {s : State} (h_s : Keeps u s) : KeepsOut u (execSemAdd c s) := by
  unfold execSemAdd
  repeat' first
    | (with_reducible first
        | assumption | refine State.meanwhile_keeps ?_ ?_ | refine semChecked_keeps ?_ ?_ | refine State.semRecord_keeps ?_
        | refine KeepsOut.next ?_ | intro _)
    | dsimp only | split
    | fail_if_no_progress with_reducible refine Keeps.of_mk ?_

theorem execSemAcquire_keeps {u : State} {c : CoreIx} {s : State} (h_s : Keeps u s) : KeepsOut u (execSemAcquire c s) := by
  unfold execSemAcquire
  repeat' first
    | (with_reducible first
        | assumption | refine State.meanwhile_keeps ?_ ?_ | refine semChecked_keeps ?_ ?_ | refine State.semBegin_keeps ?_
        | refine KeepsOut.next ?_ | intro _)
    | dsimp only | split
    | fail_if_no_progress with_reducible refine Keeps.of_mk ?_

theorem execLeaseGrant_keeps {u : State} {c : CoreIx} {s : State} (h_s : Keeps u s) : KeepsOut u (execLeaseGrant c s) := by
  unfold execLeaseGrant
  repeat' first
    | (with_reducible first
        | assumption | refine semGrant_keeps ?_ | refine State.semGranted_keeps ?_ | refine State.semEnd_keeps ?_
        | refine ite_keeps ?_ ?_ | refine iteOut_keeps ?_ ?_ | refine KeepsOut.next ?_ | intro _)
    | dsimp only | split
    | with_reducible refine KeepsOptM.get (semGrant_keeps ?_) (by with_reducible assumption)
    | fail_if_no_progress with_reducible refine Keeps.of_mk ?_

theorem execLeaseExpiry_keeps {u : State} {x : BitVec 52} {s : State} (h_s : Keeps u s) : KeepsOut u (execLeaseExpiry x s) := by
  unfold execLeaseExpiry
  repeat' first
    | (with_reducible first
        | assumption | refine KeepsOut.next ?_)
    | fail_if_no_progress with_reducible refine Keeps.of_mk ?_

theorem execSemRelease_keeps {u : State} {c : CoreIx} {s : State} (h_s : Keeps u s) : KeepsOut u (execSemRelease c s) := by
  unfold execSemRelease
  repeat' first
    | (with_reducible first
        | assumption | refine State.meanwhile_keeps ?_ ?_ | refine semChecked_keeps ?_ ?_ | refine State.semRecord_keeps ?_
        | refine KeepsOut.next ?_ | intro _)
    | dsimp only | split
    | fail_if_no_progress with_reducible refine Keeps.of_mk ?_

theorem execFence_keeps {u : State} {c : CoreIx} {s : State} (h_s : Keeps u s) : KeepsOut u (execFence c s) := by
  unfold execFence
  repeat' first
    | (with_reducible first
        | assumption | refine State.meanwhile_keeps ?_ ?_ | refine refuseOr_keeps ?_ ?_ | refine State.issueCmd_keeps ?_
        | refine act_keeps ?_ ?_ | refine State.completeWork_keeps ?_ | refine id_keeps ?_ | refine KeepsOut.next ?_ | intro _)
    | dsimp only | split
    | fail_if_no_progress with_reducible refine Keeps.of_mk ?_

theorem execJump_keeps {u : State} {c : CoreIx} {s : State} (h_s : Keeps u s) : KeepsOut u (execJump c s) := by
  unfold execJump
  repeat' first
    | (with_reducible first
        | assumption | refine State.meanwhile_keeps ?_ ?_ | refine refuseOr_keeps ?_ ?_ | refine State.put_keeps ?_
        | refine State.issueCmd_keeps ?_ | refine KeepsOut.next ?_ | intro _)
    | dsimp only | split
    | fail_if_no_progress with_reducible refine Keeps.of_mk ?_

theorem execLift_keeps {u : State} {c : CoreIx} {s : State} (h_s : Keeps u s) : KeepsOut u (execLift c s) := by
  unfold execLift
  repeat' first
    | (with_reducible first
        | assumption | refine State.meanwhile_keeps ?_ ?_ | refine refuseOr_keeps ?_ ?_ | refine State.seqState_keeps ?_
        | refine State.modSeg_keeps ?_ | refine State.issueCmd_keeps ?_ | refine KeepsOut.next ?_ | intro _)
    | dsimp only | split
    | fail_if_no_progress with_reducible refine Keeps.of_mk ?_

end Sys2Proof.Machine
end

