-- ==== Sys2Proof/Laws/KeepsRows.lean ====
section
/-! SUPPORT. Laws/KeepsRows.lean: rows, lifts, the boundary, contexts and local memory keep what Laws/Keeps.lean names, operation by operation; a meaning execX by
execX_keeps. -/

set_option linter.unusedTactic false
set_option linter.unreachableTactic false

namespace Sys2Proof.Machine

/-! ### Machine/Row.lean -/

theorem State.deadline_keeps {u : State} {s : State} {c : CoreIx} {k : Nat} {row : Nat}
    (h_s : Keeps u s) : Keeps u (State.deadline s c k row) := by
  unfold State.deadline
  repeat' first
    | (with_reducible first
        | assumption | refine State.ctxBump_keeps ?_ | refine State.bump_keeps ?_ | refine State.event_keeps ?_
        | refine State.raise_keeps ?_)
    | fail_if_no_progress with_reducible refine Keeps.of_mk ?_

theorem State.overrun_keeps {u : State} {s : State} {c : CoreIx} {k : Nat} (h_s : Keeps u s) : Keeps u (State.overrun s c k) := by
  unfold State.overrun
  repeat' first
    | (with_reducible first
        | assumption | refine State.modSeg_keeps ?_ | refine State.ctxBump_keeps ?_ | refine State.bump_keeps ?_ | intro _)
    | fail_if_no_progress with_reducible refine Keeps.of_mk ?_

theorem State.boundaryLog_keeps {u : State} {s : State} {c : CoreIx} {g : Seg}
    (h_s : Keeps u s) : Keeps u (State.boundaryLog s c g) := by
  unfold State.boundaryLog
  repeat' first
    | (with_reducible first
        | assumption | refine State.deadline_keeps ?_ | refine State.overrun_keeps ?_ | refine ite_keeps ?_ ?_)
    | dsimp only | split
    | fail_if_no_progress with_reducible refine Keeps.of_mk ?_

theorem State.killAtRowEnd_keeps {u : State} {s : State} {c : CoreIx} {x : KillSt}
    (h_s : Keeps u s) : Keeps u (State.killAtRowEnd s c x) := by
  unfold State.killAtRowEnd
  repeat' first
    | (with_reducible first
        | assumption | refine State.boundaryLog_keeps ?_ | refine State.ctxSetBoundaryKills_keeps ?_ | refine State.raise_keeps ?_
        | refine State.haltCtx_keeps ?_ | refine State.killHealth_keeps ?_ | refine State.modCore_keeps ?_ | refine ite_keeps ?_ ?_
        | intro _)
    | dsimp only | split
    | fail_if_no_progress with_reducible refine Keeps.of_mk ?_

theorem State.killAlso_keeps {u : State} {s : State} {c : CoreIx} {cause : Nat}
    (h_s : Keeps u s) : Keeps u (State.killAlso s c cause) := by
  unfold State.killAlso
  repeat' first
    | (with_reducible first
        | assumption | refine State.killAtRowEnd_keeps ?_ | refine State.otherCause_keeps ?_ | refine State.killMore_keeps ?_
        | refine ite_keeps ?_ ?_)
    | dsimp only | split
    | fail_if_no_progress with_reducible refine Keeps.of_mk ?_

theorem State.showSeg_keeps {u : State} {s : State} {c : CoreIx} {k : Nat} (h_s : Keeps u s) : Keeps u (State.showSeg s c k) := by
  unfold State.showSeg
  repeat' first
    | (with_reducible first
        | assumption | refine State.put_keeps ?_)
    | fail_if_no_progress with_reducible refine Keeps.of_mk ?_

theorem State.takeCtx_keeps {u : State} {s0 : State} {c : CoreIx} {k : Nat} {r : Nat}
    (h_s0 : Keeps u s0) : Keeps u (State.takeCtx s0 c k r) := by
  unfold State.takeCtx
  repeat' first
    | (with_reducible first
        | assumption | refine State.meet_keeps ?_ | refine State.modCore_keeps ?_ | refine State.ctxSetState_keeps ?_
        | refine State.showSeg_keeps ?_ | intro _)
    | fail_if_no_progress with_reducible refine Keeps.of_mk ?_

theorem State.pick_keeps {u : State} {s : State} {c : CoreIx} (h_s : Keeps u s) : Keeps u (State.pick s c) := by
  unfold State.pick
  repeat' first
    | (with_reducible first
        | assumption | refine State.takeCtx_keeps ?_ | refine State.modCore_keeps ?_ | refine ite_keeps ?_ ?_ | intro _)
    | dsimp only | split
    | fail_if_no_progress with_reducible refine Keeps.of_mk ?_

theorem State.pickGroup_keeps {u : State} {s : State} {k : Nat} (h_s : Keeps u s) : Keeps u (State.pickGroup s k) := by
  unfold State.pickGroup
  repeat' first
    | (with_reducible first
        | assumption | refine forCores_keeps ?_ ?_ | refine State.pick_keeps ?_ | refine ite_keeps ?_ ?_ | intro _)
    | dsimp only | split
    | fail_if_no_progress with_reducible refine Keeps.of_mk ?_

theorem State.skipRow_keeps {u : State} {s : State} {c : CoreIx} {r : Nat} (h_s : Keeps u s) : Keeps u (State.skipRow s c r) := by
  unfold State.skipRow
  repeat' first
    | (with_reducible first
        | assumption | refine State.bump_keeps ?_ | refine State.modCore_keeps ?_ | intro _)
    | fail_if_no_progress with_reducible refine Keeps.of_mk ?_

theorem State.killOrAlso_keeps {u : State} {s : State} {c : CoreIx} {cause : Nat}
    (h_s : Keeps u s) : Keeps u (State.killOrAlso s c cause) := by
  unfold State.killOrAlso
  repeat' first
    | (with_reducible first
        | assumption | refine State.killSeg_keeps ?_ | refine State.killAlso_keeps ?_ | refine ite_keeps ?_ ?_)
    | dsimp only | split
    | fail_if_no_progress with_reducible refine Keeps.of_mk ?_

theorem State.beginRow_keeps {u : State} {s : State} {c : CoreIx} {r : Nat} (h_s : Keeps u s) : Keeps u (State.beginRow s c r) := by
  unfold State.beginRow
  repeat' first
    | (with_reducible first
        | assumption | refine State.modCore_keeps ?_ | intro _)
    | fail_if_no_progress with_reducible refine Keeps.of_mk ?_

/-! ### Machine/Lift.lean -/

theorem State.migEnd_keeps {u : State} {s : State} {n : PartIx} {i : Nat} {status : Nat} {moved : Nat}
    (h_s : Keeps u s) : Keeps u (State.migEnd s n i status moved) := by
  unfold State.migEnd
  repeat' first
    | (with_reducible first
        | assumption | refine State.wrLE_keeps ?_ | refine State.wrBits_keeps ?_ | refine State.bump_keeps ?_
        | refine State.modPart_keeps ?_ | intro _)
    | fail_if_no_progress with_reducible refine Keeps.of_mk ?_

theorem State.landSteps_keeps {u : State} {s : State} {c : CoreIx} (h_s : Keeps u s) : Keeps u (State.landSteps s c) := by
  unfold State.landSteps
  repeat' first
    | (with_reducible first
        | assumption | refine State.modSeg_keeps ?_ | refine State.scaleStep_keeps ?_ | refine foldl_keeps ?_ ?_
        | refine foldl_snd_keeps ?_ ?_ | intro _)
    | dsimp only | split
    | fail_if_no_progress with_reducible refine Keeps.of_mk ?_

theorem State.pauseWet_keeps {u : State} {s : State} {c : CoreIx} {g : Seg} (h_s : Keeps u s) : Keeps u (State.pauseWet s c g) := by
  unfold State.pauseWet
  repeat' first
    | (with_reducible first
        | assumption | refine State.stashWr_keeps ?_ | refine ite_keeps ?_ ?_)
    | dsimp only | split
    | fail_if_no_progress with_reducible refine Keeps.of_mk ?_

theorem State.mbClose_keeps {u : State} {s : State} {c : CoreIx} {g : Seg} (h_s : Keeps u s) : Keeps u (State.mbClose s c g) := by
  unfold State.mbClose
  repeat' first
    | (with_reducible first
        | assumption | refine State.stashDropPages_keeps ?_ | refine State.stashUncharge_keeps ?_ | refine State.stashWr_keeps ?_
        | refine foldl_keeps ?_ ?_ | refine foldl_snd_keeps ?_ ?_ | refine ite_keeps ?_ ?_ | intro _)
    | dsimp only | split
    | fail_if_no_progress with_reducible refine Keeps.of_mk ?_

theorem State.dryOverlay_keeps {u : State} {s : State} {c : CoreIx} {g : Seg} {flipped : List WetPage}
    (h_s : Keeps u s) : Keeps u (State.dryOverlay s c g flipped) := by
  unfold State.dryOverlay
  repeat' first
    | (with_reducible first
        | assumption | refine State.wrBytes_keeps ?_ | refine State.fenceNote_keeps ?_ | refine State.notePause_keeps ?_
        | refine State.chartStore_keeps ?_ | refine foldl_keeps ?_ ?_ | refine foldl_snd_keeps ?_ ?_ | refine ite_keeps ?_ ?_ | intro _)
    | dsimp only | split
    | fail_if_no_progress with_reducible refine Keeps.of_mk ?_

theorem State.migDone_keeps {u : State} {s : State} {n : PartIx} (h_s : Keeps u s) : Keeps u (State.migDone s n) := by
  unfold State.migDone
  repeat' first
    | (with_reducible first
        | assumption | refine State.migEnd_keeps ?_ | refine ite_keeps ?_ ?_)
    | dsimp only | split
    | fail_if_no_progress with_reducible refine Keeps.of_mk ?_

theorem State.modMig_keeps {u : State} {s : State} {n : PartIx} {f : Migration → Migration}
    (h_s : Keeps u s) : Keeps u (State.modMig s n f) := by
  unfold State.modMig
  repeat' first
    | (with_reducible first
        | assumption | refine State.modPart_keeps ?_ | intro _)
    | fail_if_no_progress with_reducible refine Keeps.of_mk ?_

theorem State.cancelMig_keeps {u : State} {s : State} {n : PartIx} {leaf : Nat}
    (h_s : Keeps u s) : Keeps u (State.cancelMig s n leaf) := by
  unfold State.cancelMig
  repeat' first
    | (with_reducible first
        | assumption | refine State.migDone_keeps ?_ | refine State.modMig_keeps ?_ | refine State.pushFrame_keeps ?_ | intro _)
    | dsimp only | split
    | fail_if_no_progress with_reducible refine Keeps.of_mk ?_

theorem State.freePage_keeps {u : State} {s : State} {n : PartIx} {ctx : Nat} {leaf : Nat}
    (h_s : Keeps u s) : Keeps u (State.freePage s n ctx leaf) := by
  unfold State.freePage
  repeat' first
    | (with_reducible first
        | assumption | refine State.cancelMig_keeps ?_ | refine State.setLeafBy_keeps ?_ | refine State.modPart_keeps ?_
        | refine ite_keeps ?_ ?_ | intro _)
    | dsimp only | split
    | fail_if_no_progress with_reducible refine Keeps.of_mk ?_

theorem State.gradCount_keeps {u : State} {s : State} {n : PartIx} {p : Nat × Nat}
    (h_s : Keeps u s) : Keeps u (State.gradCount s n p) := by
  unfold State.gradCount
  repeat' first
    | (with_reducible first
        | assumption | refine State.wrLE_keeps ?_)
    | fail_if_no_progress with_reducible refine Keeps.of_mk ?_

theorem State.emptyUpdate_keeps {u : State} {s : State} {n : PartIx} {i : Nat}
    (h_s : Keeps u s) : Keeps u (State.emptyUpdate s n i) := by
  unfold State.emptyUpdate
  repeat' first
    | (with_reducible first
        | assumption | refine State.wrBits_keeps ?_)
    | fail_if_no_progress with_reducible refine Keeps.of_mk ?_

theorem State.slotChange_keeps {u : State} {s : State} {c : CoreIx} {g : Seg} {d : Nat × Nat × Option Nat × Bool}
    (h_s : Keeps u s) : Keeps u (State.slotChange s c g d) := by
  unfold State.slotChange
  repeat' first
    | (with_reducible first
        | assumption | refine State.deferChange_keeps ?_ | refine State.commitGather_keeps ?_ | refine State.commitUpdate_keeps ?_
        | refine ite_keeps ?_ ?_)
    | dsimp only | split
    | fail_if_no_progress with_reducible refine Keeps.of_mk ?_

theorem State.keepLeases_keeps {u : State} {s : State} {g : Seg} (h_s : Keeps u s) : Keeps u (State.keepLeases s g) := by
  unfold State.keepLeases
  repeat' first
    | (with_reducible first
        | assumption | intro _)
    | fail_if_no_progress with_reducible refine Keeps.of_mk ?_

theorem State.flip_keeps {u : State} {s : State} {c : CoreIx} {g0 : Seg} {l : LiftSt}
    (h_s : Keeps u s) : Keeps u (State.flip s c g0 l) := by
  unfold State.flip
  repeat' first
    | (with_reducible first
        | assumption | refine State.pauseWet_keeps ?_ | refine State.mbClose_keeps ?_ | refine State.fillRest_keeps ?_
        | refine State.flipWet_keeps ?_ | refine State.setLeafBy_keeps ?_ | refine State.dryOverlay_keeps ?_
        | refine State.freePage_keeps ?_ | refine State.mergeCapture_keeps ?_ | refine State.gradCount_keeps ?_
        | refine State.emptyUpdate_keeps ?_ | refine State.slotChange_keeps ?_ | refine State.keepLeases_keeps ?_
        | refine State.modCore_keeps ?_ | refine State.put_keeps ?_ | refine State.modSeg_keeps ?_ | refine foldl_keeps ?_ ?_
        | refine foldl_snd_keeps ?_ ?_ | intro _)
    | fail_if_no_progress with_reducible refine Keeps.of_mk ?_

theorem State.landMerge_keeps {u : State} {s : State} {c : CoreIx} (h_s : Keeps u s) : Keeps u (State.landMerge s c) := by
  unfold State.landMerge
  repeat' first
    | (with_reducible first
        | assumption | refine State.flip_keeps ?_)
    | dsimp only | split
    | fail_if_no_progress with_reducible refine Keeps.of_mk ?_

theorem State.landFlips_keeps {u : State} {s : State} (h_s : Keeps u s) : Keeps u (State.landFlips s) := by
  unfold State.landFlips
  repeat' first
    | (with_reducible first
        | assumption | refine forCores_keeps ?_ ?_ | refine State.landSteps_keeps ?_ | refine State.landMerge_keeps ?_ | intro _)
    | fail_if_no_progress with_reducible refine Keeps.of_mk ?_

theorem execPenLift_keeps {u : State} {c : CoreIx} {s : State} (h_s : Keeps u s) : KeepsOut u (execPenLift c s) := by
  unfold execPenLift
  repeat' first
    | (with_reducible first
        | assumption | refine act_keeps ?_ ?_ | refine State.modSeg_keeps ?_ | refine KeepsOut.next ?_ | intro _)
    | dsimp only | split
    | fail_if_no_progress with_reducible refine Keeps.of_mk ?_

theorem State.leaseLost_keeps {u : State} {s : State} {c : CoreIx} {g : Seg} {o : SemOp}
    (h_s : Keeps u s) : Keeps u (State.leaseLost s c g o) := by
  unfold State.leaseLost
  repeat' first
    | (with_reducible first
        | assumption | refine State.event_keeps ?_ | refine State.bump_keeps ?_ | refine State.killSeg_keeps ?_
        | refine State.raise_keeps ?_)
    | fail_if_no_progress with_reducible refine Keeps.of_mk ?_

theorem execWetPageFlip_keeps {u : State} {c : CoreIx} {s : State} (h_s : Keeps u s) : KeepsOut u (execWetPageFlip c s) := by
  unfold execWetPageFlip
  repeat' first
    | (with_reducible first
        | assumption | refine State.meanwhile_keeps ?_ ?_ | refine State.semFenced_keeps ?_ | refine State.leaseLost_keeps ?_
        | refine act_keeps ?_ ?_ | refine State.modSeg_keeps ?_ | refine ite_keeps ?_ ?_ | refine iteOut_keeps ?_ ?_
        | refine KeepsOut.next ?_ | intro _)
    | dsimp only | split
    | fail_if_no_progress with_reducible refine Keeps.of_mk ?_

theorem State.semOp_keeps {u : State} {s : State} {c : CoreIx} {ctx : Nat} {o : SemOp}
    (h_s : Keeps u s) : Keeps u (State.semOp s c ctx o) := by
  unfold State.semOp
  repeat' first
    | (with_reducible first
        | assumption | refine State.fenceRecord_keeps ?_ | refine State.semAddTo_keeps ?_ | refine State.semFree_keeps ?_
        | refine ite_keeps ?_ ?_)
    | dsimp only | split
    | fail_if_no_progress with_reducible refine Keeps.of_mk ?_

theorem State.failDetached_keeps {u : State} {s : State} {n : PartIx} (h_s : Keeps u s) : Keeps u (State.failDetached s n) := by
  unfold State.failDetached
  repeat' first
    | (with_reducible first
        | assumption | refine State.queueFailFrl_keeps ?_ | refine foldl_keeps ?_ ?_ | refine foldl_snd_keeps ?_ ?_
        | refine ite_keeps ?_ ?_ | intro _)
    | dsimp only | split
    | fail_if_no_progress with_reducible refine Keeps.of_mk ?_

theorem State.releaseQueue_keeps {u : State} {s : State} {c : CoreIx} (h_s : Keeps u s) : Keeps u (State.releaseQueue s c) := by
  unfold State.releaseQueue
  repeat' first
    | (with_reducible first
        | assumption | refine State.modPart_keeps ?_ | intro _)
    | fail_if_no_progress with_reducible refine Keeps.of_mk ?_

theorem State.modelUse_keeps {u : State} {s : State} {k : Nat} (h_s : Keeps u s) : Keeps u (State.modelUse s k) := by
  unfold State.modelUse
  repeat' first
    | (with_reducible first
        | assumption | refine State.mdWr_keeps ?_ | refine upTo_keeps ?_ ?_ | refine ite_keeps ?_ ?_ | intro _)
    | dsimp only | split
    | fail_if_no_progress with_reducible refine Keeps.of_mk ?_

theorem State.countLift_keeps {u : State} {s : State} {c : CoreIx} {g : Seg} (h_s : Keeps u s) : Keeps u (State.countLift s c g) := by
  unfold State.countLift
  repeat' first
    | (with_reducible first
        | assumption | refine State.ctxWr_keeps ?_ | refine State.beat_keeps ?_ | refine State.bump_keeps ?_
        | refine State.ctxBump_keeps ?_ | refine State.modPart_keeps ?_ | refine State.modelUse_keeps ?_ | refine State.put_keeps ?_
        | refine State.ctxSetBoundaryKills_keeps ?_ | intro _)
    | fail_if_no_progress with_reducible refine Keeps.of_mk ?_

theorem State.leaveCore_keeps {u : State} {s : State} {c : CoreIx} {g : Seg} {l : LiftSt}
    (h_s : Keeps u s) : Keeps u (State.leaveCore s c g l) := by
  unfold State.leaveCore
  repeat' first
    | (with_reducible first
        | assumption | refine State.modCore_keeps ?_ | refine State.seqState_keeps ?_ | refine State.haltCtx_keeps ?_
        | refine State.pickGroup_keeps ?_ | refine State.ctxSetState_keeps ?_ | refine ite_keeps ?_ ?_ | intro _)
    | dsimp only | split
    | fail_if_no_progress with_reducible refine Keeps.of_mk ?_

theorem execPenLiftComplete_keeps {u : State} {c : CoreIx} {s : State} (h_s : Keeps u s) : KeepsOut u (execPenLiftComplete c s) := by
  unfold execPenLiftComplete
  repeat' first
    | (with_reducible first
        | assumption | refine State.semOp_keeps ?_ | refine State.failDetached_keeps ?_ | refine State.releaseQueue_keeps ?_
        | refine State.countLift_keeps ?_ | refine State.put_keeps ?_ | refine State.modCore_keeps ?_ | refine State.showSeg_keeps ?_
        | refine State.pick_keeps ?_ | refine State.leaveCore_keeps ?_ | refine foldl_keeps ?_ ?_ | refine foldl_snd_keeps ?_ ?_
        | refine ite_keeps ?_ ?_ | refine iteOut_keeps ?_ ?_ | refine KeepsOut.next ?_ | intro _)
    | dsimp only | split
    | fail_if_no_progress with_reducible refine Keeps.of_mk ?_

theorem execWetConflictEnd_keeps {u : State} {c : CoreIx} {s : State} (h_s : Keeps u s) : KeepsOut u (execWetConflictEnd c s) := by
  unfold execWetConflictEnd
  repeat' first
    | (with_reducible first
        | assumption | refine State.modCore_keeps ?_ | refine State.seqState_keeps ?_ | refine State.modSeg_keeps ?_
        | refine State.pickGroup_keeps ?_ | refine foldl_keeps ?_ ?_ | refine foldl_snd_keeps ?_ ?_ | refine ite_keeps ?_ ?_
        | refine iteOut_keeps ?_ ?_ | refine KeepsOut.next ?_ | intro _)
    | dsimp only | split
    | fail_if_no_progress with_reducible refine Keeps.of_mk ?_

theorem execInkHoldEnd_keeps {u : State} {c : CoreIx} {s : State} (h_s : Keeps u s) : KeepsOut u (execInkHoldEnd c s) := by
  unfold execInkHoldEnd
  repeat' first
    | (with_reducible first
        | assumption | refine State.modSeg_keeps ?_ | refine KeepsOut.next ?_ | intro _)
    | fail_if_no_progress with_reducible refine Keeps.of_mk ?_

theorem execSequencerReady_keeps {u : State} {c : CoreIx} {s : State} (h_s : Keeps u s) : KeepsOut u (execSequencerReady c s) := by
  unfold execSequencerReady
  repeat' first
    | (with_reducible first
        | assumption | refine act_keeps ?_ ?_ | refine State.pick_keeps ?_ | refine State.seqState_keeps ?_ | refine KeepsOut.next ?_)
    | fail_if_no_progress with_reducible refine Keeps.of_mk ?_

theorem execDryPageReturn_keeps {u : State} {n : PartIx} {s : State} (h_s : Keeps u s) : KeepsOut u (execDryPageReturn n s) := by
  unfold execDryPageReturn
  repeat' first
    | (with_reducible first
        | assumption | refine State.pushPool_keeps ?_ | refine State.modPart_keeps ?_ | refine State.pushFrame_keeps ?_
        | refine KeepsOut.next ?_ | intro _)
    | dsimp only | split
    | fail_if_no_progress with_reducible refine Keeps.of_mk ?_

/-! ### Machine/Stroke.lean -/

theorem State.queueSweeps_keeps {u : State} {s : State} {n : PartIx} (h_s : Keeps u s) : Keeps u (State.queueSweeps s n) := by
  unfold State.queueSweeps
  repeat' first
    | (with_reducible first
        | assumption | intro _)
    | fail_if_no_progress with_reducible refine Keeps.of_mk ?_

theorem State.streamBoundary_keeps {u : State} {s : State} {n : PartIx} {b : Nat}
    (h_s : Keeps u s) : Keeps u (State.streamBoundary s n b) := by
  unfold State.streamBoundary
  repeat' first
    | (with_reducible first
        | assumption | refine State.wrLE_keeps ?_ | refine foldl_keeps ?_ ?_ | refine foldl_snd_keeps ?_ ?_ | refine ite_keeps ?_ ?_
        | intro _)
    | dsimp only | split
    | fail_if_no_progress with_reducible refine Keeps.of_mk ?_

theorem State.skipLate_keeps {u : State} {s : State} {c : CoreIx} (h_s : Keeps u s) : Keeps u (State.skipLate s c) := by
  unfold State.skipLate
  repeat' first
    | (with_reducible first
        | assumption | refine State.skipRow_keeps ?_ | refine foldl_keeps ?_ ?_ | refine foldl_snd_keeps ?_ ?_ | intro _)
    | fail_if_no_progress with_reducible refine Keeps.of_mk ?_

theorem State.clearRows_keeps {u : State} {s : State} {c : CoreIx} (h_s : Keeps u s) : Keeps u (State.clearRows s c) := by
  unfold State.clearRows
  repeat' first
    | (with_reducible first
        | assumption | refine State.modCore_keeps ?_ | refine State.skipLate_keeps ?_ | intro _)
    | fail_if_no_progress with_reducible refine Keeps.of_mk ?_

theorem State.endSegments_keeps {u : State} {s : State} {n : PartIx} (h_s : Keeps u s) : Keeps u (State.endSegments s n) := by
  unfold State.endSegments
  repeat' first
    | (with_reducible first
        | assumption | refine forCores_keeps ?_ ?_ | refine State.killSeg_keeps ?_ | refine State.boundaryLog_keeps ?_
        | refine State.killAlso_keeps ?_ | refine State.beat_keeps ?_ | refine ite_keeps ?_ ?_ | intro _)
    | dsimp only | split
    | fail_if_no_progress with_reducible refine Keeps.of_mk ?_

theorem State.takePool_keeps {u : State} {s : State} {n : PartIx} {t : Nat} (h_s : Keeps u s) : Keeps u (State.takePool s n t) := by
  unfold State.takePool
  repeat' first
    | (with_reducible first
        | assumption | refine State.showPools_keeps ?_ | refine State.showFree_keeps ?_ | refine State.modPart_keeps ?_
        | refine ite_keeps ?_ ?_ | intro _)
    | dsimp only | split
    | fail_if_no_progress with_reducible refine Keeps.of_mk ?_

theorem State.takeOutq_keeps {u : State} {s : State} {n : PartIx} (h_s : Keeps u s) : Keeps u (State.takeOutq s n) := by
  unfold State.takeOutq
  repeat' first
    | (with_reducible first
        | assumption | refine State.showOutq_keeps ?_ | refine State.modPart_keeps ?_ | intro _)
    | fail_if_no_progress with_reducible refine Keeps.of_mk ?_

theorem State.shPart_keeps {u : State} {s : State} {old : State} {keys : List Nat} {n : PartIx}
    (h_s : Keeps u s) (h_old : Keeps u old) : Keeps u (State.shPart s old keys n) := by
  unfold State.shPart
  repeat' first
    | (with_reducible first
        | assumption | refine State.takePool_keeps ?_ | refine State.takeOutq_keeps ?_ | refine State.put_keeps ?_
        | refine State.showPools_keeps ?_ | refine foldl_keeps ?_ ?_ | refine foldl_snd_keeps ?_ ?_ | refine ite_keeps ?_ ?_ | intro _)
    | dsimp only | split
    | fail_if_no_progress with_reducible refine Keeps.of_mk ?_

theorem State.bringForce_keeps {u : State} {s : State} {n : PartIx} {own : Bool} {shell : Bool}
    (h_s : Keeps u s) : Keeps u (State.bringForce s n own shell) := by
  unfold State.bringForce
  repeat' first
    | (with_reducible first
        | assumption | refine State.shPart_keeps ?_ ?_ | refine State.applySh_keeps ?_ | refine State.put_keeps ?_
        | refine ite_keeps ?_ ?_ | intro _)
    | dsimp only | split
    | fail_if_no_progress with_reducible refine Keeps.of_mk ?_

theorem State.unpause_keeps {u : State} {s : State} {c : CoreIx} {k : Nat} (h_s : Keeps u s) : Keeps u (State.unpause s c k) := by
  unfold State.unpause
  repeat' first
    | (with_reducible first
        | assumption | refine State.modPart_keeps ?_ | refine State.stashNow_keeps ?_ | refine ite_keeps ?_ ?_ | intro _)
    | dsimp only | split
    | fail_if_no_progress with_reducible refine Keeps.of_mk ?_

theorem execStrokeBoundary_keeps {u : State} {n : PartIx} {s : State} (h_s : Keeps u s) : KeepsOut u (execStrokeBoundary n s) := by
  unfold execStrokeBoundary
  repeat' first
    | (with_reducible first
        | assumption | refine State.queueSweeps_keeps ?_ | refine State.streamBoundary_keeps ?_ | refine State.bump_keeps ?_
        | refine forCores_keeps ?_ ?_ | refine State.clearRows_keeps ?_ | refine State.endSegments_keeps ?_
        | refine State.bringForce_keeps ?_ | refine State.put_keeps ?_ | refine State.unpause_keeps ?_ | refine State.modPart_keeps ?_
        | refine upTo_keeps ?_ ?_ | refine ite_keeps ?_ ?_ | refine iteOut_keeps ?_ ?_ | refine KeepsOut.next ?_ | intro _)
    | dsimp only | split
    | fail_if_no_progress with_reducible refine Keeps.of_mk ?_

theorem State.afterBoundary_keeps {u : State} {s : State} {n : PartIx} (h_s : Keeps u s) : Keeps u (State.afterBoundary s n) := by
  unfold State.afterBoundary
  repeat' first
    | (with_reducible first
        | assumption | refine after_keeps ?_ ?_ | refine execStrokeBoundary_keeps ?_)
    | fail_if_no_progress with_reducible refine Keeps.of_mk ?_

theorem State.putFree_keeps {u : State} {s : State} {f : Field} (h_s : Keeps u s) : Keeps u (State.putFree s f) := by
  unfold State.putFree
  repeat' first
    | (with_reducible first
        | assumption | refine State.draw_keeps ?_ | refine State.put_keeps ?_ | refine KeepsR.snd (State.draw_keeps ?_))
    | dsimp only | split
    | (with_reducible first
        | refine KeepsR.get (State.draw_keeps ?_) (by with_reducible assumption) | refine KeepsR.of ?_)
    | fail_if_no_progress with_reducible refine Keeps.of_mk ?_

theorem State.loseCore_keeps {u : State} {s : State} {c : CoreIx} (h_s : Keeps u s) : Keeps u (State.loseCore s c) := by
  unfold State.loseCore
  repeat' first
    | (with_reducible first
        | assumption | refine State.modCore_keeps ?_ | refine State.putFree_keeps ?_ | refine State.seqState_keeps ?_
        | refine foldl_keeps ?_ ?_ | refine foldl_snd_keeps ?_ ?_ | intro _)
    | fail_if_no_progress with_reducible refine Keeps.of_mk ?_

theorem State.beginTrans_keeps {u : State} {s : State} {n : PartIx} {target : Nat} {due : Nat}
    (h_s : Keeps u s) : Keeps u (State.beginTrans s n target due) := by
  unfold State.beginTrans
  repeat' first
    | (with_reducible first
        | assumption | refine State.put_keeps ?_ | refine State.modPart_keeps ?_ | intro _)
    | fail_if_no_progress with_reducible refine Keeps.of_mk ?_

theorem State.writeTarget_keeps {u : State} {s : State} {n : PartIx} {v : Nat}
    (h_s : Keeps u s) : Keeps u (State.writeTarget s n v) := by
  unfold State.writeTarget
  repeat' first
    | (with_reducible first
        | assumption | refine State.flag_keeps ?_ | refine State.modPart_keeps ?_ | refine State.put_keeps ?_
        | refine State.beginTrans_keeps ?_ | refine ite_keeps ?_ ?_ | intro _)
    | dsimp only | split
    | fail_if_no_progress with_reducible refine Keeps.of_mk ?_

theorem execTargetClockStop_keeps {u : State} {n : PartIx} {s : State} (h_s : Keeps u s) : KeepsOut u (execTargetClockStop n s) := by
  unfold execTargetClockStop
  repeat' first
    | (with_reducible first
        | assumption | refine act_keeps ?_ ?_ | refine State.writeTarget_keeps ?_ | refine State.afterBoundary_keeps ?_
        | refine KeepsOut.next ?_)
    | fail_if_no_progress with_reducible refine Keeps.of_mk ?_

theorem State.loadRows_keeps {u : State} {s0 : State} {n : PartIx} {j : Nat}
    (h_s0 : Keeps u s0) : Keeps u (State.loadRows s0 n j) := by
  unfold State.loadRows
  repeat' first
    | (with_reducible first
        | assumption | refine State.meet_keeps ?_ | refine State.modPart_keeps ?_ | intro _)
    | fail_if_no_progress with_reducible refine Keeps.of_mk ?_

theorem State.loadStep_keeps {u : State} {s : State} {n : PartIx} (h_s : Keeps u s) : Keeps u (State.loadStep s n) := by
  unfold State.loadStep
  repeat' first
    | (with_reducible first
        | assumption | refine State.loadRows_keeps ?_ | refine ite_keeps ?_ ?_)
    | dsimp only | split
    | fail_if_no_progress with_reducible refine Keeps.of_mk ?_

theorem State.startTimer_keeps {u : State} {s : State} {n : PartIx} {first : Nat}
    (h_s : Keeps u s) : Keeps u (State.startTimer s n first) := by
  unfold State.startTimer
  repeat' first
    | (with_reducible first
        | assumption | refine State.put_keeps ?_ | refine State.flag_keeps ?_ | refine ite_keeps ?_ ?_)
    | dsimp only | split
    | fail_if_no_progress with_reducible refine Keeps.of_mk ?_

theorem execStkCtrlRun_keeps {u : State} {n : PartIx} {v : Bool} {s0 : State}
    (h_s0 : Keeps u s0) : KeepsOut u (execStkCtrlRun n v s0) := by
  unfold execStkCtrlRun
  repeat' first
    | (with_reducible first
        | assumption | refine State.afterBoundary_keeps ?_ | refine act_keeps ?_ ?_ | refine State.putB_keeps ?_
        | refine State.modPart_keeps ?_ | refine State.put_keeps ?_ | refine State.startTimer_keeps ?_ | refine ite_keeps ?_ ?_
        | refine iteOut_keeps ?_ ?_ | refine KeepsOut.next ?_ | intro _)
    | dsimp only | split
    | fail_if_no_progress with_reducible refine Keeps.of_mk ?_

theorem execStkStartWrite_keeps {u : State} {n : PartIx} {v : Word} {s0 : State}
    (h_s0 : Keeps u s0) : KeepsOut u (execStkStartWrite n v s0) := by
  unfold execStkStartWrite
  repeat' first
    | (with_reducible first
        | assumption | refine State.afterBoundary_keeps ?_ | refine act_keeps ?_ ?_ | refine State.flag_keeps ?_
        | refine State.put_keeps ?_ | refine ite_keeps ?_ ?_ | refine iteOut_keeps ?_ ?_ | refine KeepsOut.next ?_)
    | dsimp only | split
    | fail_if_no_progress with_reducible refine Keeps.of_mk ?_

theorem execSeqCtrlKill_keeps {u : State} {c : CoreIx} {s : State} (h_s : Keeps u s) : KeepsOut u (execSeqCtrlKill c s) := by
  unfold execSeqCtrlKill
  repeat' first
    | (with_reducible first
        | assumption | refine act_keeps ?_ ?_ | refine State.killOrAlso_keeps ?_ | refine State.afterBoundary_keeps ?_
        | refine KeepsOut.next ?_)
    | fail_if_no_progress with_reducible refine Keeps.of_mk ?_

theorem State.judgeRows_keeps {u : State} {s : State} {n : PartIx} (h_s : Keeps u s) : Keeps u (State.judgeRows s n) := by
  unfold State.judgeRows
  repeat' first
    | (with_reducible first
        | assumption | refine State.modPart_keeps ?_ | refine State.flag_keeps ?_ | refine State.put_keeps ?_ | refine ite_keeps ?_ ?_
        | intro _)
    | dsimp only | split
    | fail_if_no_progress with_reducible refine Keeps.of_mk ?_

theorem execBoundaryWindowEnd_keeps {u : State} {n : PartIx} {s : State}
    (h_s : Keeps u s) : KeepsOut u (execBoundaryWindowEnd n s) := by
  unfold execBoundaryWindowEnd
  repeat' first
    | (with_reducible first
        | assumption | refine State.modPart_keeps ?_ | refine State.judgeRows_keeps ?_ | refine State.startTimer_keeps ?_
        | refine State.put_keeps ?_ | refine ite_keeps ?_ ?_ | refine iteOut_keeps ?_ ?_ | refine KeepsOut.next ?_ | intro _)
    | dsimp only | split
    | fail_if_no_progress with_reducible refine Keeps.of_mk ?_

theorem execTargetActive_keeps {u : State} {n : PartIx} {s : State} (h_s : Keeps u s) : KeepsOut u (execTargetActive n s) := by
  unfold execTargetActive
  repeat' first
    | (with_reducible first
        | assumption | refine act_keeps ?_ ?_ | refine State.writeTarget_keeps ?_ | refine State.afterBoundary_keeps ?_
        | refine KeepsOut.next ?_)
    | fail_if_no_progress with_reducible refine Keeps.of_mk ?_

theorem execTargetPowerOff_keeps {u : State} {n : PartIx} {s : State} (h_s : Keeps u s) : KeepsOut u (execTargetPowerOff n s) := by
  unfold execTargetPowerOff
  repeat' first
    | (with_reducible first
        | assumption | refine act_keeps ?_ ?_ | refine State.writeTarget_keeps ?_ | refine State.afterBoundary_keeps ?_
        | refine KeepsOut.next ?_)
    | fail_if_no_progress with_reducible refine Keeps.of_mk ?_

theorem execTargetInvalid_keeps {u : State} {n : PartIx} {v : BitVec 2} {s : State}
    (h_s : Keeps u s) : KeepsOut u (execTargetInvalid n v s) := by
  unfold execTargetInvalid
  repeat' first
    | (with_reducible first
        | assumption | refine act_keeps ?_ ?_ | refine State.writeTarget_keeps ?_ | refine State.afterBoundary_keeps ?_
        | refine KeepsOut.next ?_)
    | fail_if_no_progress with_reducible refine Keeps.of_mk ?_

theorem State.reachPower_keeps {u : State} {s : State} {n : PartIx} {t : PowTrans}
    (h_s : Keeps u s) : Keeps u (State.reachPower s n t) := by
  unfold State.reachPower
  repeat' first
    | (with_reducible first
        | assumption | refine State.bump_keeps ?_ | refine State.put_keeps ?_ | refine State.modPart_keeps ?_
        | refine forCores_keeps ?_ ?_ | refine State.loseCore_keeps ?_ | refine ite_keeps ?_ ?_ | intro _)
    | dsimp only | split
    | fail_if_no_progress with_reducible refine Keeps.of_mk ?_

/-! ### Machine/Contexts.lean -/

theorem State.noteAct_keeps {u : State} {s : State} {k : Nat} {x2 : Nat} (h_s : Keeps u s) : Keeps u (State.noteAct s k x2) := by
  unfold State.noteAct
  repeat' first
    | (with_reducible first
        | assumption | intro _)
    | dsimp only | split
    | fail_if_no_progress with_reducible refine Keeps.of_mk ?_

theorem State.makeReady_keeps {u : State} {s : State} {k : Nat} (h_s : Keeps u s) : Keeps u (State.makeReady s k) := by
  unfold State.makeReady
  repeat' first
    | (with_reducible first
        | assumption | refine State.pickGroup_keeps ?_ | refine State.ctxSetState_keeps ?_)
    | fail_if_no_progress with_reducible refine Keeps.of_mk ?_

theorem State.nextState_keeps {u : State} {s : State} {k : Nat} {x2 : Nat} {cause : Nat}
    (h_s : Keeps u s) : Keeps u (State.nextState s k x2 cause) := by
  unfold State.nextState
  repeat' first
    | (with_reducible first
        | assumption | refine State.haltCtx_keeps ?_ | refine State.makeReady_keeps ?_ | refine State.ctxSetState_keeps ?_
        | refine ite_keeps ?_ ?_)
    | dsimp only | split
    | fail_if_no_progress with_reducible refine Keeps.of_mk ?_

theorem State.outdo_keeps {u : State} {s : State} {k : Nat} {x2 : Nat} {cause : Nat}
    (h_s : Keeps u s) : Keeps u (State.outdo s k x2 cause) := by
  unfold State.outdo
  repeat' first
    | (with_reducible first
        | assumption | refine State.nextState_keeps ?_ | refine ite_keeps ?_ ?_)
    | dsimp only | split
    | fail_if_no_progress with_reducible refine Keeps.of_mk ?_

theorem State.actOnKilled_keeps {u : State} {s : State} {c : CoreIx} {k : Nat} {x3 : Nat}
    (h_s : Keeps u s) : Keeps u (State.actOnKilled s c k x3) := by
  unfold State.actOnKilled
  repeat' first
    | (with_reducible first
        | assumption | refine State.killAlso_keeps ?_ | refine State.outdo_keeps ?_ | refine ite_keeps ?_ ?_)
    | dsimp only | split
    | fail_if_no_progress with_reducible refine Keeps.of_mk ?_

theorem State.cmdErr_keeps {u : State} {s : State} {k : Nat} (h_s : Keeps u s) : Keeps u (State.cmdErr s k) := by
  unfold State.cmdErr
  repeat' first
    | (with_reducible first
        | assumption | refine State.flag_keeps ?_)
    | fail_if_no_progress with_reducible refine Keeps.of_mk ?_

theorem State.actOnRunning_keeps {u : State} {s : State} {k : Nat} {x2 : Nat}
    (h_s : Keeps u s) : Keeps u (State.actOnRunning s k x2) := by
  unfold State.actOnRunning
  repeat' first
    | (with_reducible first
        | assumption | refine State.killWith_keeps ?_ | refine State.pickGroup_keeps ?_ | refine State.modSeg_keeps ?_
        | refine State.nextState_keeps ?_ | refine ite_keeps ?_ ?_ | intro _)
    | dsimp only | split
    | fail_if_no_progress with_reducible refine Keeps.of_mk ?_

theorem State.actOn_keeps {u : State} {s : State} {k : Nat} {x2 : Nat} (h_s : Keeps u s) : Keeps u (State.actOn s k x2) := by
  unfold State.actOn
  repeat' first
    | (with_reducible first
        | assumption | refine State.cmdErr_keeps ?_ | refine State.makeReady_keeps ?_ | refine State.ctxSetBoundaryKills_keeps ?_
        | refine State.actOnRunning_keeps ?_ | refine State.nextState_keeps ?_ | refine ite_keeps ?_ ?_)
    | dsimp only | split
    | fail_if_no_progress with_reducible refine Keeps.of_mk ?_

theorem State.action_keeps {u : State} {s : State} {k : Nat} {x2 : Nat} (h_s : Keeps u s) : Keeps u (State.action s k x2) := by
  unfold State.action
  repeat' first
    | (with_reducible first
        | assumption | refine State.ctxWr_keeps ?_ | refine State.noteAct_keeps ?_ | refine State.actOnKilled_keeps ?_
        | refine State.outdo_keeps ?_ | refine State.actOn_keeps ?_ | refine ite_keeps ?_ ?_)
    | dsimp only | split
    | fail_if_no_progress with_reducible refine Keeps.of_mk ?_

theorem State.command_keeps {u : State} {s : State} {k : CtxIx} {x2 : Nat} (h_s : Keeps u s) : KeepsOut u (State.command s k x2) := by
  unfold State.command
  repeat' first
    | (with_reducible first
        | assumption | refine act_keeps ?_ ?_ | refine State.action_keeps ?_ | refine State.afterBoundary_keeps ?_
        | refine KeepsOut.next ?_)
    | fail_if_no_progress with_reducible refine Keeps.of_mk ?_

theorem execEnable_keeps {u : State} {k : CtxIx} {s : State} (h_s : Keeps u s) : KeepsOut u (execEnable k s) := by
  unfold execEnable
  repeat' first
    | (with_reducible first
        | assumption | refine State.command_keeps ?_ | refine KeepsOut.next ?_)
    | fail_if_no_progress with_reducible refine Keeps.of_mk ?_

theorem State.applyProfile_keeps {u : State} {s : State} {n : PartIx} {i : Nat}
    (h_s : Keeps u s) : Keeps u (State.applyProfile s n i) := by
  unfold State.applyProfile
  repeat' first
    | (with_reducible first
        | assumption | refine State.modPart_keeps ?_ | refine State.put_keeps ?_ | refine State.flag_keeps ?_ | refine ite_keeps ?_ ?_
        | intro _)
    | dsimp only | split
    | fail_if_no_progress with_reducible refine Keeps.of_mk ?_

theorem execProfileApply_keeps {u : State} {n : PartIx} {index : Fin 16} {s : State}
    (h_s : Keeps u s) : KeepsOut u (execProfileApply n index s) := by
  unfold execProfileApply
  repeat' first
    | (with_reducible first
        | assumption | refine act_keeps ?_ ?_ | refine State.applyProfile_keeps ?_ | refine State.put_keeps ?_
        | refine State.afterBoundary_keeps ?_ | refine KeepsOut.next ?_)
    | fail_if_no_progress with_reducible refine Keeps.of_mk ?_

theorem execHardRowEnd_keeps {u : State} {c : CoreIx} {row : Fin 1024} {s : State}
    (h_s : Keeps u s) : KeepsOut u (execHardRowEnd c row s) := by
  unfold execHardRowEnd
  repeat' first
    | (with_reducible first
        | assumption | refine State.modCore_keeps ?_ | refine State.killSeg_keeps ?_ | refine State.boundaryLog_keeps ?_
        | refine State.killAlso_keeps ?_ | refine ite_keeps ?_ ?_ | refine iteOut_keeps ?_ ?_ | refine KeepsOut.next ?_ | intro _)
    | dsimp only | split
    | fail_if_no_progress with_reducible refine Keeps.of_mk ?_

theorem execDisable_keeps {u : State} {k : CtxIx} {s : State} (h_s : Keeps u s) : KeepsOut u (execDisable k s) := by
  unfold execDisable
  repeat' first
    | (with_reducible first
        | assumption | refine State.command_keeps ?_ | refine KeepsOut.next ?_)
    | fail_if_no_progress with_reducible refine Keeps.of_mk ?_

theorem execPreempt_keeps {u : State} {k : CtxIx} {s : State} (h_s : Keeps u s) : KeepsOut u (execPreempt k s) := by
  unfold execPreempt
  repeat' first
    | (with_reducible first
        | assumption | refine State.command_keeps ?_ | refine KeepsOut.next ?_)
    | fail_if_no_progress with_reducible refine Keeps.of_mk ?_

theorem execPreemptHold_keeps {u : State} {k : CtxIx} {s : State} (h_s : Keeps u s) : KeepsOut u (execPreemptHold k s) := by
  unfold execPreemptHold
  repeat' first
    | (with_reducible first
        | assumption | refine State.command_keeps ?_ | refine KeepsOut.next ?_)
    | fail_if_no_progress with_reducible refine Keeps.of_mk ?_

theorem execResume_keeps {u : State} {k : CtxIx} {s : State} (h_s : Keeps u s) : KeepsOut u (execResume k s) := by
  unfold execResume
  repeat' first
    | (with_reducible first
        | assumption | refine State.command_keeps ?_ | refine KeepsOut.next ?_)
    | fail_if_no_progress with_reducible refine Keeps.of_mk ?_

theorem execHalt_keeps {u : State} {k : CtxIx} {s : State} (h_s : Keeps u s) : KeepsOut u (execHalt k s) := by
  unfold execHalt
  repeat' first
    | (with_reducible first
        | assumption | refine State.command_keeps ?_ | refine KeepsOut.next ?_)
    | fail_if_no_progress with_reducible refine Keeps.of_mk ?_

theorem execClearEvents_keeps {u : State} {k : CtxIx} {s : State} (h_s : Keeps u s) : KeepsOut u (execClearEvents k s) := by
  unfold execClearEvents
  repeat' first
    | (with_reducible first
        | assumption | refine State.command_keeps ?_ | refine KeepsOut.next ?_)
    | fail_if_no_progress with_reducible refine Keeps.of_mk ?_

theorem State.clearFor_keeps {u : State} {s : State} {c : CoreIx} {r : Nat} (h_s : Keeps u s) : Keeps u (State.clearFor s c r) := by
  unfold State.clearFor
  repeat' first
    | (with_reducible first
        | assumption | refine State.modCore_keeps ?_ | refine State.skipRow_keeps ?_ | refine foldl_keeps ?_ ?_
        | refine foldl_snd_keeps ?_ ?_ | intro _)
    | fail_if_no_progress with_reducible refine Keeps.of_mk ?_

theorem execHardRowStart_keeps {u : State} {n : PartIx} {row : Fin 1024} {s : State}
    (h_s : Keeps u s) : KeepsOut u (execHardRowStart n row s) := by
  unfold execHardRowStart
  repeat' first
    | (with_reducible first
        | assumption | refine forCores_keeps ?_ ?_ | refine State.pick_keeps ?_ | refine State.beginRow_keeps ?_
        | refine State.clearFor_keeps ?_ | refine ite_keeps ?_ ?_ | refine iteOut_keeps ?_ ?_ | refine KeepsOut.next ?_ | intro _)
    | dsimp only | split
    | fail_if_no_progress with_reducible refine Keeps.of_mk ?_

theorem execElasticRowStart_keeps {u : State} {c : CoreIx} {row : Fin 1024} {s : State}
    (h_s : Keeps u s) : KeepsOut u (execElasticRowStart c row s) := by
  unfold execElasticRowStart
  repeat' first
    | (with_reducible first
        | assumption | refine State.skipRow_keeps ?_ | refine State.pick_keeps ?_ | refine State.beginRow_keeps ?_
        | refine ite_keeps ?_ ?_ | refine iteOut_keeps ?_ ?_ | refine KeepsOut.next ?_ | intro _)
    | dsimp only | split
    | fail_if_no_progress with_reducible refine Keeps.of_mk ?_

theorem execContextLoad_keeps {u : State} {c : CoreIx} {s : State} (h_s : Keeps u s) : KeepsOut u (execContextLoad c s) := by
  unfold execContextLoad
  repeat' first
    | (with_reducible first
        | assumption | refine act_keeps ?_ ?_ | refine State.modSeg_keeps ?_ | refine State.modCore_keeps ?_ | refine KeepsOut.next ?_
        | intro _)
    | dsimp only | split
    | fail_if_no_progress with_reducible refine Keeps.of_mk ?_

theorem execPickPoll_keeps {u : State} {c : CoreIx} {s : State} (h_s : Keeps u s) : KeepsOut u (execPickPoll c s) := by
  unfold execPickPoll
  repeat' first
    | (with_reducible first
        | assumption | refine act_keeps ?_ ?_ | refine State.pick_keeps ?_ | refine KeepsOut.next ?_)
    | fail_if_no_progress with_reducible refine Keeps.of_mk ?_

theorem execPreemptionPoint_keeps {u : State} {c : CoreIx} {row : Fin 1024} {s : State}
    (h_s : Keeps u s) : KeepsOut u (execPreemptionPoint c row s) := by
  unfold execPreemptionPoint
  repeat' first
    | (with_reducible first
        | assumption | refine State.clearFor_keeps ?_ | refine State.killSeg_keeps ?_ | refine ite_keeps ?_ ?_
        | refine iteOut_keeps ?_ ?_ | refine KeepsOut.next ?_)
    | dsimp only | split
    | fail_if_no_progress with_reducible refine Keeps.of_mk ?_

theorem execElasticRowEnd_keeps {u : State} {c : CoreIx} {row : Fin 1024} {s : State}
    (h_s : Keeps u s) : KeepsOut u (execElasticRowEnd c row s) := by
  unfold execElasticRowEnd
  repeat' first
    | (with_reducible first
        | assumption | refine State.modCore_keeps ?_ | refine State.overrun_keeps ?_ | refine ite_keeps ?_ ?_
        | refine iteOut_keeps ?_ ?_ | refine KeepsOut.next ?_ | intro _)
    | dsimp only | split
    | fail_if_no_progress with_reducible refine Keeps.of_mk ?_

theorem execTierDeadline_keeps {u : State} {c : CoreIx} {unit : Fin 11} {held : BitVec 32} {s : State}
    (h_s : Keeps u s) : KeepsOut u (execTierDeadline c unit held s) := by
  unfold execTierDeadline
  repeat' first
    | (with_reducible first
        | assumption | refine act_keeps ?_ ?_ | refine State.modSeg_keeps ?_ | refine State.event_keeps ?_ | refine KeepsOut.next ?_
        | intro _)
    | dsimp only | split
    | fail_if_no_progress with_reducible refine Keeps.of_mk ?_

theorem State.writeProfile_keeps {u : State} {s : State} {n : PartIx} {b : List Byte}
    (h_s : Keeps u s) : Keeps u (State.writeProfile s n b) := by
  unfold State.writeProfile
  repeat' first
    | (with_reducible first
        | assumption | refine State.putForce_keeps ?_ | refine State.wrBytes_keeps ?_ | refine State.shPart_keeps ?_ ?_
        | refine foldl_keeps ?_ ?_ | refine foldl_snd_keeps ?_ ?_ | intro _)
    | fail_if_no_progress with_reducible refine Keeps.of_mk ?_

theorem execProfileFieldWrite_keeps {u : State} {n : PartIx} {s : State}
    (h_s : Keeps u s) : KeepsOut u (execProfileFieldWrite n s) := by
  unfold execProfileFieldWrite
  repeat' first
    | (with_reducible first
        | assumption | refine act_keeps ?_ ?_ | refine State.modPart_keeps ?_ | refine State.writeProfile_keeps ?_
        | refine KeepsOut.next ?_ | intro _)
    | dsimp only | split
    | fail_if_no_progress with_reducible refine Keeps.of_mk ?_

theorem State.endApply_keeps {u : State} {s : State} {n : PartIx} {i : Nat} (h_s : Keeps u s) : Keeps u (State.endApply s n i) := by
  unfold State.endApply
  repeat' first
    | (with_reducible first
        | assumption | refine State.put_keeps ?_ | refine State.modPart_keeps ?_ | intro _)
    | fail_if_no_progress with_reducible refine Keeps.of_mk ?_

theorem execProfileApplyEnd_keeps {u : State} {n : PartIx} {s : State} (h_s : Keeps u s) : KeepsOut u (execProfileApplyEnd n s) := by
  unfold execProfileApplyEnd
  repeat' first
    | (with_reducible first
        | assumption | refine State.endApply_keeps ?_ | refine State.startTimer_keeps ?_ | refine ite_keeps ?_ ?_
        | refine iteOut_keeps ?_ ?_ | refine KeepsOut.next ?_)
    | dsimp only | split
    | fail_if_no_progress with_reducible refine Keeps.of_mk ?_

/-! ### Machine/Memory.lean -/

theorem execTranslationInvalidation_keeps {u : State} {page : BitVec 30} {ctx : BitVec 12} {n : PartIx} {all : Bool} {s : State}
    (h_s : Keeps u s) : KeepsOut u (execTranslationInvalidation page ctx n all s) := by
  unfold execTranslationInvalidation
  repeat' first
    | (with_reducible first
        | assumption | refine State.putB_keeps ?_ | refine State.put_keeps ?_ | refine act_keeps ?_ ?_ | refine forCores_keeps ?_ ?_
        | refine State.modCore_keeps ?_ | refine KeepsOut.next ?_ | intro _)
    | fail_if_no_progress with_reducible refine Keeps.of_mk ?_

theorem execDeviceTemperatureReadout_keeps {u : State} {dev : Fin 32} {celsius : Nat} {s : State}
    (h_s : Keeps u s) : KeepsOut u (execDeviceTemperatureReadout dev celsius s) := by
  unfold execDeviceTemperatureReadout
  repeat' first
    | (with_reducible first
        | assumption | refine act_keeps ?_ ?_ | refine State.modPart_keeps ?_ | refine KeepsOut.next ?_ | intro _)
    | fail_if_no_progress with_reducible refine Keeps.of_mk ?_

theorem State.frameEnd_keeps {u : State} {s : State} {r : Nat} (h_s : Keeps u s) : Keeps u (State.frameEnd s r) := by
  unfold State.frameEnd
  repeat' first
    | (with_reducible first
        | assumption | refine State.put_keeps ?_)
    | fail_if_no_progress with_reducible refine Keeps.of_mk ?_

theorem State.setHeld_keeps {u : State} {s : State} {n : PartIx} {tenant : Nat} {t : Nat} {v : Nat}
    (h_s : Keeps u s) : Keeps u (State.setHeld s n tenant t v) := by
  unfold State.setHeld
  repeat' first
    | (with_reducible first
        | assumption | refine State.wrLE_keeps ?_)
    | fail_if_no_progress with_reducible refine Keeps.of_mk ?_

theorem State.frameOp_keeps {u : State} {s0 : State} {op : Nat} {n : PartIx} {t : Nat} {tenant : Nat} {f : Nat}
    (h_s0 : Keeps u s0) : Keeps u (State.frameOp s0 op n t tenant f) := by
  unfold State.frameOp
  repeat' first
    | (with_reducible first
        | assumption | refine State.put_keeps ?_ | refine State.frameEnd_keeps ?_ | refine State.setHeld_keeps ?_
        | refine State.pushFrame_keeps ?_ | refine State.popFrame_keeps ?_ | refine ite_keeps ?_ ?_)
    | dsimp only | split
    | (with_reducible first
        | refine KeepsOptR.get (iteOptR_keeps KeepsOptR.none (State.popFrame_keeps ?_)) (by with_reducible assumption)
        | refine KeepsOptR.get (State.popFrame_keeps ?_) (by with_reducible assumption))
    | fail_if_no_progress with_reducible refine Keeps.of_mk ?_

theorem execFrameReturn_keeps {u : State} {n : PartIx} {tier : BitVec 2} {tenant : Byte} {frame : BitVec 21} {s : State}
    (h_s : Keeps u s) : KeepsOut u (execFrameReturn n tier tenant frame s) := by
  unfold execFrameReturn
  repeat' first
    | (with_reducible first
        | assumption | refine act_keeps ?_ ?_ | refine State.frameOp_keeps ?_ | refine KeepsOut.next ?_)
    | fail_if_no_progress with_reducible refine Keeps.of_mk ?_

theorem State.abandonMig_keeps {u : State} {s : State} {n : PartIx} (h_s : Keeps u s) : Keeps u (State.abandonMig s n) := by
  unfold State.abandonMig
  repeat' first
    | (with_reducible first
        | assumption | refine State.pushFrame_keeps ?_ | refine State.setLeafBy_keeps ?_ | refine State.migEnd_keeps ?_
        | refine foldl_keeps ?_ ?_ | refine foldl_snd_keeps ?_ ?_ | refine ite_keeps ?_ ?_ | intro _)
    | dsimp only | split
    | fail_if_no_progress with_reducible refine Keeps.of_mk ?_

theorem execInvalidationDone_keeps {u : State} {s : State} (h_s : Keeps u s) : KeepsOut u (execInvalidationDone s) := by
  unfold execInvalidationDone
  repeat' first
    | (with_reducible first
        | assumption | refine act_keeps ?_ ?_ | refine State.put_keeps ?_ | refine KeepsOut.next ?_)
    | fail_if_no_progress with_reducible refine Keeps.of_mk ?_

theorem State.scrubOn_keeps {u : State} {s : State} (h_s : Keeps u s) : Keeps u (State.scrubOn s) := by
  unfold State.scrubOn
  repeat' first
    | (with_reducible first
        | assumption | refine State.bump_keeps ?_)
    | dsimp only | split
    | fail_if_no_progress with_reducible refine Keeps.of_mk ?_

theorem execPatrolScrub_keeps {u : State} {r : LineRead} {again : Bool} {s : State}
    (h_s : Keeps u s) : KeepsOut u (execPatrolScrub r again s) := by
  unfold execPatrolScrub
  repeat' first
    | (with_reducible first
        | assumption | refine State.scrubOn_keeps ?_ | refine State.lineMet_keeps ?_ | refine State.meet_keeps ?_
        | refine ite_keeps ?_ ?_ | refine iteOut_keeps ?_ ?_ | refine KeepsOut.next ?_)
    | dsimp only | split
    | fail_if_no_progress with_reducible refine Keeps.of_mk ?_

theorem execChannelErrorWindowEnd_keeps {u : State} {n : PartIx} {s : State}
    (h_s : Keeps u s) : KeepsOut u (execChannelErrorWindowEnd n s) := by
  unfold execChannelErrorWindowEnd
  repeat' first
    | (with_reducible first
        | assumption | refine act_keeps ?_ ?_ | refine State.modPart_keeps ?_ | refine KeepsOut.next ?_ | intro _)
    | fail_if_no_progress with_reducible refine Keeps.of_mk ?_

theorem execFrameGrant_keeps {u : State} {n : PartIx} {tier : BitVec 2} {tenant : Byte} {frame : BitVec 21} {s : State}
    (h_s : Keeps u s) : KeepsOut u (execFrameGrant n tier tenant frame s) := by
  unfold execFrameGrant
  repeat' first
    | (with_reducible first
        | assumption | refine act_keeps ?_ ?_ | refine State.frameOp_keeps ?_ | refine KeepsOut.next ?_)
    | fail_if_no_progress with_reducible refine Keeps.of_mk ?_

theorem execFrameRevoke_keeps {u : State} {n : PartIx} {tier : BitVec 2} {tenant : Byte} {s : State}
    (h_s : Keeps u s) : KeepsOut u (execFrameRevoke n tier tenant s) := by
  unfold execFrameRevoke
  repeat' first
    | (with_reducible first
        | assumption | refine act_keeps ?_ ?_ | refine State.frameOp_keeps ?_ | refine KeepsOut.next ?_)
    | fail_if_no_progress with_reducible refine Keeps.of_mk ?_

theorem execFrameTake_keeps {u : State} {n : PartIx} {tier : BitVec 2} {tenant : Byte} {s : State}
    (h_s : Keeps u s) : KeepsOut u (execFrameTake n tier tenant s) := by
  unfold execFrameTake
  repeat' first
    | (with_reducible first
        | assumption | refine act_keeps ?_ ?_ | refine State.frameOp_keeps ?_ | refine KeepsOut.next ?_)
    | fail_if_no_progress with_reducible refine Keeps.of_mk ?_

theorem execMigrationRequest_keeps {u : State} {n : PartIx} {s : State} (h_s : Keeps u s) : KeepsOut u (execMigrationRequest n s) := by
  unfold execMigrationRequest
  repeat' first
    | (with_reducible first
        | assumption | refine State.migEnd_keeps ?_ | refine State.modPart_keeps ?_ | refine ite_keeps ?_ ?_
        | refine iteOut_keeps ?_ ?_ | refine KeepsOut.next ?_ | intro _)
    | dsimp only | split
    | fail_if_no_progress with_reducible refine Keeps.of_mk ?_

theorem State.copyFrame_keeps {u : State} {s0 : State} {src : Nat} {dst : Nat}
    (h_s0 : Keeps u s0) : Keeps u (State.copyFrame s0 src dst) := by
  unfold State.copyFrame
  repeat' first
    | (with_reducible first
        | assumption | refine State.meet_keeps ?_ | refine State.wrote_keeps ?_ | refine State.poisonAt_keeps ?_
        | refine State.wrBytes_keeps ?_)
    | fail_if_no_progress with_reducible refine Keeps.of_mk ?_

theorem State.migPage_keeps {u : State} {s : State} {n : PartIx} {m : Migration} {page : Nat}
    (h_s : Keeps u s) : Keeps u (State.migPage s n m page) := by
  unfold State.migPage
  repeat' first
    | (with_reducible first
        | assumption | refine State.modMig_keeps ?_ | refine State.popFrame_keeps ?_ | refine State.popFail_keeps ?_
        | refine State.copyFrame_keeps ?_ | refine State.setLeaf_keeps ?_ | refine ite_keeps ?_ ?_ | intro _)
    | dsimp only | split
    | (with_reducible first
        | refine KeepsOptR.get (iteOptR_keeps KeepsOptR.none (State.popFrame_keeps ?_)) (by with_reducible assumption)
        | refine KeepsOptR.get (State.popFrame_keeps ?_) (by with_reducible assumption))
    | fail_if_no_progress with_reducible refine Keeps.of_mk ?_

theorem execMigrationCopy_keeps {u : State} {n : PartIx} {page : BitVec 48} {s : State}
    (h_s : Keeps u s) : KeepsOut u (execMigrationCopy n page s) := by
  unfold execMigrationCopy
  repeat' first
    | (with_reducible first
        | assumption | refine State.modMig_keeps ?_ | refine State.migDone_keeps ?_ | refine State.migPage_keeps ?_
        | refine ite_keeps ?_ ?_ | refine iteOut_keeps ?_ ?_ | refine KeepsOut.next ?_ | intro _)
    | dsimp only | split
    | fail_if_no_progress with_reducible refine Keeps.of_mk ?_

theorem State.chargeWet_keeps {u : State} {t : State} {s : State} {e : CoreIx} {k : Nat} {page : Nat} {from_ : Nat} {to_ : Nat}
    (h_t : Keeps u t) (h_s : Keeps u s) : Keeps u (State.chargeWet t s e k page from_ to_) := by
  unfold State.chargeWet
  repeat' first
    | (with_reducible first
        | assumption | refine State.stashWr_keeps ?_ | refine ite_keeps ?_ ?_)
    | dsimp only | split
    | fail_if_no_progress with_reducible refine Keeps.of_mk ?_

theorem State.chargeDry_keeps {u : State} {s : State} {c : CoreIx} {k : Nat} {from_ : Nat} {to_ : Nat}
    (h_s : Keeps u s) : Keeps u (State.chargeDry s c k from_ to_) := by
  unfold State.chargeDry
  repeat' first
    | (with_reducible first
        | assumption | refine State.stashNow_keeps ?_ | intro _)
    | fail_if_no_progress with_reducible refine Keeps.of_mk ?_

theorem State.moveCharge_keeps {u : State} {s : State} {n : PartIx} {k : Nat} {page : Nat} {from_ : Nat} {to_ : Nat}
    (h_s : Keeps u s) : Keeps u (State.moveCharge s n k page from_ to_) := by
  unfold State.moveCharge
  repeat' first
    | (with_reducible first
        | assumption | refine forCores_keeps ?_ ?_ | refine State.chargeWet_keeps ?_ ?_ | refine State.chargeDry_keeps ?_
        | refine ite_keeps ?_ ?_ | intro _)
    | dsimp only | split
    | fail_if_no_progress with_reducible refine Keeps.of_mk ?_

theorem execMigrationSwitch_keeps {u : State} {n : PartIx} {page : BitVec 30} {s : State}
    (h_s : Keeps u s) : KeepsOut u (execMigrationSwitch n page s) := by
  unfold execMigrationSwitch
  repeat' first
    | (with_reducible first
        | assumption | refine State.meet_keeps ?_ | refine State.wrote_keeps ?_ | refine State.poisonAt_keeps ?_
        | refine State.wrBytes_keeps ?_ | refine State.moveCharge_keeps ?_ | refine State.setLeaf_keeps ?_
        | refine State.modMig_keeps ?_ | refine foldl_keeps ?_ ?_ | refine foldl_snd_keeps ?_ ?_ | refine ite_keeps ?_ ?_
        | refine iteOut_keeps ?_ ?_ | refine KeepsOut.next ?_ | intro _)
    | dsimp only | split
    | fail_if_no_progress with_reducible refine Keeps.of_mk ?_

theorem execMigrationSourcePush_keeps {u : State} {n : PartIx} {page : BitVec 30} {s : State}
    (h_s : Keeps u s) : KeepsOut u (execMigrationSourcePush n page s) := by
  unfold execMigrationSourcePush
  repeat' first
    | (with_reducible first
        | assumption | refine State.pushFrame_keeps ?_ | refine State.migDone_keeps ?_ | refine State.modMig_keeps ?_
        | refine ite_keeps ?_ ?_ | refine iteOut_keeps ?_ ?_ | refine KeepsOut.next ?_ | intro _)
    | dsimp only | split
    | fail_if_no_progress with_reducible refine Keeps.of_mk ?_

end Sys2Proof.Machine
end

