-- ==== Sys2Proof/Laws/KeepsChart.lean ====
section
/-! SUPPORT. Laws/KeepsChart.lean: the Chart: routing, the Gazetteer, homes, tickets, collectives and requests keep what Laws/Keeps.lean names, operation by operation; a meaning execX by
execX_keeps. -/

set_option linter.unusedTactic false
set_option linter.unreachableTactic false

namespace Sys2Proof.Machine

/-! ### Machine/Route.lean -/

theorem State.freeUnits_keeps {u : State} {s : State} {port : Nat} {p : Packet}
    (h_s : Keeps u s) : Keeps u (State.freeUnits s port p) := by
  unfold State.freeUnits
  repeat' first
    | (with_reducible first
        | assumption | refine State.modLink_keeps ?_ | intro _)
    | fail_if_no_progress with_reducible refine Keeps.of_mk ?_

theorem State.putPacket_keeps {u : State} {s : State} {l : LinkIx} {p : Packet} {held : Option Nat}
    (h_s : Keeps u s) : Keeps u (State.putPacket s l p held) := by
  unfold State.putPacket
  repeat' first
    | (with_reducible first
        | assumption | refine State.putFlits_keeps ?_ | refine State.modLink_keeps ?_ | refine State.freeUnits_keeps ?_ | intro _)
    | dsimp only | split
    | fail_if_no_progress with_reducible refine Keeps.of_mk ?_

theorem pumpGo_keeps {u : State} {l : LinkIx} {x1 : List (Packet × Option Nat)} {x2 : List Nat} {x3 : State}
    (h_x3 : Keeps u x3) : KeepsR u (pumpGo l x1 x2 x3) := by
  induction x1 generalizing x2 x3 with
  | nil => exact h_x3
  | cons p r ih =>
    unfold pumpGo
    dsimp only
    split
    · exact ih (State.putPacket_keeps h_x3)
    · exact KeepsR.of (KeepsR.snd (ih h_x3))

theorem State.pump_keeps {u : State} {s : State} {l : LinkIx} (h_s : Keeps u s) : Keeps u (State.pump s l) := by
  unfold State.pump
  repeat' first
    | (with_reducible first
        | assumption | refine pumpGo_keeps ?_ | refine State.modLink_keeps ?_ | refine KeepsR.snd (pumpGo_keeps ?_) | intro _)
    | dsimp only | split
    | (with_reducible first
        | refine KeepsR.get (pumpGo_keeps ?_) (by with_reducible assumption) | refine KeepsR.of ?_)
    | fail_if_no_progress with_reducible refine Keeps.of_mk ?_

theorem State.discards_keeps {u : State} {s : State} {l : LinkIx} {k : Nat} (h_s : Keeps u s) : Keeps u (State.discards s l k) := by
  unfold State.discards
  repeat' first
    | (with_reducible first
        | assumption | refine State.bump_keeps ?_ | refine ite_keeps ?_ ?_)
    | dsimp only | split
    | fail_if_no_progress with_reducible refine Keeps.of_mk ?_

theorem State.toPortOut_keeps {u : State} {s : State} {l : LinkIx} {p : Packet} {held : Option Nat}
    (h_s : Keeps u s) : Keeps u (State.toPortOut s l p held) := by
  unfold State.toPortOut
  repeat' first
    | (with_reducible first
        | assumption | refine State.pump_keeps ?_ | refine State.modLink_keeps ?_ | refine State.discards_keeps ?_
        | refine State.freeUnits_keeps ?_ | refine ite_keeps ?_ ?_ | intro _)
    | dsimp only | split
    | fail_if_no_progress with_reducible refine Keeps.of_mk ?_

theorem State.sendPacket_keeps {u : State} {s : State} {p : Packet} (h_s : Keeps u s) : Keeps u (State.sendPacket s p) := by
  unfold State.sendPacket
  repeat' first
    | (with_reducible first
        | assumption | refine State.toPortOut_keeps ?_)
    | dsimp only | split
    | fail_if_no_progress with_reducible refine Keeps.of_mk ?_

theorem State.dirAck_keeps {u : State} {s : State} {p : Packet} {status : Nat} {retry : Nat}
    (h_s : Keeps u s) : Keeps u (State.dirAck s p status retry) := by
  unfold State.dirAck
  repeat' first
    | (with_reducible first
        | assumption | refine State.sendPacket_keeps ?_)
    | fail_if_no_progress with_reducible refine Keeps.of_mk ?_

theorem State.freshNonce_keeps {u : State} {s : State} {n : Nat} (h_s : Keeps u s) : KeepsR u (State.freshNonce s n) := by
  unfold State.freshNonce
  repeat' first
    | (with_reducible first
        | assumption | intro _)
    | refine KeepsR.of ?_
    | fail_if_no_progress with_reducible refine Keeps.of_mk ?_

theorem State.takeRx_keeps {u : State} {s : State} {p : Packet} {port : Nat} (h_s : Keeps u s) : Keeps u (State.takeRx s p port) := by
  unfold State.takeRx
  repeat' first
    | (with_reducible first
        | assumption | refine State.modLink_keeps ?_ | intro _)
    | fail_if_no_progress with_reducible refine Keeps.of_mk ?_

theorem State.unbox_keeps {u : State} {s : State} {p : Packet} (h_s : Keeps u s) : Keeps u (State.unbox s p) := by
  unfold State.unbox
  repeat' first
    | (with_reducible first
        | assumption | refine State.freeUnits_keeps ?_ | refine State.takeRx_keeps ?_)
    | dsimp only | split
    | fail_if_no_progress with_reducible refine Keeps.of_mk ?_

theorem execPacketForward_keeps {u : State} {p : Packet} {s : State} (h_s : Keeps u s) : KeepsOut u (execPacketForward p s) := by
  unfold execPacketForward
  repeat' first
    | (with_reducible first
        | assumption | refine State.unbox_keeps ?_ | refine State.toPortOut_keeps ?_ | refine State.takeRx_keeps ?_
        | refine act_keeps ?_ ?_ | refine KeepsOut.next ?_)
    | dsimp only | split
    | fail_if_no_progress with_reducible refine Keeps.of_mk ?_

theorem State.nack_keeps {u : State} {s : State} {p : Packet} {status : Nat} {retry : Nat}
    (h_s : Keeps u s) : Keeps u (State.nack s p status retry) := by
  unfold State.nack
  repeat' first
    | (with_reducible first
        | assumption | refine State.sendPacket_keeps ?_)
    | fail_if_no_progress with_reducible refine Keeps.of_mk ?_

/-! ### Machine/Gazetteer.lean -/

theorem gazOp_keeps {u : State} {s : State} {op : Nat} {name : Nat} {f : State → State}
    (h_s : Keeps u s) (h_f : ∀ tt, Keeps u tt → Keeps u (f tt)) : KeepsOut u (gazOp s op name f) := by
  unfold gazOp
  repeat' first
    | (with_reducible first
        | assumption | refine act_keeps ?_ ?_ | refine State.put_keeps ?_ | apply h_f | refine KeepsOut.next ?_ | intro _)
    | fail_if_no_progress with_reducible refine Keeps.of_mk ?_

theorem State.gazEnd_keeps {u : State} {s : State} {r : Nat} (h_s : Keeps u s) : Keeps u (State.gazEnd s r) := by
  unfold State.gazEnd
  repeat' first
    | (with_reducible first
        | assumption | refine State.put_keeps ?_)
    | fail_if_no_progress with_reducible refine Keeps.of_mk ?_

theorem State.showGaz_keeps {u : State} {s : State} (h_s : Keeps u s) : Keeps u (State.showGaz s) := by
  unfold State.showGaz
  repeat' first
    | (with_reducible first
        | assumption | refine State.put_keeps ?_ | intro _)
    | fail_if_no_progress with_reducible refine Keeps.of_mk ?_

theorem State.setGaz_keeps {u : State} {s : State} {l : List GazEntry} (h_s : Keeps u s) : Keeps u (State.setGaz s l) := by
  unfold State.setGaz
  repeat' first
    | (with_reducible first
        | assumption | refine State.showGaz_keeps ?_)
    | fail_if_no_progress with_reducible refine Keeps.of_mk ?_

theorem State.modGaz_keeps {u : State} {s : State} {n : Nat} {f : GazEntry → GazEntry}
    (h_s : Keeps u s) : Keeps u (State.modGaz s n f) := by
  unfold State.modGaz
  repeat' first
    | (with_reducible first
        | assumption | refine State.setGaz_keeps ?_ | refine ite_keeps ?_ ?_ | intro _)
    | dsimp only | split
    | fail_if_no_progress with_reducible refine Keeps.of_mk ?_

theorem State.freeGaz_keeps {u : State} {s : State} {n : Nat} (h_s : Keeps u s) : Keeps u (State.freeGaz s n) := by
  unfold State.freeGaz
  repeat' first
    | (with_reducible first
        | assumption | refine State.setGaz_keeps ?_ | intro _)
    | fail_if_no_progress with_reducible refine Keeps.of_mk ?_

theorem State.addGaz_keeps {u : State} {s : State} {e : GazEntry} (h_s : Keeps u s) : KeepsOpt u (State.addGaz s e) := by
  unfold State.addGaz
  repeat' first
    | (with_reducible first
        | assumption | refine State.setGaz_keeps ?_ | refine State.freeGaz_keeps ?_ | refine ite_keeps ?_ ?_ | exact KeepsOpt.none
        | refine KeepsOpt.some ?_ | intro _)
    | dsimp only | split
    | fail_if_no_progress with_reducible refine Keeps.of_mk ?_

theorem State.gazMarkLost_keeps {u : State} {s : State} {name : Nat} (h_s : Keeps u s) : Keeps u (State.gazMarkLost s name) := by
  unfold State.gazMarkLost
  repeat' first
    | (with_reducible first
        | assumption | refine State.gazEnd_keeps ?_ | refine State.modGaz_keeps ?_ | refine State.addGaz_keeps ?_
        | refine State.flag_keeps ?_ | refine KeepsOpt.getD (State.addGaz_keeps ?_) ?_ | refine ite_keeps ?_ ?_ | intro _)
    | dsimp only | split
    | (with_reducible first
        | refine KeepsOpt.get (iteOpt_keeps KeepsOpt.none (State.addGaz_keeps ?_)) (by with_reducible assumption)
        | refine KeepsOpt.get (State.addGaz_keeps ?_) (by with_reducible assumption))
    | fail_if_no_progress with_reducible refine Keeps.of_mk ?_

theorem execMarkLost_keeps {u : State} {name : BitVec 43} {s : State} (h_s : Keeps u s) : KeepsOut u (execMarkLost name s) := by
  unfold execMarkLost
  repeat' first
    | (with_reducible first
        | assumption | refine gazOp_keeps ?_ ?_ | refine State.gazMarkLost_keeps ?_ | refine KeepsOut.next ?_ | intro _)
    | fail_if_no_progress with_reducible refine Keeps.of_mk ?_

theorem State.sendDir_keeps {u : State} {s : State} {p : Packet} {kind : DirKind}
    (h_s : Keeps u s) : Keeps u (State.sendDir s p kind) := by
  unfold State.sendDir
  repeat' first
    | (with_reducible first
        | assumption | refine State.freshTag_keeps ?_ | refine State.sendPacket_keeps ?_ | refine ite_keeps ?_ ?_)
    | dsimp only | split
    | (with_reducible first
        | refine KeepsOptR.get (iteOptR_keeps KeepsOptR.none (State.freshTag_keeps ?_)) (by with_reducible assumption)
        | refine KeepsOptR.get (State.freshTag_keeps ?_) (by with_reducible assumption))
    | fail_if_no_progress with_reducible refine Keeps.of_mk ?_

theorem State.pushHost_keeps {u : State} {s : State} {n : PartIx} {t : Nat} {base : Nat}
    (h_s : Keeps u s) : KeepsOpt u (State.pushHost s n t base) := by
  unfold State.pushHost
  repeat' first
    | (with_reducible first
        | assumption | refine State.put_keeps ?_ | refine State.wrLE_keeps ?_ | refine ite_keeps ?_ ?_ | exact KeepsOpt.none
        | refine KeepsOpt.some ?_)
    | dsimp only | split
    | fail_if_no_progress with_reducible refine Keeps.of_mk ?_

theorem State.releaseSlot_keeps {u : State} {s : State} {base : Nat} (h_s : Keeps u s) : Keeps u (State.releaseSlot s base) := by
  unfold State.releaseSlot
  generalize slotPlace base = o
  cases o with
  | none => exact h_s
  | some p => exact KeepsOpt.getD (State.pushHost_keeps h_s) h_s

theorem State.dropDirs_keeps {u : State} {s : State} {p : DirMsg → Bool} (h_s : Keeps u s) : Keeps u (State.dropDirs s p) := by
  unfold State.dropDirs
  repeat' first
    | (with_reducible first
        | assumption | refine State.setAside_keeps ?_ | intro _)
    | fail_if_no_progress with_reducible refine Keeps.of_mk ?_

theorem State.modDir_keeps {u : State} {s : State} {d : DirMsg} {f : DirMsg → DirMsg}
    (h_s : Keeps u s) : Keeps u (State.modDir s d f) := by
  unfold State.modDir
  repeat' first
    | (with_reducible first
        | assumption | refine ite_keeps ?_ ?_ | intro _)
    | dsimp only | split
    | fail_if_no_progress with_reducible refine Keeps.of_mk ?_

theorem State.keepHint_keeps {u : State} {s : State} {n : Nat} {home : Nat} {epoch : Nat}
    (h_s : Keeps u s) : Keeps u (State.keepHint s n home epoch) := by
  unfold State.keepHint
  repeat' first
    | (with_reducible first
        | assumption | intro _)
    | fail_if_no_progress with_reducible refine Keeps.of_mk ?_

theorem State.target_keeps {u : State} {s : State} {n : Nat} (h_s : Keeps u s) : KeepsR u (State.target s n) := by
  unfold State.target
  repeat' first
    | (with_reducible first
        | assumption | refine State.keepHint_keeps ?_)
    | dsimp only | split
    | refine KeepsR.of ?_
    | fail_if_no_progress with_reducible refine Keeps.of_mk ?_

theorem State.gazDestroy_keeps {u : State} {s : State} {name : Nat} (h_s : Keeps u s) : Keeps u (State.gazDestroy s name) := by
  unfold State.gazDestroy
  repeat' first
    | (with_reducible first
        | assumption | refine State.gazEnd_keeps ?_ | refine State.freshNonce_keeps ?_ | refine State.sendDir_keeps ?_
        | refine State.freeGaz_keeps ?_ | refine State.releaseSlot_keeps ?_ | refine KeepsR.snd (State.freshNonce_keeps ?_)
        | refine ite_keeps ?_ ?_ | intro _)
    | dsimp only | split
    | (with_reducible first
        | refine KeepsR.get (State.freshNonce_keeps ?_) (by with_reducible assumption) | refine KeepsR.of ?_)
    | fail_if_no_progress with_reducible refine Keeps.of_mk ?_

theorem execDestroy_keeps {u : State} {name : BitVec 43} {s : State} (h_s : Keeps u s) : KeepsOut u (execDestroy name s) := by
  unfold execDestroy
  repeat' first
    | (with_reducible first
        | assumption | refine gazOp_keeps ?_ ?_ | refine State.gazDestroy_keeps ?_ | refine KeepsOut.next ?_ | intro _)
    | fail_if_no_progress with_reducible refine Keeps.of_mk ?_

theorem State.learnHint_keeps {u : State} {s : State} {n : Nat} {home : Nat} {epoch : Nat}
    (h_s : Keeps u s) : Keeps u (State.learnHint s n home epoch) := by
  unfold State.learnHint
  repeat' first
    | (with_reducible first
        | assumption | refine State.keepHint_keeps ?_ | refine ite_keeps ?_ ?_)
    | dsimp only | split
    | fail_if_no_progress with_reducible refine Keeps.of_mk ?_

theorem State.dropHint_keeps {u : State} {s : State} {n : Nat} (h_s : Keeps u s) : Keeps u (State.dropHint s n) := by
  unfold State.dropHint
  repeat' first
    | (with_reducible first
        | assumption | intro _)
    | fail_if_no_progress with_reducible refine Keeps.of_mk ?_

theorem State.pointerUpdate_keeps {u : State} {s : State} {e : GazEntry} {home : Nat} {dst : Nat}
    (h_s : Keeps u s) : Keeps u (State.pointerUpdate s e home dst) := by
  unfold State.pointerUpdate
  repeat' first
    | (with_reducible first
        | assumption | refine State.freshNonce_keeps ?_ | refine State.sendDir_keeps ?_ | refine KeepsR.snd (State.freshNonce_keeps ?_)
        | refine ite_keeps ?_ ?_)
    | dsimp only | split
    | (with_reducible first
        | refine KeepsR.get (State.freshNonce_keeps ?_) (by with_reducible assumption) | refine KeepsR.of ?_)
    | fail_if_no_progress with_reducible refine Keeps.of_mk ?_

theorem State.gazLookup_keeps {u : State} {s : State} {name : Nat} (h_s : Keeps u s) : Keeps u (State.gazLookup s name) := by
  unfold State.gazLookup
  repeat' first
    | (with_reducible first
        | assumption | refine State.gazEnd_keeps ?_ | refine State.put_keeps ?_)
    | dsimp only | split
    | fail_if_no_progress with_reducible refine Keeps.of_mk ?_

theorem State.gazCreate_keeps {u : State} {s : State} {name : Nat} (h_s : Keeps u s) : Keeps u (State.gazCreate s name) := by
  unfold State.gazCreate
  repeat' first
    | (with_reducible first
        | assumption | refine State.gazEnd_keeps ?_ | refine State.addGaz_keeps ?_ | refine State.flag_keeps ?_
        | refine KeepsOpt.getD (State.addGaz_keeps ?_) ?_ | refine ite_keeps ?_ ?_)
    | dsimp only | split
    | (with_reducible first
        | refine KeepsOpt.get (iteOpt_keeps KeepsOpt.none (State.addGaz_keeps ?_)) (by with_reducible assumption)
        | refine KeepsOpt.get (State.addGaz_keeps ?_) (by with_reducible assumption))
    | fail_if_no_progress with_reducible refine Keeps.of_mk ?_

theorem State.gazPin_keeps {u : State} {s : State} {name : Nat} {v : Bool} (h_s : Keeps u s) : Keeps u (State.gazPin s name v) := by
  unfold State.gazPin
  repeat' first
    | (with_reducible first
        | assumption | refine State.gazEnd_keeps ?_ | refine State.modGaz_keeps ?_ | refine ite_keeps ?_ ?_ | intro _)
    | dsimp only | split
    | fail_if_no_progress with_reducible refine Keeps.of_mk ?_

theorem State.gazRestore_keeps {u : State} {s : State} {name : Nat} {base : Nat} {epoch : Nat} {module : Nat}
    (h_s : Keeps u s) : Keeps u (State.gazRestore s name base epoch module) := by
  unfold State.gazRestore
  repeat' first
    | (with_reducible first
        | assumption | refine State.gazEnd_keeps ?_ | refine State.addGaz_keeps ?_ | refine State.flag_keeps ?_
        | refine KeepsOpt.getD (State.addGaz_keeps ?_) ?_ | refine ite_keeps ?_ ?_ | intro _)
    | dsimp only | split
    | (with_reducible first
        | refine KeepsOpt.get (iteOpt_keeps KeepsOpt.none (State.addGaz_keeps ?_)) (by with_reducible assumption)
        | refine KeepsOpt.get (State.addGaz_keeps ?_) (by with_reducible assumption))
    | fail_if_no_progress with_reducible refine Keeps.of_mk ?_

theorem State.gazPush_keeps {u : State} {s : State} {n : PartIx} {t : Nat} {base : Nat}
    (h_s : Keeps u s) : Keeps u (State.gazPush s n t base) := by
  unfold State.gazPush
  repeat' first
    | (with_reducible first
        | assumption | refine State.gazEnd_keeps ?_ | refine State.pushHost_keeps ?_
        | refine KeepsOpt.getD (State.pushHost_keeps ?_) ?_ | refine ite_keeps ?_ ?_)
    | dsimp only | split
    | (with_reducible first
        | refine KeepsOpt.get (iteOpt_keeps KeepsOpt.none (State.pushHost_keeps ?_)) (by with_reducible assumption)
        | refine KeepsOpt.get (State.pushHost_keeps ?_) (by with_reducible assumption))
    | fail_if_no_progress with_reducible refine Keeps.of_mk ?_

theorem State.popHost_keeps {u : State} {s : State} {n : PartIx} {t : Nat} (h_s : Keeps u s) : KeepsOptR u (State.popHost s n t) := by
  unfold State.popHost
  repeat' first
    | (with_reducible first
        | assumption | refine State.put_keeps ?_ | refine ite_keeps ?_ ?_ | exact KeepsOptR.none | refine KeepsOptR.some ?_)
    | dsimp only | split
    | fail_if_no_progress with_reducible refine Keeps.of_mk ?_

theorem State.gazPop_keeps {u : State} {s : State} {n : PartIx} {t : Nat} (h_s : Keeps u s) : Keeps u (State.gazPop s n t) := by
  unfold State.gazPop
  repeat' first
    | (with_reducible first
        | assumption | refine State.gazEnd_keeps ?_ | refine State.popHost_keeps ?_ | refine State.put_keeps ?_
        | refine ite_keeps ?_ ?_)
    | dsimp only | split
    | (with_reducible first
        | refine KeepsOptR.get (iteOptR_keeps KeepsOptR.none (State.popHost_keeps ?_)) (by with_reducible assumption)
        | refine KeepsOptR.get (State.popHost_keeps ?_) (by with_reducible assumption))
    | fail_if_no_progress with_reducible refine Keeps.of_mk ?_

theorem execOpenChart_keeps {u : State} {s : State} (h_s : Keeps u s) : KeepsOut u (execOpenChart s) := by
  unfold execOpenChart
  repeat' first
    | (with_reducible first
        | assumption | refine act_keeps ?_ ?_ | refine State.put_keeps ?_ | refine KeepsOut.next ?_)
    | fail_if_no_progress with_reducible refine Keeps.of_mk ?_

theorem execHintFlush_keeps {u : State} {s : State} (h_s : Keeps u s) : KeepsOut u (execHintFlush s) := by
  unfold execHintFlush
  repeat' first
    | (with_reducible first
        | assumption | refine act_keeps ?_ ?_ | refine KeepsOut.next ?_)
    | fail_if_no_progress with_reducible refine Keeps.of_mk ?_

theorem execCreate_keeps {u : State} {name : BitVec 43} {base : BitVec 31} {s : State}
    (h_s : Keeps u s) : KeepsOut u (execCreate name base s) := by
  unfold execCreate
  repeat' first
    | (with_reducible first
        | assumption | refine gazOp_keeps ?_ ?_ | refine State.gazCreate_keeps ?_ | refine State.put_keeps ?_ | refine KeepsOut.next ?_
        | intro _)
    | fail_if_no_progress with_reducible refine Keeps.of_mk ?_

theorem execPin_keeps {u : State} {name : BitVec 43} {s : State} (h_s : Keeps u s) : KeepsOut u (execPin name s) := by
  unfold execPin
  repeat' first
    | (with_reducible first
        | assumption | refine gazOp_keeps ?_ ?_ | refine State.gazPin_keeps ?_ | refine KeepsOut.next ?_ | intro _)
    | fail_if_no_progress with_reducible refine Keeps.of_mk ?_

theorem execUnpin_keeps {u : State} {name : BitVec 43} {s : State} (h_s : Keeps u s) : KeepsOut u (execUnpin name s) := by
  unfold execUnpin
  repeat' first
    | (with_reducible first
        | assumption | refine gazOp_keeps ?_ ?_ | refine State.gazPin_keeps ?_ | refine KeepsOut.next ?_ | intro _)
    | fail_if_no_progress with_reducible refine Keeps.of_mk ?_

theorem execRestore_keeps {u : State} {name : BitVec 43} {base : BitVec 31} {epoch : BitVec 16} {module : BitVec 12} {s : State}
    (h_s : Keeps u s) : KeepsOut u (execRestore name base epoch module s) := by
  unfold execRestore
  repeat' first
    | (with_reducible first
        | assumption | refine gazOp_keeps ?_ ?_ | refine State.gazRestore_keeps ?_ | refine State.put_keeps ?_
        | refine KeepsOut.next ?_ | intro _)
    | fail_if_no_progress with_reducible refine Keeps.of_mk ?_

theorem State.gazArg_keeps {u : State} {s : State} {op : Nat} {n : PartIx} {t : Nat}
    (h_s : Keeps u s) : Keeps u (State.gazArg s op n t) := by
  unfold State.gazArg
  repeat' first
    | (with_reducible first
        | assumption | refine State.put_keeps ?_)
    | fail_if_no_progress with_reducible refine Keeps.of_mk ?_

theorem execPushSlot_keeps {u : State} {n : PartIx} {tier : BitVec 2} {base : BitVec 31} {s : State}
    (h_s : Keeps u s) : KeepsOut u (execPushSlot n tier base s) := by
  unfold execPushSlot
  repeat' first
    | (with_reducible first
        | assumption | refine act_keeps ?_ ?_ | refine State.gazPush_keeps ?_ | refine State.put_keeps ?_
        | refine State.gazArg_keeps ?_ | refine KeepsOut.next ?_)
    | fail_if_no_progress with_reducible refine Keeps.of_mk ?_

theorem execPopSlot_keeps {u : State} {n : PartIx} {tier : BitVec 2} {s : State}
    (h_s : Keeps u s) : KeepsOut u (execPopSlot n tier s) := by
  unfold execPopSlot
  repeat' first
    | (with_reducible first
        | assumption | refine act_keeps ?_ ?_ | refine State.gazPop_keeps ?_ | refine State.gazArg_keeps ?_ | refine KeepsOut.next ?_)
    | fail_if_no_progress with_reducible refine Keeps.of_mk ?_

theorem execLookup_keeps {u : State} {name : BitVec 43} {s : State} (h_s : Keeps u s) : KeepsOut u (execLookup name s) := by
  unfold execLookup
  repeat' first
    | (with_reducible first
        | assumption | refine gazOp_keeps ?_ ?_ | refine State.gazLookup_keeps ?_ | refine KeepsOut.next ?_ | intro _)
    | fail_if_no_progress with_reducible refine Keeps.of_mk ?_

theorem execForwardLifetimeExpiry_keeps {u : State} {name : BitVec 43} {s : State}
    (h_s : Keeps u s) : KeepsOut u (execForwardLifetimeExpiry name s) := by
  unfold execForwardLifetimeExpiry
  repeat' first
    | (with_reducible first
        | assumption | refine act_keeps ?_ ?_ | refine State.freeGaz_keeps ?_ | refine KeepsOut.next ?_)
    | dsimp only | split
    | fail_if_no_progress with_reducible refine Keeps.of_mk ?_

theorem execPromotionHoldExpiry_keeps {u : State} {name : BitVec 43} {s : State}
    (h_s : Keeps u s) : KeepsOut u (execPromotionHoldExpiry name s) := by
  unfold execPromotionHoldExpiry
  repeat' first
    | (with_reducible first
        | assumption | refine act_keeps ?_ ?_ | refine State.modGaz_keeps ?_ | refine KeepsOut.next ?_ | intro _)
    | dsimp only | split
    | fail_if_no_progress with_reducible refine Keeps.of_mk ?_

/-! ### Machine/Home.lean -/

theorem arrive_keeps {u : State} {s : State} {p : Packet} {op : Nat} {go : State → State}
    (h_s : Keeps u s) (h_go : ∀ tt, Keeps u tt → Keeps u (go tt)) : KeepsOut u (arrive s p op go) := by
  unfold arrive
  repeat' first
    | (with_reducible first
        | assumption | refine State.bump_keeps ?_ | refine State.unbox_keeps ?_ | refine act_keeps ?_ ?_ | apply h_go
        | refine ite_keeps ?_ ?_ | refine iteOut_keeps ?_ ?_ | refine KeepsOut.next ?_ | intro _)
    | dsimp only | split
    | fail_if_no_progress with_reducible refine Keeps.of_mk ?_

theorem filtered_keeps {u : State} {s : State} {p : Packet} {go : State → State}
    (h_s : Keeps u s) (h_go : ∀ tt, Keeps u tt → Keeps u (go tt)) : Keeps u (filtered s p go) := by
  unfold filtered
  repeat' first
    | (with_reducible first
        | assumption | refine State.sendPacket_keeps ?_ | apply h_go | refine ite_keeps ?_ ?_ | intro _)
    | dsimp only | split
    | fail_if_no_progress with_reducible refine Keeps.of_mk ?_

theorem State.refuse_keeps {u : State} {s : State} {p : Packet} {status : Nat} {retry : Nat} {module : Nat} {epoch : Nat}
    (h_s : Keeps u s) : Keeps u (State.refuse s p status retry module epoch) := by
  unfold State.refuse
  repeat' first
    | (with_reducible first
        | assumption | refine State.sendPacket_keeps ?_)
    | fail_if_no_progress with_reducible refine Keeps.of_mk ?_

theorem served_keeps {u : State} {s : State} {p : Packet} {len : Nat} {go : GazEntry → Nat → State}
    (h_s : Keeps u s) (h_go : ∀ y0 y1, Keeps u (go y0 y1)) : Keeps u (served s p len go) := by
  unfold served
  repeat' first
    | (with_reducible first
        | assumption | refine State.refuse_keeps ?_ | apply h_go | refine ite_keeps ?_ ?_ | intro _)
    | dsimp only | split
    | fail_if_no_progress with_reducible refine Keeps.of_mk ?_

theorem State.applied_keeps {u : State} {s : State} {p : Packet} {r : Packet} (h_s : Keeps u s) : Keeps u (State.applied s p r) := by
  unfold State.applied
  repeat' first
    | (with_reducible first
        | assumption | refine State.sendPacket_keeps ?_)
    | fail_if_no_progress with_reducible refine Keeps.of_mk ?_

theorem State.markLines_keeps {u : State} {s : State} {n : Nat} {off : Nat} {len : Nat}
    (h_s : Keeps u s) : Keeps u (State.markLines s n off len) := by
  unfold State.markLines
  repeat' first
    | (with_reducible first
        | assumption | refine ite_keeps ?_ ?_ | intro _)
    | dsimp only | split
    | fail_if_no_progress with_reducible refine Keeps.of_mk ?_

theorem execChartSemAdd_keeps {u : State} {p : Packet} {s : State} (h_s : Keeps u s) : KeepsOut u (execChartSemAdd p s) := by
  unfold execChartSemAdd
  repeat' first
    | (with_reducible first
        | assumption | refine arrive_keeps ?_ ?_ | refine filtered_keeps ?_ ?_ | refine served_keeps ?_ ?_
        | refine State.applied_keeps ?_ | refine State.markLines_keeps ?_ | refine State.semAddTo_keeps ?_ | refine KeepsOut.next ?_
        | intro _)
    | fail_if_no_progress with_reducible refine Keeps.of_mk ?_

theorem State.semResult_keeps {u : State} {s : State} {p : Packet} {x2 : Nat}
    (h_s : Keeps u s) : Keeps u (State.semResult s p x2) := by
  unfold State.semResult
  repeat' first
    | (with_reducible first
        | assumption | refine State.sendPacket_keeps ?_)
    | fail_if_no_progress with_reducible refine Keeps.of_mk ?_

theorem State.noteGrant_keeps {u : State} {s : State} {p : Packet} {expired : Bool} {extended : Bool}
    (h_s : Keeps u s) : Keeps u (State.noteGrant s p expired extended) := by
  unfold State.noteGrant
  repeat' first
    | (with_reducible first
        | assumption | refine ite_keeps ?_ ?_ | intro _)
    | dsimp only | split
    | fail_if_no_progress with_reducible refine Keeps.of_mk ?_

theorem semTry_keeps {u : State} {s : State} {p : Packet} {x2 : Nat} (h_s : Keeps u s) : KeepsOpt u (semTry s p x2) := by
  unfold semTry
  repeat' first
    | (with_reducible first
        | assumption | refine State.semResult_keeps ?_ | refine semAcquireAt_keeps ?_ | refine State.noteGrant_keeps ?_
        | refine ite_keeps ?_ ?_ | exact KeepsOpt.none | refine KeepsOpt.some ?_)
    | dsimp only | split
    | with_reducible refine KeepsOptL.get (semAcquireAt_keeps ?_) (by with_reducible assumption)
    | fail_if_no_progress with_reducible refine Keeps.of_mk ?_

theorem wakeGo_keeps {u : State} {x0 : List Waiter} {x1 : State} (h_x1 : Keeps u x1) : Keeps u (wakeGo x0 x1) := by
  induction x0 generalizing x1 with
  | nil =>
    unfold wakeGo
    repeat' first
      | with_reducible assumption
      | fail_if_no_progress with_reducible refine Keeps.of_mk ?_
  | cons aa rr ih =>
    unfold wakeGo
    try dsimp only
    repeat' first
      | (with_reducible first
          | assumption | refine ih ?_ | refine semTry_keeps ?_ | refine State.refuse_keeps ?_ | refine State.markLines_keeps ?_
          | refine KeepsOpt.getD (semTry_keeps ?_) ?_ | refine ite_keeps ?_ ?_ | intro _)
      | dsimp only | split
      | (with_reducible first
          | refine KeepsOpt.get (iteOpt_keeps KeepsOpt.none (semTry_keeps ?_)) (by with_reducible assumption)
          | refine KeepsOpt.get (semTry_keeps ?_) (by with_reducible assumption))
      | fail_if_no_progress with_reducible refine Keeps.of_mk ?_

theorem State.wakeWaiters_keeps {u : State} {s : State} (h_s : Keeps u s) : Keeps u (State.wakeWaiters s) := by
  unfold State.wakeWaiters
  repeat' first
    | (with_reducible first
        | assumption | refine wakeGo_keeps ?_)
    | fail_if_no_progress with_reducible refine Keeps.of_mk ?_

theorem servedLines_keeps {u : State} {s : State} {p : Packet} {len : Nat} {go : GazEntry → Nat → State}
    (h_s : Keeps u s) (h_go : ∀ y0 y1, Keeps u (go y0 y1)) : Keeps u (servedLines s p len go) := by
  unfold servedLines
  repeat' first
    | (with_reducible first
        | assumption | refine State.refuse_keeps ?_ | apply h_go | refine ite_keeps ?_ ?_ | intro _)
    | dsimp only | split
    | fail_if_no_progress with_reducible refine Keeps.of_mk ?_

theorem State.readPoison_keeps {u : State} {s : State} {p : Packet} {x2 : Nat} {bad : List Nat}
    (h_s : Keeps u s) : Keeps u (State.readPoison s p x2 bad) := by
  unfold State.readPoison
  repeat' first
    | (with_reducible first
        | assumption | refine State.raise_keeps ?_ | refine foldl_keeps ?_ ?_ | refine foldl_snd_keeps ?_ ?_ | intro _)
    | fail_if_no_progress with_reducible refine Keeps.of_mk ?_

theorem State.readAnswer_keeps {u : State} {s : State} {p : Packet} {x2 : Nat} {len : Nat}
    (h_s : Keeps u s) : Keeps u (State.readAnswer s p x2 len) := by
  unfold State.readAnswer
  repeat' first
    | (with_reducible first
        | assumption | refine State.sendPacket_keeps ?_ | refine State.readPoison_keeps ?_)
    | fail_if_no_progress with_reducible refine Keeps.of_mk ?_

theorem execChartRead_keeps {u : State} {p : Packet} {s : State} (h_s : Keeps u s) : KeepsOut u (execChartRead p s) := by
  unfold execChartRead
  repeat' first
    | (with_reducible first
        | assumption | refine arrive_keeps ?_ ?_ | refine servedLines_keeps ?_ ?_ | refine State.readAnswer_keeps ?_
        | refine State.meet_keeps ?_ | refine KeepsOut.next ?_ | intro _)
    | fail_if_no_progress with_reducible refine Keeps.of_mk ?_

theorem execChartWrite_keeps {u : State} {p : Packet} {s : State} (h_s : Keeps u s) : KeepsOut u (execChartWrite p s) := by
  unfold execChartWrite
  repeat' first
    | (with_reducible first
        | assumption | refine arrive_keeps ?_ ?_ | refine filtered_keeps ?_ ?_ | refine servedLines_keeps ?_ ?_
        | refine State.applied_keeps ?_ | refine State.markLines_keeps ?_ | refine State.extWrite_keeps ?_ | refine KeepsOut.next ?_
        | intro _)
    | fail_if_no_progress with_reducible refine Keeps.of_mk ?_

theorem execAdd32_keeps {u : State} {p : Packet} {s : State} (h_s : Keeps u s) : KeepsOut u (execAdd32 p s) := by
  unfold execAdd32
  repeat' first
    | (with_reducible first
        | assumption | refine arrive_keeps ?_ ?_ | refine filtered_keeps ?_ ?_ | refine servedLines_keeps ?_ ?_
        | refine State.applied_keeps ?_ | refine State.markLines_keeps ?_ | refine State.poisonAt_keeps ?_
        | refine State.extAdd_keeps ?_ | refine KeepsOut.next ?_ | intro _)
    | fail_if_no_progress with_reducible refine Keeps.of_mk ?_

theorem semArrive_keeps {u : State} {op : Nat} {p : Packet} {s : State} (h_s : Keeps u s) : KeepsOut u (semArrive op p s) := by
  unfold semArrive
  repeat' first
    | (with_reducible first
        | assumption | refine arrive_keeps ?_ ?_ | refine served_keeps ?_ ?_ | refine State.meet_keeps ?_ | refine semTry_keeps ?_
        | refine State.markLines_keeps ?_ | refine State.refuse_keeps ?_ | refine KeepsOpt.getD (semTry_keeps ?_) ?_
        | refine ite_keeps ?_ ?_ | refine iteOut_keeps ?_ ?_ | refine KeepsOut.next ?_ | intro _)
    | dsimp only | split
    | (with_reducible first
        | refine KeepsOpt.get (iteOpt_keeps KeepsOpt.none (semTry_keeps ?_)) (by with_reducible assumption)
        | refine KeepsOpt.get (semTry_keeps ?_) (by with_reducible assumption))
    | fail_if_no_progress with_reducible refine Keeps.of_mk ?_

theorem execChartSemWait_keeps {u : State} {p : Packet} {s : State} (h_s : Keeps u s) : KeepsOut u (execChartSemWait p s) := by
  unfold execChartSemWait
  repeat' first
    | (with_reducible first
        | assumption | refine semArrive_keeps ?_ | refine KeepsOut.next ?_)
    | fail_if_no_progress with_reducible refine Keeps.of_mk ?_

theorem execChartSemAcquire_keeps {u : State} {p : Packet} {s : State} (h_s : Keeps u s) : KeepsOut u (execChartSemAcquire p s) := by
  unfold execChartSemAcquire
  repeat' first
    | (with_reducible first
        | assumption | refine semArrive_keeps ?_ | refine KeepsOut.next ?_)
    | fail_if_no_progress with_reducible refine Keeps.of_mk ?_

theorem execSemCancel_keeps {u : State} {p : Packet} {s : State} (h_s : Keeps u s) : KeepsOut u (execSemCancel p s) := by
  unfold execSemCancel
  repeat' first
    | (with_reducible first
        | assumption | refine arrive_keeps ?_ ?_ | refine served_keeps ?_ ?_ | refine State.markLines_keeps ?_
        | refine State.semFree_keeps ?_ | refine State.sendPacket_keeps ?_ | refine ite_keeps ?_ ?_ | refine iteOut_keeps ?_ ?_
        | refine KeepsOut.next ?_ | intro _)
    | dsimp only | split
    | fail_if_no_progress with_reducible refine Keeps.of_mk ?_

theorem execChartSemRelease_keeps {u : State} {p : Packet} {s : State} (h_s : Keeps u s) : KeepsOut u (execChartSemRelease p s) := by
  unfold execChartSemRelease
  repeat' first
    | (with_reducible first
        | assumption | refine arrive_keeps ?_ ?_ | refine filtered_keeps ?_ ?_ | refine served_keeps ?_ ?_
        | refine State.applied_keeps ?_ | refine State.markLines_keeps ?_ | refine State.semFree_keeps ?_ | refine ite_keeps ?_ ?_
        | refine iteOut_keeps ?_ ?_ | refine KeepsOut.next ?_ | intro _)
    | dsimp only | split
    | fail_if_no_progress with_reducible refine Keeps.of_mk ?_

theorem execSemHoldExpiry_keeps {u : State} {i : Nat} {s : State} (h_s : Keeps u s) : KeepsOut u (execSemHoldExpiry i s) := by
  unfold execSemHoldExpiry
  repeat' first
    | (with_reducible first
        | assumption | refine act_keeps ?_ ?_ | refine State.refuse_keeps ?_ | refine KeepsOut.next ?_)
    | dsimp only | split
    | fail_if_no_progress with_reducible refine Keeps.of_mk ?_

theorem execDuplicateWindowExpiry_keeps {u : State} {s : State} (h_s : Keeps u s) : KeepsOut u (execDuplicateWindowExpiry s) := by
  unfold execDuplicateWindowExpiry
  repeat' first
    | (with_reducible first
        | assumption | refine act_keeps ?_ ?_ | refine KeepsOut.next ?_ | intro _)
    | fail_if_no_progress with_reducible refine Keeps.of_mk ?_

/-! ### Machine/Tickets.lean -/

theorem State.sendAbort_keeps {u : State} {s : State} {part : Nat} {dst : Nat} {id : Nat} {name : Nat}
    (h_s : Keeps u s) : Keeps u (State.sendAbort s part dst id name) := by
  unfold State.sendAbort
  repeat' first
    | (with_reducible first
        | assumption | refine State.sendDir_keeps ?_ | refine id_keeps ?_)
    | fail_if_no_progress with_reducible refine Keeps.of_mk ?_

theorem State.dropReqs_keeps {u : State} {s : State} {f : ReqKind → Bool} (h_s : Keeps u s) : Keeps u (State.dropReqs s f) := by
  unfold State.dropReqs
  repeat' first
    | (with_reducible first
        | assumption | refine State.setAside_keeps ?_ | intro _)
    | fail_if_no_progress with_reducible refine Keeps.of_mk ?_

theorem State.freeOut_keeps {u : State} {s : State} {t : OutTicket} (h_s : Keeps u s) : Keeps u (State.freeOut s t) := by
  unfold State.freeOut
  repeat' first
    | (with_reducible first
        | assumption | refine State.dropDirs_keeps ?_ | refine State.dropReqs_keeps ?_ | refine State.showGaz_keeps ?_
        | refine State.modGaz_keeps ?_ | intro _)
    | fail_if_no_progress with_reducible refine Keeps.of_mk ?_

theorem State.landed_keeps {u : State} {s : State} {t : OutTicket} {home : Nat}
    (h_s : Keeps u s) : Keeps u (State.landed s t home) := by
  unfold State.landed
  repeat' first
    | (with_reducible first
        | assumption | refine State.sendDir_keeps ?_ | refine id_keeps ?_)
    | dsimp only | split
    | fail_if_no_progress with_reducible refine Keeps.of_mk ?_

theorem State.ticketDone_keeps {u : State} {s : State} {t : OutTicket} {status : Nat}
    (h_s : Keeps u s) : Keeps u (State.ticketDone s t status) := by
  unfold State.ticketDone
  repeat' first
    | (with_reducible first
        | assumption | refine State.sendDir_keeps ?_ | refine id_keeps ?_)
    | fail_if_no_progress with_reducible refine Keeps.of_mk ?_

theorem State.endTicket_keeps {u : State} {s : State} {t : OutTicket} {status : Nat}
    (h_s : Keeps u s) : Keeps u (State.endTicket s t status) := by
  unfold State.endTicket
  repeat' first
    | (with_reducible first
        | assumption | refine State.releaseSlot_keeps ?_ | refine State.freeOut_keeps ?_ | refine State.landed_keeps ?_
        | refine State.ticketDone_keeps ?_)
    | dsimp only | split
    | fail_if_no_progress with_reducible refine Keeps.of_mk ?_

theorem State.failTicket_keeps {u : State} {s : State} {t : OutTicket} (h_s : Keeps u s) : Keeps u (State.failTicket s t) := by
  unfold State.failTicket
  repeat' first
    | (with_reducible first
        | assumption | refine State.sendAbort_keeps ?_ | refine State.endTicket_keeps ?_ | refine id_keeps ?_ | refine ite_keeps ?_ ?_)
    | dsimp only | split
    | fail_if_no_progress with_reducible refine Keeps.of_mk ?_

theorem State.modRing_keeps {u : State} {s : State} {index : Nat} {f : RingEnt → RingEnt}
    (h_s : Keeps u s) : Keeps u (State.modRing s index f) := by
  unfold State.modRing
  repeat' first
    | (with_reducible first
        | assumption | refine ite_keeps ?_ ?_ | intro _)
    | dsimp only | split
    | fail_if_no_progress with_reducible refine Keeps.of_mk ?_

theorem ringHead_keeps {u : State} {x0 : List RingEnt} {x1 : State} (h_x1 : Keeps u x1) : Keeps u (ringHead x0 x1) := by
  induction x0 generalizing x1 with
  | nil =>
    unfold ringHead
    repeat' first
      | with_reducible assumption
      | fail_if_no_progress with_reducible refine Keeps.of_mk ?_
  | cons aa rr ih =>
    unfold ringHead
    try dsimp only
    repeat' first
      | (with_reducible first
          | assumption | refine ih ?_ | refine State.bump_keeps ?_ | refine ite_keeps ?_ ?_ | intro _)
      | dsimp only | split
      | fail_if_no_progress with_reducible refine Keeps.of_mk ?_

theorem State.ringFinal_keeps {u : State} {s : State} {index : Nat} {status : Nat} {epoch : Nat}
    (h_s : Keeps u s) : Keeps u (State.ringFinal s index status epoch) := by
  unfold State.ringFinal
  repeat' first
    | (with_reducible first
        | assumption | refine State.wrLE_keeps ?_ | refine State.modRing_keeps ?_ | refine ringHead_keeps ?_ | intro _)
    | fail_if_no_progress with_reducible refine Keeps.of_mk ?_

theorem State.ticketRecord_keeps {u : State} {s : State} {code : Nat} {name : Nat} {id : Nat} {other : Nat}
    (h_s : Keeps u s) : Keeps u (State.ticketRecord s code name id other) := by
  unfold State.ticketRecord
  repeat' first
    | (with_reducible first
        | assumption | refine State.raise_keeps ?_ | refine id_keeps ?_ | refine ite_keeps ?_ ?_)
    | dsimp only | split
    | fail_if_no_progress with_reducible refine Keeps.of_mk ?_

theorem State.sourceDoubt_keeps {u : State} {s : State} {t : OutTicket} (h_s : Keeps u s) : Keeps u (State.sourceDoubt s t) := by
  unfold State.sourceDoubt
  repeat' first
    | (with_reducible first
        | assumption | refine State.ticketRecord_keeps ?_ | refine State.modGaz_keeps ?_ | refine State.dropDirs_keeps ?_
        | refine id_keeps ?_ | intro _)
    | fail_if_no_progress with_reducible refine Keeps.of_mk ?_

theorem State.destDoubt_keeps {u : State} {s : State} {t : InTicket} (h_s : Keeps u s) : Keeps u (State.destDoubt s t) := by
  unfold State.destDoubt
  repeat' first
    | (with_reducible first
        | assumption | refine State.ticketRecord_keeps ?_ | refine State.modGaz_keeps ?_ | refine State.dropDirs_keeps ?_
        | refine id_keeps ?_ | intro _)
    | fail_if_no_progress with_reducible refine Keeps.of_mk ?_

theorem State.releaseRefused_keeps {u : State} {s : State} {t : OutTicket} (h_s : Keeps u s) : Keeps u (State.releaseRefused s t) := by
  unfold State.releaseRefused
  repeat' first
    | (with_reducible first
        | assumption | refine State.freeOut_keeps ?_ | refine State.modGaz_keeps ?_ | refine State.ticketRecord_keeps ?_
        | refine State.pointerUpdate_keeps ?_ | refine id_keeps ?_ | refine ite_keeps ?_ ?_ | intro _)
    | dsimp only | split
    | fail_if_no_progress with_reducible refine Keeps.of_mk ?_

theorem State.freeIn_keeps {u : State} {s : State} {t : InTicket} (h_s : Keeps u s) : Keeps u (State.freeIn s t) := by
  unfold State.freeIn
  repeat' first
    | (with_reducible first
        | assumption | refine State.showGaz_keeps ?_ | refine State.dropDirs_keeps ?_ | intro _)
    | fail_if_no_progress with_reducible refine Keeps.of_mk ?_

theorem State.restore_keeps {u : State} {s : State} {t : InTicket} (h_s : Keeps u s) : Keeps u (State.restore s t) := by
  unfold State.restore
  repeat' first
    | (with_reducible first
        | assumption | refine State.freeIn_keeps ?_ | refine State.releaseSlot_keeps ?_ | refine State.modGaz_keeps ?_
        | refine State.freeGaz_keeps ?_ | refine ite_keeps ?_ ?_ | intro _)
    | dsimp only | split
    | fail_if_no_progress with_reducible refine Keeps.of_mk ?_

theorem State.gazKeep_keeps {u : State} {s : State} {name : Nat} (h_s : Keeps u s) : Keeps u (State.gazKeep s name) := by
  unfold State.gazKeep
  repeat' first
    | (with_reducible first
        | assumption | refine State.gazEnd_keeps ?_ | refine State.modGaz_keeps ?_ | refine State.freeOut_keeps ?_
        | refine State.freeIn_keeps ?_ | refine State.pointerUpdate_keeps ?_ | refine ite_keeps ?_ ?_ | intro _)
    | dsimp only | split
    | fail_if_no_progress with_reducible refine Keeps.of_mk ?_

theorem State.settle_keeps {u : State} {s : State} {t : OutTicket} (h_s : Keeps u s) : Keeps u (State.settle s t) := by
  unfold State.settle
  repeat' first
    | (with_reducible first
        | assumption | refine State.freeOut_keeps ?_ | refine State.modGaz_keeps ?_ | refine State.releaseSlot_keeps ?_ | intro _)
    | dsimp only | split
    | fail_if_no_progress with_reducible refine Keeps.of_mk ?_

theorem State.gazGone_keeps {u : State} {s : State} {name : Nat} (h_s : Keeps u s) : Keeps u (State.gazGone s name) := by
  unfold State.gazGone
  repeat' first
    | (with_reducible first
        | assumption | refine State.gazEnd_keeps ?_ | refine State.settle_keeps ?_ | refine State.restore_keeps ?_
        | refine ite_keeps ?_ ?_)
    | dsimp only | split
    | fail_if_no_progress with_reducible refine Keeps.of_mk ?_

theorem State.track_keeps {u : State} {s : State} {p : Packet} {kind : ReqKind}
    (h_s : Keeps u s) : Keeps u (State.track s p kind) := by
  unfold State.track
  repeat' first
    | (with_reducible first
        | assumption | refine State.sendPacket_keeps ?_)
    | fail_if_no_progress with_reducible refine Keeps.of_mk ?_

theorem execResolveKeep_keeps {u : State} {name : BitVec 43} {s : State} (h_s : Keeps u s) : KeepsOut u (execResolveKeep name s) := by
  unfold execResolveKeep
  repeat' first
    | (with_reducible first
        | assumption | refine gazOp_keeps ?_ ?_ | refine State.gazKeep_keeps ?_ | refine KeepsOut.next ?_ | intro _)
    | fail_if_no_progress with_reducible refine Keeps.of_mk ?_

theorem execResolveGone_keeps {u : State} {name : BitVec 43} {s : State} (h_s : Keeps u s) : KeepsOut u (execResolveGone name s) := by
  unfold execResolveGone
  repeat' first
    | (with_reducible first
        | assumption | refine gazOp_keeps ?_ ?_ | refine State.gazGone_keeps ?_ | refine KeepsOut.next ?_ | intro _)
    | fail_if_no_progress with_reducible refine Keeps.of_mk ?_

theorem State.sendBlock_keeps {u : State} {s0 : State} {t : OutTicket} {b : Nat}
    (h_s0 : Keeps u s0) : KeepsOpt u (State.sendBlock s0 t b) := by
  unfold State.sendBlock
  dsimp only
  split
  · exact KeepsOpt.some h_s0
  · split
    · exact KeepsOpt.some (State.wrote_keeps (State.poisonAt_keeps (State.wrBytes_keeps (State.meet_keeps h_s0))))
    · exact KeepsOptR.mapTo (State.freshTag_keeps (State.meet_keeps h_s0))
        (fun _ _ ht => State.track_keeps (KeepsR.snd (State.freshNonce_keeps ht)))

theorem State.modOut_keeps {u : State} {s : State} {slot : Nat} {f : OutTicket → OutTicket}
    (h_s : Keeps u s) : Keeps u (State.modOut s slot f) := by
  unfold State.modOut
  repeat' first
    | (with_reducible first
        | assumption | refine ite_keeps ?_ ?_ | intro _)
    | dsimp only | split
    | fail_if_no_progress with_reducible refine Keeps.of_mk ?_

theorem State.sendCommit_keeps {u : State} {s : State} {t : OutTicket} (h_s : Keeps u s) : Keeps u (State.sendCommit s t) := by
  unfold State.sendCommit
  repeat' first
    | (with_reducible first
        | assumption | refine State.sendDir_keeps ?_ | refine id_keeps ?_)
    | fail_if_no_progress with_reducible refine Keeps.of_mk ?_

theorem State.moveHere_keeps {u : State} {s : State} {t : OutTicket} {base : Nat}
    (h_s : Keeps u s) : Keeps u (State.moveHere s t base) := by
  unfold State.moveHere
  repeat' first
    | (with_reducible first
        | assumption | refine State.modGaz_keeps ?_ | refine State.releaseSlot_keeps ?_ | refine State.pointerUpdate_keeps ?_
        | refine State.freeOut_keeps ?_ | refine State.landed_keeps ?_ | refine State.ticketDone_keeps ?_ | intro _)
    | dsimp only | split
    | fail_if_no_progress with_reducible refine Keeps.of_mk ?_

theorem resendMarked_keeps {u : State} {slot : Nat} {x1 : List Nat} {x2 : State}
    (h_x2 : Keeps u x2) : Keeps u (resendMarked slot x1 x2) := by
  induction x1 generalizing x2 with
  | nil =>
    unfold resendMarked
    split
    · split
      · exact State.moveHere_keeps h_x2
      · exact State.sendCommit_keeps h_x2
    · exact h_x2
  | cons b r ih =>
    unfold resendMarked
    split
    · exact h_x2
    · split
      · rename_i hu
        exact ih (State.modOut_keeps (KeepsOpt.get (State.sendBlock_keeps h_x2) hu))
      · exact h_x2

theorem State.freeze_keeps {u : State} {s : State} {t : OutTicket} (h_s : Keeps u s) : Keeps u (State.freeze s t) := by
  unfold State.freeze
  repeat' first
    | (with_reducible first
        | assumption | refine resendMarked_keeps ?_ | refine State.modOut_keeps ?_ | intro _)
    | fail_if_no_progress with_reducible refine Keeps.of_mk ?_

theorem State.blockDone_keeps {u : State} {s : State} {slot : Nat} (h_s : Keeps u s) : Keeps u (State.blockDone s slot) := by
  unfold State.blockDone
  repeat' first
    | (with_reducible first
        | assumption | refine State.freeze_keeps ?_ | refine ite_keeps ?_ ?_ | intro _)
    | dsimp only | split
    | fail_if_no_progress with_reducible refine Keeps.of_mk ?_

theorem State.nextBlock_keeps {u : State} {s : State} {t : OutTicket} (h_s : Keeps u s) : Keeps u (State.nextBlock s t) := by
  unfold State.nextBlock
  repeat' first
    | (with_reducible first
        | assumption | refine resendMarked_keeps ?_ | refine State.sendBlock_keeps ?_ | refine State.modOut_keeps ?_
        | refine State.blockDone_keeps ?_ | refine KeepsOpt.getD (State.sendBlock_keeps ?_) ?_ | refine ite_keeps ?_ ?_ | intro _)
    | dsimp only | split
    | (with_reducible first
        | refine KeepsOpt.get (iteOpt_keeps KeepsOpt.none (State.sendBlock_keeps ?_)) (by with_reducible assumption)
        | refine KeepsOpt.get (State.sendBlock_keeps ?_) (by with_reducible assumption))
    | fail_if_no_progress with_reducible refine Keeps.of_mk ?_

theorem State.heard_keeps {u : State} {s : State} {id : Nat} (h_s : Keeps u s) : Keeps u (State.heard s id) := by
  unfold State.heard
  repeat' first
    | (with_reducible first
        | assumption | refine id_keeps ?_ | refine ite_keeps ?_ ?_ | intro _)
    | dsimp only | split
    | fail_if_no_progress with_reducible refine Keeps.of_mk ?_

theorem execParcelData_keeps {u : State} {p : Packet} {s : State} (h_s : Keeps u s) : KeepsOut u (execParcelData p s) := by
  unfold execParcelData
  repeat' first
    | (with_reducible first
        | assumption | refine arrive_keeps ?_ ?_ | refine filtered_keeps ?_ ?_ | refine State.refuse_keeps ?_
        | refine State.heard_keeps ?_ | refine State.wrote_keeps ?_ | refine State.poisonAt_keeps ?_ | refine State.wrBytes_keeps ?_
        | refine State.applied_keeps ?_ | refine id_keeps ?_ | refine ite_keeps ?_ ?_ | refine iteOut_keeps ?_ ?_
        | refine KeepsOut.next ?_ | intro _)
    | dsimp only | split
    | fail_if_no_progress with_reducible refine Keeps.of_mk ?_

theorem State.reqActive_keeps {u : State} {s : State} {p : Packet} {t : OutTicket}
    (h_s : Keeps u s) : Keeps u (State.reqActive s p t) := by
  unfold State.reqActive
  repeat' first
    | (with_reducible first
        | assumption | refine State.dirAck_keeps ?_ | refine State.modOut_keeps ?_ | refine ite_keeps ?_ ?_ | intro _)
    | dsimp only | split
    | fail_if_no_progress with_reducible refine Keeps.of_mk ?_

theorem State.grant_keeps {u : State} {s : State} {p : Packet} {slot : Nat} (h_s : Keeps u s) : Keeps u (State.grant s p slot) := by
  unfold State.grant
  repeat' first
    | (with_reducible first
        | assumption | refine State.modGaz_keeps ?_ | refine State.sendDir_keeps ?_ | refine State.popHost_keeps ?_
        | refine State.showGaz_keeps ?_ | refine State.modOut_keeps ?_ | refine State.endTicket_keeps ?_ | refine id_keeps ?_
        | refine ite_keeps ?_ ?_ | intro _)
    | dsimp only | split
    | (with_reducible first
        | refine KeepsOptR.get (iteOptR_keeps KeepsOptR.none (State.popHost_keeps ?_)) (by with_reducible assumption)
        | refine KeepsOptR.get (State.popHost_keeps ?_) (by with_reducible assumption))
    | fail_if_no_progress with_reducible refine Keeps.of_mk ?_

theorem State.reqIdle_keeps {u : State} {s : State} {p : Packet} {e : GazEntry} (h_s : Keeps u s) : Keeps u (State.reqIdle s p e) := by
  unfold State.reqIdle
  repeat' first
    | (with_reducible first
        | assumption | refine State.ticketDone_keeps ?_ | refine State.dirAck_keeps ?_ | refine State.grant_keeps ?_
        | refine id_keeps ?_ | refine ite_keeps ?_ ?_)
    | dsimp only | split
    | fail_if_no_progress with_reducible refine Keeps.of_mk ?_

theorem execTicketReq_keeps {u : State} {p : Packet} {s : State} (h_s : Keeps u s) : KeepsOut u (execTicketReq p s) := by
  unfold execTicketReq
  repeat' first
    | (with_reducible first
        | assumption | refine arrive_keeps ?_ ?_ | refine State.dirAck_keeps ?_ | refine State.reqActive_keeps ?_
        | refine State.reqIdle_keeps ?_ | refine State.sendPacket_keeps ?_ | refine ite_keeps ?_ ?_ | refine iteOut_keeps ?_ ?_
        | refine KeepsOut.next ?_ | intro _)
    | dsimp only | split
    | fail_if_no_progress with_reducible refine Keeps.of_mk ?_

theorem State.ticketAnswer_keeps {u : State} {s : State} {p : Packet} {st : Nat}
    (h_s : Keeps u s) : Keeps u (State.ticketAnswer s p st) := by
  unfold State.ticketAnswer
  repeat' first
    | (with_reducible first
        | assumption | refine State.sendPacket_keeps ?_)
    | fail_if_no_progress with_reducible refine Keeps.of_mk ?_

theorem State.receive_keeps {u : State} {s : State} {p : Packet} {b : Nat} {slot : Nat}
    (h_s : Keeps u s) : Keeps u (State.receive s p b slot) := by
  unfold State.receive
  repeat' first
    | (with_reducible first
        | assumption | refine State.modGaz_keeps ?_ | refine State.addGaz_keeps ?_ | refine State.ticketAnswer_keeps ?_
        | refine State.showGaz_keeps ?_ | refine KeepsOpt.getD (State.addGaz_keeps ?_) ?_ | refine id_keeps ?_ | refine ite_keeps ?_ ?_
        | intro _)
    | dsimp only | split
    | (with_reducible first
        | refine KeepsOpt.get (iteOpt_keeps KeepsOpt.none (State.addGaz_keeps ?_)) (by with_reducible assumption)
        | refine KeepsOpt.get (State.addGaz_keeps ?_) (by with_reducible assumption))
    | fail_if_no_progress with_reducible refine Keeps.of_mk ?_

theorem execTicketOffer_keeps {u : State} {p : Packet} {s : State} (h_s : Keeps u s) : KeepsOut u (execTicketOffer p s) := by
  unfold execTicketOffer
  repeat' first
    | (with_reducible first
        | assumption | refine arrive_keeps ?_ ?_ | refine State.ticketAnswer_keeps ?_ | refine State.heard_keeps ?_
        | refine State.popHost_keeps ?_ | refine State.receive_keeps ?_ | refine State.flag_keeps ?_ | refine ite_keeps ?_ ?_
        | refine iteOut_keeps ?_ ?_ | refine KeepsOut.next ?_ | intro _)
    | dsimp only | split
    | (with_reducible first
        | refine KeepsOptR.get (iteOptR_keeps KeepsOptR.none (State.popHost_keeps ?_)) (by with_reducible assumption)
        | refine KeepsOptR.get (State.popHost_keeps ?_) (by with_reducible assumption))
    | fail_if_no_progress with_reducible refine Keeps.of_mk ?_

theorem execTicketAnswer_keeps {u : State} {p : Packet} {s : State} (h_s : Keeps u s) : KeepsOut u (execTicketAnswer p s) := by
  unfold execTicketAnswer
  repeat' first
    | (with_reducible first
        | assumption | refine arrive_keeps ?_ ?_ | refine State.modOut_keeps ?_ | refine State.dropDirs_keeps ?_
        | refine State.endTicket_keeps ?_ | refine State.sendAbort_keeps ?_ | refine ite_keeps ?_ ?_ | refine iteOut_keeps ?_ ?_
        | refine KeepsOut.next ?_ | intro _)
    | dsimp only | split
    | fail_if_no_progress with_reducible refine Keeps.of_mk ?_

theorem execCommit_keeps {u : State} {p : Packet} {s : State} (h_s : Keeps u s) : KeepsOut u (execCommit p s) := by
  unfold execCommit
  repeat' first
    | (with_reducible first
        | assumption | refine arrive_keeps ?_ ?_ | refine State.nack_keeps ?_ | refine State.heard_keeps ?_
        | refine State.modGaz_keeps ?_ | refine State.sendPacket_keeps ?_ | refine id_keeps ?_ | refine ite_keeps ?_ ?_
        | refine iteOut_keeps ?_ ?_ | refine KeepsOut.next ?_ | intro _)
    | dsimp only | split
    | fail_if_no_progress with_reducible refine Keeps.of_mk ?_

theorem State.forwardParcel_keeps {u : State} {s : State} {t : OutTicket} (h_s : Keeps u s) : Keeps u (State.forwardParcel s t) := by
  unfold State.forwardParcel
  repeat' first
    | (with_reducible first
        | assumption | refine State.dropDirs_keeps ?_ | refine State.dropReqs_keeps ?_ | refine State.modGaz_keeps ?_
        | refine State.modOut_keeps ?_ | refine State.sendDir_keeps ?_ | refine State.pointerUpdate_keeps ?_
        | refine State.landed_keeps ?_ | refine State.ticketDone_keeps ?_ | refine id_keeps ?_ | intro _)
    | dsimp only | split
    | fail_if_no_progress with_reducible refine Keeps.of_mk ?_

theorem execPrepared_keeps {u : State} {p : Packet} {s : State} (h_s : Keeps u s) : KeepsOut u (execPrepared p s) := by
  unfold execPrepared
  repeat' first
    | (with_reducible first
        | assumption | refine arrive_keeps ?_ ?_ | refine State.forwardParcel_keeps ?_ | refine State.sendAbort_keeps ?_
        | refine ite_keeps ?_ ?_ | refine iteOut_keeps ?_ ?_ | refine KeepsOut.next ?_ | intro _)
    | dsimp only | split
    | fail_if_no_progress with_reducible refine Keeps.of_mk ?_

theorem State.becomeHome_keeps {u : State} {s : State} {t : InTicket} {p : Packet}
    (h_s : Keeps u s) : Keeps u (State.becomeHome s t p) := by
  unfold State.becomeHome
  repeat' first
    | (with_reducible first
        | assumption | refine State.modGaz_keeps ?_ | refine State.freeIn_keeps ?_ | refine State.sendPacket_keeps ?_
        | refine id_keeps ?_ | intro _)
    | fail_if_no_progress with_reducible refine Keeps.of_mk ?_

theorem execChartRelease_keeps {u : State} {p : Packet} {s : State} (h_s : Keeps u s) : KeepsOut u (execChartRelease p s) := by
  unfold execChartRelease
  repeat' first
    | (with_reducible first
        | assumption | refine arrive_keeps ?_ ?_ | refine State.nack_keeps ?_ | refine State.becomeHome_keeps ?_
        | refine State.sendPacket_keeps ?_ | refine ite_keeps ?_ ?_ | refine iteOut_keeps ?_ ?_ | refine KeepsOut.next ?_ | intro _)
    | dsimp only | split
    | fail_if_no_progress with_reducible refine Keeps.of_mk ?_

theorem execReleaseAck_keeps {u : State} {p : Packet} {s : State} (h_s : Keeps u s) : KeepsOut u (execReleaseAck p s) := by
  unfold execReleaseAck
  repeat' first
    | (with_reducible first
        | assumption | refine arrive_keeps ?_ ?_ | refine State.settle_keeps ?_ | refine ite_keeps ?_ ?_ | refine iteOut_keeps ?_ ?_
        | refine KeepsOut.next ?_ | intro _)
    | dsimp only | split
    | fail_if_no_progress with_reducible refine Keeps.of_mk ?_

theorem execAbort_keeps {u : State} {p : Packet} {s : State} (h_s : Keeps u s) : KeepsOut u (execAbort p s) := by
  unfold execAbort
  repeat' first
    | (with_reducible first
        | assumption | refine arrive_keeps ?_ ?_ | refine State.dirAck_keeps ?_ | refine State.restore_keeps ?_
        | refine ite_keeps ?_ ?_ | refine iteOut_keeps ?_ ?_ | refine KeepsOut.next ?_ | intro _)
    | dsimp only | split
    | fail_if_no_progress with_reducible refine Keeps.of_mk ?_

theorem execStatusQuery_keeps {u : State} {p : Packet} {s : State} (h_s : Keeps u s) : KeepsOut u (execStatusQuery p s) := by
  unfold execStatusQuery
  repeat' first
    | (with_reducible first
        | assumption | refine arrive_keeps ?_ ?_ | refine State.sendPacket_keeps ?_ | refine ite_keeps ?_ ?_
        | refine iteOut_keeps ?_ ?_ | refine KeepsOut.next ?_ | intro _)
    | dsimp only | split
    | fail_if_no_progress with_reducible refine Keeps.of_mk ?_

theorem execStatusAnswer_keeps {u : State} {p : Packet} {s : State} (h_s : Keeps u s) : KeepsOut u (execStatusAnswer p s) := by
  unfold execStatusAnswer
  repeat' first
    | (with_reducible first
        | assumption | refine arrive_keeps ?_ ?_ | refine State.modDir_keeps ?_ | refine State.becomeHome_keeps ?_
        | refine State.restore_keeps ?_ | refine ite_keeps ?_ ?_ | refine iteOut_keeps ?_ ?_ | refine KeepsOut.next ?_ | intro _)
    | dsimp only | split
    | fail_if_no_progress with_reducible refine Keeps.of_mk ?_

theorem execPointerUpdate_keeps {u : State} {p : Packet} {s : State} (h_s : Keeps u s) : KeepsOut u (execPointerUpdate p s) := by
  unfold execPointerUpdate
  repeat' first
    | (with_reducible first
        | assumption | refine arrive_keeps ?_ ?_ | refine State.dirAck_keeps ?_ | refine State.modGaz_keeps ?_ | refine ite_keeps ?_ ?_
        | refine iteOut_keeps ?_ ?_ | refine KeepsOut.next ?_ | intro _)
    | dsimp only | split
    | fail_if_no_progress with_reducible refine Keeps.of_mk ?_

theorem execFreed_keeps {u : State} {p : Packet} {s : State} (h_s : Keeps u s) : KeepsOut u (execFreed p s) := by
  unfold execFreed
  repeat' first
    | (with_reducible first
        | assumption | refine arrive_keeps ?_ ?_ | refine State.dirAck_keeps ?_ | refine State.freeGaz_keeps ?_
        | refine ite_keeps ?_ ?_ | refine iteOut_keeps ?_ ?_ | refine KeepsOut.next ?_ | intro _)
    | dsimp only | split
    | fail_if_no_progress with_reducible refine Keeps.of_mk ?_

theorem execTicketDone_keeps {u : State} {p : Packet} {s : State} (h_s : Keeps u s) : KeepsOut u (execTicketDone p s) := by
  unfold execTicketDone
  repeat' first
    | (with_reducible first
        | assumption | refine arrive_keeps ?_ ?_ | refine State.dirAck_keeps ?_ | refine State.ringFinal_keeps ?_
        | refine State.dropDirs_keeps ?_ | refine id_keeps ?_ | refine ite_keeps ?_ ?_ | refine iteOut_keeps ?_ ?_
        | refine KeepsOut.next ?_ | intro _)
    | dsimp only | split
    | fail_if_no_progress with_reducible refine Keeps.of_mk ?_

theorem State.askTicket_keeps {u : State} {s : State} {index : Nat} {id : Nat} {dst : Nat}
    (h_s : Keeps u s) : Keeps u (State.askTicket s index id dst) := by
  unfold State.askTicket
  repeat' first
    | (with_reducible first
        | assumption | refine State.sendDir_keeps ?_ | refine id_keeps ?_)
    | fail_if_no_progress with_reducible refine Keeps.of_mk ?_

theorem execLanded_keeps {u : State} {p : Packet} {s : State} (h_s : Keeps u s) : KeepsOut u (execLanded p s) := by
  unfold execLanded
  repeat' first
    | (with_reducible first
        | assumption | refine arrive_keeps ?_ ?_ | refine State.dirAck_keeps ?_ | refine State.askTicket_keeps ?_
        | refine State.modRing_keeps ?_ | refine id_keeps ?_ | refine ite_keeps ?_ ?_ | refine iteOut_keeps ?_ ?_
        | refine KeepsOut.next ?_ | intro _)
    | dsimp only | split
    | fail_if_no_progress with_reducible refine Keeps.of_mk ?_

theorem execTicketRingEntry_keeps {u : State} {s : State} (h_s : Keeps u s) : KeepsOut u (execTicketRingEntry s) := by
  unfold execTicketRingEntry
  repeat' first
    | (with_reducible first
        | assumption | refine State.ringFinal_keeps ?_ | refine State.target_keeps ?_ | refine State.askTicket_keeps ?_
        | refine KeepsR.snd (State.target_keeps ?_) | refine id_keeps ?_ | refine ite_keeps ?_ ?_ | refine iteOut_keeps ?_ ?_
        | refine KeepsOut.next ?_ | intro _)
    | dsimp only | split
    | (with_reducible first
        | refine KeepsR.get (State.target_keeps ?_) (by with_reducible assumption) | refine KeepsR.of ?_)
    | fail_if_no_progress with_reducible refine Keeps.of_mk ?_

theorem execReceivingTimeout_keeps {u : State} {name : BitVec 43} {s : State}
    (h_s : Keeps u s) : KeepsOut u (execReceivingTimeout name s) := by
  unfold execReceivingTimeout
  repeat' first
    | (with_reducible first
        | assumption | refine act_keeps ?_ ?_ | refine State.restore_keeps ?_ | refine KeepsOut.next ?_)
    | dsimp only | split
    | fail_if_no_progress with_reducible refine Keeps.of_mk ?_

theorem execPreparedTimeout_keeps {u : State} {name : BitVec 43} {s : State}
    (h_s : Keeps u s) : KeepsOut u (execPreparedTimeout name s) := by
  unfold execPreparedTimeout
  repeat' first
    | (with_reducible first
        | assumption | refine act_keeps ?_ ?_ | refine State.sendDir_keeps ?_ | refine id_keeps ?_ | refine KeepsOut.next ?_ | intro _)
    | dsimp only | split
    | fail_if_no_progress with_reducible refine Keeps.of_mk ?_

/-! ### Machine/Collective.lean -/

theorem State.collEnd_keeps {u : State} {s : State} {r : CollRun} (h_s : Keeps u s) : Keeps u (State.collEnd s r) := by
  unfold State.collEnd
  repeat' first
    | (with_reducible first
        | assumption | refine State.bump_keeps ?_ | refine State.showColl_keeps ?_ | refine State.completeWork_keeps ?_
        | refine State.modCore_keeps ?_ | refine ite_keeps ?_ ?_ | intro _)
    | dsimp only | split
    | fail_if_no_progress with_reducible refine Keeps.of_mk ?_

theorem State.reqBack_keeps {u : State} {s : State} {n : Nat} (h_s : Keeps u s) : Keeps u (State.reqBack s n) := by
  unfold State.reqBack
  repeat' first
    | (with_reducible first
        | assumption | refine State.put_keeps ?_)
    | fail_if_no_progress with_reducible refine Keeps.of_mk ?_

theorem State.creditBack_keeps {u : State} {s : State} {n : Nat} (h_s : Keeps u s) : Keeps u (State.creditBack s n) := by
  unfold State.creditBack
  repeat' first
    | (with_reducible first
        | assumption | refine State.put_keeps ?_)
    | fail_if_no_progress with_reducible refine Keeps.of_mk ?_

theorem State.modColl_keeps {u : State} {s : State} {c : Nat} {f : CollRun → CollRun}
    (h_s : Keeps u s) : Keeps u (State.modColl s c f) := by
  unfold State.modColl
  repeat' first
    | (with_reducible first
        | assumption | refine ite_keeps ?_ ?_ | intro _)
    | dsimp only | split
    | fail_if_no_progress with_reducible refine Keeps.of_mk ?_

theorem State.collCtl_keeps {u : State} {s : State} {n : Nat} {kind : Nat} {id : Nat} {attempt : Nat} {dst : Nat}
    (h_s : Keeps u s) : Keeps u (State.collCtl s n kind id attempt dst) := by
  unfold State.collCtl
  repeat' first
    | (with_reducible first
        | assumption | refine State.freshNonce_keeps ?_ | refine State.sendDir_keeps ?_ | refine KeepsR.snd (State.freshNonce_keeps ?_)
        | refine id_keeps ?_)
    | dsimp only | split
    | (with_reducible first
        | refine KeepsR.get (State.freshNonce_keeps ?_) (by with_reducible assumption) | refine KeepsR.of ?_)
    | fail_if_no_progress with_reducible refine Keeps.of_mk ?_

theorem State.collDone_keeps {u : State} {s : State} {core : Nat} (h_s : Keeps u s) : Keeps u (State.collDone s core) := by
  unfold State.collDone
  repeat' first
    | (with_reducible first
        | assumption | refine State.collCtl_keeps ?_ | refine State.modColl_keeps ?_ | refine id_keeps ?_ | refine ite_keeps ?_ ?_
        | intro _)
    | dsimp only | split
    | fail_if_no_progress with_reducible refine Keeps.of_mk ?_

theorem State.collStart_keeps {u : State} {s : State} {c : CoreIx} {g : Seg} {b : List Byte} {d : List Byte} {next : Nat} {prev : Nat}
    (h_s : Keeps u s) : Keeps u (State.collStart s c g b d next prev) := by
  unfold State.collStart
  repeat' first
    | (with_reducible first
        | assumption | refine Got.run_keeps ?_ ?_ | refine claimRanges_keeps ?_ | refine State.objStoreBad_keeps ?_
        | refine State.raise_keeps ?_ | refine State.issueCmd_keeps ?_ | refine State.bump_keeps ?_ | refine State.modCore_keeps ?_
        | refine State.showColl_keeps ?_ | refine State.collDone_keeps ?_ | refine State.putRec_keeps ?_ | refine id_keeps ?_
        | refine iteGot_keeps ?_ ?_ | refine KeepsGot.ofOk ?_ | intro _)
    | dsimp only | split
    | (with_reducible first
        | refine KeepsGot.ok (claimRanges_keeps ?_) (by with_reducible assumption)
        | refine KeepsGot.wait (claimRanges_keeps ?_) (by with_reducible assumption)
        | refine KeepsGot.kill (claimRanges_keeps ?_) (by with_reducible assumption))
    | fail_if_no_progress with_reducible refine Keeps.of_mk ?_

theorem execCollective_keeps {u : State} {c : CoreIx} {s : State} (h_s : Keeps u s) : KeepsOut u (execCollective c s) := by
  unfold execCollective
  repeat' first
    | (with_reducible first
        | assumption | refine State.meanwhile_keeps ?_ ?_ | refine checked_keeps ?_ ?_ | refine withRemote_keeps ?_ ?_
        | refine State.descFault_keeps ?_ | refine State.collStart_keeps ?_ | refine ite_keeps ?_ ?_ | refine iteOut_keeps ?_ ?_
        | refine KeepsOut.next ?_ | intro _)
    | dsimp only | split
    | fail_if_no_progress with_reducible refine Keeps.of_mk ?_

theorem State.sendPiece_keeps {u : State} {s : State} {r : CollRun} {ring : Nat}
    (h_s : Keeps u s) : Keeps u (State.sendPiece s r ring) := by
  unfold State.sendPiece
  repeat' first
    | (with_reducible first
        | assumption | refine State.freshTag_keeps ?_ | refine State.meetObj_keeps ?_ | refine State.freshNonce_keeps ?_
        | refine State.track_keeps ?_ | refine State.drop_keeps ?_ | refine State.modColl_keeps ?_
        | refine KeepsR.snd (State.freshNonce_keeps ?_) | refine id_keeps ?_ | refine ite_keeps ?_ ?_ | intro _)
    | dsimp only | split
    | (with_reducible first
        | refine KeepsOptR.get (iteOptR_keeps KeepsOptR.none (State.freshTag_keeps ?_)) (by with_reducible assumption)
        | refine KeepsOptR.get (State.freshTag_keeps ?_) (by with_reducible assumption)
        | refine KeepsR.get (State.freshNonce_keeps ?_) (by with_reducible assumption) | refine KeepsR.of ?_)
    | fail_if_no_progress with_reducible refine Keeps.of_mk ?_

theorem State.poisonWet_keeps {u : State} {s : State} {c : CoreIx} {ctx : Nat} {x3 : Nat}
    (h_s : Keeps u s) : Keeps u (State.poisonWet s c ctx x3) := by
  unfold State.poisonWet
  repeat' first
    | (with_reducible first
        | assumption | refine State.poison_keeps ?_)
    | dsimp only | split
    | fail_if_no_progress with_reducible refine Keeps.of_mk ?_

theorem State.landPiece_keeps {u : State} {s : State} {r : CollRun} {p : Packet} {st : Nat} {ring : Nat} {off : Nat}
    (h_s : Keeps u s) : Keeps u (State.landPiece s r p st ring off) := by
  unfold State.landPiece
  repeat' first
    | (with_reducible first
        | assumption | refine Got.run_keeps ?_ ?_ | refine claimRanges_keeps ?_ | refine State.objAdd_keeps ?_
        | refine State.objStore_keeps ?_ | refine State.poisonWet_keeps ?_ | refine State.modColl_keeps ?_
        | refine State.collDone_keeps ?_ | refine State.applied_keeps ?_ | refine State.collEnd_keeps ?_ | refine foldl_keeps ?_ ?_
        | refine foldl_snd_keeps ?_ ?_ | refine iteGot_keeps ?_ ?_ | refine KeepsGot.ofOk ?_ | refine ite_keeps ?_ ?_ | intro _)
    | dsimp only | split
    | (with_reducible first
        | refine KeepsGot.ok (claimRanges_keeps ?_) (by with_reducible assumption)
        | refine KeepsGot.wait (claimRanges_keeps ?_) (by with_reducible assumption)
        | refine KeepsGot.kill (claimRanges_keeps ?_) (by with_reducible assumption))
    | fail_if_no_progress with_reducible refine Keeps.of_mk ?_

theorem State.takePiece_keeps {u : State} {s : State} {r : CollRun} {p : Packet}
    (h_s : Keeps u s) : Keeps u (State.takePiece s r p) := by
  unfold State.takePiece
  repeat' first
    | (with_reducible first
        | assumption | refine State.sendPacket_keeps ?_ | refine State.landPiece_keeps ?_ | refine ite_keeps ?_ ?_)
    | dsimp only | split
    | fail_if_no_progress with_reducible refine Keeps.of_mk ?_

theorem State.dropBuffer_keeps {u : State} {s : State} {r : CollRun} (h_s : Keeps u s) : Keeps u (State.dropBuffer s r) := by
  unfold State.dropBuffer
  repeat' first
    | (with_reducible first
        | assumption | refine State.pushPool_keeps ?_ | refine State.put_keeps ?_ | refine State.modSeg_keeps ?_
        | refine foldl_keeps ?_ ?_ | refine foldl_snd_keeps ?_ ?_ | intro _)
    | dsimp only | split
    | fail_if_no_progress with_reducible refine Keeps.of_mk ?_

theorem State.collRestart_keeps {u : State} {s : State} {r : CollRun} {attempt : Nat}
    (h_s : Keeps u s) : Keeps u (State.collRestart s r attempt) := by
  unfold State.collRestart
  repeat' first
    | (with_reducible first
        | assumption | refine State.put_keeps ?_ | refine State.dropReqs_keeps ?_ | refine State.dropBuffer_keeps ?_
        | refine State.modColl_keeps ?_ | refine State.bump_keeps ?_ | refine State.putRec_keeps ?_ | refine id_keeps ?_ | intro _)
    | fail_if_no_progress with_reducible refine Keeps.of_mk ?_

theorem execCollData_keeps {u : State} {p : Packet} {s : State} (h_s : Keeps u s) : KeepsOut u (execCollData p s) := by
  unfold execCollData
  repeat' first
    | (with_reducible first
        | assumption | refine arrive_keeps ?_ ?_ | refine filtered_keeps ?_ ?_ | refine State.refuse_keeps ?_
        | refine State.takePiece_keeps ?_ | refine State.collRestart_keeps ?_ | refine id_keeps ?_ | refine ite_keeps ?_ ?_
        | refine iteOut_keeps ?_ ?_ | refine KeepsOut.next ?_ | intro _)
    | dsimp only | split
    | fail_if_no_progress with_reducible refine Keeps.of_mk ?_

theorem ctlArrive_keeps {u : State} {kind : Nat} {p : Packet} {s : State} {go : State → Nat → Nat → State}
    (h_s : Keeps u s) (h_go : ∀ tt y1 y2, Keeps u tt → Keeps u (go tt y1 y2)) : KeepsOut u (ctlArrive kind p s go) := by
  unfold ctlArrive
  repeat' first
    | (with_reducible first
        | assumption | refine arrive_keeps ?_ ?_ | refine State.dirAck_keeps ?_ | apply h_go | refine ite_keeps ?_ ?_
        | refine iteOut_keeps ?_ ?_ | refine KeepsOut.next ?_ | intro _)
    | dsimp only | split
    | fail_if_no_progress with_reducible refine Keeps.of_mk ?_

theorem execCollCtlAbort_keeps {u : State} {p : Packet} {s : State} (h_s : Keeps u s) : KeepsOut u (execCollCtlAbort p s) := by
  unfold execCollCtlAbort
  repeat' first
    | (with_reducible first
        | assumption | refine ctlArrive_keeps ?_ ?_ | refine State.collCtl_keeps ?_ | refine State.dirAck_keeps ?_
        | refine State.collRestart_keeps ?_ | refine State.putRec_keeps ?_ | refine id_keeps ?_ | refine ite_keeps ?_ ?_
        | refine iteOut_keeps ?_ ?_ | refine KeepsOut.next ?_ | intro _)
    | dsimp only | split
    | fail_if_no_progress with_reducible refine Keeps.of_mk ?_

theorem State.collFinal_keeps {u : State} {s0 : State} {id : Nat} {attempt : Nat} {n : Nat} {next : Option Nat}
    (h_s0 : Keeps u s0) : Keeps u (State.collFinal s0 id attempt n next) := by
  unfold State.collFinal
  repeat' first
    | (with_reducible first
        | assumption | refine State.putRec_keeps ?_ | refine State.collCtl_keeps ?_ | refine State.collEnd_keeps ?_
        | refine State.modColl_keeps ?_ | refine id_keeps ?_ | intro _)
    | dsimp only | split
    | fail_if_no_progress with_reducible refine Keeps.of_mk ?_

theorem execCollCtlDone_keeps {u : State} {p : Packet} {s : State} (h_s : Keeps u s) : KeepsOut u (execCollCtlDone p s) := by
  unfold execCollCtlDone
  repeat' first
    | (with_reducible first
        | assumption | refine ctlArrive_keeps ?_ ?_ | refine State.dirAck_keeps ?_ | refine State.collFinal_keeps ?_
        | refine State.collDone_keeps ?_ | refine State.modColl_keeps ?_ | refine id_keeps ?_ | refine ite_keeps ?_ ?_
        | refine iteOut_keeps ?_ ?_ | refine KeepsOut.next ?_ | intro _)
    | dsimp only | split
    | fail_if_no_progress with_reducible refine Keeps.of_mk ?_

theorem execCollCtlFinal_keeps {u : State} {p : Packet} {s : State} (h_s : Keeps u s) : KeepsOut u (execCollCtlFinal p s) := by
  unfold execCollCtlFinal
  repeat' first
    | (with_reducible first
        | assumption | refine ctlArrive_keeps ?_ ?_ | refine State.dirAck_keeps ?_ | refine State.collFinal_keeps ?_
        | refine id_keeps ?_ | refine ite_keeps ?_ ?_ | refine iteOut_keeps ?_ ?_ | refine KeepsOut.next ?_ | intro _)
    | dsimp only | split
    | fail_if_no_progress with_reducible refine Keeps.of_mk ?_

/-! ### Machine/Requests.lean -/

theorem State.forgetDir_keeps {u : State} {s : State} {d : DirMsg} (h_s : Keeps u s) : Keeps u (State.forgetDir s d) := by
  unfold State.forgetDir
  repeat' first
    | (with_reducible first
        | assumption | intro _)
    | fail_if_no_progress with_reducible refine Keeps.of_mk ?_

theorem State.dirFailed_keeps {u : State} {s : State} {d : DirMsg} (h_s : Keeps u s) : Keeps u (State.dirFailed s d) := by
  unfold State.dirFailed
  repeat' first
    | (with_reducible first
        | assumption | refine State.setAside_keeps ?_ | refine State.forgetDir_keeps ?_ | refine State.failTicket_keeps ?_
        | refine State.ringFinal_keeps ?_ | refine State.sourceDoubt_keeps ?_ | refine State.destDoubt_keeps ?_ | intro _)
    | dsimp only | split
    | fail_if_no_progress with_reducible refine Keeps.of_mk ?_

theorem State.resendDir_keeps {u : State} {s : State} {d : DirMsg} {dst : Nat} {f : DirMsg → DirMsg}
    (h_s : Keeps u s) : Keeps u (State.resendDir s d dst f) := by
  unfold State.resendDir
  repeat' first
    | (with_reducible first
        | assumption | refine State.forgetDir_keeps ?_ | refine State.sendPacket_keeps ?_ | refine State.modDir_keeps ?_
        | refine State.freshTag_keeps ?_ | refine ite_keeps ?_ ?_ | intro _)
    | dsimp only | split
    | (with_reducible first
        | refine KeepsOptR.get (iteOptR_keeps KeepsOptR.none (State.freshTag_keeps ?_)) (by with_reducible assumption)
        | refine KeepsOptR.get (State.freshTag_keeps ?_) (by with_reducible assumption))
    | fail_if_no_progress with_reducible refine Keeps.of_mk ?_

theorem State.dirOver_keeps {u : State} {s : State} {d : DirMsg} (h_s : Keeps u s) : Keeps u (State.dirOver s d) := by
  unfold State.dirOver
  repeat' first
    | (with_reducible first
        | assumption | refine State.dirFailed_keeps ?_ | refine State.resendDir_keeps ?_ | refine ite_keeps ?_ ?_ | intro _)
    | dsimp only | split
    | fail_if_no_progress with_reducible refine Keeps.of_mk ?_

theorem execDirectoryTimeout_keeps {u : State} {i : Nat} {s : State} (h_s : Keeps u s) : KeepsOut u (execDirectoryTimeout i s) := by
  unfold execDirectoryTimeout
  repeat' first
    | (with_reducible first
        | assumption | refine act_keeps ?_ ?_ | refine State.dirOver_keeps ?_ | refine KeepsOut.next ?_)
    | dsimp only | split
    | fail_if_no_progress with_reducible refine Keeps.of_mk ?_

theorem State.forget_keeps {u : State} {s : State} {r : CReq} (h_s : Keeps u s) : Keeps u (State.forget s r) := by
  unfold State.forget
  repeat' first
    | (with_reducible first
        | assumption | intro _)
    | fail_if_no_progress with_reducible refine Keeps.of_mk ?_

theorem State.readFailed_keeps {u : State} {s : State} {c : CoreIx} {r : CReq} {status : Nat}
    (h_s : Keeps u s) : Keeps u (State.readFailed s c r status) := by
  unfold State.readFailed
  repeat' first
    | (with_reducible first
        | assumption | refine State.bump_keeps ?_ | refine State.deliverPoison_keeps ?_ | refine State.raise_keeps ?_)
    | dsimp only | split
    | fail_if_no_progress with_reducible refine Keeps.of_mk ?_

theorem State.semFailed_keeps {u : State} {s : State} {c : CoreIx} {r : CReq} {status : Nat}
    (h_s : Keeps u s) : Keeps u (State.semFailed s c r status) := by
  unfold State.semFailed
  repeat' first
    | (with_reducible first
        | assumption | refine State.killSeg_keeps ?_ | refine State.raise_keeps ?_)
    | dsimp only | split
    | fail_if_no_progress with_reducible refine Keeps.of_mk ?_

theorem State.reqFailed_keeps {u : State} {s : State} {r : CReq} {status : Nat}
    (h_s : Keeps u s) : Keeps u (State.reqFailed s r status) := by
  unfold State.reqFailed
  repeat' first
    | (with_reducible first
        | assumption | refine State.setAside_keeps ?_ | refine State.forget_keeps ?_ | refine State.readFailed_keeps ?_
        | refine State.reqBack_keeps ?_ | refine State.semFailed_keeps ?_ | refine State.creditBack_keeps ?_
        | refine State.queueFailChart_keeps ?_ | refine State.failTicket_keeps ?_ | refine State.modColl_keeps ?_ | refine id_keeps ?_
        | intro _)
    | dsimp only | split
    | fail_if_no_progress with_reducible refine Keeps.of_mk ?_

theorem State.modReq_keeps {u : State} {s : State} {r : CReq} {f : CReq → CReq} (h_s : Keeps u s) : Keeps u (State.modReq s r f) := by
  unfold State.modReq
  repeat' first
    | (with_reducible first
        | assumption | refine ite_keeps ?_ ?_ | intro _)
    | dsimp only | split
    | fail_if_no_progress with_reducible refine Keeps.of_mk ?_

theorem State.resendTo_keeps {u : State} {s : State} {r : CReq} {dst : Nat} {f : CReq → CReq}
    (h_s : Keeps u s) : Keeps u (State.resendTo s r dst f) := by
  unfold State.resendTo
  repeat' first
    | (with_reducible first
        | assumption | refine State.sendPacket_keeps ?_ | refine State.modReq_keeps ?_ | intro _)
    | fail_if_no_progress with_reducible refine Keeps.of_mk ?_

theorem State.resend_keeps {u : State} {s : State} {r : CReq} {f : CReq → CReq} (h_s : Keeps u s) : Keeps u (State.resend s r f) := by
  unfold State.resend
  repeat' first
    | (with_reducible first
        | assumption | refine State.target_keeps ?_ | refine State.resendTo_keeps ?_ | refine KeepsR.snd (State.target_keeps ?_)
        | refine ite_keeps ?_ ?_ | intro _)
    | dsimp only | split
    | (with_reducible first
        | refine KeepsR.get (State.target_keeps ?_) (by with_reducible assumption) | refine KeepsR.of ?_)
    | fail_if_no_progress with_reducible refine Keeps.of_mk ?_

theorem State.attemptOver_keeps {u : State} {s : State} {r : CReq} (h_s : Keeps u s) : Keeps u (State.attemptOver s r) := by
  unfold State.attemptOver
  repeat' first
    | (with_reducible first
        | assumption | refine State.reqFailed_keeps ?_ | refine State.resend_keeps ?_ | refine ite_keeps ?_ ?_ | intro _)
    | dsimp only | split
    | fail_if_no_progress with_reducible refine Keeps.of_mk ?_

theorem State.redirected_keeps {u : State} {s : State} {r : CReq} {p : Packet}
    (h_s : Keeps u s) : Keeps u (State.redirected s r p) := by
  unfold State.redirected
  repeat' first
    | (with_reducible first
        | assumption | refine State.learnHint_keeps ?_ | refine State.bump_keeps ?_ | refine State.attemptOver_keeps ?_
        | refine State.resendTo_keeps ?_ | refine State.dropHint_keeps ?_ | refine State.resend_keeps ?_ | refine ite_keeps ?_ ?_
        | intro _)
    | dsimp only | split
    | fail_if_no_progress with_reducible refine Keeps.of_mk ?_

theorem State.reqNack_keeps {u : State} {s : State} {r : CReq} {p : Packet} (h_s : Keeps u s) : Keeps u (State.reqNack s r p) := by
  unfold State.reqNack
  repeat' first
    | (with_reducible first
        | assumption | refine State.modReq_keeps ?_ | refine State.forget_keeps ?_ | refine State.endTicket_keeps ?_
        | refine State.modColl_keeps ?_ | refine State.creditBack_keeps ?_ | refine State.reqFailed_keeps ?_
        | refine State.redirected_keeps ?_ | refine State.resendTo_keeps ?_ | refine State.dropHint_keeps ?_
        | refine State.resend_keeps ?_ | refine ite_keeps ?_ ?_ | intro _)
    | dsimp only | split
    | fail_if_no_progress with_reducible refine Keeps.of_mk ?_

theorem State.dirNack_keeps {u : State} {s : State} {d : DirMsg} {p : Packet} (h_s : Keeps u s) : Keeps u (State.dirNack s d p) := by
  unfold State.dirNack
  repeat' first
    | (with_reducible first
        | assumption | refine State.forgetDir_keeps ?_ | refine State.modDir_keeps ?_ | refine State.endTicket_keeps ?_
        | refine State.releaseRefused_keeps ?_ | refine ite_keeps ?_ ?_ | intro _)
    | dsimp only | split
    | fail_if_no_progress with_reducible refine Keeps.of_mk ?_

theorem State.late_keeps {u : State} {s : State} {p : Packet} (h_s : Keeps u s) : Keeps u (State.late s p) := by
  unfold State.late
  repeat' first
    | (with_reducible first
        | assumption | refine State.bump_keeps ?_ | refine ite_keeps ?_ ?_)
    | dsimp only | split
    | fail_if_no_progress with_reducible refine Keeps.of_mk ?_

theorem execChartNack_keeps {u : State} {p : Packet} {s : State} (h_s : Keeps u s) : KeepsOut u (execChartNack p s) := by
  unfold execChartNack
  repeat' first
    | (with_reducible first
        | assumption | refine arrive_keeps ?_ ?_ | refine State.reqNack_keeps ?_ | refine State.dirNack_keeps ?_
        | refine State.releaseRefused_keeps ?_ | refine State.late_keeps ?_ | refine KeepsOut.next ?_ | intro _)
    | dsimp only | split
    | fail_if_no_progress with_reducible refine Keeps.of_mk ?_

theorem State.markSent_keeps {u : State} {s : State} {n : PartIx} {id : Nat} {tag : Nat} {left : Nat}
    (h_s : Keeps u s) : Keeps u (State.markSent s n id tag left) := by
  unfold State.markSent
  repeat' first
    | (with_reducible first
        | assumption | refine State.modPart_keeps ?_ | refine id_keeps ?_ | refine ite_keeps ?_ ?_ | intro _)
    | dsimp only | split
    | fail_if_no_progress with_reducible refine Keeps.of_mk ?_

theorem State.sendCompanion_keeps {u : State} {s : State} {n : PartIx} {e : OutEntry}
    (h_s : Keeps u s) : Keeps u (State.sendCompanion s n e) := by
  unfold State.sendCompanion
  repeat' first
    | (with_reducible first
        | assumption | refine State.frlRecord_keeps ?_ | refine State.markSent_keeps ?_ | refine State.frlUncached_keeps ?_
        | refine State.cacheAccess_keeps ?_ | refine KeepsR.snd (State.frlRecord_keeps ?_) | refine foldl_keeps ?_ ?_
        | refine foldl_snd_keeps ?_ ?_ | refine id_keeps ?_ | refine ite_keeps ?_ ?_ | intro _)
    | dsimp only | split
    | (with_reducible first
        | refine KeepsR.get (State.frlRecord_keeps ?_) (by with_reducible assumption) | refine KeepsR.of ?_)
    | fail_if_no_progress with_reducible refine Keeps.of_mk ?_

theorem State.coreTag_keeps {u : State} {s : State} {core : Nat} (h_s : Keeps u s) : KeepsOptR u (State.coreTag s core) := by
  unfold State.coreTag
  repeat' first
    | (with_reducible first
        | assumption | refine State.freshTag_keeps ?_ | exact KeepsOptR.none | refine KeepsOptR.some ?_
        | refine KeepsOptR.get (State.freshTag_keeps ?_) (by with_reducible assumption))
    | fail_if_no_progress with_reducible refine Keeps.of_mk ?_

theorem State.sendEntry_keeps {u : State} {s : State} {n : PartIx} {e : OutEntry}
    (h_s : Keeps u s) : Keeps u (State.sendEntry s n e) := by
  unfold State.sendEntry
  repeat' first
    | (with_reducible first
        | assumption | refine State.coreTag_keeps ?_ | refine State.put_keeps ?_ | refine State.freshNonce_keeps ?_
        | refine State.target_keeps ?_ | refine State.track_keeps ?_ | refine State.markSent_keeps ?_
        | refine KeepsR.snd (State.freshNonce_keeps ?_) | refine KeepsR.snd (State.target_keeps ?_) | refine id_keeps ?_
        | refine ite_keeps ?_ ?_ | intro _)
    | dsimp only | split
    | (with_reducible first
        | refine KeepsOptR.get (iteOptR_keeps KeepsOptR.none (State.coreTag_keeps ?_)) (by with_reducible assumption)
        | refine KeepsOptR.get (State.coreTag_keeps ?_) (by with_reducible assumption)
        | refine KeepsR.get (State.freshNonce_keeps ?_) (by with_reducible assumption)
        | refine KeepsR.get (State.target_keeps ?_) (by with_reducible assumption) | refine KeepsR.of ?_)
    | fail_if_no_progress with_reducible refine Keeps.of_mk ?_

theorem execOutboundQueueSend_keeps {u : State} {n : PartIx} {i : Nat} {s : State}
    (h_s : Keeps u s) : KeepsOut u (execOutboundQueueSend n i s) := by
  unfold execOutboundQueueSend
  repeat' first
    | (with_reducible first
        | assumption | refine State.queueFailFrl_keeps ?_ | refine State.queueFailChart_keeps ?_ | refine State.sendCompanion_keeps ?_
        | refine act_keeps ?_ ?_ | refine State.sendEntry_keeps ?_ | refine ite_keeps ?_ ?_ | refine iteOut_keeps ?_ ?_
        | refine KeepsOut.next ?_)
    | dsimp only | split
    | fail_if_no_progress with_reducible refine Keeps.of_mk ?_

theorem State.sendRead_keeps {u : State} {s : State} {c : CoreIx} {p : Piece} (h_s : Keeps u s) : Keeps u (State.sendRead s c p) := by
  unfold State.sendRead
  repeat' first
    | (with_reducible first
        | assumption | refine State.coreTag_keeps ?_ | refine State.modSeg_keeps ?_ | refine State.put_keeps ?_
        | refine State.freshNonce_keeps ?_ | refine State.target_keeps ?_ | refine State.track_keeps ?_
        | refine KeepsR.snd (State.freshNonce_keeps ?_) | refine KeepsR.snd (State.target_keeps ?_) | refine ite_keeps ?_ ?_ | intro _)
    | dsimp only | split
    | (with_reducible first
        | refine KeepsOptR.get (iteOptR_keeps KeepsOptR.none (State.coreTag_keeps ?_)) (by with_reducible assumption)
        | refine KeepsOptR.get (State.coreTag_keeps ?_) (by with_reducible assumption)
        | refine KeepsR.get (State.freshNonce_keeps ?_) (by with_reducible assumption)
        | refine KeepsR.get (State.target_keeps ?_) (by with_reducible assumption) | refine KeepsR.of ?_)
    | fail_if_no_progress with_reducible refine Keeps.of_mk ?_

theorem State.sendCancel_keeps {u : State} {s : State} {core : Nat} {ctx : Nat} {addr : Nat}
    (h_s : Keeps u s) : Keeps u (State.sendCancel s core ctx addr) := by
  unfold State.sendCancel
  repeat' first
    | (with_reducible first
        | assumption | refine State.coreTag_keeps ?_ | refine State.freshNonce_keeps ?_ | refine State.target_keeps ?_
        | refine State.track_keeps ?_ | refine KeepsR.snd (State.freshNonce_keeps ?_) | refine KeepsR.snd (State.target_keeps ?_))
    | dsimp only | split
    | (with_reducible first
        | refine KeepsOptR.get (State.coreTag_keeps ?_) (by with_reducible assumption)
        | refine KeepsR.get (State.freshNonce_keeps ?_) (by with_reducible assumption)
        | refine KeepsR.get (State.target_keeps ?_) (by with_reducible assumption) | refine KeepsR.of ?_)
    | fail_if_no_progress with_reducible refine Keeps.of_mk ?_

theorem execChartRequestSend_keeps {u : State} {i : Nat} {s : State} (h_s : Keeps u s) : KeepsOut u (execChartRequestSend i s) := by
  unfold execChartRequestSend
  repeat' first
    | (with_reducible first
        | assumption | refine act_keeps ?_ ?_ | refine State.sendRead_keeps ?_ | refine State.sendCancel_keeps ?_
        | refine State.nextBlock_keeps ?_ | refine State.sendPiece_keeps ?_ | refine State.collCtl_keeps ?_ | refine id_keeps ?_
        | refine ite_keeps ?_ ?_ | refine iteOut_keeps ?_ ?_ | refine KeepsOut.next ?_ | intro _)
    | dsimp only | split
    | fail_if_no_progress with_reducible refine Keeps.of_mk ?_

theorem execChartReadData_keeps {u : State} {p : Packet} {s : State} (h_s : Keeps u s) : KeepsOut u (execChartReadData p s) := by
  unfold execChartReadData
  repeat' first
    | (with_reducible first
        | assumption | refine arrive_keeps ?_ ?_ | refine State.deliver_keeps ?_ | refine State.reqBack_keeps ?_
        | refine State.forget_keeps ?_ | refine State.late_keeps ?_ | refine KeepsOut.next ?_ | intro _)
    | dsimp only | split
    | fail_if_no_progress with_reducible refine Keeps.of_mk ?_

theorem State.leaseEnds_keeps {u : State} {s : State} {e : OutEntry} (h_s : Keeps u s) : Keeps u (State.leaseEnds s e) := by
  unfold State.leaseEnds
  repeat' first
    | (with_reducible first
        | assumption | intro _)
    | fail_if_no_progress with_reducible refine Keeps.of_mk ?_

theorem State.chartLeaseLost_keeps {u : State} {s : State} {n : PartIx} {e : OutEntry}
    (h_s : Keeps u s) : Keeps u (State.chartLeaseLost s n e) := by
  unfold State.chartLeaseLost
  repeat' first
    | (with_reducible first
        | assumption | refine State.event_keeps ?_ | refine State.bump_keeps ?_ | refine State.raise_keeps ?_
        | refine State.action_keeps ?_ | refine ite_keeps ?_ ?_)
    | dsimp only | split
    | fail_if_no_progress with_reducible refine Keeps.of_mk ?_

theorem execChartAck_keeps {u : State} {p : Packet} {s : State} (h_s : Keeps u s) : KeepsOut u (execChartAck p s) := by
  unfold execChartAck
  repeat' first
    | (with_reducible first
        | assumption | refine arrive_keeps ?_ ?_ | refine State.late_keeps ?_ | refine State.forget_keeps ?_
        | refine State.creditBack_keeps ?_ | refine State.leaseEnds_keeps ?_ | refine State.chartLeaseLost_keeps ?_
        | refine State.queueDone_keeps ?_ | refine State.blockDone_keeps ?_ | refine State.collDone_keeps ?_
        | refine State.modColl_keeps ?_ | refine id_keeps ?_ | refine ite_keeps ?_ ?_ | refine iteOut_keeps ?_ ?_
        | refine KeepsOut.next ?_ | intro _)
    | dsimp only | split
    | fail_if_no_progress with_reducible refine Keeps.of_mk ?_

theorem State.semMark_keeps {u : State} {s : State} {c : CoreIx} {g : Seg} {x3 : Nat} {expired : Bool}
    (h_s : Keeps u s) : Keeps u (State.semMark s c g x3 expired) := by
  unfold State.semMark
  repeat' first
    | (with_reducible first
        | assumption | refine State.modSeg_keeps ?_ | refine State.bump_keeps ?_ | refine ite_keeps ?_ ?_ | intro _)
    | dsimp only | split
    | fail_if_no_progress with_reducible refine Keeps.of_mk ?_

theorem State.semGot_keeps {u : State} {s : State} {c : CoreIx} {g : Seg} {x3 : Nat} {tag : Nat}
    (h_s : Keeps u s) : Keeps u (State.semGot s c g x3 tag) := by
  unfold State.semGot
  repeat' first
    | (with_reducible first
        | assumption | refine State.semMark_keeps ?_ | refine State.draw_keeps ?_ | refine KeepsR.snd (State.draw_keeps ?_)
        | refine ite_keeps ?_ ?_ | intro _)
    | dsimp only | split
    | (with_reducible first
        | refine KeepsR.get (State.draw_keeps ?_) (by with_reducible assumption) | refine KeepsR.of ?_)
    | fail_if_no_progress with_reducible refine Keeps.of_mk ?_

theorem execSemResult_keeps {u : State} {p : Packet} {s : State} (h_s : Keeps u s) : KeepsOut u (execSemResult p s) := by
  unfold execSemResult
  repeat' first
    | (with_reducible first
        | assumption | refine arrive_keeps ?_ ?_ | refine State.reqBack_keeps ?_ | refine State.forget_keeps ?_
        | refine State.semEnd_keeps ?_ | refine State.semGot_keeps ?_ | refine State.late_keeps ?_ | refine ite_keeps ?_ ?_
        | refine iteOut_keeps ?_ ?_ | refine KeepsOut.next ?_ | intro _)
    | dsimp only | split
    | fail_if_no_progress with_reducible refine Keeps.of_mk ?_

theorem State.ringAnswer_keeps {u : State} {s : State} {d : DirMsg} {index : Nat} {p : Packet}
    (h_s : Keeps u s) : Keeps u (State.ringAnswer s d index p) := by
  unfold State.ringAnswer
  repeat' first
    | (with_reducible first
        | assumption | refine State.forgetDir_keeps ?_ | refine State.modRing_keeps ?_ | refine State.modDir_keeps ?_
        | refine State.learnHint_keeps ?_ | refine State.bump_keeps ?_ | refine State.dirOver_keeps ?_
        | refine State.resendDir_keeps ?_ | refine State.dropHint_keeps ?_ | refine State.target_keeps ?_
        | refine State.ringFinal_keeps ?_ | refine KeepsR.snd (State.target_keeps ?_) | refine id_keeps ?_ | refine ite_keeps ?_ ?_
        | intro _)
    | dsimp only | split
    | (with_reducible first
        | refine KeepsR.get (State.target_keeps ?_) (by with_reducible assumption) | refine KeepsR.of ?_)
    | fail_if_no_progress with_reducible refine Keeps.of_mk ?_

theorem execDirAck_keeps {u : State} {p : Packet} {s : State} (h_s : Keeps u s) : KeepsOut u (execDirAck p s) := by
  unfold execDirAck
  repeat' first
    | (with_reducible first
        | assumption | refine arrive_keeps ?_ ?_ | refine State.late_keeps ?_ | refine State.ringAnswer_keeps ?_
        | refine State.modDir_keeps ?_ | refine State.forgetDir_keeps ?_ | refine ite_keeps ?_ ?_ | refine iteOut_keeps ?_ ?_
        | refine KeepsOut.next ?_ | intro _)
    | dsimp only | split
    | fail_if_no_progress with_reducible refine Keeps.of_mk ?_

theorem execResponseTimeout_keeps {u : State} {i : Nat} {s : State} (h_s : Keeps u s) : KeepsOut u (execResponseTimeout i s) := by
  unfold execResponseTimeout
  repeat' first
    | (with_reducible first
        | assumption | refine act_keeps ?_ ?_ | refine State.attemptOver_keeps ?_ | refine KeepsOut.next ?_)
    | dsimp only | split
    | fail_if_no_progress with_reducible refine Keeps.of_mk ?_

theorem execRetryAfterExpiry_keeps {u : State} {i : Nat} {s : State} (h_s : Keeps u s) : KeepsOut u (execRetryAfterExpiry i s) := by
  unfold execRetryAfterExpiry
  repeat' first
    | (with_reducible first
        | assumption | refine act_keeps ?_ ?_ | refine State.reqFailed_keeps ?_ | refine State.resend_keeps ?_
        | refine State.dirFailed_keeps ?_ | refine State.target_keeps ?_ | refine State.resendDir_keeps ?_
        | refine KeepsR.snd (State.target_keeps ?_) | refine id_keeps ?_ | refine ite_keeps ?_ ?_ | refine iteOut_keeps ?_ ?_
        | refine KeepsOut.next ?_ | intro _)
    | dsimp only | split
    | (with_reducible first
        | refine KeepsR.get (State.target_keeps ?_) (by with_reducible assumption) | refine KeepsR.of ?_)
    | fail_if_no_progress with_reducible refine Keeps.of_mk ?_

end Sys2Proof.Machine
end

