-- ==== Sys2Proof/Laws/KeepsLinks.lean ====
section
/-! SUPPORT. Laws/KeepsLinks.lean: shards, the Ferrule, the links and the weights keep what Laws/Keeps.lean names, operation by operation; a meaning execX by
execX_keeps. -/

set_option linter.unusedTactic false
set_option linter.unreachableTactic false

namespace Sys2Proof.Machine

/-! ### Machine/Shards.lean -/

theorem State.modWts_keeps {u : State} {s : State} {f : WtsSt → WtsSt} (h_s : Keeps u s) : Keeps u (State.modWts s f) := by
  unfold State.modWts
  repeat' first
    | (with_reducible first
        | assumption | intro _)
    | fail_if_no_progress with_reducible refine Keeps.of_mk ?_

theorem State.modRead_keeps {u : State} {s : State} {m : Nat} {i : Nat} {f : WtsRead → WtsRead}
    (h_s : Keeps u s) : Keeps u (State.modRead s m i f) := by
  unfold State.modRead
  repeat' first
    | (with_reducible first
        | assumption | refine State.modWts_keeps ?_ | refine ite_keeps ?_ ?_ | intro _)
    | dsimp only | split
    | fail_if_no_progress with_reducible refine Keeps.of_mk ?_

theorem State.wtsAgain_keeps {u : State} {s : State} {m : Nat} {i : Nat} {addr : Nat} {len : Nat}
    (h_s : Keeps u s) : Keeps u (State.wtsAgain s m i addr len) := by
  unfold State.wtsAgain
  repeat' first
    | (with_reducible first
        | assumption | refine State.modRead_keeps ?_ | intro _)
    | fail_if_no_progress with_reducible refine Keeps.of_mk ?_

theorem State.wtsAsk_keeps {u : State} {s : State} {m : Nat} {i : Nat} {p : Nat × Nat}
    (h_s : Keeps u s) : Keeps u (State.wtsAsk s m i p) := by
  unfold State.wtsAsk
  repeat' first
    | (with_reducible first
        | assumption | refine State.frlRequest_keeps ?_ | refine State.wtsAgain_keeps ?_ | refine ite_keeps ?_ ?_)
    | dsimp only | split
    | fail_if_no_progress with_reducible refine Keeps.of_mk ?_

theorem State.wtsAskRange_keeps {u : State} {s : State} {m : Nat} {i : Nat} {base : Nat} {len : Nat}
    (h_s : Keeps u s) : Keeps u (State.wtsAskRange s m i base len) := by
  unfold State.wtsAskRange
  repeat' first
    | (with_reducible first
        | assumption | refine State.wtsAsk_keeps ?_ | refine foldl_keeps ?_ ?_ | refine foldl_snd_keeps ?_ ?_ | intro _)
    | fail_if_no_progress with_reducible refine Keeps.of_mk ?_

theorem State.rec40Wr_keeps {u : State} {s : State} {m : Nat} {i : Nat} {hi : Nat} {lo : Nat} {v : Nat}
    (h_s : Keeps u s) : Keeps u (State.rec40Wr s m i hi lo v) := by
  unfold State.rec40Wr
  repeat' first
    | (with_reducible first
        | assumption | refine State.wrBits_keeps ?_)
    | fail_if_no_progress with_reducible refine Keeps.of_mk ?_

theorem State.shardRest_keeps {u : State} {s : State} {l : LoadSt} {i : Nat} (h_s : Keeps u s) : Keeps u (State.shardRest s l i) := by
  unfold State.shardRest
  repeat' first
    | (with_reducible first
        | assumption | refine State.wtsAskRange_keeps ?_ | refine State.modRead_keeps ?_ | refine ite_keeps ?_ ?_ | intro _)
    | dsimp only | split
    | fail_if_no_progress with_reducible refine Keeps.of_mk ?_

theorem State.showLanes_keeps {u : State} {s : State} (h_s : Keeps u s) : Keeps u (State.showLanes s) := by
  unfold State.showLanes
  repeat' first
    | (with_reducible first
        | assumption | refine State.put_keeps ?_)
    | fail_if_no_progress with_reducible refine Keeps.of_mk ?_

theorem State.dropRead_keeps {u : State} {s : State} {m : Nat} {i : Nat} (h_s : Keeps u s) : Keeps u (State.dropRead s m i) := by
  unfold State.dropRead
  repeat' first
    | (with_reducible first
        | assumption | refine State.showLanes_keeps ?_ | refine State.modWts_keeps ?_ | intro _)
    | fail_if_no_progress with_reducible refine Keeps.of_mk ?_

theorem State.startRead_keeps {u : State} {s : State} {m : Nat} {i : Nat} {what : WtsWhat} {addr : Nat} {len : Nat}
    (h_s : Keeps u s) : Keeps u (State.startRead s m i what addr len) := by
  unfold State.startRead
  repeat' first
    | (with_reducible first
        | assumption | refine State.modWts_keeps ?_ | refine State.dropRead_keeps ?_ | refine State.wtsAskRange_keeps ?_
        | refine State.showLanes_keeps ?_ | refine ite_keeps ?_ ?_ | intro _)
    | dsimp only | split
    | fail_if_no_progress with_reducible refine Keeps.of_mk ?_

theorem State.waitEntry_keeps {u : State} {s : State} {m : Nat} {i : Nat} (h_s : Keeps u s) : Keeps u (State.waitEntry s m i) := by
  unfold State.waitEntry
  repeat' first
    | (with_reducible first
        | assumption | refine State.modWts_keeps ?_ | refine State.dropRead_keeps ?_ | intro _)
    | fail_if_no_progress with_reducible refine Keeps.of_mk ?_

theorem State.readShard_keeps {u : State} {s : State} {m : Nat} {i : Nat} {e : List Byte}
    (h_s : Keeps u s) : Keeps u (State.readShard s m i e) := by
  unfold State.readShard
  repeat' first
    | (with_reducible first
        | assumption | refine State.startRead_keeps ?_ | refine State.rec40Wr_keeps ?_ | refine State.waitEntry_keeps ?_
        | refine ite_keeps ?_ ?_)
    | dsimp only | split
    | fail_if_no_progress with_reducible refine Keeps.of_mk ?_

theorem State.fillLoad_keeps {u : State} {s : State} {m : Nat} (h_s : Keeps u s) : Keeps u (State.fillLoad s m) := by
  unfold State.fillLoad
  repeat' first
    | (with_reducible first
        | assumption | refine State.shardRest_keeps ?_ | refine State.readShard_keeps ?_ | refine foldl_keeps ?_ ?_
        | refine foldl_snd_keeps ?_ ?_ | refine ite_keeps ?_ ?_ | intro _)
    | dsimp only | split
    | fail_if_no_progress with_reducible refine Keeps.of_mk ?_

theorem State.fillLoads_keeps {u : State} {s : State} (h_s : Keeps u s) : Keeps u (State.fillLoads s) := by
  unfold State.fillLoads
  repeat' first
    | (with_reducible first
        | assumption | refine State.fillLoad_keeps ?_ | refine foldl_keeps ?_ ?_ | refine foldl_snd_keeps ?_ ?_ | intro _)
    | fail_if_no_progress with_reducible refine Keeps.of_mk ?_

theorem State.modLoad_keeps {u : State} {s : State} {m : Nat} {f : LoadSt → LoadSt}
    (h_s : Keeps u s) : Keeps u (State.modLoad s m f) := by
  unfold State.modLoad
  repeat' first
    | (with_reducible first
        | assumption | refine State.modWts_keeps ?_ | refine ite_keeps ?_ ?_ | intro _)
    | dsimp only | split
    | fail_if_no_progress with_reducible refine Keeps.of_mk ?_

theorem State.wtsRetry_keeps {u : State} {s : State} {m : Nat} {i : Nat} {addr : Nat}
    (h_s : Keeps u s) : Keeps u (State.wtsRetry s m i addr) := by
  unfold State.wtsRetry
  repeat' first
    | (with_reducible first
        | assumption | refine State.wtsAgain_keeps ?_)
    | dsimp only | split
    | fail_if_no_progress with_reducible refine Keeps.of_mk ?_

theorem State.wtsReread_keeps {u : State} {s : State} {q : WtsRead} (h_s : Keeps u s) : Keeps u (State.wtsReread s q) := by
  unfold State.wtsReread
  repeat' first
    | (with_reducible first
        | assumption | refine State.modLoad_keeps ?_ | refine State.modWts_keeps ?_ | refine ite_keeps ?_ ?_ | intro _)
    | dsimp only | split
    | fail_if_no_progress with_reducible refine Keeps.of_mk ?_

theorem State.wtsMark_keeps {u : State} {s : State} {tag : Nat} {addr : Nat}
    (h_s : Keeps u s) : KeepsOpt u (State.wtsMark s tag addr) := by
  unfold State.wtsMark
  exact iteOpt_keeps (KeepsOpt.some (State.modWts_keeps h_s)) (KeepsOpt.map (fun _ => State.wtsReread_keeps h_s))

theorem State.dirHeader_keeps {u : State} {s : State} {m : Nat} {h : List Byte}
    (h_s : Keeps u s) : Keeps u (State.dirHeader s m h) := by
  unfold State.dirHeader
  repeat' first
    | (with_reducible first
        | assumption | refine State.startRead_keeps ?_ | refine State.modLoad_keeps ?_ | refine State.mdWr_keeps ?_
        | refine State.dropRead_keeps ?_ | refine ite_keeps ?_ ?_ | intro _)
    | dsimp only | split
    | fail_if_no_progress with_reducible refine Keeps.of_mk ?_

theorem State.readHeader_keeps {u : State} {s : State} {m : Nat} {i : Nat} {e : List Byte}
    (h_s : Keeps u s) : Keeps u (State.readHeader s m i e) := by
  unfold State.readHeader
  repeat' first
    | (with_reducible first
        | assumption | refine State.startRead_keeps ?_ | refine State.waitEntry_keeps ?_ | refine ite_keeps ?_ ?_)
    | dsimp only | split
    | fail_if_no_progress with_reducible refine Keeps.of_mk ?_

theorem State.dirEntries_keeps {u : State} {s : State} {m : Nat} {bs : List Byte}
    (h_s : Keeps u s) : Keeps u (State.dirEntries s m bs) := by
  unfold State.dirEntries
  repeat' first
    | (with_reducible first
        | assumption | refine State.modLoad_keeps ?_ | refine State.dropRead_keeps ?_ | refine State.readHeader_keeps ?_
        | refine foldl_keeps ?_ ?_ | refine foldl_snd_keeps ?_ ?_ | intro _)
    | dsimp only | split
    | fail_if_no_progress with_reducible refine Keeps.of_mk ?_

theorem State.entryAgain_keeps {u : State} {s : State} {m : Nat} {i : Nat} {e : List Byte}
    (h_s : Keeps u s) : Keeps u (State.entryAgain s m i e) := by
  unfold State.entryAgain
  repeat' first
    | (with_reducible first
        | assumption | refine State.modLoad_keeps ?_ | refine State.waitEntry_keeps ?_ | refine State.readShard_keeps ?_
        | refine State.readHeader_keeps ?_ | refine ite_keeps ?_ ?_ | intro _)
    | dsimp only | split
    | fail_if_no_progress with_reducible refine Keeps.of_mk ?_

theorem State.wtsNext_keeps {u : State} {s0 : State} {r : WtsRead} (h_s0 : Keeps u s0) : Keeps u (State.wtsNext s0 r) := by
  unfold State.wtsNext
  repeat' first
    | (with_reducible first
        | assumption | refine State.fillLoad_keeps ?_ | refine State.modRead_keeps ?_ | refine State.modWts_keeps ?_
        | refine State.dirHeader_keeps ?_ | refine State.dirEntries_keeps ?_ | refine State.entryAgain_keeps ?_
        | refine State.modLoad_keeps ?_ | refine State.dropRead_keeps ?_ | refine ite_keeps ?_ ?_ | intro _)
    | dsimp only | split
    | fail_if_no_progress with_reducible refine Keeps.of_mk ?_

theorem State.wtsData_keeps {u : State} {s : State} {m : Nat} {i : Nat} {addr : Nat} {tag : Nat} {bs : List Byte} {bad : Bool}
    (h_s : Keeps u s) : Keeps u (State.wtsData s m i addr tag bs bad) := by
  unfold State.wtsData
  repeat' first
    | (with_reducible first
        | assumption | refine State.modRead_keeps ?_ | refine State.wtsNext_keeps ?_ | intro _)
    | dsimp only | split
    | fail_if_no_progress with_reducible refine Keeps.of_mk ?_

theorem State.wtsPoll_keeps {u : State} {s : State} {m : Nat} {i : Nat} (h_s : Keeps u s) : Keeps u (State.wtsPoll s m i) := by
  unfold State.wtsPoll
  repeat' first
    | (with_reducible first
        | assumption | refine State.startRead_keeps ?_ | refine State.wtsAsk_keeps ?_ | refine State.modRead_keeps ?_
        | refine foldl_keeps ?_ ?_ | refine foldl_snd_keeps ?_ ?_ | refine ite_keeps ?_ ?_ | intro _)
    | dsimp only | split
    | fail_if_no_progress with_reducible refine Keeps.of_mk ?_

/-! ### Machine/Ferrule.lean -/

theorem State.protocol_keeps {u : State} {s : State} (h_s : Keeps u s) : Keeps u (State.protocol s) := by
  unfold State.protocol
  repeat' first
    | (with_reducible first
        | assumption | refine State.bump_keeps ?_)
    | fail_if_no_progress with_reducible refine Keeps.of_mk ?_

theorem State.frlTake_keeps {u : State} {s : State} {m : FMsg} (h_s : Keeps u s) : Keeps u (State.frlTake s m) := by
  unfold State.frlTake
  repeat' first
    | (with_reducible first
        | assumption | refine State.tell_keeps ?_ | refine ite_keeps ?_ ?_ | intro _)
    | dsimp only | split
    | fail_if_no_progress with_reducible refine Keeps.of_mk ?_

theorem frlArrive_keeps {u : State} {s : State} {m : FMsg} {op : Nat} {go : State → State}
    (h_s : Keeps u s) (h_go : ∀ tt, Keeps u tt → Keeps u (go tt)) : KeepsOut u (frlArrive s m op go) := by
  unfold frlArrive
  repeat' first
    | (with_reducible first
        | assumption | refine State.protocol_keeps ?_ | refine State.frlTake_keeps ?_ | refine act_keeps ?_ ?_ | apply h_go
        | refine ite_keeps ?_ ?_ | refine iteOut_keeps ?_ ?_ | refine KeepsOut.next ?_ | intro _)
    | dsimp only | split
    | fail_if_no_progress with_reducible refine Keeps.of_mk ?_

theorem State.snpRsp_keeps {u : State} {s : State} {m : FMsg} {st : Nat} (h_s : Keeps u s) : Keeps u (State.snpRsp s m st) := by
  unfold State.snpRsp
  repeat' first
    | (with_reducible first
        | assumption | refine State.frlSend_keeps ?_)
    | fail_if_no_progress with_reducible refine Keeps.of_mk ?_

theorem State.snpData_keeps {u : State} {s : State} {m : FMsg} {l : CacheLine} {st : Nat}
    (h_s : Keeps u s) : Keeps u (State.snpData s m l st) := by
  unfold State.snpData
  repeat' first
    | (with_reducible first
        | assumption | refine State.frlSend_keeps ?_)
    | fail_if_no_progress with_reducible refine Keeps.of_mk ?_

theorem execSnpShared_keeps {u : State} {m : FMsg} {s : State} (h_s : Keeps u s) : KeepsOut u (execSnpShared m s) := by
  unfold execSnpShared
  repeat' first
    | (with_reducible first
        | assumption | refine frlArrive_keeps ?_ ?_ | refine State.tally_keeps ?_ | refine State.snpRsp_keeps ?_
        | refine State.putLine_keeps ?_ | refine State.snpData_keeps ?_ | refine KeepsOut.next ?_ | intro _)
    | dsimp only | split
    | fail_if_no_progress with_reducible refine Keeps.of_mk ?_

theorem State.frlLate_keeps {u : State} {s : State} {m : FMsg} (h_s : Keeps u s) : Keeps u (State.frlLate s m) := by
  unfold State.frlLate
  repeat' first
    | (with_reducible first
        | assumption | refine State.bump_keeps ?_ | refine State.protocol_keeps ?_ | refine ite_keeps ?_ ?_)
    | dsimp only | split
    | fail_if_no_progress with_reducible refine Keeps.of_mk ?_

theorem State.flush_keeps {u : State} {s : State} (h_s : Keeps u s) : Keeps u (State.flush s) := by
  unfold State.flush
  repeat' first
    | (with_reducible first
        | assumption | refine State.evict_keeps ?_ | refine State.put_keeps ?_ | refine foldl_keeps ?_ ?_
        | refine foldl_snd_keeps ?_ ?_ | intro _)
    | dsimp only | split
    | fail_if_no_progress with_reducible refine Keeps.of_mk ?_

theorem State.failCompanionQueue_keeps {u : State} {s : State} {n : PartIx}
    (h_s : Keeps u s) : Keeps u (State.failCompanionQueue s n) := by
  unfold State.failCompanionQueue
  repeat' first
    | (with_reducible first
        | assumption | refine State.raise_keeps ?_ | refine State.bump_keeps ?_ | refine State.showOutq_keeps ?_
        | refine State.modPart_keeps ?_ | intro _)
    | dsimp only | split
    | fail_if_no_progress with_reducible refine Keeps.of_mk ?_

theorem execAttach_keeps {u : State} {s : State} (h_s : Keeps u s) : KeepsOut u (execAttach s) := by
  unfold execAttach
  repeat' first
    | (with_reducible first
        | assumption | refine act_keeps ?_ ?_ | refine State.put_keeps ?_ | refine KeepsOut.next ?_)
    | fail_if_no_progress with_reducible refine Keeps.of_mk ?_

theorem execDoorbell_keeps {u : State} {k : CtxIx} {s : State} (h_s : Keeps u s) : KeepsOut u (execDoorbell k s) := by
  unfold execDoorbell
  repeat' first
    | (with_reducible first
        | assumption | refine State.readTail_keeps ?_ | refine act_keeps ?_ ?_ | refine State.pickGroup_keeps ?_
        | refine forCores_keeps ?_ ?_ | refine ite_keeps ?_ ?_ | refine iteOut_keeps ?_ ?_ | refine KeepsOut.next ?_ | intro _)
    | dsimp only | split
    | fail_if_no_progress with_reducible refine Keeps.of_mk ?_

theorem State.holdAll_keeps {u : State} {s : State} (h_s : Keeps u s) : Keeps u (State.holdAll s) := by
  unfold State.holdAll
  repeat' first
    | (with_reducible first
        | assumption | refine State.action_keeps ?_ | refine foldl_keeps ?_ ?_ | refine foldl_snd_keeps ?_ ?_ | refine ite_keeps ?_ ?_
        | intro _)
    | dsimp only | split
    | fail_if_no_progress with_reducible refine Keeps.of_mk ?_

theorem State.dropRequests_keeps {u : State} {s : State} (h_s : Keeps u s) : Keeps u (State.dropRequests s) := by
  unfold State.dropRequests
  repeat' first
    | (with_reducible first
        | assumption | refine State.setAside_keeps ?_ | refine State.bump_keeps ?_ | refine State.deliverPoison_keeps ?_
        | refine State.wtsRetry_keeps ?_ | refine foldl_keeps ?_ ?_ | refine foldl_snd_keeps ?_ ?_ | intro _)
    | dsimp only | split
    | fail_if_no_progress with_reducible refine Keeps.of_mk ?_

theorem State.dropCache_keeps {u : State} {s : State} (h_s : Keeps u s) : Keeps u (State.dropCache s) := by
  unfold State.dropCache
  repeat' first
    | (with_reducible first
        | assumption | refine State.bump_keeps ?_ | refine State.setCache_keeps ?_ | refine State.failAccs_keeps ?_
        | refine foldl_keeps ?_ ?_ | refine foldl_snd_keeps ?_ ?_ | intro _)
    | fail_if_no_progress with_reducible refine Keeps.of_mk ?_

theorem State.companionLost_keeps {u : State} {s : State} (h_s : Keeps u s) : Keeps u (State.companionLost s) := by
  unfold State.companionLost
  repeat' first
    | (with_reducible first
        | assumption | refine State.raise_keeps ?_ | refine State.bump_keeps ?_ | refine State.put_keeps ?_
        | refine State.holdAll_keeps ?_ | refine forParts_keeps ?_ ?_ | refine State.failCompanionQueue_keeps ?_
        | refine State.dropRequests_keeps ?_ | refine State.dropCache_keeps ?_ | refine ite_keeps ?_ ?_ | intro _)
    | dsimp only | split
    | fail_if_no_progress with_reducible refine Keeps.of_mk ?_

theorem execCacheFlush_keeps {u : State} {s : State} (h_s : Keeps u s) : KeepsOut u (execCacheFlush s) := by
  unfold execCacheFlush
  repeat' first
    | (with_reducible first
        | assumption | refine act_keeps ?_ ?_ | refine State.flush_keeps ?_ | refine KeepsOut.next ?_)
    | fail_if_no_progress with_reducible refine Keeps.of_mk ?_

theorem execFlushComplete_keeps {u : State} {s : State} (h_s : Keeps u s) : KeepsOut u (execFlushComplete s) := by
  unfold execFlushComplete
  repeat' first
    | (with_reducible first
        | assumption | refine act_keeps ?_ ?_ | refine State.wakeWaiting_keeps ?_ | refine State.put_keeps ?_ | refine KeepsOut.next ?_
        | intro _)
    | fail_if_no_progress with_reducible refine Keeps.of_mk ?_

theorem State.frlDone_keeps {u : State} {s : State} {r : FReq} (h_s : Keeps u s) : Keeps u (State.frlDone s r) := by
  unfold State.frlDone
  repeat' first
    | (with_reducible first
        | assumption | refine State.frlPump_keeps ?_ | intro _)
    | fail_if_no_progress with_reducible refine Keeps.of_mk ?_

theorem execGntS_keeps {u : State} {m : FMsg} {s : State} (h_s : Keeps u s) : KeepsOut u (execGntS m s) := by
  unfold execGntS
  repeat' first
    | (with_reducible first
        | assumption | refine frlArrive_keeps ?_ ?_ | refine State.protocol_keeps ?_ | refine State.lineFilled_keeps ?_
        | refine State.frlDone_keeps ?_ | refine ite_keeps ?_ ?_ | refine iteOut_keeps ?_ ?_ | refine KeepsOut.next ?_ | intro _)
    | dsimp only | split
    | fail_if_no_progress with_reducible refine Keeps.of_mk ?_

theorem execGntE_keeps {u : State} {m : FMsg} {s : State} (h_s : Keeps u s) : KeepsOut u (execGntE m s) := by
  unfold execGntE
  repeat' first
    | (with_reducible first
        | assumption | refine frlArrive_keeps ?_ ?_ | refine State.protocol_keeps ?_ | refine State.lineFilled_keeps ?_
        | refine State.frlDone_keeps ?_ | refine ite_keeps ?_ ?_ | refine iteOut_keeps ?_ ?_ | refine KeepsOut.next ?_ | intro _)
    | dsimp only | split
    | fail_if_no_progress with_reducible refine Keeps.of_mk ?_

theorem State.markLater_keeps {u : State} {s : State} {c : CoreIx} {m : FMsg}
    (h_s : Keeps u s) : KeepsOpt u (State.markLater s c m) := by
  unfold State.markLater
  repeat' first
    | (with_reducible first
        | assumption | refine State.modSeg_keeps ?_ | refine ite_keeps ?_ ?_ | exact KeepsOpt.none | refine KeepsOpt.some ?_ | intro _)
    | dsimp only | split
    | fail_if_no_progress with_reducible refine Keeps.of_mk ?_

theorem execRdData_keeps {u : State} {m : FMsg} {s : State} (h_s : Keeps u s) : KeepsOut u (execRdData m s) := by
  unfold execRdData
  repeat' first
    | (with_reducible first
        | assumption | refine frlArrive_keeps ?_ ?_ | refine State.frlLate_keeps ?_ | refine State.wtsMark_keeps ?_
        | refine State.markLater_keeps ?_ | refine State.deliver_keeps ?_ | refine State.frlDone_keeps ?_
        | refine State.wtsData_keeps ?_ | refine KeepsOpt.getD (State.wtsMark_keeps ?_) ?_
        | refine KeepsOpt.getD (State.markLater_keeps ?_) ?_ | refine ite_keeps ?_ ?_ | refine iteOut_keeps ?_ ?_
        | refine KeepsOut.next ?_ | intro _)
    | dsimp only | split
    | (with_reducible first
        | refine KeepsOpt.get (iteOpt_keeps KeepsOpt.none (State.wtsMark_keeps ?_)) (by with_reducible assumption)
        | refine KeepsOpt.get (State.wtsMark_keeps ?_) (by with_reducible assumption)
        | refine KeepsOpt.get (iteOpt_keeps KeepsOpt.none (State.markLater_keeps ?_)) (by with_reducible assumption)
        | refine KeepsOpt.get (State.markLater_keeps ?_) (by with_reducible assumption))
    | fail_if_no_progress with_reducible refine Keeps.of_mk ?_

theorem State.snooped_keeps {u : State} {s : State} {x1 : Nat} (h_s : Keeps u s) : Keeps u (State.snooped s x1) := by
  unfold State.snooped
  repeat' first
    | (with_reducible first
        | assumption | refine State.unpark_keeps ?_ | refine State.wakeWaiting_keeps ?_ | refine State.delLine_keeps ?_ | intro _)
    | fail_if_no_progress with_reducible refine Keeps.of_mk ?_

theorem execSnpInv_keeps {u : State} {m : FMsg} {s : State} (h_s : Keeps u s) : KeepsOut u (execSnpInv m s) := by
  unfold execSnpInv
  repeat' first
    | (with_reducible first
        | assumption | refine frlArrive_keeps ?_ ?_ | refine State.tally_keeps ?_ | refine State.snpRsp_keeps ?_
        | refine State.snooped_keeps ?_ | refine State.snpData_keeps ?_ | refine State.putLine_keeps ?_ | refine KeepsOut.next ?_
        | intro _)
    | dsimp only | split
    | fail_if_no_progress with_reducible refine Keeps.of_mk ?_

theorem State.letIntr_keeps {u : State} {s : State} {r : FReq} (h_s : Keeps u s) : Keeps u (State.letIntr s r) := by
  unfold State.letIntr
  repeat' first
    | (with_reducible first
        | assumption | refine State.sendIntr_keeps ?_)
    | dsimp only | split
    | fail_if_no_progress with_reducible refine Keeps.of_mk ?_

theorem execCmp_keeps {u : State} {m : FMsg} {s : State} (h_s : Keeps u s) : KeepsOut u (execCmp m s) := by
  unfold execCmp
  repeat' first
    | (with_reducible first
        | assumption | refine frlArrive_keeps ?_ ?_ | refine State.frlLate_keeps ?_ | refine State.lineEvicted_keeps ?_
        | refine State.frlDone_keeps ?_ | refine State.protocol_keeps ?_ | refine State.letIntr_keeps ?_
        | refine State.queueDone_keeps ?_ | refine id_keeps ?_ | refine ite_keeps ?_ ?_ | refine iteOut_keeps ?_ ?_
        | refine KeepsOut.next ?_ | intro _)
    | dsimp only | split
    | fail_if_no_progress with_reducible refine Keeps.of_mk ?_

theorem State.frlFailed_keeps {u : State} {s : State} {r : FReq} (h_s : Keeps u s) : Keeps u (State.frlFailed s r) := by
  unfold State.frlFailed
  repeat' first
    | (with_reducible first
        | assumption | refine State.frlDone_keeps ?_ | refine State.setAside_keeps ?_ | refine State.lineFailed_keeps ?_
        | refine State.bump_keeps ?_ | refine State.deliverPoison_keeps ?_ | refine State.queueFailFrl_keeps ?_
        | refine State.wtsRetry_keeps ?_ | refine id_keeps ?_ | refine ite_keeps ?_ ?_ | intro _)
    | dsimp only | split
    | fail_if_no_progress with_reducible refine Keeps.of_mk ?_

theorem execFerruleNack_keeps {u : State} {m : FMsg} {s : State} (h_s : Keeps u s) : KeepsOut u (execFerruleNack m s) := by
  unfold execFerruleNack
  repeat' first
    | (with_reducible first
        | assumption | refine frlArrive_keeps ?_ ?_ | refine State.frlLate_keeps ?_ | refine State.frlFailed_keeps ?_
        | refine KeepsOut.next ?_ | intro _)
    | dsimp only | split
    | fail_if_no_progress with_reducible refine Keeps.of_mk ?_

theorem execFerruleTimeout_keeps {u : State} {i : Nat} {s : State} (h_s : Keeps u s) : KeepsOut u (execFerruleTimeout i s) := by
  unfold execFerruleTimeout
  repeat' first
    | (with_reducible first
        | assumption | refine act_keeps ?_ ?_ | refine State.frlFailed_keeps ?_ | refine State.raise_keeps ?_
        | refine State.bump_keeps ?_ | refine KeepsOut.next ?_)
    | dsimp only | split
    | fail_if_no_progress with_reducible refine Keeps.of_mk ?_

theorem execCompanionLoss_keeps {u : State} {s : State} (h_s : Keeps u s) : KeepsOut u (execCompanionLoss s) := by
  unfold execCompanionLoss
  repeat' first
    | (with_reducible first
        | assumption | refine act_keeps ?_ ?_ | refine State.companionLost_keeps ?_ | refine KeepsOut.next ?_)
    | dsimp only | split
    | fail_if_no_progress with_reducible refine Keeps.of_mk ?_

/-! ### Machine/Links.lean -/

theorem State.spareAsked_keeps {u : State} {s : State} {l : LinkIx} {lane : Nat}
    (h_s : Keeps u s) : Keeps u (State.spareAsked s l lane) := by
  unfold State.spareAsked
  repeat' first
    | (with_reducible first
        | assumption | refine State.modLink_keeps ?_ | refine ite_keeps ?_ ?_ | intro _)
    | dsimp only | split
    | fail_if_no_progress with_reducible refine Keeps.of_mk ?_

theorem execSpareReq_keeps {u : State} {l : LinkIx} {lane : BitVec 4} {s : State}
    (h_s : Keeps u s) : KeepsOut u (execSpareReq l lane s) := by
  unfold execSpareReq
  repeat' first
    | (with_reducible first
        | assumption | refine act_keeps ?_ ?_ | refine State.spareAsked_keeps ?_ | refine KeepsOut.next ?_)
    | fail_if_no_progress with_reducible refine Keeps.of_mk ?_

theorem State.linkTo_keeps {u : State} {s : State} {l : LinkIx} {v : Nat} (h_s : Keeps u s) : Keeps u (State.linkTo s l v) := by
  unfold State.linkTo
  repeat' first
    | (with_reducible first
        | assumption | refine State.put_keeps ?_ | refine State.sendIntr_keeps ?_ | refine ite_keeps ?_ ?_)
    | dsimp only | split
    | fail_if_no_progress with_reducible refine Keeps.of_mk ?_

theorem State.setK_keeps {u : State} {s : State} {l : LinkIx} {k : Nat} (h_s : Keeps u s) : Keeps u (State.setK s l k) := by
  unfold State.setK
  repeat' first
    | (with_reducible first
        | assumption | refine State.modLink_keeps ?_ | refine State.put_keeps ?_ | refine ite_keeps ?_ ?_ | intro _)
    | dsimp only | split
    | fail_if_no_progress with_reducible refine Keeps.of_mk ?_

theorem State.enablePort_keeps {u : State} {s : State} {l : LinkIx} (h_s : Keeps u s) : Keeps u (State.enablePort s l) := by
  unfold State.enablePort
  repeat' first
    | (with_reducible first
        | assumption | refine State.put_keeps ?_ | refine State.linkTo_keeps ?_ | refine State.modLink_keeps ?_
        | refine State.setK_keeps ?_ | refine ite_keeps ?_ ?_ | intro _)
    | dsimp only | split
    | fail_if_no_progress with_reducible refine Keeps.of_mk ?_

theorem State.sendIdent_keeps {u : State} {s : State} {l : LinkIx} (h_s : Keeps u s) : Keeps u (State.sendIdent s l) := by
  unfold State.sendIdent
  repeat' first
    | (with_reducible first
        | assumption | refine State.modLink_keeps ?_ | refine ite_keeps ?_ ?_ | intro _)
    | dsimp only | split
    | fail_if_no_progress with_reducible refine Keeps.of_mk ?_

theorem State.identDue_keeps {u : State} {s : State} {l : LinkIx} (h_s : Keeps u s) : Keeps u (State.identDue s l) := by
  unfold State.identDue
  repeat' first
    | (with_reducible first
        | assumption | refine State.sendIdent_keeps ?_ | refine ite_keeps ?_ ?_)
    | dsimp only | split
    | fail_if_no_progress with_reducible refine Keeps.of_mk ?_

theorem State.dropWaiting_keeps {u : State} {s : State} {l : LinkIx} (h_s : Keeps u s) : Keeps u (State.dropWaiting s l) := by
  unfold State.dropWaiting
  repeat' first
    | (with_reducible first
        | assumption | refine State.modLink_keeps ?_ | refine State.discards_keeps ?_ | refine State.freeUnits_keeps ?_
        | refine foldl_keeps ?_ ?_ | refine foldl_snd_keeps ?_ ?_ | refine ite_keeps ?_ ?_ | intro _)
    | dsimp only | split
    | fail_if_no_progress with_reducible refine Keeps.of_mk ?_

theorem State.disablePort_keeps {u : State} {s : State} {l : LinkIx} (h_s : Keeps u s) : Keeps u (State.disablePort s l) := by
  unfold State.disablePort
  repeat' first
    | (with_reducible first
        | assumption | refine State.put_keeps ?_ | refine State.modLink_keeps ?_ | refine State.linkTo_keeps ?_
        | refine State.dropWaiting_keeps ?_ | refine ite_keeps ?_ ?_ | intro _)
    | dsimp only | split
    | fail_if_no_progress with_reducible refine Keeps.of_mk ?_

theorem State.train_keeps {u : State} {s : State} {l : LinkIx} (h_s : Keeps u s) : Keeps u (State.train s l) := by
  unfold State.train
  repeat' first
    | (with_reducible first
        | assumption | refine State.linkTo_keeps ?_ | refine State.bump_keeps ?_ | refine State.modLink_keeps ?_ | intro _)
    | fail_if_no_progress with_reducible refine Keeps.of_mk ?_

theorem State.leaveUp_keeps {u : State} {s : State} {l : LinkIx} (h_s : Keeps u s) : Keeps u (State.leaveUp s l) := by
  unfold State.leaveUp
  repeat' first
    | (with_reducible first
        | assumption | refine State.train_keeps ?_ | refine State.modLink_keeps ?_ | intro _)
    | fail_if_no_progress with_reducible refine Keeps.of_mk ?_

theorem State.retrainPort_keeps {u : State} {s : State} {l : LinkIx} (h_s : Keeps u s) : Keeps u (State.retrainPort s l) := by
  unfold State.retrainPort
  repeat' first
    | (with_reducible first
        | assumption | refine State.leaveUp_keeps ?_ | refine State.train_keeps ?_ | refine State.setK_keeps ?_
        | refine ite_keeps ?_ ?_)
    | dsimp only | split
    | fail_if_no_progress with_reducible refine Keeps.of_mk ?_

theorem State.linkRecord_keeps {u : State} {s : State} {l : LinkIx} {code : Nat} {d : Nat}
    (h_s : Keeps u s) : Keeps u (State.linkRecord s l code d) := by
  unfold State.linkRecord
  repeat' first
    | (with_reducible first
        | assumption | refine State.raise_keeps ?_)
    | fail_if_no_progress with_reducible refine Keeps.of_mk ?_

theorem State.markLane_keeps {u : State} {s : State} {l : LinkIx} {phys : Nat} {reason : Nat}
    (h_s : Keeps u s) : Keeps u (State.markLane s l phys reason) := by
  unfold State.markLane
  repeat' first
    | (with_reducible first
        | assumption | refine State.linkRecord_keeps ?_ | refine State.put_keeps ?_ | refine State.sendIntr_keeps ?_
        | refine ite_keeps ?_ ?_)
    | dsimp only | split
    | fail_if_no_progress with_reducible refine Keeps.of_mk ?_

theorem State.halfWidth_keeps {u : State} {s : State} {l : LinkIx} {lanes : List (Nat × Nat)}
    (h_s : Keeps u s) : Keeps u (State.halfWidth s l lanes) := by
  unfold State.halfWidth
  repeat' first
    | (with_reducible first
        | assumption | refine State.markLane_keeps ?_ | refine State.modLink_keeps ?_ | refine State.leaveUp_keeps ?_
        | refine State.closeFrame_keeps ?_ | refine foldl_keeps ?_ ?_ | refine foldl_snd_keeps ?_ ?_ | refine ite_keeps ?_ ?_ | intro _)
    | dsimp only | split
    | fail_if_no_progress with_reducible refine Keeps.of_mk ?_

theorem State.retire_keeps {u : State} {s : State} {l : LinkIx} {phys : Nat} {reason : Nat}
    (h_s : Keeps u s) : Keeps u (State.retire s l phys reason) := by
  unfold State.retire
  repeat' first
    | (with_reducible first
        | assumption | refine State.markLane_keeps ?_ | refine State.modLink_keeps ?_ | refine State.tell_keeps ?_
        | refine State.halfWidth_keeps ?_ | refine ite_keeps ?_ ?_ | intro _)
    | dsimp only | split
    | fail_if_no_progress with_reducible refine Keeps.of_mk ?_

theorem State.laneErrors_keeps {u : State} {s : State} {l : LinkIx} {errs : List Nat}
    (h_s : Keeps u s) : Keeps u (State.laneErrors s l errs) := by
  unfold State.laneErrors
  repeat' first
    | (with_reducible first
        | assumption | refine State.modLink_keeps ?_ | refine State.retire_keeps ?_ | refine foldl_keeps ?_ ?_
        | refine foldl_snd_keeps ?_ ?_ | refine ite_keeps ?_ ?_ | intro _)
    | dsimp only | split
    | fail_if_no_progress with_reducible refine Keeps.of_mk ?_

theorem State.badFrame_keeps {u : State} {s : State} {l : LinkIx} {m : Nat} (h_s : Keeps u s) : Keeps u (State.badFrame s l m) := by
  unfold State.badFrame
  repeat' first
    | (with_reducible first
        | assumption | refine State.modLink_keeps ?_ | refine State.retire_keeps ?_ | refine ite_keeps ?_ ?_ | intro _)
    | dsimp only | split
    | fail_if_no_progress with_reducible refine Keeps.of_mk ?_

theorem State.seeShadow_keeps {u : State} {s : State} {l : LinkIx} {v : Nat} (h_s : Keeps u s) : Keeps u (State.seeShadow s l v) := by
  unfold State.seeShadow
  repeat' first
    | (with_reducible first
        | assumption | refine State.modLink_keeps ?_ | refine State.put_keeps ?_ | refine ite_keeps ?_ ?_ | intro _)
    | dsimp only | split
    | fail_if_no_progress with_reducible refine Keeps.of_mk ?_

theorem State.takeCredits_keeps {u : State} {s : State} {l : LinkIx} {cs : List Nat}
    (h_s : Keeps u s) : Keeps u (State.takeCredits s l cs) := by
  unfold State.takeCredits
  repeat' first
    | (with_reducible first
        | assumption | refine State.modLink_keeps ?_ | refine ite_keeps ?_ ?_ | intro _)
    | dsimp only | split
    | fail_if_no_progress with_reducible refine Keeps.of_mk ?_

theorem State.ackFrames_keeps {u : State} {s : State} {l : LinkIx} {x2 : Nat}
    (h_s : Keeps u s) : Keeps u (State.ackFrames s l x2) := by
  unfold State.ackFrames
  repeat' first
    | (with_reducible first
        | assumption | refine State.modLink_keeps ?_ | refine ite_keeps ?_ ?_ | intro _)
    | dsimp only | split
    | fail_if_no_progress with_reducible refine Keeps.of_mk ?_

theorem State.resendFrames_keeps {u : State} {s : State} {l : LinkIx} (h_s : Keeps u s) : Keeps u (State.resendFrames s l) := by
  unfold State.resendFrames
  repeat' first
    | (with_reducible first
        | assumption | refine State.modLink_keeps ?_ | refine foldl_keeps ?_ ?_ | refine foldl_snd_keeps ?_ ?_ | intro _)
    | fail_if_no_progress with_reducible refine Keeps.of_mk ?_

theorem State.replayLink_keeps {u : State} {s : State} {l : LinkIx} (h_s : Keeps u s) : Keeps u (State.replayLink s l) := by
  unfold State.replayLink
  repeat' first
    | (with_reducible first
        | assumption | refine State.modLink_keeps ?_ | refine State.resendFrames_keeps ?_ | refine State.tally_keeps ?_
        | refine State.leaveUp_keeps ?_ | refine State.linkRecord_keeps ?_ | refine ite_keeps ?_ ?_ | intro _)
    | dsimp only | split
    | fail_if_no_progress with_reducible refine Keeps.of_mk ?_

theorem State.pumpLink_keeps {u : State} {s : State} {l : LinkIx} (h_s : Keeps u s) : Keeps u (State.pumpLink s l) := by
  unfold State.pumpLink
  repeat' first
    | (with_reducible first
        | assumption | refine State.frlPump_keeps ?_ | refine State.pump_keeps ?_ | refine ite_keeps ?_ ?_)
    | dsimp only | split
    | fail_if_no_progress with_reducible refine Keeps.of_mk ?_

theorem State.spareEnded_keeps {u : State} {s : State} {l : LinkIx} {lane : Nat}
    (h_s : Keeps u s) : Keeps u (State.spareEnded s l lane) := by
  unfold State.spareEnded
  repeat' first
    | (with_reducible first
        | assumption | refine State.modLink_keeps ?_ | refine ite_keeps ?_ ?_ | intro _)
    | dsimp only | split
    | fail_if_no_progress with_reducible refine Keeps.of_mk ?_

theorem State.halfAsked_keeps {u : State} {s : State} {l : LinkIx} (h_s : Keeps u s) : Keeps u (State.halfAsked s l) := by
  unfold State.halfAsked
  repeat' first
    | (with_reducible first
        | assumption | refine State.leaveUp_keeps ?_)
    | fail_if_no_progress with_reducible refine Keeps.of_mk ?_

theorem State.laneOpIn_keeps {u : State} {s : State} {l : LinkIx} {op : LaneOp} {lane : Nat}
    (h_s : Keeps u s) : Keeps u (State.laneOpIn s l op lane) := by
  unfold State.laneOpIn
  repeat' first
    | (with_reducible first
        | assumption | refine State.spareAsked_keeps ?_ | refine State.spareEnded_keeps ?_ | refine State.halfAsked_keeps ?_)
    | dsimp only | split
    | fail_if_no_progress with_reducible refine Keeps.of_mk ?_

theorem State.control_keeps {u : State} {s : State} {l : LinkIx} {f : Ctrl} (h_s : Keeps u s) : Keeps u (State.control s l f) := by
  unfold State.control
  repeat' first
    | (with_reducible first
        | assumption | refine State.seeShadow_keeps ?_ | refine State.takeCredits_keeps ?_ | refine State.ackFrames_keeps ?_
        | refine State.replayLink_keeps ?_ | refine State.pumpLink_keeps ?_ | refine State.laneOpIn_keeps ?_ | refine ite_keeps ?_ ?_)
    | dsimp only | split
    | fail_if_no_progress with_reducible refine Keeps.of_mk ?_

theorem State.takeBody_keeps {u : State} {s : State} {l : LinkIx} {body : List Byte}
    (h_s : Keeps u s) : Keeps u (State.takeBody s l body) := by
  unfold State.takeBody
  repeat' first
    | (with_reducible first
        | assumption | refine State.modLink_keeps ?_ | refine ite_keeps ?_ ?_ | intro _)
    | dsimp only | split
    | fail_if_no_progress with_reducible refine Keeps.of_mk ?_

theorem State.goodFrame_keeps {u : State} {s : State} {l : LinkIx} {seq : Nat} {replay : Bool} {body : List Byte}
    (h_s : Keeps u s) : Keeps u (State.goodFrame s l seq replay body) := by
  unfold State.goodFrame
  repeat' first
    | (with_reducible first
        | assumption | refine State.control_keeps ?_ | refine State.takeBody_keeps ?_ | refine State.modLink_keeps ?_
        | refine ite_keeps ?_ ?_ | intro _)
    | dsimp only | split
    | fail_if_no_progress with_reducible refine Keeps.of_mk ?_

theorem execFrameReceive_keeps {u : State} {l : LinkIx} {f : RxFrame} {s : State}
    (h_s : Keeps u s) : KeepsOut u (execFrameReceive l f s) := by
  unfold execFrameReceive
  repeat' first
    | (with_reducible first
        | assumption | refine State.laneErrors_keeps ?_ | refine State.badFrame_keeps ?_ | refine State.tally_keeps ?_
        | refine State.goodFrame_keeps ?_ | refine ite_keeps ?_ ?_ | refine iteOut_keeps ?_ ?_ | refine KeepsOut.next ?_)
    | dsimp only | split
    | fail_if_no_progress with_reducible refine Keeps.of_mk ?_

theorem execReplayTimeout_keeps {u : State} {l : LinkIx} {s : State} (h_s : Keeps u s) : KeepsOut u (execReplayTimeout l s) := by
  unfold execReplayTimeout
  repeat' first
    | (with_reducible first
        | assumption | refine act_keeps ?_ ?_ | refine State.replayLink_keeps ?_ | refine KeepsOut.next ?_)
    | fail_if_no_progress with_reducible refine Keeps.of_mk ?_

theorem State.identify_keeps {u : State} {s0 : State} {l : LinkIx} {w : Identity}
    (h_s0 : Keeps u s0) : Keeps u (State.identify s0 l w) := by
  unfold State.identify
  repeat' first
    | (with_reducible first
        | assumption | refine State.sendIdent_keeps ?_ | refine State.put_keeps ?_ | refine State.linkTo_keeps ?_
        | refine State.linkRecord_keeps ?_ | refine State.modLink_keeps ?_ | refine State.ackFrames_keeps ?_ | refine ite_keeps ?_ ?_
        | intro _)
    | dsimp only | split
    | fail_if_no_progress with_reducible refine Keeps.of_mk ?_

theorem execIdentityWord_keeps {u : State} {l : LinkIx} {w : Identity} {s : State}
    (h_s : Keeps u s) : KeepsOut u (execIdentityWord l w s) := by
  unfold execIdentityWord
  repeat' first
    | (with_reducible first
        | assumption | refine State.identify_keeps ?_ | refine State.leaveUp_keeps ?_ | refine ite_keeps ?_ ?_
        | refine iteOut_keeps ?_ ?_ | refine KeepsOut.next ?_)
    | dsimp only | split
    | fail_if_no_progress with_reducible refine Keeps.of_mk ?_

theorem State.prbs_keeps {u : State} {s : State} {l : LinkIx} {errs : Vector Nat 9}
    (h_s : Keeps u s) : Keeps u (State.prbs s l errs) := by
  unfold State.prbs
  repeat' first
    | (with_reducible first
        | assumption | refine State.put_keeps ?_ | refine foldl_keeps ?_ ?_ | refine foldl_snd_keeps ?_ ?_ | refine ite_keeps ?_ ?_
        | intro _)
    | dsimp only | split
    | fail_if_no_progress with_reducible refine Keeps.of_mk ?_

theorem State.coldStart_keeps {u : State} {s : State} {l : LinkIx} (h_s : Keeps u s) : Keeps u (State.coldStart s l) := by
  unfold State.coldStart
  repeat' first
    | (with_reducible first
        | assumption | refine State.bump_keeps ?_ | refine State.discards_keeps ?_ | refine State.modLink_keeps ?_
        | refine State.companionLost_keeps ?_ | refine ite_keeps ?_ ?_ | intro _)
    | dsimp only | split
    | fail_if_no_progress with_reducible refine Keeps.of_mk ?_

theorem State.linkStart_keeps {u : State} {s : State} {l : LinkIx} {m : List Nat × Option Nat × Bool}
    {x : List Nat × Option Nat × Bool} {warm : Bool}
    (h_s : Keeps u s) : Keeps u (State.linkStart s l m x warm) := by
  unfold State.linkStart
  repeat' first
    | (with_reducible first
        | assumption | refine State.modLink_keeps ?_ | refine State.resendFrames_keeps ?_ | refine State.coldStart_keeps ?_
        | refine State.putB_keeps ?_ | refine State.setK_keeps ?_ | refine State.pumpLink_keeps ?_ | refine State.linkTo_keeps ?_
        | refine ite_keeps ?_ ?_ | intro _)
    | dsimp only | split
    | fail_if_no_progress with_reducible refine Keeps.of_mk ?_

theorem execTrainingComplete_keeps {u : State} {d : Trained} {s : State}
    (h_s : Keeps u s) : KeepsOut u (execTrainingComplete d s) := by
  unfold execTrainingComplete
  repeat' first
    | (with_reducible first
        | assumption | refine State.prbs_keeps ?_ | refine act_keeps ?_ ?_ | refine State.linkStart_keeps ?_ | refine KeepsOut.next ?_)
    | dsimp only | split
    | fail_if_no_progress with_reducible refine Keeps.of_mk ?_

theorem execTrainingFailure_keeps {u : State} {l : LinkIx} {how : TrainFail} {s0 : State}
    (h_s0 : Keeps u s0) : KeepsOut u (execTrainingFailure l how s0) := by
  unfold execTrainingFailure
  repeat' first
    | (with_reducible first
        | assumption | refine State.prbs_keeps ?_ | refine State.sendIdent_keeps ?_ | refine State.linkTo_keeps ?_
        | refine State.linkRecord_keeps ?_ | refine State.modLink_keeps ?_ | refine State.setK_keeps ?_ | refine ite_keeps ?_ ?_
        | refine iteOut_keeps ?_ ?_ | refine KeepsOut.next ?_ | intro _)
    | dsimp only | split
    | fail_if_no_progress with_reducible refine Keeps.of_mk ?_

theorem execBackoffEnd_keeps {u : State} {l : LinkIx} {s : State} (h_s : Keeps u s) : KeepsOut u (execBackoffEnd l s) := by
  unfold execBackoffEnd
  repeat' first
    | (with_reducible first
        | assumption | refine act_keeps ?_ ?_ | refine State.train_keeps ?_ | refine KeepsOut.next ?_)
    | dsimp only | split
    | fail_if_no_progress with_reducible refine Keeps.of_mk ?_

theorem execWarmWindowExpiry_keeps {u : State} {l : LinkIx} {s : State} (h_s : Keeps u s) : KeepsOut u (execWarmWindowExpiry l s) := by
  unfold execWarmWindowExpiry
  repeat' first
    | (with_reducible first
        | assumption | refine act_keeps ?_ ?_ | refine State.dropWaiting_keeps ?_ | refine KeepsOut.next ?_)
    | fail_if_no_progress with_reducible refine Keeps.of_mk ?_

theorem execLossOfSignal_keeps {u : State} {l : LinkIx} {lanes : BitVec 9} {s : State}
    (h_s : Keeps u s) : KeepsOut u (execLossOfSignal l lanes s) := by
  unfold execLossOfSignal
  repeat' first
    | (with_reducible first
        | assumption | refine State.retire_keeps ?_ | refine State.leaveUp_keeps ?_ | refine State.linkRecord_keeps ?_
        | refine ite_keeps ?_ ?_ | refine iteOut_keeps ?_ ?_ | refine KeepsOut.next ?_ | intro _)
    | dsimp only | split
    | fail_if_no_progress with_reducible refine Keeps.of_mk ?_

theorem execThresholdWindowEnd_keeps {u : State} {l : LinkIx} {s : State}
    (h_s : Keeps u s) : KeepsOut u (execThresholdWindowEnd l s) := by
  unfold execThresholdWindowEnd
  repeat' first
    | (with_reducible first
        | assumption | refine act_keeps ?_ ?_ | refine State.modLink_keeps ?_ | refine State.put_keeps ?_ | refine KeepsOut.next ?_
        | intro _)
    | fail_if_no_progress with_reducible refine Keeps.of_mk ?_

theorem execSpareDone_keeps {u : State} {l : LinkIx} {lane : BitVec 4} {s : State}
    (h_s : Keeps u s) : KeepsOut u (execSpareDone l lane s) := by
  unfold execSpareDone
  repeat' first
    | (with_reducible first
        | assumption | refine act_keeps ?_ ?_ | refine State.spareEnded_keeps ?_ | refine KeepsOut.next ?_)
    | fail_if_no_progress with_reducible refine Keeps.of_mk ?_

theorem execHalfReq_keeps {u : State} {l : LinkIx} {s : State} (h_s : Keeps u s) : KeepsOut u (execHalfReq l s) := by
  unfold execHalfReq
  repeat' first
    | (with_reducible first
        | assumption | refine act_keeps ?_ ?_ | refine State.halfAsked_keeps ?_ | refine KeepsOut.next ?_)
    | fail_if_no_progress with_reducible refine Keeps.of_mk ?_

theorem execSpareSwitch_keeps {u : State} {l : LinkIx} {s : State} (h_s : Keeps u s) : KeepsOut u (execSpareSwitch l s) := by
  unfold execSpareSwitch
  repeat' first
    | (with_reducible first
        | assumption | refine State.tell_keeps ?_ | refine State.modLink_keeps ?_ | refine State.halfWidth_keeps ?_
        | refine State.closeFrame_keeps ?_ | refine ite_keeps ?_ ?_ | refine iteOut_keeps ?_ ?_ | refine KeepsOut.next ?_ | intro _)
    | dsimp only | split
    | fail_if_no_progress with_reducible refine Keeps.of_mk ?_

theorem execShadowRotation_keeps {u : State} {l : LinkIx} {s : State} (h_s : Keeps u s) : KeepsOut u (execShadowRotation l s) := by
  unfold execShadowRotation
  repeat' first
    | (with_reducible first
        | assumption | refine act_keeps ?_ ?_ | refine State.modLink_keeps ?_ | refine ite_keeps ?_ ?_ | refine iteOut_keeps ?_ ?_
        | refine KeepsOut.next ?_ | intro _)
    | dsimp only | split
    | fail_if_no_progress with_reducible refine Keeps.of_mk ?_

theorem execPortDisable_keeps {u : State} {l : LinkIx} {s : State} (h_s : Keeps u s) : KeepsOut u (execPortDisable l s) := by
  unfold execPortDisable
  repeat' first
    | (with_reducible first
        | assumption | refine act_keeps ?_ ?_ | refine State.disablePort_keeps ?_ | refine KeepsOut.next ?_)
    | fail_if_no_progress with_reducible refine Keeps.of_mk ?_

theorem execPortEnable_keeps {u : State} {l : LinkIx} {s : State} (h_s : Keeps u s) : KeepsOut u (execPortEnable l s) := by
  unfold execPortEnable
  repeat' first
    | (with_reducible first
        | assumption | refine act_keeps ?_ ?_ | refine State.enablePort_keeps ?_ | refine KeepsOut.next ?_)
    | fail_if_no_progress with_reducible refine Keeps.of_mk ?_

theorem execPortRetrain_keeps {u : State} {l : LinkIx} {s : State} (h_s : Keeps u s) : KeepsOut u (execPortRetrain l s) := by
  unfold execPortRetrain
  repeat' first
    | (with_reducible first
        | assumption | refine act_keeps ?_ ?_ | refine State.retrainPort_keeps ?_ | refine KeepsOut.next ?_)
    | fail_if_no_progress with_reducible refine Keeps.of_mk ?_

theorem execLaneRetire_keeps {u : State} {l : LinkIx} {lane : BitVec 4} {s : State}
    (h_s : Keeps u s) : KeepsOut u (execLaneRetire l lane s) := by
  unfold execLaneRetire
  repeat' first
    | (with_reducible first
        | assumption | refine act_keeps ?_ ?_ | refine State.retire_keeps ?_ | refine State.put_keeps ?_ | refine KeepsOut.next ?_)
    | fail_if_no_progress with_reducible refine Keeps.of_mk ?_

/-! ### Machine/Weights.lean -/

theorem State.wtsRecord_keeps {u : State} {s : State} {code : Nat} {d : Nat}
    (h_s : Keeps u s) : Keeps u (State.wtsRecord s code d) := by
  unfold State.wtsRecord
  repeat' first
    | (with_reducible first
        | assumption | refine State.raise_keeps ?_)
    | fail_if_no_progress with_reducible refine Keeps.of_mk ?_

theorem State.endLoad_keeps {u : State} {s : State} {m : Nat} (h_s : Keeps u s) : Keeps u (State.endLoad s m) := by
  unfold State.endLoad
  repeat' first
    | (with_reducible first
        | assumption | refine State.modWts_keeps ?_ | refine State.fillLoads_keeps ?_ | refine State.showLanes_keeps ?_
        | refine ite_keeps ?_ ?_ | intro _)
    | dsimp only | split
    | fail_if_no_progress with_reducible refine Keeps.of_mk ?_

theorem State.unpop_keeps {u : State} {s : State} {m : Nat} (h_s : Keeps u s) : Keeps u (State.unpop s m) := by
  unfold State.unpop
  repeat' first
    | (with_reducible first
        | assumption | refine State.pushFrame_keeps ?_ | refine foldl_keeps ?_ ?_ | refine foldl_snd_keeps ?_ ?_ | intro _)
    | dsimp only | split
    | fail_if_no_progress with_reducible refine Keeps.of_mk ?_

theorem State.mdTo_keeps {u : State} {s : State} {m : Nat} {v : Nat} (h_s : Keeps u s) : Keeps u (State.mdTo s m v) := by
  unfold State.mdTo
  repeat' first
    | (with_reducible first
        | assumption | refine State.md4Wr_keeps ?_ | refine State.flag_keeps ?_ | refine ite_keeps ?_ ?_)
    | dsimp only | split
    | fail_if_no_progress with_reducible refine Keeps.of_mk ?_

theorem State.holdGroup_keeps {u : State} {s : State} {m : Nat} (h_s : Keeps u s) : Keeps u (State.holdGroup s m) := by
  unfold State.holdGroup
  repeat' first
    | (with_reducible first
        | assumption | refine State.action_keeps ?_ | refine foldl_keeps ?_ ?_ | refine foldl_snd_keeps ?_ ?_ | refine ite_keeps ?_ ?_
        | intro _)
    | dsimp only | split
    | fail_if_no_progress with_reducible refine Keeps.of_mk ?_

theorem State.unmapPage_keeps {u : State} {s : State} {m : Nat} {page : Nat}
    (h_s : Keeps u s) : Keeps u (State.unmapPage s m page) := by
  unfold State.unmapPage
  repeat' first
    | (with_reducible first
        | assumption | refine State.setLeaf_keeps ?_ | refine State.modWts_keeps ?_ | refine ite_keeps ?_ ?_ | intro _)
    | dsimp only | split
    | fail_if_no_progress with_reducible refine Keeps.of_mk ?_

theorem State.evictModel_keeps {u : State} {s : State} {m : Nat} {tell : Bool}
    (h_s : Keeps u s) : Keeps u (State.evictModel s m tell) := by
  unfold State.evictModel
  repeat' first
    | (with_reducible first
        | assumption | refine State.holdGroup_keeps ?_ | refine State.event_keeps ?_ | refine State.unmapPage_keeps ?_
        | refine State.mdWr_keeps ?_ | refine State.wrLE_keeps ?_ | refine State.bump_keeps ?_ | refine State.modWts_keeps ?_
        | refine foldl_keeps ?_ ?_ | refine foldl_snd_keeps ?_ ?_ | refine ite_keeps ?_ ?_ | intro _)
    | dsimp only | split
    | fail_if_no_progress with_reducible refine Keeps.of_mk ?_

theorem State.resumeGroup_keeps {u : State} {s : State} {m : Nat} (h_s : Keeps u s) : Keeps u (State.resumeGroup s m) := by
  unfold State.resumeGroup
  repeat' first
    | (with_reducible first
        | assumption | refine State.action_keeps ?_ | refine foldl_keeps ?_ ?_ | refine foldl_snd_keeps ?_ ?_ | refine ite_keeps ?_ ?_
        | intro _)
    | dsimp only | split
    | fail_if_no_progress with_reducible refine Keeps.of_mk ?_

theorem State.mdSetGoal_keeps {u : State} {s : State} {m : Nat} {v : Nat} (h_s : Keeps u s) : Keeps u (State.mdSetGoal s m v) := by
  unfold State.mdSetGoal
  repeat' first
    | (with_reducible first
        | assumption | refine State.md4Wr_keeps ?_)
    | fail_if_no_progress with_reducible refine Keeps.of_mk ?_

theorem State.loadFail_keeps {u : State} {s : State} {m : Nat} {reason : Nat} {shard : Nat}
    (h_s : Keeps u s) : Keeps u (State.loadFail s m reason shard) := by
  unfold State.loadFail
  repeat' first
    | (with_reducible first
        | assumption | refine State.rec40Wr_keeps ?_ | refine State.md4Wr_keeps ?_ | refine State.endLoad_keeps ?_
        | refine State.unpop_keeps ?_ | refine State.wtsRecord_keeps ?_ | refine State.mdWr_keeps ?_ | refine State.mdTo_keeps ?_
        | refine State.evictModel_keeps ?_ | refine State.resumeGroup_keeps ?_ | refine State.mdSetGoal_keeps ?_
        | refine ite_keeps ?_ ?_)
    | dsimp only | split
    | fail_if_no_progress with_reducible refine Keeps.of_mk ?_

theorem State.corruptShard_keeps {u : State} {s : State} {m : Nat} {l : LoadSt} {i : Nat}
    (h_s : Keeps u s) : Keeps u (State.corruptShard s m l i) := by
  unfold State.corruptShard
  repeat' first
    | (with_reducible first
        | assumption | refine State.bump_keeps ?_ | refine State.mdWr_keeps ?_ | refine State.rec40Wr_keeps ?_
        | refine State.wtsRecord_keeps ?_ | refine State.loadFail_keeps ?_ | refine State.readShard_keeps ?_ | refine ite_keeps ?_ ?_)
    | dsimp only | split
    | fail_if_no_progress with_reducible refine Keeps.of_mk ?_

theorem ownerWriteGo_keeps {u : State} {ctx : Nat} {x1 : Nat} {x2 : Nat} {x3 : List Byte} {x4 : State}
    (h_x4 : Keeps u x4) : KeepsOpt u (ownerWriteGo ctx x1 x2 x3 x4) := by
  induction x1 generalizing x2 x3 x4 with
  | zero =>
    unfold ownerWriteGo
    repeat' first
      | with_reducible assumption
      | refine KeepsOpt.some ?_
      | fail_if_no_progress with_reducible refine Keeps.of_mk ?_
  | succ kk ih =>
    unfold ownerWriteGo
    try dsimp only
    repeat' first
      | (with_reducible first
          | assumption | refine ih ?_ | refine State.extWrite_keeps ?_ | refine State.drop_keeps ?_ | exact KeepsOpt.none
          | refine KeepsOpt.some ?_ | intro _)
      | dsimp only | split
      | with_reducible refine KeepsOpt.get (ih ?_) (by with_reducible assumption)
      | fail_if_no_progress with_reducible refine Keeps.of_mk ?_

theorem ownerWrite_keeps {u : State} {s : State} {ctx : Nat} {addr : Nat} {bs : List Byte}
    (h_s : Keeps u s) : KeepsOpt u (ownerWrite s ctx addr bs) := by
  unfold ownerWrite
  repeat' first
    | (with_reducible first
        | assumption | refine ownerWriteGo_keeps ?_ | refine KeepsOpt.getD (ownerWriteGo_keeps ?_) ?_ | exact KeepsOpt.none
        | refine KeepsOpt.some ?_ | refine KeepsOpt.get (ownerWriteGo_keeps ?_) (by with_reducible assumption))
    | fail_if_no_progress with_reducible refine Keeps.of_mk ?_

theorem writeParts_keeps {u : State} {ctx : Nat} {x1 : List (Nat × Nat)} {x2 : List Byte} {x3 : State}
    (h_x3 : Keeps u x3) : KeepsOpt u (writeParts ctx x1 x2 x3) := by
  induction x1 generalizing x2 x3 with
  | nil =>
    unfold writeParts
    repeat' first
      | with_reducible assumption
      | refine KeepsOpt.some ?_
      | fail_if_no_progress with_reducible refine Keeps.of_mk ?_
  | cons aa rr ih =>
    unfold writeParts
    try dsimp only
    repeat' first
      | (with_reducible first
          | assumption | refine ih ?_ | refine State.drop_keeps ?_ | refine ownerWrite_keeps ?_
          | refine KeepsOpt.getD (ownerWrite_keeps ?_) ?_ | exact KeepsOpt.none | refine KeepsOpt.some ?_ | intro _)
      | dsimp only | split
      | (with_reducible first
          | refine KeepsOpt.get (ownerWrite_keeps ?_) (by with_reducible assumption)
          | refine KeepsOpt.get (ih ?_) (by with_reducible assumption))
      | fail_if_no_progress with_reducible refine Keeps.of_mk ?_

theorem State.shardLanded_keeps {u : State} {s : State} {m : Nat} {x : Landed}
    (h_s : Keeps u s) : Keeps u (State.shardLanded s m x) := by
  unfold State.shardLanded
  repeat' first
    | (with_reducible first
        | assumption | refine State.rec40Wr_keeps ?_ | refine State.modLoad_keeps ?_ | refine State.fillLoads_keeps ?_
        | refine State.bump_keeps ?_ | refine State.mdWr_keeps ?_ | intro _)
    | fail_if_no_progress with_reducible refine Keeps.of_mk ?_

theorem State.landDesc_keeps {u : State} {s : State} {m : Nat} {i : Nat} {h : List Byte} {payload : List Byte}
    (h_s : Keeps u s) : Keeps u (State.landDesc s m i h payload) := by
  unfold State.landDesc
  repeat' first
    | (with_reducible first
        | assumption | refine writeParts_keeps ?_ | refine State.loadFail_keeps ?_ | refine State.shardLanded_keeps ?_
        | refine KeepsOpt.getD (writeParts_keeps ?_) ?_)
    | dsimp only | split
    | with_reducible refine KeepsOpt.get (writeParts_keeps ?_) (by with_reducible assumption)
    | fail_if_no_progress with_reducible refine Keeps.of_mk ?_

theorem writeFrames_keeps {u : State} {n : PartIx} {t : Nat} {x2 : List Nat} {x3 : List Byte} {x4 : State}
    (h_x4 : Keeps u x4) : Keeps u (writeFrames n t x2 x3 x4) := by
  induction x2 generalizing x3 x4 with
  | nil =>
    unfold writeFrames
    repeat' first
      | with_reducible assumption
      | fail_if_no_progress with_reducible refine Keeps.of_mk ?_
  | cons aa rr ih =>
    unfold writeFrames
    try dsimp only
    repeat' first
      | (with_reducible first
          | assumption | refine ih ?_ | refine State.drop_keeps ?_ | refine State.extWrite_keeps ?_ | intro _)
      | fail_if_no_progress with_reducible refine Keeps.of_mk ?_

theorem State.landFinal_keeps {u : State} {s : State} {m : Nat} {l : LoadSt} {i : Nat} {h : List Byte} {payload : List Byte}
    (h_s : Keeps u s) : Keeps u (State.landFinal s m l i h payload) := by
  unfold State.landFinal
  repeat' first
    | (with_reducible first
        | assumption | refine State.landDesc_keeps ?_ | refine State.shardLanded_keeps ?_ | refine writeFrames_keeps ?_
        | refine ite_keeps ?_ ?_ | intro _)
    | dsimp only | split
    | fail_if_no_progress with_reducible refine Keeps.of_mk ?_

theorem State.stageShard_keeps {u : State} {s : State} {m : Nat} {i : Nat} {h : List Byte} {data : List Byte} {pages : List Nat}
    (h_s : Keeps u s) : Keeps u (State.stageShard s m i h data pages) := by
  unfold State.stageShard
  repeat' first
    | (with_reducible first
        | assumption | refine State.extWrite_keeps ?_ | refine State.fillLoads_keeps ?_ | refine State.dropRead_keeps ?_
        | refine State.modWts_keeps ?_ | refine foldl_keeps ?_ ?_ | refine foldl_snd_keeps ?_ ?_ | intro _)
    | fail_if_no_progress with_reducible refine Keeps.of_mk ?_

theorem State.shardIn_keeps {u : State} {s : State} {m : Nat} {l : LoadSt} {r : WtsRead}
    (h_s : Keeps u s) : Keeps u (State.shardIn s m l r) := by
  unfold State.shardIn
  repeat' first
    | (with_reducible first
        | assumption | refine State.corruptShard_keeps ?_ | refine State.loadFail_keeps ?_ | refine State.landFinal_keeps ?_
        | refine State.dropRead_keeps ?_ | refine State.stageShard_keeps ?_ | refine ite_keeps ?_ ?_ | intro _)
    | dsimp only | split
    | fail_if_no_progress with_reducible refine Keeps.of_mk ?_

theorem State.wtsClean_keeps {u : State} {s : State} {n : PartIx} (h_s : Keeps u s) : Keeps u (State.wtsClean s n) := by
  unfold State.wtsClean
  repeat' first
    | (with_reducible first
        | assumption | refine State.md4Wr_keeps ?_ | refine State.endLoad_keeps ?_ | refine State.modWts_keeps ?_
        | refine foldl_keeps ?_ ?_ | refine foldl_snd_keeps ?_ ?_ | intro _)
    | fail_if_no_progress with_reducible refine Keeps.of_mk ?_

theorem State.wtsRetain_keeps {u : State} {s : State} {n : PartIx} (h_s : Keeps u s) : Keeps u (State.wtsRetain s n) := by
  unfold State.wtsRetain
  repeat' first
    | (with_reducible first
        | assumption | refine State.endLoad_keeps ?_ | refine State.unpop_keeps ?_ | refine State.modWts_keeps ?_
        | refine State.mdTo_keeps ?_ | refine State.md4Wr_keeps ?_ | refine State.evictModel_keeps ?_ | refine State.mdSetGoal_keeps ?_
        | refine State.mdWr_keeps ?_ | refine State.pushFrame_keeps ?_ | refine foldl_keeps ?_ ?_ | refine foldl_snd_keeps ?_ ?_
        | refine ite_keeps ?_ ?_ | intro _)
    | dsimp only | split
    | fail_if_no_progress with_reducible refine Keeps.of_mk ?_

theorem State.rejectCtx_keeps {u : State} {s : State} {m : Nat} {k : Nat} {mark : Nat}
    (h_s : Keeps u s) : Keeps u (State.rejectCtx s m k mark) := by
  unfold State.rejectCtx
  repeat' first
    | (with_reducible first
        | assumption | refine State.mdWr_keeps ?_ | refine State.event_keeps ?_ | refine State.ctxWr_keeps ?_)
    | fail_if_no_progress with_reducible refine Keeps.of_mk ?_

theorem State.beginLoad_keeps {u : State} {s : State} {m : Nat} {st : Nat} {only : Option Nat}
    (h_s : Keeps u s) : Keeps u (State.beginLoad s m st only) := by
  unfold State.beginLoad
  repeat' first
    | (with_reducible first
        | assumption | refine State.mdWr_keeps ?_ | refine State.md4Wr_keeps ?_ | refine State.startRead_keeps ?_
        | refine State.modWts_keeps ?_ | intro _)
    | fail_if_no_progress with_reducible refine Keeps.of_mk ?_

theorem State.endDrain_keeps {u : State} {s : State} {d : DrainSt} (h_s : Keeps u s) : Keeps u (State.endDrain s d) := by
  unfold State.endDrain
  repeat' first
    | (with_reducible first
        | assumption | refine State.modWts_keeps ?_ | refine State.mdTo_keeps ?_ | refine State.evictModel_keeps ?_
        | refine State.beginLoad_keeps ?_ | refine ite_keeps ?_ ?_ | intro _)
    | dsimp only | split
    | fail_if_no_progress with_reducible refine Keeps.of_mk ?_

theorem State.checkDrains_keeps {u : State} {s : State} (h_s : Keeps u s) : Keeps u (State.checkDrains s) := by
  unfold State.checkDrains
  repeat' first
    | (with_reducible first
        | assumption | refine State.rejectCtx_keeps ?_ | refine State.modWts_keeps ?_ | refine State.endDrain_keeps ?_
        | refine foldl_keeps ?_ ?_ | refine foldl_snd_keeps ?_ ?_ | refine ite_keeps ?_ ?_ | intro _)
    | dsimp only | split
    | fail_if_no_progress with_reducible refine Keeps.of_mk ?_

theorem State.wtsResult_keeps {u : State} {s : State} {r : Nat} (h_s : Keeps u s) : Keeps u (State.wtsResult s r) := by
  unfold State.wtsResult
  repeat' first
    | (with_reducible first
        | assumption | refine State.put_keeps ?_)
    | fail_if_no_progress with_reducible refine Keeps.of_mk ?_

theorem State.mayLoad_keeps {u : State} {s : State} {m : Nat} {go : State}
    (h_s : Keeps u s) (h_go : Keeps u go) : Keeps u (State.mayLoad s m go) := by
  unfold State.mayLoad
  repeat' first
    | (with_reducible first
        | assumption | refine State.wtsResult_keeps ?_ | refine ite_keeps ?_ ?_)
    | dsimp only | split
    | fail_if_no_progress with_reducible refine Keeps.of_mk ?_

theorem State.takeTenant_keeps {u : State} {s : State} {m : Nat} (h_s : Keeps u s) : Keeps u (State.takeTenant s m) := by
  unfold State.takeTenant
  repeat' first
    | (with_reducible first
        | assumption | refine State.md4Wr_keeps ?_)
    | fail_if_no_progress with_reducible refine Keeps.of_mk ?_

theorem State.beginDrain_keeps {u : State} {s : State} {m : Nat} {goal : Nat} {repair : Option Nat}
    (h_s : Keeps u s) : Keeps u (State.beginDrain s m goal repair) := by
  unfold State.beginDrain
  repeat' first
    | (with_reducible first
        | assumption | refine State.mdWr_keeps ?_ | refine State.md4Wr_keeps ?_ | refine State.mdSetGoal_keeps ?_
        | refine State.modWts_keeps ?_ | refine State.action_keeps ?_ | refine foldl_keeps ?_ ?_ | refine foldl_snd_keeps ?_ ?_
        | refine ite_keeps ?_ ?_ | intro _)
    | dsimp only | split
    | fail_if_no_progress with_reducible refine Keeps.of_mk ?_

theorem State.mdClear_keeps {u : State} {s : State} {m : Nat} (h_s : Keeps u s) : Keeps u (State.mdClear s m) := by
  unfold State.mdClear
  repeat' first
    | (with_reducible first
        | assumption | refine State.modWts_keeps ?_ | intro _)
    | fail_if_no_progress with_reducible refine Keeps.of_mk ?_

theorem State.wtsCmd_keeps {u : State} {s0 : State} {m : Nat} {op : Nat} (h_s0 : Keeps u s0) : Keeps u (State.wtsCmd s0 m op) := by
  unfold State.wtsCmd
  repeat' first
    | (with_reducible first
        | assumption | refine State.put_keeps ?_ | refine State.wtsResult_keeps ?_ | refine State.mayLoad_keeps ?_ ?_
        | refine State.beginLoad_keeps ?_ | refine State.holdGroup_keeps ?_ | refine State.takeTenant_keeps ?_
        | refine State.beginDrain_keeps ?_ | refine State.mdSetGoal_keeps ?_ | refine State.resumeGroup_keeps ?_
        | refine State.mdTo_keeps ?_ | refine State.evictModel_keeps ?_ | refine State.mdClear_keeps ?_ | refine ite_keeps ?_ ?_)
    | dsimp only | split
    | fail_if_no_progress with_reducible refine Keeps.of_mk ?_

theorem execModelLoad_keeps {u : State} {m : Byte} {s : State} (h_s : Keeps u s) : KeepsOut u (execModelLoad m s) := by
  unfold execModelLoad
  repeat' first
    | (with_reducible first
        | assumption | refine act_keeps ?_ ?_ | refine State.wtsCmd_keeps ?_ | refine KeepsOut.next ?_)
    | fail_if_no_progress with_reducible refine Keeps.of_mk ?_

theorem execModelReplace_keeps {u : State} {m : Byte} {s : State} (h_s : Keeps u s) : KeepsOut u (execModelReplace m s) := by
  unfold execModelReplace
  repeat' first
    | (with_reducible first
        | assumption | refine act_keeps ?_ ?_ | refine State.wtsCmd_keeps ?_ | refine KeepsOut.next ?_)
    | fail_if_no_progress with_reducible refine Keeps.of_mk ?_

theorem execModelStop_keeps {u : State} {m : Byte} {s : State} (h_s : Keeps u s) : KeepsOut u (execModelStop m s) := by
  unfold execModelStop
  repeat' first
    | (with_reducible first
        | assumption | refine act_keeps ?_ ?_ | refine State.wtsCmd_keeps ?_ | refine KeepsOut.next ?_)
    | fail_if_no_progress with_reducible refine Keeps.of_mk ?_

theorem execModelResume_keeps {u : State} {m : Byte} {s : State} (h_s : Keeps u s) : KeepsOut u (execModelResume m s) := by
  unfold execModelResume
  repeat' first
    | (with_reducible first
        | assumption | refine act_keeps ?_ ?_ | refine State.wtsCmd_keeps ?_ | refine KeepsOut.next ?_)
    | fail_if_no_progress with_reducible refine Keeps.of_mk ?_

theorem execModelEvict_keeps {u : State} {m : Byte} {s : State} (h_s : Keeps u s) : KeepsOut u (execModelEvict m s) := by
  unfold execModelEvict
  repeat' first
    | (with_reducible first
        | assumption | refine act_keeps ?_ ?_ | refine State.wtsCmd_keeps ?_ | refine KeepsOut.next ?_)
    | fail_if_no_progress with_reducible refine Keeps.of_mk ?_

theorem execModelRelease_keeps {u : State} {m : Byte} {s : State} (h_s : Keeps u s) : KeepsOut u (execModelRelease m s) := by
  unfold execModelRelease
  repeat' first
    | (with_reducible first
        | assumption | refine act_keeps ?_ ?_ | refine State.wtsCmd_keeps ?_ | refine KeepsOut.next ?_)
    | fail_if_no_progress with_reducible refine Keeps.of_mk ?_

theorem evictFor_keeps {u : State} {m : Nat} {n : PartIx} {tenant : Nat} {t : Nat} {need : Nat} {x5 : Nat} {x6 : State}
    (h_x6 : Keeps u x6) : Keeps u (evictFor m n tenant t need x5 x6) := by
  induction x5 generalizing x6 with
  | zero =>
    unfold evictFor
    repeat' first
      | with_reducible assumption
      | fail_if_no_progress with_reducible refine Keeps.of_mk ?_
  | succ kk ih =>
    unfold evictFor
    try dsimp only
    repeat' first
      | (with_reducible first
          | assumption | refine ih ?_ | refine State.evictModel_keeps ?_ | refine State.mdTo_keeps ?_ | refine ite_keeps ?_ ?_
          | intro _)
      | dsimp only | split
      | fail_if_no_progress with_reducible refine Keeps.of_mk ?_

theorem State.popTier_keeps {u : State} {s : State} {m : Nat} {l : LoadSt} {streamed : List Nat} {t : Nat}
    (h_s : Keeps u s) : Keeps u (State.popTier s m l streamed t) := by
  unfold State.popTier
  repeat' first
    | (with_reducible first
        | assumption | refine popFrames_keeps ?_ | refine State.modLoad_keeps ?_ | intro _)
    | dsimp only | split
    | with_reducible refine KeepsOptR.get (popFrames_keeps ?_) (by with_reducible assumption)
    | fail_if_no_progress with_reducible refine Keeps.of_mk ?_

theorem State.newRecords_keeps {u : State} {s : State} {m : Nat} {l : LoadSt}
    (h_s : Keeps u s) : Keeps u (State.newRecords s m l) := by
  unfold State.newRecords
  repeat' first
    | (with_reducible first
        | assumption | refine State.rec40Wr_keeps ?_ | refine State.wrBytes_keeps ?_ | refine foldl_keeps ?_ ?_
        | refine foldl_snd_keeps ?_ ?_ | refine ite_keeps ?_ ?_ | intro _)
    | dsimp only | split
    | fail_if_no_progress with_reducible refine Keeps.of_mk ?_

theorem State.placeLoad_keeps {u : State} {s : State} {m : Nat} {l : LoadSt} {streamed : List Nat}
    (h_s : Keeps u s) : Keeps u (State.placeLoad s m l streamed) := by
  unfold State.placeLoad
  repeat' first
    | (with_reducible first
        | assumption | refine State.popTier_keeps ?_ | refine State.newRecords_keeps ?_ | refine State.modWts_keeps ?_
        | refine State.fillLoad_keeps ?_ | refine State.modLoad_keeps ?_ | refine foldl_keeps ?_ ?_ | refine foldl_snd_keeps ?_ ?_
        | intro _)
    | fail_if_no_progress with_reducible refine Keeps.of_mk ?_

theorem State.tryPlace_keeps {u : State} {s : State} {m : Nat} {l : LoadSt} (h_s : Keeps u s) : Keeps u (State.tryPlace s m l) := by
  unfold State.tryPlace
  repeat' first
    | (with_reducible first
        | assumption | refine State.loadFail_keeps ?_ | refine evictFor_keeps ?_ | refine State.placeLoad_keeps ?_
        | refine foldl_keeps ?_ ?_ | refine foldl_snd_keeps ?_ ?_ | refine ite_keeps ?_ ?_ | intro _)
    | dsimp only | split
    | fail_if_no_progress with_reducible refine Keeps.of_mk ?_

theorem execModelPlacement_keeps {u : State} {m : Byte} {s : State} (h_s : Keeps u s) : KeepsOut u (execModelPlacement m s) := by
  unfold execModelPlacement
  repeat' first
    | (with_reducible first
        | assumption | refine State.loadFail_keeps ?_ | refine State.tryPlace_keeps ?_ | refine ite_keeps ?_ ?_
        | refine iteOut_keeps ?_ ?_ | refine KeepsOut.next ?_ | intro _)
    | dsimp only | split
    | fail_if_no_progress with_reducible refine Keeps.of_mk ?_

theorem execShardArrival_keeps {u : State} {m : Byte} {shard : BitVec 16} {s : State}
    (h_s : Keeps u s) : KeepsOut u (execShardArrival m shard s) := by
  unfold execShardArrival
  repeat' first
    | (with_reducible first
        | assumption | refine act_keeps ?_ ?_ | refine State.shardIn_keeps ?_ | refine KeepsOut.next ?_)
    | dsimp only | split
    | fail_if_no_progress with_reducible refine Keeps.of_mk ?_

theorem execShardPoll_keeps {u : State} {m : Byte} {shard : Option (BitVec 16)} {s : State}
    (h_s : Keeps u s) : KeepsOut u (execShardPoll m shard s) := by
  unfold execShardPoll
  repeat' first
    | (with_reducible first
        | assumption | refine act_keeps ?_ ?_ | refine State.wtsPoll_keeps ?_ | refine KeepsOut.next ?_)
    | dsimp only | split
    | fail_if_no_progress with_reducible refine Keeps.of_mk ?_

theorem execShardTimeout_keeps {u : State} {m : Byte} {s : State} (h_s : Keeps u s) : KeepsOut u (execShardTimeout m s) := by
  unfold execShardTimeout
  repeat' first
    | (with_reducible first
        | assumption | refine act_keeps ?_ ?_ | refine State.loadFail_keeps ?_ | refine KeepsOut.next ?_)
    | dsimp only | split
    | fail_if_no_progress with_reducible refine Keeps.of_mk ?_

theorem State.loadScale_keeps {u : State} {s : State} {n : PartIx} {fmt : Nat} {entry : Nat} {x4 : Nat} {nans : Nat}
    (h_s : Keeps u s) : Keeps u (State.loadScale s n fmt entry x4 nans) := by
  unfold State.loadScale
  repeat' first
    | (with_reducible first
        | assumption | refine State.mergeCapture_keeps ?_ | refine State.wrLE_keeps ?_ | refine ite_keeps ?_ ?_)
    | dsimp only | split
    | fail_if_no_progress with_reducible refine Keeps.of_mk ?_

theorem writeMaster_keeps {u : State} {n : PartIx} {ctx : Nat} {d : Nat} {x3 : List (Nat × List Num)} {x4 : State}
    (h_x4 : Keeps u x4) : KeepsOpt u (writeMaster n ctx d x3 x4) := by
  induction x3 generalizing x4 with
  | nil =>
    unfold writeMaster
    repeat' first
      | with_reducible assumption
      | refine KeepsOpt.some ?_
      | fail_if_no_progress with_reducible refine Keeps.of_mk ?_
  | cons aa rr ih =>
    unfold writeMaster
    try dsimp only
    repeat' first
      | (with_reducible first
          | assumption | refine ih ?_ | refine ownerWrite_keeps ?_ | refine KeepsOpt.getD (ownerWrite_keeps ?_) ?_
          | exact KeepsOpt.none | refine KeepsOpt.some ?_ | intro _)
      | dsimp only | split
      | (with_reducible first
          | refine KeepsOpt.get (ownerWrite_keeps ?_) (by with_reducible assumption)
          | refine KeepsOpt.get (ih ?_) (by with_reducible assumption))
      | fail_if_no_progress with_reducible refine Keeps.of_mk ?_

theorem State.convOver_keeps {u : State} {s : State} {n : PartIx} {fmt : Nat} {entry : Nat} {rows : List (List Num)}
    (h_s : Keeps u s) : Keeps u (State.convOver s n fmt entry rows) := by
  unfold State.convOver
  repeat' first
    | (with_reducible first
        | assumption | refine State.mergeCapture_keeps ?_ | refine ite_keeps ?_ ?_ | intro _)
    | dsimp only | split
    | fail_if_no_progress with_reducible refine Keeps.of_mk ?_

theorem State.convert_keeps {u : State} {s : State} {c : Conv} (h_s : Keeps u s) : Keeps u (State.convert s c) := by
  unfold State.convert
  dsimp only
  generalize rawRows c (stagedData s c) = rows
  have h2 : ∀ (a b : Nat) (f k : Nat), Keeps u (s.loadScale (toPart c.part) f a b k) := fun _ _ _ _ => State.loadScale_keeps h_s
  split
  · refine State.loadFail_keeps (ite_keeps (h2 _ _ _ _) (State.loadScale_keeps (h2 _ _ _ _)))
  · rename_i t ht
    have h3 : Keeps u t := by
      refine KeepsOpt.get (iteOpt_keeps (writeMaster_keeps ?_) (KeepsOpt.some ?_)) ht
      · exact ite_keeps (h2 _ _ _ _) (State.loadScale_keeps (h2 _ _ _ _))
      · exact ite_keeps (h2 _ _ _ _) (State.loadScale_keeps (h2 _ _ _ _))
    exact State.landDesc_keeps (ite_keeps (State.convOver_keeps h3) (State.convOver_keeps (State.convOver_keeps h3)))

theorem State.meetPages_keeps {u : State} {s : State} {pages : List Nat} (h_s : Keeps u s) : Keeps u (State.meetPages s pages) := by
  unfold State.meetPages
  repeat' first
    | (with_reducible first
        | assumption | refine State.meet_keeps ?_ | refine foldl_keeps ?_ ?_ | refine foldl_snd_keeps ?_ ?_ | intro _)
    | fail_if_no_progress with_reducible refine Keeps.of_mk ?_

theorem execShardConversion_keeps {u : State} {m : Byte} {shard : BitVec 16} {s : State}
    (h_s : Keeps u s) : KeepsOut u (execShardConversion m shard s) := by
  unfold execShardConversion
  repeat' first
    | (with_reducible first
        | assumption | refine act_keeps ?_ ?_ | refine State.fillLoads_keeps ?_ | refine State.modWts_keeps ?_
        | refine State.convert_keeps ?_ | refine State.meetPages_keeps ?_ | refine KeepsOut.next ?_ | intro _)
    | dsimp only | split
    | fail_if_no_progress with_reducible refine Keeps.of_mk ?_

theorem State.mapPage_keeps {u : State} {s : State} {m : Nat} {page : Nat} {f : Nat} {t : Nat}
    (h_s : Keeps u s) : Keeps u (State.mapPage s m page f t) := by
  unfold State.mapPage
  repeat' first
    | (with_reducible first
        | assumption | refine State.setLeaf_keeps ?_ | refine State.mdWr_keeps ?_ | refine State.modWts_keeps ?_
        | refine ite_keeps ?_ ?_ | intro _)
    | dsimp only | split
    | fail_if_no_progress with_reducible refine Keeps.of_mk ?_

theorem State.loadSlot_keeps {u : State} {s : State} {m : Nat} {x : Landed} (h_s : Keeps u s) : Keeps u (State.loadSlot s m x) := by
  unfold State.loadSlot
  repeat' first
    | (with_reducible first
        | assumption | refine State.deferChange_keeps ?_ | refine State.commitDeferred_keeps ?_ | refine State.modWts_keeps ?_
        | refine ite_keeps ?_ ?_ | intro _)
    | dsimp only | split
    | fail_if_no_progress with_reducible refine Keeps.of_mk ?_

theorem State.writeRecord_keeps {u : State} {s : State} {m : Nat} {l : LoadSt} {x : Landed}
    (h_s : Keeps u s) : Keeps u (State.writeRecord s m l x) := by
  unfold State.writeRecord
  repeat' first
    | (with_reducible first
        | assumption | refine State.wrLE_keeps ?_ | refine State.wrBytes_keeps ?_)
    | fail_if_no_progress with_reducible refine Keeps.of_mk ?_

theorem State.complete_keeps {u : State} {s : State} {m : Nat} {l : LoadSt} (h_s : Keeps u s) : Keeps u (State.complete s m l) := by
  unfold State.complete
  repeat' first
    | (with_reducible first
        | assumption | refine State.mdWr_keeps ?_ | refine State.mapPage_keeps ?_ | refine State.loadSlot_keeps ?_
        | refine State.writeRecord_keeps ?_ | refine State.wrLE_keeps ?_ | refine foldl_keeps ?_ ?_ | refine foldl_snd_keeps ?_ ?_
        | refine ite_keeps ?_ ?_ | intro _)
    | dsimp only | split
    | fail_if_no_progress with_reducible refine Keeps.of_mk ?_

theorem execLoadCompletion_keeps {u : State} {m : Byte} {s : State} (h_s : Keeps u s) : KeepsOut u (execLoadCompletion m s) := by
  unfold execLoadCompletion
  repeat' first
    | (with_reducible first
        | assumption | refine State.endLoad_keeps ?_ | refine State.complete_keeps ?_ | refine State.mdSetGoal_keeps ?_
        | refine State.resumeGroup_keeps ?_ | refine State.mdTo_keeps ?_ | refine ite_keeps ?_ ?_ | refine iteOut_keeps ?_ ?_
        | refine KeepsOut.next ?_ | intro _)
    | dsimp only | split
    | fail_if_no_progress with_reducible refine Keeps.of_mk ?_

theorem execDrainDeadline_keeps {u : State} {m : Byte} {s : State} (h_s : Keeps u s) : KeepsOut u (execDrainDeadline m s) := by
  unfold execDrainDeadline
  repeat' first
    | (with_reducible first
        | assumption | refine State.action_keeps ?_ | refine State.rejectCtx_keeps ?_ | refine State.checkDrains_keeps ?_
        | refine State.modWts_keeps ?_ | refine foldl_keeps ?_ ?_ | refine foldl_snd_keeps ?_ ?_ | refine ite_keeps ?_ ?_
        | refine iteOut_keeps ?_ ?_ | refine KeepsOut.next ?_ | intro _)
    | dsimp only | split
    | fail_if_no_progress with_reducible refine Keeps.of_mk ?_

theorem State.modStream_keeps {u : State} {s : State} {m : Nat} {f : StreamSt → StreamSt}
    (h_s : Keeps u s) : Keeps u (State.modStream s m f) := by
  unfold State.modStream
  repeat' first
    | (with_reducible first
        | assumption | refine State.modWts_keeps ?_ | refine ite_keeps ?_ ?_ | intro _)
    | dsimp only | split
    | fail_if_no_progress with_reducible refine Keeps.of_mk ?_

theorem State.streamSem_keeps {u : State} {s : State} {m : Nat} {x2 : Nat} {v : Nat}
    (h_s : Keeps u s) : Keeps u (State.streamSem s m x2 v) := by
  unfold State.streamSem
  repeat' first
    | (with_reducible first
        | assumption | refine State.afterExt_keeps ?_ | refine State.wrLE_keeps ?_)
    | dsimp only | split
    | fail_if_no_progress with_reducible refine Keeps.of_mk ?_

theorem execStreamStart_keeps {u : State} {m : Byte} {s : State} (h_s : Keeps u s) : KeepsOut u (execStreamStart m s) := by
  unfold execStreamStart
  repeat' first
    | (with_reducible first
        | assumption | refine act_keeps ?_ ?_ | refine State.modStream_keeps ?_ | refine State.streamSem_keeps ?_
        | refine KeepsOut.next ?_ | intro _)
    | dsimp only | split
    | fail_if_no_progress with_reducible refine Keeps.of_mk ?_

theorem State.streamPage_keeps {u : State} {s : State} {m : Nat} {src : Nat} {dst : Nat}
    (h_s : Keeps u s) : Keeps u (State.streamPage s m src dst) := by
  unfold State.streamPage
  repeat' first
    | (with_reducible first
        | assumption | refine State.meet_keeps ?_ | refine State.extWrite_keeps ?_)
    | dsimp only | split
    | fail_if_no_progress with_reducible refine Keeps.of_mk ?_

theorem execStreamShardCopy_keeps {u : State} {m : Byte} {s : State} (h_s : Keeps u s) : KeepsOut u (execStreamShardCopy m s) := by
  unfold execStreamShardCopy
  repeat' first
    | (with_reducible first
        | assumption | refine State.streamPage_keeps ?_ | refine State.modStream_keeps ?_ | refine State.streamSem_keeps ?_
        | refine foldl_keeps ?_ ?_ | refine foldl_snd_keeps ?_ ?_ | refine ite_keeps ?_ ?_ | refine iteOut_keeps ?_ ?_
        | refine KeepsOut.next ?_ | intro _)
    | dsimp only | split
    | fail_if_no_progress with_reducible refine Keeps.of_mk ?_

theorem ownerMeet_keeps {u : State} {ctx : Nat} {x1 : Nat} {x2 : Nat} {x3 : Nat} {x4 : State}
    (h_x4 : Keeps u x4) : Keeps u (ownerMeet ctx x1 x2 x3 x4) := by
  induction x1 generalizing x2 x3 x4 with
  | zero => exact h_x4
  | succ k ih =>
    unfold ownerMeet
    dsimp only
    refine ih ?_
    split
    · exact State.meet_keeps h_x4
    · exact h_x4

theorem State.sweepMismatch_keeps {u : State} {s : State} {m : Nat} {i : Nat}
    (h_s : Keeps u s) : Keeps u (State.sweepMismatch s m i) := by
  unfold State.sweepMismatch
  repeat' first
    | (with_reducible first
        | assumption | refine State.bump_keeps ?_ | refine State.mdWr_keeps ?_ | refine State.wtsRecord_keeps ?_
        | refine State.beginDrain_keeps ?_ | refine ite_keeps ?_ ?_)
    | dsimp only | split
    | fail_if_no_progress with_reducible refine Keeps.of_mk ?_

theorem execSealSweep_keeps {u : State} {s : State} (h_s : Keeps u s) : KeepsOut u (execSealSweep s) := by
  unfold execSealSweep
  repeat' first
    | (with_reducible first
        | assumption | refine State.modWts_keeps ?_ | refine ownerMeet_keeps ?_ | refine State.bump_keeps ?_
        | refine State.wrLE_keeps ?_ | refine State.sweepMismatch_keeps ?_ | refine foldl_keeps ?_ ?_ | refine foldl_snd_keeps ?_ ?_
        | refine ite_keeps ?_ ?_ | refine iteOut_keeps ?_ ?_ | refine KeepsOut.next ?_ | intro _)
    | dsimp only | split
    | fail_if_no_progress with_reducible refine Keeps.of_mk ?_

theorem State.wtsOut_keeps {u : State} {s : State} {n : PartIx} (h_s : Keeps u s) : Keeps u (State.wtsOut s n) := by
  unfold State.wtsOut
  repeat' first
    | (with_reducible first
        | assumption | refine State.resumeGroup_keeps ?_ | refine State.modWts_keeps ?_ | refine foldl_keeps ?_ ?_
        | refine foldl_snd_keeps ?_ ?_ | intro _)
    | fail_if_no_progress with_reducible refine Keeps.of_mk ?_

theorem execModelFramePush_keeps {u : State} {m : Byte} {s : State} (h_s : Keeps u s) : KeepsOut u (execModelFramePush m s) := by
  unfold execModelFramePush
  repeat' first
    | (with_reducible first
        | assumption | refine act_keeps ?_ ?_ | refine State.pushFrame_keeps ?_ | refine State.modWts_keeps ?_
        | refine KeepsOut.next ?_ | intro _)
    | dsimp only | split
    | fail_if_no_progress with_reducible refine Keeps.of_mk ?_

end Sys2Proof.Machine
end

