-- ==== Sys2Proof/Laws/KeepsModule.lean ====
section
/-! SUPPORT. Laws/KeepsModule.lean: health, resets, register access, boot, debug, management, power and time keep what Laws/Keeps.lean names, operation by operation; a meaning execX by
execX_keeps. -/

set_option linter.unusedTactic false
set_option linter.unreachableTactic false

namespace Sys2Proof.Machine

/-! ### Machine/Health.lean -/

theorem State.clearDomain_keeps {u : State} {s : State} {d : Nat} (h_s : Keeps u s) : Keeps u (State.clearDomain s d) := by
  unfold State.clearDomain
  repeat' first
    | (with_reducible first
        | assumption | refine State.put_keeps ?_)
    | fail_if_no_progress with_reducible refine Keeps.of_mk ?_

theorem State.setConsumer_keeps {u : State} {s : State} {v : Nat} (h_s : Keeps u s) : Keeps u (State.setConsumer s v) := by
  unfold State.setConsumer
  repeat' first
    | (with_reducible first
        | assumption | refine State.put_keeps ?_ | refine ite_keeps ?_ ?_)
    | dsimp only | split
    | fail_if_no_progress with_reducible refine Keeps.of_mk ?_

theorem State.healthTo_keeps {u : State} {s : State} {n : PartIx} {v : Nat} (h_s : Keeps u s) : Keeps u (State.healthTo s n v) := by
  unfold State.healthTo
  repeat' first
    | (with_reducible first
        | assumption | refine State.put_keeps ?_ | refine State.ibiCause_keeps ?_ | refine State.raiseAt_keeps ?_
        | refine ite_keeps ?_ ?_)
    | dsimp only | split
    | fail_if_no_progress with_reducible refine Keeps.of_mk ?_

theorem execProbation_keeps {u : State} {n : PartIx} {s : State} (h_s : Keeps u s) : KeepsOut u (execProbation n s) := by
  unfold execProbation
  repeat' first
    | (with_reducible first
        | assumption | refine act_keeps ?_ ?_ | refine State.healthTo_keeps ?_ | refine State.put_keeps ?_
        | refine State.afterBoundary_keeps ?_ | refine KeepsOut.next ?_)
    | fail_if_no_progress with_reducible refine Keeps.of_mk ?_

theorem execResetState_keeps {u : State} {n : PartIx} {s : State} (h_s : Keeps u s) : KeepsOut u (execResetState n s) := by
  unfold execResetState
  repeat' first
    | (with_reducible first
        | assumption | refine act_keeps ?_ ?_ | refine State.healthTo_keeps ?_ | refine State.put_keeps ?_
        | refine State.afterBoundary_keeps ?_ | refine KeepsOut.next ?_)
    | fail_if_no_progress with_reducible refine Keeps.of_mk ?_

theorem execStateLost_keeps {u : State} {s : State} (h_s : Keeps u s) : KeepsOut u (execStateLost s) := by
  unfold execStateLost
  repeat' first
    | (with_reducible first
        | assumption | refine act_keeps ?_ ?_ | refine State.put_keeps ?_ | refine State.raise_keeps ?_ | refine KeepsOut.next ?_)
    | fail_if_no_progress with_reducible refine Keeps.of_mk ?_

theorem State.closeRate_keeps {u : State} {s : State} {iv : RateIv} (h_s : Keeps u s) : Keeps u (State.closeRate s iv) := by
  unfold State.closeRate
  repeat' first
    | (with_reducible first
        | assumption | refine State.produceRec_keeps ?_ | intro _)
    | dsimp only | split
    | fail_if_no_progress with_reducible refine Keeps.of_mk ?_

theorem execCoalesceIntervalEnd_keeps {u : State} {domain : BitVec 4} {code : BitVec 16} {s : State}
    (h_s : Keeps u s) : KeepsOut u (execCoalesceIntervalEnd domain code s) := by
  unfold execCoalesceIntervalEnd
  repeat' first
    | (with_reducible first
        | assumption | refine act_keeps ?_ ?_ | refine State.closeRate_keeps ?_ | refine KeepsOut.next ?_ | intro _)
    | dsimp only | split
    | fail_if_no_progress with_reducible refine Keeps.of_mk ?_

theorem execErrAck_keeps {u : State} {domain : BitVec 4} {s : State} (h_s : Keeps u s) : KeepsOut u (execErrAck domain s) := by
  unfold execErrAck
  repeat' first
    | (with_reducible first
        | assumption | refine act_keeps ?_ ?_ | refine State.clearDomain_keeps ?_ | refine KeepsOut.next ?_)
    | fail_if_no_progress with_reducible refine Keeps.of_mk ?_

theorem execConsumerWrite_keeps {u : State} {v : BitVec 32} {s : State} (h_s : Keeps u s) : KeepsOut u (execConsumerWrite v s) := by
  unfold execConsumerWrite
  repeat' first
    | (with_reducible first
        | assumption | refine act_keeps ?_ ?_ | refine State.setConsumer_keeps ?_ | refine KeepsOut.next ?_)
    | fail_if_no_progress with_reducible refine Keeps.of_mk ?_

theorem execTraceSlotRelease_keeps {u : State} {k : Fin 2} {s : State} (h_s : Keeps u s) : KeepsOut u (execTraceSlotRelease k s) := by
  unfold execTraceSlotRelease
  repeat' first
    | (with_reducible first
        | assumption | refine act_keeps ?_ ?_ | refine State.put_keeps ?_ | refine KeepsOut.next ?_)
    | fail_if_no_progress with_reducible refine Keeps.of_mk ?_

theorem State.healthRow_keeps {u : State} {s : State} {n : PartIx} {score : Nat}
    (h_s : Keeps u s) : Keeps u (State.healthRow s n score) := by
  unfold State.healthRow
  repeat' first
    | (with_reducible first
        | assumption | refine State.put_keeps ?_ | refine State.healthTo_keeps ?_ | refine ite_keeps ?_ ?_ | intro _)
    | dsimp only | split
    | fail_if_no_progress with_reducible refine Keeps.of_mk ?_

theorem State.healthEnd_keeps {u : State} {s : State} {n : PartIx} (h_s : Keeps u s) : Keeps u (State.healthEnd s n) := by
  unfold State.healthEnd
  repeat' first
    | (with_reducible first
        | assumption | refine State.put_keeps ?_ | refine State.modHealth_keeps ?_ | refine State.bump_keeps ?_
        | refine State.healthRow_keeps ?_ | refine ite_keeps ?_ ?_ | intro _)
    | dsimp only | split
    | fail_if_no_progress with_reducible refine Keeps.of_mk ?_

theorem execHealthWindowEnd_keeps {u : State} {n : PartIx} {s : State} (h_s : Keeps u s) : KeepsOut u (execHealthWindowEnd n s) := by
  unfold execHealthWindowEnd
  repeat' first
    | (with_reducible first
        | assumption | refine act_keeps ?_ ?_ | refine State.healthEnd_keeps ?_ | refine KeepsOut.next ?_)
    | fail_if_no_progress with_reducible refine Keeps.of_mk ?_

theorem execJobWrite_keeps {u : State} {v : Word} {s : State} (h_s : Keeps u s) : KeepsOut u (execJobWrite v s) := by
  unfold execJobWrite
  repeat' first
    | (with_reducible first
        | assumption | refine act_keeps ?_ ?_ | refine State.put_keeps ?_ | refine KeepsOut.next ?_)
    | fail_if_no_progress with_reducible refine Keeps.of_mk ?_

/-! ### Machine/RegRead.lean -/

theorem State.setAgent_keeps {u : State} {s : State} {ag : Agent} {latch : Option (Nat × Nat)} {hold : Option (Nat × Nat)}
    (h_s : Keeps u s) : Keeps u (State.setAgent s ag latch hold) := by
  unfold State.setAgent
  repeat' first
    | with_reducible assumption
    | fail_if_no_progress with_reducible refine Keeps.of_mk ?_

theorem State.readWide_keeps {u : State} {s : State} {ag : Agent} {inst : Nat} {d : Nat} {v : Nat} {wide : Bool} {rc : State → State}
    (h_s : Keeps u s) (h_rc : ∀ tt, Keeps u tt → Keeps u (rc tt)) : KeepsR u (State.readWide s ag inst d v wide rc) := by
  unfold State.readWide
  repeat' first
    | (with_reducible first
        | assumption | refine State.setAgent_keeps ?_ | apply h_rc | refine ite_keeps ?_ ?_ | intro _)
    | dsimp only | split
    | refine KeepsR.of ?_
    | fail_if_no_progress with_reducible refine Keeps.of_mk ?_

theorem State.clearField_keeps {u : State} {s : State} {f : Field} (h_s : Keeps u s) : Keeps u (State.clearField s f) := by
  unfold State.clearField
  repeat' first
    | (with_reducible first
        | assumption | refine State.put_keeps ?_ | refine ite_keeps ?_ ?_ | intro _)
    | dsimp only | split
    | fail_if_no_progress with_reducible refine Keeps.of_mk ?_

theorem State.clearRc_keeps {u : State} {s : State} {r : RegRow} {inst : Nat}
    (h_s : Keeps u s) : Keeps u (State.clearRc s r inst) := by
  unfold State.clearRc
  repeat' first
    | (with_reducible first
        | assumption | refine State.clearField_keeps ?_ | refine foldl_keeps ?_ ?_ | refine foldl_snd_keeps ?_ ?_
        | refine ite_keeps ?_ ?_ | intro _)
    | dsimp only | split
    | fail_if_no_progress with_reducible refine Keeps.of_mk ?_

theorem State.regRead_keeps {u : State} {s : State} {ag : Agent} {off : Nat} {wide : Bool}
    (h_s : Keeps u s) : KeepsR u (State.regRead s ag off wide) := by
  unfold State.regRead
  repeat' first
    | (with_reducible first
        | assumption | refine State.setAgent_keeps ?_ | refine State.readWide_keeps ?_ ?_ | refine State.clearRc_keeps ?_
        | refine KeepsR.snd (State.readWide_keeps ?_ ?_) | refine id_keeps ?_ | refine ite_keeps ?_ ?_ | intro _)
    | dsimp only | split
    | with_reducible refine KeepsR.get (State.readWide_keeps ?_ ?_) (by with_reducible assumption)
    | refine KeepsR.of ?_
    | fail_if_no_progress with_reducible refine Keeps.of_mk ?_

/-! ### Machine/Trace.lean -/

theorem State.putTrace_keeps {u : State} {s : State} {k : Nat} {bs : List Byte}
    (h_s : Keeps u s) : Keeps u (State.putTrace s k bs) := by
  unfold State.putTrace
  repeat' first
    | (with_reducible first
        | assumption | refine State.put_keeps ?_ | refine ite_keeps ?_ ?_)
    | dsimp only | split
    | fail_if_no_progress with_reducible refine Keeps.of_mk ?_

theorem State.traceStart_keeps {u : State} {s : State} {ns : List PartIx} {chip : Bool}
    (h_s : Keeps u s) : Keeps u (State.traceStart s ns chip) := by
  unfold State.traceStart
  repeat' first
    | (with_reducible first
        | assumption | refine State.putTrace_keeps ?_ | refine State.put_keeps ?_)
    | fail_if_no_progress with_reducible refine Keeps.of_mk ?_

theorem State.traceEnd_keeps {u : State} {s : State} {x : TraceSt} (h_s : Keeps u s) : Keeps u (State.traceEnd s x) := by
  unfold State.traceEnd
  repeat' first
    | (with_reducible first
        | assumption | refine State.putTrace_keeps ?_ | refine State.raise_keeps ?_ | refine State.put_keeps ?_
        | refine ite_keeps ?_ ?_ | intro _)
    | dsimp only | split
    | fail_if_no_progress with_reducible refine Keeps.of_mk ?_

theorem State.traceStep_keeps {u : State} {s : State} (h_s : Keeps u s) : Keeps u (State.traceStep s) := by
  unfold State.traceStep
  repeat' first
    | (with_reducible first
        | assumption | refine State.draw_keeps ?_ | refine State.traceEnd_keeps ?_ | refine KeepsR.snd (State.draw_keeps ?_)
        | refine ite_keeps ?_ ?_)
    | dsimp only | split
    | (with_reducible first
        | refine KeepsR.get (State.draw_keeps ?_) (by with_reducible assumption) | refine KeepsR.of ?_)
    | fail_if_no_progress with_reducible refine Keeps.of_mk ?_

/-! ### Machine/Resets.lean -/

theorem State.scrubPart_keeps {u : State} {s : State} {n : PartIx} (h_s : Keeps u s) : Keeps u (State.scrubPart s n) := by
  unfold State.scrubPart
  repeat' first
    | (with_reducible first
        | assumption | refine State.scrubZero_keeps ?_)
    | fail_if_no_progress with_reducible refine Keeps.of_mk ?_

theorem State.resetIn_keeps {u : State} {s : State} {n : PartIx} {clean : Bool}
    (h_s : Keeps u s) : Keeps u (State.resetIn s n clean) := by
  unfold State.resetIn
  repeat' first
    | (with_reducible first
        | assumption | refine State.restore_keeps ?_ | refine State.sendPacket_keeps ?_ | refine foldl_keeps ?_ ?_
        | refine foldl_snd_keeps ?_ ?_ | refine id_keeps ?_ | refine ite_keeps ?_ ?_ | intro _)
    | dsimp only | split
    | fail_if_no_progress with_reducible refine Keeps.of_mk ?_

theorem State.resetOut_keeps {u : State} {s : State} {n : PartIx} {clean : Bool}
    (h_s : Keeps u s) : Keeps u (State.resetOut s n clean) := by
  unfold State.resetOut
  repeat' first
    | (with_reducible first
        | assumption | refine State.modGaz_keeps ?_ | refine State.failTicket_keeps ?_ | refine foldl_keeps ?_ ?_
        | refine foldl_snd_keeps ?_ ?_ | refine ite_keeps ?_ ?_ | intro _)
    | dsimp only | split
    | fail_if_no_progress with_reducible refine Keeps.of_mk ?_

theorem State.beginReset_keeps {u : State} {s : State} {n : PartIx} (h_s : Keeps u s) : Keeps u (State.beginReset s n) := by
  unfold State.beginReset
  repeat' first
    | (with_reducible first
        | assumption | refine State.put_keeps ?_ | refine State.modPart_keeps ?_ | refine State.resetIn_keeps ?_
        | refine State.resetOut_keeps ?_ | refine State.wtsClean_keeps ?_ | refine State.wtsRetain_keeps ?_ | refine ite_keeps ?_ ?_
        | intro _)
    | dsimp only | split
    | fail_if_no_progress with_reducible refine Keeps.of_mk ?_

theorem State.cancelFerrule_keeps {u : State} {s : State} {n : PartIx} (h_s : Keeps u s) : Keeps u (State.cancelFerrule s n) := by
  unfold State.cancelFerrule
  repeat' first
    | (with_reducible first
        | assumption | refine State.setAside_keeps ?_ | intro _)
    | dsimp only | split
    | fail_if_no_progress with_reducible refine Keeps.of_mk ?_

theorem State.emptyQueue_keeps {u : State} {s : State} {n : PartIx} (h_s : Keeps u s) : Keeps u (State.emptyQueue s n) := by
  unfold State.emptyQueue
  repeat' first
    | (with_reducible first
        | assumption | refine State.raise_keeps ?_ | refine State.bump_keeps ?_ | refine State.showOutq_keeps ?_
        | refine State.modPart_keeps ?_ | refine State.failCompanionQueue_keeps ?_ | intro _)
    | dsimp only | split
    | fail_if_no_progress with_reducible refine Keeps.of_mk ?_

theorem State.cancelChart_keeps {u : State} {s : State} {n : PartIx} (h_s : Keeps u s) : Keeps u (State.cancelChart s n) := by
  unfold State.cancelChart
  repeat' first
    | (with_reducible first
        | assumption | refine State.reqBack_keeps ?_ | refine State.creditBack_keeps ?_ | refine State.setAside_keeps ?_
        | refine foldl_keeps ?_ ?_ | refine foldl_snd_keeps ?_ ?_ | intro _)
    | dsimp only | split
    | fail_if_no_progress with_reducible refine Keeps.of_mk ?_

theorem State.endRunning_keeps {u : State} {s : State} {n : PartIx} (h_s : Keeps u s) : Keeps u (State.endRunning s n) := by
  unfold State.endRunning
  repeat' first
    | (with_reducible first
        | assumption | refine forCores_keeps ?_ ?_ | refine State.wipeSeg_keeps ?_ | refine State.dropColl_keeps ?_ | intro _)
    | dsimp only | split
    | fail_if_no_progress with_reducible refine Keeps.of_mk ?_

theorem State.clearPart_keeps {u : State} {s : State} {n : PartIx} (h_s : Keeps u s) : Keeps u (State.clearPart s n) := by
  unfold State.clearPart
  repeat' first
    | (with_reducible first
        | assumption | refine State.pushFrame_keeps ?_ | refine State.modPart_keeps ?_ | refine State.showFree_keeps ?_
        | refine foldl_keeps ?_ ?_ | refine foldl_snd_keeps ?_ ?_ | intro _)
    | fail_if_no_progress with_reducible refine Keeps.of_mk ?_

theorem State.clearCoreRegs_keeps {u : State} {s : State} {c : CoreIx} (h_s : Keeps u s) : Keeps u (State.clearCoreRegs s c) := by
  unfold State.clearCoreRegs
  repeat' first
    | (with_reducible first
        | assumption | refine State.clearRegs_keeps ?_)
    | fail_if_no_progress with_reducible refine Keeps.of_mk ?_

theorem State.clearCores_keeps {u : State} {s : State} {n : PartIx} (h_s : Keeps u s) : Keeps u (State.clearCores s n) := by
  unfold State.clearCores
  repeat' first
    | (with_reducible first
        | assumption | refine forCores_keeps ?_ ?_ | refine State.clearCoreRegs_keeps ?_ | refine State.setCore_keeps ?_
        | refine State.put_keeps ?_ | refine State.clearRegs_keeps ?_ | refine ite_keeps ?_ ?_ | intro _)
    | dsimp only | split
    | fail_if_no_progress with_reducible refine Keeps.of_mk ?_

theorem State.enterStep_keeps {u : State} {s : State} {n : PartIx} {k : Nat} (h_s : Keeps u s) : Keeps u (State.enterStep s n k) := by
  unfold State.enterStep
  repeat' first
    | (with_reducible first
        | assumption | refine State.modPart_keeps ?_ | refine State.put_keeps ?_ | refine State.abandonMig_keeps ?_
        | refine State.cancelFerrule_keeps ?_ | refine State.emptyQueue_keeps ?_ | refine State.cancelChart_keeps ?_
        | refine State.endRunning_keeps ?_ | refine State.clearPart_keeps ?_ | refine State.clearCores_keeps ?_
        | refine ite_keeps ?_ ?_ | intro _)
    | dsimp only | split
    | fail_if_no_progress with_reducible refine Keeps.of_mk ?_

theorem State.resetStep_keeps {u : State} {s : State} {n : PartIx} (h_s : Keeps u s) : Keeps u (State.resetStep s n) := by
  unfold State.resetStep
  repeat' first
    | (with_reducible first
        | assumption | refine State.traceStart_keeps ?_ | refine State.modPart_keeps ?_ | refine State.draw_keeps ?_
        | refine State.enterStep_keeps ?_ | refine KeepsR.snd (State.draw_keeps ?_) | refine ite_keeps ?_ ?_ | intro _)
    | dsimp only | split
    | (with_reducible first
        | refine KeepsR.get (State.draw_keeps ?_) (by with_reducible assumption) | refine KeepsR.of ?_)
    | fail_if_no_progress with_reducible refine Keeps.of_mk ?_

theorem State.discardUnit_keeps {u : State} {s : State} {c : CoreIx} {unit : Nat}
    (h_s : Keeps u s) : Keeps u (State.discardUnit s c unit) := by
  unfold State.discardUnit
  repeat' first
    | (with_reducible first
        | assumption | refine State.clearRegs_keeps ?_ | refine State.dropEngine_keeps ?_ | refine State.modCore_keeps ?_
        | refine ite_keeps ?_ ?_ | intro _)
    | dsimp only | split
    | fail_if_no_progress with_reducible refine Keeps.of_mk ?_

theorem State.unitReset_keeps {u : State} {s : State} {c : CoreIx} {unit : Nat}
    (h_s : Keeps u s) : Keeps u (State.unitReset s c unit) := by
  unfold State.unitReset
  repeat' first
    | (with_reducible first
        | assumption | refine State.flag_keeps ?_ | refine State.put_keeps ?_ | refine State.killOrAlso_keeps ?_
        | refine State.modCore_keeps ?_ | refine State.discardUnit_keeps ?_ | refine ite_keeps ?_ ?_ | intro _)
    | dsimp only | split
    | fail_if_no_progress with_reducible refine Keeps.of_mk ?_

theorem State.partReset_keeps {u : State} {s : State} {n : PartIx} {retain : Bool} {trace : Bool}
    (h_s : Keeps u s) : Keeps u (State.partReset s n retain trace) := by
  unfold State.partReset
  repeat' first
    | (with_reducible first
        | assumption | refine State.flag_keeps ?_ | refine State.put_keeps ?_ | refine State.putB_keeps ?_
        | refine State.modPart_keeps ?_ | refine State.beginReset_keeps ?_ | refine ite_keeps ?_ ?_ | intro _)
    | dsimp only | split
    | fail_if_no_progress with_reducible refine Keeps.of_mk ?_

theorem execPowerTransitionEnd_keeps {u : State} {n : PartIx} {s : State}
    (h_s : Keeps u s) : KeepsOut u (execPowerTransitionEnd n s) := by
  unfold execPowerTransitionEnd
  repeat' first
    | (with_reducible first
        | assumption | refine act_keeps ?_ ?_ | refine State.reachPower_keeps ?_ | refine State.beginReset_keeps ?_
        | refine State.writeTarget_keeps ?_ | refine ite_keeps ?_ ?_ | refine iteOut_keeps ?_ ?_ | refine KeepsOut.next ?_)
    | dsimp only | split
    | fail_if_no_progress with_reducible refine Keeps.of_mk ?_

theorem execUnitReset_keeps {u : State} {c : CoreIx} {unit : BitVec 4} {s : State}
    (h_s : Keeps u s) : KeepsOut u (execUnitReset c unit s) := by
  unfold execUnitReset
  repeat' first
    | (with_reducible first
        | assumption | refine act_keeps ?_ ?_ | refine State.unitReset_keeps ?_ | refine KeepsOut.next ?_)
    | fail_if_no_progress with_reducible refine Keeps.of_mk ?_

theorem State.unitResetOver_keeps {u : State} {s : State} {c : CoreIx} {unit : Nat}
    (h_s : Keeps u s) : Keeps u (State.unitResetOver s c unit) := by
  unfold State.unitResetOver
  repeat' first
    | (with_reducible first
        | assumption | refine State.raise_keeps ?_ | refine State.modCore_keeps ?_ | refine State.put_keeps ?_ | intro _)
    | fail_if_no_progress with_reducible refine Keeps.of_mk ?_

theorem execUnitResetEnd_keeps {u : State} {s : State} (h_s : Keeps u s) : KeepsOut u (execUnitResetEnd s) := by
  unfold execUnitResetEnd
  repeat' first
    | (with_reducible first
        | assumption | refine act_keeps ?_ ?_ | refine State.unitResetOver_keeps ?_ | refine KeepsOut.next ?_ | intro _)
    | dsimp only | split
    | fail_if_no_progress with_reducible refine Keeps.of_mk ?_

theorem State.stepLate_keeps {u : State} {s : State} {level : Nat} {step : Nat} {target : Nat}
    (h_s : Keeps u s) : Keeps u (State.stepLate s level step target) := by
  unfold State.stepLate
  repeat' first
    | (with_reducible first
        | assumption | refine State.raiseAt_keeps ?_ | refine State.modCore_keeps ?_ | refine State.modPart_keeps ?_
        | refine ite_keeps ?_ ?_ | intro _)
    | dsimp only | split
    | fail_if_no_progress with_reducible refine Keeps.of_mk ?_

theorem execResetStepLate_keeps {u : State} {level : BitVec 3} {step : BitVec 4} {target : BitVec 4} {s : State}
    (h_s : Keeps u s) : KeepsOut u (execResetStepLate level step target s) := by
  unfold execResetStepLate
  repeat' first
    | (with_reducible first
        | assumption | refine act_keeps ?_ ?_ | refine State.stepLate_keeps ?_ | refine KeepsOut.next ?_)
    | fail_if_no_progress with_reducible refine Keeps.of_mk ?_

theorem execPartitionReset_keeps {u : State} {n : PartIx} {retain : Bool} {trace : Bool} {s : State}
    (h_s : Keeps u s) : KeepsOut u (execPartitionReset n retain trace s) := by
  unfold execPartitionReset
  repeat' first
    | (with_reducible first
        | assumption | refine act_keeps ?_ ?_ | refine State.partReset_keeps ?_ | refine State.afterBoundary_keeps ?_
        | refine KeepsOut.next ?_)
    | fail_if_no_progress with_reducible refine Keeps.of_mk ?_

theorem State.setCapacity_keeps {u : State} {s : State} {n : PartIx} {t : Nat} {v : Nat}
    (h_s : Keeps u s) : Keeps u (State.setCapacity s n t v) := by
  unfold State.setCapacity
  repeat' first
    | (with_reducible first
        | assumption | refine State.put_keeps ?_ | refine ite_keeps ?_ ?_)
    | dsimp only | split
    | fail_if_no_progress with_reducible refine Keeps.of_mk ?_

theorem State.retireChan_keeps {u : State} {s : State} {n : PartIx} {t : Nat} {ch : Nat}
    (h_s : Keeps u s) : Keeps u (State.retireChan s n t ch) := by
  unfold State.retireChan
  repeat' first
    | (with_reducible first
        | assumption | refine State.put_keeps ?_ | refine State.raise_keeps ?_ | refine State.scrubZero_keeps ?_
        | refine State.setCapacity_keeps ?_ | refine ite_keeps ?_ ?_)
    | dsimp only | split
    | fail_if_no_progress with_reducible refine Keeps.of_mk ?_

theorem State.copyStripes_keeps {u : State} {s : State} {n : PartIx} {t : Nat} {ch : Nat}
    (h_s : Keeps u s) : Keeps u (State.copyStripes s n t ch) := by
  unfold State.copyStripes
  repeat' first
    | (with_reducible first
        | assumption | refine State.meet_keeps ?_ | refine foldl_keeps ?_ ?_ | refine foldl_snd_keeps ?_ ?_ | intro _)
    | fail_if_no_progress with_reducible refine Keeps.of_mk ?_

theorem State.retireMarked_keeps {u : State} {s : State} {n : PartIx} {retain : Bool}
    (h_s : Keeps u s) : Keeps u (State.retireMarked s n retain) := by
  unfold State.retireMarked
  repeat' first
    | (with_reducible first
        | assumption | refine State.retireChan_keeps ?_ | refine State.copyStripes_keeps ?_ | refine State.modPart_keeps ?_
        | refine foldl_keeps ?_ ?_ | refine foldl_snd_keeps ?_ ?_ | refine ite_keeps ?_ ?_ | intro _)
    | dsimp only | split
    | fail_if_no_progress with_reducible refine Keeps.of_mk ?_

theorem State.markFailed_keeps {u : State} {s : State} {n : PartIx} {failed : List (Bool × Fin 32)}
    (h_s : Keeps u s) : Keeps u (State.markFailed s n failed) := by
  unfold State.markFailed
  repeat' first
    | (with_reducible first
        | assumption | refine State.markChan_keeps ?_ | refine foldl_keeps ?_ ?_ | refine foldl_snd_keeps ?_ ?_
        | refine ite_keeps ?_ ?_ | intro _)
    | dsimp only | split
    | fail_if_no_progress with_reducible refine Keeps.of_mk ?_

theorem State.loseHomes_keeps {u : State} {s : State} {n : PartIx} {f : GazEntry → Bool}
    (h_s : Keeps u s) : Keeps u (State.loseHomes s n f) := by
  unfold State.loseHomes
  repeat' first
    | (with_reducible first
        | assumption | refine State.raise_keeps ?_ | refine State.modGaz_keeps ?_ | refine foldl_keeps ?_ ?_
        | refine foldl_snd_keeps ?_ ?_ | intro _)
    | fail_if_no_progress with_reducible refine Keeps.of_mk ?_

theorem State.endRetain_keeps {u : State} {s : State} {n : PartIx} (h_s : Keeps u s) : Keeps u (State.endRetain s n) := by
  unfold State.endRetain
  repeat' first
    | (with_reducible first
        | assumption | refine State.haltCtx_keeps ?_ | refine State.wrBits_keeps ?_ | refine State.loseHomes_keeps ?_
        | refine foldl_keeps ?_ ?_ | refine foldl_snd_keeps ?_ ?_ | refine ite_keeps ?_ ?_ | intro _)
    | dsimp only | split
    | fail_if_no_progress with_reducible refine Keeps.of_mk ?_

theorem State.endClean_keeps {u : State} {s : State} {n : PartIx} (h_s : Keeps u s) : Keeps u (State.endClean s n) := by
  unfold State.endClean
  repeat' first
    | (with_reducible first
        | assumption | refine State.loseHomes_keeps ?_ | refine State.scrubPart_keeps ?_ | refine State.put_keeps ?_
        | refine State.takePool_keeps ?_ | refine foldl_keeps ?_ ?_ | refine foldl_snd_keeps ?_ ?_ | intro _)
    | fail_if_no_progress with_reducible refine Keeps.of_mk ?_

theorem State.partOut_keeps {u : State} {s : State} {n : PartIx} (h_s : Keeps u s) : Keeps u (State.partOut s n) := by
  unfold State.partOut
  repeat' first
    | (with_reducible first
        | assumption | refine State.modPart_keeps ?_ | refine State.bringForce_keeps ?_ | refine ite_keeps ?_ ?_ | intro _)
    | dsimp only | split
    | fail_if_no_progress with_reducible refine Keeps.of_mk ?_

theorem State.resetPower_keeps {u : State} {s : State} {n : PartIx} (h_s : Keeps u s) : Keeps u (State.resetPower s n) := by
  unfold State.resetPower
  repeat' first
    | (with_reducible first
        | assumption | refine State.put_keeps ?_ | refine State.bump_keeps ?_ | refine ite_keeps ?_ ?_)
    | dsimp only | split
    | fail_if_no_progress with_reducible refine Keeps.of_mk ?_

theorem State.timerOut_keeps {u : State} {s : State} {n : PartIx} (h_s : Keeps u s) : Keeps u (State.timerOut s n) := by
  unfold State.timerOut
  repeat' first
    | (with_reducible first
        | assumption | refine State.startTimer_keeps ?_ | refine State.put_keeps ?_ | refine ite_keeps ?_ ?_)
    | dsimp only | split
    | fail_if_no_progress with_reducible refine Keeps.of_mk ?_

theorem State.endReset_keeps {u : State} {s : State} {n : PartIx} {failed : List (Bool × Fin 32)}
    (h_s : Keeps u s) : Keeps u (State.endReset s n failed) := by
  unfold State.endReset
  repeat' first
    | (with_reducible first
        | assumption | refine State.retireMarked_keeps ?_ | refine State.markFailed_keeps ?_ | refine State.endRetain_keeps ?_
        | refine State.endClean_keeps ?_ | refine State.clearDomain_keeps ?_ | refine State.put_keeps ?_
        | refine State.modPart_keeps ?_ | refine State.partOut_keeps ?_ | refine State.resetPower_keeps ?_
        | refine State.raise_keeps ?_ | refine State.wtsOut_keeps ?_ | refine State.timerOut_keeps ?_ | refine ite_keeps ?_ ?_
        | intro _)
    | dsimp only | split
    | fail_if_no_progress with_reducible refine Keeps.of_mk ?_

theorem execPartitionResetEnd_keeps {u : State} {n : PartIx} {failedTraining : List (Bool × Fin 32)} {s : State}
    (h_s : Keeps u s) : KeepsOut u (execPartitionResetEnd n failedTraining s) := by
  unfold execPartitionResetEnd
  repeat' first
    | (with_reducible first
        | assumption | refine act_keeps ?_ ?_ | refine State.endReset_keeps ?_ | refine KeepsOut.next ?_)
    | fail_if_no_progress with_reducible refine Keeps.of_mk ?_

/-! ### Machine/ChipReset.lean -/

theorem State.attEnd_keeps {u : State} {s : State} {r : Nat} (h_s : Keeps u s) : Keeps u (State.attEnd s r) := by
  unfold State.attEnd
  repeat' first
    | (with_reducible first
        | assumption | refine State.put_keeps ?_)
    | fail_if_no_progress with_reducible refine Keeps.of_mk ?_

theorem State.produce_keeps {u : State} {s : State} (h_s : Keeps u s) : Keeps u (State.produce s) := by
  unfold State.produce
  repeat' first
    | (with_reducible first
        | assumption | refine State.attEnd_keeps ?_)
    | dsimp only | split
    | fail_if_no_progress with_reducible refine Keeps.of_mk ?_

theorem State.newKey_keeps {u : State} {s : State} {block : Nat} (h_s : Keeps u s) : Keeps u (State.newKey s block) := by
  unfold State.newKey
  repeat' first
    | (with_reducible first
        | assumption | refine State.bump_keeps ?_)
    | fail_if_no_progress with_reducible refine Keeps.of_mk ?_

theorem State.withBlock_keeps {u : State} {s : State} {block : Nat} (h_s : Keeps u s) : Keeps u (State.withBlock s block) := by
  unfold State.withBlock
  repeat' first
    | (with_reducible first
        | assumption | refine State.attEnd_keeps ?_ | refine State.produce_keeps ?_ | refine State.newKey_keeps ?_
        | refine ite_keeps ?_ ?_)
    | dsimp only | split
    | fail_if_no_progress with_reducible refine Keeps.of_mk ?_

theorem State.attFinish_keeps {u : State} {s : State} {burned : Bool} (h_s : Keeps u s) : Keeps u (State.attFinish s burned) := by
  unfold State.attFinish
  repeat' first
    | (with_reducible first
        | assumption | refine State.produce_keeps ?_ | refine State.withBlock_keeps ?_ | refine State.attEnd_keeps ?_
        | refine State.raise_keeps ?_ | refine State.burnBit_keeps ?_ | refine State.put_keeps ?_ | refine State.putFree_keeps ?_
        | refine ite_keeps ?_ ?_ | intro _)
    | dsimp only | split
    | fail_if_no_progress with_reducible refine Keeps.of_mk ?_

theorem State.probations_keeps {u : State} {t : State} {s : State}
    (h_t : Keeps u t) (h_s : Keeps u s) : Keeps u (State.probations t s) := by
  unfold State.probations
  repeat' first
    | (with_reducible first
        | assumption | refine forParts_keeps ?_ ?_ | refine State.raise_keeps ?_ | refine ite_keeps ?_ ?_ | intro _)
    | dsimp only | split
    | fail_if_no_progress with_reducible refine Keeps.of_mk ?_

theorem State.chipReset_keeps {u : State} {s : State} {cause : Nat} {modResetN : Bool}
    (h_s : Keeps u s) : Keeps u (State.chipReset s cause modResetN) := by
  unfold State.chipReset
  repeat' first
    | (with_reducible first
        | assumption | refine State.put_keeps ?_ | refine State.probations_keeps ?_ ?_ | refine State.bump_keeps ?_
        | refine State.cleared_keeps ?_ | refine State.writeRecs_keeps ?_ | refine State.clearDomain_keeps ?_
        | refine foldl_keeps ?_ ?_ | refine foldl_snd_keeps ?_ ?_ | intro _)
    | dsimp only | split
    | fail_if_no_progress with_reducible refine Keeps.of_mk ?_

theorem execAclkLockLost_keeps {u : State} {s : State} (h_s : Keeps u s) : KeepsOut u (execAclkLockLost s) := by
  unfold execAclkLockLost
  repeat' first
    | (with_reducible first
        | assumption | refine act_keeps ?_ ?_ | refine State.chipReset_keeps ?_ | refine KeepsOut.next ?_)
    | fail_if_no_progress with_reducible refine Keeps.of_mk ?_

theorem State.softReset_keeps {u : State} {s : State} {trace : Bool} (h_s : Keeps u s) : Keeps u (State.softReset s trace) := by
  unfold State.softReset
  repeat' first
    | (with_reducible first
        | assumption | refine forParts_keeps ?_ ?_ | refine State.modPart_keeps ?_ | refine State.flush_keeps ?_
        | refine ite_keeps ?_ ?_ | intro _)
    | dsimp only | split
    | fail_if_no_progress with_reducible refine Keeps.of_mk ?_

theorem State.chipStepOn_keeps {u : State} {s : State} (h_s : Keeps u s) : Keeps u (State.chipStepOn s) := by
  unfold State.chipStepOn
  repeat' first
    | (with_reducible first
        | assumption | refine State.traceStart_keeps ?_ | refine State.draw_keeps ?_ | refine State.chipReset_keeps ?_
        | refine KeepsR.snd (State.draw_keeps ?_) | refine ite_keeps ?_ ?_)
    | dsimp only | split
    | (with_reducible first
        | refine KeepsR.get (State.draw_keeps ?_) (by with_reducible assumption) | refine KeepsR.of ?_)
    | fail_if_no_progress with_reducible refine Keeps.of_mk ?_

theorem State.attRequest_keeps {u : State} {s : State} (h_s : Keeps u s) : Keeps u (State.attRequest s) := by
  unfold State.attRequest
  repeat' first
    | (with_reducible first
        | assumption | refine State.flag_keeps ?_ | refine State.put_keeps ?_ | refine ite_keeps ?_ ?_ | intro _)
    | dsimp only | split
    | fail_if_no_progress with_reducible refine Keeps.of_mk ?_

theorem execChipReset_keeps {u : State} {trace : Bool} {s : State} (h_s : Keeps u s) : KeepsOut u (execChipReset trace s) := by
  unfold execChipReset
  repeat' first
    | (with_reducible first
        | assumption | refine act_keeps ?_ ?_ | refine State.softReset_keeps ?_ | refine KeepsOut.next ?_)
    | fail_if_no_progress with_reducible refine Keeps.of_mk ?_

theorem State.showFuses_keeps {u : State} {s : State} (h_s : Keeps u s) : Keeps u (State.showFuses s) := by
  unfold State.showFuses
  repeat' first
    | (with_reducible first
        | assumption | refine State.put_keeps ?_)
    | fail_if_no_progress with_reducible refine Keeps.of_mk ?_

theorem burnAll_keeps {u : State} {bad : List Nat} {x1 : List Nat} {x2 : State} (h_x2 : Keeps u x2) : Keeps u (burnAll bad x1 x2) := by
  induction x1 generalizing x2 with
  | nil =>
    unfold burnAll
    repeat' first
      | with_reducible assumption
      | fail_if_no_progress with_reducible refine Keeps.of_mk ?_
  | cons aa rr ih =>
    unfold burnAll
    try dsimp only
    repeat' first
      | (with_reducible first
          | assumption | refine ih ?_ | refine State.burnBit_keeps ?_ | refine State.raise_keeps ?_ | refine ite_keeps ?_ ?_ | intro _)
      | dsimp only | split
      | fail_if_no_progress with_reducible refine Keeps.of_mk ?_

theorem execAttestationRequest_keeps {u : State} {s : State} (h_s : Keeps u s) : KeepsOut u (execAttestationRequest s) := by
  unfold execAttestationRequest
  repeat' first
    | (with_reducible first
        | assumption | refine act_keeps ?_ ?_ | refine State.attRequest_keeps ?_ | refine KeepsOut.next ?_)
    | fail_if_no_progress with_reducible refine Keeps.of_mk ?_

theorem execReportReady_keeps {u : State} {burned : Bool} {s : State} (h_s : Keeps u s) : KeepsOut u (execReportReady burned s) := by
  unfold execReportReady
  repeat' first
    | (with_reducible first
        | assumption | refine act_keeps ?_ ?_ | refine State.attFinish_keeps ?_ | refine KeepsOut.next ?_)
    | fail_if_no_progress with_reducible refine Keeps.of_mk ?_

/-! ### Machine/Access.lean -/

theorem State.noteLk_keeps {u : State} {s : State} {o : State} {off : Nat}
    (h_s : Keeps u s) (h_o : Keeps u o) : Keeps u (State.noteLk s o off) := by
  unfold State.noteLk
  repeat' first
    | (with_reducible first
        | assumption | refine ite_keeps ?_ ?_ | intro _)
    | dsimp only | split
    | fail_if_no_progress with_reducible refine Keeps.of_mk ?_

theorem State.quietLink_keeps {u : State} {s : State} {l : LinkIx} (h_s : Keeps u s) : Keeps u (State.quietLink s l) := by
  unfold State.quietLink
  repeat' first
    | (with_reducible first
        | assumption | refine State.linkTo_keeps ?_ | refine State.modLink_keeps ?_ | refine ite_keeps ?_ ?_ | intro _)
    | dsimp only | split
    | fail_if_no_progress with_reducible refine Keeps.of_mk ?_

theorem State.quiesce_keeps {u : State} {s : State} (h_s : Keeps u s) : Keeps u (State.quiesce s) := by
  unfold State.quiesce
  repeat' first
    | (with_reducible first
        | assumption | refine State.put_keeps ?_ | refine State.quietLink_keeps ?_ | refine foldl_keeps ?_ ?_
        | refine foldl_snd_keeps ?_ ?_ | intro _)
    | fail_if_no_progress with_reducible refine Keeps.of_mk ?_

theorem State.presetSkipped_keeps {u : State} {s : State} {off : Nat} (h_s : Keeps u s) : Keeps u (State.presetSkipped s off) := by
  unfold State.presetSkipped
  repeat' first
    | (with_reducible first
        | assumption | refine State.raise_keeps ?_ | refine State.draw_keeps ?_ | refine KeepsR.snd (State.draw_keeps ?_)
        | refine KeepsR.get (State.draw_keeps ?_) (by with_reducible assumption) | refine KeepsR.of ?_)
    | fail_if_no_progress with_reducible refine Keeps.of_mk ?_

theorem State.writeWide_keeps {u : State} {s : State} {ag : Agent} {inst : Nat} {d : Nat} {v : Nat} {wide : Bool}
    {upd : Nat → Nat → State → State}
    (h_s : Keeps u s) (h_upd : ∀ y0 y1 tt, Keeps u tt → Keeps u (upd y0 y1 tt)) : Keeps u (State.writeWide s ag inst d v wide upd) := by
  unfold State.writeWide
  repeat' first
    | (with_reducible first
        | assumption | refine State.setAgent_keeps ?_ | apply h_upd | refine ite_keeps ?_ ?_ | intro _)
    | dsimp only | split
    | fail_if_no_progress with_reducible refine Keeps.of_mk ?_

theorem State.entryWrite_keeps {u : State} {s : State} {m : Nat} {o : Nat} {k : Nat} {v : Nat} {from_ : Nat}
    (h_s : Keeps u s) : Keeps u (State.entryWrite s m o k v from_) := by
  unfold State.entryWrite
  repeat' first
    | (with_reducible first
        | assumption | refine State.mdWr_keeps ?_ | refine State.flag_keeps ?_ | refine foldl_keeps ?_ ?_
        | refine foldl_snd_keeps ?_ ?_ | refine ite_keeps ?_ ?_ | intro _)
    | dsimp only | split
    | fail_if_no_progress with_reducible refine Keeps.of_mk ?_

theorem State.lkIgnored_keeps {u : State} {s : State} {r : RegRow} {inst : Nat} {ag : Agent}
    (h_s : Keeps u s) : Keeps u (State.lkIgnored s r inst ag) := by
  unfold State.lkIgnored
  repeat' first
    | (with_reducible first
        | assumption | refine State.raise_keeps ?_ | refine State.flag_keeps ?_ | refine State.bump_keeps ?_ | refine ite_keeps ?_ ?_
        | intro _)
    | dsimp only | split
    | fail_if_no_progress with_reducible refine Keeps.of_mk ?_

theorem State.storeField_keeps {u : State} {s : State} {r : RegRow} {inst : Nat} {v : Nat} {from_ : Nat} {f : FieldRow}
    (h_s : Keeps u s) : Keeps u (State.storeField s r inst v from_ f) := by
  unfold State.storeField
  repeat' first
    | (with_reducible first
        | assumption | refine State.put_keeps ?_ | refine State.flag_keeps ?_ | refine State.pendSh_keeps ?_ | refine ite_keeps ?_ ?_)
    | dsimp only | split
    | fail_if_no_progress with_reducible refine Keeps.of_mk ?_

theorem State.gazCmd_keeps {u : State} {s : State} (h_s : Keeps u s) : Keeps u (State.gazCmd s) := by
  unfold State.gazCmd
  repeat' first
    | (with_reducible first
        | assumption | refine State.gazCreate_keeps ?_ | refine State.gazDestroy_keeps ?_ | refine State.gazPin_keeps ?_
        | refine State.gazRestore_keeps ?_ | refine State.gazKeep_keeps ?_ | refine State.gazGone_keeps ?_
        | refine State.gazPush_keeps ?_ | refine State.gazPop_keeps ?_ | refine State.gazLookup_keeps ?_
        | refine State.gazMarkLost_keeps ?_ | refine State.gazEnd_keeps ?_ | refine ite_keeps ?_ ?_)
    | dsimp only | split
    | fail_if_no_progress with_reducible refine Keeps.of_mk ?_

theorem State.portCtrl_keeps {u : State} {s : State} {l : LinkIx} {was : Bool} {disable : Bool} {retrain : Bool} {retire : Bool}
    {lane : Nat}
    (h_s : Keeps u s) : Keeps u (State.portCtrl s l was disable retrain retire lane) := by
  unfold State.portCtrl
  repeat' first
    | (with_reducible first
        | assumption | refine State.disablePort_keeps ?_ | refine State.enablePort_keeps ?_ | refine State.retrainPort_keeps ?_
        | refine State.retire_keeps ?_ | refine ite_keeps ?_ ?_)
    | dsimp only | split
    | fail_if_no_progress with_reducible refine Keeps.of_mk ?_

theorem State.offNotice_keeps {u : State} {s : State} (h_s : Keeps u s) : Keeps u (State.offNotice s) := by
  unfold State.offNotice
  repeat' first
    | (with_reducible first
        | assumption | refine State.flush_keeps ?_ | refine State.quiesce_keeps ?_ | refine ite_keeps ?_ ?_)
    | dsimp only | split
    | fail_if_no_progress with_reducible refine Keeps.of_mk ?_

theorem State.trayReq_keeps {u : State} {s : State} {v : Nat} (h_s : Keeps u s) : Keeps u (State.trayReq s v) := by
  unfold State.trayReq
  repeat' first
    | (with_reducible first
        | assumption | refine State.put_keeps ?_ | refine State.ibiCause_keeps ?_ | refine ite_keeps ?_ ?_)
    | dsimp only | split
    | fail_if_no_progress with_reducible refine Keeps.of_mk ?_

theorem State.ibiAfter_keeps {u : State} {s : State} (h_s : Keeps u s) : Keeps u (State.ibiAfter s) := by
  unfold State.ibiAfter
  repeat' first
    | (with_reducible first
        | assumption | refine State.ibiTry_keeps ?_ | refine ite_keeps ?_ ?_)
    | dsimp only | split
    | fail_if_no_progress with_reducible refine Keeps.of_mk ?_

theorem State.regAction_keeps {u : State} {s : State} {o : State} {r : RegRow} {inst : Nat} {v : Nat} {low : Bool}
    (h_s : Keeps u s) (h_o : Keeps u o) : Keeps u (State.regAction s o r inst v low) := by
  unfold State.regAction
  repeat' first
    | (with_reducible first
        | assumption | refine after_keeps ?_ ?_ | refine execStkCtrlRun_keeps ?_ | refine execStkStartWrite_keeps ?_
        | refine State.writeTarget_keeps ?_ | refine execSeqCtrlKill_keeps ?_ | refine State.action_keeps ?_
        | refine State.applyProfile_keeps ?_ | refine execTranslationInvalidation_keeps ?_ | refine State.frameOp_keeps ?_
        | refine State.put_keeps ?_ | refine State.gazCmd_keeps ?_ | refine State.portCtrl_keeps ?_ | refine execAttach_keeps ?_
        | refine State.flush_keeps ?_ | refine execDoorbell_keeps ?_ | refine State.wtsCmd_keeps ?_ | refine State.setConsumer_keeps ?_
        | refine State.clearDomain_keeps ?_ | refine State.unitReset_keeps ?_ | refine State.partReset_keeps ?_
        | refine State.putB_keeps ?_ | refine State.softReset_keeps ?_ | refine execProbation_keeps ?_ | refine execResetState_keeps ?_
        | refine execStateLost_keeps ?_ | refine State.attRequest_keeps ?_ | refine State.offNotice_keeps ?_
        | refine State.trayReq_keeps ?_ | refine State.ibiAfter_keeps ?_ | refine ite_keeps ?_ ?_ | intro _)
    | dsimp only | split
    | fail_if_no_progress with_reducible refine Keeps.of_mk ?_

theorem State.updateReg_keeps {u : State} {s0 : State} {ag : Agent} {r : RegRow} {inst : Nat} {v : Nat} {from_ : Nat}
    (h_s0 : Keeps u s0) : Keeps u (State.updateReg s0 ag r inst v from_) := by
  unfold State.updateReg
  repeat' first
    | (with_reducible first
        | assumption | refine State.afterBoundary_keeps ?_ | refine State.lkIgnored_keeps ?_ | refine State.storeField_keeps ?_
        | refine State.regAction_keeps ?_ ?_ | refine foldl_keeps ?_ ?_ | refine foldl_snd_keeps ?_ ?_ | refine ite_keeps ?_ ?_
        | intro _)
    | dsimp only | split
    | fail_if_no_progress with_reducible refine Keeps.of_mk ?_

theorem State.regWrite_keeps {u : State} {s : State} {ag : Agent} {off : Nat} {wide : Bool} {v : Nat}
    (h_s : Keeps u s) : Keeps u (State.regWrite s ag off wide v) := by
  unfold State.regWrite
  repeat' first
    | (with_reducible first
        | assumption | refine State.writeWide_keeps ?_ ?_ | refine State.entryWrite_keeps ?_ | refine State.setAgent_keeps ?_
        | refine State.updateReg_keeps ?_ | refine ite_keeps ?_ ?_ | intro _)
    | dsimp only | split
    | fail_if_no_progress with_reducible refine Keeps.of_mk ?_

theorem execRegisterWrite_keeps {u : State} {ag : Agent} {off : BitVec 24} {wide : Bool} {v : Word} {s : State}
    (h_s : Keeps u s) : KeepsOut u (execRegisterWrite ag off wide v s) := by
  unfold execRegisterWrite
  repeat' first
    | (with_reducible first
        | assumption | refine act_keeps ?_ ?_ | refine State.presetSkipped_keeps ?_ | refine State.noteLk_keeps ?_ ?_
        | refine State.regWrite_keeps ?_ | refine ite_keeps ?_ ?_ | refine iteOut_keeps ?_ ?_ | refine KeepsOut.next ?_)
    | dsimp only | split
    | fail_if_no_progress with_reducible refine Keeps.of_mk ?_

theorem execRcFieldRead_keeps {u : State} {ag : Agent} {off : BitVec 24} {wide : Bool} {s : State}
    (h_s : Keeps u s) : KeepsOut u (execRcFieldRead ag off wide s) := by
  unfold execRcFieldRead
  repeat' first
    | (with_reducible first
        | assumption | refine act_keeps ?_ ?_ | refine State.regRead_keeps ?_ | refine KeepsR.snd (State.regRead_keeps ?_)
        | refine KeepsOut.next ?_ | refine KeepsR.get (State.regRead_keeps ?_) (by with_reducible assumption) | refine KeepsR.of ?_)
    | fail_if_no_progress with_reducible refine Keeps.of_mk ?_

theorem frlOrdered_keeps {u : State} {s : State} {m : FMsg} {op : Nat} {go : State → State}
    (h_s : Keeps u s) (h_go : ∀ tt, Keeps u tt → Keeps u (go tt)) : KeepsOut u (frlOrdered s m op go) := by
  unfold frlOrdered
  repeat' first
    | (with_reducible first
        | assumption | refine frlArrive_keeps ?_ ?_ | apply h_go | refine ite_keeps ?_ ?_ | refine iteOut_keeps ?_ ?_
        | refine KeepsOut.next ?_ | intro _)
    | dsimp only | split
    | fail_if_no_progress with_reducible refine Keeps.of_mk ?_

theorem State.frlNack_keeps {u : State} {s : State} {m : FMsg} {st : Nat} (h_s : Keeps u s) : Keeps u (State.frlNack s m st) := by
  unfold State.frlNack
  repeat' first
    | (with_reducible first
        | assumption | refine State.frlSend_keeps ?_)
    | fail_if_no_progress with_reducible refine Keeps.of_mk ?_

theorem State.noReg_keeps {u : State} {s : State} (h_s : Keeps u s) : Keeps u (State.noReg s) := by
  unfold State.noReg
  repeat' first
    | (with_reducible first
        | assumption | refine State.setAgent_keeps ?_)
    | fail_if_no_progress with_reducible refine Keeps.of_mk ?_

theorem State.mrdData_keeps {u : State} {s0 : State} {m : FMsg} {x2 : Nat} {len : Nat}
    (h_s0 : Keeps u s0) : Keeps u (State.mrdData s0 m x2 len) := by
  unfold State.mrdData
  repeat' first
    | (with_reducible first
        | assumption | refine State.meet_keeps ?_ | refine State.raise_keeps ?_ | refine State.frlSend_keeps ?_
        | refine foldl_keeps ?_ ?_ | refine foldl_snd_keeps ?_ ?_ | refine ite_keeps ?_ ?_ | intro _)
    | dsimp only | split
    | fail_if_no_progress with_reducible refine Keeps.of_mk ?_

theorem execMrd_keeps {u : State} {m : FMsg} {s : State} (h_s : Keeps u s) : KeepsOut u (execMrd m s) := by
  unfold execMrd
  repeat' first
    | (with_reducible first
        | assumption | refine frlOrdered_keeps ?_ ?_ | refine State.protocol_keeps ?_ | refine State.frlNack_keeps ?_
        | refine State.noReg_keeps ?_ | refine State.regRead_keeps ?_ | refine State.frlSend_keeps ?_ | refine State.mrdData_keeps ?_
        | refine KeepsR.snd (State.regRead_keeps ?_) | refine ite_keeps ?_ ?_ | refine iteOut_keeps ?_ ?_ | refine KeepsOut.next ?_
        | intro _)
    | dsimp only | split
    | (with_reducible first
        | refine KeepsR.get (State.regRead_keeps ?_) (by with_reducible assumption) | refine KeepsR.of ?_)
    | fail_if_no_progress with_reducible refine Keeps.of_mk ?_

theorem State.frlCmp_keeps {u : State} {s : State} {m : FMsg} (h_s : Keeps u s) : Keeps u (State.frlCmp s m) := by
  unfold State.frlCmp
  repeat' first
    | (with_reducible first
        | assumption | refine State.frlSend_keeps ?_)
    | fail_if_no_progress with_reducible refine Keeps.of_mk ?_

theorem State.mwrStore_keeps {u : State} {s : State} {m : FMsg} (h_s : Keeps u s) : Keeps u (State.mwrStore s m) := by
  unfold State.mwrStore
  repeat' first
    | (with_reducible first
        | assumption | refine State.extWrite_keeps ?_ | refine State.afterExt_keeps ?_ | refine State.wrBytes_keeps ?_
        | refine foldl_keeps ?_ ?_ | refine foldl_snd_keeps ?_ ?_ | refine ite_keeps ?_ ?_ | intro _)
    | dsimp only | split
    | fail_if_no_progress with_reducible refine Keeps.of_mk ?_

theorem execMwr_keeps {u : State} {m : FMsg} {s : State} (h_s : Keeps u s) : KeepsOut u (execMwr m s) := by
  unfold execMwr
  repeat' first
    | (with_reducible first
        | assumption | refine frlOrdered_keeps ?_ ?_ | refine State.protocol_keeps ?_ | refine State.frlNack_keeps ?_
        | refine State.noReg_keeps ?_ | refine State.frlCmp_keeps ?_ | refine State.regWrite_keeps ?_ | refine State.mwrStore_keeps ?_
        | refine ite_keeps ?_ ?_ | refine iteOut_keeps ?_ ?_ | refine KeepsOut.next ?_ | intro _)
    | dsimp only | split
    | fail_if_no_progress with_reducible refine Keeps.of_mk ?_

theorem State.lkUndo_keeps {u : State} {s : State} (h_s : Keeps u s) : Keeps u (State.lkUndo s) := by
  unfold State.lkUndo
  repeat' first
    | (with_reducible first
        | assumption | refine State.put_keeps ?_ | refine State.lkIgnored_keeps ?_ | refine foldl_keeps ?_ ?_
        | refine foldl_snd_keeps ?_ ?_ | intro _)
    | dsimp only | split
    | fail_if_no_progress with_reducible refine Keeps.of_mk ?_

/-! ### Machine/Verify.lean -/

theorem State.loadProfiles_keeps {u : State} {s : State} {m : Sparse Byte} (h_s : Keeps u s) : Keeps u (State.loadProfiles s m) := by
  unfold State.loadProfiles
  repeat' first
    | (with_reducible first
        | assumption | refine State.put_keeps ?_ | refine State.raise_keeps ?_ | refine ite_keeps ?_ ?_)
    | dsimp only | split
    | fail_if_no_progress with_reducible refine Keeps.of_mk ?_

/-! ### Machine/Boot.lean -/

theorem State.autoOpen_keeps {u : State} {s : State} (h_s : Keeps u s) : Keeps u (State.autoOpen s) := by
  unfold State.autoOpen
  repeat' first
    | (with_reducible first
        | assumption | refine State.put_keeps ?_ | refine ite_keeps ?_ ?_)
    | dsimp only | split
    | fail_if_no_progress with_reducible refine Keeps.of_mk ?_

theorem State.sectionNote_keeps {u : State} {s : State} {b : List Byte} {code : Nat} {dev : Nat}
    (h_s : Keeps u s) : Keeps u (State.sectionNote s b code dev) := by
  unfold State.sectionNote
  repeat' first
    | (with_reducible first
        | assumption | refine State.raise_keeps ?_ | refine ite_keeps ?_ ?_)
    | dsimp only | split
    | fail_if_no_progress with_reducible refine Keeps.of_mk ?_

theorem State.runImage_keeps {u : State} {s : State} {m : Sparse Byte} {dev : Nat}
    (h_s : Keeps u s) : Keeps u (State.runImage s m dev) := by
  unfold State.runImage
  repeat' first
    | (with_reducible first
        | assumption | refine State.put_keeps ?_ | refine State.loadProfiles_keeps ?_ | refine State.sectionNote_keeps ?_
        | refine foldl_keeps ?_ ?_ | refine foldl_snd_keeps ?_ ?_ | intro _)
    | fail_if_no_progress with_reducible refine Keeps.of_mk ?_

theorem State.bootStop_keeps {u : State} {s : State} {stage : Nat} (h_s : Keeps u s) : Keeps u (State.bootStop s stage) := by
  unfold State.bootStop
  repeat' first
    | (with_reducible first
        | assumption | refine State.put_keeps ?_)
    | fail_if_no_progress with_reducible refine Keeps.of_mk ?_

theorem State.bootRom_keeps {u : State} {s : State} {errA : Bool} {errB : Bool}
    (h_s : Keeps u s) : Keeps u (State.bootRom s errA errB) := by
  unfold State.bootRom
  repeat' first
    | (with_reducible first
        | assumption | refine State.train_keeps ?_ | refine State.modLink_keeps ?_ | refine State.showFuses_keeps ?_
        | refine State.put_keeps ?_ | refine State.runImage_keeps ?_ | refine State.raise_keeps ?_ | refine State.bootStop_keeps ?_
        | refine ite_keeps ?_ ?_ | intro _)
    | dsimp only | split
    | fail_if_no_progress with_reducible refine Keeps.of_mk ?_

theorem execBootRomStart_keeps {u : State} {errA : Bool} {errB : Bool} {s : State}
    (h_s : Keeps u s) : KeepsOut u (execBootRomStart errA errB s) := by
  unfold execBootRomStart
  repeat' first
    | (with_reducible first
        | assumption | refine act_keeps ?_ ?_ | refine State.bootRom_keeps ?_ | refine KeepsOut.next ?_)
    | fail_if_no_progress with_reducible refine Keeps.of_mk ?_

theorem State.coreVellumOut_keeps {u : State} {s : State} {c : Nat} (h_s : Keeps u s) : Keeps u (State.coreVellumOut s c) := by
  unfold State.coreVellumOut
  repeat' first
    | (with_reducible first
        | assumption | refine State.raise_keeps ?_ | refine State.drop_keeps ?_ | refine State.put_keeps ?_ | refine ite_keeps ?_ ?_)
    | dsimp only | split
    | fail_if_no_progress with_reducible refine Keeps.of_mk ?_

theorem State.failingLine_keeps {u : State} {s : State} {line : Nat} (h_s : Keeps u s) : Keeps u (State.failingLine s line) := by
  unfold State.failingLine
  repeat' first
    | (with_reducible first
        | assumption | refine State.raise_keeps ?_ | refine State.coreVellumOut_keeps ?_ | refine ite_keeps ?_ ?_)
    | dsimp only | split
    | fail_if_no_progress with_reducible refine Keeps.of_mk ?_

theorem State.testVellum_keeps {u : State} {s : State} {failing : List (Fin 2048 × BitVec 16)}
    (h_s : Keeps u s) : Keeps u (State.testVellum s failing) := by
  unfold State.testVellum
  repeat' first
    | (with_reducible first
        | assumption | refine State.failingLine_keeps ?_ | refine State.put_keeps ?_ | refine State.scrubZero_keeps ?_
        | refine foldl_keeps ?_ ?_ | refine foldl_snd_keeps ?_ ?_ | intro _)
    | fail_if_no_progress with_reducible refine Keeps.of_mk ?_

theorem execVellumTest_keeps {u : State} {failing : List (Fin 2048 × BitVec 16)} {s : State}
    (h_s : Keeps u s) : KeepsOut u (execVellumTest failing s) := by
  unfold execVellumTest
  repeat' first
    | (with_reducible first
        | assumption | refine act_keeps ?_ ?_ | refine State.testVellum_keeps ?_ | refine KeepsOut.next ?_)
    | fail_if_no_progress with_reducible refine Keeps.of_mk ?_

theorem State.prepareMemory_keeps {u : State} {s : State} {failed : List (PartIx × Bool × Fin 32)} {n : PartIx}
    (h_s : Keeps u s) : Keeps u (State.prepareMemory s failed n) := by
  unfold State.prepareMemory
  repeat' first
    | (with_reducible first
        | assumption | refine State.retireMarked_keeps ?_ | refine State.markFailed_keeps ?_ | refine State.scrubZero_keeps ?_
        | refine ite_keeps ?_ ?_ | intro _)
    | dsimp only | split
    | fail_if_no_progress with_reducible refine Keeps.of_mk ?_

theorem execMemoryPreparation_keeps {u : State} {failedTraining : List (PartIx × Bool × Fin 32)} {s : State}
    (h_s : Keeps u s) : KeepsOut u (execMemoryPreparation failedTraining s) := by
  unfold execMemoryPreparation
  repeat' first
    | (with_reducible first
        | assumption | refine act_keeps ?_ ?_ | refine State.put_keeps ?_ | refine forParts_keeps ?_ ?_
        | refine State.prepareMemory_keeps ?_ | refine KeepsOut.next ?_ | intro _)
    | fail_if_no_progress with_reducible refine Keeps.of_mk ?_

theorem State.preset_keeps {u : State} {s : State} {i : Nat} {off : Nat} {v : Nat}
    (h_s : Keeps u s) : Keeps u (State.preset s i off v) := by
  unfold State.preset
  repeat' first
    | (with_reducible first
        | assumption | refine State.raise_keeps ?_ | refine State.regWrite_keeps ?_ | refine State.updateReg_keeps ?_
        | refine ite_keeps ?_ ?_)
    | dsimp only | split
    | fail_if_no_progress with_reducible refine Keeps.of_mk ?_

theorem State.presets_keeps {u : State} {s : State} (h_s : Keeps u s) : Keeps u (State.presets s) := by
  unfold State.presets
  repeat' first
    | (with_reducible first
        | assumption | refine State.preset_keeps ?_ | refine foldl_keeps ?_ ?_ | refine foldl_snd_keeps ?_ ?_ | intro _)
    | fail_if_no_progress with_reducible refine Keeps.of_mk ?_

theorem State.releasePort_keeps {u : State} {s : State} {p : Nat} (h_s : Keeps u s) : Keeps u (State.releasePort s p) := by
  unfold State.releasePort
  repeat' first
    | (with_reducible first
        | assumption | refine State.modLink_keeps ?_ | refine State.train_keeps ?_ | refine ite_keeps ?_ ?_ | intro _)
    | dsimp only | split
    | fail_if_no_progress with_reducible refine Keeps.of_mk ?_

theorem State.initShell_keeps {u : State} {s : State} {slotId : Nat} (h_s : Keeps u s) : Keeps u (State.initShell s slotId) := by
  unfold State.initShell
  repeat' first
    | (with_reducible first
        | assumption | refine State.put_keeps ?_ | refine State.presets_keeps ?_ | refine State.putB_keeps ?_
        | refine State.releasePort_keeps ?_ | refine State.raise_keeps ?_ | refine foldl_keeps ?_ ?_ | refine foldl_snd_keeps ?_ ?_
        | refine ite_keeps ?_ ?_ | intro _)
    | dsimp only | split
    | fail_if_no_progress with_reducible refine Keeps.of_mk ?_

theorem State.shellStage_keeps {u : State} {s : State} {slotId : Nat} (h_s : Keeps u s) : Keeps u (State.shellStage s slotId) := by
  unfold State.shellStage
  repeat' first
    | (with_reducible first
        | assumption | refine State.bootStop_keeps ?_ | refine State.raise_keeps ?_ | refine State.initShell_keeps ?_
        | refine ite_keeps ?_ ?_)
    | dsimp only | split
    | fail_if_no_progress with_reducible refine Keeps.of_mk ?_

theorem execShellInit_keeps {u : State} {slotId : BitVec 6} {s : State} (h_s : Keeps u s) : KeepsOut u (execShellInit slotId s) := by
  unfold execShellInit
  repeat' first
    | (with_reducible first
        | assumption | refine act_keeps ?_ ?_ | refine State.shellStage_keeps ?_ | refine KeepsOut.next ?_)
    | fail_if_no_progress with_reducible refine Keeps.of_mk ?_

theorem State.defaultProfile_keeps {u : State} {s : State} {n : PartIx} (h_s : Keeps u s) : Keeps u (State.defaultProfile s n) := by
  unfold State.defaultProfile
  repeat' first
    | (with_reducible first
        | assumption | refine State.applyProfile_keeps ?_ | refine State.put_keeps ?_ | refine State.raise_keeps ?_
        | refine ite_keeps ?_ ?_)
    | dsimp only | split
    | fail_if_no_progress with_reducible refine Keeps.of_mk ?_

theorem State.partStart_keeps {u : State} {s : State} {n : PartIx} (h_s : Keeps u s) : Keeps u (State.partStart s n) := by
  unfold State.partStart
  repeat' first
    | (with_reducible first
        | assumption | refine State.modPart_keeps ?_ | refine State.put_keeps ?_ | intro _)
    | fail_if_no_progress with_reducible refine Keeps.of_mk ?_

theorem State.s0_keeps {u : State} {s : State} (h_s : Keeps u s) : Keeps u (State.s0 s) := by
  unfold State.s0
  repeat' first
    | (with_reducible first
        | assumption | refine forParts_keeps ?_ ?_ | refine State.partStart_keeps ?_ | refine State.lkUndo_keeps ?_
        | refine State.put_keeps ?_ | refine State.bringForce_keeps ?_ | intro _)
    | fail_if_no_progress with_reducible refine Keeps.of_mk ?_

theorem State.provision_keeps {u : State} {s : State} {bad : List Nat} {k : Nat}
    (h_s : Keeps u s) : KeepsL u (State.provision s bad k) := by
  unfold State.provision
  repeat' first
    | (with_reducible first
        | assumption | refine burnAll_keeps ?_ | refine State.raise_keeps ?_ | refine ite_keeps ?_ ?_ | intro _)
    | dsimp only | split
    | refine KeepsL.of ?_
    | fail_if_no_progress with_reducible refine Keeps.of_mk ?_

theorem State.provisionAll_keeps {u : State} {s : State} {bad : List Nat} {x2 : List Nat}
    (h_s : Keeps u s) : Keeps u (State.provisionAll s bad x2) := by
  induction x2 generalizing s with
  | nil =>
    unfold State.provisionAll
    repeat' first
      | with_reducible assumption
      | fail_if_no_progress with_reducible refine Keeps.of_mk ?_
  | cons aa rr ih =>
    unfold State.provisionAll
    try dsimp only
    repeat' first
      | (with_reducible first
          | assumption | refine ih ?_ | refine State.provision_keeps ?_ | refine KeepsL.fst (State.provision_keeps ?_)
          | refine ite_keeps ?_ ?_ | intro _)
      | dsimp only | split
      | (with_reducible first
          | refine KeepsL.get (State.provision_keeps ?_) (by with_reducible assumption) | refine KeepsL.of ?_)
      | fail_if_no_progress with_reducible refine Keeps.of_mk ?_

theorem State.revokeAll_keeps {u : State} {s : State} {bad : List Nat} {x2 : List Nat}
    (h_s : Keeps u s) : Keeps u (State.revokeAll s bad x2) := by
  induction x2 generalizing s with
  | nil =>
    unfold State.revokeAll
    repeat' first
      | with_reducible assumption
      | fail_if_no_progress with_reducible refine Keeps.of_mk ?_
  | cons aa rr ih =>
    unfold State.revokeAll
    try dsimp only
    repeat' first
      | (with_reducible first
          | assumption | refine ih ?_ | refine State.raise_keeps ?_ | refine burnAll_keeps ?_ | refine ite_keeps ?_ ?_ | intro _)
      | dsimp only | split
      | fail_if_no_progress with_reducible refine Keeps.of_mk ?_

theorem State.fuseChanges_keeps {u : State} {s : State} {bad : List Nat} (h_s : Keeps u s) : Keeps u (State.fuseChanges s bad) := by
  unfold State.fuseChanges
  repeat' first
    | (with_reducible first
        | assumption | refine burnAll_keeps ?_ | refine State.provisionAll_keeps ?_ | refine State.showFuses_keeps ?_
        | refine State.revokeAll_keeps ?_ | refine ite_keeps ?_ ?_ | intro _)
    | dsimp only | split
    | fail_if_no_progress with_reducible refine Keeps.of_mk ?_

theorem State.started_keeps {u : State} {s : State} {bad : List Nat} (h_s : Keeps u s) : Keeps u (State.started s bad) := by
  unfold State.started
  repeat' first
    | (with_reducible first
        | assumption | refine forParts_keeps ?_ ?_ | refine State.defaultProfile_keeps ?_ | refine State.s0_keeps ?_
        | refine State.put_keeps ?_ | refine State.autoOpen_keeps ?_ | refine State.fuseChanges_keeps ?_ | intro _)
    | fail_if_no_progress with_reducible refine Keeps.of_mk ?_

theorem execStart_keeps {u : State} {bad : List (BitVec 13)} {s : State} (h_s : Keeps u s) : KeepsOut u (execStart bad s) := by
  unfold execStart
  repeat' first
    | (with_reducible first
        | assumption | refine act_keeps ?_ ?_ | refine State.started_keeps ?_ | refine KeepsOut.next ?_)
    | fail_if_no_progress with_reducible refine Keeps.of_mk ?_

/-! ### Machine/Debug.lean -/

theorem State.onautSend_keeps {u : State} {s : State} {r : OnautResp} (h_s : Keeps u s) : Keeps u (State.onautSend s r) := by
  unfold State.onautSend
  repeat' first
    | with_reducible assumption
    | fail_if_no_progress with_reducible refine Keeps.of_mk ?_

theorem State.onautAnswer_keeps {u : State} {s : State} {r : OnautResp} (h_s : Keeps u s) : Keeps u (State.onautAnswer s r) := by
  unfold State.onautAnswer
  repeat' first
    | (with_reducible first
        | assumption | refine State.onautSend_keeps ?_)
    | fail_if_no_progress with_reducible refine Keeps.of_mk ?_

theorem State.onautAsk_keeps {u : State} {s : State} {op : Nat} {seq : Nat} {need : Nat} {early : Bool} {eff : State → OnautOut}
    (h_s : Keeps u s) (h_eff : ∀ tt, Keeps u tt → KeepsRR u (eff tt)) : Keeps u (State.onautAsk s op seq need early eff) := by
  unfold State.onautAsk
  repeat' first
    | (with_reducible first
        | assumption | refine State.onautSend_keeps ?_ | refine State.onautAnswer_keeps ?_ | apply h_eff
        | refine KeepsRR.snd (h_eff _ ?_) | refine ite_keeps ?_ ?_ | intro _)
    | dsimp only | split
    | with_reducible refine KeepsRR.of ?_
    | fail_if_no_progress with_reducible refine Keeps.of_mk ?_

theorem onautReq_keeps {u : State} {s : State} {op : Nat} {seq : BitVec 16} {need : Nat} {early : Bool} {eff : State → OnautOut}
    (h_s : Keeps u s) (h_eff : ∀ tt, Keeps u tt → KeepsRR u (eff tt)) : KeepsOut u (onautReq s op seq need early eff) := by
  unfold onautReq
  repeat' first
    | (with_reducible first
        | assumption | refine act_keeps ?_ ?_ | refine State.onautAsk_keeps ?_ ?_ | apply h_eff | refine KeepsRR.snd (h_eff _ ?_)
        | refine KeepsOut.next ?_ | intro _ | refine KeepsRR.of ?_)
    | fail_if_no_progress with_reducible refine Keeps.of_mk ?_

theorem execStep_keeps {u : State} {seq : BitVec 16} {c : CoreIx} {s : State} (h_s : Keeps u s) : KeepsOut u (execStep seq c s) := by
  unfold execStep
  repeat' first
    | (with_reducible first
        | assumption | refine onautReq_keeps ?_ ?_ | refine State.bpCheck_keeps ?_ | refine State.put_keeps ?_ | refine ite_keeps ?_ ?_
        | refine iteOut_keeps ?_ ?_ | refine KeepsOut.next ?_ | intro _)
    | dsimp only | split
    | with_reducible refine KeepsRR.of ?_
    | fail_if_no_progress with_reducible refine Keeps.of_mk ?_

theorem execLock_keeps {u : State} {seq : BitVec 16} {s : State} (h_s : Keeps u s) : KeepsOut u (execLock seq s) := by
  unfold execLock
  repeat' first
    | (with_reducible first
        | assumption | refine onautReq_keeps ?_ ?_ | refine State.put_keeps ?_ | refine KeepsOut.next ?_ | intro _
        | refine KeepsRR.of ?_)
    | fail_if_no_progress with_reducible refine Keeps.of_mk ?_

theorem execOnautId_keeps {u : State} {seq : BitVec 16} {s : State} (h_s : Keeps u s) : KeepsOut u (execOnautId seq s) := by
  unfold execOnautId
  repeat' first
    | (with_reducible first
        | assumption | refine onautReq_keeps ?_ ?_ | refine KeepsOut.next ?_ | intro _ | refine KeepsRR.of ?_)
    | fail_if_no_progress with_reducible refine Keeps.of_mk ?_

theorem execOnautStatus_keeps {u : State} {seq : BitVec 16} {s : State} (h_s : Keeps u s) : KeepsOut u (execOnautStatus seq s) := by
  unfold execOnautStatus
  repeat' first
    | (with_reducible first
        | assumption | refine onautReq_keeps ?_ ?_ | refine KeepsOut.next ?_ | intro _ | refine KeepsRR.of ?_)
    | fail_if_no_progress with_reducible refine Keeps.of_mk ?_

theorem State.drawNonce_keeps {u : State} {s : State} (h_s : Keeps u s) : Keeps u (State.drawNonce s) := by
  unfold State.drawNonce
  repeat' first
    | with_reducible assumption
    | fail_if_no_progress with_reducible refine Keeps.of_mk ?_

theorem execChallenge_keeps {u : State} {seq : BitVec 16} {q : BitVec 2} {s : State}
    (h_s : Keeps u s) : KeepsOut u (execChallenge seq q s) := by
  unfold execChallenge
  repeat' first
    | (with_reducible first
        | assumption | refine onautReq_keeps ?_ ?_ | refine State.drawNonce_keeps ?_ | refine ite_keeps ?_ ?_
        | refine iteOut_keeps ?_ ?_ | refine KeepsOut.next ?_ | intro _)
    | dsimp only | split
    | with_reducible refine KeepsRR.of ?_
    | fail_if_no_progress with_reducible refine Keeps.of_mk ?_

theorem execToken_keeps {u : State} {seq : BitVec 16} {j : BitVec 5} {data : Word} {s : State}
    (h_s : Keeps u s) : KeepsOut u (execToken seq j data s) := by
  unfold execToken
  repeat' first
    | (with_reducible first
        | assumption | refine onautReq_keeps ?_ ?_ | refine ite_keeps ?_ ?_ | refine iteOut_keeps ?_ ?_ | refine KeepsOut.next ?_
        | intro _)
    | dsimp only | split
    | with_reducible refine KeepsRR.of ?_
    | fail_if_no_progress with_reducible refine Keeps.of_mk ?_

theorem execUnlock_keeps {u : State} {seq : BitVec 16} {s : State} (h_s : Keeps u s) : KeepsOut u (execUnlock seq s) := by
  unfold execUnlock
  repeat' first
    | (with_reducible first
        | assumption | refine onautReq_keeps ?_ ?_ | refine ite_keeps ?_ ?_ | refine iteOut_keeps ?_ ?_ | refine KeepsOut.next ?_
        | intro _)
    | dsimp only | split
    | with_reducible refine KeepsRR.of ?_
    | fail_if_no_progress with_reducible refine Keeps.of_mk ?_

theorem State.onautOutcome_keeps {u : State} {s : State} {seq : Nat} {status : Nat}
    (h_s : Keeps u s) : Keeps u (State.onautOutcome s seq status) := by
  unfold State.onautOutcome
  repeat' first
    | (with_reducible first
        | assumption | refine ite_keeps ?_ ?_ | intro _)
    | dsimp only | split
    | fail_if_no_progress with_reducible refine Keeps.of_mk ?_

theorem State.unlockEnd_keeps {u : State} {s : State} {seq : Nat} {nonce : List Byte} {token : List Byte}
    (h_s : Keeps u s) : Keeps u (State.unlockEnd s seq nonce token) := by
  unfold State.unlockEnd
  repeat' first
    | (with_reducible first
        | assumption | refine State.onautOutcome_keeps ?_ | refine State.put_keeps ?_ | refine State.bumpSat_keeps ?_
        | refine ite_keeps ?_ ?_)
    | dsimp only | split
    | fail_if_no_progress with_reducible refine Keeps.of_mk ?_

theorem execUnlockVerified_keeps {u : State} {s : State} (h_s : Keeps u s) : KeepsOut u (execUnlockVerified s) := by
  unfold execUnlockVerified
  repeat' first
    | (with_reducible first
        | assumption | refine act_keeps ?_ ?_ | refine State.unlockEnd_keeps ?_ | refine KeepsOut.next ?_)
    | dsimp only | split
    | fail_if_no_progress with_reducible refine Keeps.of_mk ?_

theorem execUnlockBackoffEnd_keeps {u : State} {s : State} (h_s : Keeps u s) : KeepsOut u (execUnlockBackoffEnd s) := by
  unfold execUnlockBackoffEnd
  repeat' first
    | (with_reducible first
        | assumption | refine act_keeps ?_ ?_ | refine State.put_keeps ?_ | refine KeepsOut.next ?_)
    | fail_if_no_progress with_reducible refine Keeps.of_mk ?_

theorem execPoll_keeps {u : State} {seq : BitVec 16} {s : State} (h_s : Keeps u s) : KeepsOut u (execPoll seq s) := by
  unfold execPoll
  repeat' first
    | (with_reducible first
        | assumption | refine onautReq_keeps ?_ ?_ | refine KeepsOut.next ?_ | intro _ | refine KeepsRR.of ?_)
    | fail_if_no_progress with_reducible refine Keeps.of_mk ?_

theorem State.onautRead_keeps {u : State} {s : State} {x1 : Nat} {len : Nat}
    (h_s : Keeps u s) : KeepsR u (State.onautRead s x1 len) := by
  unfold State.onautRead
  repeat' first
    | (with_reducible first
        | assumption | refine State.regRead_keeps ?_ | refine State.meet_keeps ?_ | refine State.setAgent_keeps ?_
        | refine State.draw_keeps ?_ | refine KeepsR.snd (State.regRead_keeps ?_) | refine KeepsR.snd (State.draw_keeps ?_)
        | refine ite_keeps ?_ ?_)
    | dsimp only | split
    | (with_reducible first
        | refine KeepsR.get (State.regRead_keeps ?_) (by with_reducible assumption)
        | refine KeepsR.get (State.draw_keeps ?_) (by with_reducible assumption))
    | refine KeepsR.of ?_
    | fail_if_no_progress with_reducible refine Keeps.of_mk ?_

theorem execOnautRead_keeps {u : State} {seq : BitVec 16} {size8 : Bool} {at_ : Word} {s : State}
    (h_s : Keeps u s) : KeepsOut u (execOnautRead seq size8 at_ s) := by
  unfold execOnautRead
  repeat' first
    | (with_reducible first
        | assumption | refine onautReq_keeps ?_ ?_ | refine State.onautRead_keeps ?_ | refine KeepsR.snd (State.onautRead_keeps ?_)
        | refine ite_keeps ?_ ?_ | refine iteOut_keeps ?_ ?_ | refine KeepsOut.next ?_ | intro _)
    | dsimp only | split
    | (with_reducible first
        | refine KeepsR.get (State.onautRead_keeps ?_) (by with_reducible assumption) | refine KeepsRR.of ?_ | refine KeepsR.of ?_)
    | fail_if_no_progress with_reducible refine Keeps.of_mk ?_

theorem State.onautWrite_keeps {u : State} {s : State} {x1 : Nat} {len : Nat} {v : Nat}
    (h_s : Keeps u s) : Keeps u (State.onautWrite s x1 len v) := by
  unfold State.onautWrite
  repeat' first
    | (with_reducible first
        | assumption | refine State.regWrite_keeps ?_ | refine State.extWrite_keeps ?_ | refine State.setAgent_keeps ?_)
    | dsimp only | split
    | fail_if_no_progress with_reducible refine Keeps.of_mk ?_

theorem execOnautWrite_keeps {u : State} {seq : BitVec 16} {size8 : Bool} {at_ : Word} {data : Word} {s : State}
    (h_s : Keeps u s) : KeepsOut u (execOnautWrite seq size8 at_ data s) := by
  unfold execOnautWrite
  repeat' first
    | (with_reducible first
        | assumption | refine onautReq_keeps ?_ ?_ | refine State.onautWrite_keeps ?_ | refine ite_keeps ?_ ?_
        | refine iteOut_keeps ?_ ?_ | refine KeepsOut.next ?_ | intro _)
    | dsimp only | split
    | with_reducible refine KeepsRR.of ?_
    | fail_if_no_progress with_reducible refine Keeps.of_mk ?_

theorem State.haltReq_keeps {u : State} {s : State} {c : CoreIx} (h_s : Keeps u s) : Keeps u (State.haltReq s c) := by
  unfold State.haltReq
  repeat' first
    | (with_reducible first
        | assumption | refine State.put_keeps ?_ | refine ite_keeps ?_ ?_)
    | dsimp only | split
    | fail_if_no_progress with_reducible refine Keeps.of_mk ?_

theorem execOnautHalt_keeps {u : State} {seq : BitVec 16} {cores : BitVec 16} {s : State}
    (h_s : Keeps u s) : KeepsOut u (execOnautHalt seq cores s) := by
  unfold execOnautHalt
  repeat' first
    | (with_reducible first
        | assumption | refine onautReq_keeps ?_ ?_ | refine forCores_keeps ?_ ?_ | refine State.haltReq_keeps ?_
        | refine KeepsOut.next ?_ | intro _ | refine KeepsRR.of ?_)
    | fail_if_no_progress with_reducible refine Keeps.of_mk ?_

theorem execCoreHalted_keeps {u : State} {c : CoreIx} {s : State} (h_s : Keeps u s) : KeepsOut u (execCoreHalted c s) := by
  unfold execCoreHalted
  repeat' first
    | (with_reducible first
        | assumption | refine act_keeps ?_ ?_ | refine State.put_keeps ?_ | refine KeepsOut.next ?_)
    | fail_if_no_progress with_reducible refine Keeps.of_mk ?_

theorem State.resumeCore_keeps {u : State} {s : State} {c : CoreIx} (h_s : Keeps u s) : Keeps u (State.resumeCore s c) := by
  unfold State.resumeCore
  repeat' first
    | (with_reducible first
        | assumption | refine State.bpCheck_keeps ?_ | refine State.put_keeps ?_)
    | fail_if_no_progress with_reducible refine Keeps.of_mk ?_

theorem execOnautResume_keeps {u : State} {seq : BitVec 16} {cores : BitVec 16} {s : State}
    (h_s : Keeps u s) : KeepsOut u (execOnautResume seq cores s) := by
  unfold execOnautResume
  repeat' first
    | (with_reducible first
        | assumption | refine onautReq_keeps ?_ ?_ | refine forCores_keeps ?_ ?_ | refine State.resumeCore_keeps ?_
        | refine KeepsOut.next ?_ | intro _ | refine KeepsRR.of ?_)
    | fail_if_no_progress with_reducible refine Keeps.of_mk ?_

theorem execBpSet_keeps {u : State} {seq : BitVec 16} {c : CoreIx} {i : Fin 4} {v : Word} {s : State}
    (h_s : Keeps u s) : KeepsOut u (execBpSet seq c i v s) := by
  unfold execBpSet
  repeat' first
    | (with_reducible first
        | assumption | refine onautReq_keeps ?_ ?_ | refine State.bpCheck_keeps ?_ | refine State.put_keeps ?_ | refine ite_keeps ?_ ?_
        | refine iteOut_keeps ?_ ?_ | refine KeepsOut.next ?_ | intro _)
    | dsimp only | split
    | with_reducible refine KeepsRR.of ?_
    | fail_if_no_progress with_reducible refine Keeps.of_mk ?_

theorem execBpClear_keeps {u : State} {seq : BitVec 16} {c : CoreIx} {i : Fin 4} {s : State}
    (h_s : Keeps u s) : KeepsOut u (execBpClear seq c i s) := by
  unfold execBpClear
  repeat' first
    | (with_reducible first
        | assumption | refine onautReq_keeps ?_ ?_ | refine State.put_keeps ?_ | refine KeepsOut.next ?_ | intro _
        | refine KeepsRR.of ?_)
    | fail_if_no_progress with_reducible refine Keeps.of_mk ?_

theorem State.onautCut_keeps {u : State} {s : State} {cut : Option (Fin 128)} (h_s : Keeps u s) : Keeps u (State.onautCut s cut) := by
  unfold State.onautCut
  repeat' first
    | (with_reducible first
        | assumption | refine ite_keeps ?_ ?_ | intro _)
    | dsimp only | split
    | fail_if_no_progress with_reducible refine Keeps.of_mk ?_

theorem onautRun_keeps {u : State} {f : Nat} {s : State} (h_s : Keeps u s) : KeepsOut u (onautRun f s) := by
  unfold onautRun
  repeat' first
    | (with_reducible first
        | assumption | refine execOnautId_keeps ?_ | refine execOnautStatus_keeps ?_ | refine execChallenge_keeps ?_
        | refine execToken_keeps ?_ | refine execUnlock_keeps ?_ | refine execLock_keeps ?_ | refine execPoll_keeps ?_
        | refine execOnautRead_keeps ?_ | refine execOnautWrite_keeps ?_ | refine execOnautHalt_keeps ?_
        | refine execOnautResume_keeps ?_ | refine execStep_keeps ?_ | refine execBpSet_keeps ?_ | refine execBpClear_keeps ?_
        | refine ite_keeps ?_ ?_ | refine iteOut_keeps ?_ ?_ | refine KeepsOut.next ?_)
    | dsimp only | split
    | fail_if_no_progress with_reducible refine Keeps.of_mk ?_

theorem execOnautBadRequest_keeps {u : State} {edges : Nat} {cut : Option (Fin 128)} {body : BitVec 160} {crc : BitVec 32}
    {s : State} (h_s : Keeps u s) : KeepsOut u (execOnautBadRequest edges cut body crc s) := by
  unfold execOnautBadRequest
  repeat' first
    | (with_reducible first
        | assumption | refine State.onautCut_keeps ?_ | refine State.onautSend_keeps ?_ | refine onautReq_keeps ?_ ?_
        | refine onautRun_keeps ?_ | refine ite_keeps ?_ ?_ | refine iteOut_keeps ?_ ?_ | refine KeepsOut.next ?_ | intro _)
    | dsimp only | split
    | with_reducible refine KeepsRR.of ?_
    | fail_if_no_progress with_reducible refine Keeps.of_mk ?_

/-! ### Machine/Mgmt.lean -/

theorem State.mgtWord_keeps {u : State} {s : State} {o : Nat} (h_s : Keeps u s) : KeepsR u (State.mgtWord s o) := by
  unfold State.mgtWord
  repeat' first
    | (with_reducible first
        | assumption | refine State.regRead_keeps ?_ | refine State.setAgent_keeps ?_ | refine KeepsR.snd (State.regRead_keeps ?_)
        | refine ite_keeps ?_ ?_)
    | dsimp only | split
    | with_reducible refine KeepsR.get (State.regRead_keeps ?_) (by with_reducible assumption)
    | refine KeepsR.of ?_
    | fail_if_no_progress with_reducible refine Keeps.of_mk ?_

theorem State.mgtWords_keeps {u : State} {x0 : Nat} {x1 : Nat} {x2 : State}
    (h_x2 : Keeps u x2) : KeepsR u (State.mgtWords x0 x1 x2) := by
  induction x0 generalizing x1 x2 with
  | zero => exact h_x2
  | succ n ih =>
    unfold State.mgtWords
    exact KeepsR.of (KeepsR.snd (ih (KeepsR.snd (State.mgtWord_keeps h_x2))))

theorem State.i3cSend_keeps {u : State} {s : State} {bs : List Byte} (h_s : Keeps u s) : Keeps u (State.i3cSend s bs) := by
  unfold State.i3cSend
  repeat' first
    | with_reducible assumption
    | fail_if_no_progress with_reducible refine Keeps.of_mk ?_

theorem State.modMgt_keeps {u : State} {s : State} {f : MgtSt → MgtSt} (h_s : Keeps u s) : Keeps u (State.modMgt s f) := by
  unfold State.modMgt
  repeat' first
    | (with_reducible first
        | assumption | intro _)
    | fail_if_no_progress with_reducible refine Keeps.of_mk ?_

theorem execPrivateRead_keeps {u : State} {count : Nat} {s : State} (h_s : Keeps u s) : KeepsOut u (execPrivateRead count s) := by
  unfold execPrivateRead
  repeat' first
    | (with_reducible first
        | assumption | refine State.mgtWords_keeps ?_ | refine act_keeps ?_ ?_ | refine State.i3cSend_keeps ?_
        | refine State.modMgt_keeps ?_ | refine KeepsR.snd (State.mgtWords_keeps ?_) | refine ite_keeps ?_ ?_
        | refine iteOut_keeps ?_ ?_ | refine KeepsOut.next ?_ | intro _)
    | dsimp only | split
    | (with_reducible first
        | refine KeepsR.get (State.mgtWords_keeps ?_) (by with_reducible assumption) | refine KeepsR.of ?_)
    | fail_if_no_progress with_reducible refine Keeps.of_mk ?_

theorem execGetpid_keeps {u : State} {s : State} (h_s : Keeps u s) : KeepsOut u (execGetpid s) := by
  unfold execGetpid
  repeat' first
    | (with_reducible first
        | assumption | refine act_keeps ?_ ?_ | refine State.i3cSend_keeps ?_ | refine KeepsOut.next ?_)
    | fail_if_no_progress with_reducible refine Keeps.of_mk ?_

theorem execEntdaa_keeps {u : State} {addr : BitVec 7} {s : State} (h_s : Keeps u s) : KeepsOut u (execEntdaa addr s) := by
  unfold execEntdaa
  repeat' first
    | (with_reducible first
        | assumption | refine act_keeps ?_ ?_ | refine State.modMgt_keeps ?_ | refine State.i3cSend_keeps ?_ | refine KeepsOut.next ?_
        | intro _)
    | fail_if_no_progress with_reducible refine Keeps.of_mk ?_

theorem execSetdasa_keeps {u : State} {addr : BitVec 7} {s : State} (h_s : Keeps u s) : KeepsOut u (execSetdasa addr s) := by
  unfold execSetdasa
  repeat' first
    | (with_reducible first
        | assumption | refine act_keeps ?_ ?_ | refine State.modMgt_keeps ?_ | refine KeepsOut.next ?_ | intro _)
    | fail_if_no_progress with_reducible refine Keeps.of_mk ?_

theorem execRstdaa_keeps {u : State} {s : State} (h_s : Keeps u s) : KeepsOut u (execRstdaa s) := by
  unfold execRstdaa
  repeat' first
    | (with_reducible first
        | assumption | refine act_keeps ?_ ?_ | refine State.modMgt_keeps ?_ | refine KeepsOut.next ?_ | intro _)
    | fail_if_no_progress with_reducible refine Keeps.of_mk ?_

theorem execEnec_keeps {u : State} {s : State} (h_s : Keeps u s) : KeepsOut u (execEnec s) := by
  unfold execEnec
  repeat' first
    | (with_reducible first
        | assumption | refine act_keeps ?_ ?_ | refine State.ibiTry_keeps ?_ | refine State.modMgt_keeps ?_ | refine KeepsOut.next ?_
        | intro _)
    | fail_if_no_progress with_reducible refine Keeps.of_mk ?_

theorem execDisec_keeps {u : State} {s : State} (h_s : Keeps u s) : KeepsOut u (execDisec s) := by
  unfold execDisec
  repeat' first
    | (with_reducible first
        | assumption | refine act_keeps ?_ ?_ | refine State.modMgt_keeps ?_ | refine KeepsOut.next ?_ | intro _)
    | fail_if_no_progress with_reducible refine Keeps.of_mk ?_

theorem execGetbcr_keeps {u : State} {s : State} (h_s : Keeps u s) : KeepsOut u (execGetbcr s) := by
  unfold execGetbcr
  repeat' first
    | (with_reducible first
        | assumption | refine act_keeps ?_ ?_ | refine State.i3cSend_keeps ?_ | refine KeepsOut.next ?_)
    | fail_if_no_progress with_reducible refine Keeps.of_mk ?_

theorem execGetdcr_keeps {u : State} {s : State} (h_s : Keeps u s) : KeepsOut u (execGetdcr s) := by
  unfold execGetdcr
  repeat' first
    | (with_reducible first
        | assumption | refine act_keeps ?_ ?_ | refine State.i3cSend_keeps ?_ | refine KeepsOut.next ?_)
    | fail_if_no_progress with_reducible refine Keeps.of_mk ?_

theorem execGetstatus_keeps {u : State} {s : State} (h_s : Keeps u s) : KeepsOut u (execGetstatus s) := by
  unfold execGetstatus
  repeat' first
    | (with_reducible first
        | assumption | refine act_keeps ?_ ?_ | refine State.i3cSend_keeps ?_ | refine KeepsOut.next ?_)
    | fail_if_no_progress with_reducible refine Keeps.of_mk ?_

theorem execGetmrl_keeps {u : State} {s : State} (h_s : Keeps u s) : KeepsOut u (execGetmrl s) := by
  unfold execGetmrl
  repeat' first
    | (with_reducible first
        | assumption | refine act_keeps ?_ ?_ | refine State.i3cSend_keeps ?_ | refine KeepsOut.next ?_)
    | fail_if_no_progress with_reducible refine Keeps.of_mk ?_

theorem State.mgtWrite_keeps {u : State} {s : State} {off : Nat} {bs : List Byte}
    (h_s : Keeps u s) : Keeps u (State.mgtWrite s off bs) := by
  unfold State.mgtWrite
  repeat' first
    | (with_reducible first
        | assumption | refine State.regWrite_keeps ?_ | refine foldl_keeps ?_ ?_ | refine foldl_snd_keeps ?_ ?_
        | refine ite_keeps ?_ ?_ | intro _)
    | dsimp only | split
    | fail_if_no_progress with_reducible refine Keeps.of_mk ?_

theorem execPrivateWrite_keeps {u : State} {off : Byte} {bytes : List Byte} {s : State}
    (h_s : Keeps u s) : KeepsOut u (execPrivateWrite off bytes s) := by
  unfold execPrivateWrite
  repeat' first
    | (with_reducible first
        | assumption | refine State.modMgt_keeps ?_ | refine act_keeps ?_ ?_ | refine State.mgtWrite_keeps ?_ | refine ite_keeps ?_ ?_
        | refine iteOut_keeps ?_ ?_ | refine KeepsOut.next ?_ | intro _)
    | dsimp only | split
    | fail_if_no_progress with_reducible refine Keeps.of_mk ?_

theorem execOffNotice_keeps {u : State} {s : State} (h_s : Keeps u s) : KeepsOut u (execOffNotice s) := by
  unfold execOffNotice
  repeat' first
    | (with_reducible first
        | assumption | refine act_keeps ?_ ?_ | refine State.offNotice_keeps ?_ | refine KeepsOut.next ?_)
    | fail_if_no_progress with_reducible refine Keeps.of_mk ?_

theorem execTrayReq_keeps {u : State} {code : BitVec 2} {s : State} (h_s : Keeps u s) : KeepsOut u (execTrayReq code s) := by
  unfold execTrayReq
  repeat' first
    | (with_reducible first
        | assumption | refine act_keeps ?_ ?_ | refine State.trayReq_keeps ?_ | refine KeepsOut.next ?_)
    | fail_if_no_progress with_reducible refine Keeps.of_mk ?_

/-! ### Machine/Power.lean -/

theorem State.modPower_keeps {u : State} {s : State} {f : PowerSt → PowerSt} (h_s : Keeps u s) : Keeps u (State.modPower s f) := by
  unfold State.modPower
  repeat' first
    | (with_reducible first
        | assumption | intro _)
    | fail_if_no_progress with_reducible refine Keeps.of_mk ?_

theorem State.riseTo_keeps {u : State} {s : State} {steps : Nat} (h_s : Keeps u s) : Keeps u (State.riseTo s steps) := by
  unfold State.riseTo
  repeat' first
    | (with_reducible first
        | assumption | refine State.modPower_keeps ?_ | refine ite_keeps ?_ ?_ | intro _)
    | dsimp only | split
    | fail_if_no_progress with_reducible refine Keeps.of_mk ?_

theorem State.startUp_keeps {u : State} {s : State} {steps : Nat} (h_s : Keeps u s) : Keeps u (State.startUp s steps) := by
  unfold State.startUp
  repeat' first
    | (with_reducible first
        | assumption | refine State.riseTo_keeps ?_ | refine ite_keeps ?_ ?_)
    | dsimp only | split
    | fail_if_no_progress with_reducible refine Keeps.of_mk ?_

theorem execPowerUpSequence_keeps {u : State} {vinMv : Nat} {steps : Fin 8} {s : State}
    (h_s : Keeps u s) : KeepsOut u (execPowerUpSequence vinMv steps s) := by
  unfold execPowerUpSequence
  repeat' first
    | (with_reducible first
        | assumption | refine State.modPower_keeps ?_ | refine done_keeps ?_ | refine State.riseTo_keeps ?_
        | refine State.startUp_keeps ?_ | refine ite_keeps ?_ ?_ | refine iteOut_keeps ?_ ?_ | refine KeepsOut.next ?_ | intro _)
    | dsimp only | split
    | fail_if_no_progress with_reducible refine Keeps.of_mk ?_

theorem execRailToleranceTimeout_keeps {u : State} {s : State} (h_s : Keeps u s) : KeepsOut u (execRailToleranceTimeout s) := by
  unfold execRailToleranceTimeout
  repeat' first
    | (with_reducible first
        | assumption | refine act_keeps ?_ ?_ | refine State.unpowered_keeps ?_ | refine KeepsOut.next ?_)
    | fail_if_no_progress with_reducible refine Keeps.of_mk ?_

theorem execPowerDownSequence_keeps {u : State} {s : State} (h_s : Keeps u s) : KeepsOut u (execPowerDownSequence s) := by
  unfold execPowerDownSequence
  repeat' first
    | (with_reducible first
        | assumption | refine State.modPower_keeps ?_ | refine done_keeps ?_ | refine State.unpowered_keeps ?_ | refine ite_keeps ?_ ?_
        | refine iteOut_keeps ?_ ?_ | refine KeepsOut.next ?_ | intro _)
    | dsimp only | split
    | fail_if_no_progress with_reducible refine Keeps.of_mk ?_

theorem execMinimumOffTimeExpiry_keeps {u : State} {vinMv : Nat} {steps : Fin 8} {s : State}
    (h_s : Keeps u s) : KeepsOut u (execMinimumOffTimeExpiry vinMv steps s) := by
  unfold execMinimumOffTimeExpiry
  repeat' first
    | (with_reducible first
        | assumption | refine State.modPower_keeps ?_ | refine act_keeps ?_ ?_ | refine State.startUp_keeps ?_
        | refine KeepsOut.next ?_ | intro _)
    | fail_if_no_progress with_reducible refine Keeps.of_mk ?_

theorem execSupplyRemoval_keeps {u : State} {vinMv : Nat} {us : Nat} {s : State}
    (h_s : Keeps u s) : KeepsOut u (execSupplyRemoval vinMv us s) := by
  unfold execSupplyRemoval
  repeat' first
    | (with_reducible first
        | assumption | refine act_keeps ?_ ?_ | refine State.unpowered_keeps ?_ | refine State.modPower_keeps ?_
        | refine KeepsOut.next ?_ | intro _)
    | fail_if_no_progress with_reducible refine Keeps.of_mk ?_

theorem execModResetNLow_keeps {u : State} {ns : Nat} {s : State} (h_s : Keeps u s) : KeepsOut u (execModResetNLow ns s) := by
  unfold execModResetNLow
  repeat' first
    | (with_reducible first
        | assumption | refine State.chipReset_keeps ?_ | refine State.modPower_keeps ?_ | refine ite_keeps ?_ ?_
        | refine iteOut_keeps ?_ ?_ | refine KeepsOut.next ?_ | intro _)
    | dsimp only | split
    | fail_if_no_progress with_reducible refine Keeps.of_mk ?_

theorem execModResetNHigh_keeps {u : State} {s : State} (h_s : Keeps u s) : KeepsOut u (execModResetNHigh s) := by
  unfold execModResetNHigh
  repeat' first
    | (with_reducible first
        | assumption | refine done_keeps ?_ | refine State.modPower_keeps ?_ | refine KeepsOut.next ?_ | intro _)
    | fail_if_no_progress with_reducible refine Keeps.of_mk ?_

theorem State.sense_keeps {u : State} {s : State} {dieMax : Nat} {shell : Nat} {inlet : Nat} {outlet : Nat}
    (h_s : Keeps u s) : Keeps u (State.sense s dieMax shell inlet outlet) := by
  unfold State.sense
  repeat' first
    | (with_reducible first
        | assumption | refine State.modPower_keeps ?_ | refine State.put_keeps ?_ | refine State.ibiCause_keeps ?_
        | refine ite_keeps ?_ ?_ | intro _)
    | dsimp only | split
    | fail_if_no_progress with_reducible refine Keeps.of_mk ?_

theorem State.measure_keeps {u : State} {s : State} {watts : Nat} {partWatts : Vector Nat 4}
    (h_s : Keeps u s) : Keeps u (State.measure s watts partWatts) := by
  unfold State.measure
  repeat' first
    | (with_reducible first
        | assumption | refine forParts_keeps ?_ ?_ | refine State.put_keeps ?_ | refine State.modPower_keeps ?_ | intro _)
    | fail_if_no_progress with_reducible refine Keeps.of_mk ?_

theorem State.trip_keeps {u : State} {s : State} (h_s : Keeps u s) : Keeps u (State.trip s) := by
  unfold State.trip
  repeat' first
    | (with_reducible first
        | assumption | refine State.unpowered_keeps ?_)
    | fail_if_no_progress with_reducible refine Keeps.of_mk ?_

theorem State.powerTest_keeps {u : State} {s : State} {p : Nat} (h_s : Keeps u s) : KeepsR u (State.powerTest s p) := by
  unfold State.powerTest
  repeat' first
    | (with_reducible first
        | assumption | refine State.flag_keeps ?_ | refine State.modPower_keeps ?_ | refine ite_keeps ?_ ?_ | intro _)
    | dsimp only | split
    | refine KeepsR.of ?_
    | fail_if_no_progress with_reducible refine Keeps.of_mk ?_

theorem State.reduceGates_keeps {u : State} {s : State} {step : Nat} {th : Bool}
    (h_s : Keeps u s) : Keeps u (State.reduceGates s step th) := by
  unfold State.reduceGates
  repeat' first
    | (with_reducible first
        | assumption | refine forParts_keeps ?_ ?_ | refine State.put_keeps ?_ | refine ite_keeps ?_ ?_ | intro _)
    | dsimp only | split
    | fail_if_no_progress with_reducible refine Keeps.of_mk ?_

theorem State.raiseGates_keeps {u : State} {s : State} (h_s : Keeps u s) : Keeps u (State.raiseGates s) := by
  unfold State.raiseGates
  repeat' first
    | (with_reducible first
        | assumption | refine forParts_keeps ?_ ?_ | refine State.put_keeps ?_ | refine ite_keeps ?_ ?_ | intro _)
    | dsimp only | split
    | fail_if_no_progress with_reducible refine Keeps.of_mk ?_

theorem State.powerStep_keeps {u : State} {s : State} {p : Nat} {th : Bool} (h_s : Keeps u s) : Keeps u (State.powerStep s p th) := by
  unfold State.powerStep
  repeat' first
    | (with_reducible first
        | assumption | refine State.powerTest_keeps ?_ | refine State.tally_keeps ?_ | refine State.flag_keeps ?_
        | refine State.modPower_keeps ?_ | refine State.reduceGates_keeps ?_ | refine State.raiseGates_keeps ?_
        | refine KeepsR.snd (State.powerTest_keeps ?_) | refine ite_keeps ?_ ?_ | intro _)
    | dsimp only | split
    | (with_reducible first
        | refine KeepsR.get (State.powerTest_keeps ?_) (by with_reducible assumption) | refine KeepsR.of ?_)
    | fail_if_no_progress with_reducible refine Keeps.of_mk ?_

theorem execPowerSample_keeps {u : State} {watts : Nat} {partWatts : Vector Nat 4} {dieMax : BitVec 8} {shell : BitVec 8}
    {inlet : BitVec 8} {outlet : BitVec 8} {s : State}
    (h_s : Keeps u s) : KeepsOut u (execPowerSample watts partWatts dieMax shell inlet outlet s) := by
  unfold execPowerSample
  repeat' first
    | (with_reducible first
        | assumption | refine State.modPower_keeps ?_ | refine State.sense_keeps ?_ | refine State.measure_keeps ?_
        | refine act_keeps ?_ ?_ | refine State.trip_keeps ?_ | refine State.powerStep_keeps ?_ | refine ite_keeps ?_ ?_
        | refine iteOut_keeps ?_ ?_ | refine KeepsOut.next ?_ | intro _)
    | dsimp only | split
    | fail_if_no_progress with_reducible refine Keeps.of_mk ?_

theorem execThermalTrip_keeps {u : State} {celsius : Nat} {s : State} (h_s : Keeps u s) : KeepsOut u (execThermalTrip celsius s) := by
  unfold execThermalTrip
  repeat' first
    | (with_reducible first
        | assumption | refine act_keeps ?_ ?_ | refine State.trip_keeps ?_ | refine KeepsOut.next ?_)
    | fail_if_no_progress with_reducible refine Keeps.of_mk ?_

theorem execIdentityEepromAccess_keeps {u : State} {at_ : BitVec 13} {wr : Option Byte} {s : State}
    (h_s : Keeps u s) : KeepsOut u (execIdentityEepromAccess at_ wr s) := by
  unfold execIdentityEepromAccess
  refine act_keeps h_s ?_
  split
  · split
    · exact h_s
    · exact eeprom_keeps (by omega) h_s
  · exact State.i3cSend_keeps h_s

/-! ### Machine/Tick.lean -/

theorem State.resetsOn_keeps {u : State} {s : State} (h_s : Keeps u s) : Keeps u (State.resetsOn s) := by
  unfold State.resetsOn
  repeat' first
    | (with_reducible first
        | assumption | refine State.quiesce_keeps ?_ | refine State.chipStepOn_keeps ?_ | refine forParts_keeps ?_ ?_
        | refine State.resetStep_keeps ?_ | refine State.traceStep_keeps ?_ | refine ite_keeps ?_ ?_ | intro _)
    | dsimp only | split
    | fail_if_no_progress with_reducible refine Keeps.of_mk ?_

theorem State.showWait_keeps {u : State} {s : State} {c : CoreIx} (h_s : Keeps u s) : Keeps u (State.showWait s c) := by
  unfold State.showWait
  repeat' first
    | (with_reducible first
        | assumption | refine State.seqState_keeps ?_ | refine ite_keeps ?_ ?_)
    | dsimp only | split
    | fail_if_no_progress with_reducible refine Keeps.of_mk ?_

theorem State.engSlots_keeps {u : State} {s : State} {c : CoreIx} (h_s : Keeps u s) : Keeps u (State.engSlots s c) := by
  unfold State.engSlots
  repeat' first
    | (with_reducible first
        | assumption | refine State.engSlot_keeps ?_ | refine upTo_keeps ?_ ?_ | refine ite_keeps ?_ ?_ | intro _)
    | dsimp only | split
    | fail_if_no_progress with_reducible refine Keeps.of_mk ?_

theorem State.countIdle_keeps {u : State} {s : State} {c : CoreIx} {isOpen : Bool}
    (h_s : Keeps u s) : Keeps u (State.countIdle s c isOpen) := by
  unfold State.countIdle
  repeat' first
    | (with_reducible first
        | assumption | refine State.bump_keeps ?_ | refine foldl_keeps ?_ ?_ | refine foldl_snd_keeps ?_ ?_ | refine ite_keeps ?_ ?_
        | intro _)
    | dsimp only | split
    | fail_if_no_progress with_reducible refine Keeps.of_mk ?_

theorem State.shiftHalt_keeps {u : State} {s : State} {n : PartIx} (h_s : Keeps u s) : Keeps u (State.shiftHalt s n) := by
  unfold State.shiftHalt
  repeat' first
    | (with_reducible first
        | assumption | refine forCores_keeps ?_ ?_ | refine State.modSeg_keeps ?_ | refine State.modPart_keeps ?_
        | refine State.bump_keeps ?_ | refine ite_keeps ?_ ?_ | intro _)
    | dsimp only | split
    | fail_if_no_progress with_reducible refine Keeps.of_mk ?_

theorem State.tickPart_keeps {u : State} {s : State} {n : PartIx} (h_s : Keeps u s) : Keeps u (State.tickPart s n) := by
  unfold State.tickPart
  repeat' first
    | (with_reducible first
        | assumption | refine State.loadStep_keeps ?_ | refine forCores_keeps ?_ ?_ | refine State.showWait_keeps ?_
        | refine State.semTryGrant_keeps ?_ | refine State.semLook_keeps ?_ | refine State.engSlots_keeps ?_
        | refine State.countIdle_keeps ?_ | refine State.modHealth_keeps ?_ | refine State.shiftHalt_keeps ?_ | refine ite_keeps ?_ ?_
        | intro _)
    | dsimp only | split
    | fail_if_no_progress with_reducible refine Keeps.of_mk ?_

theorem State.drainAll_keeps {u : State} {s : State} (h_s : Keeps u s) : Keeps u (State.drainAll s) := by
  unfold State.drainAll
  repeat' first
    | (with_reducible first
        | assumption | refine forCores_keeps ?_ ?_ | refine State.drainSlots_keeps ?_ | refine ite_keeps ?_ ?_ | intro _)
    | dsimp only | split
    | fail_if_no_progress with_reducible refine Keeps.of_mk ?_

theorem State.endAclk_keeps {u : State} {s : State} (h_s : Keeps u s) : Keeps u (State.endAclk s) := by
  unfold State.endAclk
  repeat' first
    | (with_reducible first
        | assumption | refine State.identDue_keeps ?_ | refine State.frameDue_keeps ?_ | refine State.writeRecs_keeps ?_
        | refine foldl_keeps ?_ ?_ | refine foldl_snd_keeps ?_ ?_ | intro _)
    | fail_if_no_progress with_reducible refine Keeps.of_mk ?_

/-! ### One aclk of the module -/

theorem State.tick_keeps {u s : State} (h : Keeps u s) : Keeps u s.tick := by
  unfold State.tick
  refine ite_keeps ?_ (ite_keeps (Keeps.of_mk h) h)
  exact State.resetsOn_keeps (State.endAclk_keeps (State.checkDrains_keeps (State.wakeWaiters_keeps
    (forParts_keeps (State.drainAll_keeps (State.landFlips_keeps h)) (fun _ _ k => State.tickPart_keeps k)))))

end Sys2Proof.Machine
end

