-- ==== Sys2Proof/Laws/Memory.lean ====
section
/-! SUPPORT. Laws/Memory.lean: reading local memory after it is written: the bytes written, and every other byte as before. -/

namespace Sys2Proof.Machine

/-- Storing bytes leaves the bytes outside them. -/
theorem storeBytes_other (m : Sparse Byte) (a : Nat) (bs : List Byte) (b : Nat) (h : b < a ∨ a + bs.length ≤ b) :
    Sparse.get (storeBytes m a bs) b 0 = Sparse.get m b 0 := by
  induction bs generalizing m a with
  | nil => rfl
  | cons x r ih =>
    have hl : (x :: r).length = r.length + 1 := rfl
    show Sparse.get (storeBytes (Sparse.set m a x 0) (a + 1) r) b 0 = _
    rw [ih _ _ (by omega), Sparse.get_set_other _ _ _ _ _ (by omega)]

/-- Storing bytes stores each in its place. -/
theorem storeBytes_same (m : Sparse Byte) (a : Nat) (bs : List Byte) (i : Nat) (h : i < bs.length) :
    Sparse.get (storeBytes m a bs) (a + i) 0 = bs.getD i 0 := by
  induction bs generalizing m a i with
  | nil => exact absurd h (Nat.not_lt_zero i)
  | cons x r ih =>
    show Sparse.get (storeBytes (Sparse.set m a x 0) (a + 1) r) (a + i) 0 = _
    cases i with
    | zero =>
      rw [storeBytes_other _ _ _ _ (by omega)]
      exact Sparse.get_set_same m a x 0
    | succ k =>
      have hk : k < r.length := by
        have : (x :: r).length = r.length + 1 := rfl
        omega
      have e : a + (k + 1) = a + 1 + k := by omega
      rw [e, ih _ _ _ hk]
      rfl

/-- A byte outside a store reads as before. -/
theorem State.rd8_wrBytes_other (s : State) (a : Nat) (bs : List Byte) (b : Nat) (h : b < a ∨ a + bs.length ≤ b) :
    (s.wrBytes a bs).rd8 b = s.rd8 b := storeBytes_other s.mem a bs b h

/-- A byte of a store reads as it was written. -/
theorem State.rd8_wrBytes_same (s : State) (a : Nat) (bs : List Byte) (i : Nat) (h : i < bs.length) :
    (s.wrBytes a bs).rd8 (a + i) = bs.getD i 0 := storeBytes_same s.mem a bs i h

/-- The bytes written read back. -/
theorem State.rdBytes_wrBytes (s : State) (a : Nat) (bs : List Byte) : (s.wrBytes a bs).rdBytes a bs.length = bs := by
  apply List.ext_getElem
  · simp [State.rdBytes]
  · intro i h1 h2
    simp only [State.rdBytes, List.getElem_map, List.getElem_range]
    rw [State.rd8_wrBytes_same s a bs i h2]
    simp [List.getD, h2]

/-- A word poisoned reads poisoned (R205). -/
theorem State.poisoned_poison (s : State) (a : Nat) : (s.poison a).poisoned a = true := by
  show (Sparse.get (Sparse.set s.synd (a / 4) 0x7F 0) (a / 4) 0 == 0x7F) = true
  rw [Sparse.get_set_same]
  decide

/-- Poison of one word leaves the others (R205). -/
theorem State.poisoned_poison_other (s : State) (a b : Nat) (h : b / 4 ≠ a / 4) : (s.poison a).poisoned b = s.poisoned b := by
  show (Sparse.get (Sparse.set s.synd (a / 4) 0x7F 0) (b / 4) 0 == 0x7F) = _
  rw [Sparse.get_set_other _ _ _ _ _ h]
  rfl

/-- A byte of a range that is zeroed reads 0 (R326, R333). -/
theorem State.rd8_scrubZero (s : State) (lo hi a : Nat) (h : lo ≤ a ∧ a < hi) : (s.scrubZero lo hi).rd8 a = 0 := by
  show Sparse.get (s.mem.eraseRange lo hi) a 0 = 0
  unfold Sparse.get
  rw [Sparse.find?_eraseRange]
  simp [h]

end Sys2Proof.Machine
end

