-- ==== Sys2Proof/Laws/State.lean ====
section
/-! SUPPORT. Laws/State.lean: what each named update of the state leaves of every field, and what reading gives after it. -/

namespace Sys2Proof.Machine

/-! ### Every field that a named update does not change -/

@[simp] theorem State.put_pending (s : State) (f : Field) (v : Nat) : (s.put f v).pending = s.pending := rfl
@[simp] theorem State.put_time (s : State) (f : Field) (v : Nat) : (s.put f v).time = s.time := rfl
@[simp] theorem State.put_slots (s : State) (f : Field) (v : Nat) : (s.put f v).slots = s.slots := rfl
@[simp] theorem State.put_free (s : State) (f : Field) (v : Nat) : (s.put f v).free = s.free := rfl
@[simp] theorem State.put_force (s : State) (f : Field) (v : Nat) : (s.put f v).force = s.force := rfl
@[simp] theorem State.put_shPend (s : State) (f : Field) (v : Nat) : (s.put f v).shPend = s.shPend := rfl
@[simp] theorem State.put_noted (s : State) (f : Field) (v : Nat) : (s.put f v).noted = s.noted := rfl
@[simp] theorem State.put_before (s : State) (f : Field) (v : Nat) : (s.put f v).before = s.before := rfl
@[simp] theorem State.put_acts (s : State) (f : Field) (v : Nat) : (s.put f v).acts = s.acts := rfl
@[simp] theorem State.put_fallen (s : State) (f : Field) (v : Nat) : (s.put f v).fallen = s.fallen := rfl
@[simp] theorem State.put_lkNow (s : State) (f : Field) (v : Nat) : (s.put f v).lkNow = s.lkNow := rfl
@[simp] theorem State.put_agents (s : State) (f : Field) (v : Nat) : (s.put f v).agents = s.agents := rfl
@[simp] theorem State.put_power (s : State) (f : Field) (v : Nat) : (s.put f v).power = s.power := rfl
@[simp] theorem State.put_eeprom (s : State) (f : Field) (v : Nat) : (s.put f v).eeprom = s.eeprom := rfl
@[simp] theorem State.put_mem (s : State) (f : Field) (v : Nat) : (s.put f v).mem = s.mem := rfl
@[simp] theorem State.put_synd (s : State) (f : Field) (v : Nat) : (s.put f v).synd = s.synd := rfl
@[simp] theorem State.put_lineErrs (s : State) (f : Field) (v : Nat) : (s.put f v).lineErrs = s.lineErrs := rfl
@[simp] theorem State.put_parts (s : State) (f : Field) (v : Nat) : (s.put f v).parts = s.parts := rfl
@[simp] theorem State.put_cores (s : State) (f : Field) (v : Nat) : (s.put f v).cores = s.cores := rfl
@[simp] theorem State.put_errs (s : State) (f : Field) (v : Nat) : (s.put f v).errs = s.errs := rfl
@[simp] theorem State.put_newErrs (s : State) (f : Field) (v : Nat) : (s.put f v).newErrs = s.newErrs := rfl
@[simp] theorem State.put_rates (s : State) (f : Field) (v : Nat) : (s.put f v).rates = s.rates := rfl
@[simp] theorem State.put_ferrule (s : State) (f : Field) (v : Nat) : (s.put f v).ferrule = s.ferrule := rfl
@[simp] theorem State.put_ferruleTx (s : State) (f : Field) (v : Nat) : (s.put f v).ferruleTx = s.ferruleTx := rfl
@[simp] theorem State.put_cancels (s : State) (f : Field) (v : Nat) : (s.put f v).cancels = s.cancels := rfl
@[simp] theorem State.put_profiles (s : State) (f : Field) (v : Nat) : (s.put f v).profiles = s.profiles := rfl
@[simp] theorem State.put_wts (s : State) (f : Field) (v : Nat) : (s.put f v).wts = s.wts := rfl
@[simp] theorem State.put_scrub (s : State) (f : Field) (v : Nat) : (s.put f v).scrub = s.scrub := rfl
@[simp] theorem State.put_mgt (s : State) (f : Field) (v : Nat) : (s.put f v).mgt = s.mgt := rfl
@[simp] theorem State.put_i3cTx (s : State) (f : Field) (v : Nat) : (s.put f v).i3cTx = s.i3cTx := rfl
@[simp] theorem State.put_chart (s : State) (f : Field) (v : Nat) : (s.put f v).chart = s.chart := rfl
@[simp] theorem State.put_links (s : State) (f : Field) (v : Nat) : (s.put f v).links = s.links := rfl
@[simp] theorem State.put_bootIx (s : State) (f : Field) (v : Nat) : (s.put f v).bootIx = s.bootIx := rfl
@[simp] theorem State.put_boot (s : State) (f : Field) (v : Nat) : (s.put f v).boot = s.boot := rfl
@[simp] theorem State.put_onaut (s : State) (f : Field) (v : Nat) : (s.put f v).onaut = s.onaut := rfl
@[simp] theorem State.put_flashA (s : State) (f : Field) (v : Nat) : (s.put f v).flashA = s.flashA := rfl
@[simp] theorem State.put_flashB (s : State) (f : Field) (v : Nat) : (s.put f v).flashB = s.flashB := rfl
@[simp] theorem State.put_fuses (s : State) (f : Field) (v : Nat) : (s.put f v).fuses = s.fuses := rfl
@[simp] theorem State.put_trace0 (s : State) (f : Field) (v : Nat) : (s.put f v).trace0 = s.trace0 := rfl
@[simp] theorem State.put_trace1 (s : State) (f : Field) (v : Nat) : (s.put f v).trace1 = s.trace1 := rfl
@[simp] theorem State.put_tracer (s : State) (f : Field) (v : Nat) : (s.put f v).tracer = s.tracer := rfl
@[simp] theorem State.put_cap (s : State) (f : Field) (v : Nat) : (s.put f v).cap = s.cap := rfl

@[simp] theorem State.setPart_pending (s : State) (n : PartIx) (p : Part) : (s.setPart n p).pending = s.pending := rfl
@[simp] theorem State.setPart_time (s : State) (n : PartIx) (p : Part) : (s.setPart n p).time = s.time := rfl
@[simp] theorem State.setPart_slots (s : State) (n : PartIx) (p : Part) : (s.setPart n p).slots = s.slots := rfl
@[simp] theorem State.setPart_free (s : State) (n : PartIx) (p : Part) : (s.setPart n p).free = s.free := rfl
@[simp] theorem State.setPart_regs (s : State) (n : PartIx) (p : Part) : (s.setPart n p).regs = s.regs := rfl
@[simp] theorem State.setPart_force (s : State) (n : PartIx) (p : Part) : (s.setPart n p).force = s.force := rfl
@[simp] theorem State.setPart_shPend (s : State) (n : PartIx) (p : Part) : (s.setPart n p).shPend = s.shPend := rfl
@[simp] theorem State.setPart_noted (s : State) (n : PartIx) (p : Part) : (s.setPart n p).noted = s.noted := rfl
@[simp] theorem State.setPart_before (s : State) (n : PartIx) (p : Part) : (s.setPart n p).before = s.before := rfl
@[simp] theorem State.setPart_acts (s : State) (n : PartIx) (p : Part) : (s.setPart n p).acts = s.acts := rfl
@[simp] theorem State.setPart_fallen (s : State) (n : PartIx) (p : Part) : (s.setPart n p).fallen = s.fallen := rfl
@[simp] theorem State.setPart_lkNow (s : State) (n : PartIx) (p : Part) : (s.setPart n p).lkNow = s.lkNow := rfl
@[simp] theorem State.setPart_agents (s : State) (n : PartIx) (p : Part) : (s.setPart n p).agents = s.agents := rfl
@[simp] theorem State.setPart_power (s : State) (n : PartIx) (p : Part) : (s.setPart n p).power = s.power := rfl
@[simp] theorem State.setPart_eeprom (s : State) (n : PartIx) (p : Part) : (s.setPart n p).eeprom = s.eeprom := rfl
@[simp] theorem State.setPart_mem (s : State) (n : PartIx) (p : Part) : (s.setPart n p).mem = s.mem := rfl
@[simp] theorem State.setPart_synd (s : State) (n : PartIx) (p : Part) : (s.setPart n p).synd = s.synd := rfl
@[simp] theorem State.setPart_lineErrs (s : State) (n : PartIx) (p : Part) : (s.setPart n p).lineErrs = s.lineErrs := rfl
@[simp] theorem State.setPart_cores (s : State) (n : PartIx) (p : Part) : (s.setPart n p).cores = s.cores := rfl
@[simp] theorem State.setPart_errs (s : State) (n : PartIx) (p : Part) : (s.setPart n p).errs = s.errs := rfl
@[simp] theorem State.setPart_newErrs (s : State) (n : PartIx) (p : Part) : (s.setPart n p).newErrs = s.newErrs := rfl
@[simp] theorem State.setPart_rates (s : State) (n : PartIx) (p : Part) : (s.setPart n p).rates = s.rates := rfl
@[simp] theorem State.setPart_ferrule (s : State) (n : PartIx) (p : Part) : (s.setPart n p).ferrule = s.ferrule := rfl
@[simp] theorem State.setPart_ferruleTx (s : State) (n : PartIx) (p : Part) : (s.setPart n p).ferruleTx = s.ferruleTx := rfl
@[simp] theorem State.setPart_cancels (s : State) (n : PartIx) (p : Part) : (s.setPart n p).cancels = s.cancels := rfl
@[simp] theorem State.setPart_profiles (s : State) (n : PartIx) (p : Part) : (s.setPart n p).profiles = s.profiles := rfl
@[simp] theorem State.setPart_wts (s : State) (n : PartIx) (p : Part) : (s.setPart n p).wts = s.wts := rfl
@[simp] theorem State.setPart_scrub (s : State) (n : PartIx) (p : Part) : (s.setPart n p).scrub = s.scrub := rfl
@[simp] theorem State.setPart_mgt (s : State) (n : PartIx) (p : Part) : (s.setPart n p).mgt = s.mgt := rfl
@[simp] theorem State.setPart_i3cTx (s : State) (n : PartIx) (p : Part) : (s.setPart n p).i3cTx = s.i3cTx := rfl
@[simp] theorem State.setPart_chart (s : State) (n : PartIx) (p : Part) : (s.setPart n p).chart = s.chart := rfl
@[simp] theorem State.setPart_links (s : State) (n : PartIx) (p : Part) : (s.setPart n p).links = s.links := rfl
@[simp] theorem State.setPart_bootIx (s : State) (n : PartIx) (p : Part) : (s.setPart n p).bootIx = s.bootIx := rfl
@[simp] theorem State.setPart_boot (s : State) (n : PartIx) (p : Part) : (s.setPart n p).boot = s.boot := rfl
@[simp] theorem State.setPart_onaut (s : State) (n : PartIx) (p : Part) : (s.setPart n p).onaut = s.onaut := rfl
@[simp] theorem State.setPart_flashA (s : State) (n : PartIx) (p : Part) : (s.setPart n p).flashA = s.flashA := rfl
@[simp] theorem State.setPart_flashB (s : State) (n : PartIx) (p : Part) : (s.setPart n p).flashB = s.flashB := rfl
@[simp] theorem State.setPart_fuses (s : State) (n : PartIx) (p : Part) : (s.setPart n p).fuses = s.fuses := rfl
@[simp] theorem State.setPart_trace0 (s : State) (n : PartIx) (p : Part) : (s.setPart n p).trace0 = s.trace0 := rfl
@[simp] theorem State.setPart_trace1 (s : State) (n : PartIx) (p : Part) : (s.setPart n p).trace1 = s.trace1 := rfl
@[simp] theorem State.setPart_tracer (s : State) (n : PartIx) (p : Part) : (s.setPart n p).tracer = s.tracer := rfl
@[simp] theorem State.setPart_cap (s : State) (n : PartIx) (p : Part) : (s.setPart n p).cap = s.cap := rfl

@[simp] theorem State.modPart_pending (s : State) (n : PartIx) (f : Part → Part) : (s.modPart n f).pending = s.pending := rfl
@[simp] theorem State.modPart_time (s : State) (n : PartIx) (f : Part → Part) : (s.modPart n f).time = s.time := rfl
@[simp] theorem State.modPart_slots (s : State) (n : PartIx) (f : Part → Part) : (s.modPart n f).slots = s.slots := rfl
@[simp] theorem State.modPart_free (s : State) (n : PartIx) (f : Part → Part) : (s.modPart n f).free = s.free := rfl
@[simp] theorem State.modPart_regs (s : State) (n : PartIx) (f : Part → Part) : (s.modPart n f).regs = s.regs := rfl
@[simp] theorem State.modPart_force (s : State) (n : PartIx) (f : Part → Part) : (s.modPart n f).force = s.force := rfl
@[simp] theorem State.modPart_shPend (s : State) (n : PartIx) (f : Part → Part) : (s.modPart n f).shPend = s.shPend := rfl
@[simp] theorem State.modPart_noted (s : State) (n : PartIx) (f : Part → Part) : (s.modPart n f).noted = s.noted := rfl
@[simp] theorem State.modPart_before (s : State) (n : PartIx) (f : Part → Part) : (s.modPart n f).before = s.before := rfl
@[simp] theorem State.modPart_acts (s : State) (n : PartIx) (f : Part → Part) : (s.modPart n f).acts = s.acts := rfl
@[simp] theorem State.modPart_fallen (s : State) (n : PartIx) (f : Part → Part) : (s.modPart n f).fallen = s.fallen := rfl
@[simp] theorem State.modPart_lkNow (s : State) (n : PartIx) (f : Part → Part) : (s.modPart n f).lkNow = s.lkNow := rfl
@[simp] theorem State.modPart_agents (s : State) (n : PartIx) (f : Part → Part) : (s.modPart n f).agents = s.agents := rfl
@[simp] theorem State.modPart_power (s : State) (n : PartIx) (f : Part → Part) : (s.modPart n f).power = s.power := rfl
@[simp] theorem State.modPart_eeprom (s : State) (n : PartIx) (f : Part → Part) : (s.modPart n f).eeprom = s.eeprom := rfl
@[simp] theorem State.modPart_mem (s : State) (n : PartIx) (f : Part → Part) : (s.modPart n f).mem = s.mem := rfl
@[simp] theorem State.modPart_synd (s : State) (n : PartIx) (f : Part → Part) : (s.modPart n f).synd = s.synd := rfl
@[simp] theorem State.modPart_lineErrs (s : State) (n : PartIx) (f : Part → Part) : (s.modPart n f).lineErrs = s.lineErrs := rfl
@[simp] theorem State.modPart_cores (s : State) (n : PartIx) (f : Part → Part) : (s.modPart n f).cores = s.cores := rfl
@[simp] theorem State.modPart_errs (s : State) (n : PartIx) (f : Part → Part) : (s.modPart n f).errs = s.errs := rfl
@[simp] theorem State.modPart_newErrs (s : State) (n : PartIx) (f : Part → Part) : (s.modPart n f).newErrs = s.newErrs := rfl
@[simp] theorem State.modPart_rates (s : State) (n : PartIx) (f : Part → Part) : (s.modPart n f).rates = s.rates := rfl
@[simp] theorem State.modPart_ferrule (s : State) (n : PartIx) (f : Part → Part) : (s.modPart n f).ferrule = s.ferrule := rfl
@[simp] theorem State.modPart_ferruleTx (s : State) (n : PartIx) (f : Part → Part) : (s.modPart n f).ferruleTx = s.ferruleTx := rfl
@[simp] theorem State.modPart_cancels (s : State) (n : PartIx) (f : Part → Part) : (s.modPart n f).cancels = s.cancels := rfl
@[simp] theorem State.modPart_profiles (s : State) (n : PartIx) (f : Part → Part) : (s.modPart n f).profiles = s.profiles := rfl
@[simp] theorem State.modPart_wts (s : State) (n : PartIx) (f : Part → Part) : (s.modPart n f).wts = s.wts := rfl
@[simp] theorem State.modPart_scrub (s : State) (n : PartIx) (f : Part → Part) : (s.modPart n f).scrub = s.scrub := rfl
@[simp] theorem State.modPart_mgt (s : State) (n : PartIx) (f : Part → Part) : (s.modPart n f).mgt = s.mgt := rfl
@[simp] theorem State.modPart_i3cTx (s : State) (n : PartIx) (f : Part → Part) : (s.modPart n f).i3cTx = s.i3cTx := rfl
@[simp] theorem State.modPart_chart (s : State) (n : PartIx) (f : Part → Part) : (s.modPart n f).chart = s.chart := rfl
@[simp] theorem State.modPart_links (s : State) (n : PartIx) (f : Part → Part) : (s.modPart n f).links = s.links := rfl
@[simp] theorem State.modPart_bootIx (s : State) (n : PartIx) (f : Part → Part) : (s.modPart n f).bootIx = s.bootIx := rfl
@[simp] theorem State.modPart_boot (s : State) (n : PartIx) (f : Part → Part) : (s.modPart n f).boot = s.boot := rfl
@[simp] theorem State.modPart_onaut (s : State) (n : PartIx) (f : Part → Part) : (s.modPart n f).onaut = s.onaut := rfl
@[simp] theorem State.modPart_flashA (s : State) (n : PartIx) (f : Part → Part) : (s.modPart n f).flashA = s.flashA := rfl
@[simp] theorem State.modPart_flashB (s : State) (n : PartIx) (f : Part → Part) : (s.modPart n f).flashB = s.flashB := rfl
@[simp] theorem State.modPart_fuses (s : State) (n : PartIx) (f : Part → Part) : (s.modPart n f).fuses = s.fuses := rfl
@[simp] theorem State.modPart_trace0 (s : State) (n : PartIx) (f : Part → Part) : (s.modPart n f).trace0 = s.trace0 := rfl
@[simp] theorem State.modPart_trace1 (s : State) (n : PartIx) (f : Part → Part) : (s.modPart n f).trace1 = s.trace1 := rfl
@[simp] theorem State.modPart_tracer (s : State) (n : PartIx) (f : Part → Part) : (s.modPart n f).tracer = s.tracer := rfl
@[simp] theorem State.modPart_cap (s : State) (n : PartIx) (f : Part → Part) : (s.modPart n f).cap = s.cap := rfl

@[simp] theorem State.setCore_pending (s : State) (c : CoreIx) (k : Core) : (s.setCore c k).pending = s.pending := rfl
@[simp] theorem State.setCore_time (s : State) (c : CoreIx) (k : Core) : (s.setCore c k).time = s.time := rfl
@[simp] theorem State.setCore_slots (s : State) (c : CoreIx) (k : Core) : (s.setCore c k).slots = s.slots := rfl
@[simp] theorem State.setCore_free (s : State) (c : CoreIx) (k : Core) : (s.setCore c k).free = s.free := rfl
@[simp] theorem State.setCore_regs (s : State) (c : CoreIx) (k : Core) : (s.setCore c k).regs = s.regs := rfl
@[simp] theorem State.setCore_force (s : State) (c : CoreIx) (k : Core) : (s.setCore c k).force = s.force := rfl
@[simp] theorem State.setCore_shPend (s : State) (c : CoreIx) (k : Core) : (s.setCore c k).shPend = s.shPend := rfl
@[simp] theorem State.setCore_noted (s : State) (c : CoreIx) (k : Core) : (s.setCore c k).noted = s.noted := rfl
@[simp] theorem State.setCore_before (s : State) (c : CoreIx) (k : Core) : (s.setCore c k).before = s.before := rfl
@[simp] theorem State.setCore_acts (s : State) (c : CoreIx) (k : Core) : (s.setCore c k).acts = s.acts := rfl
@[simp] theorem State.setCore_fallen (s : State) (c : CoreIx) (k : Core) : (s.setCore c k).fallen = s.fallen := rfl
@[simp] theorem State.setCore_lkNow (s : State) (c : CoreIx) (k : Core) : (s.setCore c k).lkNow = s.lkNow := rfl
@[simp] theorem State.setCore_agents (s : State) (c : CoreIx) (k : Core) : (s.setCore c k).agents = s.agents := rfl
@[simp] theorem State.setCore_power (s : State) (c : CoreIx) (k : Core) : (s.setCore c k).power = s.power := rfl
@[simp] theorem State.setCore_eeprom (s : State) (c : CoreIx) (k : Core) : (s.setCore c k).eeprom = s.eeprom := rfl
@[simp] theorem State.setCore_mem (s : State) (c : CoreIx) (k : Core) : (s.setCore c k).mem = s.mem := rfl
@[simp] theorem State.setCore_synd (s : State) (c : CoreIx) (k : Core) : (s.setCore c k).synd = s.synd := rfl
@[simp] theorem State.setCore_lineErrs (s : State) (c : CoreIx) (k : Core) : (s.setCore c k).lineErrs = s.lineErrs := rfl
@[simp] theorem State.setCore_parts (s : State) (c : CoreIx) (k : Core) : (s.setCore c k).parts = s.parts := rfl
@[simp] theorem State.setCore_errs (s : State) (c : CoreIx) (k : Core) : (s.setCore c k).errs = s.errs := rfl
@[simp] theorem State.setCore_newErrs (s : State) (c : CoreIx) (k : Core) : (s.setCore c k).newErrs = s.newErrs := rfl
@[simp] theorem State.setCore_rates (s : State) (c : CoreIx) (k : Core) : (s.setCore c k).rates = s.rates := rfl
@[simp] theorem State.setCore_ferrule (s : State) (c : CoreIx) (k : Core) : (s.setCore c k).ferrule = s.ferrule := rfl
@[simp] theorem State.setCore_ferruleTx (s : State) (c : CoreIx) (k : Core) : (s.setCore c k).ferruleTx = s.ferruleTx := rfl
@[simp] theorem State.setCore_cancels (s : State) (c : CoreIx) (k : Core) : (s.setCore c k).cancels = s.cancels := rfl
@[simp] theorem State.setCore_profiles (s : State) (c : CoreIx) (k : Core) : (s.setCore c k).profiles = s.profiles := rfl
@[simp] theorem State.setCore_wts (s : State) (c : CoreIx) (k : Core) : (s.setCore c k).wts = s.wts := rfl
@[simp] theorem State.setCore_scrub (s : State) (c : CoreIx) (k : Core) : (s.setCore c k).scrub = s.scrub := rfl
@[simp] theorem State.setCore_mgt (s : State) (c : CoreIx) (k : Core) : (s.setCore c k).mgt = s.mgt := rfl
@[simp] theorem State.setCore_i3cTx (s : State) (c : CoreIx) (k : Core) : (s.setCore c k).i3cTx = s.i3cTx := rfl
@[simp] theorem State.setCore_chart (s : State) (c : CoreIx) (k : Core) : (s.setCore c k).chart = s.chart := rfl
@[simp] theorem State.setCore_links (s : State) (c : CoreIx) (k : Core) : (s.setCore c k).links = s.links := rfl
@[simp] theorem State.setCore_bootIx (s : State) (c : CoreIx) (k : Core) : (s.setCore c k).bootIx = s.bootIx := rfl
@[simp] theorem State.setCore_boot (s : State) (c : CoreIx) (k : Core) : (s.setCore c k).boot = s.boot := rfl
@[simp] theorem State.setCore_onaut (s : State) (c : CoreIx) (k : Core) : (s.setCore c k).onaut = s.onaut := rfl
@[simp] theorem State.setCore_flashA (s : State) (c : CoreIx) (k : Core) : (s.setCore c k).flashA = s.flashA := rfl
@[simp] theorem State.setCore_flashB (s : State) (c : CoreIx) (k : Core) : (s.setCore c k).flashB = s.flashB := rfl
@[simp] theorem State.setCore_fuses (s : State) (c : CoreIx) (k : Core) : (s.setCore c k).fuses = s.fuses := rfl
@[simp] theorem State.setCore_trace0 (s : State) (c : CoreIx) (k : Core) : (s.setCore c k).trace0 = s.trace0 := rfl
@[simp] theorem State.setCore_trace1 (s : State) (c : CoreIx) (k : Core) : (s.setCore c k).trace1 = s.trace1 := rfl
@[simp] theorem State.setCore_tracer (s : State) (c : CoreIx) (k : Core) : (s.setCore c k).tracer = s.tracer := rfl
@[simp] theorem State.setCore_cap (s : State) (c : CoreIx) (k : Core) : (s.setCore c k).cap = s.cap := rfl

@[simp] theorem State.modCore_pending (s : State) (c : CoreIx) (f : Core → Core) : (s.modCore c f).pending = s.pending := rfl
@[simp] theorem State.modCore_time (s : State) (c : CoreIx) (f : Core → Core) : (s.modCore c f).time = s.time := rfl
@[simp] theorem State.modCore_slots (s : State) (c : CoreIx) (f : Core → Core) : (s.modCore c f).slots = s.slots := rfl
@[simp] theorem State.modCore_free (s : State) (c : CoreIx) (f : Core → Core) : (s.modCore c f).free = s.free := rfl
@[simp] theorem State.modCore_regs (s : State) (c : CoreIx) (f : Core → Core) : (s.modCore c f).regs = s.regs := rfl
@[simp] theorem State.modCore_force (s : State) (c : CoreIx) (f : Core → Core) : (s.modCore c f).force = s.force := rfl
@[simp] theorem State.modCore_shPend (s : State) (c : CoreIx) (f : Core → Core) : (s.modCore c f).shPend = s.shPend := rfl
@[simp] theorem State.modCore_noted (s : State) (c : CoreIx) (f : Core → Core) : (s.modCore c f).noted = s.noted := rfl
@[simp] theorem State.modCore_before (s : State) (c : CoreIx) (f : Core → Core) : (s.modCore c f).before = s.before := rfl
@[simp] theorem State.modCore_acts (s : State) (c : CoreIx) (f : Core → Core) : (s.modCore c f).acts = s.acts := rfl
@[simp] theorem State.modCore_fallen (s : State) (c : CoreIx) (f : Core → Core) : (s.modCore c f).fallen = s.fallen := rfl
@[simp] theorem State.modCore_lkNow (s : State) (c : CoreIx) (f : Core → Core) : (s.modCore c f).lkNow = s.lkNow := rfl
@[simp] theorem State.modCore_agents (s : State) (c : CoreIx) (f : Core → Core) : (s.modCore c f).agents = s.agents := rfl
@[simp] theorem State.modCore_power (s : State) (c : CoreIx) (f : Core → Core) : (s.modCore c f).power = s.power := rfl
@[simp] theorem State.modCore_eeprom (s : State) (c : CoreIx) (f : Core → Core) : (s.modCore c f).eeprom = s.eeprom := rfl
@[simp] theorem State.modCore_mem (s : State) (c : CoreIx) (f : Core → Core) : (s.modCore c f).mem = s.mem := rfl
@[simp] theorem State.modCore_synd (s : State) (c : CoreIx) (f : Core → Core) : (s.modCore c f).synd = s.synd := rfl
@[simp] theorem State.modCore_lineErrs (s : State) (c : CoreIx) (f : Core → Core) : (s.modCore c f).lineErrs = s.lineErrs := rfl
@[simp] theorem State.modCore_parts (s : State) (c : CoreIx) (f : Core → Core) : (s.modCore c f).parts = s.parts := rfl
@[simp] theorem State.modCore_errs (s : State) (c : CoreIx) (f : Core → Core) : (s.modCore c f).errs = s.errs := rfl
@[simp] theorem State.modCore_newErrs (s : State) (c : CoreIx) (f : Core → Core) : (s.modCore c f).newErrs = s.newErrs := rfl
@[simp] theorem State.modCore_rates (s : State) (c : CoreIx) (f : Core → Core) : (s.modCore c f).rates = s.rates := rfl
@[simp] theorem State.modCore_ferrule (s : State) (c : CoreIx) (f : Core → Core) : (s.modCore c f).ferrule = s.ferrule := rfl
@[simp] theorem State.modCore_ferruleTx (s : State) (c : CoreIx) (f : Core → Core) : (s.modCore c f).ferruleTx = s.ferruleTx := rfl
@[simp] theorem State.modCore_cancels (s : State) (c : CoreIx) (f : Core → Core) : (s.modCore c f).cancels = s.cancels := rfl
@[simp] theorem State.modCore_profiles (s : State) (c : CoreIx) (f : Core → Core) : (s.modCore c f).profiles = s.profiles := rfl
@[simp] theorem State.modCore_wts (s : State) (c : CoreIx) (f : Core → Core) : (s.modCore c f).wts = s.wts := rfl
@[simp] theorem State.modCore_scrub (s : State) (c : CoreIx) (f : Core → Core) : (s.modCore c f).scrub = s.scrub := rfl
@[simp] theorem State.modCore_mgt (s : State) (c : CoreIx) (f : Core → Core) : (s.modCore c f).mgt = s.mgt := rfl
@[simp] theorem State.modCore_i3cTx (s : State) (c : CoreIx) (f : Core → Core) : (s.modCore c f).i3cTx = s.i3cTx := rfl
@[simp] theorem State.modCore_chart (s : State) (c : CoreIx) (f : Core → Core) : (s.modCore c f).chart = s.chart := rfl
@[simp] theorem State.modCore_links (s : State) (c : CoreIx) (f : Core → Core) : (s.modCore c f).links = s.links := rfl
@[simp] theorem State.modCore_bootIx (s : State) (c : CoreIx) (f : Core → Core) : (s.modCore c f).bootIx = s.bootIx := rfl
@[simp] theorem State.modCore_boot (s : State) (c : CoreIx) (f : Core → Core) : (s.modCore c f).boot = s.boot := rfl
@[simp] theorem State.modCore_onaut (s : State) (c : CoreIx) (f : Core → Core) : (s.modCore c f).onaut = s.onaut := rfl
@[simp] theorem State.modCore_flashA (s : State) (c : CoreIx) (f : Core → Core) : (s.modCore c f).flashA = s.flashA := rfl
@[simp] theorem State.modCore_flashB (s : State) (c : CoreIx) (f : Core → Core) : (s.modCore c f).flashB = s.flashB := rfl
@[simp] theorem State.modCore_fuses (s : State) (c : CoreIx) (f : Core → Core) : (s.modCore c f).fuses = s.fuses := rfl
@[simp] theorem State.modCore_trace0 (s : State) (c : CoreIx) (f : Core → Core) : (s.modCore c f).trace0 = s.trace0 := rfl
@[simp] theorem State.modCore_trace1 (s : State) (c : CoreIx) (f : Core → Core) : (s.modCore c f).trace1 = s.trace1 := rfl
@[simp] theorem State.modCore_tracer (s : State) (c : CoreIx) (f : Core → Core) : (s.modCore c f).tracer = s.tracer := rfl
@[simp] theorem State.modCore_cap (s : State) (c : CoreIx) (f : Core → Core) : (s.modCore c f).cap = s.cap := rfl

@[simp] theorem State.wrBytes_pending (s : State) (a : Nat) (bs : List Byte) : (s.wrBytes a bs).pending = s.pending := rfl
@[simp] theorem State.wrBytes_time (s : State) (a : Nat) (bs : List Byte) : (s.wrBytes a bs).time = s.time := rfl
@[simp] theorem State.wrBytes_slots (s : State) (a : Nat) (bs : List Byte) : (s.wrBytes a bs).slots = s.slots := rfl
@[simp] theorem State.wrBytes_free (s : State) (a : Nat) (bs : List Byte) : (s.wrBytes a bs).free = s.free := rfl
@[simp] theorem State.wrBytes_regs (s : State) (a : Nat) (bs : List Byte) : (s.wrBytes a bs).regs = s.regs := rfl
@[simp] theorem State.wrBytes_force (s : State) (a : Nat) (bs : List Byte) : (s.wrBytes a bs).force = s.force := rfl
@[simp] theorem State.wrBytes_shPend (s : State) (a : Nat) (bs : List Byte) : (s.wrBytes a bs).shPend = s.shPend := rfl
@[simp] theorem State.wrBytes_noted (s : State) (a : Nat) (bs : List Byte) : (s.wrBytes a bs).noted = s.noted := rfl
@[simp] theorem State.wrBytes_before (s : State) (a : Nat) (bs : List Byte) : (s.wrBytes a bs).before = s.before := rfl
@[simp] theorem State.wrBytes_acts (s : State) (a : Nat) (bs : List Byte) : (s.wrBytes a bs).acts = s.acts := rfl
@[simp] theorem State.wrBytes_fallen (s : State) (a : Nat) (bs : List Byte) : (s.wrBytes a bs).fallen = s.fallen := rfl
@[simp] theorem State.wrBytes_lkNow (s : State) (a : Nat) (bs : List Byte) : (s.wrBytes a bs).lkNow = s.lkNow := rfl
@[simp] theorem State.wrBytes_agents (s : State) (a : Nat) (bs : List Byte) : (s.wrBytes a bs).agents = s.agents := rfl
@[simp] theorem State.wrBytes_power (s : State) (a : Nat) (bs : List Byte) : (s.wrBytes a bs).power = s.power := rfl
@[simp] theorem State.wrBytes_eeprom (s : State) (a : Nat) (bs : List Byte) : (s.wrBytes a bs).eeprom = s.eeprom := rfl
@[simp] theorem State.wrBytes_lineErrs (s : State) (a : Nat) (bs : List Byte) : (s.wrBytes a bs).lineErrs = s.lineErrs := rfl
@[simp] theorem State.wrBytes_parts (s : State) (a : Nat) (bs : List Byte) : (s.wrBytes a bs).parts = s.parts := rfl
@[simp] theorem State.wrBytes_cores (s : State) (a : Nat) (bs : List Byte) : (s.wrBytes a bs).cores = s.cores := rfl
@[simp] theorem State.wrBytes_errs (s : State) (a : Nat) (bs : List Byte) : (s.wrBytes a bs).errs = s.errs := rfl
@[simp] theorem State.wrBytes_newErrs (s : State) (a : Nat) (bs : List Byte) : (s.wrBytes a bs).newErrs = s.newErrs := rfl
@[simp] theorem State.wrBytes_rates (s : State) (a : Nat) (bs : List Byte) : (s.wrBytes a bs).rates = s.rates := rfl
@[simp] theorem State.wrBytes_ferrule (s : State) (a : Nat) (bs : List Byte) : (s.wrBytes a bs).ferrule = s.ferrule := rfl
@[simp] theorem State.wrBytes_ferruleTx (s : State) (a : Nat) (bs : List Byte) : (s.wrBytes a bs).ferruleTx = s.ferruleTx := rfl
@[simp] theorem State.wrBytes_cancels (s : State) (a : Nat) (bs : List Byte) : (s.wrBytes a bs).cancels = s.cancels := rfl
@[simp] theorem State.wrBytes_profiles (s : State) (a : Nat) (bs : List Byte) : (s.wrBytes a bs).profiles = s.profiles := rfl
@[simp] theorem State.wrBytes_wts (s : State) (a : Nat) (bs : List Byte) : (s.wrBytes a bs).wts = s.wts := rfl
@[simp] theorem State.wrBytes_scrub (s : State) (a : Nat) (bs : List Byte) : (s.wrBytes a bs).scrub = s.scrub := rfl
@[simp] theorem State.wrBytes_mgt (s : State) (a : Nat) (bs : List Byte) : (s.wrBytes a bs).mgt = s.mgt := rfl
@[simp] theorem State.wrBytes_i3cTx (s : State) (a : Nat) (bs : List Byte) : (s.wrBytes a bs).i3cTx = s.i3cTx := rfl
@[simp] theorem State.wrBytes_chart (s : State) (a : Nat) (bs : List Byte) : (s.wrBytes a bs).chart = s.chart := rfl
@[simp] theorem State.wrBytes_links (s : State) (a : Nat) (bs : List Byte) : (s.wrBytes a bs).links = s.links := rfl
@[simp] theorem State.wrBytes_bootIx (s : State) (a : Nat) (bs : List Byte) : (s.wrBytes a bs).bootIx = s.bootIx := rfl
@[simp] theorem State.wrBytes_boot (s : State) (a : Nat) (bs : List Byte) : (s.wrBytes a bs).boot = s.boot := rfl
@[simp] theorem State.wrBytes_onaut (s : State) (a : Nat) (bs : List Byte) : (s.wrBytes a bs).onaut = s.onaut := rfl
@[simp] theorem State.wrBytes_flashA (s : State) (a : Nat) (bs : List Byte) : (s.wrBytes a bs).flashA = s.flashA := rfl
@[simp] theorem State.wrBytes_flashB (s : State) (a : Nat) (bs : List Byte) : (s.wrBytes a bs).flashB = s.flashB := rfl
@[simp] theorem State.wrBytes_fuses (s : State) (a : Nat) (bs : List Byte) : (s.wrBytes a bs).fuses = s.fuses := rfl
@[simp] theorem State.wrBytes_trace0 (s : State) (a : Nat) (bs : List Byte) : (s.wrBytes a bs).trace0 = s.trace0 := rfl
@[simp] theorem State.wrBytes_trace1 (s : State) (a : Nat) (bs : List Byte) : (s.wrBytes a bs).trace1 = s.trace1 := rfl
@[simp] theorem State.wrBytes_tracer (s : State) (a : Nat) (bs : List Byte) : (s.wrBytes a bs).tracer = s.tracer := rfl
@[simp] theorem State.wrBytes_cap (s : State) (a : Nat) (bs : List Byte) : (s.wrBytes a bs).cap = s.cap := rfl

@[simp] theorem State.poison_pending (s : State) (a : Nat) : (s.poison a).pending = s.pending := rfl
@[simp] theorem State.poison_time (s : State) (a : Nat) : (s.poison a).time = s.time := rfl
@[simp] theorem State.poison_slots (s : State) (a : Nat) : (s.poison a).slots = s.slots := rfl
@[simp] theorem State.poison_free (s : State) (a : Nat) : (s.poison a).free = s.free := rfl
@[simp] theorem State.poison_regs (s : State) (a : Nat) : (s.poison a).regs = s.regs := rfl
@[simp] theorem State.poison_force (s : State) (a : Nat) : (s.poison a).force = s.force := rfl
@[simp] theorem State.poison_shPend (s : State) (a : Nat) : (s.poison a).shPend = s.shPend := rfl
@[simp] theorem State.poison_noted (s : State) (a : Nat) : (s.poison a).noted = s.noted := rfl
@[simp] theorem State.poison_before (s : State) (a : Nat) : (s.poison a).before = s.before := rfl
@[simp] theorem State.poison_acts (s : State) (a : Nat) : (s.poison a).acts = s.acts := rfl
@[simp] theorem State.poison_fallen (s : State) (a : Nat) : (s.poison a).fallen = s.fallen := rfl
@[simp] theorem State.poison_lkNow (s : State) (a : Nat) : (s.poison a).lkNow = s.lkNow := rfl
@[simp] theorem State.poison_agents (s : State) (a : Nat) : (s.poison a).agents = s.agents := rfl
@[simp] theorem State.poison_power (s : State) (a : Nat) : (s.poison a).power = s.power := rfl
@[simp] theorem State.poison_eeprom (s : State) (a : Nat) : (s.poison a).eeprom = s.eeprom := rfl
@[simp] theorem State.poison_mem (s : State) (a : Nat) : (s.poison a).mem = s.mem := rfl
@[simp] theorem State.poison_lineErrs (s : State) (a : Nat) : (s.poison a).lineErrs = s.lineErrs := rfl
@[simp] theorem State.poison_parts (s : State) (a : Nat) : (s.poison a).parts = s.parts := rfl
@[simp] theorem State.poison_cores (s : State) (a : Nat) : (s.poison a).cores = s.cores := rfl
@[simp] theorem State.poison_errs (s : State) (a : Nat) : (s.poison a).errs = s.errs := rfl
@[simp] theorem State.poison_newErrs (s : State) (a : Nat) : (s.poison a).newErrs = s.newErrs := rfl
@[simp] theorem State.poison_rates (s : State) (a : Nat) : (s.poison a).rates = s.rates := rfl
@[simp] theorem State.poison_ferrule (s : State) (a : Nat) : (s.poison a).ferrule = s.ferrule := rfl
@[simp] theorem State.poison_ferruleTx (s : State) (a : Nat) : (s.poison a).ferruleTx = s.ferruleTx := rfl
@[simp] theorem State.poison_cancels (s : State) (a : Nat) : (s.poison a).cancels = s.cancels := rfl
@[simp] theorem State.poison_profiles (s : State) (a : Nat) : (s.poison a).profiles = s.profiles := rfl
@[simp] theorem State.poison_wts (s : State) (a : Nat) : (s.poison a).wts = s.wts := rfl
@[simp] theorem State.poison_scrub (s : State) (a : Nat) : (s.poison a).scrub = s.scrub := rfl
@[simp] theorem State.poison_mgt (s : State) (a : Nat) : (s.poison a).mgt = s.mgt := rfl
@[simp] theorem State.poison_i3cTx (s : State) (a : Nat) : (s.poison a).i3cTx = s.i3cTx := rfl
@[simp] theorem State.poison_chart (s : State) (a : Nat) : (s.poison a).chart = s.chart := rfl
@[simp] theorem State.poison_links (s : State) (a : Nat) : (s.poison a).links = s.links := rfl
@[simp] theorem State.poison_bootIx (s : State) (a : Nat) : (s.poison a).bootIx = s.bootIx := rfl
@[simp] theorem State.poison_boot (s : State) (a : Nat) : (s.poison a).boot = s.boot := rfl
@[simp] theorem State.poison_onaut (s : State) (a : Nat) : (s.poison a).onaut = s.onaut := rfl
@[simp] theorem State.poison_flashA (s : State) (a : Nat) : (s.poison a).flashA = s.flashA := rfl
@[simp] theorem State.poison_flashB (s : State) (a : Nat) : (s.poison a).flashB = s.flashB := rfl
@[simp] theorem State.poison_fuses (s : State) (a : Nat) : (s.poison a).fuses = s.fuses := rfl
@[simp] theorem State.poison_trace0 (s : State) (a : Nat) : (s.poison a).trace0 = s.trace0 := rfl
@[simp] theorem State.poison_trace1 (s : State) (a : Nat) : (s.poison a).trace1 = s.trace1 := rfl
@[simp] theorem State.poison_tracer (s : State) (a : Nat) : (s.poison a).tracer = s.tracer := rfl
@[simp] theorem State.poison_cap (s : State) (a : Nat) : (s.poison a).cap = s.cap := rfl

@[simp] theorem State.scrubZero_pending (s : State) (lo hi : Nat) : (s.scrubZero lo hi).pending = s.pending := rfl
@[simp] theorem State.scrubZero_time (s : State) (lo hi : Nat) : (s.scrubZero lo hi).time = s.time := rfl
@[simp] theorem State.scrubZero_slots (s : State) (lo hi : Nat) : (s.scrubZero lo hi).slots = s.slots := rfl
@[simp] theorem State.scrubZero_free (s : State) (lo hi : Nat) : (s.scrubZero lo hi).free = s.free := rfl
@[simp] theorem State.scrubZero_regs (s : State) (lo hi : Nat) : (s.scrubZero lo hi).regs = s.regs := rfl
@[simp] theorem State.scrubZero_force (s : State) (lo hi : Nat) : (s.scrubZero lo hi).force = s.force := rfl
@[simp] theorem State.scrubZero_shPend (s : State) (lo hi : Nat) : (s.scrubZero lo hi).shPend = s.shPend := rfl
@[simp] theorem State.scrubZero_noted (s : State) (lo hi : Nat) : (s.scrubZero lo hi).noted = s.noted := rfl
@[simp] theorem State.scrubZero_before (s : State) (lo hi : Nat) : (s.scrubZero lo hi).before = s.before := rfl
@[simp] theorem State.scrubZero_acts (s : State) (lo hi : Nat) : (s.scrubZero lo hi).acts = s.acts := rfl
@[simp] theorem State.scrubZero_fallen (s : State) (lo hi : Nat) : (s.scrubZero lo hi).fallen = s.fallen := rfl
@[simp] theorem State.scrubZero_lkNow (s : State) (lo hi : Nat) : (s.scrubZero lo hi).lkNow = s.lkNow := rfl
@[simp] theorem State.scrubZero_agents (s : State) (lo hi : Nat) : (s.scrubZero lo hi).agents = s.agents := rfl
@[simp] theorem State.scrubZero_power (s : State) (lo hi : Nat) : (s.scrubZero lo hi).power = s.power := rfl
@[simp] theorem State.scrubZero_eeprom (s : State) (lo hi : Nat) : (s.scrubZero lo hi).eeprom = s.eeprom := rfl
@[simp] theorem State.scrubZero_lineErrs (s : State) (lo hi : Nat) : (s.scrubZero lo hi).lineErrs = s.lineErrs := rfl
@[simp] theorem State.scrubZero_parts (s : State) (lo hi : Nat) : (s.scrubZero lo hi).parts = s.parts := rfl
@[simp] theorem State.scrubZero_cores (s : State) (lo hi : Nat) : (s.scrubZero lo hi).cores = s.cores := rfl
@[simp] theorem State.scrubZero_errs (s : State) (lo hi : Nat) : (s.scrubZero lo hi).errs = s.errs := rfl
@[simp] theorem State.scrubZero_newErrs (s : State) (lo hi : Nat) : (s.scrubZero lo hi).newErrs = s.newErrs := rfl
@[simp] theorem State.scrubZero_rates (s : State) (lo hi : Nat) : (s.scrubZero lo hi).rates = s.rates := rfl
@[simp] theorem State.scrubZero_ferrule (s : State) (lo hi : Nat) : (s.scrubZero lo hi).ferrule = s.ferrule := rfl
@[simp] theorem State.scrubZero_ferruleTx (s : State) (lo hi : Nat) : (s.scrubZero lo hi).ferruleTx = s.ferruleTx := rfl
@[simp] theorem State.scrubZero_cancels (s : State) (lo hi : Nat) : (s.scrubZero lo hi).cancels = s.cancels := rfl
@[simp] theorem State.scrubZero_profiles (s : State) (lo hi : Nat) : (s.scrubZero lo hi).profiles = s.profiles := rfl
@[simp] theorem State.scrubZero_wts (s : State) (lo hi : Nat) : (s.scrubZero lo hi).wts = s.wts := rfl
@[simp] theorem State.scrubZero_scrub (s : State) (lo hi : Nat) : (s.scrubZero lo hi).scrub = s.scrub := rfl
@[simp] theorem State.scrubZero_mgt (s : State) (lo hi : Nat) : (s.scrubZero lo hi).mgt = s.mgt := rfl
@[simp] theorem State.scrubZero_i3cTx (s : State) (lo hi : Nat) : (s.scrubZero lo hi).i3cTx = s.i3cTx := rfl
@[simp] theorem State.scrubZero_chart (s : State) (lo hi : Nat) : (s.scrubZero lo hi).chart = s.chart := rfl
@[simp] theorem State.scrubZero_links (s : State) (lo hi : Nat) : (s.scrubZero lo hi).links = s.links := rfl
@[simp] theorem State.scrubZero_bootIx (s : State) (lo hi : Nat) : (s.scrubZero lo hi).bootIx = s.bootIx := rfl
@[simp] theorem State.scrubZero_boot (s : State) (lo hi : Nat) : (s.scrubZero lo hi).boot = s.boot := rfl
@[simp] theorem State.scrubZero_onaut (s : State) (lo hi : Nat) : (s.scrubZero lo hi).onaut = s.onaut := rfl
@[simp] theorem State.scrubZero_flashA (s : State) (lo hi : Nat) : (s.scrubZero lo hi).flashA = s.flashA := rfl
@[simp] theorem State.scrubZero_flashB (s : State) (lo hi : Nat) : (s.scrubZero lo hi).flashB = s.flashB := rfl
@[simp] theorem State.scrubZero_fuses (s : State) (lo hi : Nat) : (s.scrubZero lo hi).fuses = s.fuses := rfl
@[simp] theorem State.scrubZero_trace0 (s : State) (lo hi : Nat) : (s.scrubZero lo hi).trace0 = s.trace0 := rfl
@[simp] theorem State.scrubZero_trace1 (s : State) (lo hi : Nat) : (s.scrubZero lo hi).trace1 = s.trace1 := rfl
@[simp] theorem State.scrubZero_tracer (s : State) (lo hi : Nat) : (s.scrubZero lo hi).tracer = s.tracer := rfl
@[simp] theorem State.scrubZero_cap (s : State) (lo hi : Nat) : (s.scrubZero lo hi).cap = s.cap := rfl

@[simp] theorem State.modPower_pending (s : State) (f : PowerSt → PowerSt) : (s.modPower f).pending = s.pending := rfl
@[simp] theorem State.modPower_time (s : State) (f : PowerSt → PowerSt) : (s.modPower f).time = s.time := rfl
@[simp] theorem State.modPower_slots (s : State) (f : PowerSt → PowerSt) : (s.modPower f).slots = s.slots := rfl
@[simp] theorem State.modPower_free (s : State) (f : PowerSt → PowerSt) : (s.modPower f).free = s.free := rfl
@[simp] theorem State.modPower_regs (s : State) (f : PowerSt → PowerSt) : (s.modPower f).regs = s.regs := rfl
@[simp] theorem State.modPower_force (s : State) (f : PowerSt → PowerSt) : (s.modPower f).force = s.force := rfl
@[simp] theorem State.modPower_shPend (s : State) (f : PowerSt → PowerSt) : (s.modPower f).shPend = s.shPend := rfl
@[simp] theorem State.modPower_noted (s : State) (f : PowerSt → PowerSt) : (s.modPower f).noted = s.noted := rfl
@[simp] theorem State.modPower_before (s : State) (f : PowerSt → PowerSt) : (s.modPower f).before = s.before := rfl
@[simp] theorem State.modPower_acts (s : State) (f : PowerSt → PowerSt) : (s.modPower f).acts = s.acts := rfl
@[simp] theorem State.modPower_fallen (s : State) (f : PowerSt → PowerSt) : (s.modPower f).fallen = s.fallen := rfl
@[simp] theorem State.modPower_lkNow (s : State) (f : PowerSt → PowerSt) : (s.modPower f).lkNow = s.lkNow := rfl
@[simp] theorem State.modPower_agents (s : State) (f : PowerSt → PowerSt) : (s.modPower f).agents = s.agents := rfl
@[simp] theorem State.modPower_eeprom (s : State) (f : PowerSt → PowerSt) : (s.modPower f).eeprom = s.eeprom := rfl
@[simp] theorem State.modPower_mem (s : State) (f : PowerSt → PowerSt) : (s.modPower f).mem = s.mem := rfl
@[simp] theorem State.modPower_synd (s : State) (f : PowerSt → PowerSt) : (s.modPower f).synd = s.synd := rfl
@[simp] theorem State.modPower_lineErrs (s : State) (f : PowerSt → PowerSt) : (s.modPower f).lineErrs = s.lineErrs := rfl
@[simp] theorem State.modPower_parts (s : State) (f : PowerSt → PowerSt) : (s.modPower f).parts = s.parts := rfl
@[simp] theorem State.modPower_cores (s : State) (f : PowerSt → PowerSt) : (s.modPower f).cores = s.cores := rfl
@[simp] theorem State.modPower_errs (s : State) (f : PowerSt → PowerSt) : (s.modPower f).errs = s.errs := rfl
@[simp] theorem State.modPower_newErrs (s : State) (f : PowerSt → PowerSt) : (s.modPower f).newErrs = s.newErrs := rfl
@[simp] theorem State.modPower_rates (s : State) (f : PowerSt → PowerSt) : (s.modPower f).rates = s.rates := rfl
@[simp] theorem State.modPower_ferrule (s : State) (f : PowerSt → PowerSt) : (s.modPower f).ferrule = s.ferrule := rfl
@[simp] theorem State.modPower_ferruleTx (s : State) (f : PowerSt → PowerSt) : (s.modPower f).ferruleTx = s.ferruleTx := rfl
@[simp] theorem State.modPower_cancels (s : State) (f : PowerSt → PowerSt) : (s.modPower f).cancels = s.cancels := rfl
@[simp] theorem State.modPower_profiles (s : State) (f : PowerSt → PowerSt) : (s.modPower f).profiles = s.profiles := rfl
@[simp] theorem State.modPower_wts (s : State) (f : PowerSt → PowerSt) : (s.modPower f).wts = s.wts := rfl
@[simp] theorem State.modPower_scrub (s : State) (f : PowerSt → PowerSt) : (s.modPower f).scrub = s.scrub := rfl
@[simp] theorem State.modPower_mgt (s : State) (f : PowerSt → PowerSt) : (s.modPower f).mgt = s.mgt := rfl
@[simp] theorem State.modPower_i3cTx (s : State) (f : PowerSt → PowerSt) : (s.modPower f).i3cTx = s.i3cTx := rfl
@[simp] theorem State.modPower_chart (s : State) (f : PowerSt → PowerSt) : (s.modPower f).chart = s.chart := rfl
@[simp] theorem State.modPower_links (s : State) (f : PowerSt → PowerSt) : (s.modPower f).links = s.links := rfl
@[simp] theorem State.modPower_bootIx (s : State) (f : PowerSt → PowerSt) : (s.modPower f).bootIx = s.bootIx := rfl
@[simp] theorem State.modPower_boot (s : State) (f : PowerSt → PowerSt) : (s.modPower f).boot = s.boot := rfl
@[simp] theorem State.modPower_onaut (s : State) (f : PowerSt → PowerSt) : (s.modPower f).onaut = s.onaut := rfl
@[simp] theorem State.modPower_flashA (s : State) (f : PowerSt → PowerSt) : (s.modPower f).flashA = s.flashA := rfl
@[simp] theorem State.modPower_flashB (s : State) (f : PowerSt → PowerSt) : (s.modPower f).flashB = s.flashB := rfl
@[simp] theorem State.modPower_fuses (s : State) (f : PowerSt → PowerSt) : (s.modPower f).fuses = s.fuses := rfl
@[simp] theorem State.modPower_trace0 (s : State) (f : PowerSt → PowerSt) : (s.modPower f).trace0 = s.trace0 := rfl
@[simp] theorem State.modPower_trace1 (s : State) (f : PowerSt → PowerSt) : (s.modPower f).trace1 = s.trace1 := rfl
@[simp] theorem State.modPower_tracer (s : State) (f : PowerSt → PowerSt) : (s.modPower f).tracer = s.tracer := rfl
@[simp] theorem State.modPower_cap (s : State) (f : PowerSt → PowerSt) : (s.modPower f).cap = s.cap := rfl

@[simp] theorem State.modWts_pending (s : State) (f : WtsSt → WtsSt) : (s.modWts f).pending = s.pending := rfl
@[simp] theorem State.modWts_time (s : State) (f : WtsSt → WtsSt) : (s.modWts f).time = s.time := rfl
@[simp] theorem State.modWts_slots (s : State) (f : WtsSt → WtsSt) : (s.modWts f).slots = s.slots := rfl
@[simp] theorem State.modWts_free (s : State) (f : WtsSt → WtsSt) : (s.modWts f).free = s.free := rfl
@[simp] theorem State.modWts_regs (s : State) (f : WtsSt → WtsSt) : (s.modWts f).regs = s.regs := rfl
@[simp] theorem State.modWts_force (s : State) (f : WtsSt → WtsSt) : (s.modWts f).force = s.force := rfl
@[simp] theorem State.modWts_shPend (s : State) (f : WtsSt → WtsSt) : (s.modWts f).shPend = s.shPend := rfl
@[simp] theorem State.modWts_noted (s : State) (f : WtsSt → WtsSt) : (s.modWts f).noted = s.noted := rfl
@[simp] theorem State.modWts_before (s : State) (f : WtsSt → WtsSt) : (s.modWts f).before = s.before := rfl
@[simp] theorem State.modWts_acts (s : State) (f : WtsSt → WtsSt) : (s.modWts f).acts = s.acts := rfl
@[simp] theorem State.modWts_fallen (s : State) (f : WtsSt → WtsSt) : (s.modWts f).fallen = s.fallen := rfl
@[simp] theorem State.modWts_lkNow (s : State) (f : WtsSt → WtsSt) : (s.modWts f).lkNow = s.lkNow := rfl
@[simp] theorem State.modWts_agents (s : State) (f : WtsSt → WtsSt) : (s.modWts f).agents = s.agents := rfl
@[simp] theorem State.modWts_power (s : State) (f : WtsSt → WtsSt) : (s.modWts f).power = s.power := rfl
@[simp] theorem State.modWts_eeprom (s : State) (f : WtsSt → WtsSt) : (s.modWts f).eeprom = s.eeprom := rfl
@[simp] theorem State.modWts_mem (s : State) (f : WtsSt → WtsSt) : (s.modWts f).mem = s.mem := rfl
@[simp] theorem State.modWts_synd (s : State) (f : WtsSt → WtsSt) : (s.modWts f).synd = s.synd := rfl
@[simp] theorem State.modWts_lineErrs (s : State) (f : WtsSt → WtsSt) : (s.modWts f).lineErrs = s.lineErrs := rfl
@[simp] theorem State.modWts_parts (s : State) (f : WtsSt → WtsSt) : (s.modWts f).parts = s.parts := rfl
@[simp] theorem State.modWts_cores (s : State) (f : WtsSt → WtsSt) : (s.modWts f).cores = s.cores := rfl
@[simp] theorem State.modWts_errs (s : State) (f : WtsSt → WtsSt) : (s.modWts f).errs = s.errs := rfl
@[simp] theorem State.modWts_newErrs (s : State) (f : WtsSt → WtsSt) : (s.modWts f).newErrs = s.newErrs := rfl
@[simp] theorem State.modWts_rates (s : State) (f : WtsSt → WtsSt) : (s.modWts f).rates = s.rates := rfl
@[simp] theorem State.modWts_ferrule (s : State) (f : WtsSt → WtsSt) : (s.modWts f).ferrule = s.ferrule := rfl
@[simp] theorem State.modWts_ferruleTx (s : State) (f : WtsSt → WtsSt) : (s.modWts f).ferruleTx = s.ferruleTx := rfl
@[simp] theorem State.modWts_cancels (s : State) (f : WtsSt → WtsSt) : (s.modWts f).cancels = s.cancels := rfl
@[simp] theorem State.modWts_profiles (s : State) (f : WtsSt → WtsSt) : (s.modWts f).profiles = s.profiles := rfl
@[simp] theorem State.modWts_scrub (s : State) (f : WtsSt → WtsSt) : (s.modWts f).scrub = s.scrub := rfl
@[simp] theorem State.modWts_mgt (s : State) (f : WtsSt → WtsSt) : (s.modWts f).mgt = s.mgt := rfl
@[simp] theorem State.modWts_i3cTx (s : State) (f : WtsSt → WtsSt) : (s.modWts f).i3cTx = s.i3cTx := rfl
@[simp] theorem State.modWts_chart (s : State) (f : WtsSt → WtsSt) : (s.modWts f).chart = s.chart := rfl
@[simp] theorem State.modWts_links (s : State) (f : WtsSt → WtsSt) : (s.modWts f).links = s.links := rfl
@[simp] theorem State.modWts_bootIx (s : State) (f : WtsSt → WtsSt) : (s.modWts f).bootIx = s.bootIx := rfl
@[simp] theorem State.modWts_boot (s : State) (f : WtsSt → WtsSt) : (s.modWts f).boot = s.boot := rfl
@[simp] theorem State.modWts_onaut (s : State) (f : WtsSt → WtsSt) : (s.modWts f).onaut = s.onaut := rfl
@[simp] theorem State.modWts_flashA (s : State) (f : WtsSt → WtsSt) : (s.modWts f).flashA = s.flashA := rfl
@[simp] theorem State.modWts_flashB (s : State) (f : WtsSt → WtsSt) : (s.modWts f).flashB = s.flashB := rfl
@[simp] theorem State.modWts_fuses (s : State) (f : WtsSt → WtsSt) : (s.modWts f).fuses = s.fuses := rfl
@[simp] theorem State.modWts_trace0 (s : State) (f : WtsSt → WtsSt) : (s.modWts f).trace0 = s.trace0 := rfl
@[simp] theorem State.modWts_trace1 (s : State) (f : WtsSt → WtsSt) : (s.modWts f).trace1 = s.trace1 := rfl
@[simp] theorem State.modWts_tracer (s : State) (f : WtsSt → WtsSt) : (s.modWts f).tracer = s.tracer := rfl
@[simp] theorem State.modWts_cap (s : State) (f : WtsSt → WtsSt) : (s.modWts f).cap = s.cap := rfl

/-! ### Register fields -/

/-- A field reads the value put into it, cut to its width. -/
theorem State.get_put_same (s : State) (f : Field) (v : Nat) : (s.put f v).get f = v % 2 ^ f.width :=
  Sparse.get_insert_same s.regs f.key (v % 2 ^ f.width) f.reset

/-- Putting a value into one field leaves every field with another key. -/
theorem State.get_put_other (s : State) (f g : Field) (v : Nat) (h : g.key ≠ f.key) : (s.put f v).get g = s.get g :=
  Sparse.get_insert_other s.regs f.key g.key (v % 2 ^ f.width) g.reset h

/-- The value in force of any field stays when a field is put (R6, R7). -/
@[simp] theorem State.inForce_put (s : State) (f g : Field) (v : Nat) : (s.put f v).inForce g = s.inForce g := rfl

/-- A field put and brought into force is in force. -/
theorem State.inForce_putForce_same (s : State) (f : Field) (v : Nat) : (s.putForce f v).inForce f = v % 2 ^ f.width :=
  Sparse.get_insert_same (s.put f v).force f.key (v % 2 ^ f.width) f.reset

@[simp] theorem State.get_setPart (s : State) (n : PartIx) (p : Part) (f : Field) : (s.setPart n p).get f = s.get f := rfl
@[simp] theorem State.get_modPart (s : State) (n : PartIx) (g : Part → Part) (f : Field) : (s.modPart n g).get f = s.get f := rfl
@[simp] theorem State.get_setCore (s : State) (c : CoreIx) (k : Core) (f : Field) : (s.setCore c k).get f = s.get f := rfl
@[simp] theorem State.get_modCore (s : State) (c : CoreIx) (g : Core → Core) (f : Field) : (s.modCore c g).get f = s.get f := rfl
@[simp] theorem State.get_wrBytes (s : State) (a : Nat) (bs : List Byte) (f : Field) : (s.wrBytes a bs).get f = s.get f := rfl
@[simp] theorem State.get_poison (s : State) (a : Nat) (f : Field) : (s.poison a).get f = s.get f := rfl

/-! ### Partitions and cores -/

theorem State.core_modCore_same (s : State) (c : CoreIx) (f : Core → Core) : (s.modCore c f).core c = f (s.core c) := by
  show (s.cores.set c.val (f (s.cores[c])) c.isLt)[c.val] = f (s.cores[c])
  exact Vector.getElem_set_self c.isLt

theorem State.core_modCore_other (s : State) (c d : CoreIx) (f : Core → Core) (h : d ≠ c) : (s.modCore c f).core d = s.core d := by
  show (s.cores.set c.val (f (s.cores[c])) c.isLt)[d.val] = s.cores[d.val]
  exact Vector.getElem_set_ne c.isLt d.isLt (fun e => h (Fin.ext e.symm))

theorem State.part_modPart_same (s : State) (n : PartIx) (f : Part → Part) : (s.modPart n f).part n = f (s.part n) := by
  show (s.parts.set n.val (f (s.parts[n])) n.isLt)[n.val] = f (s.parts[n])
  exact Vector.getElem_set_self n.isLt

theorem State.part_modPart_other (s : State) (n m : PartIx) (f : Part → Part) (h : m ≠ n) : (s.modPart n f).part m = s.part m := by
  show (s.parts.set n.val (f (s.parts[n])) n.isLt)[m.val] = s.parts[m.val]
  exact Vector.getElem_set_ne n.isLt m.isLt (fun e => h (Fin.ext e.symm))

@[simp] theorem State.core_put (s : State) (f : Field) (v : Nat) (c : CoreIx) : (s.put f v).core c = s.core c := rfl
@[simp] theorem State.part_put (s : State) (f : Field) (v : Nat) (n : PartIx) : (s.put f v).part n = s.part n := rfl
@[simp] theorem State.core_setPart (s : State) (n : PartIx) (p : Part) (c : CoreIx) : (s.setPart n p).core c = s.core c := rfl
@[simp] theorem State.core_modPart (s : State) (n : PartIx) (f : Part → Part) (c : CoreIx) : (s.modPart n f).core c = s.core c := rfl
@[simp] theorem State.part_setCore (s : State) (c : CoreIx) (k : Core) (n : PartIx) : (s.setCore c k).part n = s.part n := rfl
@[simp] theorem State.part_modCore (s : State) (c : CoreIx) (f : Core → Core) (n : PartIx) : (s.modCore c f).part n = s.part n := rfl

/-! ### Conditions that a register write leaves -/

@[simp] theorem State.live_put (s : State) (f : Field) (v : Nat) : (s.put f v).live = s.live := rfl
@[simp] theorem State.live_modCore (s : State) (c : CoreIx) (f : Core → Core) : (s.modCore c f).live = s.live := rfl
@[simp] theorem State.live_modPart (s : State) (n : PartIx) (f : Part → Part) : (s.modPart n f).live = s.live := rfl

/-! ### Outcomes -/

/-- A command whose condition holds has its effect. -/
theorem act_true (s t : State) : act s true t = .next t := rfl
/-- A command whose condition does not hold leaves the state (log entry 13). -/
theorem act_false (s t : State) : act s false t = .next s := rfl
/-- A command of the form act always answers a next state: its effect or the state as it was. -/
theorem act_cases (s t : State) (g : Bool) : act s g t = .next t ∨ act s g t = .next s := by
  cases g
  · exact .inr rfl
  · exact .inl rfl

end Sys2Proof.Machine
end

