-- ==== Sys2Proof/Tests/Slice0.lean ====
section
/-! SUPPORT. Tests/Slice0.lean: the well-formedness checks refuse an ill-formed term each; for every obligation with hypotheses, states
and operands that meet them, clause by clause; and small tests whose expected values are written out from the manual. -/

set_option maxRecDepth 20000

namespace Sys2Proof.Tests

open Sys2Proof.Machine

/-! ### Terms and states that the tests start from -/

/-- The module after reset. -/
def rst : State := State.reset

/-- A packet to module 0 with an opcode. -/
def pkt (op : BitVec 8) : Packet :=
  { dst := 0, src := 0, part := 0, cls := 0, opcode := op, status := 0, len64 := 0, poison := false, tag := 0, nonce := 0, addr := 0,
    epoch := 0, retry := 0, aux := 0, pmask := 0, payload := [], bad := false }

/-- A companion message with an opcode. -/
def msg (op : BitVec 6) : FMsg :=
  { cls := 0, opcode := op, linesM1 := 0, status := 0, mask := 0, tag := 0, addr := 0, lines := [], bad := false }

/-- A segment of context 0 at the head of its stream. -/
def seg0 : Seg := { ctx := 0, row := 0, hard := true, start := 0, head := 0, issueSlot := 0 }

/-- A port that has answered no request keeps no response. -/
theorem kept_none {s : State} (h : s.onaut.kept = none) (q : BitVec 16) : ∀ r, s.onaut.kept = some r → r.seq ≠ q.toNat := by
  intro r hr; rw [h] at hr; cases hr

/-- The module without power. -/
def off : State := { rst with power := { rst.power with phase := .off false, pwrEn := false } }

/-- After stage 0 of the boot. -/
def stage1 : State := rst.put BOOT.STATUS.STAGE 1

/-- Full scope at the debug port after the start. -/
def full : State := (((rst.put BOOT.STATUS.STAGE 5).put BOOT.STATUS.STARTED 1).put DBG.STATUS.UNLOCKED 1).put DBG.STATUS.SCOPE 2

/-- The Ferrule port up after the start, partition 0 out of reset. -/
def link : State := (full.put FRL.STATUS.STATE 2).setPart 0 { rst.part 0 with inReset := false }

/-- Partition 0 out of reset, its timer stopped. -/
def up0 : State := rst.setPart 0 { rst.part 0 with inReset := false }

/-- An operation in engine 1 of core 0 whose command is all zeros but for K, which is 256. -/
def op1 : MatOp :=
  { work := 3, cmd := splice (List.replicate 64 0) 0x28 [15], mx := [], ctx := 0, bBase := 0, bPitch := 0, bScale := 0, bScaleP := 0,
    cBase := 0, cPitch := 0, nv := 1, kv := 1, eIn := 0, eC := 0, chained := false, start := 0, far := 0, started := true }

/-- Partition 0 out of reset, a segment of context 0 on core 0 whose object pages 0 to 3 are frames 16 to 19 of T0, cached. -/
def run0 (g : Seg) : State :=
  up0.modCore 0 (fun k =>
    { k with seg := some g, tcache := [⟨0, 0, 0x500000, 0x100009⟩, ⟨0, 1, 0x500008, 0x110009⟩, ⟨0, 2, 0x500010, 0x120009⟩, ⟨0, 3, 0x500018, 0x130009⟩] })

/-- A command: its opcode, and bytes at offsets. -/
def cmd (op : Byte) (l : List (Nat × List Byte)) : List Byte := l.foldl (fun b p => splice b p.1 p.2) (op :: List.replicate 63 0)

/-- The segment of `run0` with a command fetched. -/
def has (b : List Byte) : Seg := { seg0 with fetched := some (0, b) }

/-- Partition 0 out of reset, with that operation running. -/
def mat (f : Eng → Eng) : State := (run0 seg0).modEng 0 1 (fun k => f { k with run := some op1 })

/-- Nothing listed is in error. -/
theorem no_errors {s : State} {a k : Nat} (h : s.synd = [] ∧ s.lineErrs = []) : noErrors s a k := by
  refine ⟨?_, by simp [State.errsIn, h.2]⟩
  intro p hp; rw [h.1] at hp; cases hp

/-- No core has a segment, no page is held back, and no line meets an error. -/
theorem no_ink {s : State} {a k : Nat} (h : (∀ c, s.seg c = none) ∧ (∀ n, (s.part n).deferred = []) ∧ s.lineErrs = []) : noWetInk s a k := by
  refine ⟨fun c => by simp [wroteWet, h.1 c], fun n d hd => ?_, by simp [State.errsIn, h.2.2]⟩
  rw [h.2.1 n] at hd; cases hd

/-- One range in local memory without poison. -/
theorem sound_one {s : State} {c : CoreIx} {k a l : Nat} (h : chartRanges s c k (pageCount a l) a l = [] ∧ objPoison s c k a l = false ∧ s.meetObj c k a l = s) :
    localSound s c k [(a, l)] := by
  intro r hr; simp only [List.mem_singleton] at hr; subst hr; exact h

/-- No range at all. -/
theorem no_ranges {s : State} {c : CoreIx} {k : Nat} {l : List (Nat × Nat)} (h : l = []) : localSound s c k l := by
  intro r hr; rw [h] at hr; cases hr

/-- A context with a stash control block at the start of its object page 1. -/
def stash (g : Seg) : State := (run0 g).wrLE 0x18 8 0x10000

/-- A command is fetched in a segment, and its core may issue it. -/
def stands (b : List Byte) (op : Nat) : Bool := decide (ready (run0 (has b)) 0 op = some (has b, b))

/-- BF16 operands of 16 by 16 at the start of object pages 0 and 1, a binary32 result at the start of page 2. -/
def mm16 : List Byte := cmd 0x10 [(0x12, [1]), (0x1A, [2]), (0x20, [1]), (0x22, [1]), (0x24, [1]), (0x2D, [0x90])]

/-- A copy of 64 bytes from the start of object page 0 to the start of page 1. -/
def copy64 : List Byte := cmd 0x20 [(0x12, [1]), (0x18, [64])]

/-- A row operation of one row of 16: SOFTMAX-free ADD of OP 9, X at page 1, Y at page 2, parameters at page 3. -/
def row16 : List Byte := cmd 0x12 [(0x0A, [1]), (0x12, [2]), (0x2A, [3]), (0x30, [1, 0, 9])]

/-- A range within one page whose entry is cached and may be used. -/
theorem page_cached {s : State} {c : CoreIx} {k a l : Nat} {w : Bool}
    (h : pageCount a l = 1 ∧ a / 65536 < 2 ^ 30 ∧ (cached s c k (a / 65536)).isSome = true
      ∧ ((findLeaf s c k (a / 65536)).bind (fun x => entryLoc s k x.2 w)).isSome = true) : touch s c k a l w = (s, none) := by
  obtain ⟨h1, h2, h3, h4⟩ := h
  have : touchPage s c k (a / 65536) w = some s := by
    unfold touchPage
    split
    · simp_all
    · split
      · simp_all
      · simp [h3]
  have h5 : ¬ 1073741824 ≤ a / 65536 := by omega
  have h6 : s.walked c k (a / 65536) = s := by simp [State.walked, h3]
  simp [touch, h1, touchPages, h5, h6, this]

/-- A list of one such range. -/
theorem one_cached {s : State} {c : CoreIx} {k a l : Nat} {w : Bool} (h : touch s c k a l w = (s, none)) :
    translated s c k [(a, l, w)] := by
  simp [translated, touchAll, h]

/-- A parcel of module 0, at home at the start of T0. -/
def homed : GazEntry := { name := 0, st := .home, origin := true, base := 0, stored := true }

/-- The Chart open after the start, partition 0 out of reset, that parcel at home. -/
def home : State :=
  let s := (full.put GAZ.CTRL.OPEN 1).setPart 0 { rst.part 0 with inReset := false }
  { s with chart := { s.chart with gaz := [homed] } }

/-- An acknowledged operation on 64 bytes at offset 0 of that parcel. -/
def pkt64 (op : BitVec 8) : Packet := { pkt op with len64 := 1, payload := List.replicate 64 0 }

/-- The open Chart with one gazetteer entry, an outgoing ticket, an incoming ticket; they belong to TICKET_ID 9. -/
def knows (e : GazEntry) : State := { home with chart := { home.chart with gaz := [e] } }
def tick1 : OutTicket := { slot := 2, name := 0, id := 9, initiator := 0, dst := 5, dstPart := 0, dstTier := 0, kind := 0, phase := .copying }
def gives (t : OutTicket) (e : GazEntry) : State := { home with chart := { home.chart with gaz := [e], outT := [t] } }
def gets (e : GazEntry) : State := { home with chart := { home.chart with gaz := [e], inT := [⟨3, 0, 9, 5, 0, 0⟩] } }
def dir9 (op : BitVec 8) : Packet := { pkt op with nonce := 9 }

/-! ### Ill-formed terms are refused -/

theorem test_refuses_packet_too_long : Instr.wellFormed (.chartRead { pkt 0 with len64 := 9, payload := List.replicate 576 0 }) = false := by
  decide
theorem test_refuses_packet_without_its_payload : Instr.wellFormed (.chartWrite { pkt 1 with len64 := 1 }) = false := by decide
theorem test_refuses_message_of_half_a_line : Instr.wellFormed (.mwr { msg 0x27 with lines := List.replicate 32 0 }) = false := by decide
theorem test_refuses_frame_of_one_codeword : Instr.wellFormed (.frameReceive 0 ⟨[List.replicate 9 []]⟩) = false := by decide
theorem test_refuses_codeword_on_ten_lanes : Instr.wellFormed (.frameReceive 0 ⟨List.replicate 2 (List.replicate 10 [])⟩) = false := by decide
theorem test_refuses_symbol_of_eleven_bits : Instr.wellFormed (.frameReceive 0 ⟨List.replicate 2 (List.replicate 9 [1024])⟩) = false := by
  decide
theorem test_refuses_unaligned_register : Instr.wellFormed (.registerWrite .onaut 2 false 0) = false := by decide
theorem test_refuses_half_aligned_wide_register : Instr.wellFormed (.registerWrite .onaut 4 true 0) = false := by decide
theorem test_refuses_wide_value_of_narrow_write : Instr.wellFormed (.registerWrite .onaut 0 false 0x100000000) = false := by decide
theorem test_refuses_unaligned_register_read : Instr.wellFormed (.rcFieldRead .mgmt 1 false) = false := by decide
theorem test_refuses_supply_beyond_its_width : Instr.wellFormed (.powerUpSequence 65536 0) = false := by decide
theorem test_refuses_supply_at_off_time_end : Instr.wellFormed (.minimumOffTimeExpiry 65536 0) = false := by decide
theorem test_refuses_supply_removed_from_beyond : Instr.wellFormed (.supplyRemoval 65536 0) = false := by decide
theorem test_refuses_sample_beyond_its_width : Instr.wellFormed (.powerSample 65536 #v[0, 0, 0, 0] 0 0 0 0) = false := by decide
theorem test_refuses_partition_sample_beyond : Instr.wellFormed (.powerSample 0 #v[0, 0, 65536, 0] 0 0 0 0) = false := by decide
theorem test_refuses_frame_of_tier_3 : Instr.wellFormed (.frameTake 0 3 0) = false ∧ Instr.wellFormed (.popSlot 0 3) = false := by decide
theorem test_refuses_spare_of_lane_9 : Instr.wellFormed (.spareReq 0 9) = false ∧ Instr.wellFormed (.spareDone 0 9) = false := by decide
theorem test_refuses_reset_level_0 : ∀ u v, Instr.wellFormed (.resetStepLate 0 u v) = false := by intro u v; rfl
theorem test_refuses_frame_failing_twice : Instr.wellFormed (.vellumTest [(5, 1), (5, 1)]) = false := by decide
theorem test_refuses_token_word_25 : Instr.wellFormed (.token 0 25 0) = false := by decide
theorem test_refuses_private_read_of_65 : Instr.wellFormed (.privateRead 65) = false := by decide
theorem test_refuses_bits_of_a_request_cut_short : Instr.wellFormed (.onautBadRequest 191 none 1 0) = false := by decide
theorem test_accepts_well_formed_terms : Instr.wellFormed (.chartWrite { pkt 1 with len64 := 1, payload := List.replicate 64 0 }) = true
    ∧ Instr.wellFormed (.registerWrite .onaut 8 true 0x100000000) = true ∧ Instr.wellFormed (.frameTake 0 2 0) = true
    ∧ Instr.wellFormed (.token 0 24 0) = true ∧ Instr.wellFormed (.onautBadRequest 192 none 1 7) = true ∧ Instr.wellFormed (.resetStepLate 1 0 0) = true := by decide

/-! ### Codewords for the tests: sparse ones, so that little is left to evaluate -/

/-- The syndrome of symbols for a power of α, from a value on. -/
def synOf (a : Nat) (r : List Nat) (s : Nat) : Nat := r.foldl (fun s c => Nat.xor (gfMul s a) c) s

theorem gfMul_zero (a : Nat) : gfMul 0 a = 0 := by
  have h : gfX 0 = 0 := rfl
  simp [gfMul, h]
theorem synOf_zeros (a n : Nat) : synOf a (List.replicate n 0) 0 = 0 := by
  induction n with
  | zero => rfl
  | succ n ih => rw [List.replicate_succ]; simp only [synOf, List.foldl_cons, gfMul_zero]; exact ih
theorem synOf_append (a s : Nat) (p q : List Nat) : synOf a (p ++ q) s = synOf a q (synOf a p s) := List.foldl_append

/-- Zeros in front change no syndrome. -/
theorem rsSyndromes_zeros (n : Nat) (q : List Nat) : rsSyndromes (List.replicate n 0 ++ q) = rsSyndromes q := by
  refine List.map_congr_left (fun j _ => ?_)
  show synOf (gfExp j) (List.replicate n 0 ++ q) 0 = synOf (gfExp j) q 0
  rw [synOf_append, synOf_zeros]

/-- Two pieces whose syndromes are zero, with zeros between them, make a codeword. -/
theorem rsDecode_pieces {p q : List Nat} (n : Nat) (hp : ∀ j ∈ List.range 30, synOf (gfExp j) p 0 = 0)
    (hq : ∀ j ∈ List.range 30, synOf (gfExp j) q 0 = 0) :
    rsDecode (p ++ List.replicate n 0 ++ q) = some (p ++ List.replicate n 0 ++ q) := by
  have h : (rsSyndromes (p ++ List.replicate n 0 ++ q)).all (· == 0) = true := by
    rw [List.all_eq_true]
    intro x hx
    obtain ⟨j, hj, rfl⟩ := List.mem_map.mp hx
    have e : synOf (gfExp j) (p ++ List.replicate n 0 ++ q) 0 = 0 := by
      rw [synOf_append, synOf_append, hp j hj, synOf_zeros, hq j hj]
    simpa [synOf] using e
  simp only [rsDecode, h, if_true]

/-- A codeword that comes as it was sent has no corrected symbol. -/
theorem rxWord_clean {map : List Nat} {lanes : List (List Nat)} {w : List Nat} (h : gathered map lanes = w) (hd : rsDecode w = some w) :
    rxWord map lanes = (some w, List.replicate 9 0) := by
  have e : ∀ l : List Nat, l.filter (fun _ => false) = [] := fun l => by induction l <;> simp_all
  unfold rxWord
  rw [h]
  simp only [hd, bne_self_eq_false, Bool.false_and, e]
  rfl
/-- An uncorrectable one counts no corrected symbol. -/
theorem rxWord_fails {map : List Nat} {lanes : List (List Nat)} {w : List Nat} (h : gathered map lanes = w) (hd : rsDecode w = none) :
    rxWord map lanes = (none, List.replicate 9 0) := by
  unfold rxWord
  rw [h]
  simp only [hd]

/-- Full width on the first eight lanes. -/
def lanes8 : List Nat := [0, 1, 2, 3, 4, 5, 6, 7]
/-- The two codewords of a frame of SEQ 0: the first all zeros; the second with HALF, a multiple of the generator behind it, and the CRC of the
frame at its end; and sixteen wrong symbols, which no codeword is near. -/
def headA : List Nat :=
  [0, 4, 238, 178, 748, 920, 178, 4, 432, 198, 97, 996, 342, 528, 376, 850, 949, 525, 675, 981, 471, 429, 75, 410,
   772, 553, 508, 740, 632, 512, 275, 62]
def tailB : List Nat :=
  [768, 826, 492, 700, 648, 873, 581, 931, 17, 863, 778, 803, 646, 400, 634, 351, 248, 135, 341, 667, 840, 898, 860, 528,
   830, 842, 712, 112, 868, 665, 128, 453, 123, 1]
def word0 : List Nat := [] ++ List.replicate 544 0 ++ []
def word1 : List Nat := headA ++ List.replicate 478 0 ++ tailB
def word9 : List Nat := List.replicate 528 0 ++ List.replicate 16 1
/-- What the lanes bring of each: symbol i on lane i mod 8. -/
def lane (a b : List Nat) : List Nat := a ++ List.replicate 59 0 ++ b
def lanes0 : List (List Nat) := List.replicate 8 (List.replicate 68 0)
def lanes1 : List (List Nat) :=
  [lane [0, 432, 949, 772] [0, 492, 778, 341, 712]]
   ++ [lane [4, 198, 525, 553] [0, 700, 803, 667, 112]]
   ++ [lane [238, 97, 675, 508] [0, 648, 646, 840, 868]]
   ++ [lane [178, 996, 981, 740] [0, 873, 400, 898, 665]]
   ++ [lane [748, 342, 471, 632] [0, 581, 634, 860, 128]]
   ++ [lane [920, 528, 429, 512] [0, 931, 351, 528, 453]]
   ++ [lane [178, 376, 75, 275] [768, 17, 248, 830, 123]]
   ++ [lane [4, 850, 410, 62] [826, 863, 135, 842, 1]]
def lanes9 : List (List Nat) := List.replicate 8 (List.replicate 66 0 ++ [1, 1])

theorem word0_decodes : rsDecode word0 = some word0 := by
  unfold word0; exact rsDecode_pieces 544 (by decide) (by decide)
theorem word1_decodes : rsDecode word1 = some word1 := rsDecode_pieces (p := headA) (q := tailB) 478 (by decide +kernel) (by decide +kernel)
theorem word9_fails : rsDecode word9 = none := by
  simp only [rsDecode, word9, rsSyndromes_zeros]; decide +kernel
theorem gathered0 : gathered lanes8 lanes0 = word0 := by decide +kernel
theorem gathered1 : gathered lanes8 lanes1 = word1 := by decide +kernel
theorem gathered9 : gathered lanes8 lanes9 = word9 := by decide +kernel
theorem rx_word0 : rxWord lanes8 lanes0 = (some word0, List.replicate 9 0) := rxWord_clean gathered0 word0_decodes
theorem rx_word1 : rxWord lanes8 lanes1 = (some word1, List.replicate 9 0) := rxWord_clean gathered1 word1_decodes
theorem rx_word9 : rxWord lanes8 lanes9 = (none, List.replicate 9 0) := rxWord_fails gathered9 word9_fails

/-- What a receiver makes of them, and that no symbol was corrected. -/
def body0 : List Byte :=
  List.replicate 640 0
  ++ ([0xee, 0xc8, 0xc2, 0x2e, 0xe6, 0xb2, 0x10, 0x00, 0x9b, 0x31, 0x61, 0x90, 0x6f, 0x15, 0x84, 0x78, 0x49, 0x5d, 0x7b, 0x83, 0xa3, 0x56, 0x7f, 0x5d, 0x6b, 0x4b, 0x68, 0x46, 0x70, 0x8a, 0xfc, 0x91, 0x8b, 0x27, 0x80, 0x13, 0xf9]
  ++ List.replicate 599 0 ++ [0xeb, 0xcc, 0x1e, 0xaf])
/-- The bytes of a number in pieces; of a multiple of 256^k, zeros. -/
theorem toLE_split (i j v : Nat) : toLE (i + j) v = toLE i v ++ toLE j (v / 256 ^ i) := by
  induction i generalizing v with
  | zero => simp [toLE]
  | succ i ih => rw [show i + 1 + j = (i + j) + 1 by omega]; simp only [toLE, ih, List.cons_append, Nat.div_div_eq_div_mul, Nat.pow_succ']
theorem toLE_zeros (k y : Nat) : toLE k (256 ^ k * y) = List.replicate k 0 := by
  induction k with
  | zero => rfl
  | succ k ih =>
    have h : 256 ^ (k + 1) * y = 256 * (256 ^ k * y) := by rw [Nat.pow_succ', Nat.mul_assoc]
    rw [h, toLE, List.replicate_succ, Nat.mul_div_cancel_left _ (by decide), ih]
    congr 1
    exact BitVec.eq_of_toNat_eq (by simp)
theorem fields0 : wordFields word0 = (0, body0.take 640) := by
  have h : (word0.take 514).foldr (fun v w => v + 1024 * w) 0 = 0 := by decide +kernel
  have z := toLE_zeros 640 0
  rw [Nat.mul_zero] at z
  simp only [wordFields, h, Nat.zero_mod, Nat.zero_div, z]
  simp [body0]
def mid1 : Nat := 0xf91380278b91fc8a7046684b6b5d7f56a3837b5d497884156f9061319b0010b2e62ec2c8ee
theorem fields1 : wordFields word1 = (4096, body0.drop 640) := by
  have h : (word1.take 514).foldr (fun v w => v + 1024 * w) 0 = 4096 + 2 ^ 20 * (mid1 + 256 ^ 37 * (256 ^ 599 * 2938031339)) := by decide +kernel
  have e : (4096 + 2 ^ 20 * (mid1 + 256 ^ 37 * (256 ^ 599 * 2938031339))) / 2 ^ 20 = mid1 + 256 ^ 37 * (256 ^ 599 * 2938031339) := by decide +kernel
  have e1 : (mid1 + 256 ^ 37 * (256 ^ 599 * 2938031339)) / 256 ^ 37 = 256 ^ 599 * 2938031339 := by decide +kernel
  have e2 : (256 ^ 599 * 2938031339) / 256 ^ 599 = 2938031339 := by decide +kernel
  simp only [wordFields, h, e, show (640 : Nat) = 37 + (599 + 4) from rfl, toLE_split, e1, e2, toLE_zeros]
  decide +kernel
theorem frame0 : rxFrame lanes8 [lanes0, lanes1] = .frame 0 false body0 := by
  have c : crcMatches body0 = true := by decide +kernel
  simp [rxFrame, rx_word0, rx_word1, fields0, fields1, List.take_append_drop, c, bit, bits]
theorem crc0 : rxFrame lanes8 [lanes0] = .crc := by simp [rxFrame, rx_word0, fields0, bit, bits]
theorem ucw0 : rxFrame lanes8 [lanes9] = .ucw 1 := by simp [rxFrame, rx_word9]
theorem none_wrong : rxErrors lanes8 none none [lanes0, lanes1] = List.replicate 9 0
    ∧ rxErrors lanes8 none none [lanes0] = List.replicate 9 0 ∧ rxErrors lanes8 none none [lanes9] = List.replicate 9 0 := by
  simp only [rxErrors, List.foldl_cons, List.foldl_nil, rx_word0, rx_word1, rx_word9]; decide

/-! ### Hypotheses of the obligations are met -/

theorem test_meets_StepRunsTheFrontCommand :
    (∃ (s : State) (c : Instr) (r : List Instr), s.pending = c :: r)
    ∧ (∃ s : State, s.pending = []) ∧ ∃ s : State, s.live = false :=
  ⟨⟨rst.withCommand .disec, .disec, [], by decide⟩, ⟨rst, by decide⟩, ⟨off, by decide⟩⟩

theorem test_meets_StepsKeepMemoryCanonical : ∃ s t : State, s.memWf = true ∧ s.mem ≠ [] ∧ step s = .next t :=
  ⟨{ (rst.withCommand .disec) with mem := [(5, 1), (9, 2)] }, _, by decide, by decide, rfl⟩

theorem test_meets_StepsAnswerAndKeepFuses : ∃ s t : State, step s = .next t ∧ s.fuses.testBit 64 = true ∧ t.fuses.testBit 64 = true :=
  ⟨{ (rst.withCommand .disec) with fuses := 2 ^ 64 }, _, rfl, by decide, by decide⟩

theorem test_meets_NaNsAndSigns :
    (∃ w : Nat, decodeFmt fmtE5M2 w = .nan) ∧ (∃ v : Machine.Num, v ≠ .nan ∧ v.sign = true)
    ∧ decodeFmt fmtE4M3 (encodeFmt fmtE4M3 (.inf true)) = .fin true 14 1 5 :=
  ⟨⟨0x7F, by decide⟩, ⟨.inf true, by decide, by decide⟩, by decide⟩

theorem test_meets_CodesRoundTrip :
    ∃ w : Nat, w < 2 ^ (fmtB32.signAt + 1) ∧ decodeFmt fmtB32 w ≠ .nan ∧ encodeFmt fmtB32 (decodeFmt fmtB32 w) = w :=
  ⟨0x80000001, by decide, by decide, by decide⟩

theorem test_meets_ManagementCodes : ∃ s : State, s.power.phase = .up 3 ∧ s.mgt.addr = none :=
  ⟨{ rst with power := { rst.power with phase := .up 3 } }, by decide, by decide⟩

theorem test_meets_PrivateTransfers : (∃ (s : State) (off : Byte), s.power.phase = .up 7 ∧ s.live = true ∧ off.toNat % 4 = 0)
    ∧ (∀ o ∈ [0, 0xFFFC, 0x10000], ({ rst with mgt := { rst.mgt with off := o } } : State).power.phase = .up 7 ∧ o % 4 = 0) :=
  ⟨⟨rst, 0xFC, by decide, by decide, by decide⟩, by decide⟩

theorem test_meets_InBandInterrupt :
    (∃ s : State, s.mgt.ibiOn = true ∧ s.mgt.ibiSent = false ∧ s.on MGT.IBI_CAUSE.THERMAL = true ∧ s.on MGT.IBI_CFG.THERMAL = true)
    ∧ (∃ s : State, s.mgt.ibiSent = true ∧ s.on MGT.IBI_CAUSE.HEALTH = false ∧ s.on MGT.IBI_CAUSE.ERROR = false
        ∧ s.on MGT.IBI_CAUSE.TRAY = false ∧ s.on MGT.IBI_CAUSE.THERMAL = false)
    ∧ (∃ s : State, s.on MGT.IBI_CAUSE.TRAY = true ∧ s.mgt.ibiSent = true) :=
  ⟨⟨{ ((rst.put MGT.IBI_CAUSE.THERMAL 1).put MGT.IBI_CFG.THERMAL 1) with mgt := { rst.mgt with ibiOn := true } },
      by decide, by decide, by decide, by decide⟩,
    ⟨{ rst with mgt := { rst.mgt with ibiSent := true } }, by decide, by decide, by decide, by decide, by decide⟩,
    ⟨{ (rst.put MGT.IBI_CAUSE.TRAY 1) with mgt := { rst.mgt with ibiSent := true } }, by decide, by decide⟩⟩

theorem test_meets_OffNoticeAndTrayRequest :
    (∃ (s : State) (code : BitVec 2), s.live = true ∧ s.get MGT.TRAY_REQ.CODE = 0 ∧ code.toNat = 2 ∧ s.attached = false)
    ∧ ∃ s : State, s.live = true ∧ s.attached = true :=
  ⟨⟨rst, 2, by decide, by decide, by decide, by decide⟩, ⟨rst.put FRL.STATUS.ATTACHED 1, by decide, by decide⟩⟩

/-- A request of SEQ 9 whose other fields are 0, with its CRC-32. -/
def frame9 (op : Nat) : BitVec 192 := BitVec.ofNat 192 (op + 0x90000 + 2 ^ 160 * crc32 (toLE 20 (op + 0x90000)))

theorem test_meets_OnautRequests :
    (∃ (s : State) (v : List Byte), s.live = true ∧ (∀ r, s.onaut.kept = some r → r.seq ≠ (9 : BitVec 16).toNat)
      ∧ s.get BOOT.STATUS.STAGE ≠ 0 ∧ s.on DBG.STATUS.BACKOFF = false ∧ s.onaut.nonce = some v)
    ∧ (∃ s : State, s.live = true ∧ (∃ r, s.onaut.kept = some r ∧ r.seq = (9 : BitVec 16).toNat))
    ∧ (∃ s : State, s.live = true ∧ (∀ r, s.onaut.kept = some r → r.seq ≠ (9 : BitVec 16).toNat) ∧ s.get BOOT.STATUS.STAGE ≠ 0
      ∧ s.on DBG.STATUS.BACKOFF = true)
    ∧ (∃ s : State, s.live = true ∧ (∀ r, s.onaut.kept = some r → r.seq ≠ (9 : BitVec 16).toNat) ∧ s.get BOOT.STATUS.STAGE ≠ 0
      ∧ s.on DBG.STATUS.BACKOFF = false ∧ s.onaut.nonce = none)
    ∧ (∃ s : State, s.live = true ∧ (∀ r, s.onaut.kept = some r → r.seq ≠ (9 : BitVec 16).toNat)
      ∧ s.on DBG.STATUS.UNLOCKED = false)
    ∧ (∃ s : State, s.live = true ∧ (∀ r, s.onaut.kept = some r → r.seq ≠ (9 : BitVec 16).toNat)
      ∧ s.on DBG.STATUS.UNLOCKED = true ∧ s.get DBG.STATUS.SCOPE = 2 ∧ s.on BOOT.STATUS.STARTED = false)
    ∧ (∃ f : BitVec 192, crc32 (toLE 20 f.toNat) ≠ bits f.toNat 191 160)
    ∧ (∀ op ∈ [7, 0, 5], crc32 (toLE 20 (frame9 op).toNat) = bits (frame9 op).toNat 191 160 ∧ bits (frame9 op).toNat 31 16 = (9 : BitVec 16).toNat
      ∧ frame9 op = BitVec.ofNat 32 (crc32 (toLE 20 (op + 0x90000))) ++ BitVec.ofNat 160 (op + 0x90000)
      ∧ bits (frame9 op).toNat 7 0 = op ∧ bits (frame9 op).toNat 15 8 = 0 ∧ bits (frame9 op).toNat 159 32 = 0)
    ∧ 7 ∉ [0, 1, 2, 3, 4, 5, 6, 0x10, 0x11, 0x20, 0x21, 0x22, 0x23, 0x24]
    ∧ (∃ s : State, s.live = true ∧ s.onaut.tx ≠ [] ∧ ∀ x ∈ s.onaut.cuts, x.1 ≠ s.onaut.tx.length - 1) :=
  ⟨⟨{ stage1 with onaut := { rst.onaut with nonce := some [] } }, [], by decide, kept_none (by decide) 9, by decide, by decide, by decide⟩,
    ⟨{ rst with onaut := { rst.onaut with kept := some { status := 0, op := 0, seq := 9, data := 0 } } }, by decide, _, rfl, by decide⟩,
    ⟨stage1.put DBG.STATUS.BACKOFF 1, by decide, kept_none (by decide) 9, by decide, by decide⟩,
    ⟨stage1, by decide, kept_none (by decide) 9, by decide, by decide, by decide⟩,
    ⟨rst, by decide, kept_none (by decide) 9, by decide⟩,
    ⟨full.put BOOT.STATUS.STARTED 0, by decide, kept_none (by decide) 9, by decide, by decide, by decide⟩, ⟨0, by decide +kernel⟩,
    by decide +kernel, by decide, ⟨{ rst with onaut := { rst.onaut with tx := [[]] } }, by decide, by decide, by decide⟩⟩

theorem test_meets_HaltAndStep :
    (∃ s : State, s.live = true ∧ (∀ r, s.onaut.kept = some r → r.seq ≠ (9 : BitVec 16).toNat) ∧ s.on DBG.STATUS.UNLOCKED = true
      ∧ s.get DBG.STATUS.SCOPE = 2 ∧ s.on BOOT.STATUS.STARTED = true ∧ s.on (DBG.CORE_c.HALT_REQ 15) = false
      ∧ s.on (DBG.CORE_c.HALTED 15) = false)
    ∧ (∃ s : State, s.live = true ∧ (∀ r, s.onaut.kept = some r → r.seq ≠ (9 : BitVec 16).toNat) ∧ s.on DBG.STATUS.UNLOCKED = true
      ∧ s.get DBG.STATUS.SCOPE = 2 ∧ s.on BOOT.STATUS.STARTED = true ∧ s.on (DBG.CORE_c.HALTED 15) = true
      ∧ s.on (DBG.CORE_c.STEPPING 15) = false)
    ∧ (∃ s : State, s.live = true ∧ (∀ r, s.onaut.kept = some r → r.seq ≠ (9 : BitVec 16).toNat) ∧ s.on DBG.STATUS.UNLOCKED = true
      ∧ s.get DBG.STATUS.SCOPE = 2 ∧ s.on BOOT.STATUS.STARTED = true ∧ s.on (DBG.CORE_c.HALT_REQ 15) = true
      ∧ s.on (DBG.CORE_c.HALTED 15) = false ∧ nothingOut s 15 = true) :=
  ⟨⟨full, by decide, kept_none (by decide) 9, by decide, by decide, by decide, by decide, by decide⟩,
    ⟨full.put (DBG.CORE_c.HALTED 15) 1, by decide, kept_none (by decide) 9, by decide, by decide, by decide, by decide, by decide⟩,
    ⟨full.put (DBG.CORE_c.HALT_REQ 15) 1, by decide, kept_none (by decide) 9, by decide, by decide, by decide, by decide, by decide,
      by decide⟩⟩

theorem test_meets_OnautMemory :
    ∃ (s : State) (a : Word), s.live = true ∧ (∀ r, s.onaut.kept = some r → r.seq ≠ (9 : BitVec 16).toNat)
      ∧ s.on DBG.STATUS.UNLOCKED = true ∧ s.get DBG.STATUS.SCOPE = 2 ∧ s.on BOOT.STATUS.STARTED = true ∧ regOffset a.toNat = none
      ∧ s.reach a.toNat 8 = 0 ∧ noWetInk s a.toNat 8 ∧ noErrors s a.toNat 8 :=
  ⟨full.setPart 0 { rst.part 0 with inReset := false }, 0x1F8, by decide, kept_none (by decide) 9, by decide, by decide, by decide, by decide, by decide,
    no_ink (by decide), no_errors (by decide)⟩

theorem test_meets_UnlockEnds :
    (∃ (s : State) (token : List Byte), s.live = true ∧ s.onaut.verify = [(9, [], token)] ∧ s.tokenOk [] token = false)
    ∧ (∃ s : State, s.live = true ∧ s.on DBG.STATUS.BACKOFF = true ∧ s.onaut.due ≤ s.time) :=
  ⟨⟨{ rst with onaut := { rst.onaut with verify := [(9, [], [])] } }, [], by decide, by decide, rfl⟩,
    ⟨rst.put DBG.STATUS.BACKOFF 1, by decide, by decide, by decide⟩⟩

theorem test_meets_FieldTypes :
    (∃ (f : FieldRow), f.lo ≤ f.hi ∧ f.type = .w1c ∧ rst.get (f.at_ 0x10) < 2 ^ (f.at_ 0x10).width)
    ∧ (∃ f : FieldRow, f.lo ≤ f.hi ∧ f.type = .lk ∧ full.on BOOT.STATUS.STARTED = true ∧ rst.on BOOT.STATUS.STARTED = false)
    ∧ (∃ f : FieldRow, f.lo ≤ f.hi ∧ f.type = .sh ∧ rst.applyHolds (f.at_ 0x10) = none)
    ∧ ∃ (f : FieldRow) (g : Field), f.lo ≤ f.hi ∧ g.key ≠ (f.at_ 0x10).key :=
  ⟨⟨⟨"F", .w1c, 31, 31, 1⟩, by decide, by decide, by decide⟩, ⟨⟨"F", .lk, 0, 0, 0⟩, by decide, by decide, by decide, by decide⟩,
    ⟨⟨"F", .sh, 63, 0, 0⟩, by decide, by decide, by decide⟩, ⟨⟨"F", .rw, 3, 0, 0⟩, ⟨0x18, 3, 0, 0⟩, by decide, by decide⟩⟩

theorem test_meets_RegisterAccesses :
    (∃ (s : State) (off : BitVec 24), s.live = true ∧ regFits off.toNat true = true ∧ s.reaches .firmware off.toNat true = true
      ∧ firmwareFits off.toNat 5 = true)
    ∧ (∃ (s : State) (off : BitVec 24), s.live = true ∧ regFits off.toNat false = true ∧ s.reaches .firmware off.toNat true = true
      ∧ firmwareFits off.toNat 1 = false)
    ∧ (∃ (s : State) (off : BitVec 24), s.live = true ∧ regFits off.toNat false = true ∧ s.reaches .ferrule off.toNat true = false)
    ∧ (∃ (s : State) (off : BitVec 24), s.live = true ∧ regFits off.toNat false = true ∧ s.reaches .onaut off.toNat true = true
      ∧ inModels off.toNat = false ∧ inWindow off.toNat = false ∧ findReg off.toNat = none)
    ∧ ((full.put BOOT.STATUS.STAGE 4).reaches .firmware 0x100000 true = true
      ∧ (∀ n : PartIx, (full.put BOOT.STATUS.STAGE 4).on (SCH.PROFILE_n.BUSY n) = false) ∧ full.reaches .onaut 8 false = true)
    ∧ (∃ s : State, s.live = true ∧ regFits 0x100000 false = true ∧ s.reaches .onaut 0x100000 false = false)
    ∧ (∃ s : State, s.agents[agentIx .onaut].hold = some (0x10, 0xFFFFFFFF))
    ∧ (∃ s : State, s.agents[agentIx .onaut].hold = none ∧ s.agents[agentIx .onaut].latch = none)
    ∧ (∃ s : State, s.agents[agentIx .onaut].latch = some (0x10, 0xFFFFFFFF))
    ∧ agentIx .mgmt ≠ agentIx .onaut :=
  ⟨⟨rst.put BOOT.STATUS.STAGE 4, BitVec.ofNat 24 (STK.START_n.ACLK 0).addr, by decide, by decide, by decide, by decide⟩,
    ⟨rst.put BOOT.STATUS.STAGE 4, BitVec.ofNat 24 RST.CHIP.GO.addr, by decide, by decide, by decide, by decide⟩,
    ⟨rst, BitVec.ofNat 24 PWR.MODULE_LIMIT.WATTS.addr, by decide, by decide, by decide⟩,
    ⟨full, 0x00FFFC, by decide, by decide, by decide, by decide, by decide, by decide⟩,
    ⟨by decide, by decide, by decide⟩, ⟨rst, by decide, by decide, by decide⟩,
    ⟨rst.setAgent .onaut none (some (0x10, 0xFFFFFFFF)), by decide⟩, ⟨rst, by decide, by decide⟩,
    ⟨rst.setAgent .onaut (some (0x10, 0xFFFFFFFF)) none, by decide⟩, by decide⟩

/-- As many answers to MRDs wait as may. -/
def full256 : State :=
  { link with ferrule := { link.ferrule with waiting := (List.range 256).map (fun i => { msg := fmsg 3 0x26 i 0, req := none }) } }

theorem test_meets_CompanionMemory :
    (∃ m : FMsg, link.live = true ∧ link.get FRL.STATUS.STATE = 2 ∧ protocolBad m = false ∧ m.addr.toNat % 64 = 0
      ∧ regOffset m.addr.toNat = none ∧ m.opcode = 0x27 ∧ m.linesM1 ≠ 0 ∧ link.reach m.addr.toNat m.lines.length = 0 ∧ noWetInk link m.addr.toNat m.lines.length
      ∧ link.frlTake m = link ∧ link.frlBehind m = false)
    ∧ (∃ m : FMsg, protocolBad m = false ∧ m.addr.toNat % 64 = 0 ∧ regOffset m.addr.toNat = none ∧ m.opcode = 0x27 ∧ m.linesM1 = 0
      ∧ m.lines.length = 64 ∧ link.reach m.addr.toNat 64 = 0 ∧ noWetInk link m.addr.toNat 64 ∧ m.mask.toNat.testBit 15 = true)
    ∧ (∃ m : FMsg, protocolBad m = false ∧ m.addr.toNat % 64 = 0 ∧ regOffset m.addr.toNat = none ∧ m.opcode = 0x27
      ∧ link.reach m.addr.toNat m.lines.length ≠ 0)
    ∧ (∃ m : FMsg, protocolBad m = false ∧ m.addr.toNat % 64 = 0 ∧ regOffset m.addr.toNat = none ∧ m.opcode = 0x06
      ∧ link.reach m.addr.toNat (64 * (m.linesM1.toNat + 1)) = 0 ∧ noErrors link m.addr.toNat (64 * (m.linesM1.toNat + 1)) ∧ link.mrdFull = false)
    ∧ (∃ m : FMsg, protocolBad m = false ∧ m.addr.toNat % 64 = 0 ∧ regOffset m.addr.toNat = none ∧ m.opcode = 0x06
      ∧ link.reach m.addr.toNat (64 * (m.linesM1.toNat + 1)) ≠ 0)
    ∧ full256.mrdFull = true ∧ full256.live = true ∧ full256.get FRL.STATUS.STATE = 2 :=
  ⟨⟨{ msg 0x27 with cls := 3, linesM1 := 1, lines := List.replicate 128 7 }, by decide, by decide, by decide, by decide, by decide, by decide, by decide,
      by decide, no_ink (by decide), by decide, by decide⟩,
    ⟨{ msg 0x27 with cls := 3, lines := List.replicate 64 7, mask := 0x8001 }, by decide, by decide, by decide, by decide, by decide, by decide, by decide,
      no_ink (by decide), by decide⟩,
    ⟨{ msg 0x27 with cls := 3, addr := 0x7FFFFFFFFFC0, linesM1 := 1, lines := List.replicate 128 7 }, by decide, by decide, by decide, by decide, by decide⟩,
    ⟨{ msg 0x06 with linesM1 := 7 }, by decide, by decide, by decide, by decide, by decide, no_errors (by decide), by decide⟩,
    ⟨{ msg 0x06 with addr := 0x7FFFFFFFFFC0 }, by decide, by decide, by decide, by decide, by decide⟩, by decide +kernel, by decide, by decide⟩

theorem test_meets_PowerSequencing :
    (off.power.phase = .off false ∧ off.power.needLow = false ∧ off.power.prsntN = false ∧ 46000 ≤ 46000 ∧ 45999 < 46000)
    ∧ (∃ s : State, s.power.phase = .up 6) ∧ (∃ s : State, s.power.phase = .tripped)
    ∧ ((43999 < 44000 ∧ 100 ≤ 100) ∧ 57000 < 57001 ∧ 10 ≤ 10)
    ∧ (∃ s : State, s.power.phase = .off true ∧ s.power.needLow = false ∧ s.power.prsntN = false ∧ s.power.pwrEn = true)
    ∧ (∃ s : State, s.power.phase = .off true ∧ s.power.pwrEn = false) :=
  ⟨by decide, ⟨{ rst with power := { rst.power with phase := .up 6 } }, by decide⟩,
    ⟨{ rst with power := { rst.power with phase := .tripped } }, by decide⟩, by decide,
    ⟨{ rst with power := { rst.power with phase := .off true } }, by decide, by decide, by decide, by decide⟩,
    ⟨{ off with power := { off.power with phase := .off true } }, by decide, by decide⟩⟩

theorem test_meets_ResetPinTripAndEeprom :
    (rst.live = true ∧ off.live = false ∧ rst.power.phase = .up 7 ∧ 2 ≤ 7 ∧ 999 < 1000 ∧ 10000 ≤ 10000 ∧ 110 ≤ 110)
    ∧ ((∀ j : Nat, off.power.phase ≠ .up j) ∧ (0x1FF : BitVec 13).toNat < 0x200 ∧ 0x200 ≤ (0x200 : BitVec 13).toNat) :=
  ⟨by decide, fun j h => (by cases h), by decide, by decide⟩

theorem test_meets_PowerSample :
    ∃ s : State, s.live = true ∧ s.power.sampleAt ≤ s.time ∧ 110 ≤ max (110 : BitVec 8).toNat (0 : BitVec 8).toNat ∧ max (109 : BitVec 8).toNat (109 : BitVec 8).toNat < 110
      ∧ 1800 < 1801 ∧ 1800 < s.power.prevP ∧ 1500 ≤ s.powerLimit ∧ s.power.samples.sum ≤ s.powerLimit * s.power.samples.length :=
  ⟨{ rst with power := { rst.power with prevP := 1801, samples := [1500, 1400] } }, by decide, by decide, by decide, by decide, by decide, by decide, by decide, by decide⟩

/-- Partition 0 out of reset at full speed, after samples, with aclk above the limit and quiet steps so far. -/
def draws (l : List Nat) (o q : Nat) : State := { up0 with power := { up0.power with samples := l, overTime := o, quietTime := q } }
theorem test_meets_PowerSample_test :
    ((draws [] 799 0).powerLimit < 1501 ∧ 1501 ≤ 1800 ∧ (draws [] 799 0).power.overTime = 799 ∧ (draws [] 798 0).power.overTime < 799)
    ∧ ((draws [1501] 0 0).powerLimit * (draws [1501] 0 0).power.samples.length < (draws [1501] 0 0).power.samples.sum ∧ 1500 ≤ (draws [1501] 0 0).powerLimit)
    ∧ up0.get (PWR.P_STATE_n.GATE 0) ≤ 16 ∧ 0 < ((draws [1501] 0 0).powerTest 1500).1
    ∧ (∀ q ∈ [8, 9], ((draws [] 0 q).powerTest 1425).1 = 0 ∧ 20 * 1425 ≤ 19 * (draws [] 0 q).powerLimit ∧ (draws [] 0 q).power.quietTime = q)
    ∧ ((draws [] 0 0).powerTest 1426).1 = 0 ∧ 19 * (draws [] 0 0).powerLimit < 20 * 1426 := by decide
/-- Every partition is protected. -/
def guarded : State := { up0 with force := allParts.map (fun (n : PartIx) => ((PWR.P_CAP_n.PROTECT n).key, 1)) }
theorem test_meets_PowerSample_targets :
    (∀ n : PartIx, up0.active n = true ∧ up0.inForce (PWR.P_CAP_n.PROTECT n) ≠ 1 ∧ 4 < up0.get (PWR.P_STATE_n.GATE n)
      ∧ ¬ up0.inForce (PWR.P_CAP_n.WATTS n) < up0.get (PWR.P_STATE_n.WATTS n))
    ∧ (∀ n : PartIx, guarded.active n = true ∧ guarded.inForce (PWR.P_CAP_n.PROTECT n) = 1
      ∧ ¬ guarded.inForce (PWR.P_CAP_n.WATTS n) < guarded.get (PWR.P_STATE_n.WATTS n)) := by decide

theorem test_meets_StartWrite :
    (full.settable = true ∧ full.boundaryDue 3 = false ∧ (full.afterBoundary 3).on (STK.CTRL_n.RUNNING 3) = false)
    ∧ ((rst.put BOOT.STATUS.STAGE 4).settable = true ∧ ((rst.put (STK.CTRL_n.RUNNING 3) 1).afterBoundary 3).on (STK.CTRL_n.RUNNING 3) = true) := by
  decide

theorem test_meets_StrokeControl :
    (({ up0 with regs := full.regs } : State).settable = true ∧ up0.afterBoundary 0 = up0 ∧ (up0.part 0).inReset = false ∧ up0.on (STK.CTRL_n.RUNNING 0) = false ∧ up0.active 0 = true)
    ∧ ((up0.put (PART.POWER_n.STATE 0) 1).afterBoundary 0).active 0 = false ∧ ((rst.afterBoundary 0).part 0).inReset = true
    ∧ (∀ b ∈ [false, true], ∃ u : State, u = ((up0.put (STK.CTRL_n.RUNNING 0) 1).modPart 0 (fun p =>
        { p with stopping := b, window := b })).afterBoundary 0 ∧ (u.part 0).inReset = false ∧ u.on (STK.CTRL_n.RUNNING 0) = true
        ∧ (u.part 0).stopping = b ∧ (u.part 0).window = b) := by
  refine ⟨by decide, by decide, by decide, fun b _ => ⟨_, rfl, ?_⟩⟩
  cases b <;> decide

theorem test_meets_StrokeBoundary :
    (∃ s : State, s.live = true ∧ (s.part 0).inReset = false ∧ (s.part 0).apply_ = none ∧ s.on (STK.CTRL_n.RUNNING 0) = true
      ∧ (s.part 0).window = false ∧ s.get (STK.NEXT_n.ACLK 0) ≤ s.time ∧ s.get (STK.NEXT_n.ACLK 0) ≠ 0xFFFFFFFFFFFFFFFF
      ∧ s.get (STK.CTRL_n.RUN 0) = 0 ∧ ((STK.PERIOD_n.ACLK 0).key, 0) ∈ s.shPend ∧ (HLT.CFG.WINDOW_S.key, 4) ∈ s.shPend ∧ s.lowestOut = some 0)
    ∧ (killable (run0 seg0) 0 = true ∧ killable (run0 seg0) 1 = false)
    ∧ (∃ s : State, s.live = true ∧ (s.part 0).inReset = false ∧ (s.part 0).apply_ = none ∧ (s.part 0).window = true
      ∧ (s.part 0).bnd + 64 ≤ s.time ∧ (s.part 0).stopping = true ∧ (s.part 0).restart = false)
    ∧ (∃ s : State, s.live = true ∧ (s.part 0).inReset = false ∧ (s.part 0).apply_ = none ∧ (s.part 0).window = true
      ∧ (s.part 0).bnd + 64 ≤ s.time ∧ (s.part 0).stopping = false)
    ∧ (∃ s : State, s.live = true ∧ (s.part 0).inReset = false ∧ (s.part 0).apply_ = none ∧ (s.part 0).window = true
      ∧ (s.part 0).bnd + 64 ≤ s.time ∧ (s.part 0).stopping = true ∧ (s.part 0).restart = true) :=
  ⟨⟨{ ((up0.put (STK.CTRL_n.RUNNING 0) 1).put (STK.NEXT_n.ACLK 0) 0) with shPend := [((STK.PERIOD_n.ACLK 0).key, 0), (HLT.CFG.WINDOW_S.key, 4)] },
      by decide, by decide, by decide, by decide, by decide, by decide, by decide, by decide, by decide, by decide, by decide⟩, by decide,
    ⟨{ (up0.modPart 0 (fun p => { p with window := true, stopping := true })) with time := 64 }, by decide, by decide, by decide, by decide, by decide,
      by decide, by decide⟩,
    ⟨{ (up0.modPart 0 (fun p => { p with window := true })) with time := 64 }, by decide, by decide, by decide, by decide, by decide, by decide⟩,
    ⟨{ (up0.modPart 0 (fun p => { p with window := true, stopping := true, restart := true })) with time := 64 }, by decide, by decide, by decide,
      by decide, by decide, by decide, by decide⟩⟩

theorem test_meets_PartitionPower :
    (({ up0 with regs := full.regs } : State).settable = true ∧ up0.afterBoundary 0 = up0 ∧ (up0.part 0).inReset = false ∧ up0.get (PART.POWER_n.STATE 0) = 0
      ∧ up0.on (STK.CTRL_n.RUNNING 0) = false)
    ∧ ((up0.put (STK.CTRL_n.RUNNING 0) 1).afterBoundary 0).on (STK.CTRL_n.RUNNING 0) = true
    ∧ (∀ v ∈ [1, 2], ((up0.put (PART.POWER_n.STATE 0) v).afterBoundary 0).get (PART.POWER_n.STATE 0) = v
      ∧ (((up0.put (PART.POWER_n.STATE 0) v).afterBoundary 0).part 0).inReset = false)
    ∧ (∃ (s : State) (d : PowTrans), s.afterBoundary 0 = s ∧ (s.part 0).inReset = false ∧ s.get (PART.POWER_n.STATE 0) = 3 ∧ (s.part 0).trans = some d)
    ∧ ((rst.afterBoundary 0).part 0).inReset = true
    ∧ (∃ (s : State) (d : PowTrans), s.live = true ∧ (s.part 0).trans = some d ∧ d.due ≤ s.time ∧ d.rec_ = some 1 ∧ (s.part 0).resetWait = false)
    ∧ (∃ (s : State) (d : PowTrans), s.live = true ∧ (s.part 0).trans = some d ∧ d.due ≤ s.time ∧ d.rec_ = none ∧ (s.part 0).resetWait = false
      ∧ d.target < 2) :=
  ⟨by decide, by decide, by decide,
    ⟨(up0.put (PART.POWER_n.STATE 0) 3).modPart 0 (fun p => { p with trans := some ⟨2, 0, 0, none⟩ }), ⟨2, 0, 0, none⟩, by decide, by decide, by decide,
      by decide⟩, by decide,
    ⟨up0.modPart 0 (fun p => { p with trans := some ⟨2, 0, 0, some 1⟩ }), ⟨2, 0, 0, some 1⟩, by decide, by decide, by decide, by decide, by decide⟩,
    ⟨up0.modPart 0 (fun p => { p with trans := some ⟨2, 0, 0, none⟩ }), ⟨2, 0, 0, none⟩, by decide, by decide, by decide,
    by decide, by decide, by decide⟩⟩

/-- A plane being filled for that operation, with its last row still to come or not. -/
def fills (r : Nat) : Loading := ⟨3, 0, 0, 0, none, 0, r, [], [], []⟩

theorem test_meets_EngineOperations_starts :
    (∃ (s : State) (o : MatOp), s.advances (partOf 0) = true ∧ (s.eng 0 1).run = some o ∧ o.started = false ∧ o.chained = false
      ∧ o.start ≤ s.slot (partOf 0))
    ∧ (∃ (s : State) (o : MatOp), s.advances (partOf 0) = true ∧ (s.eng 0 1).run = some o ∧ o.started = false ∧ o.chained = true
      ∧ o.start ≤ s.slot (partOf 0))
    ∧ (∃ (s : State) (o q : MatOp), s.advances (partOf 0) = true ∧ (s.eng 0 1).run = some o ∧ o.started = true ∧ (s.eng 0 1).pend = some q
      ∧ q.chained = true ∧ q.started = false ∧ q.start ≤ s.slot (partOf 0))
    ∧ (∀ r ∈ [planeLoadTime (fmtClass (mmAFmt op1.cmd)), planeLoadTime (fmtClass (mmAFmt op1.cmd)) - 1],
      (mat (fun k => { k with loading := some (fills r) })).advances (partOf 0) = true
      ∧ ((mat (fun k => { k with loading := some (fills r) })).eng 0 1).loading = some (fills r)
      ∧ ((mat (fun k => { k with loading := some (fills r) })).eng 0 1).op 3 = some op1)
    ∧ (∃ (s : State) (o : MatOp) (d : Bool) (p : Plane), s.advances (partOf 0) = true ∧ passOp (s.eng 0 1) = some (d, o)
      ∧ (s.eng 0 1).planes.getD (1 - (s.eng 0 1).active) none = some p ∧ o.started = true ∧ p.nb = (pairOf o.cmd o.j).1
      ∧ remoteDone s 0 o.work = true ∧ passReady (s.eng 0 1) o (s.slot (partOf 0)) = false)
    ∧ (∃ (s : State) (o : MatOp) (d : Bool) (p : Plane), s.advances (partOf 0) = true ∧ passOp (s.eng 0 1) = some (d, o)
      ∧ (s.eng 0 1).planes.getD (1 - (s.eng 0 1).active) none = some p ∧ o.started = true ∧ p.nb = (pairOf o.cmd o.j).1
      ∧ remoteDone s 0 o.work = true ∧ passReady (s.eng 0 1) o (s.slot (partOf 0)) = true) :=
  ⟨⟨mat (fun k => { k with run := some { op1 with started := false } }), _, by decide, rfl, by decide, by decide, by decide⟩,
    ⟨mat (fun k => { k with run := some { op1 with started := false, chained := true } }), _, by decide, rfl, by decide, by decide, by decide⟩,
    ⟨mat (fun k => { k with pend := some { op1 with started := false, chained := true, work := 4 } }), _, _, by decide, rfl, by decide, rfl, by decide,
      by decide, by decide⟩, by decide,
    ⟨mat (fun k => { k with planes := [none, some ⟨0, 0, [], []⟩] }), op1, false, ⟨0, 0, [], []⟩, by decide, by decide, by decide, by decide, by decide,
      by decide, by decide⟩,
    ⟨{ (mat (fun k => { k with planes := [none, some ⟨0, 0, [], []⟩] })) with slots := #v[100000, 0, 0, 0] }, op1, false, ⟨0, 0, [], []⟩, by decide,
      by decide, by decide, by decide, by decide, by decide, by decide⟩⟩

theorem test_meets_EngineOperations_ends :
    (∃ (s : State) (o : MatOp), s.advances (partOf 0) = true ∧ (s.eng 0 1).run = some o ∧ o.started = true ∧ arrayMoves (s.eng 0 1) = true
      ∧ (s.eng 0 1).held = false)
    ∧ (∃ (s : State) (o : MatOp), s.advances (partOf 0) = true ∧ (s.eng 0 1).run = some o ∧ o.started = true ∧ lateStart s 0 (s.eng 0 1) = some false
      ∧ (s.eng 0 1).late = false)
    ∧ (∃ (s : State) (o : MatOp), s.advances (partOf 0) = true ∧ (s.eng 0 1).run = some o ∧ o.t = some 0 ∧ 0 ≤ (s.eng 0 1).clk
      ∧ (s.eng 0 1).pipe = [] ∧ (s.eng 0 1).pend = none)
    ∧ (∃ (s : State) (o q : MatOp), s.advances (partOf 0) = true ∧ (s.eng 0 1).run = some o ∧ o.t = some 0 ∧ 0 ≤ (s.eng 0 1).clk
      ∧ (s.eng 0 1).pipe = [] ∧ (s.eng 0 1).pend = some q)
    ∧ (∃ (s : State) (r : List (Nat × Nat)), s.advances (partOf 0) = true ∧ (s.eng 0 1).finish = (7, 0) :: r ∧ 0 ≤ s.slot (partOf 0)
      ∧ (s.eng 0 1).ready ≤ s.slot (partOf 0) ∧ (s.eng 0 1).ready ≠ 0) :=
  ⟨⟨mat (fun k => { k with open_ := true, mj := 1 }), _, by decide, rfl, by decide, by decide, by decide⟩,
    ⟨{ (mat id) with slots := #v[100000, 0, 0, 0] }, _, by decide, rfl, by decide, by decide, by decide⟩,
    ⟨mat (fun k => { k with run := some { op1 with t := some 0 } }), _, by decide, rfl, by decide, by decide, by decide, by decide⟩,
    ⟨mat (fun k => { k with run := some { op1 with t := some 0 }, pend := some { op1 with work := 4 } }), _, _, by decide, rfl, by decide, by decide,
      by decide, rfl⟩,
    ⟨{ (mat (fun k => { k with finish := [(7, 0)], ready := 5 })) with slots := #v[5, 0, 0, 0] }, [], by decide, by decide, by decide, by decide,
      by decide⟩⟩

/-- MX_SCALES fetched, and what is known of the command behind it. -/
def scales (q : Option (Nat × List Byte)) : Seg := { has (cmd 0x11 []) with peek := q }

theorem test_meets_FetchPollAndNop :
    (ready (run0 (has (cmd 0 []))) 0 0x00 = some (has (cmd 0 []), cmd 0 []) ∧ plainOk (cmd 0 []) 8 = true)
    ∧ (ready (run0 (has (cmd 0 [(63, [1])]))) 0 0x00 = some (has (cmd 0 [(63, [1])]), cmd 0 [(63, [1])])
      ∧ plainOk (cmd 0 [(63, [1])]) 8 = false)
    ∧ ((run0 seg0).advances (partOf 0) = true ∧ (run0 seg0).seg 0 = some seg0 ∧ seg0.lift = none ∧ ((run0 seg0).core 0).ctx = none
      ∧ seg0.fetched = none ∧ seg0.waitTail = false ∧ fetchAt (run0 seg0) 0 seg0 = (run0 seg0).ctxRd seg0.ctx 0x08 8)
    ∧ (∃ s : State, s.advances (partOf 0) = true ∧ s.seg 0 = some seg0 ∧ fetchAt s 0 seg0 = 64 ∧ 64 ≠ s.ctxRd seg0.ctx 0x08 8
      ∧ translated s 0 seg0.ctx [(64, 64, false)] ∧ localSound s 0 seg0.ctx [(64, 64)])
    ∧ (∃ s : State, s.advances (partOf 0) = true ∧ s.seg 0 = some (scales none) ∧ wantsPeek (scales none) = true ∧ fetchAt s 0 (scales none) = 64
      ∧ 64 ≠ s.ctxRd (scales none).ctx 0x08 8 ∧ translated s 0 (scales none).ctx [(64, 64, false)] ∧ localSound s 0 (scales none).ctx [(64, 64)])
    ∧ (issueReady (run0 (has (cmd 0x7F []))) 0 = some (has (cmd 0x7F []), cmd 0x7F []) ∧ knownOpcode (cmdOpcode (cmd 0x7F [])) = false)
    ∧ (∃ g : Seg, issueReady (run0 g) 0 = some (g, cmd 0x12 []) ∧ g.skip = true ∧ skipRuns (cmdOpcode (cmd 0x12 [])) = false)
    ∧ (∃ g : Seg, (run0 g).seg 0 = some g ∧ g.waitTail = true ∧ g.pollAt ≤ (run0 g).time ∧ fetchAt (run0 g) 0 g = (run0 g).ctxRd g.ctx 0x08 8)
    ∧ (∃ (s : State) (g : Seg), s.advances (partOf 0) = true ∧ s.seg 0 = some g ∧ g.waitTail = true ∧ g.pollAt ≤ s.time
      ∧ fetchAt s 0 g ≠ s.ctxRd g.ctx 0x08 8) :=
  ⟨by decide, by decide, by decide,
    ⟨(run0 seg0).put (SEQ.CMD_PTR.ADDR 0) 64, by decide, by decide, by decide, by decide, rfl, sound_one (by decide)⟩,
    ⟨run0 (scales none), by decide, by decide, by decide, by decide, by decide, rfl, sound_one (by decide)⟩, by decide,
    ⟨{ has (cmd 0x12 []) with skip := true }, by decide, by decide, by decide⟩,
    ⟨{ seg0 with waitTail := true }, by decide, by decide, by decide, by decide⟩,
    ⟨(run0 { seg0 with waitTail := true }).put (SEQ.CMD_PTR.ADDR 0) 64, { seg0 with waitTail := true }, by decide, by decide, by decide, by decide,
      by decide⟩⟩

theorem test_meets_PlainCommands :
    (run0 seg0).live = true
    ∧ (∀ q ∈ [none, some (64, cmd 0x10 []), some (64, cmd 0 [])], ready (run0 (scales q)) 0 0x11 = some (scales q, cmd 0x11 [])
      ∧ plainOk (cmd 0x11 []) 0x2C = true ∧ (scales q).peek = q)
    ∧ (∃ g : Seg, ready (run0 g) 0 0x11 = some (g, cmd 0x11 [(63, [1])]) ∧ g.peek = some (64, []) ∧ plainOk (cmd 0x11 [(63, [1])]) 0x2C = false)
    ∧ (stands (cmd 0x39 []) 0x39 = true ∧ plainOk (cmd 0x39 []) 0x10 = true ∧ fieldAt (cmd 0x39 []) 8 8 % 64 = 0)
    ∧ (stands (cmd 0x39 [(8, [32])]) 0x39 = true ∧ plainOk (cmd 0x39 [(8, [32])]) 0x10 = true ∧ fieldAt (cmd 0x39 [(8, [32])]) 8 8 % 64 ≠ 0)
    ∧ (stands (cmd 0x39 [(16, [1])]) 0x39 = true ∧ plainOk (cmd 0x39 [(16, [1])]) 0x10 = false)
    ∧ (stands (cmd 0x38 []) 0x38 = true ∧ plainOk (cmd 0x38 []) 8 = true)
    ∧ (stands (cmd 0x02 []) 0x02 = true ∧ plainOk (cmd 0x02 []) 8 = true ∧ (has (cmd 0x02 [])).mbSlot = none)
    ∧ (stands (cmd 0x3F []) 0x3F = true ∧ plainOk (cmd 0x3F []) 8 = true) := by
  refine ⟨by decide, by decide, ⟨{ has (cmd 0x11 [(63, [1])]) with peek := some (64, []) }, by decide, by decide, by decide⟩, ?_⟩
  decide

/-- MB_END in a micro-batch of a context with a stash; a scale table of one entry; a FENCE whose work is done. -/
theorem test_meets_PlainCommands_with_stash_and_table :
    (∃ (s : State) (g : Seg) (b : List Byte), ready s 0 0x02 = some (g, b) ∧ plainOk b 8 = true ∧ s.ctxRd g.ctx 0x18 8 ≠ 0 ∧ g.mbSlot.isSome = true)
    ∧ (∃ (s : State) (g : Seg) (b : List Byte), ready s 0 0x14 = some (g, b) ∧ plainOk b 0x10 = true ∧ fieldAt b 0x08 4 < 2 ^ 13
      ∧ 1 ≤ fieldAt b 0x0C 4 ∧ fieldAt b 0x08 4 + fieldAt b 0x0C 4 ≤ s.scaleLen (partOf 0) ∧ s.scaleLen (partOf 0) ≤ 8192)
    ∧ (∃ (s : State) (g : Seg) (w : Work), s.live = true ∧ ready s 0 0x38 = none ∧ s.seg 0 = some g ∧ g.work = [w] ∧ w.opcode = 0x38
      ∧ s.advances (partOf 0) = true) :=
  ⟨⟨{ (run0 { has (cmd 2 []) with mbSlot := some 0 }) with mem := [(0x1A, 1)] }, { has (cmd 2 []) with mbSlot := some 0 }, cmd 2 [],
      by decide, by decide, by decide, by decide⟩,
    ⟨{ (run0 (has (cmd 0x14 [(12, [1])]))) with force := [((NUM.TABLE_LEN_n.ENTRIES 0).key, 1)] }, has (cmd 0x14 [(12, [1])]), cmd 0x14 [(12, [1])], by decide, by decide,
      by decide, by decide, by decide, by decide⟩,
    ⟨run0 { seg0 with work := [{ id := 0, opcode := 0x38, token := 0, cmdId := 0 }] }, _, _, by decide, by decide, rfl, rfl, by decide, by decide⟩⟩
/-- A running segment whose context may take wet pages, with frame 5 in the T0 pool of its partition. -/
def pooled (g : Seg) : State := ((run0 g).wrLE 0x2C 2 16).modPart 0 (fun p => { p with poolFree := [[5], [], []] })

/-- The MATMUL of `mm16`, its B named by descriptor 1, and a table with that descriptor: 16 rows of 16 columns at the start of object page 1. -/
def mmD : List Byte := cmd 0x10 [(0x10, [1]), (0x1A, [2]), (0x20, [1]), (0x24, [1]), (0x2D, [0x90, 0x80])]
def wdt (g : Seg) (tag : Nat) : State :=
  { ((((((pooled g).wrLE 0x108 4 16).wrLE 0x10C 4 16).wrLE 0x110 4 tag).wrLE 0x118 8 0x10000).wrLE 0x178 4 64) with
    force := [((TRN.WDT_LEN_n.ENTRIES 0).key, 2)] }
/-- Micro-batch slot 0 of that context has used descriptor 1 with tag 9. -/
def tag9 : State := (((wdt { has mmD with mbSlot := some 0 } 5).wrLE 0x18 8 0x10000).wrLE 0x110105 1 1).wrLE 0x110210 8 0x900000001

theorem test_meets_MatmulIssue :
    (ready (pooled (has mm16)) 0 0x10 = some (has mm16, mm16) ∧ mmBreach (pooled (has mm16)) (partOf 0) mm16 none = none
      ∧ engFor (pooled (has mm16)) 0 mm16 = some 0 ∧ mmBDesc mm16 = false ∧ (pooled (has mm16)).seg 0 = some (has mm16))
    ∧ (∃ r : MmRes, mmResolve (pooled (has mm16)) 0 (has mm16) mm16 [] 0 = r ∧ matmulFits (pooled (has mm16)) 0 (has mm16) mm16 [] r)
    ∧ mmBreach (run0 (has (cmd 0x10 []))) (partOf 0) (cmd 0x10 []) none = some (0, 3)
    ∧ engFor ((pooled (has mm16)).modEng 0 0 (fun k => { k with run := some op1, pend := some op1 })) 0 mm16 = none :=
  ⟨by decide, ⟨_, rfl, by decide, by decide, by decide, by decide, by decide, by decide, by decide, by decide, by decide, by decide, by decide, rfl⟩,
    by decide, by decide⟩

theorem test_meets_MatmulIssue_descriptor :
    (∀ tag ∈ [0, 5], ready (wdt (has mmD) tag) 0 0x10 = some (has mmD, mmD) ∧ mmBreach (wdt (has mmD) tag) (partOf 0) mmD none = none
      ∧ engFor (wdt (has mmD) tag) 0 mmD = some 0 ∧ mmBDesc mmD = true ∧ (wdt (has mmD) tag).wd (partOf 0) (mmBBase mmD % 4096) 0xB0 8 = 0)
    ∧ resolveDesc (wdt (has mmD) 0) 0 (has mmD) (mmBBase mmD % 4096) = .fault
    ∧ (∃ (t : State) (h : Seg) (r : MmRes), resolveDesc (wdt (has mmD) 5) 0 (has mmD) (mmBBase mmD % 4096) = .slot 0 t ∧ t.seg 0 = some h
      ∧ h.ctx = (has mmD).ctx ∧ t.wd (partOf 0) (mmBBase mmD % 4096) 0xB0 8 = 0 ∧ mmResolve t 0 h mmD [] 0 = r ∧ matmulFits t 0 h mmD [] r)
    ∧ (∃ g : Seg, ready tag9 0 0x10 = some (g, mmD) ∧ mmBreach tag9 (partOf 0) mmD g.mx = none ∧ engFor tag9 0 mmD = some 0
      ∧ tag9.wd (partOf 0) (mmBBase mmD % 4096) 0xB0 8 = 0 ∧ resolveDesc tag9 0 g (mmBBase mmD % 4096) = .stale 9) :=
  ⟨by decide, rfl,
    ⟨_, _, _, rfl, rfl, by decide, by decide, rfl, by decide, by decide, by decide, by decide, by decide, by decide, by decide, by decide, by decide,
      by decide, by decide, rfl⟩,
    ⟨{ has mmD with mbSlot := some 0 }, by decide, by decide, by decide, by decide, rfl⟩⟩

/-- MB_BEGIN of tag 5; STASH_PUT of page 3; STASH_FREE of page 3. -/
def mb5 : List Byte := cmd 0x01 [(8, [5])]
def put3 : List Byte := cmd 0x15 [(0x0A, [3]), (0x10, [64])]
def free3 : List Byte := cmd 0x16 [(0x0A, [3])]
/-- The segment of `has` in micro-batch slot 0. -/
def inMb (b : List Byte) : Seg := { has b with mbSlot := some 0 }
/-- A page table with object page 3's leaf, a stash region of page 3, a quota of two pages of T0, and one frame on the stack. -/
def shelf (g : Seg) : State :=
  { ((((((((stash g).wrLE 0x10 8 0x200000).wrLE 0x200000 8 0x210001).wrLE 0x210000 8 0x220001).wrLE 0x110000 8 0x20000).wrLE 0x110038 8 0x30000).wrLE
      0x110040 8 0x10000).wrLE 0x400C 4 1) with force := [((MEM.QTA_BASE_n.BASE 0).key, 0x100)] }

/-- Slot 0 of the stash control block holds tag 5 in a state. -/
def holds5 (st : Nat) (b : List Byte) : State := (stash (has b)).wrLE 0x110100 4 (5 + 65536 * st)
/-- The backward start of tag 5, and of tag 0. -/
def back (tag : Byte) : List Byte := cmd 0x01 [(8, [tag]), (10, [1])]

theorem test_meets_MicroBatchesAndStash :
    ((stash (has mb5)).seg 0 = some (has mb5) ∧ translated (stash (has mb5)) 0 0 (stashRange (stash (has mb5)) 0)
      ∧ (stash (has mb5)).ctxRd 0 0x18 8 ≠ 0 ∧ ready (stash (has mb5)) 0 0x01 = some (has mb5, mb5) ∧ plainOk mb5 0x0C = true
      ∧ zeroBits (fieldAt mb5 0x08 4) 31 17 = true ∧ fieldAt mb5 8 2 = 5 ∧ (has mb5).nextId = 0 ∧ mbFind (stash (has mb5)) 0 (has mb5) 5 = none
      ∧ cmdBits mb5 8 4 16 16 = 0 ∧ mbFree (stash (has mb5)) 0 (has mb5) = some 0 ∧ stashRd (stash (has mb5)) 0 (has mb5) 0x4A 1 % 2 = 0
      ∧ stashRd (stash (has mb5)) 0 (has mb5) 0x49 1 < mbInflight (stashRd (stash (has mb5)) 0 (has mb5) 0x48 1))
    ∧ (∀ tag ∈ [0, 5], ready (stash (has (back tag))) 0 0x01 = some (has (back tag), back tag) ∧ fieldAt (back tag) 8 2 = tag.toNat
      ∧ plainOk (back tag) 0x0C = true ∧ zeroBits (fieldAt (back tag) 0x08 4) 31 17 = true
      ∧ mbFind (stash (has (back tag))) 0 (has (back tag)) 5 = none ∧ cmdBits (back tag) 8 4 16 16 = 1)
    ∧ (∀ st ∈ [1, 2, 3], ∀ b ∈ [mb5, back 5], ready (holds5 st b) 0 0x01 = some (has b, b)
      ∧ mbFind (holds5 st b) 0 (has b) 5 = some 0 ∧ mbState (holds5 st b) 0 (has b) 0 = st ∧ (holds5 st b).ctxRd 0 0x18 8 ≠ 0)
    ∧ (∃ g : Seg, ready (stash g) 0 0x01 = some (g, mb5) ∧ g.nextId ≠ 0) := by
  refine ⟨⟨by decide, one_cached (page_cached (by decide)), by decide, by decide, by decide, by decide, by decide, by decide, by decide, by decide,
    by decide, by decide, by decide⟩, by decide +kernel, by decide +kernel, { has mb5 with nextId := 4 }, by decide, by decide⟩

/-- Every slot of the stash holds a micro-batch. -/
def allHeld : State := (List.range 32).foldl (fun s i => s.wrLE (0x110000 + mbAt i) 4 (0x1FF00 + i)) (stash (has mb5))
theorem test_meets_MicroBatchesAndStash_none_free :
    ready allHeld 0 0x01 = some (has mb5, mb5) ∧ mbFind allHeld 0 (has mb5) 5 = none ∧ mbFree allHeld 0 (has mb5) = none
    ∧ allHeld.ctxRd 0 0x18 8 ≠ 0 := by decide +kernel

theorem test_meets_MicroBatchesAndStash_put :
    translated (shelf (inMb put3)) 0 0 (stashRange (shelf (inMb put3)) 0) ∧ ready (shelf (inMb put3)) 0 0x15 = some (inMb put3, put3) :=
  ⟨one_cached (page_cached (by decide)), by decide⟩
theorem test_meets_MicroBatchesAndStash_put_command :
    headerOk put3 = true ∧ zeroBytes put3 0x14 0x18 = true ∧ zeroBytes put3 0x20 0x40 = true ∧ spSource put3 = 0
    ∧ (inMb put3).mbSlot = some 0 ∧ spAddr put3 % 65536 = 0 ∧ spAddr put3 = 0x30000 ∧ ceilDiv (spLen put3) 65536 = 1 := by decide
theorem test_meets_MicroBatchesAndStash_put_region :
    stashRd (shelf (inMb put3)) 0 (inMb put3) 0x38 8 = 0x30000 ∧ stashRd (shelf (inMb put3)) 0 (inMb put3) 0x40 8 = 0x10000
    ∧ stashRd (shelf (inMb put3)) 0 (inMb put3) (mbAt 0 + 4) 1 < 16 := by decide
theorem test_meets_MicroBatchesAndStash_put_frame :
    leavesOf (shelf (inMb put3)) 0 0x30000 1 = some [0x220018] ∧ stashTier (shelf (inMb put3)) 0 (inMb put3) 65536 1 = some 0 := by decide

theorem test_meets_MicroBatchesAndStash_free_and_complete :
    (ready (stash (inMb free3)) 0 0x16 = some (inMb free3, free3) ∧ plainOk free3 0x10 = true
      ∧ (List.range (stashRd (stash (inMb free3)) 0 (inMb free3) (mbAt 0 + 4) 1)).find?
          (fun e => stashRd (stash (inMb free3)) 0 (inMb free3) (stashEnt 0 e) 8 == fieldAt free3 8 8) = none)
    ∧ (∃ s : State, s.seg 0 = some (inMb free3) ∧ ready s 0 0x16 = some (inMb free3, free3) ∧ stashRd s 0 (inMb free3) (mbAt 0 + 4) 1 = 1
      ∧ stashRd s 0 (inMb free3) (stashEnt 0 0) 8 = fieldAt free3 8 8 ∧ translated s 0 0 (stashRange s 0) ∧ s.ctxRd 0 0x18 8 ≠ 0)
    ∧ (∃ (s : State) (m : MovOp), (s.core 0).mover = [m] ∧ s.seg 0 = some seg0 ∧ s.advances (partOf 0) = true ∧ m.started = true
      ∧ cmdOpcode m.cmd = 0x15 ∧ m.due ≤ s.slot (partOf 0) ∧ remoteDone s 0 m.work = true) :=
  ⟨by decide,
    ⟨((stash (inMb free3)).wrLE (0x110000 + mbAt 0 + 4) 1 1).wrLE (0x110000 + stashEnt 0 0) 8 0x30000, by decide, by decide, by decide, by decide, one_cached (page_cached (by decide)), by decide⟩,
    ⟨(run0 seg0).modCore 0 (fun k => { k with mover := [{ work := 0, cmd := put3, started := true }] }), { work := 0, cmd := put3, started := true },
      by decide, by decide, by decide, by decide, by decide, by decide, by decide⟩⟩

/-- A copy of 64 bytes to the Chart address 0. -/
def copyOut : List Byte := cmd 0x20 [(0x18, [64]), (0x1C, [4])]

theorem test_meets_Copies :
    ((pooled (has copy64)).seg 0 = some (has copy64) ∧ ready (pooled (has copy64)) 0 0x20 = some (has copy64, copy64) ∧ copyBreach copy64 = none
      ∧ moverFree (pooled (has copy64)) 0 = true ∧ translated (pooled (has copy64)) 0 0 (copyRanges copy64) ∧ cpWdesc copy64 = false
      ∧ cpFill copy64 = false ∧ ∃ v, (pooled (has copy64)).copyClaims 0 0 0 copy64 = .ok v)
    ∧ (∃ v, (run0 (has copyOut)).seg 0 = some (has copyOut) ∧ ready (run0 (has copyOut)) 0 0x20 = some (has copyOut, copyOut)
      ∧ copyBreach copyOut = none ∧ cpWdesc copyOut = false ∧ cpFill copyOut = false
      ∧ ((run0 (has copyOut)).wrLE 0x2E 2 1).copyClaims 0 0 0 copyOut = .wait v)
    ∧ (copyBreach (splice copy64 0x1C [32]) = none ∧ cpFill (splice copy64 0x1C [32]) = true ∧ cpWdesc (splice copy64 0x1C [32]) = false)
    ∧ (copyBreach (cmd 0x20 []) = some (0, 7) ∧ cpWdesc (cmd 0x20 []) = false ∧ cpFill (cmd 0x20 []) = false)
    ∧ (∃ s : State, moverFree s 0 = false)
    ∧ (∃ (s : State) (b : List Byte), s.seg 0 = some (has b) ∧ ready s 0 0x20 = some (has b, b) ∧ copyBreach b = none ∧ moverFree s 0 = true
      ∧ cpWdesc b = true ∧ s.descOk (partOf 0) (cpDst b % 4096) = true
      ∧ cpLen b = 64 + ((gatherParts s (partOf 0) (cpDst b % 4096) 0).map Prod.snd).sum
      ∧ translated s 0 0 ([0, 1].flatMap (fun v => (gatherParts s (partOf 0) (cpDst b % 4096) v).map (fun r => (r.1, r.2, true)))))
    ∧ (∃ (s : State) (m : MovOp), (s.core 0).mover = [m] ∧ s.seg 0 = some seg0 ∧ s.advances (partOf 0) = true ∧ m.started = true
      ∧ cmdOpcode m.cmd = 0x20 ∧ m.due ≤ s.slot (partOf 0) ∧ remoteDone s 0 m.work = true ∧ cpWdesc m.cmd = false) :=
  ⟨⟨by decide, by decide, by decide, by decide, rfl, by decide, by decide, _, rfl⟩, ⟨_, by decide, by decide, by decide, by decide, by decide, rfl⟩, by decide, by decide,
    ⟨(run0 seg0).modCore 0 (fun k => { k with mover := [{ work := 0, cmd := copy64 }, { work := 1, cmd := copy64 }] }), by decide⟩,
    ⟨{ (run0 (has (cmd 0x20 [(0x10, [1]), (0x18, [64]), (0x1C, [17])]))) with force := [((TRN.WDT_LEN_n.ENTRIES 0).key, 2)] },
      cmd 0x20 [(0x10, [1]), (0x18, [64]), (0x1C, [17])], by decide, by decide, by decide, by decide, by decide, by decide, by decide, rfl⟩,
    ⟨(run0 seg0).modCore 0 (fun k => { k with mover := [{ work := 0, cmd := copy64, started := true }] }), { work := 0, cmd := copy64, started := true },
      by decide, by decide, by decide, by decide, by decide, by decide, by decide, by decide⟩⟩

/-- NOTIFY of address 8; a semaphore command on the semaphore at the start of page 0. -/
def note8 : List Byte := cmd 0x21 [(8, [8])]
def waits (op : Nat) (f : SemWaitSt → SemWaitSt) : Seg := { seg0 with semWait := [f ⟨op, 0x100000, 0, 0, false, 0, 0, 0, false⟩] }

/-- A semaphore command of the semaphore at object address 0, with a lease of 1 where it takes one. -/
def semCmd (op : Byte) : List Byte := cmd op (if op = 0x32 then [(0x10, [1])] else [])

theorem test_meets_NotifyAndSemaphores :
    (∃ s : State, s.seg 0 = some (has note8) ∧ ready s 0 0x21 = some (has note8, note8) ∧ plainOk note8 0x1C = true
      ∧ zeroBits (fieldAt note8 0x18 4) 31 1 = true ∧ fieldAt note8 8 8 % 8 = 0 ∧ (has note8).outq + 128 ≤ 1024 * s.ctxRd 0 0x2E 2
      ∧ 128 ≤ s.outqFree (partOf 0))
    ∧ (∀ op : Byte, op ∈ [0x30, 0x31, 0x32, 0x33] → semBreach (semCmd op) = none ∧ smChart (semCmd op) = false
      ∧ (run0 (has (semCmd op))).seg 0 = some (has (semCmd op)) ∧ stands (semCmd op) op.toNat = true
      ∧ semPlace (run0 (has (semCmd op))) 0 0 (semCmd op) = .here 0x100000)
    ∧ (translated (run0 seg0) 0 0 [(0, 16, true)] ∧ localSound (run0 seg0) 0 0 [(0, 16)])
    ∧ (semBreach (cmd 0x31 [(8, [8])]) = some (8, 7) ∧ stands (cmd 0x31 [(8, [8])]) 0x31 = true)
    ∧ (∃ (s : State) (g : Seg) (w : SemWaitSt), s.seg 0 = some g ∧ g.semWait = [w] ∧ s.runs (partOf 0) = true ∧ w.chart = false ∧ w.opcode = 0x30
      ∧ w.due ≤ s.time ∧ semCond w.cond (s.rdLE w.addr 4) w.value = true)
    ∧ (∃ (s : State) (g : Seg) (w : SemWaitSt), s.seg 0 = some g ∧ g.semWait = [w] ∧ s.runs (partOf 0) = true ∧ w.chart = false ∧ w.opcode = 0x30
      ∧ w.due ≤ s.time ∧ w.met = true)
    ∧ (∃ (s : State) (g : Seg) (w : SemWaitSt), s.seg 0 = some g ∧ g.semWait = [w] ∧ w.opcode = 0x30 ∧ w.met = false
      ∧ semCond w.cond (s.rdLE w.addr 4) w.value = false)
    ∧ (∃ (s t : State) (g : Seg) (w : SemWaitSt), s.seg 0 = some g ∧ g.semWait = [w] ∧ s.runs (partOf 0) = true ∧ w.chart = false ∧ w.opcode = 0x32
      ∧ w.met = false ∧ semFirst s g.ctx w = true ∧ semAcquireAt s w.addr s.selfModule g.ctx w.value = some (t, true, false))
    ∧ (∃ (s : State) (g : Seg) (w : SemWaitSt), s.seg 0 = some g ∧ g.semWait = [w] ∧ s.runs (partOf 0) = true ∧ w.chart = false
      ∧ w.opcode = 0x32 ∧ w.met = true ∧ w.due ≤ s.time)
    ∧ (∃ (s : State) (g : Seg) (w : SemWaitSt), s.seg 0 = some g ∧ g.semWait = [w] ∧ w.opcode = 0x32 ∧ w.met = false
      ∧ semAcquireAt s w.addr s.selfModule g.ctx w.value = none) :=
  ⟨⟨{ (((run0 (has note8)).wrLE 0x2E 2 1).modPart 0 (fun p => { p with outqOk := true })) with force := [((WET.OUTQ_n.PAGES 0).key, 1)] },
      by decide, by decide, by decide, by decide, by decide, by decide, by decide⟩,
    by decide, ⟨rfl, sound_one (by decide)⟩, by decide,
    ⟨run0 (waits 0x30 id), _, _, rfl, rfl, by decide, by decide, by decide, by decide, by decide⟩,
    ⟨run0 (waits 0x30 (fun w => { w with met := true })), _, _, rfl, rfl, by decide, by decide, by decide, by decide, by decide⟩,
    ⟨run0 (waits 0x30 (fun w => { w with value := 1 })), _, _, rfl, rfl, by decide, by decide, by decide⟩,
    ⟨run0 (waits 0x32 id), _, _, _, rfl, rfl, by decide, by decide, by decide, by decide, by decide, rfl⟩,
    ⟨run0 (waits 0x32 (fun w => { w with met := true })), _, _, rfl, rfl, by decide, by decide, by decide, by decide, by decide⟩,
    ⟨((run0 (waits 0x32 id)).wrLE 0x100004 4 0x80004001).wrLE 0x100008 8 5, _, _, rfl, rfl, by decide, by decide, by decide⟩⟩

/-- A row operation that reads its record of marginalia, of which none is valid. -/
def soft16 : List Byte := cmd 0x12 [(0x0A, [1]), (0x12, [2]), (0x2A, [3]), (0x30, [1, 0, 7])]

theorem test_meets_RowOperations :
    ((run0 (has row16)).seg 0 = some (has row16) ∧ ready (run0 (has row16)) 0 0x12 = some (has row16, row16)
      ∧ ((run0 (has row16)).core 0).rowEng = none ∧ rowBreach row16 = none ∧ translated (run0 (has row16)) 0 0 [(roParam row16, 128, false)]
      ∧ localSound (run0 (has row16)) 0 0 [(roParam row16, 128)])
    ∧ (∃ p : List Byte, p = (objRead (run0 (has row16)) 0 0 (roParam row16) 128).1 ∧ rpShard p = 0
      ∧ paramBreach (run0 (has row16)) 0 0 row16 p = none ∧ translated (run0 (has row16)) 0 0 (rowRanges row16 p) ∧ readsMarg (roOp row16) = false)
    ∧ (stands (cmd 0x12 []) 0x12 = true ∧ rowBreach (cmd 0x12 []) = some (0, 7))
    ∧ (∃ (s : State) (o : RowOp), (s.core 0).rowEng = some o ∧ s.seg 0 = some seg0 ∧ s.advances (partOf 0) = true ∧ remoteDone s 0 o.work = true
      ∧ s.slot (partOf 0) < o.due)
    ∧ (∃ (s t : State) (o : RowOp), (s.core 0).rowEng = some o ∧ (s.core 0).rowEng.isSome = true ∧ s.seg 0 = some seg0 ∧ s.advances (partOf 0) = true
      ∧ remoteDone s 0 o.work = true ∧ o.due ≤ s.slot (partOf 0) ∧ localSound s 0 0 (rowSound o.cmd o.param)
      ∧ claimRanges 0 0 (((rowRanges o.cmd o.param).filterMap (fun r => if r.2.2 then some (r.1, r.2.1) else none)).map
          (fun r => if roOut o.cmd = 5 then (r.1, r.2 + ceilDiv (roD o.cmd) 32) else r)) s = .ok t) :=
  ⟨⟨by decide, by decide, by decide, by decide, rfl, sound_one (by decide)⟩, ⟨_, rfl, by decide, by decide, rfl, by decide⟩, by decide,
    ⟨(run0 seg0).modCore 0 (fun k => { k with rowEng := some ⟨0, row16, List.replicate 128 0, 1, 1, 5⟩ }), ⟨0, row16, List.replicate 128 0, 1, 1, 5⟩,
      by decide, by decide, by decide, by decide, by decide⟩,
    ⟨(((run0 seg0).wrLE 0x2C 2 4).modCore 0 (fun k => { k with rowEng := some ⟨0, row16, List.replicate 128 0, 1, 1, 0⟩ })).modPart 0 (fun p =>
        { p with pools := [[0x30], [], []], poolFree := [[0x30], [], []] }), _, ⟨0, row16, List.replicate 128 0, 1, 1, 0⟩,
      by decide, by decide, by decide, by decide, by decide, by decide, no_ranges (by decide), rfl⟩⟩

/-- SOFTMAX_FWD's record is not there: the check of R125 fails for a row that reads it. -/
theorem test_meets_RowOperations_marginalia :
    ∃ p : List Byte, p = (objRead (run0 (has soft16)) 0 0 (roParam soft16) 128).1 ∧ ready (run0 (has soft16)) 0 0x12 = some (has soft16, soft16)
      ∧ rowBreach soft16 = none ∧ paramBreach (run0 (has soft16)) 0 0 soft16 p = none ∧ translated (run0 (has soft16)) 0 0 (rowRanges soft16 p)
      ∧ readsMarg (roOp soft16) = true ∧ roMargAddr soft16 = false
      ∧ (List.range (roRows soft16)).all (margReadOk (run0 (has soft16)) 0 (has soft16) soft16 p) = false :=
  ⟨_, rfl, by decide, by decide, by decide, rfl, by decide, by decide, by decide⟩

/-- MATMULs that break a rule of their format, for an engine that accepts one and for no engine; a descriptor with a shard descriptor at the
start of object page 3, which is sound where its reserved bits are 0. -/
theorem test_meets_MatmulIssue_breaches :
    (ready (run0 (has (cmd 0x10 []))) 0 0x10 = some (has (cmd 0x10 []), cmd 0x10 []) ∧ mmTaker (run0 (has (cmd 0x10 []))) 0 (cmd 0x10 []) ≠ none
      ∧ engNamed (cmd 0x10 []) = true)
    ∧ (∃ b : List Byte, stands b 0x10 = true ∧ engNamed b = false)
    ∧ mmTaker ((pooled (has mm16)).modEng 0 0 (fun k => { k with run := some op1, pend := some op1 })) 0 mm16 = none :=
  ⟨by decide, ⟨cmd 0x10 [(1, [9])], by decide, by decide⟩, by decide⟩
def sharded (w : Nat) : State := ((wdt (has mmD) 5).wrLE 0x1B0 8 0x30000).wrLE 0x130000 16 w
theorem test_meets_MatmulIssue_shard :
    (∀ w ∈ [0, 2 ^ 82], (sharded w).wd (partOf 0) (mmBBase mmD % 4096) 0xB0 8 = 0x30000 ∧ ready (sharded w) 0 0x10 = some (has mmD, mmD)
      ∧ mmBreach (sharded w) (partOf 0) mmD none = none ∧ engFor (sharded w) 0 mmD = some 0)
    ∧ localSound (sharded 0) 0 0 [(0x30000, 16)] ∧ shardOk (sharded 0) 0 0 0x30000 = true ∧ shardOk (sharded (2 ^ 82)) 0 0 0x30000 = false
    ∧ (∃ (t : State) (h : Seg), resolveDesc (sharded 0) 0 (has mmD) (mmBBase mmD % 4096) = .slot 0 t ∧ t.seg 0 = some h ∧ h.ctx = (has mmD).ctx
      ∧ (mmResolve t 0 h mmD [] 0).kv = 0)
    ∧ (mmResolve (sharded 0x10001000100010) 0 (has mmD) mmD [] 0).kv = 16 ∧ shardOk (sharded 0x10001000100010) 0 0 0x30000 = true :=
  ⟨by decide, sound_one (by decide), by decide, by decide, ⟨_, _, rfl, rfl, by decide, by decide⟩, by decide, by decide⟩

/-- The control block in local memory that MB_BEGIN reads; STASH_PUT of page 3 from page 0, the mover full, and the quotas used up. -/
theorem test_meets_MicroBatchesAndStash_block :
    (stash (has mb5)).takeBlock 0 = stash (has mb5) ∧ localSound (stash (has mb5)) 0 0 [((stash (has mb5)).ctxRd 0 0x18 8, 16640)] :=
  ⟨by rfl, sound_one (by decide)⟩
def put3of0 : List Byte := splice put3 0x18 (toLE 8 0x20000)
theorem test_meets_MicroBatchesAndStash_put_source :
    ready (shelf (inMb put3of0)) 0 0x15 = some (inMb put3of0, put3of0) ∧ spSource put3of0 ≠ 0 ∧ moverFree (shelf (inMb put3of0)) 0 = true
    ∧ headerOk put3of0 = true ∧ zeroBytes put3of0 0x14 0x18 = true ∧ zeroBytes put3of0 0x20 0x40 = true
    ∧ moverFree ((shelf (inMb put3of0)).modCore 0 (fun k => { k with mover := [{ work := 0, cmd := put3 }, { work := 1, cmd := put3 }] })) 0 = false := by
  decide
/-- That shelf with nothing left of the quotas, and a reserve of T0 for it or no frame. -/
def bare (frames : Nat) : State := (((shelf (inMb put3)).wrLE 0x110000 8 0x10000).wrLE 0x110030 8 0x10000).wrLE 0x400C 4 frames
theorem test_meets_MicroBatchesAndStash_put_full :
    stashTier (bare 1) 0 (inMb put3) 65536 1 = none
    ∧ stashRd (bare 1) 0 (inMb put3) 0x18 8 + 65536 ≤ 65536 * (stashRd (bare 1) 0 (inMb put3) 0 8 / 65536)
    ∧ 1 ≤ (bare 1).stackCount (partOf 0) ((bare 1).ctxTenant 0) 0
    ∧ stashTier (bare 0) 0 (inMb put3) 65536 1 = none ∧ (bare 0).stackCount (partOf 0) ((bare 0).ctxTenant 0) 0 < 1 := by decide
/-- Page 3 is the second of three entries. -/
def three : State :=
  ((((stash (inMb free3)).wrLE (0x110000 + mbAt 0 + 4) 1 3).wrLE (0x110000 + stashEnt 0 0) 8 0x40000).wrLE (0x110000 + stashEnt 0 1) 8 0x30000).wrLE
    (0x110000 + stashEnt 0 2) 8 0x50000
theorem test_meets_MicroBatchesAndStash_free_second :
    (three.seg 0 = some (inMb free3) ∧ ready three 0 0x16 = some (inMb free3, free3) ∧ stashRd three 0 (inMb free3) (mbAt 0 + 4) 1 = 3
      ∧ stashRd three 0 (inMb free3) (stashEnt 0 1) 8 = fieldAt free3 8 8 ∧ stashRd three 0 (inMb free3) (stashEnt 0 0) 8 ≠ fieldAt free3 8 8)
    ∧ stashReads three 0 (inMb free3) = [(0x10000, 256), (0x10000 + mbAt 0, 512)] := by decide

/-- Gathers of a descriptor that is not there and of another length than its shard. -/
theorem test_meets_Copies_gather_faults :
    (∃ b : List Byte, stands b 0x20 = true ∧ copyBreach b = none ∧ cpWdesc b = true ∧ moverFree (run0 (has b)) 0 = true
      ∧ (run0 (has b)).descOk (partOf 0) (cpDst b % 4096) = false)
    ∧ (∃ b : List Byte, ready (wdt (has b) 5) 0 0x20 = some (has b, b) ∧ copyBreach b = none ∧ cpWdesc b = true
      ∧ (wdt (has b) 5).descOk (partOf 0) (cpDst b % 4096) = true
      ∧ cpLen b ≠ 64 + ((gatherParts (wdt (has b) 5) (partOf 0) (cpDst b % 4096) 0).map Prod.snd).sum) :=
  ⟨⟨cmd 0x20 [(0x10, [1]), (0x18, [64]), (0x1C, [17])], by decide, by decide, by decide, by decide, by decide⟩,
    ⟨cmd 0x20 [(0x10, [1]), (0x18, [0, 1]), (0x1C, [17])], by decide, by decide, by decide, by decide, by decide⟩⟩

/-- A semaphore command that names its semaphore over the Chart, with room in the queue. -/
def semOut (op : Byte) : List Byte := splice (semCmd op) 0x14 [4]
theorem test_meets_NotifyAndSemaphores_over_the_Chart :
    ∀ op : Byte, op ∈ [0x30, 0x31, 0x32, 0x33] → semBreach (semOut op) = none ∧ smChart (semOut op) = true
      ∧ semPlace (run0 (has (semOut op))) 0 0 (semOut op) = .there 0 ∧ stands (semOut op) op.toNat = true
      ∧ (has (semOut op)).outq + 128 ≤ 1024 * ((run0 (has (semOut op))).wrLE 0x2E 2 1).ctxRd 0 0x2E 2 := by decide

/-- A row operation with a shard descriptor at the start of object page 0; one whose record is there and valid. -/
def shard16 : State := (run0 (has row16)).wrLE 0x130028 8 0x10
theorem test_meets_RowOperations_shard :
    rpShard (objRead shard16 0 0 (roParam row16) 128).1 = 0x10 ∧ translated shard16 0 0 [(0x10, 16, false)] ∧ localSound shard16 0 0 [(0x10, 16)]
    ∧ stands row16 0x12 = true ∧ ((run0 (has row16)).modCore 0 (fun k => { k with rowEng := some ⟨0, row16, [], 1, 1, 5⟩ })).core 0
        ≠ (run0 (has row16)).core 0 :=
  ⟨by decide, rfl, sound_one (by decide), by decide, by decide⟩
/-- UPDATE of descriptor 1, and its form that sums squares to page 2. -/
def upd1 : List Byte := cmd 0x13 [(8, [1])]
def sumsq1 : List Byte := cmd 0x13 [(8, [1, 0x10]), (0x12, [2])]
/-- Descriptor 1 exists, all zeros. -/
def table (g : Seg) : State := { run0 g with force := [((TRN.WDT_LEN_n.ENTRIES 0).key, 2)] }

theorem test_meets_UpdatesAndSlotChanges :
    ((table (has sumsq1)).seg 0 = some (has sumsq1) ∧ ready (table (has sumsq1)) 0 0x13 = some (has sumsq1, sumsq1)
      ∧ ((table (has sumsq1)).core 0).upd = none ∧ updBreach (table (has sumsq1)) 0 sumsq1 = none ∧ upSumsq sumsq1 = true
      ∧ (table (has sumsq1)).wd (partOf 0) (upDesc sumsq1) 0xB0 8 = 0
      ∧ translated (table (has sumsq1)) 0 0 (((table (has sumsq1)).wd (partOf 0) (upDesc sumsq1) 0xA8 8, 32, false)
          :: updRanges (table (has sumsq1)) (partOf 0) (upDesc sumsq1) 0 sumsq1)
      ∧ localSound (table (has sumsq1)) 0 0 [((table (has sumsq1)).wd (partOf 0) (upDesc sumsq1) 0xA8 8, 32)])
    ∧ (updBreach (table (has upd1)) 0 upd1 = some (0, 7) ∧ upSumsq upd1 = false)
    ∧ updBreach ((table (has upd1)).wrLE 0x100 1 0x20) 0 upd1 = none
    ∧ (∃ (s : State) (u : UpdOp), (s.core 0).upd = some u ∧ (s.core 0).upd.isSome = true ∧ s.seg 0 = some seg0 ∧ s.advances (partOf 0) = true
      ∧ u.started = false ∧ gradLatched s (partOf 0) u.desc u.buf = false)
    ∧ (∃ (s : State) (g : Seg) (u : UpdOp), (s.core 0).upd = some u ∧ s.seg 0 = some g ∧ s.advances (partOf 0) = true ∧ u.started = false
      ∧ gradLatched s (partOf 0) u.desc u.buf = true)
    ∧ (∃ (s t : State) (u : UpdOp), (s.core 0).upd = some u ∧ s.seg 0 = some seg0 ∧ s.advances (partOf 0) = true ∧ u.started = true
      ∧ u.due ≤ s.slot (partOf 0) ∧ remoteDone s 0 u.work = true ∧ u.count ≠ 0 ∧ u.sumsq = true ∧ claimRanges 0 0 [(u.result, 4)] s = .ok t)
    ∧ (∀ q ∈ [true, false], ∃ (s : State) (u : UpdOp), (s.core 0).upd = some u ∧ s.seg 0 = some seg0 ∧ s.advances (partOf 0) = true ∧ u.started = true
      ∧ u.due ≤ s.slot (partOf 0) ∧ remoteDone s 0 u.work = true ∧ u.count = 0 ∧ u.sumsq = q)
    ∧ (∃ (s t : State) (u : UpdOp) (mc : Nat) (rs : List (Nat × Nat)), (s.core 0).upd = some u ∧ s.seg 0 = some seg0 ∧ s.advances (partOf 0) = true
      ∧ u.started = true ∧ u.due ≤ s.slot (partOf 0) ∧ remoteDone s 0 u.work = true ∧ u.count ≠ 0 ∧ u.sumsq = false
      ∧ mc = (if momBytes (wdMomFmt s (partOf 0) u.desc) = 0 then 0 else momCount (wdRecipe s (partOf 0) u.desc))
      ∧ rs = ([(0x60 + 8 * u.buf, 4), (0x40, 2), (0x48, 2)] ++ (if 1 ≤ mc then [(0x50, momBytes (wdMomFmt s (partOf 0) u.desc))] else [])
            ++ (if 2 ≤ mc then [(0x58, momBytes (wdMomFmt s (partOf 0) u.desc))] else [])).map (fun (r : Nat × Nat) =>
              (s.wd (partOf 0) u.desc r.1 8, s.wd (partOf 0) u.desc 8 4 * densePitch (s.wd (partOf 0) u.desc 0xC 4) r.2))
          ++ slotRanges s (partOf 0) u.desc (1 - s.recto (partOf 0) u.desc)
      ∧ claimRanges 0 0 rs s = .ok t)
    ∧ (∃ (s : State) (d e : Deferred), s.runs 0 = true ∧ (s.part 0).deferred = [d, e] ∧ slotLatched s 0 d.desc d.slot = true
      ∧ slotLatched s 0 e.desc e.slot = false) :=
  ⟨⟨by decide, by decide, by decide, by decide, by decide, by decide, rfl, sound_one (by decide)⟩, by decide, by decide,
    ⟨(run0 seg0).modCore 0 (fun k => { k with upd := some { work := 0, desc := 1, sumsq := true, result := 0, buf := 0 } }),
      { work := 0, desc := 1, sumsq := true, result := 0, buf := 0 }, by decide, by decide, by decide, by decide, by decide, by decide⟩,
    ⟨(run0 { seg0 with gradLatch := [(1, 0)] }).modCore 0 (fun k => { k with upd := some { work := 0, desc := 1, sumsq := true, result := 0, buf := 0 } }), _,
      { work := 0, desc := 1, sumsq := true, result := 0, buf := 0 }, by decide, rfl, by decide, by decide, by decide⟩,
    ⟨(((run0 seg0).wrLE 0x2C 2 4).modCore 0 (fun k => { k with upd := some { work := 0, desc := 1, sumsq := true, result := 0x20000, buf := 0, started := true, count := 1 } })).modPart 0
        (fun p => { p with pools := [[0x30], [], []], poolFree := [[0x30], [], []] }), _,
      { work := 0, desc := 1, sumsq := true, result := 0x20000, buf := 0, started := true, count := 1 }, by decide, by decide, by decide, by decide, by decide, by decide, by decide, by decide, rfl⟩,
    (fun q _ => by cases q <;> exact ⟨(run0 seg0).modCore 0 (fun k => { k with upd := some { work := 0, desc := 1, sumsq := _, result := 0, buf := 0, started := true } }), _,
      rfl, by decide, by decide, rfl, by decide, by decide, rfl, rfl⟩),
    ⟨(run0 seg0).modCore 0 (fun k => { k with upd := some { work := 0, desc := 1, sumsq := false, result := 0, buf := 0, started := true, count := 1 } }), _, _, _, _,
      rfl, by decide, by decide, rfl, by decide, by decide, by decide, rfl, rfl, rfl, rfl⟩,
    ⟨(run0 { seg0 with descLatch := [(1, 0)] }).modPart 0 (fun p => { p with deferred := [⟨1, 0, none, false, [], 0, false⟩, ⟨2, 0, none, false, [], 0, false⟩] }),
      ⟨1, 0, none, false, [], 0, false⟩, ⟨2, 0, none, false, [], 0, false⟩, by decide, by decide, by decide, by decide⟩⟩

/-- A packet for module 5. -/
def pkt5 : Packet := { pkt 1 with dst := 5 }
/-- Port 3's receiver holds it. -/
def boxed : State := rst.modLink (toLink 3) (fun l => { l with rx := [pkt5] })
theorem test_meets_PacketArrival :
    (rst.live = true ∧ pkt5.dst.toNat ≠ rst.selfModule ∧ rst.route pkt5.dst.toNat = some 0 ∧ rst.heldAt pkt5 = none)
    ∧ (boxed.live = true ∧ boxed.route pkt5.dst.toNat = some 0 ∧ boxed.heldAt pkt5 = some 3)
    ∧ ((pkt 1).dst.toNat = rst.selfModule ∧ malformed { pkt 1 with bad := true } = true)
    ∧ (∀ k ∈ [0, 1, 2], bits ({ pkt 1 with bad := true, aux := BitVec.ofNat 32 k } : Packet).aux.toNat 1 0 = k)
    ∧ (malformed (pkt 1) = false ∧ (pkt 1).opcode.toNat ≠ 0x10) := by decide

theorem test_meets_HomeServes :
    (∃ (e : GazEntry), home = home.unbox (pkt 1) ∧ serveAt home (nameOf (pkt 1).addr.toNat) = .at_ e ∧ arrivesHere home { pkt 1 with aux := 63 } 0x01
      ∧ lineRange { pkt 1 with aux := 63 } 64 = true ∧ home.parcelRange e 0 64 = true ∧ noErrors home (e.at_ + 0) 64)
    ∧ (∃ (e : GazEntry), home = home.unbox (pkt64 0x10) ∧ home = home.unbox (pkt64 0x11) ∧ serveAt home (nameOf (pkt64 0x10).addr.toNat) = .at_ e
      ∧ arrivesHere home (pkt64 0x10) 0x10 ∧ unseen home (pkt64 0x10) ∧ lineRange (pkt64 0x10) (pkt64 0x10).payload.length = true
      ∧ home.parcelRange e 0 (pkt64 0x10).payload.length = true ∧ arrivesHere home (pkt64 0x11) 0x11 ∧ unseen home (pkt64 0x11)
      ∧ home.parcelRange e 2097151 (pkt64 0x10).payload.length = false)
    ∧ (∃ s : State, s = s.unbox (pkt 1) ∧ serveAt s (nameOf (pkt 1).addr.toNat) = .no 3 100 0 0 ∧ arrivesHere s (pkt 1) 0x01)
    ∧ (∃ (s : State) (d : DupRec), s = s.unbox (pkt64 0x10) ∧ arrivesHere s (pkt64 0x10) 0x10 ∧ s.dupOf (pkt64 0x10) = some d)
    ∧ (∃ s : State, s.live = true ∧ malformed (pkt64 0x10) = false ∧ (pkt64 0x10).opcode.toNat = 0x10 ∧ 16384 ≤ s.chart.dups.length
      ∧ s.dupOf (pkt64 0x10) = none) :=
  ⟨⟨homed, rfl, rfl, by unfold arrivesHere; decide, by decide, by decide, no_errors (by decide)⟩,
    ⟨homed, rfl, rfl, rfl, by unfold arrivesHere; decide, by unfold unseen; decide, by decide, by decide, by unfold arrivesHere; decide, by unfold unseen; decide,
      by decide⟩,
    ⟨rst, rfl, rfl, by unfold arrivesHere; decide⟩,
    ⟨{ home with chart := { home.chart with dups := [⟨0, 0, 0, pkt 0x21, 0⟩] } }, _, rfl, by unfold arrivesHere; decide, rfl⟩,
    ⟨{ home with chart := { home.chart with dups := List.replicate 16384 ⟨1, 0, 0, pkt 0x21, 0⟩ } }, by decide, by decide, by decide,
      Nat.le_of_eq List.length_replicate.symm, List.find?_eq_none.mpr (fun x hx => by rw [List.eq_of_mem_replicate hx]; decide)⟩⟩
/-- A request on the semaphore at the start of the parcel. -/
def sem0 (op : BitVec 8) (f : List Byte) : Packet := { pkt op with len64 := 1, payload := f ++ List.replicate (64 - f.length) 0 }
/-- A held semaphore: module 0, context 0, lease end in bytes 8 to 15. -/
def held (until_ : Nat) : State := (home.wrLE 4 4 0x80000000).wrLE 8 8 until_

/-- A request that waits at that semaphore. -/
def wait1 : Waiter := { pkt := sem0 0x03 [], since := 0, at_ := 0, order := 0 }
def waiting (l : List Waiter) : State := { home with chart := { home.chart with waiters := l } }

theorem test_meets_HomeSemaphores :
    (serveAt home (nameOf (sem0 0x12 []).addr.toNat) = .at_ homed ∧ home.parcelRange homed 0 16 = true
      ∧ home.parcelRange homed (2097152 - 16) 16 = true ∧ home = home.unbox (sem0 0x12 []))
    ∧ (arrivesHere home (sem0 0x12 []) 0x12 ∧ unseen home (sem0 0x12 []))
    ∧ (arrivesHere (held 5) (sem0 0x13 []) 0x13 ∧ unseen (held 5) (sem0 0x13 []) ∧ leaseOf (held 5) 0 = .live
      ∧ heldByCtx (held 5) 0 0 (semCtxOf (sem0 0x13 [])) = true ∧ serveAt (held 5) 0 = .at_ homed)
    ∧ (arrivesHere home (sem0 0x13 []) 0x13 ∧ heldByCtx home 0 0 (semCtxOf (sem0 0x13 [])) = false)
    ∧ (∃ t, arrivesHere home (sem0 0x02 []) 0x02 ∧ semTry home (sem0 0x02 []) 0 = some t ∧ noErrors home 0 16)
    ∧ (arrivesHere home (sem0 0x02 [1]) 0x02 ∧ (semTry home (sem0 0x02 [1]) 0).isNone = true ∧ home.chart.waiters.length < 1024)
    ∧ (∃ t, arrivesHere home (sem0 0x03 []) 0x03 ∧ semQueued home (sem0 0x03 []) 0 (semOrder home) = false ∧ semTry home (sem0 0x03 []) 0 = some t)
    ∧ (arrivesHere (waiting [wait1]) (sem0 0x03 []) 0x03 ∧ semQueued (waiting [wait1]) (sem0 0x03 []) 0 (semOrder (waiting [wait1])) = true
      ∧ (waiting [wait1]).chart.waiters.length < 1024 ∧ serveAt (waiting [wait1]) 0 = .at_ homed ∧ noErrors (waiting [wait1]) 0 16)
    ∧ (arrivesHere home (sem0 0x04 []) 0x04 ∧ heldByCtx home 0 0 (semCtxOf (sem0 0x04 [])) = false)
    ∧ (arrivesHere (held 5) (sem0 0x04 []) 0x04 ∧ heldByCtx (held 5) 0 0 (semCtxOf (sem0 0x04 [])) = true)
    ∧ (∃ (s : State) (w : Waiter), s.live = true ∧ s.chart.waiters = [w]
      ∧ w.since + 800 * clamp 1 255 (s.inForce CHT.TIMERS2.SEM_HOLD_US) ≤ s.time) :=
  ⟨⟨rfl, by decide, by decide, rfl⟩, ⟨by unfold arrivesHere; decide, by unfold unseen; decide⟩,
    ⟨by unfold arrivesHere; decide, by unfold unseen; decide, by decide, by decide, rfl⟩, ⟨by unfold arrivesHere; decide, by decide⟩,
    ⟨_, by unfold arrivesHere; decide, rfl, no_errors (by decide)⟩, ⟨by unfold arrivesHere; decide, by decide, by decide⟩,
    ⟨_, by unfold arrivesHere; decide, by decide, rfl⟩,
    ⟨by unfold arrivesHere; decide, by decide, by decide, rfl, no_errors (by decide)⟩,
    ⟨by unfold arrivesHere; decide, by decide⟩, ⟨by unfold arrivesHere; decide, by decide⟩,
    ⟨{ (waiting [wait1]) with time := 204000 }, wait1, by decide, by decide, by decide⟩⟩

theorem test_meets_HomeSemaphores_full :
    (∃ s : State, arrivesHere s (sem0 0x02 [1]) 0x02 ∧ 1024 ≤ s.chart.waiters.length ∧ (semTry s (sem0 0x02 [1]) 0).isNone = true)
    ∧ (∃ s : State, arrivesHere s (sem0 0x03 []) 0x03 ∧ 1024 ≤ s.chart.waiters.length ∧ (semTry s (sem0 0x03 []) 0).isNone = true) :=
  ⟨⟨waiting (List.replicate 1024 wait1), by unfold arrivesHere; decide, Nat.le_of_eq List.length_replicate.symm, by decide⟩,
    ⟨(((waiting (List.replicate 1024 wait1)).wrLE 4 4 0x80004000).wrLE 8 8 5), by unfold arrivesHere; decide,
      Nat.le_of_eq List.length_replicate.symm, by decide⟩⟩

/-- A sequencer's read, a lapsed cancel, a copying ticket, a collective's piece, an ABORT to be sent. -/
def piece1 : Piece := ⟨1, 7, 0, 64, false, none, [], 0⟩
def run1 : CollRun := { core := 0, work := 0, ctx := 0, op := 0, id := 4, rank := 0, members := 2, next := 5, prev := 5, buffer := 0, chunk := 64, attempt := 0 }
def entry1 (k : OutKind) : OutEntry := { id := 0, core := 0, ctx := 0, charge := 128, state := .released, kind := k }
def queued (k : OutKind) : State := home.modPart 0 (fun p => { p with outq := [entry1 k] })

def aborting (f : Bool) : State := { home with chart := { home.chart with aborts := [(1, 2, 3, 0)], recs := [⟨1, 2, f, none, none⟩] } }

/-- The open Chart with a read of core 0 to be sent, and with a collective's piece to be sent; at full speed, or partition 0 at gate 4 in
a closed slot. -/
def reads : State := home.modCore 0 (fun k => { k with seg := some { seg0 with remote := [piece1] } })
def rings (free : Nat) : State := { (home.put (CHT.CREDITS_n.WRITE_FREE 0) free) with chart := { home.chart with runs := [run1] } }
def shut (s : State) : State := { s with time := 1, power := { s.power with gates := s.power.gates.set 0 4 } }

theorem test_meets_ChartSending_slots :
    (∀ s ∈ [reads, shut reads], s.live = true ∧ s.chartOpen = true ∧ (readyList s)[0]? = some (.piece 0 piece1))
    ∧ (∀ s ∈ [rings 5, rings 0, shut (rings 5)], s.live = true ∧ s.chartOpen = true ∧ (readyList s)[0]? = some (.coll 0 0) ∧ s.collOf 0 = some run1)
    ∧ reads.slotIsOpen 0 = true ∧ (shut reads).slotIsOpen 0 = false ∧ (rings 5).slotIsOpen 0 = true ∧ (shut (rings 5)).slotIsOpen 0 = false := by
  decide +kernel

theorem test_meets_ChartSending :
    (∃ s : State, s.live = true ∧ s.chartOpen = true ∧ (readyList s)[0]? = some (.piece 0 piece1))
    ∧ (∃ s : State, s.live = true ∧ s.chartOpen = true ∧ (readyList s)[0]? = some (.cancel 1 2 3))
    ∧ (∃ s : State, s.live = true ∧ s.chartOpen = true ∧ (readyList s)[0]? = some (.block 2)
      ∧ s.chart.outT.find? (fun t => t.slot == 2) = some tick1)
    ∧ (∃ (s : State) (k : Nat), s.live = true ∧ s.chartOpen = true ∧ (readyList s)[0]? = some (.coll 0 k) ∧ s.collOf 0 = some run1
      ∧ s.get (CHT.CREDITS_n.WRITE_FREE (partOf (toCore 0))) ≠ 0)
    ∧ (∀ f ∈ [false, true], (aborting f).live = true ∧ (aborting f).chartOpen = true ∧ (readyList (aborting f))[0]? = some (.abort 1 2 3 0)
      ∧ (aborting f).collRec 1 = some ⟨1, 2, f, none, none⟩)
    ∧ ((readyList home)[0]?.isNone = true ∧ rst.chartOpen = false)
    ∧ ((queued (.chartWrite 0 [] [])).part 0).outq = [entry1 (.chartWrite 0 [] [])]
    ∧ (OutKind.companion (.chartWrite 0 [] []) = false ∧ OutKind.last (.chartWrite 0 [] []) = false)
    ∧ (OutKind.companion (.semAdd 0 1) = false ∧ OutKind.last (.semAdd 0 1) = true
      ∧ (((queued (.semAdd 0 1)).modPart 0 (fun p => { p with failChart := true })).part 0).failChart = true)
    ∧ (OutKind.companion (.notify 0 0 false) = true ∧ OutKind.last (.notify 0 0 false) = true ∧ (queued (.notify 0 0 false)).attached = false
      ∧ (∃ s : State, (s.part 0).outq = [entry1 (.notify 0 0 false)] ∧ s.attached = true ∧ (s.part 0).failFrl = false ∧ (s.part 0).failChart = true))
    ∧ (OutKind.companion (.wrNc 0 [] []) = true ∧ OutKind.last (.wrNc 0 [] []) = false
      ∧ ((queued (.wrNc 0 [] [])).put FRL.STATUS.ATTACHED 1).attached = true) :=
  ⟨⟨home.modCore 0 (fun k => { k with seg := some { seg0 with remote := [piece1] } }), by decide, by decide, rfl⟩,
    ⟨{ home with cancels := [(1, 2, 3)] }, by decide, by decide, rfl⟩,
    ⟨{ home with chart := { home.chart with outT := [tick1] } }, by decide, by decide, rfl, rfl⟩,
    ⟨{ (home.put (CHT.CREDITS_n.WRITE_FREE 0) 5) with chart := { home.chart with runs := [run1] } }, 0, by decide, by decide, rfl, rfl, by decide⟩,
    by decide,
    by decide, by decide, by decide, by decide,
    ⟨by decide, by decide, by decide, ((queued (.notify 0 0 false)).put FRL.STATUS.ATTACHED 1).modPart 0 (fun p => { p with failChart := true }),
      by decide, by decide, by decide, by decide⟩, by decide⟩

/-- An outstanding request and an outstanding DIR message with the tag and NONCE of `pkt`. -/
def req1 (k : ReqKind) : CReq := { pkt := pkt 1, kind := k, first := 0, sent := 0 }
def dir1 (k : DirKind) : DirMsg := { pkt := pkt 0x39, kind := k, first := 0, sent := 0 }
def asks (k : ReqKind) : State := { home with chart := { home.chart with reqs := [req1 k] } }
def tells (k : DirKind) : State := { home with chart := { home.chart with dirs := [dir1 k] } }

/-- A release that waits for its acknowledgement; a semaphore round trip of core 0. -/
def reqF : CReq := { req1 (.queue 0 0) with pkt := pkt 0x13 }
def frees : State := { home with chart := { home.chart with reqs := [reqF] } }.modPart 0 (fun p => { p with outq := [entry1 (.semRelease 0)] })
def tripSeg (op : Nat) : Seg :=
  { seg0 with semWait := [⟨op, 0, 0, 0, true, 0, 0, 0, false⟩], remote := [{ space := 3, tag := (pkt64 0x22).tag.toNat, addr := 0, len := 0, sent := true }] }
def trips (op : Nat) : State := (asks (.sem 0)).modCore 0 (fun k => { k with seg := some (tripSeg op) })

/-- A queue's entry with its request outstanding. -/
def adds : State := (asks (.queue 0 0)).modPart 0 (fun p => { p with outq := [entry1 (.semAdd 0 1)] })

theorem test_meets_ChartAnswersAndTimers :
    (arrivesHere (asks (.read 3)) (pkt64 0x20) 0x20 ∧ (asks (.read 3)).reqFor (pkt64 0x20) = some (req1 (.read 3)))
    ∧ (home.reqFor (pkt64 0x20) = none ∧ arrivesHere home (pkt64 0x20) 0x20 ∧ arrivesHere home (pkt 0x21) 0x21 ∧ arrivesHere home (pkt64 0x22) 0x22)
    ∧ (arrivesHere adds (pkt 0x21) 0x21 ∧ adds.reqFor (pkt 0x21) = some (req1 (.queue 0 0)) ∧ (req1 (.queue 0 0)).pkt.opcode ≠ 0x13
      ∧ (((adds.forget (req1 (.queue 0 0))).creditBack 0).part (toPart 0)).outq.find? (fun e => e.id == 0) = some (entry1 (.semAdd 0 1)))
    ∧ (arrivesHere (asks (.parcel 2 0)) (pkt 0x21) 0x21 ∧ (asks (.parcel 2 0)).reqFor (pkt 0x21) = some (req1 (.parcel 2 0))) := by
  unfold arrivesHere; decide +kernel

/-- The acknowledgement that tells of a lost lease. -/
def lost : Packet := { pkt 0x21 with aux := 1 }

theorem test_meets_ChartAnswersAndTimers_leases :
    (∀ p ∈ [pkt 0x21, lost], arrivesHere frees p 0x21 ∧ frees.reqFor p = some reqF)
    ∧ bit (pkt 0x21).aux.toNat 0 = false ∧ bit lost.aux.toNat 0 = true
    ∧ reqF.kind = .queue 0 0 ∧ reqF.pkt.opcode = 0x13
    ∧ (((frees.forget reqF).creditBack 0).part (toPart 0)).outq.find? (fun e => e.id == 0) = some (entry1 (.semRelease 0)) :=
  ⟨by unfold arrivesHere; decide, by decide, by decide, by decide, by decide, by decide⟩

theorem test_meets_ChartAnswersAndTimers_semaphores : ∀ op ∈ [0x30, 0x32],
    arrivesHere (trips op) (pkt64 0x22) 0x22 ∧ (trips op).reqFor (pkt64 0x22) = some (req1 (.sem 0))
    ∧ (((trips op).forget (req1 (.sem 0))).reqBack 0).seg (toCore 0) = some (tripSeg op)
    ∧ (semOf (tripSeg op) (pkt64 0x22).tag.toNat).map (fun w => w.opcode) = some op := by
  intro op h
  refine ⟨?_, rfl, rfl, rfl⟩
  simp only [List.mem_cons, List.not_mem_nil, or_false] at h
  rcases h with rfl | rfl <;> · unfold arrivesHere; decide

/-- A NACK from module 5 for the ticket 9. -/
def nack9 : Packet := { pkt 0x23 with src := 5, nonce := 9 }
/-- The ticket 9 after the handover, and its parcel's entry, which sends on. -/
def fwd1 : OutTicket := { tick1 with phase := .forwarded }
def sentOn : GazEntry := { homed with st := .forward }
/-- A DIR_ACK that says REDIRECT. -/
def busy : Packet := { pkt 0x3F with status := 2 }

theorem test_meets_ChartAnswersAndTimers_nacks :
    (arrivesHere (asks (.read 3)) (pkt 0x23) 0x23 ∧ (asks (.read 3)).reqFor (pkt 0x23) = some (req1 (.read 3)))
    ∧ (arrivesHere (tells .plain) (pkt 0x23) 0x23 ∧ (tells .plain).reqFor (pkt 0x23) = none ∧ (tells .plain).dirFor (pkt 0x23) = some (dir1 .plain))
    ∧ (arrivesHere home (pkt 0x23) 0x23 ∧ home.reqFor (pkt 0x23) = none ∧ home.dirFor (pkt 0x23) = none ∧ home.refusedTicket (pkt 0x23) = none)
    ∧ (arrivesHere (gives fwd1 sentOn) nack9 0x23 ∧ (gives fwd1 sentOn).reqFor nack9 = none ∧ (gives fwd1 sentOn).dirFor nack9 = none
      ∧ (gives fwd1 sentOn).refusedTicket nack9 = some fwd1)
    ∧ (arrivesHere home (pkt 0x3F) 0x3F ∧ home.dirFor (pkt 0x3F) = none)
    ∧ (arrivesHere (tells (.ring 0)) (pkt 0x3F) 0x3F ∧ (tells (.ring 0)).dirFor (pkt 0x3F) = some (dir1 (.ring 0)))
    ∧ (∀ p ∈ [pkt 0x3F, busy], arrivesHere (tells .plain) p 0x3F ∧ (tells .plain).dirFor p = some (dir1 .plain))
    ∧ (pkt 0x3F).status.toNat ∉ [2, 3, 10, 11] ∧ busy.status.toNat ∈ [2, 3, 10, 11] := by
  unfold arrivesHere; decide +kernel

theorem test_meets_ChartAnswersAndTimers_times :
    (∃ (s : State) (r : CReq), s.live = true ∧ s.chart.reqs[0]? = some r ∧ r.again = none
      ∧ r.sent + 800 * clamp 10 10000 (s.inForce CHT.TIMERS.RESP_US) ≤ s.time)
    ∧ (∃ (s : State) (r : CReq), s.live = true ∧ s.chart.reqs[0]? = some r ∧ s.time < r.sent + 800 * clamp 10 10000 (s.inForce CHT.TIMERS.RESP_US))
    ∧ (∃ (s : State) (r : CReq), s.live = true ∧ s.chart.reqs[0]? = some r ∧ r.again = some 5 ∧ 5 ≤ s.time ∧ s.unavailOver r.first = false)
    ∧ (∃ (s : State) (r : CReq), s.live = true ∧ s.chart.reqs[0]? = some r ∧ r.again = some 5 ∧ 5 ≤ s.time ∧ s.unavailOver r.first = true)
    ∧ (∃ (s : State) (d : DirMsg), s.live = true ∧ s.chart.dirs[0]? = some d ∧ d.again = none
      ∧ d.sent + 800 * clamp 10 65535 (s.inForce CHT.DIR.DIR_US) ≤ s.time)
    ∧ (∃ (s : State) (d : DirMsg), s.live = true ∧ s.chart.dirs[0]? = some d ∧ d.kind = .plain ∧ d.again = some 5 ∧ 5 ≤ s.time
      ∧ s.unavailOver d.first = false) :=
  ⟨⟨{ (asks (.read 0)) with time := 8000000 }, _, by decide, rfl, by decide, by decide⟩, ⟨asks (.read 0), _, by decide, rfl, by decide⟩,
    ⟨{ rst with time := 5, chart := { rst.chart with reqs := [{ req1 (.read 0) with again := some 5 }] } }, _, by decide, rfl, by decide, by decide, by decide⟩,
    ⟨{ rst with time := 10 ^ 12, chart := { rst.chart with reqs := [{ req1 (.read 0) with again := some 5 }] } }, _, by decide, rfl, by decide, by decide, by decide⟩,
    ⟨{ (tells .plain) with time := 52428000 }, _, by decide, rfl, by decide, by decide⟩,
    ⟨{ rst with time := 5, chart := { rst.chart with dirs := [{ dir1 .plain with again := some 5 }] } }, _, by decide, rfl, by decide, by decide, by decide, by decide⟩⟩

/-- A segment on core 0 that has written line 3 of the page at 0. -/
def wetAt0 : State := run0 { seg0 with wet := [{ dry := 0, leaf := 0x500000, tier := 0, wet := 0x200000, filled := [3] }] }

theorem test_meets_ExternalWrite :
    (∀ s ∈ [home, wetAt0], (∀ n, ∀ d ∈ (s.part n).deferred, ∀ w ∈ d.pages, ¬(0x1FC < w.dry + 65536 ∧ w.dry < 0x1FC + 8)) ∧ s.errsIn 0x1FC 8 = [])
    ∧ 0x1FC % 4 = 0 ∧ (List.replicate 8 (7 : Byte)).length % 4 = 0 ∧ (∀ o ∈ [0, 4], o < 8)
    ∧ (∀ c, wroteWet home c 0x1FC 8 = false)
    ∧ wroteWet wetAt0 0 0x1FC 8 = true ∧ ∀ d, d ≠ 0 → wroteWet wetAt0 d 0x1FC 8 = false := by
  refine ⟨?_, by decide, by decide, by decide, by decide, by decide, by decide⟩
  intro s h
  simp only [List.mem_cons, List.not_mem_nil, or_false] at h
  rcases h with rfl | rfl <;> refine ⟨fun n d hd => ?_, by decide⟩ <;>
    · have : (∀ n : PartIx, (home.part n).deferred = []) ∧ ∀ n : PartIx, (wetAt0.part n).deferred = [] := by decide
      simp [this.1 n, this.2 n] at hd

/-- COLLECTIVE of the descriptor at the start of object page 0: a broadcast of rank 0 of 2, COLL_ID 4, chunks of 64 bytes, members at
page 1, the buffer at page 2. -/
def coll0 : List Byte := cmd 0x22 []
def ringed : State :=
  (((((((run0 (has coll0)).wrLE 0x100000 1 3).wrLE 0x100004 4 4).wrLE 0x100008 4 0x2000).wrLE 0x100010 8 0x10000).wrLE 0x100018 8 0x20000).wrLE 0x100020 4 64).wrLE
    0x110002 2 5

theorem test_meets_Collectives :
    (ringed.seg 0 = some (has coll0) ∧ ready ringed 0 0x22 = some (has coll0, coll0) ∧ plainOk coll0 0x10 = true ∧ (ringed.core 0).coll = none)
    ∧ (translated ringed 0 0 [(0, 64, false)] ∧ localSound ringed 0 0 [(0, 64)])
    ∧ (∃ d : List Byte, d = (objRead ringed 0 0 0 64).1 ∧ bits (fieldAt d 8 4) 11 0 = 0 ∧ bits (fieldAt d 8 4) 24 12 = 2
      ∧ zeroBits (fieldAt d 0 4) 31 2 = true ∧ zeroBits (fieldAt d 8 4) 31 25 = true ∧ zeroBytes d 0x24 0x40 = true
      ∧ (bits (fieldAt d 0 4) 1 0 = 0 ∨ bits (fieldAt d 0 4) 1 0 = 3) ∧ fieldAt d 4 4 = 4 ∧ fieldAt d 0x10 8 = 0x10000 ∧ fieldAt d 0x18 8 = 0x20000 ∧ fieldAt d 0x20 4 = 64)
    ∧ (translated ringed 0 0 [(0x10000, 4, false)] ∧ localSound ringed 0 0 [(0x10000, 4)] ∧ translated ringed 0 0 [(0x20000, 128, true)])
    ∧ (plainOk (cmd 0x22 [(16, [1])]) 0x10 = false ∧ stands (cmd 0x22 [(16, [1])]) 0x22 = true)
    ∧ (((ringed.modCore 0 (fun k => { k with coll := some { work := 0, id := 4 } })).core 0).coll.isSome = true
      ∧ ready (ringed.modCore 0 (fun k => { k with coll := some { work := 0, id := 4 } })) 0 0x22 = some (has coll0, coll0))
    ∧ (bits (fieldAt (objRead ringed 0 0 0x10000 4).1 0 2) 11 0 = ringed.selfModule ∧ bufferFar ringed 0 0 0x20000 128 = false) :=
  ⟨by decide, ⟨one_cached (page_cached (by decide)), sound_one (by decide)⟩, ⟨_, rfl, by decide⟩,
    ⟨one_cached (page_cached (by decide)), sound_one (by decide), one_cached (page_cached (by decide))⟩, by decide, by decide, by decide⟩

/-- The same as a gather (OP 1), with this module or another first in the ring; with its buffer in page 4, which lies in the Chart. -/
def gathers (op first : Nat) : State := (ringed.wrLE 0x100000 1 op).wrLE 0x110000 2 first
def buffers : State := (((ringed.wrLE 0x100000 1 1).wrLE 0x100018 8 0x40000)).modCore 0
  (fun k => { k with tcache := ⟨0, 4, 0x500020, 0x1000F⟩ :: k.tcache })

theorem test_meets_Collectives_kinds :
    (∀ s ∈ [gathers 1 0, gathers 2 0, gathers 1 7, gathers 0 0, ringed], s.seg 0 = some (has coll0) ∧ ready s 0 0x22 = some (has coll0, coll0)
      ∧ (s.core 0).coll = none)
    ∧ (∀ o ∈ [0, 1, 2], bits (fieldAt (objRead (gathers o 0) 0 0 0 64).1 0 4) 1 0 = o)
    ∧ (∀ o ∈ [1, 2], bits (fieldAt (objRead (gathers o 0) 0 0 0x10000 4).1 0 2) 11 0 = (gathers o 0).selfModule
      ∧ bufferFar (gathers o 0) 0 0 0x20000 128 = false)
    ∧ bits (fieldAt (objRead (gathers 1 7) 0 0 0x10000 4).1 0 2) 11 0 ≠ (gathers 1 7).selfModule := by
  decide +kernel

theorem test_meets_Collectives_touched :
    (translated (gathers 1 0) 0 0 [(0, 64, false)] ∧ localSound (gathers 1 0) 0 0 [(0, 64)])
    ∧ (translated (gathers 1 0) 0 0 [(0x10000, 4, false)] ∧ localSound (gathers 1 0) 0 0 [(0x10000, 4)]
      ∧ translated (gathers 1 0) 0 0 [(0x20000, 128, true)]) :=
  ⟨⟨one_cached (page_cached (by decide)), sound_one (by decide)⟩,
    ⟨one_cached (page_cached (by decide)), sound_one (by decide), one_cached (page_cached (by decide))⟩⟩

theorem test_meets_Collectives_far :
    buffers.seg 0 = some (has coll0) ∧ ready buffers 0 0x22 = some (has coll0, coll0) ∧ (buffers.core 0).coll = none
    ∧ (translated buffers 0 0 [(0, 64, false)] ∧ localSound buffers 0 0 [(0, 64)])
    ∧ (translated buffers 0 0 [(0x10000, 4, false)] ∧ localSound buffers 0 0 [(0x10000, 4)] ∧ translated buffers 0 0 [(0x40000, 128, true)])
    ∧ bufferFar buffers 0 0 0x40000 128 = true ∧ fieldAt (objRead buffers 0 0 0 64).1 0x18 8 = 0x40000 :=
  ⟨by decide, by decide, by decide, ⟨one_cached (page_cached (by decide)), sound_one (by decide)⟩,
    ⟨one_cached (page_cached (by decide)), sound_one (by decide), one_cached (page_cached (by decide))⟩, by decide, by decide⟩

theorem test_meets_Collectives_packets :
    (∃ (s : State) (p : Packet), s.seg 0 = some seg0 ∧ arrivesHere s p 0x15 ∧ unseen s p ∧ s.chartOpen = true
      ∧ s.collId (bits p.addr.toNat 31 0) = some run1 ∧ bits p.addr.toNat 47 32 = run1.attempt)
    ∧ (∃ (s : State) (p : Packet), arrivesHere s p 0x15 ∧ s.collId (bits p.addr.toNat 31 0) = some run1 ∧ bits p.addr.toNat 47 32 ≠ run1.attempt
      ∧ newer (bits p.addr.toNat 47 32) run1.attempt = false)
    ∧ (∃ (s : State) (p : Packet) (x : CollRun), arrivesHere s p 0x15 ∧ unseen s p ∧ s.collId (bits p.addr.toNat 31 0) = some run1
      ∧ bits p.addr.toNat 47 32 = 1 ∧ newer 1 run1.attempt = true ∧ (s.collRestart run1 1).collId (bits p.addr.toNat 31 0) = some x)
    ∧ (∃ (s : State) (p : Packet), arrivesHere s p 0x3E ∧ bits p.aux.toNat 1 0 = 0 ∧ s.collId (bits p.addr.toNat 31 0) = none
      ∧ s.collRec (bits p.addr.toNat 31 0) = none)
    ∧ (∃ (s : State) (p : Packet), arrivesHere s p 0x3E ∧ bits p.aux.toNat 1 0 = 0 ∧ s.collId (bits p.addr.toNat 31 0) = some run1
      ∧ newer (bits p.aux.toNat 31 16) run1.attempt = false)
    ∧ (∃ (s : State) (p : Packet), arrivesHere s p 0x3E ∧ bits p.aux.toNat 1 0 = 1 ∧ s.collId (bits p.addr.toNat 31 0) = none)
    ∧ (∃ (s : State) (p : Packet) (r : CollRun), arrivesHere s p 0x3E ∧ bits p.aux.toNat 1 0 = 1 ∧ s.collId (bits p.addr.toNat 31 0) = some r
      ∧ bits p.aux.toNat 31 16 = r.attempt ∧ r.rank = 0 ∧ r.passed = true)
    ∧ (∃ (s : State) (p : Packet) (k : CollRec), arrivesHere s p 0x3E ∧ bits p.aux.toNat 1 0 = 2 ∧ s.collRec (bits p.addr.toNat 31 0) = some k
      ∧ k.fin = false)
    ∧ (∃ (s : State) (p : Packet) (k : CollRec), arrivesHere s p 0x3E ∧ bits p.aux.toNat 1 0 = 2 ∧ s.collRec (bits p.addr.toNat 31 0) = some k
      ∧ k.fin = true)
    ∧ (∃ (s : State) (p : Packet), arrivesHere s p 0x3E ∧ bits p.aux.toNat 1 0 = 2 ∧ s.collRec (bits p.addr.toNat 31 0) = none)
    ∧ (∃ (s : State) (p : Packet) (r : CollRun), arrivesHere s p 0x3E ∧ bits p.aux.toNat 1 0 = 1 ∧ s.collId (bits p.addr.toNat 31 0) = some r
      ∧ bits p.aux.toNat 31 16 = r.attempt ∧ r.rank ≠ 0)
    ∧ (∃ (s : State) (p : Packet) (d : Nat), arrivesHere s p 0x3E ∧ bits p.aux.toNat 1 0 = 0 ∧ s.collId (bits p.addr.toNat 31 0) = some run1
      ∧ newer (bits p.aux.toNat 31 16) run1.attempt = true ∧ run1.fin = false ∧ onward p (some run1.next) (some run1.prev) = some d) :=
  ⟨⟨{ (home.modCore 0 (fun k => { k with seg := some seg0 })) with chart := { home.chart with runs := [run1] } }, { pkt64 0x15 with addr := 4 },
      by decide, by unfold arrivesHere; decide, by unfold unseen; decide, by decide, by decide, by decide⟩,
    ⟨{ home with chart := { home.chart with runs := [run1] } }, { pkt64 0x15 with addr := 0x800000000004 }, by unfold arrivesHere; decide, by decide, by decide, by decide⟩,
    ⟨{ home with chart := { home.chart with runs := [run1] } }, { pkt64 0x15 with addr := 0x100000004 }, _, by unfold arrivesHere; decide, by unfold unseen; decide,
      by decide, by decide, by decide, rfl⟩,
    ⟨home, { pkt 0x3E with addr := 4 }, by unfold arrivesHere; decide, by decide, by decide, by decide⟩,
    ⟨{ home with chart := { home.chart with runs := [run1] } }, { pkt 0x3E with addr := 4 }, by unfold arrivesHere; decide, by decide, by decide, by decide⟩,
    ⟨home, { pkt 0x3E with aux := 1 }, by unfold arrivesHere; decide, by decide, by decide⟩,
    ⟨{ home with chart := { home.chart with runs := [{ run1 with passed := true }] } }, { pkt 0x3E with addr := 4, aux := 1 }, _, by unfold arrivesHere; decide, by decide, rfl, by decide, by decide, by decide⟩,
    ⟨{ home with chart := { home.chart with recs := [⟨4, 0, false, some 5, none⟩] } }, { pkt 0x3E with addr := 4, aux := 2 }, _, by unfold arrivesHere; decide, by decide, rfl, by decide⟩,
    ⟨{ home with chart := { home.chart with recs := [⟨4, 0, true, some 5, none⟩] } }, { pkt 0x3E with addr := 4, aux := 2 }, _, by unfold arrivesHere; decide, by decide, rfl, by decide⟩,
    ⟨home, { pkt 0x3E with addr := 4, aux := 2 }, by unfold arrivesHere; decide, by decide, by decide⟩,
    ⟨{ home with chart := { home.chart with runs := [{ run1 with rank := 1 }] } }, { pkt 0x3E with addr := 4, aux := 1 }, { run1 with rank := 1 }, by unfold arrivesHere; decide, by decide, by decide, by decide, by decide⟩,
    ⟨{ home with chart := { home.chart with runs := [run1] } }, { pkt 0x3E with addr := 4, aux := 0x10000 }, _, by unfold arrivesHere; decide, by decide, by decide, by decide, by decide, rfl⟩⟩

theorem test_meets_TicketHandover_requests :
    (arrivesHere rst (pkt 0x30) 0x30 ∧ rst.chartOpen = false)
    ∧ (arrivesHere home { pkt 0x30 with addr := 0x200000 } 0x30 ∧ home.chartOpen = true ∧ home.gazAt (pktName { pkt 0x30 with addr := 0x200000 }) = none)
    ∧ (arrivesHere home (pkt 0x30) 0x30 ∧ home.gazAt (pktName (pkt 0x30)) = some homed ∧ homed.st = .home ∧ home.outOf (pktName (pkt 0x30)) = none)
    ∧ (arrivesHere (gives tick1 homed) (pkt 0x30) 0x30 ∧ (gives tick1 homed).gazAt (pktName (pkt 0x30)) = some homed
      ∧ (gives tick1 homed).outOf (pktName (pkt 0x30)) = some tick1)
    ∧ (arrivesHere (knows { homed with st := .prepared }) (pkt 0x30) 0x30
      ∧ (knows { homed with st := .prepared }).gazAt (pktName (pkt 0x30)) = some { homed with st := .prepared })
    ∧ (arrivesHere (knows { homed with st := .lost }) (pkt 0x30) 0x30
      ∧ (knows { homed with st := .lost }).gazAt (pktName (pkt 0x30)) = some { homed with st := .lost }) := by
  unfold arrivesHere; decide

theorem test_meets_TicketHandover_offers :
    (arrivesHere rst (pkt 0x31) 0x31 ∧ rst.chartOpen = false)
    ∧ (arrivesHere home (pkt 0x31) 0x31 ∧ home.chartOpen = true ∧ home.inId (tkId (pkt 0x31)) = none ∧ absent (home.gazAt (pktName (pkt 0x31))) = false)
    ∧ (∃ (s : State) (b : Nat) (t : State), arrivesHere s (pkt 0x31) 0x31 ∧ s.chartOpen = true ∧ s.inId (tkId (pkt 0x31)) = none
      ∧ absent (s.gazAt (pktName (pkt 0x31))) = true ∧ ((s.gazAt (pktName (pkt 0x31))).isSome || s.hasWay (pktName (pkt 0x31))) = true
      ∧ (List.range 64).find? (fun i => s.chart.inT.all (fun t => t.slot != i)) = some 0
      ∧ s.slotRefusal (toPart (tkPart (pkt 0x31))) (tkTier (pkt 0x31)) true = none
      ∧ s.popHost (toPart (tkPart (pkt 0x31))) (tkTier (pkt 0x31)) = some (b, t)) :=
  ⟨by unfold arrivesHere; decide, by unfold arrivesHere; decide,
    ⟨{ (home.put (hostCount 0 0) 1) with chart := { home.chart with gaz := [] } }, _, _, by unfold arrivesHere; decide, by decide, by decide, by decide, by decide, by decide,
      by decide, rfl⟩⟩

theorem test_meets_TicketHandover_answers :
    (arrivesHere (gives { tick1 with phase := .offered } homed) (dir9 0x32) 0x32
      ∧ (gives { tick1 with phase := .offered } homed).outId (dir9 0x32).nonce.toNat = some { tick1 with phase := .offered } ∧ (dir9 0x32).status = 0
      ∧ ({ dir9 0x32 with status := 3 } : Packet).status.toNat ≠ 0)
    ∧ (arrivesHere (gives { tick1 with phase := .forwarded } homed) (dir9 0x32) 0x32
      ∧ (gives { tick1 with phase := .forwarded } homed).outId (dir9 0x32).nonce.toNat = some { tick1 with phase := .forwarded })
    ∧ (∃ (t : InTicket) (e : GazEntry), arrivesHere (gets { homed with st := .receiving }) (dir9 0x33) 0x33 ∧ (gets { homed with st := .receiving }).chartOpen = true
      ∧ (gets { homed with st := .receiving }).inId (dir9 0x33).nonce.toNat = some t ∧ (gets { homed with st := .receiving }).gazAt (pktName (dir9 0x33)) = some e
      ∧ e.st = .receiving)
    ∧ (arrivesHere home (dir9 0x33) 0x33 ∧ home.inId (dir9 0x33).nonce.toNat = none
      ∧ ({ home with chart := { home.chart with doneIn := [9] } } : State).chart.doneIn.contains (dir9 0x33).nonce.toNat = true)
    ∧ (home.chart.doneIn.contains (dir9 0x33).nonce.toNat = false
      ∧ absent (({ home with chart := { home.chart with gaz := [] } } : State).gazAt (pktName (dir9 0x33))) = true) :=
  ⟨by unfold arrivesHere; decide, by unfold arrivesHere; decide, ⟨_, _, by unfold arrivesHere; decide, by decide, rfl, rfl, by decide⟩,
    by unfold arrivesHere; decide, by decide⟩

theorem test_meets_TicketHandover_ends :
    (arrivesHere (gives { tick1 with phase := .frozen } homed) (dir9 0x34) 0x34
      ∧ (gives { tick1 with phase := .frozen } homed).outId (dir9 0x34).nonce.toNat = some { tick1 with phase := .frozen })
    ∧ (arrivesHere (gives tick1 homed) (dir9 0x34) 0x34 ∧ (gives tick1 homed).outId (dir9 0x34).nonce.toNat = some tick1 ∧ tick1.phase ≠ .frozen)
    ∧ (∃ (t : InTicket) (e : GazEntry), arrivesHere (gets { homed with st := .prepared }) (dir9 0x35) 0x35 ∧ (gets { homed with st := .prepared }).chartOpen = true
      ∧ (gets { homed with st := .prepared }).inId (dir9 0x35).nonce.toNat = some t ∧ (gets { homed with st := .prepared }).gazAt (pktName (dir9 0x35)) = some e
      ∧ e.st = .prepared)
    ∧ (arrivesHere (gives { tick1 with phase := .forwarded } homed) (dir9 0x36) 0x36
      ∧ (gives { tick1 with phase := .forwarded } homed).outId (dir9 0x36).nonce.toNat = some { tick1 with phase := .forwarded })
    ∧ (arrivesHere (gives tick1 homed) (dir9 0x36) 0x36 ∧ tick1.phase ≠ .forwarded) :=
  ⟨by unfold arrivesHere; decide, by unfold arrivesHere; decide, ⟨_, _, by unfold arrivesHere; decide, by decide, rfl, rfl, by decide⟩,
    by unfold arrivesHere; decide, by unfold arrivesHere; decide⟩

theorem test_meets_TicketMessages_1 :
    (∃ (t : InTicket) (e : GazEntry), arrivesHere (gets { homed with st := .receiving }) (dir9 0x37) 0x37
      ∧ (gets { homed with st := .receiving }).inId (dir9 0x37).nonce.toNat = some t ∧ (gets { homed with st := .receiving }).gazAt (pktName (dir9 0x37)) = some e
      ∧ e.st = .receiving)
    ∧ (∃ (t : InTicket), arrivesHere (gets homed) (dir9 0x37) 0x37 ∧ (gets homed).inId (dir9 0x37).nonce.toNat = some t
      ∧ (gets homed).gazAt (pktName (dir9 0x37)) = some homed ∧ homed.st = .home)
    ∧ (arrivesHere home (pkt 0x38) 0x38 ∧ home.gazAt (pktName (pkt 0x38)) = some homed ∧ rst.gazAt (pktName (pkt 0x38)) = none ∧ arrivesHere rst (pkt 0x38) 0x38)
    ∧ (∃ (t : InTicket) (e : GazEntry), arrivesHere (gets { homed with st := .prepared }) { dir9 0x39 with aux := 2 } 0x39
      ∧ (gets { homed with st := .prepared }).inId 9 = some t ∧ (gets { homed with st := .prepared }).gazAt 0 = some e ∧ e.st = .prepared
      ∧ bits ({ dir9 0x39 with aux := 2 } : Packet).aux.toNat 2 0 = 2 ∧ bits ({ dir9 0x39 with aux := 2 } : Packet).aux.toNat 14 3 = (gets homed).selfModule)
    ∧ (arrivesHere (gets { homed with st := .prepared }) (dir9 0x39) 0x39 ∧ bits (dir9 0x39).aux.toNat 2 0 ≠ 2)
    ∧ (∃ (t : InTicket), arrivesHere (gets { homed with st := .receiving }) { pkt64 0x14 with src := 5 } 0x14 ∧ unseen (gets { homed with st := .receiving }) { pkt64 0x14 with src := 5 }
      ∧ (gets { homed with st := .receiving }).chartOpen = true ∧ (gets { homed with st := .receiving }).inOf 0 = some t ∧ t.src = 5
      ∧ (gets { homed with st := .receiving }).storageOut 0 = false ∧ t.src ≠ (pkt64 0x14).src.toNat ∧ arrivesHere (gets { homed with st := .receiving }) (pkt64 0x14) 0x14) :=
  ⟨⟨_, _, by unfold arrivesHere; decide, rfl, rfl, by decide⟩, ⟨_, by unfold arrivesHere; decide, rfl, by decide, by decide⟩, by unfold arrivesHere; decide,
    ⟨_, _, by unfold arrivesHere; decide, rfl, rfl, by decide, by decide, by decide⟩, by unfold arrivesHere; decide,
    ⟨_, by unfold arrivesHere; decide, by unfold unseen; decide, by decide, rfl, by decide, by decide, by decide, by unfold arrivesHere; decide⟩⟩

theorem test_meets_TicketMessages_2 :
    (∃ e : GazEntry, arrivesHere (knows { homed with st := .forward }) { pkt 0x3A with epoch := 1 } 0x3A ∧ (knows { homed with st := .forward }).gazAt 0 = some e
      ∧ e.st = .forward ∧ e.origin = true ∧ newer 1 e.epoch = true ∧ newer (pkt 0x3A).epoch.toNat e.epoch = false)
    ∧ (∃ e : GazEntry, arrivesHere (knows { homed with st := .forward }) (pkt 0x3B) 0x3B ∧ (knows { homed with st := .forward }).gazAt 0 = some e
      ∧ e.st = .forward ∧ e.origin = true ∧ newer e.epoch (pkt 0x3B).epoch.toNat = false)
    ∧ (arrivesHere home (pkt 0x3B) 0x3B ∧ home.gazAt (pktName (pkt 0x3B)) = some homed)
    ∧ (∃ (s : State) (e : RingEnt), arrivesHere s (dir9 0x3C) 0x3C ∧ s.chart.ring.find? (fun e => e.id == (dir9 0x3C).nonce.toNat && !e.final) = some e)
    ∧ (∃ (s : State) (e : RingEnt), arrivesHere s (dir9 0x3D) 0x3D
      ∧ s.chart.ring.find? (fun e => e.id == (dir9 0x3D).nonce.toNat && e.wait && !e.final) = some e)
    ∧ (arrivesHere home (dir9 0x3C) 0x3C ∧ arrivesHere home (dir9 0x3D) 0x3D ∧ home.chart.ring = []) :=
  ⟨⟨_, by unfold arrivesHere; decide, rfl, by decide, by decide, by decide, by decide⟩,
    ⟨_, by unfold arrivesHere; decide, rfl, by decide, by decide, by decide⟩, by unfold arrivesHere; decide,
    ⟨{ home with chart := { home.chart with ring := [⟨0, 9, false, false⟩] } }, _, by unfold arrivesHere; decide, rfl⟩,
    ⟨{ home with chart := { home.chart with ring := [⟨0, 9, true, false⟩] } }, _, by unfold arrivesHere; decide, rfl⟩, by unfold arrivesHere; decide⟩

/-- A ticket ring of 16 entries at 0x8000 in T0 with one entry taken up by nobody yet. -/
def ringOf (kind : Nat) : State :=
  { ((home.put GAZ.TRING_TAIL.INDEX 1).wrLE 0x8008 4 kind) with force := [(GAZ.TRING_BASE.BASE.key, 0x400), (GAZ.TRING_CTL.LOG2.key, 4)] }

theorem test_meets_TicketMessages_3 :
    ((ringOf 0x10000).live = true ∧ (ringOf 0x10000).chartOpen = true
      ∧ 0 % (ringOf 0x10000).tringSize ≠ (ringOf 0x10000).get GAZ.TRING_TAIL.INDEX % (ringOf 0x10000).tringSize
      ∧ ((ringOf 0x10000).chart.ring.filter (fun e => !e.final)).length < 16 ∧ (ringOf 0x10000).chart.taken < (ringOf 0x10000).tringSize
      ∧ 0 = ((ringOf 0x10000).get GAZ.TRING_HEAD.INDEX + (ringOf 0x10000).chart.taken) % 65536)
    ∧ (bits ((ringOf 0x10000).rdLE ((ringOf 0x10000).tringAt 0 + 8) 4) 15 14 ≠ 3 ∧ bits ((ringOf 0x10000).rdLE ((ringOf 0x10000).tringAt 0 + 8) 4) 17 16 = 1
      ∧ (ringOf 0x10000).rdLE ((ringOf 0x10000).tringAt 0) 8 % 2097152 = 0)
    ∧ bits ((ringOf 0xC000).rdLE ((ringOf 0xC000).tringAt 0 + 8) 4) 15 14 = 3
    ∧ (∃ (s : State) (t : InTicket) (e : GazEntry), s.live = true ∧ s.inOf 0 = some t ∧ s.gazAt 0 = some e ∧ e.st = .receiving
      ∧ t.last + 800 * clamp 10 65535 (s.inForce CHT.DIR.DIR_US) * (clamp 1 255 (s.inForce CHT.TIMERS2.DIR_RETRIES) + 1) ≤ s.time)
    ∧ (∃ (s : State) (t : InTicket) (e : GazEntry), s.live = true ∧ s.inOf 0 = some t ∧ s.gazAt 0 = some e ∧ e.st = .prepared
      ∧ e.time + 800 * clamp 10 65535 (s.inForce CHT.DIR.DIR_US) ≤ s.time ∧ s.chart.dirs = []) :=
  ⟨by decide, by decide, by decide, ⟨{ gets { homed with st := .receiving } with time := 10 ^ 12 }, _, _, by decide, rfl, rfl, by decide, by decide⟩,
    ⟨{ gets { homed with st := .prepared } with time := 10 ^ 12 }, _, _, by decide, rfl, rfl, by decide, by decide, by decide⟩⟩

/-- The Chart closed, and the states of an entry that no other witness has. -/
def query3 : Packet := { pkt 0x39 with status := 3 }
theorem test_meets_Tickets_closed_and_states :
    (rst.chartOpen = false ∧ arrivesHere rst (pkt 0x33) 0x33 ∧ arrivesHere rst (pkt 0x35) 0x35 ∧ arrivesHere rst (pkt 0x37) 0x37
      ∧ arrivesHere rst (pkt 0x38) 0x38 ∧ arrivesHere rst (pkt 0x3C) 0x3C ∧ arrivesHere rst (pkt 0x3D) 0x3D)
    ∧ (∀ st ∈ [GazSt.forward, .receiving, .prepared, .inDoubt, .lost], arrivesHere (knows { homed with st := st }) (pkt 0x30) 0x30
      ∧ (knows { homed with st := st }).gazAt (pktName (pkt 0x30)) = some { homed with st := st })
    ∧ (∀ st ∈ [GazSt.inDoubt, .receiving], arrivesHere (gets { homed with st := st }) (dir9 0x35) 0x35
      ∧ ((gets { homed with st := st }).inId (dir9 0x35).nonce.toNat).isSome = true ∧ (gets { homed with st := st }).chartOpen = true
      ∧ (gets { homed with st := st }).gazAt (pktName (dir9 0x35)) = some { homed with st := st })
    ∧ (arrivesHere (tells .plain) query3 0x39 ∧ query3.status ≠ 0 ∧ (tells .plain).dirFor query3 = some (dir1 .plain))
    ∧ (((ringOf 0x10000).wrLE 0x8000 8 1).rdLE (((ringOf 0x10000).wrLE 0x8000 8 1).tringAt 0) 8 % 2097152 ≠ 0
      ∧ bits ((ringOf 0x20000).rdLE ((ringOf 0x20000).tringAt 0 + 8) 4) 17 16 = 2) := by
  unfold arrivesHere; decide

/-- A lift whose wet pages have been filled, and one that has flipped. -/
def begun1 : Seg := { seg0 with lift := some ⟨0, 0, false, false, true, false, 0⟩ }
def atC1 : Seg := { seg0 with lift := some ⟨0, 0, true, false, true, true, 0⟩ }
def flipped1 : Seg := { seg0 with lift := some ⟨0, 0, true, false, true, false, 0⟩ }

theorem test_meets_LiftsHoldsAndKills_lifts :
    (∃ (g : Seg) (l : LiftSt), (run0 g).advances (partOf 0) = true ∧ (run0 g).seg 0 = some g ∧ g.lift = some l ∧ l.begun = false ∧ g.work = [])
    ∧ (∃ (g : Seg) (l : LiftSt), (run0 g).seg 0 = some g ∧ g.lift = some l ∧ g.work ≠ [])
    ∧ (∃ l : LiftSt, (run0 begun1).seg 0 = some begun1 ∧ begun1.lift = some l ∧ l.begun = true ∧ l.flipped = false ∧ l.dueC ≤ (run0 begun1).slot (partOf 0)
      ∧ killDue (run0 begun1) 0 = false ∧ failedRelease (run0 begun1) begun1 = none)
    ∧ (∃ (g : Seg) (l : LiftSt) (o : SemOp), (run0 g).seg 0 = some g ∧ g.lift = some l ∧ l.begun = true ∧ l.flipped = false
      ∧ l.dueC ≤ (run0 g).slot (partOf 0) ∧ killDue (run0 g) 0 = false ∧ (∀ q ∈ g.semOps, fencedFor (run0 g) 0 q.addr = false)
      ∧ failedRelease (run0 g) g = some o)
    ∧ (∃ s : State, s.advances (partOf 0) = true ∧ s.seg 0 = some begun1 ∧ killDue s 0 = true)
    ∧ (∃ (s : State) (l : LiftSt), s.seg 0 = some begun1 ∧ begun1.lift = some l ∧ l.atC = false)
    ∧ (∃ (s : State) (l : LiftSt), s.seg 0 = some atC1 ∧ atC1.lift = some l ∧ l.atC = true)
    ∧ (∃ (g : Seg) (l : LiftSt), (run0 g).seg 0 = some g ∧ g.lift = some l ∧ (run0 g).slot (partOf 0) < l.dueC)
    ∧ (∃ l : LiftSt, (run0 flipped1).seg 0 = some flipped1 ∧ flipped1.lift = some l ∧ l.flipped = true ∧ l.atC = false ∧ l.dueS ≤ (run0 flipped1).slot (partOf 0)
      ∧ ((run0 flipped1).core 0).stepWork = none
      ∧ keepsCore (((((flipped1.semOps.foldl (fun t o => t.semOp 0 flipped1.ctx o) (run0 flipped1)).releaseQueue 0).failDetached (partOf 0)).countLift 0 flipped1)) 0 flipped1 l = false) :=
  ⟨⟨{ seg0 with lift := some ⟨0, 0, false, false, false, false, 0⟩ }, _, by decide, by decide, rfl, by decide, by decide⟩,
    ⟨{ seg0 with lift := some ⟨0, 0, false, false, false, false, 0⟩, work := [⟨0, 0, 0, 0⟩] }, _, by decide, rfl, by decide⟩,
    ⟨_, by decide, rfl, by decide, by decide, by decide, by decide, by decide⟩,
    ⟨{ begun1 with semOps := [⟨0x100000, none, 0⟩] }, _, _, by decide, rfl, by decide, by decide, by decide, by decide, by decide, rfl⟩,
    ⟨((run0 begun1).modPart 0 (fun p => { p with bnd := 0, rows := [(toLE 16 (2 ^ 27 + 2 ^ 28 + 15 * 2 ^ 72), false)] })).modCore 0 (fun k => { k with row := some 0 }),
      by decide, by decide, by decide⟩,
    ⟨run0 begun1, _, by decide, rfl, by decide⟩, ⟨run0 atC1, _, by decide, rfl, by decide⟩,
    ⟨{ seg0 with lift := some ⟨9, 0, false, false, true, false, 0⟩ }, _, by decide, rfl, by decide⟩,
    ⟨_, by decide, rfl, by decide, by decide, by decide, by decide, by decide⟩⟩

/-- The state after the effects of S, where the segment's context has more to do and its row has time left. -/
theorem test_meets_LiftsHoldsAndKills_keeps :
    ∃ (u : State) (g : Seg) (l : LiftSt), keepsCore u 0 g l = true :=
  ⟨(((run0 flipped1).modPart 0 (fun p => { p with rows := [(toLE 16 (2 ^ 27 + 4096 * 2 ^ 32 + 15 * 2 ^ 72), false)] })).modCore 0 (fun k => { k with row := some 0 })).wrLE 8 1 64,
    flipped1, ⟨0, 0, true, false, true, false, 0⟩, by decide⟩

theorem test_meets_LiftsHoldsAndKills_holds :
    (∃ (s : State) (g : Seg), s.seg 0 = some g ∧ (s.core 0).conflict = [] ∧ g.heldBy = [(1, 5, 0x100000)] ∧ g.lift = none ∧ ownerGone s 1 5 = true)
    ∧ (∃ s : State, s.seg 0 = none ∧ (s.core 0).conflict = [(7, 1, 5)] ∧ ownerGone s 1 5 = true)
    ∧ (∃ s : State, (s.part (partOf 0)).poolFree.any (fun l => !l.isEmpty) = true ∧ 0 < s.outqFree (partOf 0))
    ∧ ((run0 seg0).runs (partOf 0) = true ∧ killable (run0 seg0) 0 = true ∧ up0.runs (partOf 0) = true ∧ killable up0 0 = false
      ∧ up0.killedNow 0 = none)
    ∧ (∃ s : State, s.runs (partOf 0) = true ∧ s.get (SEQ.STATE.STATE 0) = 4 ∧ (s.core 0).seg = none ∧ (s.core 0).canIssue ≤ s.time)
    ∧ (∃ s : State, (s.part 0).dryWait = [(1, 0x10000)]) ∧ (∃ s : State, (s.part 0).dryWait = [] ∧ (s.part 0).pushWait ≠ []) ∧ ((rst.part 0).dryWait = [] ∧ (rst.part 0).pushWait = []) :=
  ⟨⟨run0 { seg0 with heldBy := [(1, 5, 0x100000)] }, _, rfl, by decide, by decide, by decide, by decide⟩,
    ⟨up0.modCore 0 (fun k => { k with conflict := [(7, 1, 5)] }), by decide, by decide, by decide⟩,
    ⟨{ (rst.modPart 0 (fun p => { p with poolFree := [[5], [], []], outqOk := true })) with force := [((WET.OUTQ_n.PAGES 0).key, 1)] }, by decide, by decide⟩,
    by decide, ⟨up0.put (SEQ.STATE.STATE 0) 4, by decide, by decide, by decide, by decide⟩,
    ⟨rst.modPart 0 (fun p => { p with dryWait := [(1, 0x10000)] }), by decide⟩,
    ⟨rst.modPart 0 (fun p => { p with pushWait := [(0, 0, 0x10000)] }), by decide, by decide⟩, by decide⟩

/-- Context 0 in a state, after an action of this aclk; its segment killed in this aclk. -/
def did (st : Nat) (a : Option Nat) : State := { (full.ctxSetState 0 st) with acts := (a.map (fun x => (0, x))).toList }
def killed1 : State := (full.ctxSetState 0 4).modCore 0 (fun k => { k with killed := some ⟨0, 1, seg0, false⟩ })

theorem test_meets_ContextActions :
    full.served = true ∧ full.ctxState 16383 = 0 ∧ (full.ctxSetState 16383 4).served = true ∧ (full.ctxSetState 16383 4).ctxState 16383 = 4
    ∧ (∀ st ∈ [0, 1, 2, 3, 4], (did st none).served = true ∧ (did st none).ctxState 0 = st ∧ (did st none).acted 0 = none ∧ killedCtx (did st none) 0 = none)
    ∧ (∀ st ∈ [0, 1, 3, 4], ∀ b ∈ [2, 3, 4, 6], (did st (some b)).served = true ∧ (did st (some b)).acted 0 = some b ∧ killedCtx (did st (some b)) 0 = none ∧ (did st (some b)).ctxState 0 ≠ 2)
    ∧ (∀ a ∈ [2, 3, 4, 6], strongerAction 6 a = 6 ∧ (a ≠ 3 → strongerAction 3 a ≠ 3) ∧ strongerAction a 3 = a)
    ∧ (killed1.served = true ∧ killedCtx killed1 0 = some 0 ∧ killed1.ctxState 0 = 4 ∧ (killed1.killAlso 0 10).ctxState 0 = 4) := by decide

/-- No boundary is due in these states: the state after the boundary is the state. -/
theorem test_meets_ContextActions_boundary (st : Nat) (a : Option Nat) : did st a = (did st a).afterBoundary (ctxPart 0) := rfl

/-- One row of group 0 on all four cores, at START 0 with a budget of 4,096, hard or elastic. -/
def rows1 (hard : Nat) (t : Nat) : State :=
  { (up0.modPart 0 (fun p => { p with rows := [(toLE 16 (2 ^ 27 + hard * 2 ^ 28 + 4096 * 2 ^ 32 + 15 * 2 ^ 72), false)] })) with time := t }

theorem test_meets_StrokeRows_rows :
    ((rows1 1 64).issues (partOf 0) = true ∧ rowRuns (rows1 1 64) (partOf 0) 0 = true ∧ rowHard (rows1 1 64) (partOf 0) 0 = true
      ∧ rowStart (rows1 1 64) (partOf 0) 0 ≤ (rows1 1 64).time)
    ∧ (rows1 1 63).time < rowStart (rows1 1 63) (partOf 0) 0
    ∧ (rowOn (rows1 1 64) 0 0 = true ∧ rowPast (rows1 1 64) 0 0 = false ∧ rowPoint (rows1 1 64) (partOf 0) 0 ≤ (rows1 1 64).time
      ∧ killable ((rows1 1 64).clearFor 0 0) 0 = false
      ∧ killable (((rows1 1 64).modCore 0 (fun k => { k with seg := some seg0 })).clearFor 0 0) 0 = true)
    ∧ (((rows1 1 4096).modCore 0 (fun k => { k with row := some 0 })).core 0).row = some 0
    ∧ (rowEnd (rows1 1 4096) (partOf 0) 0 ≤ (rows1 1 4096).time ∧ rowHard (rows1 1 4096) (partOf 0) 0 = true ∧ (rows1 1 4096).seg 0 = none)
    ∧ killable ((rows1 1 4096).modCore 0 (fun k => { k with row := none, seg := some seg0 })) 0 = true
    ∧ killable ((rows1 1 4096).modCore 0 (fun k => { k with row := none, seg := some flipped1 })) 0 = false
    ∧ (((rows1 1 4096).modCore 0 (fun k => { k with row := none, killed := some ⟨4096, 2, seg0, false⟩ })).killedNow 0 = some ⟨4096, 2, seg0, false⟩ ∧ seg0.row = 0)
    ∧ (rows1 1 4096).killedNow 0 = none
    ∧ (rowHard (rows1 0 4096) (partOf 0) 0 = false ∧ rowEnd (rows1 0 4096) (partOf 0) 0 ≤ (rows1 0 4096).time ∧ (rows1 0 4096).seg 0 = none)
    ∧ (((rows1 0 4096).modCore 0 (fun k => { k with row := none, seg := some seg0 })).seg 0 = some seg0 ∧ killable ((rows1 0 4096).modCore 0 (fun k => { k with row := none, seg := some seg0 })) 0 = true ∧ seg0.counted = false
      ∧ ({ seg0 with counted := true } : Seg).counted = true)
    ∧ (rowOn (rows1 0 64) 0 0 = true ∧ rowHard (rows1 0 64) (partOf 0) 0 = false ∧ rowPast (rows1 0 64) 0 0 = false ∧ ((rows1 0 64).core 0).row = none
      ∧ (rows1 0 64).seg 0 = none ∧ pointReached (rows1 0 64) 0 = false ∧ rowStart (rows1 0 64) (partOf 0) 0 ≤ (rows1 0 64).time
      ∧ (rows1 0 64).time < rowEnd (rows1 0 64) (partOf 0) 0)
    ∧ (rowOn (rows1 0 4096) 0 0 = true ∧ rowPast (rows1 0 4096) 0 0 = false ∧ ((rows1 0 4096).core 0).row = none ∧ pointReached (rows1 0 4096) 0 = false
      ∧ rowStart (rows1 0 4096) (partOf 0) 0 ≤ (rows1 0 4096).time) := by decide

/-- Core 0 idle in that elastic row; context 0 ready with one command, or not; in a closed slot of gate 4. -/
def idle0 : State := (rows1 0 64).modCore 0 (fun k => { k with row := some 0 })
def ready0 : State := (idle0.wrLE 0x28 1 0x11).wrLE 8 1 64
/-- The segment of `run0` with its context still to be loaded. -/
def loads : State := (run0 seg0).modCore 0 (fun k => { k with ctx := some 0 })

theorem test_meets_StrokeRows_slots :
    (∀ s ∈ [idle0, ready0], s.issues (partOf 0) = true ∧ (s.core 0).seg = none ∧ (s.core 0).pickTime ≤ s.time ∧ s.get (SEQ.STATE.STATE 0) ≠ 4
      ∧ s.slotIsOpen (partOf 0) = true ∧ mayPick s 0 = some 0)
    ∧ choose idle0 0 0 = none ∧ choose ready0 0 0 = some 0
    ∧ (∀ s ∈ [loads, shut loads], s.issues (partOf 0) = true ∧ s.seg 0 = some seg0 ∧ (s.core 0).ctx.isSome = true ∧ seg0.issueSlot ≤ s.slot (partOf 0))
    ∧ loads.slotIsOpen (partOf 0) = true ∧ (shut loads).slotIsOpen (partOf 0) = false := by
  decide +kernel

theorem test_meets_StrokeRows_picks :
    (∃ (s : State) (g : Seg), s.issues (partOf 0) = true ∧ s.seg 0 = some g ∧ (s.core 0).ctx.isSome = true ∧ g.issueSlot ≤ s.slot (partOf 0))
    ∧ (up0.issues (partOf 0) = true ∧ (up0.core 0).seg = none ∧ (up0.core 0).pickTime ≤ up0.time ∧ up0.get (SEQ.STATE.STATE 0) ≠ 4)
    ∧ (∃ (s : State) (g : Seg) (u : Fin 11) (h : BitVec 32), s.issues (partOf 0) = true ∧ s.seg 0 = some g ∧ s.ctxRd g.ctx 0x30 4 ≠ 0
      ∧ s.runs (partOf 0) = true ∧ s.ctxRd g.ctx 0x30 4 < h.toNat ∧ g.tierEvent = false ∧ unitWorks s 0 u.val = true)
    ∧ ((run0 seg0).seg 0 = some seg0 ∧ (run0 seg0).ctxRd seg0.ctx 0x30 4 = 0) :=
  ⟨⟨(run0 seg0).modCore 0 (fun k => { k with ctx := some 0 }), _, by decide, rfl, by decide, by decide⟩, by decide,
    ⟨((run0 seg0).wrLE 0x30 4 100).modCore 0 (fun k => { k with mover := [{ work := 0, cmd := [] }] }), _, 10, 101, by decide, rfl, by decide, by decide, by decide, by decide, by decide⟩,
    by decide⟩

/-- Partition 0 of the started module out of reset, its timer stopped. -/
def upS : State := full.setPart 0 { full.part 0 with inReset := false }

theorem test_meets_Profiles :
    (∃ (s : State) (i : Fin 16), s.served = true ∧ i.val < s.get SCH.PROFILES.LOADED ∧ s.on (SCH.PROFILE_n.BUSY 0) = false ∧ s.active 0 = true)
    ∧ (full.served = true ∧ full.get SCH.PROFILES.LOADED ≤ (0 : Fin 16).val)
    ∧ (∃ (s : State) (a : Apply), s.served = true ∧ (s.part 0).apply_ = some a ∧ a.b1 = some 0 ∧ a.written = false ∧ 64 ≤ s.time ∧ (s.part 0).window = false)
    ∧ (∃ (s : State) (a : Apply), s.served = true ∧ (s.part 0).apply_ = some a ∧ a.b1 = some 0 ∧ a.written = true ∧ 2048 ≤ s.time ∧ a.ran = false)
    ∧ (∃ (s : State) (a : Apply), s.served = true ∧ (s.part 0).apply_ = some a ∧ a.b1 = some 0 ∧ a.written = true ∧ 2048 ≤ s.time ∧ a.ran = true
      ∧ (s.endApply 0 a.index).on (STK.CTRL_n.RUNNING 0) = false) :=
  ⟨⟨full.put SCH.PROFILES.LOADED 1, 0, by decide, by decide, by decide, by decide⟩, by decide,
    ⟨{ (upS.modPart 0 (fun p => { p with apply_ := some ⟨0, some 0, false, false⟩ })) with time := 64 }, _, by decide, rfl, by decide, by decide, by decide, by decide⟩,
    ⟨{ (upS.modPart 0 (fun p => { p with apply_ := some ⟨0, some 0, false, true⟩ })) with time := 2048 }, _, by decide, rfl, by decide, by decide, by decide, by decide⟩,
    ⟨{ (upS.modPart 0 (fun p => { p with apply_ := some ⟨0, some 0, true, true⟩ })) with time := 2048 }, _, by decide, rfl, by decide, by decide, by decide, by decide, by decide⟩⟩

/-- No boundary is due there. -/
theorem test_meets_Profiles_boundary : full = full.afterBoundary 0 ∧ full.put SCH.PROFILES.LOADED 1 = (full.put SCH.PROFILES.LOADED 1).afterBoundary 0 := ⟨rfl, rfl⟩

theorem test_meets_MemoryManagement :
    (∃ s : State, s.served = true ∧ s.on MEM.INV_CTRL.BUSY = true)
    ∧ (∃ s : State, s.served = true ∧ s.inForce MEM.SCRUB.HOURS = 0)
    ∧ (upS.served = true ∧ upS.inForce MEM.SCRUB.HOURS ≠ 0 ∧ place upS.scrub = some (0, 0, 0) ∧ upS.unavailable 0 0 = false ∧ upS.frameBacked 0 0 (0 / 65536) = true
      ∧ (upS.meet upS.scrub 128).poisoned (upS.scrub + 4 * (31 : Fin 32).val) = false)
    ∧ (full.served = true ∧ full.inForce MEM.SCRUB.HOURS ≠ 0 ∧ place full.scrub = some (0, 0, 0) ∧ full.unavailable 0 0 = true)
    ∧ (∃ s : State, s.served = true ∧ s.inForce MEM.SCRUB.HOURS ≠ 0 ∧ place s.scrub = some (1, 0, 0x80) ∧ s.unavailable 1 0 = false
      ∧ s.frameBacked 0 1 (0x80 / 65536) = true ∧ (0 : BitVec 32).toNat ≠ lineTag s.scrub ∧ (0x20000001 : BitVec 32).toNat = lineTag s.scrub)
    ∧ (∃ (s : State) (o : Nat), s.served = true ∧ place s.scrub = some (1, 0, o) ∧ s.unavailable 1 0 = false ∧ s.frameBacked 0 1 (o / 65536) = false)
    ∧ (full.part 3).chanDue ≤ full.time ∧ full.poweredOff (toPart ((31 : Fin 32).val / 8)) = false :=
  ⟨⟨full.put MEM.INV_CTRL.BUSY 1, by decide, by decide⟩, ⟨{ full with force := [(MEM.SCRUB.HOURS.key, 0)] }, by decide, by decide⟩, by decide, by decide,
    ⟨{ upS with scrub := 0x1000000080 }, by decide, by decide, by decide, by decide, by decide, by decide, by decide⟩,
    ⟨{ upS with scrub := 0x17FFFF0000 }, _, by decide, rfl, by decide, by decide⟩, by decide, by decide⟩

/-- MEM.FRAME_CMD shows an operation on a frame of partition 0, tenant 0, T0; the quota entry at 0 holds LIMIT, HELD and COUNT, the stack is at
4000h and has frame 7 on it. -/
def framed (s : State) (op g : Nat) : State :=
  ((((s.put MEM.FRAME_CMD.FRAME g).put MEM.FRAME_CMD.TIER (0 : BitVec 2).toNat).put MEM.FRAME_CMD.PARTITION (0 : PartIx).val).put MEM.FRAME_CMD.TENANT
    (0 : Byte).toNat).put MEM.FRAME_CMD.OP op
def quotas (lim held cnt : Nat) : State := ((((upS.wrLE 0 4 lim).wrLE 4 4 held).wrLE 8 4 0x4000).wrLE 0xC 4 cnt).wrLE 0x4000 4 7

theorem test_meets_MemoryManagement_frames :
    (∀ op ∈ [1, 2, 3, 4], ∀ g ∈ [7, 70000], (framed (quotas 2 1 1) op g).quotaAddr 0 0 0 = 0 ∧ (framed (quotas 2 1 1) op g).rdLE 4 4 = 1
      ∧ (framed (quotas 2 1 1) op g).rdLE 0xC 4 = 1 ∧ (framed (quotas 2 1 1) op g).rdLE 0 4 = 2 ∧ (quotas 2 1 1).served = true)
    ∧ ((framed (quotas 1 1 1) 1 7).rdLE 0 4 ≤ (framed (quotas 1 1 1) 1 7).rdLE 4 4 ∧ (quotas 1 1 1).served = true)
    ∧ (∀ op ∈ [1, 3], (framed (quotas 2 1 1) op 70000).frameBacked 0 0 70000 = false ∧ (framed (quotas 2 1 1) op 7).frameBacked 0 0 7 = true)
    ∧ ((framed (quotas 2 1 0) 3 7).frameBacked 0 0 7 = true ∧ (framed (quotas 2 1 0) 3 7).rdLE 0xC 4 ≠ (framed (quotas 2 1 0) 3 7).rdLE 4 4)
    ∧ ((framed (quotas 2 1 0) 2 0).rdLE 0xC 4 = 0 ∧ (framed (quotas 2 1 0) 4 0).rdLE 0xC 4 = 0 ∧ (quotas 2 1 0).served = true) := by
  decide +kernel

/-- A ring of one migration request at 0 of T0: one page, destination tier as given. -/
def asked (w : Nat) : State :=
  { ((up0.put (MEM.MIG_TAIL_n.INDEX 0) 1).wrLE 8 8 (w + 2 ^ 32)) with force := [((MEM.MIG_SIZE_n.LOG2 0).key, 4)] }
def page1 : MigPage := ⟨5, 0x500000, 0x100000, 0, 0x200000, 0, true, false, [], 0⟩
def moves (p : Migration → Migration) : State :=
  up0.modPart 0 (fun q => { q with mig := some (p ⟨0, 0, 5, 2, 0, 0, 0, [], [], none⟩) })

theorem test_meets_Migrations :
    ((asked 0).runs 0 = true ∧ ((asked 0).part 0).mig = none ∧ (asked 0).get (MEM.MIG_HEAD_n.INDEX 0) = 0
      ∧ 0 % (asked 0).migSize 0 ≠ (asked 0).get (MEM.MIG_TAIL_n.INDEX 0) % (asked 0).migSize 0
      ∧ bits ((asked 0).rdLE ((asked 0).migAddr 0 0 + 8) 4) 13 12 ≠ 3 ∧ (asked 0).rdLE ((asked 0).migAddr 0 0 + 0xC) 4 ≠ 0
      ∧ zeroBits ((asked 0).rdLE ((asked 0).migAddr 0 0 + 8) 4) 31 14 = true ∧ (asked 0).rdLE ((asked 0).migAddr 0 0) 2 = 0
      ∧ zeroBits ((asked 0).rdLE ((asked 0).migAddr 0 0 + 0x10) 4) 31 4 = true)
    ∧ bits ((asked 0x3000).rdLE ((asked 0x3000).migAddr 0 0 + 8) 4) 13 12 = 3
    ∧ (∃ m : Migration, ((moves id).part 0).mig = some m ∧ m.fail = none ∧ m.open_.length < 4 ∧ m.next < m.pages ∧ (5 : BitVec 48).toNat = m.first + m.next)
    ∧ (∃ m : Migration, ((moves (fun m => { m with next := 2, wait := [5] })).part 0).mig = some m ∧ m.fail = none ∧ m.open_.length < 4
      ∧ (5 : BitVec 48).toNat ∈ m.wait ∧ (5 : BitVec 48).toNat ≠ m.first + m.next)
    ∧ (∃ (s : State) (m : Migration), s.runs 0 = true ∧ (s.part 0).mig = some m ∧ 4 ≤ m.open_.length)
    ∧ (∃ (s : State) (m : Migration), s.runs 0 = true ∧ (s.part 0).mig = some m
      ∧ m.open_.find? (fun p => p.page == (5 : BitVec 30).toNat && p.copied && !p.switched) = some page1 ∧ page1.dirty = [])
    ∧ (∃ (s : State) (m : Migration) (p : MigPage), s.runs 0 = true ∧ (s.part 0).mig = some m
      ∧ m.open_.find? (fun p => p.page == (5 : BitVec 30).toNat && p.switched) = some p) :=
  ⟨by decide, by decide, ⟨_, rfl, by decide, by decide, by decide, by decide⟩, ⟨_, rfl, by decide, by decide, by decide, by decide⟩,
    ⟨moves (fun m => { m with open_ := [page1, page1, page1, page1] }), _, by decide, rfl, by decide⟩,
    ⟨moves (fun m => { m with open_ := [page1] }), _, by decide, rfl, by decide, by decide⟩,
    ⟨moves (fun m => { m with open_ := [{ page1 with switched := true }] }), _, _, by decide, rfl, rfl⟩⟩

/-- Ring entries that break a rule: PAGES 0, a reserved bit of its control word, an address within a page, a reserved field of its status word. -/
theorem test_meets_Migrations_breaches :
    (∀ s ∈ [(up0.put (MEM.MIG_TAIL_n.INDEX 0) 1).wrLE 8 8 0, (asked 0x4000), (asked 0).wrLE 0 4 8, (asked 0).wrLE 0x10 4 16], s.runs 0 = true ∧ (s.part 0).mig = none
      ∧ s.get (MEM.MIG_HEAD_n.INDEX 0) = 0 ∧ s.migAddr 0 0 = 0)
    ∧ ((up0.put (MEM.MIG_TAIL_n.INDEX 0) 1).wrLE 8 8 0).rdLE 0xC 4 = 0 ∧ zeroBits ((asked 0x4000).rdLE 8 4) 31 14 = false
    ∧ ((asked 0).wrLE 0 4 8).rdLE 0 2 ≠ 0 ∧ zeroBits (((asked 0).wrLE 0x10 4 16).rdLE 0x10 4) 31 4 = false
    ∧ (∀ s ∈ [(asked 0x4000), (asked 0).wrLE 0 4 8, (asked 0).wrLE 0x10 4 16],
      0 % s.migSize 0 ≠ s.get (MEM.MIG_TAIL_n.INDEX 0) % s.migSize 0) := by decide +kernel

/-- Lines written since the copy; a leaf, and a source, in the memory of partition 1, which is in reset. -/
def page2 : MigPage := { page1 with dirty := [3, 9] }
theorem test_meets_Migrations_fences :
    (∀ p ∈ [page2, { page1 with leaf := 0x100000000 }, { page1 with src := 0x100100000 }], ((moves (fun m => { m with open_ := [p] })).part 0).mig.isSome = true
      ∧ (moves (fun m => { m with open_ := [p] })).runs 0 = true
      ∧ ([p].find? (fun p => p.page == (5 : BitVec 30).toNat && p.copied && !p.switched)) = some p)
    ∧ ((moves (fun m => { m with open_ := [page2] })).fencedOff 0 page2.leaf = false ∧ (moves (fun m => { m with open_ := [page2] })).fencedOff 0 page2.src = false)
    ∧ (moves id).fencedOff 0 0x100000000 = true ∧ (moves id).fencedOff 0 0x100100000 = true := by decide +kernel

theorem test_meets_GazetteerOperations_known :
    (home.served = true ∧ home.gazAt (0 : BitVec 43).toNat = some homed ∧ homed.st = .home ∧ homed.ticket = none ∧ homed.origin = true ∧ homed.st ≠ .inDoubt)
    ∧ (∃ e : GazEntry, (knows { homed with st := .inDoubt }).gazAt 0 = some e ∧ e.st = .inDoubt ∧ (knows { homed with st := .inDoubt }).outOf 0 = none
      ∧ (knows { homed with st := .inDoubt }).inOf 0 = none)
    ∧ (∃ (e : GazEntry) (o : OutTicket), (gives tick1 { homed with st := .inDoubt }).gazAt 0 = some e ∧ e.st = .inDoubt
      ∧ (gives tick1 { homed with st := .inDoubt }).outOf 0 = some o)
    ∧ (∃ (s : State) (e : GazEntry), s.served = true ∧ s.gazAt 0 = some e ∧ freeable e = true ∧ e.time + 800000 * clamp 1 65535 (s.inForce GAZ.CFG.FWD_MS) ≤ s.time)
    ∧ (∃ (s : State) (e : GazEntry), s.served = true ∧ s.gazAt 0 = some e ∧ e.hold.isSome = true
      ∧ e.time + 800 * clamp 1 255 (s.inForce GAZ.CFG.PROMO_HOLD_US) ≤ s.time) :=
  ⟨by decide, ⟨_, rfl, by decide, by decide, by decide⟩, ⟨_, _, rfl, by decide, rfl⟩,
    ⟨{ knows { homed with st := .forward, origin := false } with time := 10 ^ 12 }, _, by decide, rfl, by decide, by decide⟩,
    ⟨{ knows { homed with hold := some 5 } with time := 10 ^ 12 }, _, by decide, rfl, by decide, by decide⟩⟩

theorem test_meets_GazetteerOperations_new :
    (full.served = true ∧ full.gazAt (5 : BitVec 43).toNat = none ∧ full.gazAt (2 ^ 31 : BitVec 43).toNat = none ∧ full.gazAt (0x3000 : BitVec 43).toNat = none)
    ∧ (∃ u x : State, x = ((full.put GAZ.CMD.NAME 5).put GAZ.CMD.OP 1).put GAZ.CMD_ARG.BASE 0 ∧ x.isOrigin 5 = true ∧ x.slotBacked (5 % 2 ^ 31) = true
      ∧ x.addGaz { name := 5, st := .home, origin := true, base := 5 % 2 ^ 31, stored := true, time := full.time } = some u)
    ∧ ((((full.put GAZ.CMD.NAME (2 ^ 31)).put GAZ.CMD.OP 1).put GAZ.CMD_ARG.BASE 0).isOrigin (2 ^ 31) = false
      ∧ (((full.put GAZ.CMD.NAME 0x3000).put GAZ.CMD.OP 1).put GAZ.CMD_ARG.BASE 0).isOrigin 0x3000 = true
      ∧ (((full.put GAZ.CMD.NAME 0x3000).put GAZ.CMD.OP 1).put GAZ.CMD_ARG.BASE 0).slotBacked (0x3000 % 2 ^ 31) = false)
    ∧ (∃ u x : State, x = ((((full.put GAZ.CMD.NAME 5).put GAZ.CMD.OP 5).put GAZ.CMD_ARG.BASE 0).put GAZ.CMD_ARG.EPOCH 1).put GAZ.CMD_ARG.MODULE 7
      ∧ 7 ≠ x.selfModule
      ∧ x.addGaz { name := 5, st := .forward, origin := x.isOrigin 5, epoch := 1, module := 7, base := 0, stored := false, time := full.time } = some u)
    ∧ (∃ s u x : State, s.served = true ∧ x = ((((s.put GAZ.CMD.OP 8).put GAZ.CMD_ARG.PART 0).put GAZ.CMD_ARG.TIER 0).put GAZ.CMD_ARG.BASE 6) ∧ x.slotBacked 6 = true
      ∧ slotPlace 6 = some (0, 0) ∧ x.pushHost 0 0 6 = some u)
    ∧ (∃ (s u x : State) (b : Nat), s.served = true ∧ x = (((s.put GAZ.CMD.OP 9).put GAZ.CMD_ARG.PART 0).put GAZ.CMD_ARG.TIER 0) ∧ x.popHost 0 0 = some (b, u)) :=
  ⟨by decide, ⟨_, _, rfl, by decide, by decide, rfl⟩, by decide, ⟨_, _, rfl, by decide, rfl⟩,
    ⟨{ full with force := [((hostLimit 0 0).key, 16)] }, _, _, by decide, rfl, by decide, by decide, rfl⟩,
    ⟨full.put (hostCount 0 0) 1, _, _, _, by decide, rfl, rfl⟩⟩

/-- Graticule port 9 in a state of R269; UP, its lanes in order, the last frame received, and whether a replay is awaited. -/
def port9 (st : Nat) : State := rst.put (linkState 9) st
def rx9 (a : Nat) (w : Bool) : State := (port9 2).modLink 9 (fun k => { k with lanes := lanes8, ackRx := a, awaiting := w })
/-- It, with no corrected symbol counted. -/
def clean9 (a : Nat) (w : Bool) : State := (rx9 a w).laneErrors 9 (List.replicate 9 0)
theorem clean9_eq (a : Nat) (w : Bool) {ws : List (List (List Nat))} (x : Rx) (h : rxErrors lanes8 none none ws = List.replicate 9 0) :
    clean9 a w = (rx9 a w).laneErrors 9 (rxErrors ((rx9 a w).link 9).lanes ((rx9 a w).link 9).spare ((rx9 a w).shadowed 9 x) ws) := by
  have e : rxErrors ((rx9 a w).link 9).lanes ((rx9 a w).link 9).spare ((rx9 a w).shadowed 9 x) ws = List.replicate 9 0 := h
  rw [e]; rfl

/-- The frame of `frame0`, SEQ 0: in order; awaited and not; a duplicate; ahead of its turn. A frame of which nothing comes, one whose codewords
make no frame, one that does not decode. -/
theorem test_meets_LinkFrames_frames :
    (∀ a w, clean9 a w = (rx9 a w).laneErrors 9 (rxErrors ((rx9 a w).link 9).lanes ((rx9 a w).link 9).spare ((rx9 a w).shadowed 9 (.frame 0 false body0)) [lanes0, lanes1]))
    ∧ (∀ a w, rxFrame ((rx9 a w).link 9).lanes [lanes0, lanes1] = .frame 0 false body0)
    ∧ (∀ w ∈ [false, true], (rx9 4095 w).linkUp 9 = true ∧ (clean9 4095 w).linkUp 9 = true ∧ 0 = (((clean9 4095 w).link 9).ackRx + 1) % 4096
      ∧ ((clean9 4095 w).link 9).awaiting = w)
    ∧ ((clean9 0 false).linkUp 9 = true ∧ 0 ≠ (((clean9 0 false).link 9).ackRx + 1) % 4096 ∧ seqBehind ((clean9 0 false).link 9).ackRx 0 < 2048)
    ∧ (seqBehind ((clean9 2047 false).link 9).ackRx 0 < 2048 ∧ 2048 ≤ seqBehind ((clean9 2048 false).link 9).ackRx 0)
    ∧ (rxFrame ((rx9 0 false).link 9).lanes [lanes0] = .crc ∧ rxFrame ((rx9 0 false).link 9).lanes [lanes9] = .ucw 1
      ∧ rxFrame ((rx9 0 false).link 9).lanes [] = .nothing)
    ∧ (∃ s : State, s.linkUp 9 = true ∧ (s.laneErrors 9 (rxErrors (s.link 9).lanes (s.link 9).spare (s.shadowed 9 .nothing) [])).linkUp 9 = false) :=
  ⟨fun a w => clean9_eq a w _ none_wrong.1, fun _ _ => frame0, by decide, by decide, by decide, ⟨crc0, ucw0, by decide⟩,
    ⟨(rx9 0 false).modLink 9 (fun k => { k with laneErr := 10 ^ 6 :: List.replicate 8 0 }), by decide, by decide⟩⟩

/-- A spare that has locked, with the further lanes that wait. -/
def spares (h : List (Nat × Nat)) (buf : List TxFrame) : State :=
  (rx9 0 false).modLink 9 (fun k => { k with sparing := some ⟨0, 0, some 0⟩, heldLanes := h, buf := buf, spare := some 8 })
def sent1 : TxFrame := { seq := 1, flits := [], credit := [], ends := 0 }
/-- The spare has taken its lane over, with a replay buffer. -/
def over9 (buf : List TxFrame) : State :=
  ((spares [(1, 0)] buf).modLink 9 (fun k =>
    { k with lanes := k.lanes.set 0 (k.spare.getD 8), spareUsed := true, sparing := none, heldLanes := [], laneOp := .spareDone, laneArg := 0 })).tell 9

theorem test_meets_LinkFrames :
    (∃ (s : State) (x : TxFrame), s.linkUp 9 = true ∧ (s.link 9).buf = [x]
      ∧ (s.link 9).lastAck + 800 * max 1 (s.inForce GRT.CFG2.REPLAY_TIMEOUT_US) ≤ s.time)
    ∧ ((port9 2).linkUp 9 = true ∧ ((port9 2).link 9).buf = [])
    ∧ (∀ h ∈ [[], [(1, 0)]], ∃ p : Sparing, (spares h []).linkUp 9 = true ∧ ((spares h []).link 9).sparing = some p ∧ p.lock = some 0
      ∧ 0 ≤ (spares h []).time ∧ ((spares h []).link 9).heldLanes = h)
    ∧ ((over9 []).link 9).buf.length < 512 ∧ 512 ≤ ((over9 (List.replicate 512 sent1)).link 9).buf.length
    ∧ (∃ s : State, s.linkUp 9 = true ∧ (s.link 9).txSpare.isSome = true ∧ (s.link 9).shadowHeld = false ∧ s.inForce GRT.CFG3.SHADOW_MS ≠ 0
      ∧ (s.link 9).rotateAt ≤ s.time)
    ∧ ((port9 2).link 9).txSpare = none ∧ ((port9 2).link 9).windowEnd ≤ (port9 2).time :=
  ⟨⟨{ ((port9 2).modLink 9 (fun k => { k with buf := [sent1] })) with time := 10 ^ 9 }, _, by decide, rfl, by decide⟩, by decide,
    fun _ _ => ⟨⟨0, 0, some 0⟩, rfl, rfl, rfl, Nat.zero_le _, rfl⟩, by decide, by decide +kernel,
    ⟨(port9 2).modLink 9 (fun k => { k with txSpare := some 8 }), by decide, by decide, by decide, by decide, by decide⟩, by decide, by decide⟩

/-- Masks of one lane and of two. -/
theorem test_meets_LinkFrames_signals :
    (port9 2).linkUp 9 = true ∧ (∀ i : Fin 9, ∀ j : Fin 9, bit (BitVec.ofNat 9 (2 ^ i.val)).toNat j.val = true ↔ j = i)
    ∧ ∀ i : Fin 9, ∀ j : Fin 9, i ≠ j → bit (BitVec.ofNat 9 (2 ^ i.val + 2 ^ j.val)).toNat i.val = true
      ∧ bit (BitVec.ofNat 9 (2 ^ i.val + 2 ^ j.val)).toNat j.val = true := by decide +kernel

/-- A backoff that ends at t. -/
def backs (t : Nat) : State := (port9 0).modLink 9 (fun k => { k with backoff := some t, released := true })
/-- No bit wrong on any lane in step 4. -/
def quiet9 : Vector Nat 9 := Vector.replicate 9 0
/-- A settable and served port in each state; an identity word of another module; the failures of a last and of a Ferrule's training, before and after
the marks of step 4 and the port's own identity word. -/
def portS (st : Nat) (r : Bool) : State := (full.put (linkState 9) st).modLink 9 (fun k => { k with released := r })
def stranger : Identity := ⟨77, 3, false, 0, 0, 0⟩
def frl1 : State := full.put (linkState 10) 1
theorem test_meets_LinkTraining_kinds :
    (∀ r ∈ [false, true], ∀ st ∈ [0, 1, 2, 3, 4, 5], (portS st r).live = true ∧ (portS st r).settable = true ∧ (portS st r).served = true ∧ (portS st r).get (linkState 9) = st
      ∧ ((portS st r).link 9).released = r)
    ∧ (stage1.put BOOT.STATUS.STAGE 4).settable = true
    ∧ ((port9 1).get (linkState 9) = 1 ∧ isFrl 9 = false ∧ ((port9 1).sendIdent 9).identOk 9 stranger = false)
    ∧ (isFrl 10 = true ∧ frl1.live = true ∧ frl1.get (linkState 10) = 1 ∧ (frl1.prbs 10 quiet9).get (linkState 10) = 1 ∧ (frl1.prbs 10 quiet9).live = true)
    ∧ (∀ st : Fin 9, ∀ u : State, u = (if 5 ≤ st.val then (port9 1).prbs 9 quiet9 else port9 1) → u.get (linkState 9) = 1 ∧ u.live = true) := by
  refine ⟨by decide +kernel, by decide, by decide, by decide, ?_⟩
  intro st u h
  split at h <;> subst h <;> decide

theorem test_meets_LinkTraining :
    ((port9 1).live = true ∧ (port9 1).get (linkState 9) = 1 ∧ (port9 2).get (linkState 9) = 2 ∧ (port9 5).get (linkState 9) = 5)
    ∧ (∃ (s : State) (m x : List Nat × Option Nat × Bool), s.live = true ∧ s.get (linkState 9) = 1 ∧ (s.link 9).ident = some true
      ∧ laneMap ((s.prbs 9 quiet9).get (linkFailed 9)) = some m ∧ laneMap (0x1F : BitVec 9).toNat = some x)
    ∧ ((port9 1).link 9).ident = none
    ∧ (isFrl 9 = false ∧ ((port9 1).prbs 9 quiet9).get (linkState 9) = 1 ∧ ((port9 1).prbs 9 quiet9).live = true
      ∧ (((port9 1).prbs 9 quiet9).link 9).k + 1 < ((port9 1).prbs 9 quiet9).retrainLimit ∧ ((port9 1).link 9).k + 1 < (port9 1).retrainLimit
      ∧ ((port9 1).modLink 9 (fun k => { k with k := 254 })).retrainLimit ≤ (((port9 1).modLink 9 (fun k => { k with k := 254 })).link 9).k + 1)
    ∧ (∀ t ∈ [0, 5], (backs t).live = true ∧ ((backs t).link 9).backoff = some t ∧ ((backs t).link 9).released = true ∧ (backs t).get (linkState 9) = 0
      ∧ (backs t).time = 0)
    ∧ (∀ l ∈ [(9 : LinkIx), 10], ∃ s : State, s.live = true ∧ s.get (linkState l) ≠ 2 ∧ (s.link l).leftUp.isSome = true ∧ s.warmOpen l = false
      ∧ isFrl l = decide (l = 10))
    ∧ (∃ s : State, s.live = true ∧ (s.link 9).released = true ∧ s.get (linkState 9) = 2) :=
  ⟨by decide, ⟨(port9 1).modLink 9 (fun k => { k with ident := some true }), _, _, by decide, by decide, by decide, rfl, rfl⟩, by decide, by decide,
    by decide,
    (fun l h => by
      simp only [List.mem_cons, List.not_mem_nil, or_false] at h
      rcases h with rfl | rfl
      · exact ⟨{ ((port9 0).modLink 9 (fun k => { k with leftUp := some 0 })) with time := 10 ^ 12 }, by decide, by decide, by decide, by decide, by decide⟩
      · exact ⟨{ (rst.modLink 10 (fun k => { k with leftUp := some 0 })) with time := 10 ^ 12 }, by decide, by decide, by decide, by decide, by decide⟩),
    ⟨(port9 2).modLink 9 (fun k => { k with released := true }), by decide, by decide, by decide⟩⟩

/-- A companion message of one line; a request of the module with its tag; a cache line at address 0. -/
def line64 (op : BitVec 6) : FMsg := { msg op with lines := List.replicate 64 0 }
def freq (op : Nat) (k : FKind) : FReq := { no := 0, tag := 0, op := op, addr := 0, part := none, kind := k, intr := none, out := true, sent := 0 }
def cline (st : CacheState) : CacheLine := ⟨0, st, List.replicate 64 0, 0, 0, []⟩
def holds (l : List CacheLine) (r : List FReq) : State := { link with ferrule := { link.ferrule with cache := l, reqs := r } }

/-- Data of two lines. -/
def two64 : FMsg := { msg 0x26 with linesM1 := 1, lines := List.replicate 128 0 }

theorem test_meets_CompanionCoherence_grants :
    ((holds [cline .is_] [freq 1 .fill]).frlFor (line64 0x24) = some (freq 1 .fill) ∧ lineAt (holds [cline .is_] [freq 1 .fill]) 0 = some (cline .is_)
      ∧ companionSends (holds [cline .is_] [freq 1 .fill]) (line64 0x24) 0x24 ∧ companionSends (holds [cline .is_] [freq 1 .fill]) (line64 0x25) 0x25)
    ∧ (∀ st ∈ [CacheState.im, .sm], ∀ op ∈ [0x24, 0x25], companionSends (holds [cline st] [freq 2 .fill]) (line64 (BitVec.ofNat 6 op)) op
      ∧ (holds [cline st] [freq 2 .fill]).frlFor (line64 (BitVec.ofNat 6 op)) = some (freq 2 .fill)
      ∧ lineAt (holds [cline st] [freq 2 .fill]) 0 = some (cline st))
    ∧ (companionSends (holds [] []) two64 0x26 ∧ (holds [] []).frlFor two64 = none ∧ two64.linesM1 ≠ 0)
    ∧ ((holds [] []).frlFor (line64 0x24) = none ∧ companionSends (holds [] []) (line64 0x24) 0x24 ∧ companionSends (holds [] []) (line64 0x25) 0x25)
    ∧ (∃ s : State, companionSends s (line64 0x26) 0x26 ∧ s.frlFor (line64 0x26) = some (freq 6 (.rdNc 0 0)) ∧ awaited s (toCore 0) 0 = true)
    ∧ (companionSends (holds [] [freq 6 (.shard 1 2)]) (line64 0x26) 0x26
      ∧ (holds [] [freq 6 (.shard 1 2)]).frlFor (line64 0x26) = some (freq 6 (.shard 1 2))) :=
  ⟨by unfold companionSends; decide, by unfold companionSends; decide, by unfold companionSends; decide, by unfold companionSends; decide,
    ⟨(holds [] [freq 6 (.rdNc 0 0)]).modCore 0 (fun k => { k with seg := some { seg0 with remote := [⟨2, 0, 0, 64, true, none, [], 0⟩] } }),
      by unfold companionSends; decide, by decide, by decide⟩, by unfold companionSends; decide⟩

theorem test_meets_CompanionCoherence_snoops :
    (∀ op ∈ [0x10, 0x11], companionSends (holds [] []) (msg (BitVec.ofNat 6 op)) op ∧ lineAt ((holds [] []).tally FRL.CACHE_CNT.SNOOPS 1) 0 = none)
    ∧ (∀ st ∈ [CacheState.s, .e, .m, .sm, .is_, .im, .ei, .mi], ∀ op ∈ [0x10, 0x11], companionSends (holds [cline st] []) (msg (BitVec.ofNat 6 op)) op
      ∧ lineAt ((holds [cline st] []).tally FRL.CACHE_CNT.SNOOPS 1) 0 = some (cline st))
    ∧ (link.live = true ∧ link.get FRL.STATUS.STATE = 2 ∧ protocolBad { msg 0x10 with bad := true } = true) := by
  unfold companionSends; decide

theorem test_meets_CompanionRequests :
    (∀ k ∈ [FKind.evict, .queue 0 0, .event, .mirror, .intr, .fill], companionSends (holds [cline .mi] [freq 0 k]) (msg 0x31) 0x31
      ∧ (holds [cline .mi] [freq 0 k]).frlFor (msg 0x31) = some (freq 0 k) ∧ lineAt (holds [cline .mi] [freq 0 k]) 0 = some (cline .mi))
    ∧ lineAt (holds [cline .ei] [freq 0 .evict]) 0 = some (cline .ei)
    ∧ (companionSends (holds [] [freq 0 .fill]) (msg 0x33) 0x33 ∧ (holds [] [freq 0 .fill]).frlFor (msg 0x33) = some (freq 0 .fill))
    ∧ ((holds [] []).frlFor (msg 0x31) = none ∧ companionSends (holds [] []) (msg 0x31) 0x31 ∧ companionSends (holds [] []) (msg 0x33) 0x33)
    ∧ (∃ (s : State) (r : FReq), s.live = true ∧ s.ferrule.reqs[0]? = some r ∧ r.out = true ∧ r.sent + 800 * max 10 (s.inForce FRL.TIMERS.RESP_US) ≤ s.time)
    ∧ ({ freq 0 .fill with out := false, lost := true } : FReq).lost = true
    ∧ (link.served = true ∧ link.get FRL.STATUS.STATE = 2 ∧ full.served = true ∧ full.get FRL.STATUS.STATE ≠ 2)
    ∧ (∃ (s : State) (r : FReq), s.live = true ∧ s.ferrule.reqs[0]? = some r ∧ r.out = true ∧ s.time < r.sent + 800 * max 10 (s.inForce FRL.TIMERS.RESP_US))
    ∧ (rst.live = true ∧ (∀ c : CoreIx, rst.seg c = none) ∧ rst.get FRL.STATUS.STATE ≠ 2 ∧ link.live = true ∧ link.get FRL.STATUS.STATE = 2)
    ∧ ((rst.put FRL.STATUS.ATTACHED 1).live = true ∧ (rst.put FRL.STATUS.ATTACHED 1).attached = true ∧ (rst.put FRL.STATUS.ATTACHED 1).get FRL.STATUS.STATE ≠ 2
      ∧ 0 + 800000 * rst.inForce GRT.CFG2.WARM_MS ≤ 10 ^ 12 ∧ rst.time < 0 + 800000 * rst.inForce GRT.CFG2.WARM_MS
      ∧ ((rst.modLink 10 (fun k => { k with leftUp := some 0 })).link 10).leftUp = some 0)
    ∧ ((rst.put FRL.STATUS.FLUSH_BUSY 1).on FRL.STATUS.FLUSH_BUSY = true ∧ flushEmpty (rst.put FRL.STATUS.FLUSH_BUSY 1) = true ∧ flushEmpty (holds [cline .m] []) = false) :=
  ⟨by unfold companionSends; decide, by decide, by unfold companionSends; decide, by unfold companionSends; decide,
    ⟨{ holds [] [freq 0 .fill] with time := 10 ^ 12 }, _, by decide, rfl, by decide, by decide⟩, by decide, by decide, ⟨holds [] [freq 0 .fill], _, by decide, rfl, by decide, by decide⟩,
    by decide, by decide, by decide⟩

/-- Model entry 3 in a state of R299, or with more of its word at 04h. -/
def model3 (w : Nat) : State := (upS.mdWr 3 4 4 w)

/-- WTS.CMD with an operation on model 3; the entry's partition, 1, in reset; and its partition without power. -/
def asks3 (op : Nat) (s : State) : State := (s.put WTS.CMD.MODEL (3 : Byte).toNat).put WTS.CMD.OP op
theorem test_meets_ModelCommands :
    (∀ w : Fin 8, (model3 w.val).served = true ∧ (model3 w.val).mdState 3 = w.val)
    ∧ (∀ op ∈ [1, 2], ∀ w ∈ [0, 2, 4, 6, 7], loadBusy (asks3 op (model3 w)) 3 = false ∧ (asks3 op (model3 w)).active ((asks3 op (model3 w)).mdPart 3) = true
      ∧ ((asks3 op (model3 w)).part ((asks3 op (model3 w)).mdPart 3)).inReset = false)
    ∧ (loadBusy (asks3 1 (upS.mdWr 4 4 4 1)) 3 = true ∧ (upS.mdWr 4 4 4 1).served = true ∧ (upS.mdWr 4 4 4 1).mdState 3 = 0)
    ∧ (∃ s : State, s.served = true ∧ s.mdState 3 = 6 ∧ loadBusy (asks3 1 s) 3 = false ∧ (asks3 1 s).active ((asks3 1 s).mdPart 3) = false) :=
  ⟨by decide, by decide +kernel, by decide, ⟨(model3 6).put (PART.POWER_n.STATE 0) 1, by decide +kernel⟩⟩

/-- A load of model 3 of no shards; a whole read of shard 0. -/
def load3 (f : LoadSt → LoadSt) : State := up0.modWts (fun w => { w with loads := [f { model := 3, start := 0 }] })
def read3 (r : WtsRead) : State := up0.modWts (fun w => { w with loads := [{ model := 3, start := 0, placed := true, count := 1 }], reads := [r] })

/-- A shard above the model's count; poisoned data of a whole read. -/
theorem test_meets_ModelLoading_bad :
    (∃ l : LoadSt, (load3 (fun l => { l with entries := [List.replicate 96 0], only := some 5, count := 1 })).load 3 = some l ∧ l.placed = false ∧ l.entries ≠ []
      ∧ ∃ i ∈ l.shards, l.count ≤ i)
    ∧ (∃ (l : LoadSt) (r : WtsRead) (s : State), s.live = true ∧ s.load 3 = some l ∧ s.wtsRead 3 0 = some r ∧ l.placed = true ∧ r.what = .shard ∧ r.whole = true
      ∧ r.bad = true) :=
  ⟨⟨_, rfl, by decide, by decide, ⟨5, by decide⟩⟩,
    ⟨_, _, read3 { model := 3, idx := 0, what := .shard, base := 0, len := 64, bad := true, got := [(0, List.replicate 64 0)] }, by decide, rfl, rfl, by decide, by decide,
      by decide, by decide⟩⟩

theorem test_meets_ModelLoading :
    (∃ l : LoadSt, (load3 id).live = true ∧ (load3 id).load 3 = some l ∧ l.placed = false ∧ l.dirBad = false ∧ l.entries = [])
    ∧ (∃ l : LoadSt, (load3 (fun l => { l with dirBad := true })).load 3 = some l ∧ l.placed = false ∧ l.dirBad = true)
    ∧ (∃ (s : State) (l : LoadSt), s.live = true ∧ s.load 3 = some l ∧ l.placed = false ∧ l.dirBad = false ∧ l.entries ≠ [] ∧ (∀ i ∈ l.shards, i < l.count)
      ∧ (∀ i ∈ l.ranges, ∃ h ∈ l.heads, h.1 = i))
    ∧ (∃ (s : State) (l : LoadSt) (r : WtsRead), s.live = true ∧ s.load 3 = some l ∧ s.wtsRead 3 0 = some r ∧ l.placed = true ∧ r.what = .shard ∧ r.whole = true)
    ∧ (∃ (s : State) (r : WtsRead), s.wtsRead 3 0 = some r ∧ r.whole = false ∧ r.poll = some 0 ∧ 0 ≤ s.time)
    ∧ (∃ (s : State) (l : LoadSt) (i : Nat), s.live = true ∧ s.load 3 = some l ∧ unpassed s l = some i
      ∧ l.start + 800000 * max 1 (s.inForce WTS.CFG2.SHARD_TIMEOUT_MS) ≤ s.time)
    ∧ (∃ (s : State) (l : LoadSt) (c : Conv), s.live = true ∧ s.load 3 = some l ∧ s.wts.convs.find? (fun c => c.model == 3 && c.idx == 0) = some c ∧ c.due ≤ s.time)
    ∧ (∃ (s : State) (l : LoadSt), s.live = true ∧ s.load 3 = some l ∧ l.placed = true ∧ (∀ i ∈ l.shards, ∃ x ∈ l.landed, x.idx = i)
      ∧ s.mdState 3 ≠ 5 ∧ (s.mdWr 3 4 4 5).live = true ∧ (s.mdWr 3 4 4 5).load 3 = some l ∧ (s.mdWr 3 4 4 5).mdState 3 = 5) :=
  ⟨⟨_, by decide, rfl, by decide, by decide, by decide⟩, ⟨_, rfl, by decide, by decide⟩,
    ⟨load3 (fun l => { l with entries := [List.replicate 96 0], count := 1 }), _, by decide, rfl, by decide, by decide, by decide, by decide, by decide⟩,
    ⟨read3 { model := 3, idx := 0, what := .shard, base := 0, len := 64, got := [(0, List.replicate 64 0)] }, _, _, by decide, rfl, rfl, by decide, by decide, by decide⟩,
    ⟨read3 { model := 3, idx := 0, what := .shard, base := 0, len := 64, poll := some 0 }, _, rfl, by decide, by decide, by decide⟩,
    ⟨{ load3 id with time := 10 ^ 12 }, _, _, by decide, rfl, rfl, by decide⟩,
    ⟨(load3 id).modWts (fun w => { w with convs := [⟨3, 0, 0, [], [], 0, 0⟩] }), _, _, by decide, rfl, rfl, by decide⟩,
    ⟨load3 (fun l => { l with placed := true }), _, by decide, rfl, by decide, by decide, by decide, by decide, rfl, by decide⟩⟩

/-- A drain at its deadline with one context marked: READY, or running a segment that may be killed. -/
def drained (st : Nat) : State := (up0.ctxSetState 4 st).modWts (fun w => { w with drains := [⟨3, 0, [(4, 8)], none, []⟩] })
def drainedOn : State := (drained 2).modCore 0 (fun k => { k with seg := some { seg0 with ctx := 4 } })
theorem test_meets_WeightsOverTime_marks :
    (∀ s ∈ [drained 1, drainedOn], s.live = true ∧ s.wts.drains.find? (fun d => d.model == 3) = some ⟨3, 0, [(4, 8)], none, []⟩ ∧ 0 ≤ s.time
      ∧ (s.ctxState 4 = 1 ∨ s.ctxState 4 = 2) ∧ ∀ c, onCore s 4 = some c → killable s c = true) := by decide +kernel

theorem test_meets_WeightsOverTime :
    (∃ (s : State) (d : DrainSt), s.live = true ∧ s.wts.drains.find? (fun d => d.model == 3) = some d ∧ s.time < d.due)
    ∧ (∃ (s : State) (d : DrainSt), s.live = true ∧ s.wts.drains.find? (fun d => d.model == 3) = some d ∧ d.due ≤ s.time
      ∧ ∀ p ∈ d.marks, s.ctxState p.1 ≠ 1 ∧ s.ctxState p.1 ≠ 2)
    ∧ (∃ (s : State) (x : StreamSt), s.live = true ∧ s.wts.streams.find? (fun x => x.model == 3) = some x ∧ s.mdState 3 = 2 ∧ x.on = false
      ∧ x.bnd + bits (s.rdLE (s.md 3 0x28 8 + 0x20) 4) 26 0 ≤ s.time)
    ∧ (∃ (s : State) (x : StreamSt), s.live = true ∧ s.wts.streams.find? (fun x => x.model == 3) = some x ∧ s.mdState 3 = 2 ∧ x.on = true
      ∧ x.j < x.list.length ∧ 1 = s.rdLE (s.md 3 0x28 8 + 0xC) 1 ∧ 1 ≠ 0 ∧ x.j < 1)
    ∧ (∃ (s : State) (x : StreamSt), s.live = true ∧ s.wts.streams.find? (fun x => x.model == 3) = some x ∧ s.mdState 3 = 2 ∧ x.list.length ≤ x.j)
    ∧ (∃ s : State, s.live = true ∧ s.wts.sweeps = [(3, 0)] ∧ s.lanes < 32 ∧ s.mdState 3 = 2 ∧ s.md4 3 7 7 = 1 ∧ s.active (s.mdPart 3) = true ∧ 0 < s.mdCount 3)
    ∧ (∃ s : State, s.live = true ∧ s.wts.sweeps = [(3, 0)] ∧ s.lanes < 32 ∧ s.mdState 3 = 0)
    ∧ (∃ s : State, s.live = true ∧ s.wts.pushes = [(3, 0, 0, 1, 9)]) ∧ (rst.live = true ∧ rst.wts.sweeps = [] ∧ rst.wts.pushes = []) :=
  ⟨⟨up0.modWts (fun w => { w with drains := [⟨3, 5, [], none, []⟩] }), _, by decide, rfl, by decide⟩,
    ⟨up0.modWts (fun w => { w with drains := [⟨3, 0, [], none, []⟩] }), _, by decide, rfl, by decide, by decide⟩,
    ⟨(model3 2).modWts (fun w => { w with streams := [⟨3, 0, [], false, 0⟩] }), _, by decide, rfl, by decide, by decide, by decide⟩,
    ⟨((model3 2).wrLE 0xC 1 1).modWts (fun w => { w with streams := [⟨3, 0, [0], true, 0⟩] }), _, by decide, rfl, by decide, by decide, by decide, by decide, by decide, by decide⟩,
    ⟨(model3 2).modWts (fun w => { w with streams := [⟨3, 0, [], true, 0⟩] }), _, by decide, rfl, by decide, by decide⟩,
    ⟨((model3 0x82).mdWr 3 8 4 0x10000).modWts (fun w => { w with sweeps := [(3, 0)] }), by decide, by decide, by decide, by decide, by decide, by decide, by decide⟩,
    ⟨up0.modWts (fun w => { w with sweeps := [(3, 0)] }), by decide, by decide, by decide, by decide⟩,
    ⟨up0.modWts (fun w => { w with pushes := [(3, 0, 0, 1, 9)] }), by decide, by decide⟩, by decide⟩

theorem test_meets_HealthAndErrors :
    ((full.served = true ∧ full.settable = true ∧ full.get (HLT.SCORE_n.STATE 3) ≠ 2 ∧ (full.put (HLT.SCORE_n.STATE 3) 2).served = true
      ∧ (full.put (HLT.SCORE_n.STATE 3) 2).get (HLT.SCORE_n.STATE 3) = 2) ∧ rst.live = true ∧ rst.get ERR.PRODUCER.SEQ < 2 ^ 32 ∧ (0 : BitVec 32).toNat ≤ rst.get ERR.PRODUCER.SEQ ∧ rst.get ERR.PRODUCER.SEQ - (0 : BitVec 32).toNat ≤ 4096)
    ∧ ((rst.put ERR.PRODUCER.SEQ 4097).get ERR.PRODUCER.SEQ = 4097 ∧ 4096 < 4097 - (0 : BitVec 32).toNat)
    ∧ (rst.get ERR.PRODUCER.SEQ < (1 : BitVec 32).toNat ∧ (1 : BitVec 32).toNat ≤ rst.get ERR.PRODUCER.SEQ + 1000)
    ∧ (∃ (s : State) (iv : RateIv), s.live = true ∧ s.rates.find? (fun i => i.domain == 15 && i.code == 0x28) = some iv ∧ iv.due ≤ s.time)
    ∧ (∃ s : State, s.live = true ∧ (s.part 3).health.from_ + s.healthWindow ≤ s.time) ∧ rst.time < (rst.part 3).health.from_ + rst.healthWindow
    ∧ ((rst.put (HLT.SCORE_n.STATE 3) 2).get (HLT.SCORE_n.STATE 3) = 2 ∧ rst.get (HLT.SCORE_n.STATE 3) ≠ 2)
    ∧ ((rst.put (RST.TRACE_SLOT_k.STATE 1) 2).get (RST.TRACE_SLOT_k.STATE 1) = 2 ∧ rst.get (RST.TRACE_SLOT_k.STATE 1) ≠ 2) :=
  ⟨by decide, by decide, by decide, ⟨{ rst with rates := [⟨15, 0x28, 0, 1, none⟩] }, _, by decide, rfl, by decide⟩, ⟨{ rst with time := 10 ^ 15 }, by decide, by decide⟩,
    by decide, by decide, by decide⟩

theorem test_meets_ResetCommands :
    (up0.live = true ∧ 10 < (11 : BitVec 4).toNat ∧ (rst.part (partOf 0)).inReset = true ∧ (10 : BitVec 4).toNat ≤ 10 ∧ (up0.part (partOf 0)).inReset = false
      ∧ up0.active (partOf 0) = true ∧ up0.on RST.UNIT.BUSY = false ∧ up0.seg 0 = none)
    ∧ (∃ s : State, s.live = true ∧ s.on RST.UNIT.BUSY = true ∧ (s.core 0).unitReset = some (10, (0, false)) ∧ ∀ d : CoreIx, d ≠ 0 → (s.core d).unitReset = none)
    ∧ (rst.on BOOT.STATUS.STARTED = false ∧ link.live = true ∧ link.on (RST.PART_n.BUSY 3) = false ∧ link.on BOOT.STATUS.STARTED = true
      ∧ link.get (PART.POWER_n.STATE 3) ≠ 3 ∧ (link.put (PART.POWER_n.STATE 3) 3).get (PART.POWER_n.STATE 3) = 3)
    ∧ ((rst.put (RST.PART_n.BUSY 3) 1).on (RST.PART_n.BUSY 3) = true ∧ ((rst.put (RST.PART_n.BUSY 3) 1).part 3).inReset = true
      ∧ ((rst.put (RST.PART_n.BUSY 3) 1).part 3).resetWait = false
      ∧ (rst.put (RST.PART_n.BUSY 3) 1).boot.resetDue = none ∧ (rst.put (RST.PART_n.BUSY 3) 1).on (RST.PART_n.BUSY (toPart (3 : BitVec 4).toNat)) = true)
    ∧ (∀ k ∈ [3, 9], (((rst.put (RST.PART_n.BUSY 3) 1).put (RST.PART_n.STEP 3) k).get (RST.PART_n.STEP 3) = k
      ∧ ((rst.put (RST.PART_n.BUSY 3) 1).put (RST.PART_n.STEP 3) k).on (RST.PART_n.BUSY 3) = true)) :=
  ⟨by decide, ⟨(up0.put RST.UNIT.BUSY 1).modCore 0 (fun k => { k with unitReset := some (10, 0, false) }), by decide, by decide, by decide, by decide⟩, by decide, by decide,
    by decide⟩

theorem test_meets_BootStages :
    (rst.live = true ∧ rst.get BOOT.STATUS.STAGE = 0 ∧ rst.boot.stopped = false ∧ rst.power.bootAt ≤ rst.time)
    ∧ (∃ s : State, s.live = true ∧ s.get BOOT.STATUS.STAGE = 0 ∧ s.boot.stopped = false ∧ s.time < s.power.bootAt)
    ∧ (∃ s : State, s.live = true ∧ s.boot.stopped = true)
    ∧ ((rst.put BOOT.STATUS.STAGE 2).get BOOT.STATUS.STAGE = 2 ∧ (rst.put BOOT.STATUS.STAGE 3).get BOOT.STATUS.STAGE = 3)
    ∧ (∃ s : State, s.live = true ∧ s.get BOOT.STATUS.STAGE = 4 ∧ s.boot.shellOk = true ∧ s.on BOOT.STATUS.STARTED = false)
    ∧ (full.live = true ∧ full.on BOOT.STATUS.STARTED = true ∧ full.on BOOT.ATT_CTRL.BUSY = false ∧ rst.on BOOT.ATT_CTRL.BUSY = false)
    ∧ (∃ s : State, s.live = true ∧ s.on BOOT.ATT_CTRL.BUSY = true ∧ s.boot.key.isSome = true ∧ s.boot.h10Leaf < 1024) :=
  ⟨by decide, ⟨{ rst with power := { rst.power with bootAt := 800000 } }, by decide, by decide, by decide, by decide⟩,
    ⟨{ rst with boot := { rst.boot with stopped := true } }, by decide, by decide⟩, by decide,
    ⟨{ (rst.put BOOT.STATUS.STAGE 4) with boot := { rst.boot with shellOk := true } }, by decide, by decide, by decide, by decide⟩, by decide,
    ⟨{ (full.put BOOT.ATT_CTRL.BUSY 1) with boot := { rst.boot with key := some 0, h10Leaf := 1023 } }, by decide, by decide, by decide, by decide⟩⟩

/-- A CONFIG of no presets. -/
def config0 : List Byte := splice (List.replicate 0x190 0) 0 [1]
/-- An EEPROM whose module bytes are zeros, so that its CRC can be computed. -/
def plate : Sparse Byte := ((List.range 0x1FC).filter (fun a => (factoryFixed a).isNone && !(decide (0x38 ≤ a) && decide (a < 0x40)))).map (fun a => (a, 0))

theorem test_meets_BootStages_shell :
    configBad config0 = none ∧ configBad (splice config0 4 [1]) = some 4
    ∧ ({ rst with eeprom := plate } : State).identityBad = 0 ∧ ({ rst with eeprom := (0, 7) :: plate } : State).identityBad ≠ 0 := by decide +kernel

/-- A line of bank 1 fails: with spares left, with none. Fuse 4,096 is not burned. -/
theorem test_meets_BootStages_faults :
    (∃ s : State, s.live = true ∧ s.get BOOT.STATUS.STAGE = 2 ∧ (s.remapped 1).contains (65536 * 1 + (9 : BitVec 16).toNat) = false
      ∧ (s.remapped 1).length + Sparse.get s.boot.spares 1 0 < 64)
    ∧ (∃ s : State, s.live = true ∧ s.get BOOT.STATUS.STAGE = 2 ∧ (s.remapped 1).contains (65536 * 1 + (9 : BitVec 16).toNat) = false
      ∧ 64 ≤ (s.remapped 1).length + Sparse.get s.boot.spares 1 0)
    ∧ (∃ s : State, s.live = true ∧ s.on BOOT.ATT_CTRL.BUSY = true ∧ s.boot.key = none ∧ s.boot.block = none
      ∧ (List.range 2048).find? (fun j => !(bit s.fuses (4096 + j))) = some 0) :=
  ⟨⟨rst.put BOOT.STATUS.STAGE 2, by decide⟩, ⟨{ (rst.put BOOT.STATUS.STAGE 2) with boot := { rst.boot with spares := [(1, 64)] } }, by decide⟩,
    ⟨full.put BOOT.ATT_CTRL.BUSY 1, by decide +kernel⟩⟩

theorem test_meets_BootStages_spent :
    ∃ s : State, s.live = true ∧ s.on BOOT.ATT_CTRL.BUSY = true ∧ s.boot.key = none ∧ s.boot.block = none
      ∧ ∀ j : Nat, j < 2048 → bit s.fuses (4096 + j) = true :=
  ⟨{ (full.put BOOT.ATT_CTRL.BUSY 1) with fuses := 2 ^ 6144 - 1 }, by decide, by decide, by decide, by decide, by decide +kernel⟩


/-- Model 3, RESIDENT or otherwise, with one shard record of length 0 at 1000h and a sweep of it waiting. -/
def swept (w : Nat) : State := (((model3 w).mdWr 3 8 4 0x10000).mdWr 3 0x18 8 0x1000).modWts (fun w => { w with sweeps := [(3, 0)] })
/-- The same with the SHA-384 digest of nothing in the record. -/
def sealed (w : Nat) : State := (swept w).wrLE 0x1000 48 0x5bb99848f1d21ad5fb656fe7bfde4e27dae1f663bfc70c4c4307be1411b7fd216ae3b1b17e32d94c3896ac51a760b038

theorem test_meets_WeightsOverTime_sweep :
    (∃ (s t u : State), s.live = true ∧ s.wts.sweeps = (3, 0) :: [] ∧ s.lanes < 32 ∧ t = s.modWts (fun w => { w with sweeps := [] }) ∧ s.mdState 3 = 2
      ∧ s.md4 3 7 7 = 1 ∧ s.active (s.mdPart 3) = true ∧ 0 < s.mdCount 3
      ∧ u = (shardRanges t 3 0).foldl (fun v p => ownerMeet (t.mdOwner 3) (pageCount p.1 p.2) p.1 p.2 v) t
      ∧ (shardInPlace u 3 0).2 = true ∧ sha384 (shardInPlace u 3 0).1 = u.rdBytes (s.shardAddr 3 0) 48)
    ∧ (∃ (s t u : State), s.live = true ∧ s.wts.sweeps = (3, 0) :: [] ∧ s.lanes < 32 ∧ t = s.modWts (fun w => { w with sweeps := [] }) ∧ s.mdState 3 = 3
      ∧ s.md4 3 7 7 = 1 ∧ s.active (s.mdPart 3) = true ∧ 0 < s.mdCount 3
      ∧ u = (shardRanges t 3 0).foldl (fun v p => ownerMeet (t.mdOwner 3) (pageCount p.1 p.2) p.1 p.2 v) t
      ∧ sha384 (shardInPlace u 3 0).1 ≠ u.rdBytes (s.shardAddr 3 0) 48) :=
  ⟨⟨sealed 0x82, _, _, by decide, rfl, by decide, rfl, by decide +kernel, by decide +kernel, by decide +kernel, by decide +kernel, rfl, by decide +kernel, by decide +kernel⟩,
    ⟨swept 0x83, _, _, by decide, rfl, by decide, rfl, by decide +kernel, by decide +kernel, by decide +kernel, by decide +kernel, rfl, by decide +kernel⟩⟩

/-- Core 0 in the kill sequence since the aclk of reset; with a unit reset of that time; partition 0 in a reset of that time. -/
def dying : State := ((up0.put (SEQ.STATE.STATE 0) 4).modCore 0 (fun k => { k with killed := some { time := 0, cause := 4, seg := seg0 } }))

theorem test_meets_ResetCommands_kill :
    (∃ x : State, x = ((run0 seg0).put RST.UNIT.CORE 0).put RST.UNIT.UNIT 10 ∧ (run0 seg0).live = true ∧ ((run0 seg0).part 0).inReset = false
      ∧ (run0 seg0).active 0 = true ∧ (run0 seg0).on RST.UNIT.BUSY = false ∧ killable (x.put RST.UNIT.BUSY 1) 0 = true)
    ∧ (up0.live = true ∧ killable (((up0.put RST.UNIT.CORE 0).put RST.UNIT.UNIT 10).put RST.UNIT.BUSY 1) 0 = false)
    ∧ (rst.boot.resetDue = none ∧ rst.attached = false)
    ∧ (∃ s : State, s.live = true ∧ s.boot.resetDue = none ∧ s.attached = true) ∧ (∃ s : State, s.live = true ∧ s.boot.resetDue.isSome = true) :=
  ⟨⟨_, rfl, by decide⟩, by decide, by decide, ⟨link.put FRL.STATUS.ATTACHED 1, by decide⟩,
    ⟨{ rst with boot := { rst.boot with resetDue := some 5 } }, by decide⟩⟩

/-- A chip reset called for, with the companion's flush running or not, its deadline past or not, and stopped after step 1. -/
def calls (due : Nat) (flush : Nat) (stop : Bool) : State :=
  { (full.put FRL.STATUS.FLUSH_BUSY flush) with boot := { full.boot with resetDue := some due, chipStop := stop } }
theorem test_meets_ResetCommands_chip :
    (∀ b ∈ [false, true], ∀ f ∈ [0, 1], ∀ d ∈ [0, 5], (calls d f b).live = true ∧ (calls d f b).boot.resetDue = some d ∧ (calls d f b).boot.chipTrace = false
      ∧ (calls d f b).boot.chipStop = b ∧ (calls d f b).tracer = none ∧ (calls d f b).get FRL.STATUS.FLUSH_BUSY = f ∧ (calls d f b).time = 0)
    ∧ (full.live = true ∧ full.boot.resetDue = none ∧ full.attached = false) := by decide +kernel

theorem test_meets_ResetCommands_late :
    (∃ s : State, s.live = true ∧ (coresOf 0).find? s.lateKill = some 0) ∧ (∃ s : State, s.live = true ∧ (coresOf 0).find? s.lateUnit = some 0)
    ∧ (∃ s : State, s.live = true ∧ s.on (RST.PART_n.BUSY 0) = true ∧ (s.part 0).resetWait = false ∧ s.get (RST.PART_n.STEP 0) = (1 : BitVec 4).toNat
      ∧ (s.part 0).late.contains (1 : BitVec 4).toNat = false ∧ (s.part 0).stepAt + partStepMax (s.part 0).resetRetain (1 : BitVec 4).toNat < s.time)
    ∧ rst.on (RST.PART_n.BUSY 0) = false
    ∧ (∃ (s : State) (a : Nat), s.live = true ∧ s.chipStep = ((4 : BitVec 4).toNat, a) ∧ s.boot.late.contains (4 : BitVec 4).toNat = false
      ∧ a + chipStepMax s.boot.retained (4 : BitVec 4).toNat < s.time)
    ∧ (∃ (s : State) (a : Nat), s.live = true ∧ s.chipStep = ((2 : BitVec 4).toNat, a) ∧ a + chipStepMax s.boot.retained (2 : BitVec 4).toNat < s.time)
    ∧ full.chipStep.1 ≠ (4 : BitVec 4).toNat :=
  ⟨⟨{ dying with time := 1024 }, by decide⟩, ⟨{ (up0.modCore 0 (fun k => { k with unitReset := some (10, 0, false) })) with time := 4000 }, by decide⟩,
    ⟨{ ((up0.put (RST.PART_n.BUSY 0) 1).put (RST.PART_n.STEP 0) 1) with time := 65 }, by decide⟩, by decide, ⟨{ rst with time := 1600000001 }, 0, by decide⟩,
    ⟨{ calls 0 0 true with time := 800001 }, 0, by decide⟩, by decide⟩

theorem test_meets_BootStages_more :
    (∃ s : State, s.live = true ∧ s.get BOOT.STATUS.STAGE = 4 ∧ s.boot.shellOk = false ∧ s.boot.stopped = false) ∧ full.on BOOT.STATUS.STARTED = true
    ∧ rst.on BOOT.STATUS.STARTED = false ∧ rst.on BOOT.ATT_CTRL.BUSY = false :=
  ⟨⟨rst.put BOOT.STATUS.STAGE 4, by decide⟩, by decide⟩
/-! ### Small tests; the expected values are the manual's own examples and tables -/

/-- The address that a flow of R113 leaves after n steps of −2^−12. -/
def blotSteps : Nat → Nat × Nat
  | 0 => (0x3F80, 0)
  | n + 1 => let p := blotSteps n; let r := storeW fmtBF16 (addX (restoreW fmtBF16 p.1 p.2) ((Num.ofInt (-1)).scale (-12))); (r.1, r.2.1)

/-- The command of the worked fold of 03: M 720, N 400, K 304, M_v 720, N_v 384, K_v 304, A in E5M2, B in E4M3, C in BF16. -/
def fold : List Byte :=
  cmd 0x10 (([(0x24, 44 * 2 ^ 16 + 24 * 2 ^ 24), (0x28, 18 + 719 * 2 ^ 8 + 383 * 2 ^ 20), (0x2C, 303 + 4 * 2 ^ 12 + 3 * 2 ^ 15 + 2 ^ 18)] : List (Nat × Nat)).map
    (fun p => (p.1, toLE 4 p.2)))

/-- R205, the worked word: check bits 0Dh; with d0 flipped the syndrome is 07h and the word is corrected. -/
theorem test_check_bits : checkBits 0x20 = 0x0D := by decide
theorem test_check_corrects : syndrome 0x21 0x0D = 0x07 ∧ decodeWord 0x21 0x0D = some 0x20 := by decide

/-- 08, one page in each local tier: the module bank of local offset 1_2345_6780h is 578; window offset 1234_6780h of T1 is on channel 4. -/
theorem test_bank : bankOf 0x123456780 = 578 := by decide
theorem test_channel : channelOf 0x12346780 = 4 := by decide

/-- 16, addressing three registers; R377: the FABRIC header. -/
theorem test_register_index :
    (IDL.COUNT_i_k.ACLK 5 3 9).addr = 0x8521C8 ∧ (GRT.PSTATE_p.STATE 7).addr = 0x0B02C0 ∧ (MGT.HEALTH_n.SCORE_STATE 2).addr = 0x140018 := by decide
theorem test_fabric_header : leNat (capHead 6 0x0E 0) = 0x0000000E00010006 := by decide

/-- R377: the FABRIC entry is at 88h, the BOOT header is at 18h with LENGTH 3Ch and NEXT 58h. -/
theorem test_cap_list : fieldAt rst.capList 0x88 8 = 0x0000000E00010006 ∧ fieldAt rst.capList 0x18 8 = 0x0058003C00010002 := by decide

/-- 05: 512 rows of 4,096 take 68,648 aclk as LN_FWD and 32,808 as LN_RECOMPUTE. -/
theorem test_row_times :
    rowTime (cmd 0x12 [(0x30, toLE 4 512), (0x34, toLE 4 255)]) = 68648
      ∧ rowTime (cmd 0x12 [(0x30, toLE 4 (512 + 2 ^ 16)), (0x34, toLE 4 255)]) = 32808 := by decide

/-- 03, the worked fold: 3 passes, 2 planes, 2 chunks, 12 in all, D = 264, I_min = 258; W = 128; the ragged idle of passes from 132 to 4,702 is 182. -/
theorem test_fold : (kPasses fold, nPlanes fold, mChunks fold, pTotal fold) = (3, 2, 2, 12) := by decide
theorem test_fold_timing :
    fmtClass (mmAFmt fold) = 1 ∧ chunkRows 1 = 512 ∧ drainTail 1 = 264 ∧ intervalMin 1 = 258 ∧ planeLoadTime 1 = 128
      ∧ raggedIdle { op1 with cmd := fold, nv := 384, kv := 304, s1 := 132, sP := 4494, mP := 208 } = 182 := by
  decide

/-- 04, scaling an output gradient: a = 0.0030 gives E = 24 and 0.0041 gives E = 23; −20,132.66 is stored as F5h. -/
theorem test_scale_exponent :
    scaleExp 4 (to32 (divX (.ofNat 30) (.ofNat 10000))) 0 = 24 ∧ scaleExp 4 (to32 (divX (.ofNat 41) (.ofNat 10000))) 0 = 23 := by decide
theorem test_e5m2 :
    encodeFmt fmtE5M2 (divX (.ofInt (-2013266)) (.ofNat 100)) = 0xF5
      ∧ encodeFmt fmtE5M2 (divX (.ofNat 839) (.ofNat 100000000)) = 1 ∧ encodeFmt fmtE5M2 (divX (.ofNat 671) (.ofNat 100000000)) = 0 := by decide

/-- 04, small updates to a BF16 weight: steps 1, 2, 8 and 9 of the table. -/
theorem test_blotter :
    blotSteps 1 = (0x3F80, 0xF800) ∧ blotSteps 2 = (0x3F80, 0xF000) ∧ blotSteps 8 = (0x3F80, 0xC000) ∧ blotSteps 9 = (0x3F7F, 0x7000) := by
  decide

/-- 02, a serving row under a thermal reduction: the open slots of a window at G = 14 are 1 to 7 and 9 to 15, and G = 12 leaves 12 open. -/
theorem test_gate_slots : ((List.range 16).filter (slotOpen 14)) = [1, 2, 3, 4, 5, 6, 7, 9, 10, 11, 12, 13, 14, 15] ∧ ((List.range 16).filter (slotOpen 12)).length = 12 := by decide

/-- 00, reading a counter: the low half is returned and the counter cleared; the high half comes from the latch. -/
theorem test_rc_halves :
    let s := { up0 with time := 7 }.put (IDL.COUNT_i_k.ACLK 0 0 9) 0x1A40
    let r := s.regRead .ferrule 0x802048 false
    r.1 = 0x1A40 ∧ r.2.get (IDL.COUNT_i_k.ACLK 0 0 9) = 0 ∧ (r.2.regRead .ferrule 0x80204C false).1 = 0 := by decide

/-- CRC-32 of "123456789" is CBF4_3926h, the check value of the CRC that R342 names. -/
theorem test_crc32 : crc32 (ascii [0x31, 0x32, 0x33, 0x34, 0x35, 0x36, 0x37, 0x38, 0x39]) = 0xCBF43926 := by decide

/-- 10, retiring lane 5: on SPARE_REQ with LANE = 5 the peer copies logical lane 5 onto the spare; on SPARE_DONE physical lane 5 falls quiet. -/
theorem test_spare_lane :
    let s := (full.put (linkState (toLink 3)) 2).modLink (toLink 3) (fun k => { k with txLanes := List.range 8 })
    let r := Out.after s (execSpareReq (toLink 3) 5 s)
    (r.link (toLink 3)).shadowTx = 5 ∧ ((Out.after r (execSpareDone (toLink 3) 5 r)).link (toLink 3)).quiet = [5] := by decide

/-- A name is bits [63:21] of an address; the origin of parcel 0050_0000_0800_0000h is module 5 (09, the worked example). -/
theorem test_parcel_origin : originOf (nameOf 0x0050000008000000) = 5 := by decide

/-- The bound of R121 by values of a table of functions: e is 402D_F854h, ln 2 is 3F31_7218h, tanh 1 is 3F42_F7D6h, to the nearest code; 402D_F857h
is more than 2 ulp from e. -/
theorem test_two_ulp :
    to32 (expExact .one) = 0x402DF854 ∧ to32 (lnExact (.ofNat 2)) = 0x3F317218 ∧ to32 (tanhExact .one) = 0x3F42F7D6
      ∧ near2 (f32 0x402DF856) (expExact .one) = true ∧ near2 (f32 0x402DF857) (expExact .one) = false := by decide


end Sys2Proof.Tests
end

section
/-! PROOF. The state of the module at reset: what every field, partition, core and link holds (R22, R332). -/

namespace Sys2Proof.Machine

/-! ### The state of reset (R22, R332) -/

/-- No field is listed at reset, so each reads its reset value (R6). -/
@[simp] theorem reset_get (f : Field) : State.reset.get f = f.reset := rfl
@[simp] theorem reset_inForce (f : Field) : State.reset.inForce f = f.reset := rfl
@[simp] theorem reset_part (n : PartIx) : State.reset.part n = {} := Vector.getElem_replicate n.isLt
@[simp] theorem reset_core (c : CoreIx) : State.reset.core c = {} := Vector.getElem_replicate c.isLt

/-- The STATE field of a link has the reset value 0 (DOWN), the Ferrule port's and the Graticule ports' alike. -/
theorem linkState_reset (l : LinkIx) : (linkState l).reset = 0 := by
  unfold linkState
  split <;> rfl

end Sys2Proof.Machine

namespace Sys2Proof.Proofs

open Sys2Proof.Machine

/-- Settles O2: at reset no field is listed and every partition, core and unit is at its default. -/
theorem resetValues : Obligations.ResetValues := by
  have hpart : ∀ n : PartIx, (State.reset.part n).inReset = true := fun n => by rw [reset_part]
  have hseg : ∀ c : CoreIx, State.reset.seg c = none := fun c => congrArg Core.seg (reset_core c)
  exact ⟨fun f => ⟨reset_get f, reset_inForce f⟩, fun n => ⟨hpart n, rfl, rfl, rfl⟩, hseg, rfl, rfl, rfl, rfl,
    fun l => linkState_reset l, rfl, rfl, rfl, rfl, fun a => ⟨rfl, rfl⟩⟩

end Sys2Proof.Proofs

end

section
/-! PROOF. Transfers of the management bus (R371), as accesses of the management agent to the words of the MGT block. -/

namespace Sys2Proof.Machine

/-! ### Bytes of a number (R5) -/

theorem length_toLE (k v : Nat) : (toLE k v).length = k := by
  induction k generalizing v with
  | zero => rfl
  | succ k ih => exact congrArg (· + 1) (ih (v / 256))

theorem leNat_toLE (k v : Nat) : leNat (toLE k v) = v % 256 ^ k := by
  induction k generalizing v with
  | zero => exact (Nat.mod_one v).symm
  | succ k ih =>
    have hbyte : (BitVec.ofNat 8 v).toNat = v % 256 := BitVec.toNat_ofNat v 8
    calc leNat (toLE (k + 1) v) = v % 256 + 256 * (v / 256 % 256 ^ k) := by rw [toLE, leNat, hbyte, ih]
      _ = v % 256 ^ (k + 1) := by rw [Nat.pow_succ', Nat.mod_mul]

/-! ### The management bus (R371) -/

/-- From step 3 of R21 on the target answers. -/
theorem State.mgmtUp_of_phase {s : State} {k : Nat} (hp : s.power.phase = .up k) (hk : 3 ≤ k) : s.mgmtUp = true := by
  simp [State.mgmtUp, hp, hk]

/-- While the target answers, a command of the bus has its effect. -/
theorem act_mgmtUp {s : State} {k : Nat} (hp : s.power.phase = .up k) (hk : 3 ≤ k) (t : State) : act s s.mgmtUp t = .next t := by
  rw [State.mgmtUp_of_phase hp hk, act_true]

/-- Four bytes at the offset of a register of the MGT block write that register. -/
theorem State.mgtWrite_word (s : State) (off v : Nat) (ho : off % 4 = 0) (hb : off < 0x10000) (hv : v < 256 ^ 4) :
    s.mgtWrite off (toLE 4 v) = s.regWrite .mgmt (0x140000 + off) false v := by
  have hval : fieldAt (toLE 4 v) (4 * 0) 4 = v := by
    rw [fieldAt, Nat.mul_zero, List.drop_zero, List.take_of_length_le (Nat.le_of_eq (length_toLE 4 v)), leNat_toLE, Nat.mod_eq_of_lt hv]
  simp only [State.mgtWrite, length_toLE, Nat.div_self (Nat.succ_pos 3), List.range_one, List.foldl_cons, List.foldl_nil, hval,
    Nat.mul_zero, Nat.add_zero, ho, hb, and_self, if_true]

/-- One word of the block: its four bytes, and the state after the read of it. -/
theorem State.mgtWords_one (s : State) (o : Nat) : State.mgtWords 1 o s = (toLE 4 (s.mgtWord o).1, (s.mgtWord o).2) := by
  simp only [State.mgtWords, List.append_nil]

/-- PRIVATE_READ is dispatched to its meaning (R371). -/
theorem exec_privateRead (n : Nat) (s : State) : exec (.privateRead n) s = execPrivateRead n s := rfl

/-- A read of 1 to 64 bytes: each word that they lie in, in turn. -/
theorem execPrivateRead_eq {s : State} {k : Nat} (hp : s.power.phase = .up k) (hk : 3 ≤ k) {n : Nat} (h1 : 1 ≤ n) (h64 : n ≤ 64) :
    execPrivateRead n s
      = .next (((State.mgtWords (ceilDiv (s.mgt.off % 4 + n) 4) (s.mgt.off / 4 * 4) s).2.i3cSend
          (slice (State.mgtWords (ceilDiv (s.mgt.off % 4 + n) 4) (s.mgt.off / 4 * 4) s).1 (s.mgt.off % 4) n)).modMgt
            (fun m => { m with off := s.mgt.off + n })) := by
  simp only [execPrivateRead, Nat.min_eq_left h64, act_mgmtUp hp hk, if_neg (Nat.ne_of_gt h1)]

/-- A read of four bytes at an aligned offset is one word of the block. -/
theorem execPrivateRead_word {s : State} {k : Nat} (hp : s.power.phase = .up k) (hk : 3 ≤ k) (ho : s.mgt.off % 4 = 0) :
    execPrivateRead 4 s = .next (((s.mgtWord s.mgt.off).2.i3cSend (toLE 4 (s.mgtWord s.mgt.off).1)).modMgt
      (fun m => { m with off := s.mgt.off + 4 })) := by
  have hoff : s.mgt.off / 4 * 4 = s.mgt.off := Nat.div_mul_cancel (Nat.dvd_of_mod_eq_zero ho)
  have hone : ceilDiv (0 + 4) 4 = 1 := rfl
  have hall (v : Nat) : slice (toLE 4 v) 0 4 = toLE 4 v := List.take_of_length_le (Nat.le_of_eq (length_toLE 4 v))
  rw [execPrivateRead_eq hp hk (by decide) (by decide), ho, hoff, hone, State.mgtWords_one, hall]

end Sys2Proof.Machine

namespace Sys2Proof.Proofs

open Sys2Proof.Machine

/-- Settles O9: a transfer is a sequence of accesses of the management agent to words of the MGT block. -/
theorem privateTransfers : Obligations.PrivateTransfers := by
  intro s k hp hk
  have write (off : Byte) (bs : List Byte) : exec (.privateWrite off bs) s
      = .next (if s.live then (s.modMgt (fun m => { m with off := off.toNat })).mgtWrite off.toNat bs
          else s.modMgt (fun m => { m with off := off.toNat })) := act_mgmtUp hp hk _
  refine ⟨fun off => ?_, fun off v hlive ho => ?_, fun ho hb => ?_, fun ho hb => ?_, fun n h1 h64 => execPrivateRead_eq hp hk h1 h64, ?_⟩
  · rw [write]
    exact congrArg Host.Outcome.next (ite_self _)
  · rw [write, if_pos hlive, State.mgtWrite_word _ _ _ ho (by omega) v.isLt]
    rfl
  · rw [exec_privateRead, execPrivateRead_word hp hk ho, State.mgtWord, if_pos hb]
  · rw [exec_privateRead, execPrivateRead_word hp hk ho, State.mgtWord, if_neg (by omega)]
    have hzero : toLE 4 0 = [0, 0, 0, 0] := by decide
    exact hzero ▸ rfl
  · exact act_mgmtUp hp hk _

end Sys2Proof.Proofs

end

section
/-! PROOF. Register accesses: what a write gives a field of each type (R6 to R8), what an agent's access of a register does (R9 to R11, R376), and
the halves of a 64-bit register (R11). -/

namespace Sys2Proof.Machine

/-! ### Bits of a number -/

/-- Subtracting the bits that x shares with y clears exactly those. -/
theorem testBit_sub_and (x y i : Nat) : (x - (x &&& y)).testBit i = (x.testBit i && !(y.testBit i)) := by
  have hle : x &&& y ≤ x := Nat.and_le_left
  have hlow : (x &&& y) % 2 = 1 ↔ x % 2 = 1 ∧ y % 2 = 1 := Nat.and_mod_two_eq_one
  induction i generalizing x y with
  | zero =>
    have hbit : (x - (x &&& y)) % 2 = 1 ↔ x % 2 = 1 ∧ y % 2 ≠ 1 := by omega
    simp only [Nat.testBit_zero, hbit, Bool.decide_and, decide_not, ne_eq]
  | succ i ih =>
    have hhalf : (x - (x &&& y)) / 2 = x / 2 - (x / 2 &&& y / 2) := by
      rw [← Nat.and_div_two]
      omega
    rw [Nat.testBit_succ, Nat.testBit_succ, Nat.testBit_succ, hhalf, ih _ _ Nat.and_le_left Nat.and_mod_two_eq_one]

/-- Taking off the bits of x that stand in y and not in k leaves those of x that y lacks or k holds (R8). -/
theorem testBit_sub_land (x y k i : Nat) :
    (x - Nat.land x (y - Nat.land y k)).testBit i = (x.testBit i && (!(y.testBit i) || k.testBit i)) :=
  calc (x - (x &&& (y - (y &&& k)))).testBit i
      _ = (x.testBit i && !(y.testBit i && !(k.testBit i))) := by rw [testBit_sub_and, testBit_sub_and]
      _ = (x.testBit i && (!(y.testBit i) || k.testBit i)) := by rw [Bool.not_and, Bool.not_not]

/-! ### A field takes what is written (R6, R8) -/

/-- A whole write gives a field its bits of the value. -/
theorem written_whole (f : FieldRow) (old v : Nat) : written f old v 0 = some (bits v f.hi f.lo) := by
  rw [written, if_neg (Nat.not_lt_zero _), if_pos (Nat.zero_le _)]

section
variable {s : State} {r : RegRow} {inst v : Nat} {f : FieldRow}

theorem storeField_rw (h : f.type = .rw) : s.storeField r inst v 0 f = s.put (f.at_ inst) (bits v f.hi f.lo) := by
  simp only [State.storeField, written_whole, h]

/-- RO, RC and WO fields hold nothing that is written to them. -/
theorem storeField_ignored (h : f.type = .ro ∨ f.type = .rc ∨ f.type = .wo) : s.storeField r inst v 0 f = s := by
  rcases h with h | h | h <;> simp only [State.storeField, written_whole, h]

theorem storeField_lk (h : f.type = .lk) :
    s.storeField r inst v 0 f = if s.on BOOT.STATUS.STARTED then s else s.put (f.at_ inst) (bits v f.hi f.lo) := by
  simp only [State.storeField, written_whole, h]

theorem storeField_sh (h : f.type = .sh) (hfree : s.applyHolds (f.at_ inst) = none) :
    s.storeField r inst v 0 f = (s.put (f.at_ inst) (bits v f.hi f.lo)).pendSh (f.at_ inst).key (ownerOf r inst) := by
  simp only [State.storeField, written_whole, h, hfree]

theorem storeField_w1c (h : f.type = .w1c) :
    s.storeField r inst v 0 f = s.put (f.at_ inst) (s.get (f.at_ inst) - Nat.land (s.get (f.at_ inst))
      (bits v f.hi f.lo - Nat.land (bits v f.hi f.lo) (Sparse.get s.noted (f.at_ inst).key 0))) := by
  simp only [State.storeField, written_whole, h, if_neg (Nat.not_lt_zero _), if_pos (Nat.zero_le _)]

/-- A field that no profile apply holds keeps its value, takes one, or takes one that waits for its boundary (R6, R7). -/
theorem storeField_cases (r : RegRow) (v : Nat) (hfree : s.applyHolds (f.at_ inst) = none) :
    s.storeField r inst v 0 f = s ∨ (∃ w, s.storeField r inst v 0 f = s.put (f.at_ inst) w)
      ∨ ∃ w, s.storeField r inst v 0 f = (s.put (f.at_ inst) w).pendSh (f.at_ inst).key (ownerOf r inst) := by
  cases h : f.type with
  | rw => exact .inr (.inl ⟨_, storeField_rw h⟩)
  | ro => exact .inl (storeField_ignored (.inl h))
  | w1c => exact .inr (.inl ⟨_, storeField_w1c h⟩)
  | rc => exact .inl (storeField_ignored (.inr (.inl h)))
  | wo => exact .inl (storeField_ignored (.inr (.inr h)))
  | lk =>
    rw [storeField_lk h]
    split
    · exact .inl rfl
    · exact .inr (.inl ⟨_, rfl⟩)
  | sh => exact .inr (.inr ⟨_, storeField_sh h hfree⟩)

end

/-! ### Fields that wait for a boundary (R7) -/

@[simp] theorem State.get_pendSh (s : State) (k o : Nat) (f : Field) : (s.pendSh k o).get f = s.get f := rfl
@[simp] theorem State.inForce_pendSh (s : State) (k o : Nat) (f : Field) : (s.pendSh k o).inForce f = s.inForce f := rfl
@[simp] theorem State.mem_pendSh (s : State) (k o : Nat) : (s.pendSh k o).mem = s.mem := rfl
@[simp] theorem State.synd_pendSh (s : State) (k o : Nat) : (s.pendSh k o).synd = s.synd := rfl

end Sys2Proof.Machine

namespace Sys2Proof.Proofs

open Sys2Proof.Machine

/-- Settles O16, by the type of the field. -/
theorem fieldTypes : Obligations.FieldTypes := by
  intro s r inst v f _
  refine ⟨storeField_rw, fun h => storeField_ignored (h.imp_right .inl), fun h hw i hi => ?_,
    fun h hs => by rw [storeField_lk h, hs]; rfl, fun h hs => by rw [storeField_lk h, if_pos hs], fun h hfree => ?_,
    fun g hg hfree => ?_⟩
  · rw [storeField_w1c h, State.get_put_same, Nat.mod_eq_of_lt (Nat.lt_of_le_of_lt (Nat.sub_le _ _) hw), testBit_sub_land]
  · rw [storeField_sh h hfree]
    exact ⟨State.get_put_same s _ _, fun _ => rfl⟩
  · rcases storeField_cases r v hfree with h | ⟨w, h⟩ | ⟨w, h⟩ <;> rw [h]
    · exact ⟨rfl, rfl, rfl⟩
    · exact ⟨State.get_put_other s _ _ w hg, rfl, rfl⟩
    · exact ⟨State.get_put_other s _ _ w hg, rfl, rfl⟩

end Sys2Proof.Proofs

namespace Sys2Proof.Machine

/-! ### Two registers of the table -/

/-- The row of HLT.CFG (R335). -/
def rowHltCfg : RegRow := ⟨"HLT.CFG", 0x100000, [], false, .shell,
  [⟨"WINDOW_S", .sh, 7, 0, 60⟩, ⟨"CE_UNIT", .sh, 15, 8, 64⟩, ⟨"WATCH_BELOW", .sh, 23, 16, 192⟩, ⟨"FAIL_BELOW", .sh, 31, 24, 64⟩]⟩

theorem rowHltCfg_fields : rowHltCfg.fields
    = [⟨"WINDOW_S", .sh, 7, 0, 60⟩, ⟨"CE_UNIT", .sh, 15, 8, 64⟩, ⟨"WATCH_BELOW", .sh, 23, 16, 192⟩, ⟨"FAIL_BELOW", .sh, 31, 24, 64⟩] := rfl

/-- The row of PWR.EVENTS (R28, R30). -/
def rowPwrEvents : RegRow := ⟨"PWR.EVENTS", 0x8, [], false, .shell,
  [⟨"PEAK", .w1c, 0, 0, 0⟩, ⟨"EXCURSION", .w1c, 1, 1, 0⟩, ⟨"AVERAGE", .w1c, 2, 2, 0⟩, ⟨"THERMAL", .w1c, 3, 3, 0⟩, ⟨"COUNT", .rc, 31, 16, 0⟩]⟩

theorem findReg_hltCfg : findReg 0x100000 = some (rowHltCfg, 0x100000, 0) := by decide
theorem findReg_pwrEvents : findReg 8 = some (rowPwrEvents, 8, 0) := by decide

/-! ### Accesses of an agent (R9 to R11, R376) -/

section
variable {s : State} {ag : Agent} {off : BitVec 24} {wide : Bool} {v : Word}

theorem exec_registerWrite (ag : Agent) (off : BitVec 24) (wide : Bool) (v : Word) (s : State) :
    exec (.registerWrite ag off wide v) s = execRegisterWrite ag off wide v s := rfl

theorem exec_rcFieldRead (ag : Agent) (off : BitVec 24) (wide : Bool) (s : State) :
    exec (.rcFieldRead ag off wide) s = execRcFieldRead ag off wide s := rfl

/-- A write that reaches its register, and that a preset may make where it is the firmware's, writes it. -/
theorem execRegisterWrite_reached (hlive : s.live = true) (hfits : regFits off.toNat wide = true)
    (hreach : s.reaches ag off.toNat true = true) (hag : ag ≠ .firmware ∨ firmwareFits off.toNat v.toNat = true) :
    execRegisterWrite ag off wide v s = .next ((s.regWrite ag off.toNat wide v.toNat).noteLk s off.toNat) := by
  have hset : ¬((decide (ag = .firmware) && !(firmwareFits off.toNat v.toNat)) = true) := by
    rcases hag with h | h <;> simp [h]
  rw [execRegisterWrite, hlive, hfits, hreach, Bool.and_self, Bool.and_self, act_true, if_neg hset]

/-- A write of the firmware that no preset may make is skipped. -/
theorem execRegisterWrite_skipped (hlive : s.live = true) (hfits : regFits off.toNat wide = true)
    (hreach : s.reaches .firmware off.toNat true = true) (hbad : firmwareFits off.toNat v.toNat = false) :
    execRegisterWrite .firmware off wide v s = .next (s.presetSkipped off.toNat) := by
  rw [execRegisterWrite, hlive, hfits, hreach, hbad]
  rfl

theorem execRegisterWrite_unreached (hreach : s.reaches ag off.toNat true = false) : execRegisterWrite ag off wide v s = .next s := by
  rw [execRegisterWrite, hreach, Bool.and_false, act_false]

theorem execRcFieldRead_reached (hlive : s.live = true) (hfits : regFits off.toNat wide = true)
    (hreach : s.reaches ag off.toNat false = true) : execRcFieldRead ag off wide s = .next (s.regRead ag off.toNat wide).2 := by
  rw [execRcFieldRead, hlive, hfits, hreach]
  rfl

theorem execRcFieldRead_unreached (hreach : s.reaches ag off.toNat false = false) : execRcFieldRead ag off wide s = .next s := by
  rw [execRcFieldRead, hreach, Bool.and_false, act_false]

end

/-- A write of an offset that holds no register discards the agent's latch and hold (R11). -/
theorem regWrite_hole {s : State} {off : Nat} (ag : Agent) (wide : Bool) (v : Nat) (hm : inModels off = false) (hw : inWindow off = false)
    (hr : findReg off = none) : (s.regWrite ag off wide v).noteLk s off = s.setAgent ag none none := by
  simp only [State.regWrite, hm, hw, hr, State.noteLk, Bool.false_eq_true, if_false]

theorem presetSkipped_eq (s : State) (off : Nat) : s.presetSkipped off
    = State.raise { s with free := s.free + 1 } { code := 0x66, domain := 0, addr := off, d0 := (Config.freeWord s.free).toNat % 1024 } := rfl

/-! ### A write of HLT.CFG and a read of PWR.EVENTS -/

/-- No profile is applied in any partition (R191). -/
def State.noApply (s : State) : Prop := ∀ n : PartIx, s.on (SCH.PROFILE_n.BUSY n) = false

theorem applyHolds_of_noApply {s : State} (h : s.noApply) (f : Field) : s.applyHolds f = none := by
  refine List.find?_eq_none.mpr fun n _ => ?_
  rw [h n, Bool.false_and]
  exact Bool.false_ne_true

/-- An SH field other than BUSY is stored and waits for its boundary; still no profile is applied. -/
theorem storeField_sh_noApply {s : State} {r : RegRow} {inst : Nat} {f : FieldRow} (hs : s.noApply) (hf : f.type = .sh)
    (hkey : ∀ n : PartIx, (SCH.PROFILE_n.BUSY n).key ≠ (f.at_ inst).key) (v : Nat) :
    s.storeField r inst v 0 f = (s.put (f.at_ inst) (bits v f.hi f.lo)).pendSh (f.at_ inst).key (ownerOf r inst)
      ∧ ((s.put (f.at_ inst) (bits v f.hi f.lo)).pendSh (f.at_ inst).key (ownerOf r inst)).noApply := by
  refine ⟨storeField_sh hf (applyHolds_of_noApply hs _), fun n => ?_⟩
  have h := hs n
  rw [State.on] at h ⊢
  rwa [State.get_pendSh, State.get_put_other _ _ _ _ (hkey n)]

/-- An SH field stored and left to its boundary: what a write of it makes of the state. -/
def State.storeSh (s : State) (f : Field) (v : Nat) : State := (s.put f v).pendSh f.key 4

/-- The state after a write of HLT.CFG by an agent. -/
def State.hltCfgWritten (s : State) (ag : Agent) (v : Nat) : State :=
  ((((s.setAgent ag none none).storeSh HLT.CFG.WINDOW_S (bits v 7 0)).storeSh HLT.CFG.CE_UNIT (bits v 15 8)).storeSh
    HLT.CFG.WATCH_BELOW (bits v 23 16)).storeSh HLT.CFG.FAIL_BELOW (bits v 31 24)

@[simp] theorem State.inForce_storeSh (s : State) (f g : Field) (v : Nat) : (s.storeSh f v).inForce g = s.inForce g := rfl
@[simp] theorem State.mem_storeSh (s : State) (f : Field) (v : Nat) : (s.storeSh f v).mem = s.mem := rfl
@[simp] theorem State.synd_storeSh (s : State) (f : Field) (v : Nat) : (s.storeSh f v).synd = s.synd := rfl

theorem hltCfgWritten_eq (s : State) (ag : Agent) (v : Nat) : s.hltCfgWritten ag v
    = ((((s.setAgent ag none none).storeSh HLT.CFG.WINDOW_S (bits v 7 0)).storeSh HLT.CFG.CE_UNIT (bits v 15 8)).storeSh
        HLT.CFG.WATCH_BELOW (bits v 23 16)).storeSh HLT.CFG.FAIL_BELOW (bits v 31 24) := rfl

theorem hltCfgWritten_inForce (s : State) (ag : Agent) (v : Nat) (f : Field) : (s.hltCfgWritten ag v).inForce f = s.inForce f := by
  simp only [hltCfgWritten_eq, State.inForce_storeSh]
  rfl

theorem hltCfgWritten_mem (s : State) (ag : Agent) (v : Nat) : (s.hltCfgWritten ag v).mem = s.mem ∧ (s.hltCfgWritten ag v).synd = s.synd := by
  simp only [hltCfgWritten_eq, State.mem_storeSh, State.synd_storeSh]
  exact ⟨rfl, rfl⟩

theorem foldl_storeField_hltCfg {s : State} (hs : s.noApply) (v : Nat) :
    rowHltCfg.fields.foldl (fun t f => t.storeField rowHltCfg 0x100000 v 0 f) s
      = (((s.storeSh HLT.CFG.WINDOW_S (bits v 7 0)).storeSh HLT.CFG.CE_UNIT (bits v 15 8)).storeSh
          HLT.CFG.WATCH_BELOW (bits v 23 16)).storeSh HLT.CFG.FAIL_BELOW (bits v 31 24) := by
  have step {t : State} (ht : t.noApply) (f : FieldRow) (hf : f ∈ rowHltCfg.fields) :
      t.storeField rowHltCfg 0x100000 v 0 f = t.storeSh (f.at_ 0x100000) (bits v f.hi f.lo)
        ∧ (t.storeSh (f.at_ 0x100000) (bits v f.hi f.lo)).noApply := by
    have hsh : ∀ f ∈ rowHltCfg.fields, f.type = .sh := by decide
    have hkey : ∀ f ∈ rowHltCfg.fields, ∀ n : PartIx, (SCH.PROFILE_n.BUSY n).key ≠ (f.at_ 0x100000).key := by decide
    exact storeField_sh_noApply ht (hsh f hf) (hkey f hf) v
  obtain ⟨e1, h1⟩ := step hs ⟨"WINDOW_S", .sh, 7, 0, 60⟩ (by decide)
  obtain ⟨e2, h2⟩ := step h1 ⟨"CE_UNIT", .sh, 15, 8, 64⟩ (by decide)
  obtain ⟨e3, h3⟩ := step h2 ⟨"WATCH_BELOW", .sh, 23, 16, 192⟩ (by decide)
  obtain ⟨e4, -⟩ := step h3 ⟨"FAIL_BELOW", .sh, 31, 24, 64⟩ (by decide)
  rw [rowHltCfg_fields, List.foldl_cons, List.foldl_cons, List.foldl_cons, List.foldl_cons, List.foldl_nil, e1, e2, e3, e4]
  rfl

theorem rowHltCfg_noLk : rowHltCfg.fields.any (fun f => decide (f.type = .lk)) = false := by decide

/-- HLT.CFG is the shell's, holds no LK field and acts on nothing: a write of it stores its fields. -/
theorem updateReg_hltCfg {s : State} (ag : Agent) (hs : s.noApply) (v : Nat) :
    s.updateReg ag rowHltCfg 0x100000 v 0
      = (((s.storeSh HLT.CFG.WINDOW_S (bits v 7 0)).storeSh HLT.CFG.CE_UNIT (bits v 15 8)).storeSh
          HLT.CFG.WATCH_BELOW (bits v 23 16)).storeSh HLT.CFG.FAIL_BELOW (bits v 31 24) := by
  have hlk : s.lkIgnored rowHltCfg 0x100000 ag = s := by
    rw [State.lkIgnored, rowHltCfg_noLk, Bool.and_false]
    rfl
  have hpart : regPart rowHltCfg 0x100000 = none := rfl
  simp only [State.updateReg, hpart, hlk]
  exact foldl_storeField_hltCfg hs v

theorem regWrite_hltCfg {s : State} (ag : Agent) {v : Nat} (hv : v < 4294967296) (hs : s.noApply) :
    (s.regWrite ag 0x100000 false v).noteLk s 0x100000 = s.hltCfgWritten ag v := by
  have hin : inModels 0x100000 = false ∧ inWindow 0x100000 = false := by decide
  have hwide : rowHltCfg.wide = false := rfl
  simp only [State.regWrite, hin.1, hin.2, findReg_hltCfg, hwide, State.noteLk, rowHltCfg_noLk, Bool.and_false, Bool.false_eq_true,
    if_false]
  rw [updateReg_hltCfg (s := s.setAgent ag none none) ag hs, Nat.mod_eq_of_lt hv]
  rfl

theorem State.get_storeSh_same (s : State) (f : Field) (v : Nat) : (s.storeSh f v).get f = v % 2 ^ f.width := State.get_put_same s f v

theorem State.get_storeSh_other (s : State) (f g : Field) (v : Nat) (h : g.key ≠ f.key) : (s.storeSh f v).get g = s.get g :=
  State.get_put_other s f g v h

/-- Every field of HLT.CFG is one that a preset may write (R350). -/
theorem firmwareFits_hltCfg (v : Nat) : firmwareFits 0x100000 v = true := by
  have hin : inModels 0x100000 = false := by decide
  have hwide : rowHltCfg.wide = false := rfl
  have hany : rowHltCfg.fields.any (fun f => presetType f.type) = true := by decide
  have hall : rowHltCfg.fields.all (fun f => presetType f.type || zeroBits (v % 4294967296) f.hi f.lo) = true := by
    have h : ∀ f ∈ rowHltCfg.fields, presetType f.type = true := by decide
    exact List.all_eq_true.mpr fun f hf => by rw [h f hf, Bool.true_or]
  have hlt : v % 4294967296 < 4294967296 := Nat.mod_lt _ (by decide)
  simp only [firmwareFits, hin, findReg_hltCfg, presetFits, hwide, hany, hall, hlt, Bool.false_eq_true, if_false, decide_true, Bool.or_true,
    Bool.and_true]

/-- After a write of HLT.CFG its fields read what was written, none of them in force yet, and every other field is as it was. -/
theorem hltCfgWritten_spec (s : State) (ag : Agent) (v : Nat) :
    (s.hltCfgWritten ag v).get HLT.CFG.WINDOW_S = bits v 7 0 ∧ (s.hltCfgWritten ag v).get HLT.CFG.CE_UNIT = bits v 15 8
    ∧ (s.hltCfgWritten ag v).get HLT.CFG.WATCH_BELOW = bits v 23 16 ∧ (s.hltCfgWritten ag v).get HLT.CFG.FAIL_BELOW = bits v 31 24
    ∧ sameFieldsBut [HLT.CFG.WINDOW_S, HLT.CFG.CE_UNIT, HLT.CFG.WATCH_BELOW, HLT.CFG.FAIL_BELOW] s (s.hltCfgWritten ag v) := by
  have hsame (x hi lo w : Nat) (h : hi + 1 - lo = w) : bits x hi lo % 2 ^ w = bits x hi lo := h ▸ Nat.mod_mod _ _
  refine ⟨?_, ?_, ?_, ?_, fun f hf => ?_⟩
  · simp (disch := decide) only [hltCfgWritten_eq, State.get_storeSh_other, State.get_storeSh_same, hsame]
  · simp (disch := decide) only [hltCfgWritten_eq, State.get_storeSh_other, State.get_storeSh_same, hsame]
  · simp (disch := decide) only [hltCfgWritten_eq, State.get_storeSh_other, State.get_storeSh_same, hsame]
  · simp (disch := decide) only [hltCfgWritten_eq, State.get_storeSh_same, hsame]
  · simp only [List.map_cons, List.map_nil, List.mem_cons, List.not_mem_nil, or_false, not_or] at hf
    obtain ⟨hw, hc, ha, hb⟩ := hf
    rw [hltCfgWritten_eq, State.get_storeSh_other _ _ _ _ hb, State.get_storeSh_other _ _ _ _ ha,
      State.get_storeSh_other _ _ _ _ hc, State.get_storeSh_other _ _ _ _ hw]
    rfl

/-- A read of PWR.EVENTS clears its one RC field, COUNT. -/
theorem regRead_pwrEvents (s : State) (ag : Agent) :
    (s.regRead ag 8 false).2 = (s.clearField PWR.EVENTS.COUNT).setAgent ag none none := by
  have hin : inModels 8 = false ∧ inWindow 8 = false := by decide
  have hwide : rowPwrEvents.wide = false := rfl
  simp only [State.regRead, hin.1, hin.2, findReg_pwrEvents, hwide, Bool.false_and, Bool.false_eq_true, if_false]
  rfl

/-! ### The halves of a 64-bit register (R11) -/

theorem agents_setAgent_other (s : State) {ag other : Agent} (h : agentIx other ≠ agentIx ag) (l hd : Option (Nat × Nat)) :
    (s.setAgent ag l hd).agents[agentIx other] = s.agents[agentIx other] :=
  Vector.getElem_set_ne (agentIx ag).isLt (agentIx other).isLt (fun e => h (Fin.ext e.symm))

section
variable {s : State} {ag : Agent} {inst lo hi : Nat} {upd : Nat → Nat → State → State}

theorem writeWide_low (hlo : lo < 4294967296) : s.writeWide ag inst 0 lo false upd = s.setAgent ag none (some (inst, lo)) := by
  rw [State.writeWide, if_neg Bool.false_ne_true, if_pos rfl, Nat.mod_eq_of_lt hlo]

theorem writeWide_high_held (hhi : hi < 4294967296) (h : s.agents[agentIx ag].hold = some (inst, lo)) :
    s.writeWide ag inst 4 hi false upd = upd (lo + 4294967296 * hi) 0 (s.setAgent ag none none) := by
  simp only [State.writeWide, h, Nat.mod_eq_of_lt hhi, Bool.false_eq_true, OfNat.ofNat_ne_zero, if_false, if_true]

theorem writeWide_high_alone (hhi : hi < 4294967296) (h : s.agents[agentIx ag].hold = none) :
    s.writeWide ag inst 4 hi false upd = upd (4294967296 * hi) 32 (s.setAgent ag none none) := by
  simp only [State.writeWide, h, Nat.mod_eq_of_lt hhi, Bool.false_eq_true, OfNat.ofNat_ne_zero, if_false]

theorem readWide_high_latched {rc : State → State} (v : Nat) (h : s.agents[agentIx ag].latch = some (inst, hi)) :
    (s.readWide ag inst 4 v false rc).1 = hi := by
  simp only [State.readWide, h, Bool.false_eq_true, OfNat.ofNat_ne_zero, if_false, if_true]

theorem readWide_high_alone {rc : State → State} (v : Nat) (h : s.agents[agentIx ag].latch = none) :
    (s.readWide ag inst 4 v false rc).1 = v / 2 ^ 32 := by
  simp only [State.readWide, h, Bool.false_eq_true, OfNat.ofNat_ne_zero, if_false, Nat.reducePow]

end

end Sys2Proof.Machine

namespace Sys2Proof.Proofs

open Sys2Proof.Machine

/-- Settles O17: the access as a whole, the two registers named, and the halves. -/
theorem registerAccesses : Obligations.RegisterAccesses := by
  refine ⟨fun s ag off wide v hlive hfits => ?_, fun s ag v hlive hv => ?_, fun s ag other inst lo hi v upd rc hlo hhi => ?_⟩
  · refine ⟨fun hreach hag => execRegisterWrite_reached hlive hfits hreach hag, fun hreach hbad => ?_,
      fun hreach => execRegisterWrite_unreached hreach, fun hreach => execRcFieldRead_reached hlive hfits hreach,
      fun hreach => execRcFieldRead_unreached hreach, fun hag hreach hm hw hr => ?_⟩
    · exact ⟨_, execRegisterWrite_skipped hlive hfits hreach hbad, _, Nat.mod_lt _ (by decide), presetSkipped_eq s off.toNat⟩
    · rw [exec_registerWrite, execRegisterWrite_reached hlive hfits hreach (.inl hag), regWrite_hole ag wide _ hm hw hr]
      rfl
  · refine ⟨fun hreach hidle => ?_, fun hreach => ?_⟩
    · obtain ⟨hw, hc, ha, hb, hrest⟩ := hltCfgWritten_spec s ag v.toNat
      have hoff : (0x100000 : BitVec 24).toNat = 0x100000 := rfl
      have hdone : exec (.registerWrite ag 0x100000 false v) s = .next (s.hltCfgWritten ag v.toNat) := by
        rw [exec_registerWrite, execRegisterWrite_reached (off := 0x100000) hlive (by decide) hreach
          (.inr (firmwareFits_hltCfg v.toNat)), hoff, regWrite_hltCfg ag hv hidle]
      exact ⟨_, hdone, hw, hc, ha, hb, hrest, hltCfgWritten_inForce s ag v.toNat, hltCfgWritten_mem s ag v.toNat⟩
    · have hdone : exec (.rcFieldRead ag 8 false) s = .next ((s.clearField PWR.EVENTS.COUNT).setAgent ag none none) := by
        rw [exec_rcFieldRead, execRcFieldRead_reached (off := 8) hlive (by decide) hreach]
        exact congrArg Host.Outcome.next (regRead_pwrEvents s ag)
      refine ⟨_, hdone, State.get_put_same s _ _, fun f hf => ?_, rfl, rfl⟩
      exact State.get_put_other s _ f _ (fun h => hf (List.mem_singleton.mpr h))
  · exact ⟨writeWide_low hlo, writeWide_high_held hhi, writeWide_high_alone hhi, rfl, readWide_high_latched v,
      readWide_high_alone v, fun hne l h => agents_setAgent_other s hne l h⟩

end Sys2Proof.Proofs

end

section
/-! PROOF. The stroke boundary (R7, R44 to R47) and its window (R179): what ending the segments of a partition leaves of every other core, of the
fields in force and of the registers that the boundary itself reads. -/

namespace Sys2Proof.Machine

/-! ### What the work of a boundary leaves -/

/-- The lift of the segment that runs on a core: all that says whether the segment can be killed (R176). -/
def State.liftOf (s : State) (c : CoreIx) : Option (Option LiftSt) := (s.seg c).map Seg.lift

theorem State.liftOf_eq (s : State) (c : CoreIx) : s.liftOf c = (s.seg c).map Seg.lift := rfl

/-- Keys of the fields that a boundary reads or brings into force (R7): the PWR and STK blocks, HLT.CFG, and the two registers of SCH that
place the rows of a partition's stroke. -/
def HeldKey (k : Nat) : Prop :=
  k / 64 < 0x20000 ∨ k / 64 = 0x100000 ∨ (0x60000 ≤ k / 64 ∧ k / 64 < 0x60100 ∧ (k / 64 % 64 = 4 ∨ k / 64 % 64 = 8))

theorem heldKey_iff (k : Nat) : HeldKey k ↔ k / 64 < 0x20000 ∨ k / 64 = 0x100000
    ∨ (0x60000 ≤ k / 64 ∧ k / 64 < 0x60100 ∧ (k / 64 % 64 = 4 ∨ k / 64 % 64 = 8)) := Iff.rfl

/-- From u to t no held field, no value in force and no SH field that waits has changed, and every core outside K has the segment it had,
with its lift. -/
structure Calm (K : CoreIx → Prop) (u t : State) : Prop where
  regs   : ∀ k, HeldKey k → Sparse.find? t.regs k = Sparse.find? u.regs k
  force  : t.force = u.force
  shPend : t.shPend = u.shPend
  lifts  : ∀ c, ¬ K c → t.liftOf c = u.liftOf c

section
variable {K : CoreIx → Prop} {u s : State}

/-- A field that is not held is put. -/
theorem Calm.put {a hi lo r v : Nat} (h : Calm K u s)
    (hf : lo < 64 ∧ 0x20000 ≤ a ∧ a ≠ 0x100000 ∧ (a < 0x60000 ∨ 0x60100 ≤ a ∨ (a % 64 ≠ 4 ∧ a % 64 ≠ 8))) :
    Calm K u (s.put ⟨a, hi, lo, r⟩ v) := by
  have hkey : ¬ HeldKey (Field.key ⟨a, hi, lo, r⟩) := by
    simp only [heldKey_iff, Field.key]
    omega
  exact ⟨fun k hk => (Sparse.find?_insert_other s.regs (Field.key ⟨a, hi, lo, r⟩) k _ (fun e => hkey (e ▸ hk))).trans (h.regs k hk), h.force, h.shPend, h.lifts⟩

theorem Calm.refl (s : State) : Calm K s s := ⟨fun _ _ => rfl, rfl, rfl, fun _ _ => rfl⟩

theorem Calm.trans {t : State} (h : Calm K u s) (k : Calm K s t) : Calm K u t :=
  ⟨fun i hi => (k.regs i hi).trans (h.regs i hi), k.force.trans h.force, k.shPend.trans h.shPend,
    fun c hc => (k.lifts c hc).trans (h.lifts c hc)⟩

/-- What leaves the segments of fewer cores as they were. -/
theorem Calm.mono {L : CoreIx → Prop} (h : Calm K u s) (hKL : ∀ c, K c → L c) : Calm L u s :=
  ⟨h.regs, h.force, h.shPend, fun c hc => h.lifts c (fun hk => hc (hKL c hk))⟩

/-- Nothing that Calm speaks of has changed. -/
theorem Calm.of_eq (h : Calm K u s) {t : State}
    (e : (t.regs, t.force, t.shPend, t.cores) = (s.regs, s.force, s.shPend, s.cores)) : Calm K u t := by
  simp only [Prod.mk.injEq] at e
  obtain ⟨e1, e2, e3, e4⟩ := e
  exact ⟨fun k hk => (congrArg (Sparse.find? · k) e1).trans (h.regs k hk), e2.trans h.force, e3.trans h.shPend,
    fun c hc => (congrArg (fun v : Vector Core 16 => v[c].seg.map Seg.lift) e4).trans (h.lifts c hc)⟩

/-- A held field reads what it read. -/
theorem Calm.get (h : Calm K u s) (f : Field) (hf : HeldKey f.key) : s.get f = u.get f := by
  rw [State.get, State.get, Sparse.get, Sparse.get, h.regs f.key hf]

theorem Calm.inForce (h : Calm K u s) (f : Field) : s.inForce f = u.inForce f := by
  rw [State.inForce, State.inForce, h.force]

/-! #### Steps of any kind -/

theorem Calm.ite {t : State} {p : Prop} [Decidable p] (h : Calm K u s) (k : Calm K u t) : Calm K u (if p then s else t) := by
  split
  · exact h
  · exact k

/-- The same where one branch changes what the other leaves. -/
theorem Calm.ifThen {t : State} {p : Prop} [Decidable p] (h : Calm K u s) (k : Calm K u s → Calm K u t) :
    Calm K u (if p then t else s) := (k h).ite h

theorem Calm.foldl {α : Type} {f : State → α → State} {l : List α} (h : Calm K u s) (hf : ∀ t x, Calm K u t → Calm K u (f t x)) :
    Calm K u (l.foldl f s) := by
  induction l generalizing s with
  | nil => exact h
  | cons a r ih => exact ih (hf s a h)

theorem Calm.upTo {f : Nat → State → State} (h : Calm K u s) (n : Nat) (hf : ∀ i t, Calm K u t → Calm K u (f i t)) :
    Calm K u (upTo n f s) := by
  induction n with
  | zero => exact h
  | succ n ih => exact hf n _ ih

theorem Calm.forParts {f : PartIx → State → State} {l : List PartIx} (h : Calm K u s) (hf : ∀ n t, Calm K u t → Calm K u (f n t)) :
    Calm K u (forParts l f s) := h.foldl (fun t n k => hf n t k)

theorem Calm.forCores {f : CoreIx → State → State} {l : List CoreIx} (h : Calm K u s) (hf : ∀ c t, Calm K u t → Calm K u (f c t)) :
    Calm K u (forCores l f s) := h.foldl (fun t c k => hf c t k)

/-- A core changes and its segment, if it has one, keeps its lift. -/
theorem Calm.modCore (h : Calm K u s) {c : CoreIx} {f : Core → Core}
    (hf : ∀ k : Core, (f k).seg.map Seg.lift = k.seg.map Seg.lift) : Calm K u (s.modCore c f) := by
  refine h.trans ⟨fun _ _ => rfl, rfl, rfl, fun d _ => ?_⟩
  by_cases hd : d = c
  · subst hd
    exact (congrArg (fun k : Core => k.seg.map Seg.lift) (State.core_modCore_same s d f)).trans (hf _)
  · exact congrArg (fun k : Core => k.seg.map Seg.lift) (State.core_modCore_other s c d f hd)

/-- A core of K changes in any way. -/
theorem Calm.modCoreIn (h : Calm K u s) {c : CoreIx} (hc : K c) (f : Core → Core) : Calm K u (s.modCore c f) := by
  refine h.trans ⟨fun _ _ => rfl, rfl, rfl, fun d hd => ?_⟩
  have hne : d ≠ c := fun e => hd (e ▸ hc)
  exact congrArg (fun k : Core => k.seg.map Seg.lift) (State.core_modCore_other s c d f hne)

theorem map_lift_map {g : Seg → Seg} (hg : ∀ x, (g x).lift = x.lift) (o : Option Seg) : (o.map g).map Seg.lift = o.map Seg.lift := by
  cases o with
  | none => rfl
  | some x => exact congrArg some (hg x)

theorem Calm.modSeg (h : Calm K u s) {c : CoreIx} {g : Seg → Seg} (hg : ∀ x, (g x).lift = x.lift) :
    Calm K u (s.modSeg c g) := h.modCore (fun k => map_lift_map hg k.seg)

theorem Calm.modPart (h : Calm K u s) {n : PartIx} {f : Part → Part} : Calm K u (s.modPart n f) := h.of_eq (by rfl)
theorem Calm.note (h : Calm K u s) {f : Field} {v : Nat} : Calm K u (s.note f v) := h.of_eq (by rfl)
theorem Calm.wrBytes (h : Calm K u s) {a : Nat} {bs : List Byte} : Calm K u (s.wrBytes a bs) := h.of_eq (by rfl)
theorem Calm.raise (h : Calm K u s) {r : ErrRecord} : Calm K u (s.raise r) := by
  unfold State.raise State.raiseAt
  split
  · split
    · exact h.of_eq (by rfl)
    · exact h.of_eq (by rfl)
  · exact h.of_eq (by rfl)

theorem Calm.bump {a hi lo r v : Nat} (h : Calm K u s)
    (hf : lo < 64 ∧ 0x20000 ≤ a ∧ a ≠ 0x100000 ∧ (a < 0x60000 ∨ 0x60100 ≤ a ∨ (a % 64 ≠ 4 ∧ a % 64 ≠ 8))) :
    Calm K u (s.bump ⟨a, hi, lo, r⟩ v) := h.put hf

/-! #### Memory -/

theorem State.wrLE_calm (h : Calm K u s) (a k v : Nat) : Calm K u (s.wrLE a k v) := h.wrBytes.ite h
theorem State.wrBits_calm (h : Calm K u s) (a k hi lo v : Nat) : Calm K u (s.wrBits a k hi lo v) := wrLE_calm h _ _ _
theorem State.ctxWr_calm (h : Calm K u s) (k off n v : Nat) : Calm K u (s.ctxWr k off n v) := wrLE_calm h _ _ _
theorem State.ctxBump_calm (h : Calm K u s) (k off n d : Nat) : Calm K u (s.ctxBump k off n d) := wrLE_calm h _ _ _
theorem State.ctxSetState_calm (h : Calm K u s) (k v : Nat) : Calm K u (s.ctxSetState k v) := wrLE_calm h _ _ _
theorem State.ctxSetBoundaryKills_calm (h : Calm K u s) (k v : Nat) : Calm K u (s.ctxSetBoundaryKills k v) := wrLE_calm h _ _ _
theorem State.pushFrame_calm (h : Calm K u s) (n : PartIx) (x t f : Nat) : Calm K u (s.pushFrame n x t f) :=
  wrLE_calm (wrLE_calm h _ _ _) _ _ _
theorem State.poisonAt_calm (h : Calm K u s) (a : Nat) (l : List Nat) : Calm K u (s.poisonAt a l) := h.foldl (fun _ _ k => k.of_eq (by rfl))

theorem State.markChan_calm (h : Calm K u s) (n : PartIx) (t ch r : Nat) : Calm K u (s.markChan n t ch r) := by
  unfold State.markChan markField
  refine h.ite (Calm.raise (Calm.modPart ?_))
  split
  · exact h.put (by omega)
  · exact h.put (by omega)

theorem State.modChan_calm (h : Calm K u s) (n : PartIx) (t ch : Nat) (f : ChanCount → ChanCount) : Calm K u (s.modChan n t ch f) := by
  unfold State.modChan
  exact h.modPart

theorem State.burstRun_calm (h : Calm K u s) (n : PartIx) (ch : Nat) (b : Bool) : Calm K u (s.burstRun n ch b) :=
  (markChan_calm (modChan_calm h _ _ _ _) _ _ _ _).ite (modChan_calm h _ _ _ _)

theorem State.wrote_calm (h : Calm K u s) (a k : Nat) : Calm K u (s.wrote a k) := by
  refine h.foldl fun t e ht => ?_
  split
  · exact ht.foldl fun v i hv => (poisonAt_calm (burstRun_calm hv _ _ _) _ _).ite (burstRun_calm hv _ _ _)
  · exact ht

theorem State.afterExtPage_calm (h : Calm K u s) (base off len : Nat) : Calm K u (s.afterExtPage base off len) :=
  Calm.forParts
    (h.forParts fun _ _ ht => ht.foldl fun _ _ hv => hv.foldl fun _ _ hw =>
      (hw.foldl fun _ _ hx => hx.ite (poisonAt_calm hx.wrBytes _ _)).ite hw)
    fun _ _ ht => ht.modPart

theorem State.afterExt_calm (h : Calm K u s) (a k : Nat) : Calm K u (s.afterExt a k) := by
  have h1 : Calm K u ((s.wrote a k).clobbered a k) := (wrote_calm h a k).forCores fun _ _ ht => (ht.bump (by omega)).ite ht
  exact (afterExtPage_calm (afterExtPage_calm h1 _ _ _) _ _ _).ite (afterExtPage_calm h1 _ _ _)

theorem State.semFree_calm (h : Calm K u s) (a : Nat) : Calm K u (s.semFree a) := afterExt_calm (wrBits_calm h _ _ _ _ _) _ _

/-! #### The Ferrule link and events -/

theorem State.closeFrame_calm (h : Calm K u s) (l : LinkIx) : Calm K u (s.closeFrame l) := Calm.ite (h.of_eq (by rfl)) (h.of_eq (by rfl))

theorem State.putFlits_calm (h : Calm K u s) (l : LinkIx) (bs : List Byte) : Calm K u (s.putFlits l bs) := by
  refine Calm.ite (h.of_eq (by rfl)) (Calm.of_eq (closeFrame_calm ?_ l) (by rfl))
  exact h.of_eq (by rfl)

theorem State.frlOut_calm (h : Calm K u s) (m : FMsg) : Calm K u (s.frlOut m) := putFlits_calm (h.of_eq (by rfl)) _ _

theorem State.retag_calm (h : Calm K u s) (k : FKind) (tag : Nat) : Calm K u (s.retag k tag) := by
  unfold State.retag
  split
  · exact h.modSeg fun _ => by rfl
  · exact h

/-- Drawing a tag for a request. -/
theorem State.frlTag_calm (h : Calm K u s) {k : FKind} {p : Nat × State} (hp : s.frlTag k = some p) : Calm K u p.2 := by
  unfold State.frlTag State.freshTag at hp
  split at hp
  all_goals
    obtain ⟨i, -, rfl⟩ := Option.map_eq_some_iff.mp hp
    exact h.of_eq (by rfl)

theorem State.frlTry_calm (h : Calm K u s) {x : FOut} {t : State} (ht : s.frlTry x = some t) : Calm K u t := by
  unfold State.frlTry at ht
  dsimp only at ht
  split at ht
  · split at ht
    · cases ht
      exact h
    · split at ht
      · obtain ⟨p, hp, rfl⟩ := Option.map_eq_some_iff.mp ht
        exact frlOut_calm (Calm.of_eq (retag_calm (frlTag_calm h hp) _ _) (by rfl)) _
      · cases ht
  · split at ht
    · cases ht
      exact frlOut_calm h _
    · cases ht

theorem frlPumpGo_calm (h : Calm K u s) (l : List FOut) (b : List (BitVec 2)) : Calm K u (frlPumpGo l b s).2 := by
  induction l generalizing s b with
  | nil => exact h
  | cons m r ih =>
    unfold frlPumpGo
    split
    · next t ht =>
      refine ih (State.frlTry_calm h (x := m) ?_) b
      split at ht
      · cases ht
      · exact ht
    · exact ih h _

theorem State.frlPush_calm (h : Calm K u s) (x : FOut) : Calm K u (s.frlPush x) := by
  have h1 : Calm K u { s with ferrule := { s.ferrule with waiting := s.ferrule.waiting ++ [x] } } := h.of_eq (by rfl)
  exact (frlPumpGo_calm h1 _ []).of_eq (by rfl)

theorem State.frlRequest_calm (h : Calm K u s) (m : FMsg) (n : Option Nat) (k : FKind) (i : Option Nat) :
    Calm K u (s.frlRequest m n k i) := frlPush_calm (h.of_eq (by rfl)) _

theorem State.setCache_calm (h : Calm K u s) (c : List CacheLine) : Calm K u (s.setCache c) :=
  Calm.put (h.of_eq (by rfl)) (by omega)

theorem State.putLine_calm (h : Calm K u s) (l : CacheLine) : Calm K u (s.putLine l) := (setCache_calm h _).ite (setCache_calm h _)

theorem State.evict_calm (h : Calm K u s) (l : CacheLine) : Calm K u (s.evict l) := by
  unfold State.evict
  split
  · exact setCache_calm h _
  · exact frlRequest_calm (putLine_calm h _) _ _ _ _
  · exact frlRequest_calm (putLine_calm h _) _ _ _ _
  · exact h

theorem State.frlUncached_calm (h : Calm K u s) (x : FOut) : Calm K u (s.frlUncached x) := by
  have hev : Calm K u ((msgLines x.msg).foldl (fun t a => match lineAt t a with | some l => t.evict l | none => t) s) := by
    refine h.foldl fun t a ht => ?_
    split
    · exact evict_calm ht _
    · exact ht
  exact Calm.ite (hev.of_eq (by rfl)) (frlPush_calm hev x)

theorem State.event_calm (h : Calm K u s) (k code d : Nat) : Calm K u (s.event k code d) := by
  have h1 := ctxWr_calm h k 0x34 2 (Nat.lor (s.ctxRd k 0x34 2) (2 ^ code))
  refine h1.ite (Calm.ite (frlUncached_calm ?_ _) (h1.bump (by omega)))
  exact (ctxWr_calm h1 _ _ _ _).of_eq (by rfl)

theorem State.haltCtx_calm (h : Calm K u s) (k cause : Nat) : Calm K u (s.haltCtx k cause) := event_calm (ctxSetState_calm h _ _) _ _ _

/-! #### Wet pools and the outbound queue -/

theorem State.showOutq_calm (h : Calm K u s) (n : PartIx) : Calm K u (s.showOutq n) := h.put (by omega)

theorem State.showFree_calm (h : Calm K u s) (n : PartIx) (t : Nat) : Calm K u (s.showFree n t) := by
  unfold State.showFree wetFree
  split
  · exact h.put (by omega)
  · split
    · exact h.put (by omega)
    · exact h.put (by omega)

theorem State.pushPool_calm (h : Calm K u s) (n : PartIx) (t f : Nat) : Calm K u (s.pushPool n t f) := showFree_calm h.modPart n t

/-! #### A segment is wiped (R169) -/

theorem State.dropEngines_calm (h : Calm K u s) (c : CoreIx) : Calm K u (s.dropEngines c) :=
  h.upTo 8 fun _ _ ht => ((((ht.modCore fun _ => by rfl).put (by omega)).put (by omega)).put (by omega)).put (by omega)

theorem State.dropColl_calm (h : Calm K u s) (c : CoreIx) : Calm K u (s.dropColl c) := by
  unfold State.dropColl State.showColl
  split
  · exact h
  · refine Calm.ite (Calm.put (h.of_eq (by rfl)) (by omega)) (Calm.put (Calm.bump ?_ (by omega)) (by omega))
    exact h.of_eq (by rfl)

theorem State.dropMarked_calm (h : Calm K u s) (c : CoreIx) (g : Seg) : Calm K u (s.dropMarked c g) :=
  h.foldl fun _ _ ht => Calm.ite (ht.of_eq (by rfl)) (Calm.ite ht.raise ((semFree_calm ht _).ite ht))

theorem State.dropRemote_calm (h : Calm K u s) (c : CoreIx) (g : Seg) : Calm K u (s.dropRemote c g) :=
  Calm.put (h.of_eq (by rfl)) (by omega)

/-- A core of K loses its segment. -/
theorem State.wipeSeg_calm (h : Calm K u s) {c : CoreIx} (hc : K c) (g : Seg) : Calm K u (s.wipeSeg c g) := by
  have h1 : Calm K u ((((s.dropEngines c).dropUnits c).dropColl c).dropQueue c) :=
    Calm.modPart (dropColl_calm ((dropEngines_calm h c).modCore fun _ => by rfl) c)
  have h2 := h1.foldl (l := g.wet) (f := fun t w => t.pushPool (partOf c) w.tier (w.wet / 65536)) fun _ _ ht => pushPool_calm ht _ _ _
  have h3 := h2.foldl (l := g.puts) (f := fun t p => t.pushFrame (partOf c) (t.ctxTenant g.ctx) p.2.1 (frameNo p.2.2))
    fun _ _ ht => pushFrame_calm ht _ _ _ _
  have h5 := Calm.modCoreIn (dropRemote_calm (dropMarked_calm h3 c g) c g) hc
  exact showOutq_calm (((((h5 _).bump (by omega)).put (by omega)).put (by omega)).put (by omega)) _

theorem State.wipeSeg_liftOf (s : State) (c : CoreIx) (g : Seg) : (s.wipeSeg c g).liftOf c = none := by
  have h5 (t : State) := Calm.refl (K := fun _ => False) t
  refine ((showOutq_calm (((((h5 _).bump (by omega)).put (by omega)).put (by omega)).put (by omega)) (partOf c)).lifts c id).trans ?_
  exact congrArg (fun k : Core => k.seg.map Seg.lift) (State.core_modCore_same _ c _)

end

section
variable {K : CoreIx → Prop} {u s : State}

/-! ### The stash of a context (R128, R130) -/

theorem State.enqueueDry_calm (h : Calm K u s) (c : CoreIx) (k : Nat) (w : OutKind) : Calm K u (s.enqueueDry c k w) :=
  showOutq_calm h.modPart _

theorem State.stashNow_calm (h : Calm K u s) (c : CoreIx) (k off : Nat) (bs : List Byte) : Calm K u (s.stashNow c k off bs) := by
  unfold State.stashNow
  split
  · exact Calm.ite h.raise h.wrBytes
  · split
    · exact h
    · split
      · exact h
      · refine enqueueDry_calm (Calm.modPart (h.modSeg fun g => ?_)) _ _ _
        split
        · rfl
        · rfl

theorem State.notePause_calm (h : Calm K u s) (c : CoreIx) (g : Seg) : Calm K u (s.notePause c g) := by
  unfold State.notePause
  split
  · exact h
  · exact h.modPart

theorem State.pauseDry_calm (h : Calm K u s) (c : CoreIx) (g : Seg) : Calm K u (s.pauseDry c g) := by
  refine stashNow_calm ?_ _ _ _ _
  split
  · exact notePause_calm h _ _
  · exact h

/-! ### Kills (R169, R170, R177) -/

theorem State.idleAdd_calm (h : Calm K u s) (c : CoreIx) (e i k : Nat) : Calm K u (s.idleAdd c e i k) := by
  have h1 : Calm K u (s.keepOld (IDL.COUNT_i_k.ACLK c e i)) := h.of_eq (by rfl)
  exact (h1.bump (by omega)).note

theorem State.idleBack_calm (h : Calm K u s) (c : CoreIx) (e i k : Nat) : Calm K u (s.idleBack c e i k) := (h.put (by omega)).note

theorem State.killLoss_calm (h : Calm K u s) (c : CoreIx) (g : Seg) (cause : Nat) : Calm K u (s.killLoss c g cause) := by
  unfold State.killLoss
  split
  · exact h.foldl fun _ _ ht => idleAdd_calm ht _ _ _ _
  · exact h

theorem State.lossBack_calm (h : Calm K u s) (c : CoreIx) (g : Seg) (cause : Nat) : Calm K u (s.lossBack c g cause) := by
  unfold State.lossBack
  split
  · exact h.foldl fun _ _ ht => idleBack_calm ht _ _ _ _
  · exact h

theorem State.beat_calm (h : Calm K u s) (c : CoreIx) : Calm K u (s.beat c) := (h.bump (by omega)).put (by omega)
theorem State.killHealth_calm (h : Calm K u s) (n : PartIx) (cause : Nat) : Calm K u (s.killHealth n cause) := h.modPart.ite h

theorem State.killCtx_calm (h : Calm K u s) (c : CoreIx) (g : Seg) (cause : Nat) (next : Option Nat) :
    Calm K u (s.killCtx c g cause next) := by
  unfold State.killCtx
  extract_lets k s1 s2 s3 bk s4 third s5
  have h2 : Calm K u s2 := ctxBump_calm (wrBits_calm (ctxBump_calm h _ _ _ _) _ _ _ _ _) _ _ _ _
  have h3 : Calm K u s3 := h2.ifThen fun h2 => ctxBump_calm h2 _ _ _ _
  have h4 : Calm K u s4 := h3.ifThen fun h3 => ctxSetBoundaryKills_calm h3 _ _
  have h5 : Calm K u s5 := haltCtx_calm h4 _ _
  refine Calm.ite (h5.raise.ite h5) ?_
  split
  · exact (haltCtx_calm h4 _ _).ite (ctxSetState_calm h4 _ _)
  · exact ctxSetState_calm h4 _ _

end

/-- A kill: the losses are counted, the segment is wiped, and what follows leaves every segment as it is (R169). -/
theorem killWith_wipes (s : State) (c : CoreIx) (cause : Nat) (next : Option Nat) (g : Seg) (hg : s.seg c = some g) (K : CoreIx → Prop) :
    ∃ p, Calm K s p ∧ Calm K (p.wipeSeg c g) (s.killWith c cause next) := by
  refine ⟨State.killLoss { s with fallen := (c.val, s.core c) :: s.fallen } c g cause, State.killLoss_calm ((Calm.refl s).of_eq (by rfl)) c g cause, ?_⟩
  unfold State.killWith
  split
  · next h => exact absurd (hg.symm.trans h) (Option.some_ne_none g)
  · next g' h =>
    obtain rfl : g = g' := Option.some.inj (hg.symm.trans h)
    extract_lets n s0 s1 s2 s3 stash s4
    have h2 : Calm K s1 s2 := State.beat_calm (((Calm.refl s1).bump (by omega)).put (by omega)) c
    have h3 : Calm K s1 s3 := State.killHealth_calm (State.killCtx_calm (h2.put (by omega)) c g cause next) n cause
    have h4 : Calm K s1 s4 := h3.ifThen fun h3 => (State.pauseDry_calm h3 c g).modPart
    exact h4.modCore fun _ => by rfl

/-- A kill leaves the core without a segment, and the other cores with theirs. -/
theorem killWith_calm (s : State) (c : CoreIx) (cause : Nat) (next : Option Nat) : Calm (· = c) s (s.killWith c cause next) := by
  cases hg : s.seg c with
  | none =>
    unfold State.killWith
    rw [hg]
    exact Calm.refl s
  | some g =>
    obtain ⟨p, hp, hk⟩ := killWith_wipes s c cause next g hg (· = c)
    exact (State.wipeSeg_calm hp rfl g).trans hk

theorem killWith_liftOf (s : State) (c : CoreIx) (cause : Nat) (next : Option Nat) : (s.killWith c cause next).liftOf c = none := by
  cases hg : s.seg c with
  | none =>
    rw [State.liftOf_eq]
    unfold State.killWith
    simp only [hg, Option.map_none]
  | some g =>
    obtain ⟨p, -, hk⟩ := killWith_wipes s c cause next g hg (fun _ => False)
    exact (hk.lifts c id).trans (State.wipeSeg_liftOf p c g)

section
variable {K : CoreIx → Prop} {u s : State}

theorem State.boundaryLog_calm (h : Calm K u s) (c : CoreIx) (g : Seg) : Calm K u (s.boundaryLog c g) := by
  refine Calm.ite (Calm.raise (event_calm (ctxBump_calm (h.bump (by omega)) _ _ _ _) _ _ _))
    (h.ite (Calm.modSeg (ctxBump_calm (h.bump (by omega)) _ _ _ _) fun _ => by rfl))

theorem State.otherCause_calm (h : Calm K u s) (c : CoreIx) (x : KillSt) (cause : Nat) : Calm K u (s.otherCause c x cause) := by
  unfold State.otherCause
  extract_lets k s1 s2 s3
  have h2 : Calm K u s2 := wrBits_calm (Calm.put (killLoss_calm (lossBack_calm h _ _ _) _ _ _) (by omega)) _ _ _ _ _
  have h3 : Calm K u s3 := h2.ifThen fun h2 => ctxWr_calm h2 _ _ _ _
  exact h3.modCore fun _ => by rfl

theorem State.killAtRowEnd_calm (h : Calm K u s) (c : CoreIx) (x : KillSt) : Calm K u (s.killAtRowEnd c x) := by
  unfold State.killAtRowEnd
  extract_lets g k n s1 bk s2 s3 s4
  have h2 : Calm K u s2 := ctxSetBoundaryKills_calm (boundaryLog_calm h c g) _ _
  have h3 : Calm K u s3 := h2.ifThen fun h2 => (h2.ite (haltCtx_calm h2 _ _)).raise
  have h4 : Calm K u s4 := h3.ite (killHealth_calm h3 _ _)
  exact h4.modCore fun _ => by rfl

theorem State.killMore_calm (h : Calm K u s) (c : CoreIx) (cause : Nat) : Calm K u (s.killMore c cause) := by
  unfold State.killMore
  split
  · exact h
  · next x _ =>
    have h1 := otherCause_calm h c x cause
    exact h.ite ((haltCtx_calm h1 _ _).ite h1)

theorem State.killAlso_calm (h : Calm K u s) (c : CoreIx) (cause : Nat) : Calm K u (s.killAlso c cause) := by
  unfold State.killAlso
  split
  · exact h
  · exact (killAtRowEnd_calm (otherCause_calm h _ _ _) _ _).ite (killMore_calm h _ _)

/-! ### The steps of a boundary (R44) -/

theorem State.clearRows_calm (h : Calm K u s) (c : CoreIx) : Calm K u (s.clearRows c) := by
  have h1 : Calm K u (s.skipLate c) := by
    refine h.foldl fun t r ht => ?_
    exact Calm.bump (ht.modCore fun _ => by rfl) (by omega)
  exact h1.modCore (fun k => map_lift_map (g := fun g => { g with rowTo := some (rowEnd s (partOf c) g.row) }) (fun _ => rfl) k.seg)

theorem State.streamBoundary_calm (h : Calm K u s) (n : PartIx) (b : Nat) : Calm K u (s.streamBoundary n b) := by
  refine Calm.of_eq (h.foldl (l := s.wts.streams.filter (fun x => decide (s.mdPart x.model = n))) (f := _) fun t x ht => ?_) (by rfl)
  exact (wrLE_calm ht _ _ _).ite ht

theorem State.queueSweeps_calm (h : Calm K u s) (n : PartIx) : Calm K u (s.queueSweeps n) :=
  h.of_eq (by rfl)

theorem State.unpause_calm (h : Calm K u s) (c : CoreIx) (k : Nat) : Calm K u (s.unpause c k) :=
  h.ite (Calm.modPart (stashNow_calm h _ _ _ _))

theorem State.showPools_calm (h : Calm K u s) (n : PartIx) : Calm K u (s.showPools n) := h.wrBytes

theorem State.shPart_calm (h : Calm K u s) (old : State) (keys : List Nat) (n : PartIx) : Calm K u (s.shPart old keys n) := by
  have pool {t : State} (ht : Calm K u t) (i : Nat) : Calm K u (t.takePool n i) := showPools_calm (showFree_calm ht.modPart n i) n
  have outq {t : State} (ht : Calm K u t) : Calm K u (t.takeOutq n) := showOutq_calm ht.modPart n
  unfold State.shPart
  extract_lets hit moved s1 s2 s3
  have h1 : Calm K u s1 := h.foldl fun _ _ ht => (pool ht _).ite ht
  have h2 : Calm K u s2 := (outq h1).ite h1
  have h3 : Calm K u s3 := ((h2.put (by omega)).put (by omega)).ite h2
  exact (showPools_calm h3 n).ite h3

end

/-! ### The segments of a partition end (R44 step 2) -/

@[simp] theorem State.liftOf_put (s : State) (f : Field) (v : Nat) (c : CoreIx) : (s.put f v).liftOf c = s.liftOf c := rfl
@[simp] theorem State.get_applySh (s : State) (n : PartIx) (own shell : Bool) (f : Field) : (s.applySh n own shell).get f = s.get f := rfl
@[simp] theorem State.liftOf_applySh (s : State) (n : PartIx) (own shell : Bool) (c : CoreIx) :
    (s.applySh n own shell).liftOf c = s.liftOf c := rfl

/-- A segment with this lift can be killed: it has not passed C (R176). -/
def alive : Option (Option LiftSt) → Bool
  | none => false
  | some none => true
  | some (some l) => !l.flipped

theorem killable_eq_alive (s : State) (c : CoreIx) : killable s c = alive (s.liftOf c) := by
  rw [State.liftOf_eq]
  unfold killable
  cases s.seg c with
  | none => rfl
  | some g =>
    rw [Option.map_some]
    cases hl : g.lift with
    | none => simp only [hl]; rfl
    | some l => simp only [hl]; rfl

/-- What a boundary leaves of a core's segment: none that can be killed. -/
def ended (o : Option (Option LiftSt)) : Option (Option LiftSt) := if alive o then none else o

theorem ended_liftOf (s : State) (c : CoreIx) : ended (s.liftOf c) = if killable s c then none else s.liftOf c := by
  rw [killable_eq_alive]
  rfl

/-- What ends the segment of each core of a list, and leaves the other cores theirs, ends all of them. -/
theorem foldl_ends {f : State → CoreIx → State} (hf : ∀ t c, Calm (· = c) t (f t c) ∧ (f t c).liftOf c = ended (t.liftOf c))
    {l : List CoreIx} (hl : l.Nodup) (s : State) :
    Calm (· ∈ l) s (l.foldl f s) ∧ ∀ c ∈ l, (l.foldl f s).liftOf c = ended (s.liftOf c) := by
  induction l generalizing s with
  | nil => exact ⟨Calm.refl s, fun _ h => absurd h List.not_mem_nil⟩
  | cons a r ih =>
    obtain ⟨ha, hr⟩ := List.nodup_cons.mp hl
    obtain ⟨h1, e1⟩ := hf s a
    obtain ⟨h2, e2⟩ := ih hr (f s a)
    refine ⟨(h1.mono fun c hc => hc ▸ List.mem_cons_self).trans (h2.mono fun _ => List.mem_cons_of_mem a), fun c hc => ?_⟩
    by_cases hca : c = a
    · exact hca ▸ (h2.lifts a ha).trans e1
    · rw [List.foldl_cons, e2 c ((List.mem_cons.mp hc).resolve_left hca), h1.lifts c hca]

theorem mem_coresOf (n : PartIx) (c : CoreIx) : c ∈ coresOf n ↔ partOf c = n := by revert n c; decide
theorem nodup_coresOf (n : PartIx) : (coresOf n).Nodup := by revert n; decide

/-- Every segment of the partition's cores that can be killed is killed; every other segment, and every other core, is left. -/
theorem endSegments_spec (s : State) (n : PartIx) : Calm (partOf · = n) s (s.endSegments n)
    ∧ ∀ c, partOf c = n → (s.endSegments n).liftOf c = ended (s.liftOf c) := by
  have hspec := foldl_ends (f := fun t c => match t.seg c with
    | some g => if killable t c then (t.boundaryLog c g).killSeg c 1 else t
    | none => if (t.killedNow c).isSome then t.killAlso c 1 else t.beat c) (fun t c => ?_) (nodup_coresOf n) s
  · exact ⟨hspec.1.mono fun c hc => (mem_coresOf n c).mp hc, fun c hc => hspec.2 c ((mem_coresOf n c).mpr hc)⟩
  · rw [ended_liftOf]
    split
    · next g _ =>
      split
      · exact ⟨(State.boundaryLog_calm (Calm.refl t) c g).trans (killWith_calm _ c 1 none), killWith_liftOf _ c 1 none⟩
      · exact ⟨Calm.refl t, rfl⟩
    · next hnone =>
      have hquiet (K : CoreIx → Prop) : Calm K t (if (t.killedNow c).isSome then t.killAlso c 1 else t.beat c) :=
        Calm.ite (State.killAlso_calm (Calm.refl t) c 1) (State.beat_calm (Calm.refl t) c)
      have hdead : killable t c = false := by simp only [killable, hnone]
      rw [hdead, if_neg Bool.false_ne_true]
      exact ⟨hquiet _, (hquiet (fun _ => False)).lifts c id⟩

/-! ### SH fields come into force (R7) -/

/-- The value in force of the field with a key becomes what the field holds. -/
def bringKey (regs m : Sparse Nat) (k : Nat) : Sparse Nat :=
  match Sparse.find? regs k with
  | some v => Sparse.insert m k v
  | none => Sparse.erase m k

theorem find?_bringKey (regs m : Sparse Nat) (k i : Nat) :
    Sparse.find? (bringKey regs m k) i = if i = k then Sparse.find? regs k else Sparse.find? m i := by
  show Sparse.find? (match Sparse.find? regs k with | some v => Sparse.insert m k v | none => Sparse.erase m k) i = _
  cases Sparse.find? regs k with
  | none => exact Sparse.find?_erase m k i
  | some v =>
    by_cases hi : i = k
    · rw [if_pos hi, hi]
      exact Sparse.find?_insert_same m k v
    · rw [if_neg hi]
      exact Sparse.find?_insert_other m k i v hi

theorem find?_foldl_bringKey (regs : Sparse Nat) (l : List (Nat × Nat)) (m : Sparse Nat) (i : Nat) :
    Sparse.find? (l.foldl (fun m p => bringKey regs m p.1) m) i
      = if i ∈ l.map Prod.fst then Sparse.find? regs i else Sparse.find? m i := by
  induction l generalizing m with
  | nil => rfl
  | cons p r ih =>
    rw [List.foldl_cons, ih, find?_bringKey, List.map_cons]
    by_cases hr : i ∈ r.map Prod.fst
    · rw [if_pos hr, if_pos (List.mem_cons_of_mem _ hr)]
    · by_cases hp : i = p.1
      · rw [if_neg hr, if_pos hp, if_pos (List.mem_cons.mpr (.inl hp)), hp]
      · rw [if_neg hr, if_neg hp, if_neg (fun h => (List.mem_cons.mp h).elim hp hr)]

theorem applySh_force (s : State) (n : PartIx) (own shell : Bool) : (s.applySh n own shell).force
    = (s.shPend.filter (fun p => (own && p.2 == n.val) || (shell && p.2 == 4))).foldl (fun m p => bringKey s.regs m p.1) s.force := rfl

/-- A field that waits for this boundary comes into force with the value it reads. -/
theorem inForce_applySh_of_mem {s : State} {n : PartIx} {own shell : Bool} {f : Field} {o : Nat} (h : (f.key, o) ∈ s.shPend)
    (ho : ((own && o == n.val) || (shell && o == 4)) = true) : (s.applySh n own shell).inForce f = s.get f := by
  have hmem : f.key ∈ (s.shPend.filter (fun p => (own && p.2 == n.val) || (shell && p.2 == 4))).map Prod.fst :=
    List.mem_map.mpr ⟨_, List.mem_filter.mpr ⟨h, ho⟩, rfl⟩
  rw [State.inForce, Sparse.get, applySh_force, find?_foldl_bringKey, if_pos hmem]
  rfl

/-- A field that does not wait for this boundary keeps its value in force. -/
theorem inForce_applySh_of_not_mem {s : State} {n : PartIx} {own shell : Bool} {f : Field}
    (h : ∀ p ∈ s.shPend, p.1 = f.key → ((own && p.2 == n.val) || (shell && p.2 == 4)) = false) :
    (s.applySh n own shell).inForce f = s.inForce f := by
  have hmem : f.key ∉ (s.shPend.filter (fun p => (own && p.2 == n.val) || (shell && p.2 == 4))).map Prod.fst := by
    intro hk
    obtain ⟨p, hp, hpk⟩ := List.mem_map.mp hk
    obtain ⟨hp, hmine⟩ := List.mem_filter.mp hp
    exact Bool.false_ne_true ((h p hp hpk).symm.trans hmine)
  rw [State.inForce, Sparse.get, applySh_force, find?_foldl_bringKey, if_neg hmem]
  rfl

/-- What follows when fields come into force changes no held field and no value in force. -/
theorem bringForce_calm (K : CoreIx → Prop) (s : State) (n : PartIx) (own shell : Bool) :
    Calm K (s.applySh n own shell) (s.bringForce n own shell) := by
  unfold State.bringForce
  extract_lets keys t
  have ht : Calm K (s.applySh n own shell) t := State.shPart_calm (Calm.refl _) s keys n
  exact ((ht.put (by omega)).put (by omega)).ite ht

/-! ### A boundary (R44) -/

/-- A boundary, as far as the end of the rows: COUNT, the streams and sweeps, the segments and their rows. -/
def State.boundaryWork (s : State) (n : PartIx) : State :=
  forCores (coresOf n) (fun c t => t.clearRows c)
    ((((s.bump (STK.COUNT_n.STROKES n) 1).streamBoundary n (s.get (STK.NEXT_n.ACLK n))).queueSweeps n).endSegments n)

/-- The fields that wait for this boundary are in force. -/
def State.boundaryForce (s : State) (n : PartIx) : State := (s.boundaryWork n).bringForce n true (decide (s.lowestOut = some n))

/-- NEXT names the boundary to come, and the contexts that were paused go on. -/
def State.boundaryNext (s : State) (n : PartIx) : State :=
  upTo 4096 (fun i t => t.unpause (coreAt n 0) (4096 * n.val + i))
    ((s.boundaryForce n).put (STK.NEXT_n.ACLK n)
      (if stopsHere s n then never else s.get (STK.NEXT_n.ACLK n) + (s.boundaryForce n).period n))

/-- The partition in the window of its boundary at b; `stop`: its timer stops there. -/
def Part.atBoundary (p : Part) (b : Nat) (stop : Bool) : Part :=
  { p with
    bnd := b
    shift := 0
    window := true
    stopping := stop
    restart := false
    rows := []
    noStart := []
    apply_ := p.apply_.map (fun a => if a.b1.isNone then { a with b1 := some b } else a) }

/-- The state after a boundary of the partition. -/
def State.boundaryPassed (s : State) (n : PartIx) : State :=
  (s.boundaryNext n).modPart n (fun p => p.atBoundary (s.get (STK.NEXT_n.ACLK n)) (stopsHere s n))

theorem execStrokeBoundary_due {s : State} {n : PartIx} (h : s.boundaryDue n = true) :
    execStrokeBoundary n s = .next (s.boundaryPassed n) := if_pos h

section
variable (s : State) (n : PartIx)

theorem boundaryWork_calm : Calm (partOf · = n) (s.bump (STK.COUNT_n.STROKES n) 1) (s.boundaryWork n) := by
  have h := State.queueSweeps_calm (State.streamBoundary_calm (K := (partOf · = n)) (Calm.refl (s.bump (STK.COUNT_n.STROKES n) 1)) n
    (s.get (STK.NEXT_n.ACLK n))) n
  exact (h.trans (endSegments_spec _ n).1).forCores fun c _ ht => State.clearRows_calm ht c

theorem boundaryWork_liftOf (c : CoreIx) (hc : partOf c = n) : (s.boundaryWork n).liftOf c = ended (s.liftOf c) := by
  have h := State.queueSweeps_calm (State.streamBoundary_calm (K := fun _ => False) (Calm.refl (s.bump (STK.COUNT_n.STROKES n) 1)) n
    (s.get (STK.NEXT_n.ACLK n))) n
  have hrows {t : State} : Calm (fun _ => False) t (forCores (coresOf n) (fun c t => t.clearRows c) t) :=
    (Calm.refl t).forCores fun c _ ht => State.clearRows_calm ht c
  calc (s.boundaryWork n).liftOf c
      _ = _ := hrows.lifts c id
      _ = ended (State.liftOf _ c) := (endSegments_spec _ n).2 c hc
      _ = ended (s.liftOf c) := congrArg ended (h.lifts c id)

theorem boundaryForce_calm (K : CoreIx → Prop) :
    Calm K ((s.boundaryWork n).applySh n true (decide (s.lowestOut = some n))) (s.boundaryForce n) := bringForce_calm K _ n _ _

theorem boundaryNext_calm (K : CoreIx → Prop) : Calm K ((s.boundaryForce n).put (STK.NEXT_n.ACLK n)
    (if stopsHere s n then never else s.get (STK.NEXT_n.ACLK n) + (s.boundaryForce n).period n)) (s.boundaryPassed n) :=
  ((Calm.refl _).upTo 4096 fun _ _ ht => State.unpause_calm ht _ _).modPart

end

theorem boundaryPassed_part (s : State) (n : PartIx) : (s.boundaryPassed n).part n
    = ((s.boundaryNext n).part n).atBoundary (s.get (STK.NEXT_n.ACLK n)) (stopsHere s n) := State.part_modPart_same _ n _

theorem boundaryPassed_liftOf (s : State) (n : PartIx) (c : CoreIx) (hc : partOf c = n) :
    (s.boundaryPassed n).liftOf c = ended (s.liftOf c) := by
  rw [(boundaryNext_calm s n fun _ => False).lifts c id, State.liftOf_put, (boundaryForce_calm s n fun _ => False).lifts c id,
    State.liftOf_applySh, boundaryWork_liftOf s n c hc]

theorem boundaryPassed_inForce (s : State) (n : PartIx) (f : Field) : (s.boundaryPassed n).inForce f
    = ((s.boundaryWork n).applySh n true (decide (s.lowestOut = some n))).inForce f := by
  rw [(boundaryNext_calm s n fun _ => False).inForce, State.inForce_put, (boundaryForce_calm s n fun _ => False).inForce]

theorem boundaryPassed_period (s : State) (n : PartIx) : (s.boundaryPassed n).period n = (s.boundaryForce n).period n := by
  rw [State.period, State.period, (boundaryNext_calm s n fun _ => False).inForce, State.inForce_put]

theorem heldKey_next (n : PartIx) : HeldKey (STK.NEXT_n.ACLK n).key := by simp only [heldKey_iff, Field.key]; omega
theorem heldKey_count (n : PartIx) : HeldKey (STK.COUNT_n.STROKES n).key := by simp only [heldKey_iff, Field.key]; omega

section
variable (s : State) (n : PartIx)

/-- A held field other than COUNT reads, once the fields of the boundary are in force, what it read before. -/
theorem boundaryWork_get (f : Field) (hf : HeldKey f.key) (hc : f.key ≠ (STK.COUNT_n.STROKES n).key) : (s.boundaryWork n).get f = s.get f :=
  ((boundaryWork_calm s n).get f hf).trans (State.get_put_other _ _ _ _ hc)

theorem boundaryWork_shPend : (s.boundaryWork n).shPend = s.shPend := (boundaryWork_calm s n).shPend

theorem boundaryPassed_count : (s.boundaryPassed n).get (STK.COUNT_n.STROKES n) = (s.get (STK.COUNT_n.STROKES n) + 1) % 2 ^ 64 := by
  have hne : (STK.COUNT_n.STROKES n).key ≠ (STK.NEXT_n.ACLK n).key := by simp only [Field.key, ne_eq]; omega
  have hwidth : (STK.COUNT_n.STROKES n).width = 64 := rfl
  rw [(boundaryNext_calm s n fun _ => False).get _ (heldKey_count n), State.get_put_other _ _ _ _ hne,
    (boundaryForce_calm s n fun _ => False).get _ (heldKey_count n), State.get_applySh, (boundaryWork_calm s n).get _ (heldKey_count n),
    State.bump, State.get_put_same, hwidth]

theorem boundaryPassed_next : (s.boundaryPassed n).get (STK.NEXT_n.ACLK n)
    = (if stopsHere s n then never else s.get (STK.NEXT_n.ACLK n) + (s.boundaryPassed n).period n) % 2 ^ 64 := by
  have hwidth : (STK.NEXT_n.ACLK n).width = 64 := rfl
  rw [(boundaryNext_calm s n fun _ => False).get _ (heldKey_next n), State.get_put_same, boundaryPassed_period, hwidth]

/-- A held field that waits for this boundary comes into force with the value it reads. -/
theorem boundaryPassed_inForce_of_mem {f : Field} {o : Nat} (hf : HeldKey f.key) (hc : f.key ≠ (STK.COUNT_n.STROKES n).key)
    (h : (f.key, o) ∈ s.shPend) (ho : o = n.val ∨ (o = 4 ∧ s.lowestOut = some n)) : (s.boundaryPassed n).inForce f = s.get f := by
  have hmine : ((true && o == n.val) || (decide (s.lowestOut = some n) && o == 4)) = true := by
    rcases ho with rfl | ⟨rfl, hlow⟩
    · simp
    · simp [hlow]
  rw [boundaryPassed_inForce, inForce_applySh_of_mem ((boundaryWork_shPend s n).symm ▸ h) hmine, boundaryWork_get s n f hf hc]

/-- A field that does not wait for this boundary keeps its value in force. -/
theorem boundaryPassed_inForce_of_not_mem {f : Field}
    (h : ∀ p ∈ s.shPend, p.1 = f.key → p.2 ≠ n.val ∧ (p.2 = 4 → s.lowestOut ≠ some n)) : (s.boundaryPassed n).inForce f = s.inForce f := by
  have hmine : ∀ p ∈ (s.boundaryWork n).shPend, p.1 = f.key →
      ((true && p.2 == n.val) || (decide (s.lowestOut = some n) && p.2 == 4)) = false := by
    intro p hp hpk
    obtain ⟨hown, hshell⟩ := h p (boundaryWork_shPend s n ▸ hp) hpk
    by_cases h4 : p.2 = 4
    · simp [hown, hshell h4]
    · simp [hown, h4]
  rw [boundaryPassed_inForce, inForce_applySh_of_not_mem hmine, (boundaryWork_calm s n).inForce]
  rfl

theorem stopsHere_iff : stopsHere s n = true ↔ s.get (STK.CTRL_n.RUN n) = 0 ∨ ∃ a, (s.part n).apply_ = some a ∧ a.b1 = none := by
  unfold stopsHere
  cases (s.part n).apply_ with
  | none => simp
  | some a => simp

end

/-- A segment that can be killed is gone after the boundary. -/
theorem boundaryPassed_seg_of_killable {s : State} {n : PartIx} {c : CoreIx} (hc : partOf c = n) (h : killable s c = true) :
    (s.boundaryPassed n).seg c = none := by
  have hlift := boundaryPassed_liftOf s n c hc
  rw [ended_liftOf, if_pos h] at hlift
  exact Option.map_eq_none_iff.mp hlift

/-- A core whose segment cannot be killed, or that has none, is left so. -/
theorem boundaryPassed_seg_of_not_killable {s : State} {n : PartIx} {c : CoreIx} (hc : partOf c = n) (h : killable s c = false) :
    ((s.boundaryPassed n).seg c).isSome = (s.seg c).isSome := by
  have hlift := boundaryPassed_liftOf s n c hc
  rw [ended_liftOf, h, if_neg Bool.false_ne_true] at hlift
  calc ((s.boundaryPassed n).seg c).isSome
      _ = ((s.boundaryPassed n).liftOf c).isSome := Option.isSome_map.symm
      _ = (s.liftOf c).isSome := congrArg Option.isSome hlift
      _ = (s.seg c).isSome := Option.isSome_map

/-! ### The end of the boundary window (R44, R47, R179) -/

/-- The places of the bad rows of a row store. -/
def badRows (rows : List (List Byte × Bool)) : List Nat := (List.range rows.length).filter (fun i => (rows.getD i ([], false)).2)

theorem length_badRows (rows : List (List Byte × Bool)) : (badRows rows).length = (rows.filter (fun r => r.2)).length := by
  have hrows : (List.range rows.length).map (fun i => rows.getD i ([], false)) = rows := by
    refine List.ext_getElem (by simp) fun i h1 h2 => ?_
    simp [List.getD, h2]
  calc (badRows rows).length
      _ = ((List.range rows.length).map (fun i => rows.getD i ([], false)) |>.filter (fun r => r.2)).length := by
        rw [List.filter_map, List.length_map]
        rfl
      _ = (rows.filter (fun r => r.2)).length := by rw [hrows]

/-- The first bad row heads the list of the bad ones. -/
theorem badRows_head {rows : List (List Byte × Bool)} {i : Nat} (hbad : (rows.getD i ([], false)).2 = true)
    (hfirst : ∀ j, j < i → (rows.getD j ([], false)).2 = false) : (badRows rows).head? = some i := by
  have hi : i < rows.length := by
    by_contra hge
    rw [List.getD_eq_default _ _ (Nat.le_of_not_lt hge)] at hbad
    exact Bool.false_ne_true hbad
  refine List.head?_filter.trans (List.find?_range_eq_some.mpr ?_)
  exact ⟨hbad, List.mem_range.mpr hi, fun j hj => by rw [hfirst j hj]; rfl⟩

theorem badRows_eq_nil {rows : List (List Byte × Bool)} (h : ∀ r ∈ rows, r.2 = false) : badRows rows = [] := by
  have hlen := length_badRows rows
  rw [List.filter_eq_nil_iff.mpr fun r hr => by rw [h r hr]; exact Bool.false_ne_true] at hlen
  exact List.eq_nil_of_length_eq_zero hlen

/-- The rows of a partition as R179 judges them. -/
def State.judged (s : State) (n : PartIx) : List (List Byte × Bool) := checkRows (s.period n) (s.part n).rows [0, 0, 0, 0] [0, 0, 0, 0]

/-- The judged rows are in the store, and BAD_ROW is set where one of them is bad. -/
def State.rowsKept (s : State) (n : PartIx) : State :=
  let t := s.modPart n (fun p => { p with rows := s.judged n })
  if (badRows (s.judged n)).isEmpty then t else t.flag (SCH.STATUS_n.BAD_ROW n) 1

theorem rowsKept_eq (s : State) (n : PartIx) : s.rowsKept n
    = if (badRows (s.judged n)).isEmpty then s.modPart n (fun p => { p with rows := s.judged n })
      else (s.modPart n (fun p => { p with rows := s.judged n })).flag (SCH.STATUS_n.BAD_ROW n) 1 := rfl

theorem judgeRows_eq (s : State) (n : PartIx) : s.judgeRows n
    = ((s.rowsKept n).put (SCH.STATUS_n.BAD_ROWS n) (badRows (s.judged n)).length).put (SCH.STATUS_n.FIRST_BAD n)
        ((badRows (s.judged n)).headD 0) := rfl

section
variable (s : State) (n : PartIx)

theorem status_keys_ne : (SCH.STATUS_n.BAD_ROW n).key ≠ (SCH.STATUS_n.BAD_ROWS n).key
    ∧ (SCH.STATUS_n.BAD_ROW n).key ≠ (SCH.STATUS_n.FIRST_BAD n).key
    ∧ (SCH.STATUS_n.BAD_ROWS n).key ≠ (SCH.STATUS_n.FIRST_BAD n).key := by
  simp only [Field.key, ne_eq]
  omega

theorem rowsKept_part : (s.rowsKept n).part n = { s.part n with rows := s.judged n } := by
  have hrows := State.part_modPart_same s n (fun p => { p with rows := s.judged n })
  rw [rowsKept_eq]
  split
  · exact hrows
  · exact hrows

theorem judgeRows_part : (s.judgeRows n).part n = { s.part n with rows := s.judged n } := rowsKept_part s n

theorem judgeRows_badRows : (s.judgeRows n).get (SCH.STATUS_n.BAD_ROWS n) = (badRows (s.judged n)).length % 2 ^ 16 := by
  rw [judgeRows_eq, State.get_put_other _ _ _ _ (status_keys_ne n).2.2, State.get_put_same]
  rfl

theorem judgeRows_firstBad : (s.judgeRows n).get (SCH.STATUS_n.FIRST_BAD n)
    = (badRows (s.judged n)).headD 0 % 2 ^ (SCH.STATUS_n.FIRST_BAD n).width := State.get_put_same _ _ _

theorem judgeRows_badRow : (s.judgeRows n).get (SCH.STATUS_n.BAD_ROW n) = (s.rowsKept n).get (SCH.STATUS_n.BAD_ROW n) := by
  rw [judgeRows_eq, State.get_put_other _ _ _ _ (status_keys_ne n).2.1, State.get_put_other _ _ _ _ (status_keys_ne n).1]

theorem judgeRows_fields : sameFieldsBut [SCH.STATUS_n.BAD_ROW n, SCH.STATUS_n.BAD_ROWS n, SCH.STATUS_n.FIRST_BAD n] s (s.judgeRows n) := by
  intro f hf
  simp only [List.map_cons, List.map_nil, List.mem_cons, List.not_mem_nil, or_false, not_or] at hf
  obtain ⟨hrow, hrows, hfirst⟩ := hf
  rw [judgeRows_eq, State.get_put_other _ _ _ _ hfirst, State.get_put_other _ _ _ _ hrows]
  rw [rowsKept_eq]
  split
  · rfl
  · exact State.get_put_other _ _ _ _ hrow

theorem judgeRows_memory : (s.judgeRows n).mem = s.mem ∧ (s.judgeRows n).synd = s.synd := by
  rw [judgeRows_eq]
  rw [rowsKept_eq]
  split
  · exact ⟨rfl, rfl⟩
  · exact ⟨rfl, rfl⟩

/-- With a bad row BAD_ROW is set, with none it stays (R8). -/
theorem rowsKept_badRow : (badRows (s.judged n) ≠ [] → (s.rowsKept n).get (SCH.STATUS_n.BAD_ROW n) = 1)
    ∧ (badRows (s.judged n) = [] → (s.rowsKept n).get (SCH.STATUS_n.BAD_ROW n) = s.get (SCH.STATUS_n.BAD_ROW n)) := by
  have hodd (x : Nat) : Nat.lor x 1 % 2 = 1 := Nat.or_mod_two_eq_one.mpr (.inr rfl)
  refine ⟨fun h => ?_, fun h => ?_⟩
  · rw [rowsKept_eq, if_neg (by simpa using h)]
    exact (State.get_put_same _ _ _).trans (hodd _)
  · rw [rowsKept_eq, h]
    rfl

end

/-- The window closes, and with it the request for a restart. -/
def State.windowClosed (s : State) (n : PartIx) : State := s.modPart n (fun q => { q with window := false, restart := false })

theorem judged_windowClosed (s : State) (n : PartIx) : (s.windowClosed n).judged n = s.judged n := by
  have hpart : (s.windowClosed n).part n = { s.part n with window := false, restart := false } := State.part_modPart_same s n _
  show checkRows (s.period n) ((s.windowClosed n).part n).rows [0, 0, 0, 0] [0, 0, 0, 0] = _
  rw [hpart]
  rfl

theorem windowClosed_judgeRows_part (s : State) (n : PartIx) : ((s.windowClosed n).judgeRows n).part n
    = { s.part n with window := false, restart := false, rows := s.judged n } := by
  have hpart : (s.windowClosed n).part n = { s.part n with window := false, restart := false } := State.part_modPart_same s n _
  rw [judgeRows_part, judged_windowClosed, hpart]

/-- At the end of its window the rows are judged; the timer goes on, has stopped, or starts again (R44, R47). -/
theorem execBoundaryWindowEnd_due {s : State} {n : PartIx} (hlive : s.live = true) (hout : (s.part n).inReset = false)
    (hwin : (s.part n).window = true) (hend : (s.part n).bnd + 64 ≤ s.time) :
    execBoundaryWindowEnd n s
      = if !(s.part n).stopping then .next ((s.windowClosed n).judgeRows n)
        else if (s.part n).restart && (s.part n).apply_.isNone then
          .next (((s.windowClosed n).judgeRows n).startTimer n (max (s.get (STK.START_n.ACLK n)) ((s.part n).bnd + 80)))
        else .next (((s.windowClosed n).judgeRows n).put (STK.CTRL_n.RUNNING n) 0) :=
  if_pos (by simp [hlive, hout, hwin, hend])

/-- The SH fields of a partition that a boundary brings into force. -/
theorem heldKey_partition (n : PartIx) : ∀ f ∈ [STK.PERIOD_n.ACLK n, SCH.ROW_BASE_n.BASE n, SCH.ROW_COUNT_n.ROWS n, PWR.P_CAP_n.WATTS n,
    PWR.P_CAP_n.PROTECT n], HeldKey f.key ∧ f.key ≠ (STK.COUNT_n.STROKES n).key := by
  simp only [List.forall_mem_cons, heldKey_iff, Field.key, ne_eq]
  refine ⟨?_, ?_, ?_, ?_, ?_, List.forall_mem_nil _⟩ <;> omega

/-- Those of the shell. -/
theorem heldKey_shell (n : PartIx) : ∀ f ∈ [HLT.CFG.WINDOW_S, HLT.CFG.CE_UNIT, PWR.MODULE_LIMIT.WATTS],
    HeldKey f.key ∧ f.key ≠ (STK.COUNT_n.STROKES n).key := by
  simp only [List.forall_mem_cons, heldKey_iff, Field.key, ne_eq, true_or, or_true, true_and]
  refine ⟨?_, ?_, ?_, List.forall_mem_nil _⟩ <;> omega

end Sys2Proof.Machine

namespace Sys2Proof.Proofs

open Sys2Proof.Machine

/-- Settles O24: the boundary (R7, R44), the end of its window (R44, R47, R179), and the bounds of the period (R46). -/
theorem strokeBoundary : Obligations.StrokeBoundary := by
  intro s n hlive hout
  refine ⟨fun hrun hwin hnext hnever => ?_, fun hwin hend u hu => ?_, ?_⟩
  · have hdue : s.boundaryDue n = true := by
      simp [State.boundaryDue, hlive, hout, hrun, hwin, hnext, hnever]
    have hstop : ((s.boundaryPassed n).part n).stopping = stopsHere s n := by rw [boundaryPassed_part]; rfl
    refine ⟨s.boundaryPassed n, execStrokeBoundary_due hdue, ?_, ?_, ?_, ?_, fun h => ?_, fun h => ?_, boundaryPassed_count s n,
      fun c hc hk => boundaryPassed_seg_of_killable hc hk, fun c hc hk => boundaryPassed_seg_of_not_killable hc hk,
      fun f hf hmem => ?_, fun f hf hmem hlow => ?_, fun f hf => boundaryPassed_inForce_of_not_mem s n hf⟩
    · rw [boundaryPassed_part]; rfl
    · rw [boundaryPassed_part]; rfl
    · rw [boundaryPassed_part]; rfl
    · rw [hstop, stopsHere_iff]
    · rw [boundaryPassed_next, if_pos (hstop ▸ h)]
      rfl
    · rw [boundaryPassed_next, if_neg (by rw [← hstop, h]; exact Bool.false_ne_true)]
    · obtain ⟨hheld, hne⟩ := heldKey_partition n f hf
      exact boundaryPassed_inForce_of_mem s n hheld hne hmem (.inl rfl)
    · obtain ⟨hheld, hne⟩ := heldKey_shell n f hf
      exact boundaryPassed_inForce_of_mem s n hheld hne hmem (.inr ⟨rfl, hlow⟩)
  · have hwindow : exec (.boundaryWindowEnd n) s = _ := execBoundaryWindowEnd_due hlive hout hwin hend
    have hu : u = (s.windowClosed n).judgeRows n := hu
    subst hu
    rw [hwindow, windowClosed_judgeRows_part, judgeRows_badRows, judgeRows_firstBad, judgeRows_badRow, judged_windowClosed,
      length_badRows, State.on, judgeRows_badRow]
    obtain ⟨hset, hstays⟩ := rowsKept_badRow (s.windowClosed n) n
    rw [judged_windowClosed] at hset hstays
    refine ⟨fun h => ?_, fun h hr => ?_, fun h hr ha => ?_, rfl, rfl, rfl, fun i hbad hfirst => ?_, fun hgood => ?_,
      judgeRows_fields (s.windowClosed n) n, judgeRows_memory (s.windowClosed n) n⟩
    · rw [h]; rfl
    · have hrestart : ((s.part n).restart && (s.part n).apply_.isNone) = false := by
        rcases hr with hr | ha
        · rw [hr, Bool.false_and]
        · rw [Option.isNone_eq_false_iff.mpr (Option.isSome_iff_ne_none.mpr ha), Bool.and_false]
      rw [h, hrestart]; rfl
    · rw [h, hr, ha]; rfl
    · have hhead := badRows_head hbad hfirst
      rw [List.headD_eq_head?_getD, hhead, hset (fun hnil => by rw [hnil] at hhead; cases hhead)]
      exact ⟨rfl, rfl⟩
    · have hnil := badRows_eq_nil hgood
      rw [hnil, hstays hnil]
      exact ⟨Nat.zero_mod _, rfl⟩
  · unfold State.period clamp
    split
    · decide
    · split <;> omega

end Sys2Proof.Proofs

end

section
/-! PROOF. What every step does (R35, R344): it answers a next state, takes the front command from the queue and nothing else, and leaves burned
fuses burned and the factory area of the identity EEPROM as written. -/

namespace Sys2Proof.Machine

/-! ### A step answers a next state (log entry 13) -/

/-- The outcome is a next state. -/
def Answers (o : Out) : Prop := ∃ t, o = .next t

theorem Answers.next (t : State) : Answers (.next t) := ⟨t, rfl⟩
theorem Answers.act (s : State) (g : Bool) (t : State) : Answers (act s g t) := ⟨_, rfl⟩

theorem Answers.ite {p : Prop} [Decidable p] {a b : Out} (h : Answers a) (k : Answers b) : Answers (if p then a else b) := by
  split
  · exact h
  · exact k

/-! #### Commands of one shape -/

theorem arrive_answers (s : State) (p : Packet) (op : Nat) (go : State → State) : Answers (arrive s p op go) :=
  .ite (.next _) (.ite (.next _) (.act _ _ _))

theorem semArrive_answers (op : Nat) (p : Packet) (s : State) : Answers (semArrive op p s) := arrive_answers _ _ _ _

theorem ctlArrive_answers (kind : Nat) (p : Packet) (s : State) (go : State → Nat → Nat → State) : Answers (ctlArrive kind p s go) :=
  .ite (arrive_answers _ _ _ _) (.next _)

theorem frlArrive_answers (s : State) (m : FMsg) (op : Nat) (go : State → State) : Answers (frlArrive s m op go) :=
  .ite (.next _) (.ite (.next _) (.act _ _ _))

theorem frlOrdered_answers (s : State) (m : FMsg) (op : Nat) (go : State → State) : Answers (frlOrdered s m op go) :=
  .ite (.next _) (frlArrive_answers _ _ _ _)

/-- A command of a core's segment answers where its meaning does, also after a kill in the same aclk (R177). -/
theorem meanwhile_answers {s : State} {c : CoreIx} {f : State → Out} (h : ∀ t, Answers (f t)) : Answers (s.meanwhile c f) := by
  unfold State.meanwhile
  split
  · next k _ _ =>
    obtain ⟨t, ht⟩ := h (s.modCore c (fun _ => k))
    rw [ht]
    dsimp only
    split
    · exact .next _
    · exact .next _
  · exact h s

theorem issueUpdate_answers (c : CoreIx) (sumsq : Bool) (s : State) : Answers (issueUpdate c sumsq s) := by
  unfold issueUpdate
  split
  · exact .next _
  · exact .ite (.next _) (.next _)

theorem issueCopy_answers (c : CoreIx) (form : List Byte → Bool) (more : State → List Byte → Option (Nat × Nat))
    (ranges : State → List Byte → List (Nat × Nat × Bool)) (s : State) : Answers (issueCopy c form more ranges s) := by
  unfold issueCopy
  split
  · exact .next _
  · exact .ite (.next _) (.next _)

theorem onautRun_answers (f : Nat) (s : State) : Answers (onautRun f s) := by
  unfold onautRun
  extract_lets
  repeat' refine Answers.ite ⟨_, rfl⟩ ?_
  exact .ite (.ite (.act _ _ _) (.act _ _ _)) ⟨_, rfl⟩

/-- Every command answers a next state (log entry 13). The commands are grouped by the shape of their meaning: the arrivals at a port, the commands
of a segment, the meanings with case distinctions of their own, each branch of which is a next state or an `act`, and the `act`s. -/
theorem exec_answers (i : Instr) (s : State) : Answers (exec i s) := by
  cases i
  all_goals unfold exec; dsimp only
  case chartRead | chartWrite | add32 | semCancel | chartSemAdd | chartSemRelease | parcelData
      | collData | chartReadData | chartAck | semResult | chartNack | ticketReq | ticketOffer | ticketAnswer | commit | prepared
      | chartRelease | releaseAck | abort | statusQuery | statusAnswer | pointerUpdate | freed | ticketDone | landed | dirAck =>
    exact arrive_answers _ _ _ _
  case chartSemWait | chartSemAcquire => exact semArrive_answers _ _ _
  case collCtlAbort | collCtlDone | collCtlFinal => exact ctlArrive_answers _ _ _ _
  case gntS | gntE | rdData | snpInv | snpShared | cmp | ferruleNack => exact frlArrive_answers _ _ _ _
  case mwr => exact frlOrdered_answers _ _ _ _
  case mrd => exact .ite (.next _) (frlOrdered_answers _ _ _ _)
  case update | sumOfSquares => exact meanwhile_answers (issueUpdate_answers _ _)
  case copy | copyFill | copyGather => exact meanwhile_answers fun _ => issueCopy_answers _ _ _ _ _
  case nop | matmul | mxScales | rowop | rowopComplete | mbBegin | mbEnd | stashPut | stashPutComplete | stashFree
      | updateComplete | scaleStep | copyComplete | notify | collective | semWait | semAdd | semAcquire
      | semRelease | fence | jump | lift | wetPageFlip | commandFetch =>
    refine meanwhile_answers fun t => ?_
    repeat' first | exact Answers.next _ | exact Answers.act _ _ _ | split | dsimp only
  case modResetNLow | strokeBoundary | boundaryWindowEnd | powerTransitionEnd | engineStart | planeLoad | passStart | arrayHold
      | operationComplete | engineCompletion | tailPoll | updateStart | deferredSlotChange | semWaitComplete | leaseGrant | penLift
      | penLiftComplete | outboundQueueSend | hardRowStart | elasticRowStart | contextLoad | preemptionPoint | hardRowEnd
      | elasticRowEnd | tierDeadline | profileFieldWrite | profileApplyEnd | patrolScrub | migrationRequest | migrationCopy
      | migrationSwitch | migrationSourcePush | chartRequestSend | ticketRingEntry | responseTimeout | retryAfterExpiry
      | directoryTimeout | receivingTimeout | semHoldExpiry | forwardLifetimeExpiry | promotionHoldExpiry | frameReceive
      | identityWord | trainingComplete | trainingFailure | backoffEnd | lossOfSignal | spareSwitch | ferruleTimeout
      | modelPlacement | shardArrival | shardPoll | shardTimeout | shardConversion | loadCompletion | drainDeadline | streamStart
      | streamShardCopy | sealSweep | coalesceIntervalEnd | unitResetEnd | unlockVerified | bpSet | preparedTimeout | dryPageReturn
      | modelFramePush =>
    delta execModResetNLow execStrokeBoundary execBoundaryWindowEnd execPowerTransitionEnd execEngineStart execPlaneLoad execPassStart
      execArrayHold execOperationComplete execEngineCompletion execTailPoll execUpdateStart execDeferredSlotChange
      execSemWaitComplete execLeaseGrant execPenLift execPenLiftComplete execOutboundQueueSend execHardRowStart
      execElasticRowStart execContextLoad execPreemptionPoint execHardRowEnd execElasticRowEnd execTierDeadline
      execProfileFieldWrite execProfileApplyEnd execPatrolScrub execMigrationRequest execMigrationCopy execMigrationSwitch
      execMigrationSourcePush execChartRequestSend execTicketRingEntry execResponseTimeout execRetryAfterExpiry
      execDirectoryTimeout execReceivingTimeout execSemHoldExpiry execForwardLifetimeExpiry execPromotionHoldExpiry
      execFrameReceive execIdentityWord execTrainingComplete execTrainingFailure execBackoffEnd execLossOfSignal execSpareSwitch
      execFerruleTimeout execModelPlacement execShardArrival execShardPoll execShardTimeout execShardConversion execLoadCompletion
      execDrainDeadline execStreamStart execStreamShardCopy execSealSweep execCoalesceIntervalEnd execUnitResetEnd
      execUnlockVerified execBpSet execPreparedTimeout execDryPageReturn execModelFramePush
    repeat' first | exact .next _ | exact .act _ _ _ | split | dsimp only
  case onautBadRequest =>
    exact .ite (.next _) (.ite (.next _) (.ite (.next _) (.ite (.act _ _ _) (onautRun_answers _ _))))
  all_goals exact ⟨_, rfl⟩

theorem step_answers (s : State) : Answers (step s) := by
  unfold step
  split
  · exact .next _
  · exact exec_answers _ _

/-! ### A step keeps what Laws/Keeps.lean names -/

theorem exec_keeps {u s : State} (h : Keeps u s) (i : Instr) : KeepsOut u (exec i s) :=
  match i with
  | .registerWrite _ _ _ _ => execRegisterWrite_keeps h
  | .rcFieldRead _ _ _ => execRcFieldRead_keeps h
  | .powerUpSequence _ _ => execPowerUpSequence_keeps h
  | .railToleranceTimeout => execRailToleranceTimeout_keeps h
  | .powerDownSequence => execPowerDownSequence_keeps h
  | .minimumOffTimeExpiry _ _ => execMinimumOffTimeExpiry_keeps h
  | .supplyRemoval _ _ => execSupplyRemoval_keeps h
  | .modResetNLow _ => execModResetNLow_keeps h
  | .modResetNHigh => execModResetNHigh_keeps h
  | .powerSample _ _ _ _ _ _ => execPowerSample_keeps h
  | .thermalTrip _ => execThermalTrip_keeps h
  | .identityEepromAccess _ _ => execIdentityEepromAccess_keeps h
  | .strokeBoundary _ => execStrokeBoundary_keeps h
  | .boundaryWindowEnd _ => execBoundaryWindowEnd_keeps h
  | .stkCtrlRun _ _ => execStkCtrlRun_keeps h
  | .stkStartWrite _ _ => execStkStartWrite_keeps h
  | .targetActive _ => execTargetActive_keeps h
  | .targetClockStop _ => execTargetClockStop_keeps h
  | .targetPowerOff _ => execTargetPowerOff_keeps h
  | .targetInvalid _ _ => execTargetInvalid_keeps h
  | .powerTransitionEnd _ => execPowerTransitionEnd_keeps h
  | .engineStart _ _ => execEngineStart_keeps h
  | .planeLoad _ _ _ => execPlaneLoad_keeps h
  | .passStart _ _ => execPassStart_keeps h
  | .arrayHold _ _ _ _ => execArrayHold_keeps h
  | .operationComplete _ _ => execOperationComplete_keeps h
  | .engineCompletion _ _ => execEngineCompletion_keeps h
  | .engineReady _ _ => execEngineReady_keeps h
  | .commandFetch _ => execCommandFetch_keeps h
  | .tailPoll _ => execTailPoll_keeps h
  | .nop _ => execNop_keeps h
  | .matmul _ => execMatmul_keeps h
  | .mxScales _ => execMxScales_keeps h
  | .rowop _ => execRowop_keeps h
  | .rowopComplete _ => execRowopComplete_keeps h
  | .mbBegin _ => execMbBegin_keeps h
  | .mbEnd _ => execMbEnd_keeps h
  | .stashPut _ => execStashPut_keeps h
  | .stashPutComplete _ => execStashPutComplete_keeps h
  | .stashFree _ => execStashFree_keeps h
  | .update _ => execUpdate_keeps h
  | .sumOfSquares _ => execSumOfSquares_keeps h
  | .updateStart _ => execUpdateStart_keeps h
  | .updateComplete _ => execUpdateComplete_keeps h
  | .deferredSlotChange _ => execDeferredSlotChange_keeps h
  | .scaleStep _ => execScaleStep_keeps h
  | .copy _ => execCopy_keeps h
  | .copyFill _ => execCopyFill_keeps h
  | .copyGather _ => execCopyGather_keeps h
  | .copyComplete _ => execCopyComplete_keeps h
  | .notify _ => execNotify_keeps h
  | .collective _ => execCollective_keeps h
  | .semWait _ => execSemWait_keeps h
  | .semWaitComplete _ => execSemWaitComplete_keeps h
  | .semAdd _ => execSemAdd_keeps h
  | .semAcquire _ => execSemAcquire_keeps h
  | .leaseGrant _ => execLeaseGrant_keeps h
  | .leaseExpiry sem => execLeaseExpiry_keeps (x := sem) h
  | .semRelease _ => execSemRelease_keeps h
  | .fence _ => execFence_keeps h
  | .jump _ => execJump_keeps h
  | .lift _ => execLift_keeps h
  | .penLift _ => execPenLift_keeps h
  | .wetPageFlip _ => execWetPageFlip_keeps h
  | .penLiftComplete _ => execPenLiftComplete_keeps h
  | .wetConflictEnd _ => execWetConflictEnd_keeps h
  | .inkHoldEnd _ => execInkHoldEnd_keeps h
  | .outboundQueueSend _ _ => execOutboundQueueSend_keeps h
  | .seqCtrlKill _ => execSeqCtrlKill_keeps h
  | .sequencerReady _ => execSequencerReady_keeps h
  | .enable _ => execEnable_keeps h
  | .disable _ => execDisable_keeps h
  | .preempt _ => execPreempt_keeps h
  | .preemptHold _ => execPreemptHold_keeps h
  | .resume _ => execResume_keeps h
  | .halt _ => execHalt_keeps h
  | .clearEvents _ => execClearEvents_keeps h
  | .hardRowStart _ _ => execHardRowStart_keeps h
  | .elasticRowStart _ _ => execElasticRowStart_keeps h
  | .contextLoad _ => execContextLoad_keeps h
  | .pickPoll _ => execPickPoll_keeps h
  | .preemptionPoint _ _ => execPreemptionPoint_keeps h
  | .hardRowEnd _ _ => execHardRowEnd_keeps h
  | .elasticRowEnd _ _ => execElasticRowEnd_keeps h
  | .tierDeadline _ _ _ => execTierDeadline_keeps h
  | .profileApply _ _ => execProfileApply_keeps h
  | .profileFieldWrite _ => execProfileFieldWrite_keeps h
  | .profileApplyEnd _ => execProfileApplyEnd_keeps h
  | .translationInvalidation _ _ _ _ => execTranslationInvalidation_keeps h
  | .invalidationDone => execInvalidationDone_keeps h
  | .patrolScrub _ _ => execPatrolScrub_keeps h
  | .channelErrorWindowEnd _ => execChannelErrorWindowEnd_keeps h
  | .deviceTemperatureReadout _ _ => execDeviceTemperatureReadout_keeps h
  | .frameGrant _ _ _ _ => execFrameGrant_keeps h
  | .frameRevoke _ _ _ => execFrameRevoke_keeps h
  | .frameReturn _ _ _ _ => execFrameReturn_keeps h
  | .frameTake _ _ _ => execFrameTake_keeps h
  | .migrationRequest _ => execMigrationRequest_keeps h
  | .migrationCopy _ _ => execMigrationCopy_keeps h
  | .migrationSwitch _ _ => execMigrationSwitch_keeps h
  | .migrationSourcePush _ _ => execMigrationSourcePush_keeps h
  | .openChart => execOpenChart_keeps h
  | .hintFlush => execHintFlush_keeps h
  | .create _ _ => execCreate_keeps h
  | .destroy _ => execDestroy_keeps h
  | .pin _ => execPin_keeps h
  | .unpin _ => execUnpin_keeps h
  | .restore _ _ _ _ => execRestore_keeps h
  | .resolveKeep _ => execResolveKeep_keeps h
  | .resolveGone _ => execResolveGone_keeps h
  | .pushSlot _ _ _ => execPushSlot_keeps h
  | .popSlot _ _ => execPopSlot_keeps h
  | .lookup _ => execLookup_keeps h
  | .markLost _ => execMarkLost_keeps h
  | .packetForward _ => execPacketForward_keeps h
  | .chartRequestSend _ => execChartRequestSend_keeps h
  | .chartRead _ => execChartRead_keeps h
  | .chartWrite _ => execChartWrite_keeps h
  | .add32 _ => execAdd32_keeps h
  | .chartSemWait _ => execChartSemWait_keeps h
  | .chartSemAcquire _ => execChartSemAcquire_keeps h
  | .semCancel _ => execSemCancel_keeps h
  | .chartSemAdd _ => execChartSemAdd_keeps h
  | .chartSemRelease _ => execChartSemRelease_keeps h
  | .parcelData _ => execParcelData_keeps h
  | .collData _ => execCollData_keeps h
  | .chartReadData _ => execChartReadData_keeps h
  | .chartAck _ => execChartAck_keeps h
  | .semResult _ => execSemResult_keeps h
  | .chartNack _ => execChartNack_keeps h
  | .ticketReq _ => execTicketReq_keeps h
  | .ticketOffer _ => execTicketOffer_keeps h
  | .ticketAnswer _ => execTicketAnswer_keeps h
  | .commit _ => execCommit_keeps h
  | .prepared _ => execPrepared_keeps h
  | .chartRelease _ => execChartRelease_keeps h
  | .releaseAck _ => execReleaseAck_keeps h
  | .abort _ => execAbort_keeps h
  | .statusQuery _ => execStatusQuery_keeps h
  | .statusAnswer _ => execStatusAnswer_keeps h
  | .pointerUpdate _ => execPointerUpdate_keeps h
  | .freed _ => execFreed_keeps h
  | .ticketDone _ => execTicketDone_keeps h
  | .landed _ => execLanded_keeps h
  | .dirAck _ => execDirAck_keeps h
  | .collCtlAbort _ => execCollCtlAbort_keeps h
  | .collCtlDone _ => execCollCtlDone_keeps h
  | .collCtlFinal _ => execCollCtlFinal_keeps h
  | .ticketRingEntry => execTicketRingEntry_keeps h
  | .responseTimeout _ => execResponseTimeout_keeps h
  | .retryAfterExpiry _ => execRetryAfterExpiry_keeps h
  | .directoryTimeout _ => execDirectoryTimeout_keeps h
  | .receivingTimeout _ => execReceivingTimeout_keeps h
  | .semHoldExpiry _ => execSemHoldExpiry_keeps h
  | .duplicateWindowExpiry => execDuplicateWindowExpiry_keeps h
  | .forwardLifetimeExpiry _ => execForwardLifetimeExpiry_keeps h
  | .promotionHoldExpiry _ => execPromotionHoldExpiry_keeps h
  | .frameReceive _ _ => execFrameReceive_keeps h
  | .replayTimeout _ => execReplayTimeout_keeps h
  | .identityWord _ _ => execIdentityWord_keeps h
  | .trainingComplete _ => execTrainingComplete_keeps h
  | .trainingFailure _ _ => execTrainingFailure_keeps h
  | .backoffEnd _ => execBackoffEnd_keeps h
  | .warmWindowExpiry _ => execWarmWindowExpiry_keeps h
  | .lossOfSignal _ _ => execLossOfSignal_keeps h
  | .thresholdWindowEnd _ => execThresholdWindowEnd_keeps h
  | .spareReq _ _ => execSpareReq_keeps h
  | .spareDone _ _ => execSpareDone_keeps h
  | .halfReq _ => execHalfReq_keeps h
  | .spareSwitch _ => execSpareSwitch_keeps h
  | .shadowRotation _ => execShadowRotation_keeps h
  | .portDisable _ => execPortDisable_keeps h
  | .portEnable _ => execPortEnable_keeps h
  | .portRetrain _ => execPortRetrain_keeps h
  | .laneRetire _ _ => execLaneRetire_keeps h
  | .attach => execAttach_keeps h
  | .cacheFlush => execCacheFlush_keeps h
  | .flushComplete => execFlushComplete_keeps h
  | .doorbell _ => execDoorbell_keeps h
  | .mrd _ => execMrd_keeps h
  | .mwr _ => execMwr_keeps h
  | .gntS _ => execGntS_keeps h
  | .gntE _ => execGntE_keeps h
  | .rdData _ => execRdData_keeps h
  | .snpInv _ => execSnpInv_keeps h
  | .snpShared _ => execSnpShared_keeps h
  | .cmp _ => execCmp_keeps h
  | .ferruleNack _ => execFerruleNack_keeps h
  | .ferruleTimeout _ => execFerruleTimeout_keeps h
  | .companionLoss => execCompanionLoss_keeps h
  | .modelLoad _ => execModelLoad_keeps h
  | .modelReplace _ => execModelReplace_keeps h
  | .modelStop _ => execModelStop_keeps h
  | .modelResume _ => execModelResume_keeps h
  | .modelEvict _ => execModelEvict_keeps h
  | .modelRelease _ => execModelRelease_keeps h
  | .modelPlacement _ => execModelPlacement_keeps h
  | .shardArrival _ _ => execShardArrival_keeps h
  | .shardPoll _ _ => execShardPoll_keeps h
  | .shardTimeout _ => execShardTimeout_keeps h
  | .shardConversion _ _ => execShardConversion_keeps h
  | .loadCompletion _ => execLoadCompletion_keeps h
  | .drainDeadline _ => execDrainDeadline_keeps h
  | .streamStart _ => execStreamStart_keeps h
  | .streamShardCopy _ => execStreamShardCopy_keeps h
  | .sealSweep => execSealSweep_keeps h
  | .coalesceIntervalEnd _ _ => execCoalesceIntervalEnd_keeps h
  | .errAck _ => execErrAck_keeps h
  | .consumerWrite _ => execConsumerWrite_keeps h
  | .unitReset _ _ => execUnitReset_keeps h
  | .unitResetEnd => execUnitResetEnd_keeps h
  | .resetStepLate _ _ _ => execResetStepLate_keeps h
  | .partitionReset _ _ _ => execPartitionReset_keeps h
  | .partitionResetEnd _ _ => execPartitionResetEnd_keeps h
  | .chipReset _ => execChipReset_keeps h
  | .aclkLockLost => execAclkLockLost_keeps h
  | .traceSlotRelease _ => execTraceSlotRelease_keeps h
  | .healthWindowEnd _ => execHealthWindowEnd_keeps h
  | .probation _ => execProbation_keeps h
  | .resetState _ => execResetState_keeps h
  | .jobWrite _ => execJobWrite_keeps h
  | .stateLost => execStateLost_keeps h
  | .bootRomStart _ _ => execBootRomStart_keeps h
  | .vellumTest _ => execVellumTest_keeps h
  | .memoryPreparation _ => execMemoryPreparation_keeps h
  | .shellInit _ => execShellInit_keeps h
  | .start _ => execStart_keeps h
  | .attestationRequest => execAttestationRequest_keeps h
  | .reportReady _ => execReportReady_keeps h
  | .onautId _ => execOnautId_keeps h
  | .onautStatus _ => execOnautStatus_keeps h
  | .challenge _ _ => execChallenge_keeps h
  | .token _ _ _ => execToken_keeps h
  | .unlock _ => execUnlock_keeps h
  | .unlockVerified => execUnlockVerified_keeps h
  | .unlockBackoffEnd => execUnlockBackoffEnd_keeps h
  | .lock _ => execLock_keeps h
  | .poll _ => execPoll_keeps h
  | .onautRead _ _ _ => execOnautRead_keeps h
  | .onautWrite _ _ _ _ => execOnautWrite_keeps h
  | .onautHalt _ _ => execOnautHalt_keeps h
  | .coreHalted _ => execCoreHalted_keeps h
  | .onautResume _ _ => execOnautResume_keeps h
  | .step _ _ => execStep_keeps h
  | .bpSet _ _ _ _ => execBpSet_keeps h
  | .bpClear _ _ _ => execBpClear_keeps h
  | .entdaa _ => execEntdaa_keeps h
  | .setdasa _ => execSetdasa_keeps h
  | .rstdaa => execRstdaa_keeps h
  | .enec => execEnec_keeps h
  | .disec => execDisec_keeps h
  | .getpid => execGetpid_keeps h
  | .getbcr => execGetbcr_keeps h
  | .getdcr => execGetdcr_keeps h
  | .getstatus => execGetstatus_keeps h
  | .getmrl => execGetmrl_keeps h
  | .privateWrite _ _ => execPrivateWrite_keeps h
  | .privateRead _ => execPrivateRead_keeps h
  | .offNotice => execOffNotice_keeps h
  | .trayReq _ => execTrayReq_keeps h
  | .preparedTimeout _ => execPreparedTimeout_keeps h
  | .dryPageReturn _ => execDryPageReturn_keeps h
  | .modelFramePush _ => execModelFramePush_keeps h
  | .onautBadRequest _ _ _ _ => execOnautBadRequest_keeps h

/-- A step takes the front command from the queue; apart from that it keeps. -/
theorem step_keeps {s t : State} (h : step s = .next t) : Keeps { s with pending := s.pending.tail } t := by
  unfold step at h
  split at h
  · next hq =>
    have hs : { s with pending := s.pending.tail } = s := by rw [hq]; exact congrArg (fun q => { s with pending := q }) hq.symm
    cases h
    rw [hs]
    exact State.tick_keeps (Keeps.refl s)
  · next c r hq =>
    rw [hq]
    exact exec_keeps (Keeps.refl _) c t h

end Sys2Proof.Machine

namespace Sys2Proof.Proofs

open Sys2Proof.Machine

/-- Settles O5: every meaning and the tick keep burned fuses and the factory area, operation by operation. -/
theorem stepsAnswerAndKeepFuses : Obligations.StepsAnswerAndKeepFuses := by
  intro s
  refine ⟨step_answers s, fun t ht => ?_⟩
  obtain ⟨hqueue, hfuses, hfactory, -⟩ := step_keeps ht
  exact ⟨hqueue, hfuses, hfactory⟩

end Sys2Proof.Proofs

end

section
/-! PROOF. Power sequencing (R19, R21 to R26): what starts the sequence, takes it further, and removes the rails. -/

namespace Sys2Proof.Machine

/-! ### The power-up sequence (R19, R21, R25) -/

section
variable {s : State}

theorem rising_of_up {j : Nat} (hp : s.power.phase = .up j) (hj : j < 7) : s.rising = true := by
  simp only [State.rising, hp, hj, decide_true]

theorem rising_of_off {b : Bool} (hp : s.power.phase = .off b) : s.rising = false := by
  simp only [State.rising, hp]

theorem stepsUp_of_up {j : Nat} (hp : s.power.phase = .up j) : s.stepsUp = j := by
  simp only [State.stepsUp, hp]

theorem switched_of_up {j : Nat} (hp : s.power.phase = .up j) : s.switched = true := by
  simp only [State.switched, hp]

theorem switched_of_tripped (hp : s.power.phase = .tripped) : s.switched = true := by
  simp only [State.switched, hp]

/-- The sequence starts where the switch is open and its time has run, with PWR_EN high, PRSNT_N low and 46.0 V or more. -/
theorem startUp_of_ready (steps : Nat) (hp : s.power.phase = .off false) (hlow : s.power.needLow = false) (hen : s.power.pwrEn = true)
    (hpres : s.power.prsntN = false) (hv : 46000 ≤ s.power.vinMv) : s.startUp steps = s.riseTo steps := by
  simp [State.startUp, State.canStart, hp, hlow, hen, hpres, hv]

/-- Below 46.0 V it does not start. -/
theorem startUp_of_low_supply (steps : Nat) (hv : s.power.vinMv < 46000) : s.startUp steps = s := by
  simp [State.startUp, Nat.not_le_of_lt hv]

/-- With PWR_EN low it does not start. -/
theorem startUp_of_pwrEn_low (steps : Nat) (hen : s.power.pwrEn = false) : s.startUp steps = s := by
  simp [State.startUp, hen]

/-! ### The commands of the power sequencer -/

theorem exec_powerUpSequence_rising {v j : Nat} (k : Fin 8) (hp : s.power.phase = .up j) (hj : j < 7) :
    exec (.powerUpSequence v k) s = .next ((s.modPower fun p => { p with pwrEn := true, vinMv := v }).riseTo (max j k.val)) := by
  show execPowerUpSequence v k s = _
  simp only [execPowerUpSequence, done, rising_of_up hp hj, stepsUp_of_up hp, if_true]

theorem exec_powerUpSequence_off {v : Nat} (k : Fin 8) (hp : s.power.phase = .off false) :
    exec (.powerUpSequence v k) s = .next ((s.modPower fun p => { p with pwrEn := true, vinMv := v }).startUp k.val) := by
  show execPowerUpSequence v k s = _
  simp only [execPowerUpSequence, done, rising_of_off hp, Bool.false_eq_true, if_false]

theorem exec_railToleranceTimeout_rising (h : s.rising = true) : exec .railToleranceTimeout s = .next (s.unpowered (.off true) true) := by
  show execRailToleranceTimeout s = _
  rw [execRailToleranceTimeout, h, act_true]

theorem exec_powerDownSequence_switched (h : s.switched = true) :
    exec .powerDownSequence s = .next ((s.modPower fun p => { p with pwrEn := false }).unpowered (.off true) false) := by
  have ht : (s.modPower fun p => { p with pwrEn := false }).switched = true := h
  show execPowerDownSequence s = _
  simp only [execPowerDownSequence, done, ht, if_true]

theorem exec_supplyRemoval_out {v us : Nat} (h : s.switched = true) (hout : supplyOut v us = true) :
    exec (.supplyRemoval v us) s = .next ((s.modPower fun p => { p with vinMv := v }).unpowered (.off true) true) := by
  show execSupplyRemoval v us s = _
  rw [execSupplyRemoval, h, hout, Bool.and_self, act_true]

theorem exec_minimumOffTimeExpiry_off {v : Nat} (k : Fin 8) (hp : s.power.phase = .off true) :
    exec (.minimumOffTimeExpiry v k) s = .next ((s.modPower fun p => { p with
      phase := .off false, needLow := p.needLow && !(p.sawLow && !p.pwrEn), sawLow := !p.pwrEn, vinMv := v }).startUp k.val) := by
  show execMinimumOffTimeExpiry v k s = _
  simp only [execMinimumOffTimeExpiry, hp, decide_true, act_true]

end

theorem supplyOut_iff (v us : Nat) : supplyOut v us = true ↔ (v < 44000 ∧ 100 ≤ us) ∨ (57000 < v ∧ 10 ≤ us) := by
  simp [supplyOut]

end Sys2Proof.Machine

namespace Sys2Proof.Proofs

open Sys2Proof.Machine

/-- Settles O19, command by command. -/
theorem powerSequencing : Obligations.PowerSequencing := by
  intro s v us k
  refine ⟨fun hp hlow hpres hv => ?_, fun j hp hj => ?_, fun hp hv => ?_, fun j hp hj => ?_, fun j hp => ?_, fun j hp hout => ?_,
    fun hp hlow hpres hen hv => ?_, fun hp hen => ?_⟩
  · exact (exec_powerUpSequence_off k hp).trans (congrArg Host.Outcome.next (startUp_of_ready k.val hp hlow rfl hpres hv))
  · rw [exec_powerUpSequence_rising k hp hj]
    rfl
  · exact (exec_powerUpSequence_off k hp).trans (congrArg Host.Outcome.next (startUp_of_low_supply k.val hv))
  · exact ⟨_, exec_railToleranceTimeout_rising (rising_of_up hp hj), rfl, rfl, rfl, rfl, rfl, rfl, rfl, rfl, rfl⟩
  · have hsw : s.switched = true := hp.elim switched_of_up switched_of_tripped
    exact ⟨_, exec_powerDownSequence_switched hsw, rfl, rfl, rfl, rfl, rfl, rfl, rfl, rfl, rfl, rfl⟩
  · exact ⟨_, exec_supplyRemoval_out (switched_of_up hp) ((supplyOut_iff v us).mpr hout), rfl, rfl, rfl, rfl, rfl, rfl, rfl, rfl, rfl⟩
  · have hlow' : (s.power.needLow && !(s.power.sawLow && !s.power.pwrEn)) = false := by rw [hlow, Bool.false_and]
    exact ⟨_, (exec_minimumOffTimeExpiry_off k hp).trans (congrArg Host.Outcome.next (startUp_of_ready k.val rfl hlow' hen hpres hv)),
      rfl, rfl, rfl⟩
  · exact ⟨_, (exec_minimumOffTimeExpiry_off k hp).trans (congrArg Host.Outcome.next (startUp_of_pwrEn_low k.val hen)), rfl, rfl, rfl⟩

end Sys2Proof.Proofs

end

section
/-! PROOF. Error records, chip resets, MOD_RESET_N, the thermal trip and the identity EEPROM (R22, R23, R34, R35, R332). -/

namespace Sys2Proof.Machine

/-! ### A record raised (R318): it waits for the end of the aclk, and changes nothing else -/

theorem State.raise_eq (s : State) (r : ErrRecord) : ∃ l i, s.raise r = { s with newErrs := l, rates := i } := by
  unfold State.raise State.raiseAt
  split
  · split
    · exact ⟨s.newErrs, _, rfl⟩
    · exact ⟨_, _, rfl⟩
  · exact ⟨_, s.rates, rfl⟩

section
variable (s : State) (r : ErrRecord)

@[simp] theorem State.raise_regs : (s.raise r).regs = s.regs := by obtain ⟨_, _, h⟩ := s.raise_eq r; rw [h]
@[simp] theorem State.raise_power : (s.raise r).power = s.power := by obtain ⟨_, _, h⟩ := s.raise_eq r; rw [h]
@[simp] theorem State.raise_boot : (s.raise r).boot = s.boot := by obtain ⟨_, _, h⟩ := s.raise_eq r; rw [h]
@[simp] theorem State.raise_mem : (s.raise r).mem = s.mem := by obtain ⟨_, _, h⟩ := s.raise_eq r; rw [h]
@[simp] theorem State.raise_synd : (s.raise r).synd = s.synd := by obtain ⟨_, _, h⟩ := s.raise_eq r; rw [h]
@[simp] theorem State.raise_get (f : Field) : (s.raise r).get f = s.get f := by rw [State.get, State.raise_regs]; rfl

end

/-! ### A chip reset (R332, R333) -/

/-- The power controller and the field LAST_CAUSE hold these. -/
def State.showsCause (p : PowerSt) (cause : Nat) (s : State) : Prop := s.power = p ∧ s.get RST.PERSIST.LAST_CAUSE = cause

theorem showsCause_put {p : PowerSt} {cause v : Nat} {s : State} {f : Field} (h : s.showsCause p cause)
    (hf : RST.PERSIST.LAST_CAUSE.key ≠ f.key) : (s.put f v).showsCause p cause :=
  ⟨h.1, (State.get_put_other s f _ v hf).trans h.2⟩

theorem showsCause_raise {p : PowerSt} {cause : Nat} {s : State} (h : s.showsCause p cause) (r : ErrRecord) :
    (s.raise r).showsCause p cause := ⟨(s.raise_power r).trans h.1, (s.raise_get r _).trans h.2⟩

theorem showsCause_clearDomain {p : PowerSt} {cause d : Nat} {s : State} (h : s.showsCause p cause) (hd : d < 16) :
    (s.clearDomain d).showsCause p cause := by
  refine showsCause_put (showsCause_put h ?_) ?_
  · simp only [Field.key]
    omega
  · simp only [Field.key]
    omega

/-- A chip reset leaves the pins and rails of the power controller, and names its cause. -/
theorem chipReset_showsCause (s : State) (cause : Nat) (b : Bool) :
    ∃ p : PowerSt, p.modResetN = b ∧ (s.chipReset cause b).showsCause p (cause % 2 ^ 3) := by
  unfold State.chipReset
  extract_lets kept t
  refine ⟨kept.writeRecs.power.afterReset b, rfl, ?_⟩
  have ht : t.showsCause (kept.writeRecs.power.afterReset b) (cause % 2 ^ 3) := by
    refine List.foldlRecOn (motive := State.showsCause _ _) allParts _ ?_ fun u hu n _ => ?_
    · exact showsCause_put ⟨rfl, State.get_put_same _ RST.PERSIST.LAST_CAUSE cause⟩ (by decide)
    · dsimp only
      split
      · exact hu
      · exact showsCause_raise hu _
  exact List.foldlRecOn (motive := State.showsCause _ _) (List.range 16) _ ht fun u hu d hd =>
    showsCause_clearDomain hu (List.mem_range.mp hd)

/-- With MOD_RESET_N low the logic does not run. -/
theorem live_of_modResetN_low {s : State} (h : s.power.modResetN = false) : s.live = false := by
  rw [State.live, h, Bool.and_false, Bool.false_and]

/-! ### MOD_RESET_N (R22, R23) -/

section
variable {s : State} {ns : Nat}

theorem exec_modResetNLow_short (h : ns < 1000) : exec (.modResetNLow ns) s = .next s := if_pos h

theorem exec_modResetNLow_long (h : 10000 ≤ ns) : exec (.modResetNLow ns) s
    = if s.live then .next (s.chipReset 2 false)
      else .next (s.modPower fun p => { p with modResetN := false, bootAt := if p.phase = .up 7 then 800000 else p.bootAt }) := by
  show execModResetNLow ns s = _
  rw [execModResetNLow, if_neg (by omega), if_neg (by omega)]

/-! ### The thermal trip (R34) -/

theorem canTrip_iff (s : State) : s.canTrip = true ↔ ∃ j, s.power.phase = .up j := by
  unfold State.canTrip
  cases s.power.phase with
  | up k => exact ⟨fun _ => ⟨k, rfl⟩, fun _ => rfl⟩
  | off _ => exact ⟨fun h => absurd h Bool.false_ne_true, fun ⟨_, h⟩ => by cases h⟩
  | tripped => exact ⟨fun h => absurd h Bool.false_ne_true, fun ⟨_, h⟩ => by cases h⟩

theorem exec_thermalTrip_hot {j c : Nat} (hp : s.power.phase = .up j) (hc : 110 ≤ c) : exec (.thermalTrip c) s = .next s.trip := by
  show execThermalTrip c s = _
  rw [execThermalTrip, (canTrip_iff s).mpr ⟨j, hp⟩, decide_eq_true hc, Bool.and_self, act_true]

theorem exec_thermalTrip_unpowered (c : Nat) (hp : ∀ j : Nat, s.power.phase ≠ .up j) : exec (.thermalTrip c) s = .next s := by
  have hcan : s.canTrip = false := Bool.eq_false_iff.mpr fun h => ((canTrip_iff s).mp h).elim hp
  show execThermalTrip c s = _
  rw [execThermalTrip, hcan, Bool.false_and, act_false]

/-! ### The identity EEPROM (R35) -/

theorem eepromUp_of_phase {j : Nat} (h : (s.power.phase = .up j ∧ 2 ≤ j) ∨ s.power.phase = .tripped) : s.eepromUp = true := by
  rcases h with ⟨hp, hj⟩ | hp
  · simp only [State.eepromUp, hp, hj, decide_true]
  · simp only [State.eepromUp, hp]

theorem exec_eepromWrite (h : s.eepromUp = true) (a : BitVec 13) (b : Byte) : exec (.identityEepromAccess a (some b)) s
    = .next (if a.toNat < 0x200 then s else { s with eeprom := Sparse.insert s.eeprom a.toNat b }) := by
  show act s s.eepromUp _ = _
  rw [h, act_true]

theorem exec_eepromRead (h : s.eepromUp = true) (a : BitVec 13) :
    exec (.identityEepromAccess a none) s = .next (s.i3cSend [s.eepromRead a.toNat]) := by
  show act s s.eepromUp _ = _
  rw [h, act_true]

end

end Sys2Proof.Machine

namespace Sys2Proof.Proofs

open Sys2Proof.Machine

/-- Settles O20: the reset pin, the trip and the EEPROM in turn. -/
theorem resetPinTripAndEeprom : Obligations.ResetPinTripAndEeprom := by
  refine ⟨fun s ns c => ⟨exec_modResetNLow_short, fun hns hlive => ?_, fun hns hlive => ?_, rfl, fun j hp hc => ?_,
    exec_thermalTrip_unpowered c⟩, fun s j a b hup => ?_⟩
  · obtain ⟨p, hpin, hpower, hcause⟩ := chipReset_showsCause s 2 false
    exact ⟨by rw [exec_modResetNLow_long hns, if_pos hlive], live_of_modResetN_low (hpower ▸ hpin), hcause⟩
  · rw [exec_modResetNLow_long hns, hlive]
    rfl
  · exact ⟨_, exec_thermalTrip_hot hp hc, rfl, rfl, rfl, rfl, rfl, rfl, rfl, rfl, rfl⟩
  · have hwr := exec_eepromWrite (eepromUp_of_phase hup) a b
    exact ⟨fun ha => by rw [hwr, if_pos ha], fun ha => by rw [hwr, if_neg (Nat.not_lt.mpr ha)], exec_eepromRead (eepromUp_of_phase hup) a⟩

end Sys2Proof.Proofs

end

section
/-! PROOF. A power sample (R28 to R34): what it shows, the test of R29, the target sets of R30 and R33, and the gates. -/

namespace Sys2Proof.Machine

/-! ### Flags, counts and causes in a register (R8, R9, R372) -/

theorem State.get_flag_same (s : State) (f : Field) (m : Nat) : (s.flag f m).get f = Nat.lor (s.get f) m % 2 ^ f.width :=
  State.get_put_same s f _

theorem State.get_flag_other (s : State) (f g : Field) (m : Nat) (h : g.key ≠ f.key) : (s.flag f m).get g = s.get g :=
  State.get_put_other s f g _ h

/-- A flag of one bit is on once it is set. -/
theorem State.on_flag_one (s : State) (f : Field) (hw : f.width = 1) : (s.flag f 1).on f = true := by
  have hodd : Nat.lor (s.get f) 1 % 2 = 1 := Nat.or_mod_two_eq_one.mpr (.inr rfl)
  rw [State.on, State.get_flag_same, hw, Nat.pow_one, hodd]
  rfl

theorem State.get_tally_other (s : State) (f g : Field) (k : Nat) (h : g.key ≠ f.key) : (s.tally f k).get g = s.get g :=
  State.get_put_other (s.keepOld f) f g _ h

/-- An In-Band Interrupt that is tried changes the management bus and nothing else. -/
theorem State.ibiTry_eq (s : State) : ∃ m i, s.ibiTry = { s with mgt := m, i3cTx := i } := by
  unfold State.ibiTry
  extract_lets want
  split
  · exact ⟨_, _, rfl⟩
  · exact ⟨s.mgt, s.i3cTx, rfl⟩

/-! ### Updates that run over the partitions -/

/-- Updates of one field of each partition of a list, each of which leaves the others': every one is made once. -/
theorem get_forParts {f : PartIx → State → State} {fld : PartIx → Field} {v : PartIx → Nat → Nat}
    (hsame : ∀ n t, (f n t).get (fld n) = v n (t.get (fld n))) (hother : ∀ n m t, m ≠ n → (f n t).get (fld m) = t.get (fld m))
    {l : List PartIx} (hl : l.Nodup) (s : State) (m : PartIx) :
    (forParts l f s).get (fld m) = if m ∈ l then v m (s.get (fld m)) else s.get (fld m) := by
  induction l generalizing s with
  | nil => rfl
  | cons n r ih =>
    obtain ⟨hn, hr⟩ := List.nodup_cons.mp hl
    have hstep : forParts (n :: r) f s = forParts r f (f n s) := rfl
    rw [hstep, ih hr]
    by_cases h : m = n
    · subst h
      rw [if_neg hn, if_pos List.mem_cons_self, hsame]
    · simp only [List.mem_cons, h, false_or, hother n m s h]

/-- Fields put for each partition of a list change the registers alone. -/
theorem forParts_put_eq (l : List PartIx) (fld : PartIx → Field) (v : PartIx → Nat) (s : State) :
    ∃ r, forParts l (fun n t => t.put (fld n) (v n)) s = { s with regs := r } :=
  by
  refine List.foldlRecOn (motive := fun t : State => ∃ r, t = { s with regs := r }) l _ ⟨s.regs, rfl⟩ fun t ⟨r, ht⟩ n _ => ?_
  rw [ht]
  exact ⟨_, rfl⟩

theorem mem_allParts (n : PartIx) : n ∈ allParts := by revert n; decide

theorem mem_activeParts (s : State) (n : PartIx) : n ∈ allParts.filter (fun n => s.active n) ↔ s.active n = true := by
  simp [List.mem_filter, mem_allParts]

theorem nodup_activeParts (s : State) : (allParts.filter (fun n => s.active n)).Nodup := List.Nodup.filter _ (by decide)

/-! ### What a sample and its steps leave -/

/-- Keys of PWR.EVENTS. -/
def EventKey (k : Nat) : Prop := k / 64 = 8

/-- Keys of PWR.EVENTS and of the gates. -/
def StepKey (k : Nat) : Prop := EventKey k ∨ ∃ n : PartIx, k = (PWR.P_STATE_n.GATE n).key

theorem not_stepKey {k : Nat} (he : k / 64 ≠ 8) (hg : k < 0x800 ∨ 0xC00 ≤ k ∨ k % 64 ≠ 0) : ¬ StepKey k := by
  rintro (h | ⟨n, h⟩)
  · exact he h
  · simp only [Field.key] at h
    omega

/-- From u to t the step of a sample may have changed the fields with a key of K, what the controller counts, and nothing else that the
sample shows. -/
structure Stepped (K : Nat → Prop) (u t : State) : Prop where
  regs   : ∀ f : Field, ¬ K f.key → t.get f = u.get f
  force  : t.force = u.force
  time   : t.time = u.time
  memory : t.mem = u.mem ∧ t.synd = u.synd
  power  : ∃ o q p, t.power = { u.power with overTime := o, quietTime := q, prevP := p }

section
variable {K : Nat → Prop} {u s : State}

theorem Stepped.refl (s : State) : Stepped K s s :=
  ⟨fun _ _ => rfl, rfl, rfl, ⟨rfl, rfl⟩, s.power.overTime, s.power.quietTime, s.power.prevP, rfl⟩

theorem Stepped.mono {L : Nat → Prop} (h : Stepped K u s) (hKL : ∀ k, K k → L k) : Stepped L u s :=
  ⟨fun f hf => h.regs f (fun hk => hf (hKL _ hk)), h.force, h.time, h.memory, h.power⟩

theorem Stepped.put (h : Stepped K u s) {f : Field} (hf : K f.key) (v : Nat) : Stepped K u (s.put f v) :=
  ⟨fun g hg => (State.get_put_other s f g v (fun e => hg (e ▸ hf))).trans (h.regs g hg), h.force, h.time, h.memory, h.power⟩

theorem Stepped.flag (h : Stepped K u s) {f : Field} (hf : K f.key) (m : Nat) : Stepped K u (s.flag f m) :=
  have k := h.put hf (Nat.lor (s.get f) m)
  ⟨k.regs, k.force, k.time, k.memory, k.power⟩

theorem Stepped.tally (h : Stepped K u s) {f : Field} (hf : K f.key) (k : Nat) : Stepped K u (s.tally f k) :=
  have k := h.put hf (satAdd (s.get f) k (2 ^ f.width - 1))
  ⟨k.regs, k.force, k.time, k.memory, k.power⟩

theorem Stepped.count (h : Stepped K u s) (o q p : Nat) :
    Stepped K u (s.modPower fun w => { w with overTime := o, quietTime := q, prevP := p }) := by
  obtain ⟨_, _, _, hp⟩ := h.power
  exact ⟨h.regs, h.force, h.time, h.memory, o, q, p, by simp only [State.modPower, hp]⟩

theorem Stepped.ite {t : State} {p : Prop} [Decidable p] (h : Stepped K u s) (k : Stepped K u t) : Stepped K u (if p then s else t) := by
  split
  · exact h
  · exact k

theorem Stepped.forParts {f : PartIx → State → State} {l : List PartIx} (h : Stepped K u s)
    (hf : ∀ n t, Stepped K u t → Stepped K u (f n t)) : Stepped K u (forParts l f s) :=
  List.foldlRecOn (motive := Stepped K u) l _ h fun t ht n _ => hf n t ht

theorem Stepped.inForce (h : Stepped K u s) (f : Field) : s.inForce f = u.inForce f := by rw [State.inForce, State.inForce, h.force]

theorem Stepped.powerLimit (h : Stepped K u s) : s.powerLimit = u.powerLimit := by rw [State.powerLimit, State.powerLimit, h.inForce]

end

/-! ### The test of R29 -/

theorem powerLimit_le (s : State) : s.powerLimit ≤ 1500 := by
  unfold State.powerLimit clamp
  split
  · decide
  · split
    · exact Nat.le_refl _
    · omega

section
variable {s : State} {w : Nat}

theorem powerTest_peak (h : 1800 < w ∧ 1800 < s.power.prevP) : s.powerTest w = (4, s.flag PWR.EVENTS.PEAK 1) := by
  simp [State.powerTest, h]

/-- The flag of a mean above the limit, where the test has called for nothing yet. -/
def State.meanTest (s t : State) : Nat × State :=
  if s.powerLimit * s.power.samples.length < s.power.samples.sum then (1, t.flag PWR.EVENTS.AVERAGE 1) else (0, t)

theorem powerTest_above (hpeak : ¬(1800 < w ∧ 1800 < s.power.prevP)) (h : s.powerLimit < w) :
    s.powerTest w = if 799 ≤ s.power.overTime
      then (2, (s.modPower fun p => { p with overTime := s.power.overTime + 1 }).flag PWR.EVENTS.EXCURSION 1)
      else s.meanTest (s.modPower fun p => { p with overTime := s.power.overTime + 1 }) := by
  by_cases ho : 799 ≤ s.power.overTime
  · simp [State.powerTest, hpeak, h, ho]
  · simp [State.powerTest, State.meanTest, State.modPower, hpeak, h, ho]

theorem powerTest_within (h : w ≤ s.powerLimit) : s.powerTest w = s.meanTest (s.modPower fun p => { p with overTime := 0 }) := by
  have hlimit := powerLimit_le s
  have hpeak : ¬(1800 < w ∧ 1800 < s.power.prevP) := by omega
  simp [State.powerTest, State.meanTest, State.modPower, hpeak, Nat.not_lt.mpr h]

theorem meanTest_stepped {u t : State} (h : Stepped EventKey u t) : Stepped EventKey u (s.meanTest t).2 := by
  unfold State.meanTest
  split
  · exact h.flag (f := PWR.EVENTS.AVERAGE) rfl 1
  · exact h

theorem powerTest_stepped (s : State) (w : Nat) : Stepped EventKey s (s.powerTest w).2 := by
  have counted (o : Nat) : Stepped EventKey s (s.modPower fun p => { p with overTime := o }) :=
    (Stepped.refl s).count o s.power.quietTime s.power.prevP
  by_cases hpeak : 1800 < w ∧ 1800 < s.power.prevP
  · rw [powerTest_peak hpeak]
    exact (Stepped.refl (K := EventKey) s).flag (f := PWR.EVENTS.PEAK) rfl 1
  · by_cases h : s.powerLimit < w
    · rw [powerTest_above hpeak h]
      split
      · exact (counted _).flag (f := PWR.EVENTS.EXCURSION) rfl 1
      · exact meanTest_stepped (counted _)
    · rw [powerTest_within (Nat.not_lt.mp h)]
      exact meanTest_stepped (counted _)

theorem powerTest_quietTime (s : State) (w : Nat) : (s.powerTest w).2.power.quietTime = s.power.quietTime := by
  have mean (t : State) : (s.meanTest t).2.power.quietTime = t.power.quietTime := by
    unfold State.meanTest
    split
    · rfl
    · rfl
  by_cases hpeak : 1800 < w ∧ 1800 < s.power.prevP
  · rw [powerTest_peak hpeak]
    rfl
  · by_cases h : s.powerLimit < w
    · rw [powerTest_above hpeak h]
      split
      · rfl
      · exact mean _
    · rw [powerTest_within (Nat.not_lt.mp h)]
      exact mean _

end

/-! ### The target sets of R30 and R33 -/

theorem firstFull_of_mem {α : Type} {l : List α} {r : List (List α)} {a : α} (h : a ∈ l) : firstFull (l :: r) = l := by
  have hne : ¬ l.isEmpty = true := fun he => by rw [List.isEmpty_iff.mp he] at h; cases h
  rw [firstFull, if_neg hne]

theorem firstFull_of_forall {α : Type} {l : List α} {r : List (List α)} (h : ∀ a, a ∉ l) : firstFull (l :: r) = firstFull r := by
  rw [List.eq_nil_iff_forall_not_mem.mpr h]
  rfl

theorem firstFull_single {α : Type} (l : List α) : firstFull [l] = l := by
  cases l with
  | nil => rfl
  | cons a r => rfl

/-- The active partitions that a condition on PROTECT, on the power and on the gate holds of. -/
def State.group (s : State) (thermal : Bool) (cond : Bool → Bool → Bool → Bool) : List PartIx :=
  (allParts.filter (fun n => s.active n)).filter (fun n => cond (s.inForce (PWR.P_CAP_n.PROTECT n) == 1)
    (thermal || decide (s.inForce (PWR.P_CAP_n.WATTS n) < s.get (PWR.P_STATE_n.WATTS n)))
    (decide (4 < s.get (PWR.P_STATE_n.GATE n))))

theorem targets_eq (s : State) (th : Bool) : s.targets th = firstFull [s.group th (fun p h _ => !p && h), s.group th (fun p _ g => !p && g),
    s.group th (fun p h _ => p && h), s.group th (fun p _ g => p && g)] := rfl

/-- Membership of a group, said of propositions that the three conditions spell. -/
theorem mem_group {s : State} {th : Bool} {hot high prot : PartIx → Prop}
    (hhot : ∀ n : PartIx, hot n ↔ th = true ∨ s.inForce (PWR.P_CAP_n.WATTS n) < s.get (PWR.P_STATE_n.WATTS n))
    (hhigh : ∀ n : PartIx, high n ↔ 4 < s.get (PWR.P_STATE_n.GATE n))
    (hprot : ∀ n : PartIx, prot n ↔ s.inForce (PWR.P_CAP_n.PROTECT n) = 1) (n : PartIx) :
    (n ∈ s.group th (fun p h _ => !p && h) ↔ s.active n = true ∧ ¬prot n ∧ hot n)
    ∧ (n ∈ s.group th (fun p _ g => !p && g) ↔ s.active n = true ∧ ¬prot n ∧ high n)
    ∧ (n ∈ s.group th (fun p h _ => p && h) ↔ s.active n = true ∧ prot n ∧ hot n)
    ∧ (n ∈ s.group th (fun p _ g => p && g) ↔ s.active n = true ∧ prot n ∧ high n) := by
  simp only [State.group, List.mem_filter, mem_allParts, true_and, hhot, hhigh, hprot, Bool.and_eq_true, Bool.or_eq_true,
    Bool.not_eq_true', beq_eq_false_iff_ne, beq_iff_eq, decide_eq_true_eq, ne_eq, and_self]

theorem Stepped.group {u s : State} (h : Stepped EventKey u s) (th : Bool) (cond : Bool → Bool → Bool → Bool) :
    s.group th cond = u.group th cond := by
  have event {a hi lo r : Nat} (ha : a ≠ 8) (hl : lo < 64) : s.get ⟨a, hi, lo, r⟩ = u.get ⟨a, hi, lo, r⟩ := by
    refine h.regs _ ?_
    simp only [EventKey, Field.key]
    omega
  have hactive (n : PartIx) : s.active n = u.active n := by rw [State.active, State.active, event (by omega) (by omega)]
  have hwatts (n : PartIx) : s.get (PWR.P_STATE_n.WATTS n) = u.get (PWR.P_STATE_n.WATTS n) := event (by omega) (by omega)
  have hgate (n : PartIx) : s.get (PWR.P_STATE_n.GATE n) = u.get (PWR.P_STATE_n.GATE n) := event (by omega) (by omega)
  simp only [State.group, hactive, hwatts, hgate, h.inForce]

theorem Stepped.targets {u s : State} (h : Stepped EventKey u s) (th : Bool) : s.targets th = u.targets th := by
  simp only [targets_eq, h.group]

/-! ### The gates (R29, R33) -/

/-- What a reduction takes from the gate of a partition. -/
def State.cut (s : State) (step : Nat) (th : Bool) (n : PartIx) : Nat :=
  max (if n ∈ s.targets false then step else 0) (if th = true ∧ n ∈ s.targets true then 1 else 0)

theorem gate_key_ne {n m : PartIx} (h : m ≠ n) : (PWR.P_STATE_n.GATE m).key ≠ (PWR.P_STATE_n.GATE n).key := by
  have hval : m.val ≠ n.val := fun e => h (Fin.ext e)
  simp only [Field.key]
  omega

theorem reduceGates_eq (s : State) (step : Nat) (th : Bool) : s.reduceGates step th
    = forParts (allParts.filter (fun n => s.active n)) (fun n t =>
        t.put (PWR.P_STATE_n.GATE n) (max 4 (t.get (PWR.P_STATE_n.GATE n) - s.cut step th n))) s := by
  simp only [State.reduceGates, State.cut, List.contains_iff_mem, Bool.and_eq_true]

theorem reduceGates_gate (s : State) (step : Nat) (th : Bool) (n : PartIx) (hg : s.get (PWR.P_STATE_n.GATE n) ≤ 16) :
    (s.reduceGates step th).get (PWR.P_STATE_n.GATE n)
      = if s.active n then max 4 (s.get (PWR.P_STATE_n.GATE n) - s.cut step th n) else s.get (PWR.P_STATE_n.GATE n) := by
  have hfit : max 4 (s.get (PWR.P_STATE_n.GATE n) - s.cut step th n) < 2 ^ 5 := by omega
  rw [reduceGates_eq, get_forParts (fld := fun n => PWR.P_STATE_n.GATE n) (v := fun n x => max 4 (x - s.cut step th n) % 2 ^ 5)
    (fun n t => State.get_put_same t _ _) (fun n m t h => State.get_put_other t _ _ _ (gate_key_ne h)) (nodup_activeParts s),
    Nat.mod_eq_of_lt hfit]
  simp only [mem_activeParts]

theorem raiseGates_gate (s : State) (n : PartIx) (hg : s.get (PWR.P_STATE_n.GATE n) ≤ 16) : s.raiseGates.get (PWR.P_STATE_n.GATE n)
    = if s.active n then min 16 (s.get (PWR.P_STATE_n.GATE n) + 1) else s.get (PWR.P_STATE_n.GATE n) := by
  have hsame (n : PartIx) (t : State) : (if t.get (PWR.P_STATE_n.GATE n) < 16
      then t.put (PWR.P_STATE_n.GATE n) (t.get (PWR.P_STATE_n.GATE n) + 1) else t).get (PWR.P_STATE_n.GATE n)
      = if t.get (PWR.P_STATE_n.GATE n) < 16 then t.get (PWR.P_STATE_n.GATE n) + 1 else t.get (PWR.P_STATE_n.GATE n) := by
    split
    · next h =>
      have hwidth : (PWR.P_STATE_n.GATE n).width = 5 := rfl
      rw [State.get_put_same, hwidth, Nat.mod_eq_of_lt (by omega)]
    · rfl
  have hother (n m : PartIx) (t : State) (h : m ≠ n) : (if t.get (PWR.P_STATE_n.GATE n) < 16
      then t.put (PWR.P_STATE_n.GATE n) (t.get (PWR.P_STATE_n.GATE n) + 1) else t).get (PWR.P_STATE_n.GATE m)
      = t.get (PWR.P_STATE_n.GATE m) := by
    split
    · exact State.get_put_other t _ _ _ (gate_key_ne h)
    · rfl
  rw [State.raiseGates, get_forParts (fld := fun n => PWR.P_STATE_n.GATE n) (v := fun _ x => if x < 16 then x + 1 else x)
    hsame hother (nodup_activeParts s)]
  have hmin : (if s.get (PWR.P_STATE_n.GATE n) < 16 then s.get (PWR.P_STATE_n.GATE n) + 1 else s.get (PWR.P_STATE_n.GATE n))
      = min 16 (s.get (PWR.P_STATE_n.GATE n) + 1) := by
    split
    · omega
    · omega
  simp only [mem_activeParts, hmin]

section
variable {u s : State}

theorem reduceGates_stepped (h : Stepped StepKey u s) (step : Nat) (th : Bool) : Stepped StepKey u (s.reduceGates step th) := by
  rw [reduceGates_eq]
  exact h.forParts fun n _ ht => ht.put (.inr ⟨n, rfl⟩) _

theorem raiseGates_stepped (h : Stepped StepKey u s) : Stepped StepKey u s.raiseGates :=
  h.forParts fun n _ ht => (ht.put (.inr ⟨n, rfl⟩) _).ite ht

theorem reduceGates_power (s : State) (step : Nat) (th : Bool) : (s.reduceGates step th).power = s.power := by
  rw [reduceGates_eq]
  exact List.foldlRecOn (motive := fun t : State => t.power = s.power) _ _ rfl fun t ht n _ => ht

end

/-! ### The step of the power controller (R29, R33) -/

/-- The state as a reduction finds it: its test's flags, the event counted, THERMAL set with the thermal condition. -/
def State.stepFlags (s : State) (w : Nat) (th : Bool) : State :=
  if th then ((s.powerTest w).2.tally PWR.EVENTS.COUNT 1).flag PWR.EVENTS.THERMAL 1 else (s.powerTest w).2.tally PWR.EVENTS.COUNT 1

section
variable {s : State} {w : Nat} {th : Bool}

theorem powerStep_reduce (h : 0 < (s.powerTest w).1 ∨ th = true) : s.powerStep w th
    = ((s.stepFlags w th).reduceGates (s.powerTest w).1 th).modPower (fun q => { q with quietTime := 0, prevP := w }) := by
  simp only [State.powerStep, State.stepFlags, h, if_true]

theorem powerStep_quiet (h : (s.powerTest w).1 = 0) (hq : 20 * w ≤ 19 * s.powerLimit) : s.powerStep w false
    = if 9 ≤ s.power.quietTime then (s.powerTest w).2.raiseGates.modPower (fun q => { q with quietTime := 0, prevP := w })
      else (s.powerTest w).2.modPower (fun q => { q with quietTime := s.power.quietTime + 1, prevP := w }) := by
  have hlimit := (powerTest_stepped s w).powerLimit
  simp [State.powerStep, h, hlimit, hq, powerTest_quietTime]

theorem powerStep_busy (h : (s.powerTest w).1 = 0) (hq : 19 * s.powerLimit < 20 * w) : s.powerStep w false
    = (s.powerTest w).2.modPower (fun q => { q with quietTime := 0, prevP := w }) := by
  have hlimit := (powerTest_stepped s w).powerLimit
  simp [State.powerStep, h, hlimit, Nat.not_le.mpr hq]

theorem stepFlags_stepped (s : State) (w : Nat) (th : Bool) : Stepped EventKey s (s.stepFlags w th) := by
  have h : Stepped EventKey s ((s.powerTest w).2.tally PWR.EVENTS.COUNT 1) := (powerTest_stepped s w).tally (f := PWR.EVENTS.COUNT) rfl 1
  exact (h.flag (f := PWR.EVENTS.THERMAL) rfl 1).ite h

/-- A step changes the events, the gates and what the controller counts, and remembers the power of its sample. -/
theorem powerStep_stepped (s : State) (w : Nat) (th : Bool) : Stepped StepKey s (s.powerStep w th) ∧ (s.powerStep w th).power.prevP = w := by
  have counted {t : State} (h : Stepped StepKey s t) (q : Nat) :
      Stepped StepKey s (t.modPower fun p => { p with quietTime := q, prevP := w }) := h.count t.power.overTime q w
  have htest := (powerTest_stepped s w).mono (L := StepKey) fun _ hk => .inl hk
  by_cases h : 0 < (s.powerTest w).1 ∨ th = true
  · rw [powerStep_reduce h]
    exact ⟨counted (reduceGates_stepped ((stepFlags_stepped s w th).mono fun _ hk => .inl hk) _ _) 0, rfl⟩
  · obtain ⟨hzero, hth⟩ := not_or.mp h
    rw [Bool.not_eq_true] at hth
    subst hth
    have hzero := Nat.eq_zero_of_not_pos hzero
    by_cases hq : 20 * w ≤ 19 * s.powerLimit
    · rw [powerStep_quiet hzero hq]
      split
      · exact ⟨counted (raiseGates_stepped htest) 0, rfl⟩
      · exact ⟨counted htest _, rfl⟩
    · rw [powerStep_busy hzero (Nat.not_le.mp hq)]
      exact ⟨counted htest 0, rfl⟩

theorem Stepped.gate {u s : State} (h : Stepped EventKey u s) (n : PartIx) :
    s.get (PWR.P_STATE_n.GATE n) = u.get (PWR.P_STATE_n.GATE n) := by
  refine h.regs _ ?_
  simp only [EventKey, Field.key]
  omega

theorem Stepped.active {u s : State} (h : Stepped EventKey u s) (n : PartIx) : s.active n = u.active n := by
  have hkey : ¬ EventKey (PART.POWER_n.STATE n).key := by
    simp only [EventKey, Field.key]
    omega
  rw [State.active, State.active, h.regs _ hkey]

theorem Stepped.cut {u s : State} (h : Stepped EventKey u s) (step : Nat) (th : Bool) (n : PartIx) : s.cut step th n = u.cut step th n := by
  rw [State.cut, State.cut, h.targets, h.targets]

theorem powerStep_gate_reduce (h : 0 < (s.powerTest w).1 ∨ th = true) (n : PartIx) (hg : s.get (PWR.P_STATE_n.GATE n) ≤ 16) :
    (s.powerStep w th).get (PWR.P_STATE_n.GATE n) = if s.active n
      then max 4 (s.get (PWR.P_STATE_n.GATE n) - s.cut (s.powerTest w).1 th n) else s.get (PWR.P_STATE_n.GATE n) := by
  have hflags := stepFlags_stepped s w th
  have hgate := reduceGates_gate (s.stepFlags w th) (s.powerTest w).1 th n (hflags.gate n ▸ hg)
  rw [hflags.gate, hflags.active, hflags.cut] at hgate
  rw [powerStep_reduce h]
  exact hgate

theorem powerStep_gate_raise (h : (s.powerTest w).1 = 0) (hq : 20 * w ≤ 19 * s.powerLimit) (hten : 9 ≤ s.power.quietTime) (n : PartIx)
    (hg : s.get (PWR.P_STATE_n.GATE n) ≤ 16) : (s.powerStep w false).get (PWR.P_STATE_n.GATE n) = if s.active n
      then min 16 (s.get (PWR.P_STATE_n.GATE n) + 1) else s.get (PWR.P_STATE_n.GATE n) := by
  have htest := powerTest_stepped s w
  have hgate := raiseGates_gate (s.powerTest w).2 n (htest.gate n ▸ hg)
  rw [htest.gate, htest.active] at hgate
  rw [powerStep_quiet h hq, if_pos hten]
  exact hgate

theorem powerStep_thermal (s : State) (w : Nat) : (s.powerStep w true).on PWR.EVENTS.THERMAL = true := by
  have hgates : ((s.stepFlags w true).reduceGates (s.powerTest w).1 true).get PWR.EVENTS.THERMAL = (s.stepFlags w true).get PWR.EVENTS.THERMAL := by
    rw [reduceGates_eq]
    refine List.foldlRecOn (motive := fun t : State => t.get PWR.EVENTS.THERMAL = _) _ _ rfl fun t ht n _ => ?_
    have hne : PWR.EVENTS.THERMAL.key ≠ (PWR.P_STATE_n.GATE n).key := by
      simp only [Field.key]
      omega
    exact (State.get_put_other t _ _ _ hne).trans ht
  have hflag : (s.stepFlags w true).on PWR.EVENTS.THERMAL = true := State.on_flag_one _ _ rfl
  rw [powerStep_reduce (.inr rfl), State.on]
  rw [State.on] at hflag
  exact (congrArg (· == 1) hgates).trans hflag

end

/-! ### What a sample shows (R28, R31, R33) -/

/-- A cause of an In-Band Interrupt sets its flag; of what a sample shows it changes nothing else. -/
theorem ibiCause_frame (s : State) (f : Field) : (∀ g : Field, g.key ≠ f.key → (s.ibiCause f).get g = s.get g)
    ∧ (s.ibiCause f).power = s.power ∧ (s.ibiCause f).time = s.time ∧ (s.ibiCause f).mem = s.mem ∧ (s.ibiCause f).synd = s.synd := by
  obtain ⟨m, i, h⟩ := (s.flag f 1).ibiTry_eq
  rw [State.ibiCause, h]
  exact ⟨fun g hg => State.get_flag_other s f g 1 hg, rfl, rfl, rfl, rfl⟩

/-- The sensors' values are shown; the conditions of R33 stand in the controller. -/
theorem sense_frame (s : State) (top shell inlet outlet : Nat) :
    (∀ f : Field, f.key ≠ PWR.THERM_CFG.DIE_MAX_C.key → f.key ≠ PWR.THERM_CFG.INLET_C.key → f.key ≠ MGT.IBI_CAUSE.THERMAL.key →
      (s.sense top shell inlet outlet).get f = s.get f)
    ∧ (s.sense top shell inlet outlet).get PWR.THERM_CFG.DIE_MAX_C = max top shell % 2 ^ 8
    ∧ (s.sense top shell inlet outlet).get PWR.THERM_CFG.INLET_C = inlet % 2 ^ 8
    ∧ (∃ th al il, (s.sense top shell inlet outlet).power
        = { s.power with thermal := th, dieAlert := al, inlet := il, outletC := outlet, shellC := shell })
    ∧ (s.sense top shell inlet outlet).time = s.time
    ∧ (s.sense top shell inlet outlet).mem = s.mem ∧ (s.sense top shell inlet outlet).synd = s.synd := by
  unfold State.sense
  extract_lets m thr alert die inl t
  have hother (f : Field) (hd : f.key ≠ PWR.THERM_CFG.DIE_MAX_C.key) (hi : f.key ≠ PWR.THERM_CFG.INLET_C.key) : t.get f = s.get f :=
    (State.get_put_other _ _ f _ hi).trans (State.get_put_other _ _ f _ hd)
  have hdie : t.get PWR.THERM_CFG.DIE_MAX_C = max top shell % 2 ^ 8 :=
    (State.get_put_other _ PWR.THERM_CFG.INLET_C PWR.THERM_CFG.DIE_MAX_C _ (by decide)).trans (State.get_put_same s _ _)
  have hinlet : t.get PWR.THERM_CFG.INLET_C = inlet % 2 ^ 8 := State.get_put_same _ PWR.THERM_CFG.INLET_C _
  split
  · obtain ⟨hget, hpower, htime, hmem, hsynd⟩ := ibiCause_frame t MGT.IBI_CAUSE.THERMAL
    rw [hpower, htime, hmem, hsynd, hget _ (by decide), hget _ (by decide)]
    exact ⟨fun f hd hi hc => (hget f hc).trans (hother f hd hi), hdie, hinlet, ⟨_, _, _, rfl⟩, rfl, rfl, rfl⟩
  · exact ⟨fun f hd hi _ => hother f hd hi, hdie, hinlet, ⟨_, _, _, rfl⟩, rfl, rfl, rfl⟩

/-- A measurement that leaves the list l of samples. -/
def State.measured (s : State) (w : Nat) (pw : Vector Nat 4) (l : List Nat) : State :=
  (((forParts allParts (fun n t => t.put (PWR.P_STATE_n.WATTS n) pw[n]) s).put PWR.INPUT.WATTS w).put PWR.INPUT.MEAN_WATTS
    (l.sum / l.length)).modPower (fun p => { p with samples := l })

theorem measure_eq (s : State) (w : Nat) (pw : Vector Nat 4) : s.measure w pw = s.measured w pw ((w :: s.power.samples).take 10000) := rfl

/-- The powers of a sample are shown, and the last of them are kept. -/
theorem measured_frame (s : State) (w : Nat) (pw : Vector Nat 4) (l : List Nat) :
    (s.measured w pw l).get PWR.INPUT.WATTS = w % 2 ^ 16
    ∧ (s.measured w pw l).get PWR.INPUT.MEAN_WATTS = (l.sum / l.length) % 2 ^ 16
    ∧ (∀ n : PartIx, (s.measured w pw l).get (PWR.P_STATE_n.WATTS n) = pw[n] % 2 ^ 16)
    ∧ (s.measured w pw l).power = { s.power with samples := l }
    ∧ (s.measured w pw l).time = s.time ∧ (s.measured w pw l).mem = s.mem ∧ (s.measured w pw l).synd = s.synd := by
  have hframe : (s.measured w pw l).power = { s.power with samples := l } ∧ (s.measured w pw l).time = s.time
      ∧ (s.measured w pw l).mem = s.mem ∧ (s.measured w pw l).synd = s.synd := by
    obtain ⟨r, hr⟩ := forParts_put_eq allParts (fun n => PWR.P_STATE_n.WATTS n) (fun n => pw[n]) s
    rw [State.measured, hr]
    exact ⟨rfl, rfl, rfl, rfl⟩
  refine ⟨?_, ?_, fun n => ?_, hframe⟩
  · exact (State.get_put_other _ PWR.INPUT.MEAN_WATTS PWR.INPUT.WATTS _ (by decide)).trans (State.get_put_same _ _ _)
  · exact State.get_put_same _ PWR.INPUT.MEAN_WATTS _
  · have hmean : (PWR.P_STATE_n.WATTS n).key ≠ PWR.INPUT.MEAN_WATTS.key := by
      simp only [Field.key]
      omega
    have hwatts : (PWR.P_STATE_n.WATTS n).key ≠ PWR.INPUT.WATTS.key := by
      simp only [Field.key]
      omega
    have hkeys (n m : PartIx) (h : m ≠ n) : (PWR.P_STATE_n.WATTS m).key ≠ (PWR.P_STATE_n.WATTS n).key := by
      have hval : m.val ≠ n.val := fun e => h (Fin.ext e)
      simp only [Field.key]
      omega
    have hparts := get_forParts (f := fun n t => t.put (PWR.P_STATE_n.WATTS n) pw[n]) (fld := fun n => PWR.P_STATE_n.WATTS n)
      (v := fun n _ => pw[n] % 2 ^ 16) (fun n t => State.get_put_same t _ _)
      (fun n m t h => State.get_put_other t _ _ _ (hkeys n m h)) (l := allParts) (by decide) s n
    rw [if_pos (mem_allParts n)] at hparts
    exact (State.get_put_other _ _ _ _ hmean).trans ((State.get_put_other _ _ _ _ hwatts).trans hparts)

/-- The gates that act stay until the end of the aclk (R29). -/
theorem slotIsOpen_congr {s t : State} (hgates : t.power.gates = s.power.gates) (htime : t.time = s.time) (n : PartIx) :
    t.slotIsOpen n = s.slotIsOpen n := by
  rw [State.slotIsOpen, State.slotIsOpen, State.gate, State.gate, hgates, htime]

/-- The state of a sample before its step. -/
def State.sampled (s : State) (w : Nat) (pw : Vector Nat 4) (die shell inlet outlet : BitVec 8) : State :=
  ((s.modPower (fun p => { p with sampleAt := s.time + 8000 })).measure w pw).sense die.toNat shell.toNat inlet.toNat outlet.toNat

section
variable {s : State} {w : Nat} {pw : Vector Nat 4} {die shell inlet outlet : BitVec 8}

theorem exec_powerSample_hot (hlive : s.live = true) (hdue : s.power.sampleAt ≤ s.time) (hot : 110 ≤ max die.toNat shell.toNat) :
    exec (.powerSample w pw die shell inlet outlet) s = .next s.trip := by
  show act s (s.live && decide (s.power.sampleAt ≤ s.time)) _ = _
  rw [hlive, decide_eq_true hdue, Bool.and_self, act_true, if_pos hot]

theorem exec_powerSample_cool (hlive : s.live = true) (hdue : s.power.sampleAt ≤ s.time) (cool : max die.toNat shell.toNat < 110) :
    exec (.powerSample w pw die shell inlet outlet) s = .next ((s.sampled w pw die shell inlet outlet).powerStep w
      (s.sampled w pw die shell inlet outlet).power.thermal) := by
  show act s (s.live && decide (s.power.sampleAt ≤ s.time)) _ = _
  rw [hlive, decide_eq_true hdue, Bool.and_self, act_true, if_neg (Nat.not_le.mpr cool)]
  rfl

/-- A field that no sensor shows and no step changes reads, once the sample is taken, what its powers gave. -/
theorem sampled_step_get {f : Field} (hd : f.key ≠ PWR.THERM_CFG.DIE_MAX_C.key) (hi : f.key ≠ PWR.THERM_CFG.INLET_C.key)
    (hc : f.key ≠ MGT.IBI_CAUSE.THERMAL.key) (hk : ¬ StepKey f.key) (th : Bool) :
    ((s.sampled w pw die shell inlet outlet).powerStep w th).get f
      = ((s.modPower (fun p => { p with sampleAt := s.time + 8000 })).measure w pw).get f := by
  rw [(powerStep_stepped _ w th).1.regs f hk]
  exact (sense_frame _ _ _ _ _).1 f hd hi hc

end

section
variable (s : State) (w : Nat) (pw : Vector Nat 4) (die shell inlet outlet : BitVec 8) (th : Bool)

/-- What the controller holds once the sample is taken. -/
theorem sampled_step_power : ∃ o q a b c, ((s.sampled w pw die shell inlet outlet).powerStep w th).power
    = { s.power with
        sampleAt := s.time + 8000, samples := (w :: s.power.samples).take 10000, outletC := outlet.toNat, shellC := shell.toNat,
        thermal := a, dieAlert := b, inlet := c, overTime := o, quietTime := q, prevP := w } := by
  obtain ⟨hstep, hprev⟩ := powerStep_stepped (s.sampled w pw die shell inlet outlet) w th
  obtain ⟨o, q, p, hpower⟩ := hstep.power
  obtain rfl : p = w := by rw [← hprev, hpower]
  obtain ⟨-, -, -, ⟨a, b, c, hsense⟩, -⟩ := sense_frame ((s.modPower (fun x => { x with sampleAt := s.time + 8000 })).measure p pw)
    die.toNat shell.toNat inlet.toNat outlet.toNat
  obtain ⟨-, -, -, hmeasure, -⟩ := measured_frame (s.modPower (fun x => { x with sampleAt := s.time + 8000 })) p pw
    ((p :: (s.modPower (fun x => { x with sampleAt := s.time + 8000 })).power.samples).take 10000)
  refine ⟨o, q, a, b, c, hpower.trans ?_⟩
  rw [State.sampled, hsense, measure_eq, hmeasure]
  rfl

theorem sampled_step_rest :
    (∀ n : PartIx, ((s.sampled w pw die shell inlet outlet).powerStep w th).slotIsOpen n = s.slotIsOpen n)
    ∧ ((s.sampled w pw die shell inlet outlet).powerStep w th).mem = s.mem
    ∧ ((s.sampled w pw die shell inlet outlet).powerStep w th).synd = s.synd := by
  obtain ⟨-, -, htime, ⟨hmem, hsynd⟩, -⟩ := (powerStep_stepped (s.sampled w pw die shell inlet outlet) w th).1
  obtain ⟨-, -, -, -, htime', hmem', hsynd'⟩ := sense_frame ((s.modPower (fun x => { x with sampleAt := s.time + 8000 })).measure w pw)
    die.toNat shell.toNat inlet.toNat outlet.toNat
  obtain ⟨-, -, -, -, htime'', hmem'', hsynd''⟩ := measured_frame (s.modPower (fun x => { x with sampleAt := s.time + 8000 })) w pw
    ((w :: (s.modPower (fun x => { x with sampleAt := s.time + 8000 })).power.samples).take 10000)
  obtain ⟨_, _, _, _, _, hpower⟩ := sampled_step_power s w pw die shell inlet outlet th
  have hgates : ((s.sampled w pw die shell inlet outlet).powerStep w th).power.gates = s.power.gates := by rw [hpower]
  exact ⟨slotIsOpen_congr hgates (htime.trans (htime'.trans htime'')), hmem.trans (hmem'.trans hmem''), hsynd.trans (hsynd'.trans hsynd'')⟩

/-- The sensors' values stay through the step. -/
theorem sampled_step_sensors :
    ((s.sampled w pw die shell inlet outlet).powerStep w th).get PWR.THERM_CFG.DIE_MAX_C = max die.toNat shell.toNat
    ∧ ((s.sampled w pw die shell inlet outlet).powerStep w th).get PWR.THERM_CFG.INLET_C = inlet.toNat := by
  obtain ⟨-, hdie, hinlet, -⟩ := sense_frame ((s.modPower (fun x => { x with sampleAt := s.time + 8000 })).measure w pw)
    die.toNat shell.toNat inlet.toNat outlet.toNat
  have hregs := (powerStep_stepped (s.sampled w pw die shell inlet outlet) w th).1.regs
  rw [hregs _ (not_stepKey (by decide) (by decide)), hregs _ (not_stepKey (by decide) (by decide))]
  exact ⟨hdie.trans (Nat.mod_eq_of_lt (by omega)), hinlet.trans (Nat.mod_eq_of_lt inlet.isLt)⟩

/-- The powers stay through the step. -/
theorem sampled_step_powers :
    ((s.sampled w pw die shell inlet outlet).powerStep w th).get PWR.INPUT.WATTS = w % 2 ^ 16
    ∧ ((s.sampled w pw die shell inlet outlet).powerStep w th).get PWR.INPUT.MEAN_WATTS
        = (((w :: s.power.samples).take 10000).sum / ((w :: s.power.samples).take 10000).length) % 2 ^ 16
    ∧ ∀ n : PartIx, ((s.sampled w pw die shell inlet outlet).powerStep w th).get (PWR.P_STATE_n.WATTS n) = pw[n] % 2 ^ 16 := by
  obtain ⟨hinput, hmean, hparts, -⟩ := measured_frame (s.modPower (fun x => { x with sampleAt := s.time + 8000 })) w pw
    ((w :: (s.modPower (fun x => { x with sampleAt := s.time + 8000 })).power.samples).take 10000)
  have hwatts (n : PartIx) : ¬ StepKey (PWR.P_STATE_n.WATTS n).key := not_stepKey (by simp only [Field.key]; omega) (by simp only [Field.key]; omega)
  have hother (n : PartIx) : (PWR.P_STATE_n.WATTS n).key ≠ PWR.THERM_CFG.DIE_MAX_C.key
      ∧ (PWR.P_STATE_n.WATTS n).key ≠ PWR.THERM_CFG.INLET_C.key ∧ (PWR.P_STATE_n.WATTS n).key ≠ MGT.IBI_CAUSE.THERMAL.key := by
    simp only [Field.key, ne_eq]
    omega
  refine ⟨?_, ?_, fun n => ?_⟩
  · rw [sampled_step_get (by decide) (by decide) (by decide) (not_stepKey (by decide) (by decide))]
    exact hinput
  · rw [sampled_step_get (by decide) (by decide) (by decide) (not_stepKey (by decide) (by decide))]
    exact hmean
  · rw [sampled_step_get (hother n).1 (hother n).2.1 (hother n).2.2 (hwatts n)]
    exact hparts n

end

end Sys2Proof.Machine

namespace Sys2Proof.Proofs

open Sys2Proof.Machine

/-- Settles O21: the sample, the test and the step of the controller, and the target sets. -/
theorem powerSample : Obligations.PowerSample := by
  refine ⟨fun s w pw die shell inlet outlet hlive hdue => ⟨fun hot => ?_, fun cool => ?_, fun cool u hu => ?_⟩,
    fun s w => ⟨fun h h' => powerTest_peak ⟨h, h'⟩, fun h hpeak hover => ?_, fun h hpeak hover => ?_, fun h hmean => ?_, fun h hmean => ?_,
      fun th => (powerStep_stepped s w th).2, ?_, powerStep_thermal s w, fun th n hg => ⟨fun h => ?_, fun h hq => ?_, fun h hq => ?_⟩⟩,
    fun s th hot high prot hhot hhigh hprot => ?_⟩
  · exact ⟨_, exec_powerSample_hot hlive hdue hot, rfl, rfl, rfl, rfl, rfl⟩
  · obtain ⟨hinput, hmean, hparts⟩ := sampled_step_powers s w pw die shell inlet outlet _
    obtain ⟨hdie, hinlet⟩ := sampled_step_sensors s w pw die shell inlet outlet _
    obtain ⟨hopen, hmem, hsynd⟩ := sampled_step_rest s w pw die shell inlet outlet _
    obtain ⟨o, q, a, b, c, hpower⟩ := sampled_step_power s w pw die shell inlet outlet _
    refine ⟨_, exec_powerSample_cool hlive hdue cool, hinput, ?_⟩
    rw [hmean, hdie, hinlet, hpower, hmem, hsynd]
    exact ⟨rfl, rfl, hparts, rfl, rfl, rfl, rfl, rfl, rfl, hopen, rfl, rfl⟩
  · rw [hu]
    exact exec_powerSample_cool hlive hdue cool
  · rw [powerTest_above (by omega) h, if_pos hover]
    rfl
  · rw [powerTest_above (by omega) h, if_neg (Nat.not_le.mpr hover)]
    rfl
  · rw [powerTest_within h]
    exact if_pos hmean
  · rw [powerTest_within h]
    exact if_neg (Nat.not_lt.mpr hmean)
  · rw [powerStep_reduce (.inr rfl)]
    rfl
  · refine ⟨?_, powerStep_gate_reduce h n hg⟩
    rw [powerStep_reduce h]
    rfl
  · have hgate := (powerTest_stepped s w).gate n
    rw [powerStep_quiet h hq]
    refine ⟨fun hten => ?_, fun hten => ?_⟩
    · have hraised := powerStep_gate_raise h hq hten n hg
      rw [powerStep_quiet h hq, if_pos hten] at hraised
      rw [if_pos hten]
      exact ⟨rfl, hraised⟩
    · rw [if_neg (Nat.not_le.mpr hten)]
      exact ⟨rfl, hgate⟩
  · rw [powerStep_busy h hq]
    exact ⟨rfl, (powerTest_stepped s w).gate n⟩
  · have mem (n : PartIx) := mem_group hhot hhigh hprot n
    have group1_empty (hall : ∀ n, s.active n = true → hot n → prot n) (n : PartIx) : n ∉ s.group th (fun p h _ => !p && h) := fun hn => by
      obtain ⟨hact, hnp, hh⟩ := (mem n).1.mp hn
      exact hnp (hall n hact hh)
    have group2_empty (hall : ∀ n, s.active n = true → high n → prot n) (n : PartIx) : n ∉ s.group th (fun p _ g => !p && g) := fun hn => by
      obtain ⟨hact, hnp, hg⟩ := (mem n).2.1.mp hn
      exact hnp (hall n hact hg)
    rw [targets_eq]
    refine ⟨fun ⟨m, hm⟩ n => ?_, fun hall ⟨m, hm⟩ n => ?_, fun hall ⟨m, hact, hm⟩ n => ?_, fun hcold hall n => ?_⟩
    · rw [firstFull_of_mem ((mem m).1.mpr hm)]
      exact (mem n).1
    · rw [firstFull_of_forall (group1_empty hall), firstFull_of_mem ((mem m).2.1.mpr hm)]
      exact (mem n).2.1
    · rw [firstFull_of_forall (group1_empty fun n ha hh => hall n ha (.inl hh)),
        firstFull_of_forall (group2_empty fun n ha hg => hall n ha (.inr hg)),
        firstFull_of_mem ((mem m).2.2.1.mpr ⟨hact, hall m hact (.inl hm), hm⟩), (mem n).2.2.1]
      exact ⟨fun ⟨ha, _, hh⟩ => ⟨ha, hh⟩, fun ⟨ha, hh⟩ => ⟨ha, hall n ha (.inl hh), hh⟩⟩
    · have group3_empty (n : PartIx) : n ∉ s.group th (fun p h _ => p && h) := fun hn => by
        obtain ⟨ha, -, hh⟩ := (mem n).2.2.1.mp hn
        exact hcold n ha hh
      rw [firstFull_of_forall (group1_empty fun n ha hh => absurd hh (hcold n ha)), firstFull_of_forall (group2_empty hall),
        firstFull_of_forall group3_empty, firstFull_single, (mem n).2.2.2]
      exact ⟨fun ⟨ha, _, hg⟩ => ⟨ha, hg⟩, fun ⟨ha, hg⟩ => ⟨ha, hall n ha hg, hg⟩⟩

end Sys2Proof.Proofs

end

section
/-! PROOF. The stages of boot (R348 to R350), the start (R352, R354) and attestation (R356, R357). -/

namespace Sys2Proof.Machine

/-! ### Stages 0 and 1: the boot ROM (R348) -/

section
variable {s : State}

theorem exec_bootRomStart_due (a b : Bool) (hlive : s.live = true) (hstage : s.get BOOT.STATUS.STAGE = 0) (hrun : s.boot.stopped = false)
    (hdue : s.power.bootAt ≤ s.time) : exec (.bootRomStart a b) s = .next (s.bootRom a b) := by
  show execBootRomStart a b s = _
  simp [execBootRomStart, hlive, hstage, hrun, hdue, act_true]

theorem exec_bootRomStart_early (a b : Bool) (h : s.time < s.power.bootAt) : exec (.bootRomStart a b) s = .next s := by
  show execBootRomStart a b s = _
  rw [execBootRomStart, decide_eq_false (Nat.not_le.mpr h), Bool.and_false, act_false]

theorem exec_bootRomStart_stopped (a b : Bool) (h : s.boot.stopped = true) : exec (.bootRomStart a b) s = .next s := by
  show execBootRomStart a b s = _
  rw [execBootRomStart, h, Bool.not_true, Bool.and_false, Bool.false_and, act_false]

/-! ### Stage 2: the vellum test (R204, R348) -/

/-- A byte outside a range that is zeroed reads as before. -/
theorem State.rd8_scrubZero_other (s : State) (lo hi a : Nat) (h : a < lo ∨ hi ≤ a) : (s.scrubZero lo hi).rd8 a = s.rd8 a := by
  show Sparse.get (s.mem.eraseRange lo hi) a 0 = Sparse.get s.mem a 0
  rw [Sparse.get, Sparse.get, Sparse.find?_eraseRange, if_neg (by omega)]

/-- A word of a range that is zeroed is not poisoned. -/
theorem State.poisoned_scrubZero (s : State) (lo hi a : Nat) (h : lo / 4 ≤ a / 4 ∧ a / 4 < hi / 4) : (s.scrubZero lo hi).poisoned a = false := by
  show (Sparse.get (s.synd.eraseRange (lo / 4) (hi / 4)) (a / 4) 0 == 0x7F) = false
  rw [Sparse.get, Sparse.find?_eraseRange, if_pos h]
  rfl

theorem exec_vellumTest_stage2 (failing : List (Fin 2048 × BitVec 16)) (hlive : s.live = true) (hstage : s.get BOOT.STATUS.STAGE = 2) :
    exec (.vellumTest failing) s = .next (s.testVellum failing) := by
  show execVellumTest failing s = _
  rw [execVellumTest, hlive, hstage]
  exact act_true s _

/-- After the test, whatever failed, the boot is in stage 3 and vellum is zero. -/
theorem testVellum_zero (s : State) (failing : List (Fin 2048 × BitVec 16)) : (s.testVellum failing).get BOOT.STATUS.STAGE = 3
    ∧ ∀ a : Nat, a < 0x400000000 → (s.testVellum failing).rd8 a = 0 ∧ (s.testVellum failing).poisoned a = false := by
  refine ⟨State.get_put_same _ BOOT.STATUS.STAGE 3, fun a ha => ⟨?_, ?_⟩⟩
  · exact State.rd8_scrubZero _ _ _ _ ⟨Nat.zero_le a, ha⟩
  · exact State.poisoned_scrubZero _ _ _ _ (by omega)

/-- The test of a vellum without a failing line. -/
theorem testVellum_nil (s : State) : s.testVellum []
    = State.put { s.scrubZero 0 0x400000000 with boot := { s.boot with stepAt := s.time } } BOOT.STATUS.STAGE 3 := rfl

/-- The number of a line: its bank and its row. -/
def vellumLine (b : Fin 2048) (w : BitVec 16) : Nat := 65536 * b.val + w.toNat

theorem vellumLine_bank (b : Fin 2048) (w : BitVec 16) : vellumLine b w / 65536 = b.val := by
  unfold vellumLine
  omega

theorem vellumLine_row (b : Fin 2048) (w : BitVec 16) : vellumLine b w % 65536 = w.toNat := by
  unfold vellumLine
  omega

theorem testVellum_single (s : State) (b : Fin 2048) (w : BitVec 16) : s.testVellum [(b, w)]
    = State.put { (s.failingLine (vellumLine b w)).scrubZero 0 0x400000000 with
        boot := { (s.failingLine (vellumLine b w)).boot with stepAt := s.time } } BOOT.STATUS.STAGE 3 := rfl

section
variable {b : Fin 2048} {w : BitVec 16} (hnew : (s.remapped b.val).contains (vellumLine b w) = false)
include hnew

theorem failingLine_spare (hfree : (s.remapped b.val).length + Sparse.get s.boot.spares b.val 0 < 64) : s.failingLine (vellumLine b w)
    = State.raise { s with boot := { s.boot with spares := Sparse.insert s.boot.spares b.val (Sparse.get s.boot.spares b.val 0 + 1) } }
        { code := 0x64, domain := 0, addr := bankLine b.val w.toNat } := by
  simp only [State.failingLine, vellumLine_bank, vellumLine_row, hnew, hfree, Bool.false_eq_true, if_false, if_true]

theorem failingLine_out (hfull : 64 ≤ (s.remapped b.val).length + Sparse.get s.boot.spares b.val 0) :
    s.failingLine (vellumLine b w) = s.coreVellumOut (b.val / 128) := by
  simp only [State.failingLine, vellumLine_bank, hnew, Nat.not_lt.mpr hfull, Bool.false_eq_true, if_false]

end

/-! ### Stages 3 and 4: memory and the shell (R348 to R350) -/

theorem exec_memoryPreparation_stage3 (f : List (PartIx × Bool × Fin 32)) (hlive : s.live = true) (hstage : s.get BOOT.STATUS.STAGE = 3) :
    exec (.memoryPreparation f) s = .next ((forParts allParts (fun n t => t.prepareMemory f n)
      { s with boot := { s.boot with stepAt := s.time } }).put BOOT.STATUS.STAGE 4) := by
  show execMemoryPreparation f s = _
  rw [execMemoryPreparation, hlive, hstage]
  exact act_true s _

theorem exec_shellInit_stage4 (i : BitVec 6) (hlive : s.live = true) (hstage : s.get BOOT.STATUS.STAGE = 4) (hshell : s.boot.shellOk = false)
    (hrun : s.boot.stopped = false) : exec (.shellInit i) s = .next (s.shellStage i.toNat) := by
  show execShellInit i s = _
  rw [execShellInit, hlive, hstage, hshell, hrun]
  exact act_true s _

theorem shellStage_identity (slot : Nat) (h : s.identityBad ≠ 0) :
    s.shellStage slot = (s.raise { code := 0x51, domain := 0, d0 := s.identityBad }).bootStop 15 := by
  simp only [State.shellStage, h, ne_eq, not_false_eq_true, if_true]

theorem shellStage_config {o : Nat} (slot : Nat) (h : s.identityBad = 0) (ho : configBad s.boot.config = some o) :
    s.shellStage slot = (s.raise { code := 0x65, domain := 0, d0 := o }).bootStop 4 := by
  simp only [State.shellStage, h, ho, ne_eq, not_true_eq_false, if_false]

theorem shellStage_good (slot : Nat) (h : s.identityBad = 0) (ho : configBad s.boot.config = none) : s.shellStage slot = s.initShell slot := by
  simp only [State.shellStage, h, ho, ne_eq, not_true_eq_false, if_false]

/-! ### Attestation (R356, R357) -/

theorem exec_attestationRequest_live (hlive : s.live = true) : exec .attestationRequest s = .next s.attRequest := by
  show execAttestationRequest s = _
  rw [execAttestationRequest, hlive, act_true]

theorem attRequest_refused (h : s.on BOOT.ATT_CTRL.BUSY = true ∨ s.on BOOT.STATUS.STARTED = false) :
    s.attRequest = s.flag BOOT.ATT_CTRL.ERR 1 := if_pos (by simpa using h)

theorem attRequest_taken (hbusy : s.on BOOT.ATT_CTRL.BUSY = false) (hstart : s.on BOOT.STATUS.STARTED = true) :
    s.attRequest = State.put { s with boot := { s.boot with
      nonce := (List.range 8).flatMap (fun i => toLE 4 (s.get (BOOT.ATT_NONCE_i.BYTES i))) } } BOOT.ATT_CTRL.BUSY 1 :=
  if_neg (by simp [hbusy, hstart])

theorem exec_reportReady_busy (b : Bool) (hlive : s.live = true) (hbusy : s.on BOOT.ATT_CTRL.BUSY = true) :
    exec (.reportReady b) s = .next (s.attFinish b) := by
  show execReportReady b s = _
  rw [execReportReady, hlive, hbusy, Bool.and_self, act_true]

theorem exec_reportReady_idle (b : Bool) (hidle : s.on BOOT.ATT_CTRL.BUSY = false) : exec (.reportReady b) s = .next s := by
  show execReportReady b s = _
  rw [execReportReady, hidle, Bool.and_false, act_false]

theorem attFinish_key (b : Bool) (hkey : s.boot.key.isSome = true) (hleaf : s.boot.h10Leaf < 1024) : s.attFinish b = s.produce := by
  simp only [State.attFinish, hkey, hleaf, decide_true, Bool.and_self, if_true]

/-- No fuse block is left. -/
theorem attFinish_exhausted (b : Bool) (hkey : s.boot.key = none) (hblock : s.boot.block = none)
    (hall : ∀ j : Nat, j < 2048 → bit s.fuses (4096 + j) = true) : s.attFinish b = (s.raise { code := 0x6B, domain := 0 }).attEnd 3 := by
  have hnone : (List.range 2048).find? (fun j => !(bit s.fuses (4096 + j))) = none :=
    List.find?_eq_none.mpr fun j hj => by simp [hall j (List.mem_range.mp hj)]
  simp only [State.attFinish, hkey, hblock, hnone, Option.isSome_none, Bool.false_and, Bool.false_eq_true, if_false]

/-- The fuse of the next block does not burn. -/
theorem attFinish_unburned {j : Nat} (hkey : s.boot.key = none) (hblock : s.boot.block = none)
    (hj : (List.range 2048).find? (fun j => !(bit s.fuses (4096 + j))) = some j) : s.attFinish false
      = ((s.raise { code := 0x6A, domain := 0, d0 := 4096 + j }).putFree BOOT.ATT_CTRL.RESULT).put BOOT.ATT_CTRL.BUSY 0 := by
  simp only [State.attFinish, hkey, hblock, hj, Option.isSome_none, Bool.false_and, Bool.false_eq_true, if_false]

theorem exec_start_ready (bad : List (BitVec 13)) (hlive : s.live = true) (hstage : s.get BOOT.STATUS.STAGE = 4) (hshell : s.boot.shellOk = true)
    (hstart : s.on BOOT.STATUS.STARTED = false) : exec (.start bad) s = .next (s.started (bad.map BitVec.toNat)) := by
  show execStart bad s = _
  rw [execStart, hlive, hstage, hshell, hstart]
  exact act_true s _

theorem exec_start_again (bad : List (BitVec 13)) (hstart : s.on BOOT.STATUS.STARTED = true) : exec (.start bad) s = .next s := by
  show execStart bad s = _
  rw [execStart, hstart, Bool.not_true, Bool.and_false, act_false]

/-! ### The start leaves STARTED set (R352) -/

/-- STARTED reads 1. -/
def State.begun (s : State) : Prop := s.on BOOT.STATUS.STARTED = true

theorem begun_put_started (s : State) : (s.put BOOT.STATUS.STARTED 1).begun :=
  congrArg (· == 1) (State.get_put_same s BOOT.STATUS.STARTED 1)

/-- Another field is put. -/
theorem begun_put {f : Field} (h : s.begun) (hf : BOOT.STATUS.STARTED.key ≠ f.key) (v : Nat) : (s.put f v).begun :=
  (congrArg (· == 1) (State.get_put_other s f BOOT.STATUS.STARTED v hf)).trans h

/-- A field of another register is put. -/
theorem begun_putAt {a hi lo r : Nat} (h : s.begun) (hf : lo < 64 ∧ a ≠ 0x110000) (v : Nat) : (s.put ⟨a, hi, lo, r⟩ v).begun :=
  begun_put h (by simp only [Field.key]; omega) v

theorem begun_raise (h : s.begun) (r : ErrRecord) : (s.raise r).begun := (congrArg (· == 1) (s.raise_get r _)).trans h

theorem begun_ite {t : State} {p : Prop} [Decidable p] (h : s.begun) (k : t.begun) : State.begun (if p then s else t) := by
  split
  · exact h
  · exact k

theorem begun_foldl {α : Type} {f : State → α → State} {l : List α} (h : s.begun) (hf : ∀ t x, x ∈ l → State.begun t → (f t x).begun) :
    (l.foldl f s).begun := List.foldlRecOn (motive := State.begun) l f h fun t ht x hx => hf t x hx ht

theorem begun_forParts {f : PartIx → State → State} {l : List PartIx} (h : s.begun) (hf : ∀ n t, State.begun t → (f n t).begun) :
    (forParts l f s).begun := begun_foldl h fun t n _ ht => hf n t ht

/-! #### LK registers written in the aclk of the start (R352) -/

/-- The LK fields stand in CHT.SELF and GRT.TOPO, registers without instances. -/
theorem lk_rows : ∀ r ∈ regTable, ∀ f ∈ r.fields, f.type = .lk → f.lo < 64 ∧ r.dims = [] ∧ r.base ≠ 0x110000 := by
  unfold regTable
  simp only [List.forall_mem_append]
  repeat' refine And.intro ?_ ?_
  all_goals decide

/-- A register without instances is hit at its base. -/
theorem hit_base {r : RegRow} {off : Nat} {p : Nat × Nat} (hdims : r.dims = []) (h : r.hit off = some p) : p.1 = r.base := by
  simp only [RegRow.hit, hdims, dimRest] at h
  split at h
  · cases h
  · split at h
    · cases h
      dsimp only
      omega
    · cases h

theorem findReg_lk {off i d : Nat} {r : RegRow} {f : FieldRow} (h : findReg off = some (r, i, d)) (hf : f ∈ r.fields) (hlk : f.type = .lk) :
    f.lo < 64 ∧ i ≠ 0x110000 := by
  obtain ⟨q, hq, hhit⟩ := List.exists_of_findSome?_eq_some h
  obtain ⟨p, hp, he⟩ := Option.map_eq_some_iff.mp hhit
  cases he
  obtain ⟨hlo, hdims, hbase⟩ := lk_rows r hq f hf hlk
  exact ⟨hlo, hit_base hdims hp ▸ hbase⟩

theorem begun_lkIgnored (h : s.begun) (r : RegRow) (inst : Nat) (ag : Agent) : (s.lkIgnored r inst ag).begun := by
  have hcount : (s.bump BOOT.LK_COUNT.COUNT 1).begun := begun_putAt h (by omega) _
  have hflag : ((s.bump BOOT.LK_COUNT.COUNT 1).flag BOOT.STATUS.LK_WRITE 1).begun := begun_put (f := BOOT.STATUS.LK_WRITE) hcount (by decide) _
  exact begun_ite (begun_raise hflag _) h

theorem begun_lkUndo (h : s.begun) : s.lkUndo.begun := by
  unfold State.lkUndo
  extract_lets t
  have ht : t.begun := by
    refine begun_foldl h fun u x _ hu => ?_
    split
    · next r i d hreg =>
      refine begun_foldl hu fun v f hf hv => ?_
      obtain ⟨hmem, hlk⟩ := List.mem_filter.mp hf
      exact begun_putAt hv (findReg_lk hreg hmem (of_decide_eq_true hlk)) _
    · exact hu
  refine begun_foldl ht fun u x _ hu => ?_
  split
  · exact begun_lkIgnored hu _ _ _
  · exact hu

/-! #### Values that come into force at S0 (R7, R352) -/

theorem begun_shPart (h : s.begun) (old : State) (keys : List Nat) (n : PartIx) : (s.shPart old keys n).begun := by
  have free {t : State} (ht : t.begun) (i : Nat) : (t.showFree n i).begun := by
    unfold State.showFree wetFree
    split
    · exact begun_putAt ht (by omega) _
    · split
      · exact begun_putAt ht (by omega) _
      · exact begun_putAt ht (by omega) _
  have pool {t : State} (ht : t.begun) (i : Nat) : (t.takePool n i).begun := free (t := State.modPart t n _) ht i
  have outq {t : State} (ht : t.begun) : (t.takeOutq n).begun := begun_putAt (s := State.modPart t n _) ht (by omega) _
  unfold State.shPart
  extract_lets hit moved s1 s2 s3
  have h1 : s1.begun := begun_foldl h fun t i _ ht => begun_ite (pool ht i) ht
  have h2 : s2.begun := begun_ite (outq h1) h1
  have h3 : s3.begun := begun_ite (begun_putAt (begun_putAt h2 (by omega) _) (by omega) _) h2
  exact begun_ite (s := s3.showPools n) h3 h3

theorem begun_bringForce (h : s.begun) (n : PartIx) (own shell : Bool) : (s.bringForce n own shell).begun := by
  unfold State.bringForce
  extract_lets keys t
  have ht : t.begun := begun_shPart (s := s.applySh n own shell) h _ _ _
  exact begun_ite (begun_putAt (begun_putAt ht (by omega) _) (by omega) _) ht

theorem begun_partStart (h : s.begun) (n : PartIx) : (s.partStart n).begun := begun_putAt (begun_putAt h (by omega) 0) (by omega) never

theorem begun_s0 (s : State) : s.s0.begun := by
  have h1 : State.begun (forParts allParts (fun n t => t.partStart n) (s.put BOOT.STATUS.STARTED 1).lkUndo) :=
    begun_forParts (begun_lkUndo (begun_put_started s)) fun n _ ht => begun_partStart ht n
  rw [State.s0]
  generalize forParts allParts (fun n t => t.partStart n) (s.put BOOT.STATUS.STARTED 1).lkUndo = s1 at h1 ⊢
  have h2 : State.begun (forParts allParts (fun n t => t.bringForce n true true) s1) := begun_forParts h1 fun n _ ht => begun_bringForce ht n true true
  generalize forParts allParts (fun n t => t.bringForce n true true) s1 = s2 at h2 ⊢
  exact begun_put (f := BOOT.ATT_COUNT.BLOCKS_LEFT) (s := { s2 with cap := s2.capList, boot := { s2.boot with lk := s2.lkDigest } }) h2 (by decide) _

/-! #### What follows the start (R352, R354) -/

theorem begun_defaultProfile (h : s.begun) (n : PartIx) : (s.defaultProfile n).begun := by
  have apply {t : State} (ht : t.begun) (i : Nat) : (t.applyProfile n i).begun :=
    begun_ite (begun_putAt ht (by omega) 1) (begun_putAt ht (by omega) _)
  exact begun_ite h (begun_ite (apply (begun_putAt h (by omega) _) _) (begun_raise h _))

theorem begun_burnAll (h : s.begun) (bad l : List Nat) : (burnAll bad l s).begun := by
  induction l generalizing s with
  | nil => exact h
  | cons i r ih => exact begun_ite (ih h) (begun_ite (begun_raise h _) (ih (s := s.burnBit i) h))

theorem begun_provisionAll (h : s.begun) (bad l : List Nat) : (s.provisionAll bad l).begun := by
  have provision {t : State} (ht : t.begun) (k : Nat) : (t.provision bad k).1.begun := by
    unfold State.provision
    extract_lets lo want have_ l
    clear_value l
    split
    · exact begun_burnAll ht bad l
    · exact begun_raise ht _
  induction l generalizing s with
  | nil => exact h
  | cons k r ih => exact begun_ite (provision h k) (ih (provision h k))

theorem begun_revokeAll (h : s.begun) (bad l : List Nat) : (s.revokeAll bad l).begun := by
  induction l generalizing s with
  | nil => exact h
  | cons k r ih => exact begun_ite (ih (begun_raise h _)) (begun_ite (begun_burnAll h _ _) (ih (begun_burnAll h _ _)))

theorem begun_fuseChanges (h : s.begun) (bad : List Nat) : (s.fuseChanges bad).begun := by
  unfold State.fuseChanges
  extract_lets b slots s1 s2
  have h1 : s1.begun := begun_ite (begun_burnAll h _ _) h
  exact begun_putAt (begun_putAt (begun_revokeAll (begun_provisionAll h1 _ _) _ _) (by omega) _) (by omega) _

theorem begun_autoOpen (h : s.begun) : s.autoOpen.begun := begun_ite (begun_putAt h (by omega) 1) h

/-- After the start the boot is in stage 5, with READY and STARTED set. -/
theorem started_shows (s : State) (bad : List Nat) : (s.started bad).get BOOT.STATUS.STAGE = 5 ∧ (s.started bad).get BOOT.STATUS.READY = 1
    ∧ (s.started bad).begun := by
  unfold State.started
  extract_lets s1
  have h1 : s1.begun := begun_forParts (begun_s0 s) fun n _ ht => begun_defaultProfile ht n
  refine ⟨?_, State.get_put_same _ BOOT.STATUS.READY 1, ?_⟩
  · exact (State.get_put_other _ BOOT.STATUS.READY BOOT.STATUS.STAGE 1 (by decide)).trans (State.get_put_same _ BOOT.STATUS.STAGE 5)
  · exact begun_put (begun_put (begun_autoOpen (begun_fuseChanges h1 bad)) (by decide) 5) (by decide) 1

end

end Sys2Proof.Machine

namespace Sys2Proof.Proofs

open Sys2Proof.Machine

/-- Settles O60: stage by stage, the start, and attestation. -/
theorem bootStages : Obligations.BootStages := by
  intro s hlive
  refine ⟨fun a b hstage hrun => ⟨exec_bootRomStart_due a b hlive hstage hrun, exec_bootRomStart_early a b⟩, exec_bootRomStart_stopped,
    fun hstage => ?_, fun bad hstage => ?_, fun b w x hstage hnew hx => ?_, fun f hstage => exec_memoryPreparation_stage3 f hlive hstage,
    fun i hstage hshell hrun => ?_, fun bad hstage hshell hstart => ?_, exec_start_again, fun h => ?_, fun hbusy hstart => ?_,
    fun b hbusy => ?_, exec_reportReady_idle⟩
  · obtain ⟨hstage3, hzero⟩ := testVellum_zero s []
    refine ⟨_, exec_vellumTest_stage2 [] hlive hstage, hstage3, hzero, fun a ha => ?_, fun f hf => ?_⟩
    · exact State.rd8_scrubZero_other s 0 0x400000000 a (.inr ha)
    · exact State.get_put_other _ BOOT.STATUS.STAGE f 3 (fun h => hf (List.mem_singleton.mpr h))
  · exact ⟨_, exec_vellumTest_stage2 bad hlive hstage, testVellum_zero s bad⟩
  · have hline : s.failingLine (vellumLine b w) = x := by
      rcases hx with ⟨hfree, rfl⟩ | ⟨hfull, rfl⟩
      · exact failingLine_spare hnew hfree
      · exact failingLine_out hnew hfull
    rw [exec_vellumTest_stage2 _ hlive hstage, testVellum_single, hline]
  · have hinit := exec_shellInit_stage4 i hlive hstage hshell hrun
    exact ⟨fun h => by rw [hinit, shellStage_identity _ h], fun o h ho => by rw [hinit, shellStage_config _ h ho],
      fun h ho => by rw [hinit, shellStage_good _ h ho]⟩
  · exact ⟨_, exec_start_ready bad hlive hstage hshell hstart, started_shows s _⟩
  · rw [exec_attestationRequest_live hlive, attRequest_refused h]
  · refine ⟨_, exec_attestationRequest_live hlive, ?_⟩
    rw [attRequest_taken hbusy hstart]
    refine ⟨congrArg (· == 1) (State.get_put_same _ BOOT.ATT_CTRL.BUSY 1), rfl, fun f hf => ?_, rfl, rfl⟩
    exact State.get_put_other _ BOOT.ATT_CTRL.BUSY f 1 (fun h => hf (List.mem_singleton.mpr h))
  · refine ⟨fun hkey hleaf => ?_, fun hkey hblock hall => ?_, fun j hkey hblock hj => ?_⟩
    · rw [exec_reportReady_busy b hlive hbusy, attFinish_key b hkey hleaf]
    · rw [exec_reportReady_busy b hlive hbusy, attFinish_exhausted b hkey hblock hall]
    · rw [exec_reportReady_busy false hlive hbusy, attFinish_unburned hkey hblock hj]

end Sys2Proof.Proofs

end

section
/-! PROOF. A step of the queue (R39; log entry 39): the front command, or one aclk. -/

namespace Sys2Proof.Machine

section
variable {s : State}

theorem step_front {c : Instr} {r : List Instr} (h : s.pending = c :: r) : step s = exec c { s with pending := r } := by
  simp only [step, h]

theorem step_empty (h : s.pending = []) : step s = .next s.tick := by simp only [step, h]

/-- Without internal power good an aclk changes nothing (R27). -/
theorem tick_unpowered (h : s.live = false) (hp : s.power.phase ≠ .up 7) : s.tick = s := by
  rw [State.tick, h, if_neg Bool.false_ne_true, if_neg hp]

/-- With internal power good and the logic held, the millisecond of internal reset runs (R22). -/
theorem tick_internal_reset (h : s.live = false) (hp : s.power.phase = .up 7) :
    s.tick = s.modPower (fun p => { p with hold := p.hold - 1 }) := by
  rw [State.tick, h, if_neg Bool.false_ne_true, if_pos hp]

theorem tick_pending (s : State) : s.tick.pending = s.pending := (State.tick_keeps (Keeps.refl s)).queue

end

end Sys2Proof.Machine

namespace Sys2Proof.Proofs

open Sys2Proof.Machine

/-- Settles O1, by the queue, and by what the module's power is on an aclk. -/
theorem stepRunsTheFrontCommand : Obligations.StepRunsTheFrontCommand :=
  fun s _ _ => ⟨step_front, step_front rfl, step_empty, tick_unpowered, tick_internal_reset, tick_pending s⟩

end Sys2Proof.Proofs

end

section
/-! PROOF. Writes of STK.START and STK.CTRL.RUN (R47 to R50), behind a boundary of the same aclk (R49). -/

namespace Sys2Proof.Machine

section
variable {s : State} {n : PartIx}

/-- With no boundary due a write of the partition's registers finds the state as it is (R49). -/
theorem afterBoundary_of_not_due (h : s.boundaryDue n = false) : s.afterBoundary n = s := by
  simp only [State.afterBoundary, execStrokeBoundary, h, Bool.false_eq_true, if_false, Out.after]

/-! ### STK.START (R48) -/

theorem exec_stkStartWrite_settable (v : Word) (hset : s.settable = true) : exec (.stkStartWrite n v) s
    = .next (if (s.afterBoundary n).on (STK.CTRL_n.RUNNING n) then (s.afterBoundary n).flag (STK.CTRL_n.ERR n) 1
        else (s.afterBoundary n).put (STK.START_n.ACLK n) v.toNat) := by
  show execStkStartWrite n v s = _
  simp only [execStkStartWrite, hset, act_true]

/-! ### STK.CTRL.RUN (R47, R50) -/

/-- The timer of an ACTIVE partition starts. -/
theorem startTimer_active (first : Nat) (h : s.active n = true) : s.startTimer n first
    = ((s.put (STK.CTRL_n.RUN n) 1).put (STK.CTRL_n.RUNNING n) 1).put (STK.NEXT_n.ACLK n) first := if_pos h

/-- The start of a partition that is not ACTIVE is refused. -/
theorem startTimer_inactive (first : Nat) (h : s.active n = false) : s.startTimer n first
    = ((s.put (STK.CTRL_n.RUN n) 0).put (STK.CTRL_n.RUNNING n) 0).flag (STK.CTRL_n.ERR n) 1 := if_neg (Bool.not_eq_true _ ▸ h)

/-- RUN is written: all cases, in their order, of what follows a boundary of the aclk. -/
def State.writeRun (s : State) (n : PartIx) (v : Bool) : State :=
  if (s.part n).inReset then s.putB (STK.CTRL_n.RUN n) v
  else if !v then (s.put (STK.CTRL_n.RUN n) 0).modPart n (fun q => { q with restart := false })
  else if !(s.on (STK.CTRL_n.RUNNING n)) then s.startTimer n (max (s.get (STK.START_n.ACLK n)) (s.time + 16))
  else if (s.part n).stopping && (s.part n).window then (s.put (STK.CTRL_n.RUN n) 1).modPart n (fun q => { q with restart := true })
  else s.put (STK.CTRL_n.RUN n) 1

theorem exec_stkCtrlRun_settable (v : Bool) (hset : s.settable = true) :
    exec (.stkCtrlRun n v) s = .next ((s.afterBoundary n).writeRun n v) := by
  show execStkCtrlRun n v s = _
  rw [execStkCtrlRun, hset, act_true]
  rfl

/-- In reset RUN is only stored (R50). -/
theorem writeRun_inReset (v : Bool) (hin : (s.part n).inReset = true) : s.writeRun n v = s.put (STK.CTRL_n.RUN n) (b2n v) := if_pos hin

theorem writeRun_zero (hin : (s.part n).inReset = false) : s.writeRun n false
    = (s.put (STK.CTRL_n.RUN n) 0).modPart n (fun q => { q with restart := false }) := by
  simp only [State.writeRun, hin, Bool.not_false, Bool.false_eq_true, if_false, if_true]

/-- RUN written 1 to a stopped timer starts it. -/
theorem writeRun_one_stopped (hin : (s.part n).inReset = false) (hrun : s.on (STK.CTRL_n.RUNNING n) = false) : s.writeRun n true
    = s.startTimer n (max (s.get (STK.START_n.ACLK n)) (s.time + 16)) := by
  simp only [State.writeRun, hin, hrun, Bool.not_true, Bool.not_false, Bool.false_eq_true, if_false, if_true]

/-- RUN written 1 to a running timer stands; in the window of the boundary at which it stops it asks for a restart too. -/
theorem writeRun_one_running (hin : (s.part n).inReset = false) (hrun : s.on (STK.CTRL_n.RUNNING n) = true) : s.writeRun n true
    = if (s.part n).stopping && (s.part n).window then (s.put (STK.CTRL_n.RUN n) 1).modPart n (fun q => { q with restart := true })
      else s.put (STK.CTRL_n.RUN n) 1 := by
  simp only [State.writeRun, hin, hrun, Bool.not_true, Bool.false_eq_true, if_false]

end

end Sys2Proof.Machine

namespace Sys2Proof.Proofs

open Sys2Proof.Machine

/-- Settles O22: the write as a whole, and its two cases. -/
theorem startWrite : Obligations.StartWrite := by
  rintro s _ n v hset rfl
  refine ⟨afterBoundary_of_not_due, fun hrun => ?_, fun hrun => ?_⟩
  · rw [exec_stkStartWrite_settable v hset, if_pos hrun]
  · rw [exec_stkStartWrite_settable v hset, hrun, if_neg Bool.false_ne_true]

/-- Settles O23, by what RUN is written, and by the timer that it finds. -/
theorem strokeControl : Obligations.StrokeControl := by
  rintro s _ n hset rfl
  simp only [exec_stkCtrlRun_settable _ hset]
  refine ⟨fun hin hrun hact => ?_, fun hin hrun hact => ?_, fun hin hrun hstay => ?_, fun hin hrun hstop hwin => ?_, fun hin => ?_,
    fun hin b => ?_⟩
  · rw [writeRun_one_stopped hin hrun, startTimer_active _ hact]
  · rw [writeRun_one_stopped hin hrun, startTimer_inactive _ hact]
  · rw [writeRun_one_running hin hrun, if_neg (by rcases hstay with h | h <;> simp [h])]
  · rw [writeRun_one_running hin hrun, hstop, hwin, Bool.and_self, if_pos rfl]
  · rw [writeRun_zero hin]
  · rw [writeRun_inReset b hin]

end Sys2Proof.Proofs

end

section
/-! PROOF. Power states of a partition (R51, R55): what a write of PART.POWER_n.TARGET does, and how a transition ends. -/

namespace Sys2Proof.Machine

section
variable {s : State} {n : PartIx}

/-! ### A write of TARGET (R51) -/

theorem exec_targetActive_settable (hset : s.settable = true) : exec (.targetActive n) s = .next ((s.afterBoundary n).writeTarget n 0) := by
  show act s s.settable _ = _
  rw [hset, act_true]

theorem exec_targetClockStop_settable (hset : s.settable = true) :
    exec (.targetClockStop n) s = .next ((s.afterBoundary n).writeTarget n 1) := by
  show act s s.settable _ = _
  rw [hset, act_true]

theorem exec_targetPowerOff_settable (hset : s.settable = true) :
    exec (.targetPowerOff n) s = .next ((s.afterBoundary n).writeTarget n 2) := by
  show act s s.settable _ = _
  rw [hset, act_true]

/-- A value that no row of R51 takes is written: 3, or any one in reset. -/
theorem exec_targetInvalid_settable {v : BitVec 2} (hset : s.settable = true) (hv : v = 3 ∨ (s.part n).inReset = true) :
    exec (.targetInvalid n v) s = .next ((s.afterBoundary n).writeTarget n v.toNat) := by
  have hbad : (v == 3 || (s.part n).inReset) = true := by simpa using hv
  show act s (s.settable && (v == 3 || (s.part n).inReset)) _ = _
  rw [hset, hbad, Bool.and_self, act_true]

theorem writeTarget_inReset (v : Nat) (hin : (s.part n).inReset = true) : s.writeTarget n v = s.flag (PART.POWER_n.ERR n) 1 :=
  if_pos (by simp [hin])

theorem writeTarget_three (s : State) (n : PartIx) : s.writeTarget n 3 = s.flag (PART.POWER_n.ERR n) 1 := if_pos (by simp)

section
variable {v : Nat} (hin : (s.part n).inReset = false) (hv : v ≠ 3)
include hin hv

/-- In TRANSIT the value is recorded. -/
theorem writeTarget_transit (hst : s.get (PART.POWER_n.STATE n) = 3) : s.writeTarget n v
    = (s.put (PART.POWER_n.TARGET n) v).modPart n (fun p => { p with trans := p.trans.map (fun t => { t with rec_ := some v }) }) := by
  simp only [State.writeTarget, hin, hv, hst, Bool.false_or, decide_false, Bool.false_eq_true, if_false, if_true]

/-- The state that the partition is in is only stored. -/
theorem writeTarget_reached (hst : s.get (PART.POWER_n.STATE n) = v) : s.writeTarget n v = s.put (PART.POWER_n.TARGET n) v := by
  simp only [State.writeTarget, hin, hv, hst, Bool.false_or, decide_false, Bool.false_eq_true, if_false, if_true]

/-- With the timer running an ACTIVE partition stays so. -/
theorem writeTarget_running (h0 : v ≠ 0) (hst : s.get (PART.POWER_n.STATE n) = 0) (hrun : s.on (STK.CTRL_n.RUNNING n) = true) :
    s.writeTarget n v = s.flag (PART.POWER_n.ERR n) 1 := by
  simp only [State.writeTarget, hin, hv, hst, h0.symm, hrun, Bool.false_or, decide_false, Bool.false_eq_true, OfNat.zero_ne_ofNat, if_false,
    if_true]

/-- Another state than the one that the partition is in begins a transition, from ACTIVE with the timer stopped. -/
theorem writeTarget_begins (hst : s.get (PART.POWER_n.STATE n) ≠ 3) (hne : s.get (PART.POWER_n.STATE n) ≠ v)
    (hstop : s.get (PART.POWER_n.STATE n) = 0 → s.on (STK.CTRL_n.RUNNING n) = false) :
    ∃ due, s.writeTarget n v = s.beginTrans n v due := by
  simp only [State.writeTarget, hin, hv, hst, hne, Bool.false_or, decide_false, Bool.false_eq_true, if_false]
  by_cases h0 : s.get (PART.POWER_n.STATE n) = 0
  · exact ⟨s.time, by rw [if_pos h0, hstop h0, if_neg Bool.false_ne_true]⟩
  · by_cases h1 : s.get (PART.POWER_n.STATE n) = 1
    · exact ⟨_, by rw [if_neg h0, if_pos h1]⟩
    · exact ⟨s.time, by rw [if_neg h0, if_neg h1]⟩

end

/-! ### What a write shows -/

theorem powerFields_keys (n : PartIx) : (PART.POWER_n.TARGET n).key ≠ (PART.POWER_n.STATE n).key
    ∧ (PART.POWER_n.STATE n).key ≠ (PART.POWER_n.TRANSITIONS n).key ∧ (PART.POWER_n.STATE n).key ≠ (PWR.P_STATE_n.GATE n).key := by
  simp only [Field.key]
  omega

/-- While a transition runs STATE reads TRANSIT and TARGET the state it is to reach. -/
theorem beginTrans_shows (s : State) (n : PartIx) {v : Nat} (due : Nat) (hv : v < 4) :
    (s.beginTrans n v due).get (PART.POWER_n.STATE n) = 3 ∧ (s.beginTrans n v due).get (PART.POWER_n.TARGET n) = v := by
  refine ⟨State.get_put_same _ (PART.POWER_n.STATE n) 3, ?_⟩
  exact (State.get_put_other _ _ (PART.POWER_n.TARGET n) 3 (powerFields_keys n).1).trans
    ((State.get_put_same s (PART.POWER_n.TARGET n) v).trans (Nat.mod_eq_of_lt hv))

theorem writeTarget_begins_shows {v : Nat} (hin : (s.part n).inReset = false) (hv : v < 3) (hst : s.get (PART.POWER_n.STATE n) ≠ 3)
    (hne : s.get (PART.POWER_n.STATE n) ≠ v) (hstop : s.get (PART.POWER_n.STATE n) = 0 → s.on (STK.CTRL_n.RUNNING n) = false) :
    (s.writeTarget n v).get (PART.POWER_n.STATE n) = 3 ∧ (s.writeTarget n v).get (PART.POWER_n.TARGET n) = v := by
  obtain ⟨due, h⟩ := writeTarget_begins hin (Nat.ne_of_lt hv) hst hne hstop
  exact h ▸ beginTrans_shows s n due (Nat.lt_succ_of_lt hv)

theorem writeTarget_transit_shows {v : Nat} {d : PowTrans} (hin : (s.part n).inReset = false) (hv : v < 3)
    (hst : s.get (PART.POWER_n.STATE n) = 3) (hd : (s.part n).trans = some d) : (s.writeTarget n v).get (PART.POWER_n.TARGET n) = v
      ∧ ((s.writeTarget n v).part n).trans = some { d with rec_ := some v } := by
  rw [writeTarget_transit hin (Nat.ne_of_lt hv) hst, State.part_modPart_same, State.part_put, hd]
  exact ⟨(State.get_put_same s (PART.POWER_n.TARGET n) v).trans (Nat.mod_eq_of_lt (Nat.lt_succ_of_lt hv)), rfl⟩

/-! ### The end of a transition (R51, R55) -/

section
variable {d : PowTrans} (hlive : s.live = true) (hd : (s.part n).trans = some d) (hdue : d.due ≤ s.time)
  (hwait : (s.part n).resetWait = false)
include hlive hd hdue hwait

/-- No partition reset waits for the transition: it ends, and the value recorded last is written. -/
theorem exec_powerTransitionEnd_recorded {v : Nat} (hrec : d.rec_ = some v) :
    exec (.powerTransitionEnd n) s = .next ((s.reachPower n d).writeTarget n v) := by
  show execPowerTransitionEnd n s = _
  simp only [execPowerTransitionEnd, hd, hlive, hdue, hwait, hrec, decide_true, Bool.and_self, act_true, Bool.false_eq_true, if_false]

theorem exec_powerTransitionEnd_unrecorded (hrec : d.rec_ = none) : exec (.powerTransitionEnd n) s = .next (s.reachPower n d) := by
  show execPowerTransitionEnd n s = _
  simp only [execPowerTransitionEnd, hd, hlive, hdue, hwait, hrec, decide_true, Bool.and_self, act_true, Bool.false_eq_true, if_false]

end

/-- STATE, TRANSITIONS and the transition itself, as every state reached shows them. -/
def State.reached (s : State) (n : PartIx) (d : PowTrans) : State :=
  ((s.put (PART.POWER_n.STATE n) d.target).bump (PART.POWER_n.TRANSITIONS n) 1).modPart n (fun p => { p with trans := none })

/-- From POWER_OFF the gate becomes 16; with POWER_OFF not the state reached nothing else changes. -/
theorem reachPower_kept {d : PowTrans} (ht : d.target ≠ 2) :
    s.reachPower n d = if d.from_ = 2 then (s.reached n d).put (PWR.P_STATE_n.GATE n) 16 else s.reached n d := if_neg ht

theorem reached_state {d : PowTrans} (ht : d.target < 2) : (s.reached n d).get (PART.POWER_n.STATE n) = d.target :=
  (State.get_put_other _ _ (PART.POWER_n.STATE n) _ (powerFields_keys n).2.1).trans
    ((State.get_put_same s (PART.POWER_n.STATE n) d.target).trans (Nat.mod_eq_of_lt (show d.target < 4 by omega)))

theorem reached_frame (s : State) (n : PartIx) (d : PowTrans) :
    sameFieldsBut [PART.POWER_n.STATE n, PART.POWER_n.TRANSITIONS n] s (s.reached n d) := by
  intro f hf
  simp only [List.map_cons, List.map_nil, List.mem_cons, List.not_mem_nil, or_false, not_or] at hf
  obtain ⟨hstate, hcount⟩ := hf
  exact (State.get_put_other _ (PART.POWER_n.TRANSITIONS n) f _ hcount).trans (State.get_put_other s (PART.POWER_n.STATE n) f _ hstate)

/-- A transition to ACTIVE or CLOCK_STOP changes STATE, TRANSITIONS and the gate. -/
theorem reachPower_shows {d : PowTrans} (ht : d.target < 2) : (s.reachPower n d).get (PART.POWER_n.STATE n) = d.target
    ∧ ((s.reachPower n d).part n).trans = none
    ∧ sameFieldsBut [PART.POWER_n.STATE n, PART.POWER_n.TRANSITIONS n, PWR.P_STATE_n.GATE n] s (s.reachPower n d)
    ∧ (s.reachPower n d).mem = s.mem ∧ (s.reachPower n d).synd = s.synd := by
  have htrans : ((s.reached n d).part n).trans = none := by rw [State.reached, State.part_modPart_same]
  have hframe (f : Field) (hf : f.key ∉ [PART.POWER_n.STATE n, PART.POWER_n.TRANSITIONS n, PWR.P_STATE_n.GATE n].map Field.key) :
      (s.reached n d).get f = s.get f := reached_frame s n d f fun h => hf (List.mem_append_left [_] h)
  rw [reachPower_kept (Nat.ne_of_lt ht)]
  split
  · refine ⟨?_, htrans, fun f hf => ?_, rfl, rfl⟩
    · exact (State.get_put_other _ _ (PART.POWER_n.STATE n) _ (powerFields_keys n).2.2).trans (reached_state ht)
    · exact (State.get_put_other _ (PWR.P_STATE_n.GATE n) f _ fun h => hf (by simp [h])).trans (hframe f hf)
  · exact ⟨reached_state ht, htrans, hframe, rfl, rfl⟩

end

end Sys2Proof.Machine

namespace Sys2Proof.Proofs

open Sys2Proof.Machine

/-- Settles O25, by the state that the partition is in and the value written. -/
theorem partitionPower : Obligations.PartitionPower := by
  rintro s _ n hset rfl
  have hlive : s.live = true := (Bool.and_eq_true_iff.mp hset).1
  simp only [Completes, exec_targetActive_settable hset, exec_targetClockStop_settable hset, exec_targetPowerOff_settable hset,
    exec_targetInvalid_settable hset (.inl rfl)]
  refine ⟨fun hin hst hrun => ?_, fun hin hst hrun => ?_, fun hin => ⟨?_, ?_, ?_⟩, fun hin hst => ?_, fun hin hst => ?_, fun hin hst => ?_,
    fun hin hst d hd => ?_, ?_, fun hin hin0 v => ?_, fun d hd hdue hwait => ⟨fun v => exec_powerTransitionEnd_recorded hlive hd hdue hwait,
      exec_powerTransitionEnd_unrecorded hlive hd hdue hwait, reachPower_shows⟩⟩
  · exact ⟨⟨_, rfl, writeTarget_begins_shows hin (by decide) (by omega) (by omega) fun _ => hrun⟩,
      ⟨_, rfl, writeTarget_begins_shows hin (by decide) (by omega) (by omega) fun _ => hrun⟩⟩
  · rw [writeTarget_running hin (by decide) (by decide) hst hrun, writeTarget_running hin (by decide) (by decide) hst hrun]
    exact ⟨rfl, rfl⟩
  · exact fun hst => congrArg _ (writeTarget_reached hin (by decide) hst)
  · exact fun hst => congrArg _ (writeTarget_reached hin (by decide) hst)
  · exact fun hst => congrArg _ (writeTarget_reached hin (by decide) hst)
  · exact ⟨_, rfl, writeTarget_begins_shows hin (by decide) (by omega) (by omega) (by omega)⟩
  · exact ⟨_, rfl, writeTarget_begins_shows hin (by decide) (by omega) (by omega) (by omega)⟩
  · exact ⟨_, rfl, writeTarget_begins_shows hin (by decide) (by omega) (by omega) (by omega)⟩
  · exact ⟨⟨_, rfl, writeTarget_transit_shows hin (by decide) hst hd⟩, ⟨_, rfl, writeTarget_transit_shows hin (by decide) hst hd⟩,
      ⟨_, rfl, writeTarget_transit_shows hin (by decide) hst hd⟩⟩
  · exact congrArg _ (writeTarget_three _ n)
  · rw [exec_targetInvalid_settable hset (.inr hin0)]
    simp only [writeTarget_inReset _ hin, and_self]

end Sys2Proof.Proofs

end

section
/-! PROOF. Sending to the Chart: the requests that are ready (R223, R228, R242) and the outbound queues (R165, R236, R238, R285). -/

namespace Sys2Proof.Machine

section
variable {s : State} {i : Nat}

/-! ### A request that is ready (R223, R228, R242) -/

theorem exec_chartRequestSend (i : Nat) (s : State) : exec (.chartRequestSend i) s = execChartRequestSend i s := rfl

theorem exec_chartRequestSend_closed (h : s.chartOpen = false) : exec (.chartRequestSend i) s = .next s := by
  rw [exec_chartRequestSend, execChartRequestSend, h, Bool.and_false, if_neg Bool.false_ne_true]

section
variable (hlive : s.live = true) (hopen : s.chartOpen = true)
include hlive hopen

theorem exec_chartRequestSend_none (h : (readyList s)[i]? = none) : exec (.chartRequestSend i) s = .next s := by
  simp only [exec_chartRequestSend, execChartRequestSend, hlive, hopen, Bool.and_self, if_true, h]

/-- A read or a semaphore round trip of a core leaves through its partition's request port: in an open slot (R42). -/
theorem exec_chartRequestSend_piece {c : CoreIx} {p : Piece} (h : (readyList s)[i]? = some (.piece c p)) :
    exec (.chartRequestSend i) s = .next (if s.slotIsOpen (partOf c) then s.sendRead c p else s) := by
  simp only [exec_chartRequestSend, execChartRequestSend, hlive, hopen, Bool.and_self, if_true, h, act]

theorem exec_chartRequestSend_cancel {c k a : Nat} (h : (readyList s)[i]? = some (.cancel c k a)) :
    exec (.chartRequestSend i) s = .next (s.sendCancel c k a) := by
  simp only [exec_chartRequestSend, execChartRequestSend, hlive, hopen, Bool.and_self, if_true, h]

theorem exec_chartRequestSend_block {slot : Nat} {t : OutTicket} (h : (readyList s)[i]? = some (.block slot))
    (ht : s.chart.outT.find? (fun t => t.slot == slot) = some t) : exec (.chartRequestSend i) s = .next (s.nextBlock t) := by
  simp only [exec_chartRequestSend, execChartRequestSend, hlive, hopen, Bool.and_self, if_true, h, ht]

/-- A piece of a collective waits for an open slot and a credit (R42, R242). -/
theorem exec_chartRequestSend_coll {c k : Nat} {r : CollRun} (h : (readyList s)[i]? = some (.coll c k)) (hr : s.collOf c = some r) :
    exec (.chartRequestSend i) s = .next (if s.slotIsOpen (partOf (toCore c)) = true
      ∧ s.get (CHT.CREDITS_n.WRITE_FREE (partOf (toCore c))) ≠ 0 then s.sendPiece r k else s) := by
  simp only [exec_chartRequestSend, execChartRequestSend, hlive, hopen, Bool.and_self, if_true, h, hr, act, Bool.and_eq_true, bne_iff_ne]

/-- The ABORT of a collective is taken off the list, and sent unless FINAL has passed (R256). -/
theorem exec_chartRequestSend_abort {x y d n : Nat} (h : (readyList s)[i]? = some (.abort x y d n)) (t : State)
    (ht : t = { s with chart := { s.chart with aborts := s.chart.aborts.erase (x, y, d, n) } }) :
    ((∀ k, s.collRec x = some k → k.fin = false) → exec (.chartRequestSend i) s = .next (t.collCtl n 0 x y d))
    ∧ ∀ k, s.collRec x = some k → k.fin = true → exec (.chartRequestSend i) s = .next t := by
  simp only [exec_chartRequestSend, execChartRequestSend, hlive, hopen, Bool.and_self, if_true, h, ← ht]
  cases hrec : s.collRec x with
  | none => exact ⟨fun _ => rfl, fun k hk => nomatch hk⟩
  | some k =>
    refine ⟨fun hk => ?_, fun j hj hfin => ?_⟩
    · exact congrArg Host.Outcome.next (if_neg (Bool.eq_false_iff.mp (hk k rfl)))
    · obtain rfl : k = j := Option.some.inj hj
      exact congrArg Host.Outcome.next (if_pos hfin)

end

/-! ### The first entry of an outbound queue (R236, R238, R285) -/

/-- No entry stands before the first, so that it goes as soon as it is released. -/
theorem mayGo_first {e : OutEntry} (r : List OutEntry) (h : e.state = .released) : mayGo [] (e :: r) 0 = true := by
  have hfree (k : OutKind) : heldBehind [] k = false := by cases k <;> rfl
  simp only [mayGo, h, hfree, decide_true, Bool.not_false, Bool.and_self]

section
variable {n : PartIx} {e : OutEntry} {r : List OutEntry} (hlive : s.live = true) (hq : (s.part n).outq = e :: r) (hrel : e.state = .released)
include hlive hq hrel

/-- An entry for the companion goes where the companion is attached and no earlier entry that it follows has failed. -/
theorem exec_outboundQueueSend_companion (hkind : e.kind.companion = true) : exec (.outboundQueueSend n 0) s
    = if !s.attached || (e.kind.last && (s.part n).failFrl) then .next (s.queueFailFrl n e)
      else if e.kind.last && (s.part n).failChart then .next (s.queueFailChart n e) else .next (s.sendCompanion n e) := by
  show execOutboundQueueSend n 0 s = _
  simp only [execOutboundQueueSend, hq, List.getElem?_cons_zero, hlive, mayGo_first r hrel, hkind, Bool.and_self, if_true]

/-- An entry for the Chart goes where the Chart is open and no earlier entry that it follows has failed. -/
theorem exec_outboundQueueSend_chart (hkind : e.kind.companion = false) : exec (.outboundQueueSend n 0) s
    = if e.kind.last && (s.part n).failChart then .next (s.queueFailChart n e) else act s s.chartOpen (s.sendEntry n e) := by
  show execOutboundQueueSend n 0 s = _
  simp only [execOutboundQueueSend, hq, List.getElem?_cons_zero, hlive, mayGo_first r hrel, hkind, Bool.and_self, if_true,
    Bool.false_eq_true, if_false]

end

end

end Sys2Proof.Machine

namespace Sys2Proof.Proofs

open Sys2Proof.Machine

/-- Settles O38: the ready item of each kind, and the first entry of a queue. -/
theorem chartSending : Obligations.ChartSending := by
  intro s i hlive
  refine ⟨fun hopen => ⟨fun c p => exec_chartRequestSend_piece hlive hopen, fun c k a => exec_chartRequestSend_cancel hlive hopen,
    fun slot t => exec_chartRequestSend_block hlive hopen, fun c k r => exec_chartRequestSend_coll hlive hopen,
    fun x y d n => exec_chartRequestSend_abort hlive hopen, exec_chartRequestSend_none hlive hopen⟩, exec_chartRequestSend_closed,
    fun n e r hq hrel => ⟨fun hkind hgo hopen => ?_, fun hkind hlast hfail => ?_, fun hkind hlost => ?_, fun hkind hat hlast hfrl hfail => ?_,
      fun hkind hat hgo => ?_⟩⟩
  · rw [exec_outboundQueueSend_chart hlive hq hrel hkind, hopen, act_true]
    exact if_neg (by rcases hgo with h | h <;> simp [h])
  · rw [exec_outboundQueueSend_chart hlive hq hrel hkind, hlast, hfail]
    rfl
  · rw [exec_outboundQueueSend_companion hlive hq hrel hkind]
    exact if_pos (by rcases hlost with h | ⟨hlast, hfail⟩ <;> simp [*])
  · rw [exec_outboundQueueSend_companion hlive hq hrel hkind, hat, hlast, hfrl, hfail]
    rfl
  · rw [exec_outboundQueueSend_companion hlive hq hrel hkind, hat]
    rcases hgo with hlast | ⟨hfrl, hfail⟩
    · rw [hlast]
      rfl
    · rw [hfrl, hfail, Bool.and_false]
      rfl

end Sys2Proof.Proofs

end

section
/-! PROOF. Rows of the stroke and picks (R176, R180 to R186): when each event of a row comes about, and what it does then. -/

namespace Sys2Proof.Machine

section
variable {s : State} {c : CoreIx} {r : Fin 1024}

theorem runs_of_issues {n : PartIx} (h : s.issues n = true) : s.runs n = true := by
  simp only [State.issues, Bool.and_eq_true] at h
  exact h.1.1

/-! ### The start of a row (R180) -/

theorem exec_hardRowStart_due {n : PartIx} (hiss : s.issues n = true) (hrun : rowRuns s n r.val = true) (hhard : rowHard s n r.val = true)
    (hdue : rowStart s n r.val ≤ s.time) : exec (.hardRowStart n r) s = .next (forCores (coresOf n) (fun d t =>
      if rowOn t d r.val && !rowPast t d r.val && !killable t d then ((t.clearFor d r.val).beginRow d r.val).pick d else t) s) :=
  if_pos (by simp only [hiss, hrun, hhard, hdue, decide_true, Bool.and_self])

theorem exec_hardRowStart_early {n : PartIx} (h : s.time < rowStart s n r.val) : exec (.hardRowStart n r) s = .next s :=
  if_neg (by simp only [decide_eq_false (Nat.not_le.mpr h), Bool.and_false, Bool.false_eq_true, not_false_eq_true])

section
variable (hiss : s.issues (partOf c) = true)
include hiss

/-- On an idle core the row starts once the row before it has ended and the earlier rows have started or been skipped; behind its own end
it is skipped. -/
theorem exec_elasticRowStart_due (hon : rowOn s c r.val = true) (hsoft : rowHard s (partOf c) r.val = false)
    (hpast : rowPast s c r.val = false) (hprev : ∀ q, (s.core c).row = some q → rowEnd s (partOf c) q ≤ s.time)
    (horder : ∀ q : Nat, q < r.val → rowOn s c q = false ∨ rowPast s c q = true) (hidle : s.seg c = none)
    (hpoint : pointReached s c = false) (hdue : rowStart s (partOf c) r.val ≤ s.time) : exec (.elasticRowStart c r) s
      = .next (if rowEnd s (partOf c) r.val ≤ s.time then s.skipRow c r.val else (s.beginRow c r.val).pick c) := by
  have hall : (List.range r.val).all (fun q => !rowOn s c q || rowPast s c q) = true :=
    List.all_eq_true.mpr fun q hq => by simpa using horder q (List.mem_range.mp hq)
  show execElasticRowStart c r s = _
  cases hrow : (s.core c).row with
  | none =>
    simp only [execElasticRowStart, hiss, hon, hsoft, hpast, hrow, hall, hidle, hpoint, hdue, Option.isNone_none, Bool.not_false, decide_true,
      Bool.and_self, if_true]
  | some q =>
    simp only [execElasticRowStart, hiss, hon, hsoft, hpast, hrow, hprev q hrow, hall, hidle, hpoint, hdue, Option.isNone_none, Bool.not_false,
      decide_true, Bool.and_self, if_true]

/-! ### The pre-emption point and the end of a row (R182, R183); v: the row is over on its core -/

theorem exec_preemptionPoint_due (hon : rowOn s c r.val = true) (hhard : rowHard s (partOf c) r.val = true)
    (hpast : rowPast s c r.val = false) (hdue : rowPoint s (partOf c) r.val ≤ s.time) : exec (.preemptionPoint c r) s
      = .next (if killable (s.clearFor c r.val) c then (s.clearFor c r.val).killSeg c 2 else s.clearFor c r.val) :=
  if_pos (by simp only [hiss, hon, hhard, hpast, hdue, Bool.not_false, decide_true, Bool.and_self])

section
variable {v : State} (hv : v = s.modCore c (fun k => { k with row := none })) (hrow : (s.core c).row = some r.val)
  (hdue : rowEnd s (partOf c) r.val ≤ s.time)
include hv hrow hdue

section
variable (hhard : rowHard s (partOf c) r.val = true)
include hhard

/-- A segment that runs at the end of its hard row is killed where it still can be. -/
theorem exec_hardRowEnd_running {g : Seg} (hg : v.seg c = some g) : exec (.hardRowEnd c r) s
    = .next (if killable v c then (v.boundaryLog c g).killSeg c 1 else v) := by
  subst hv
  show execHardRowEnd c r s = _
  simp only [execHardRowEnd, hiss, hrow, hhard, hdue, hg, beq_self_eq_true, decide_true, Bool.and_self, if_true]

/-- The kill of this aclk has the end of its row as one more cause. -/
theorem exec_hardRowEnd_killed {x : KillSt} (hg : v.seg c = none) (hx : v.killedNow c = some x) :
    exec (.hardRowEnd c r) s = .next (if x.seg.row = r.val then v.killAlso c 1 else v) := by
  subst hv
  show execHardRowEnd c r s = _
  simp only [execHardRowEnd, hiss, hrow, hhard, hdue, hg, hx, beq_self_eq_true, decide_true, Bool.and_self, if_true]

theorem exec_hardRowEnd_idle (hg : v.seg c = none) (hx : v.killedNow c = none) : exec (.hardRowEnd c r) s = .next v := by
  subst hv
  show execHardRowEnd c r s = _
  simp only [execHardRowEnd, hiss, hrow, hhard, hdue, hg, hx, beq_self_eq_true, decide_true, Bool.and_self, if_true]

end

section
variable (hsoft : rowHard s (partOf c) r.val = false)
include hsoft

/-- A segment that runs at the end of its elastic row goes on, and is counted once. -/
theorem exec_elasticRowEnd_running {g : Seg} (hg : v.seg c = some g) :
    exec (.elasticRowEnd c r) s = .next (if killable v c && !g.counted then v.overrun c g.ctx else v) := by
  subst hv
  show execElasticRowEnd c r s = _
  simp only [execElasticRowEnd, hiss, hrow, hsoft, hdue, hg, beq_self_eq_true, Bool.not_false, decide_true, Bool.and_self, if_true]

theorem exec_elasticRowEnd_idle (hg : v.seg c = none) : exec (.elasticRowEnd c r) s = .next v := by
  subst hv
  show execElasticRowEnd c r s = _
  simp only [execElasticRowEnd, hiss, hrow, hsoft, hdue, hg, beq_self_eq_true, Bool.not_false, decide_true, Bool.and_self, if_true]

end

end

/-! ### Picks (R42, R176, R180) -/

/-- A context that is loaded can issue, in an open slot. -/
theorem exec_contextLoad_loaded {g : Seg} (hg : s.seg c = some g) (hctx : (s.core c).ctx.isSome = true)
    (hslot : g.issueSlot ≤ s.slot (partOf c)) : exec (.contextLoad c) s = .next (if s.slotIsOpen (partOf c)
      then (s.modCore c (fun k => { k with ctx := none })).modSeg c (fun h => { h with start := s.time }) else s) := by
  show execContextLoad c s = _
  simp only [execContextLoad, hg, hiss, hctx, hslot, decide_true, Bool.and_true, Bool.true_and, act]

end

theorem exec_pickPoll_due (hidle : (s.core c).seg = none) (hdue : (s.core c).pickTime ≤ s.time) (hst : s.get (SEQ.STATE.STATE c) ≠ 4) :
    exec (.pickPoll c) s = .next (s.pick c) := by
  show act s _ _ = _
  rw [hidle, decide_eq_true hdue, bne_iff_ne.mpr hst]
  exact act_true s _

theorem pick_some {q k : Nat} (hopen : s.slotIsOpen (partOf c) = true) (hq : mayPick s c = some q) (hk : choose s c q = some k) :
    s.pick c = s.takeCtx c k q := by
  simp only [State.pick, hq, hopen, hk, if_true]

theorem pick_none {q : Nat} (hopen : s.slotIsOpen (partOf c) = true) (hq : mayPick s c = some q) (hk : choose s c q = none) :
    s.pick c = s.modCore c (fun co => { co with pickTime := s.time + 256 }) := by
  simp only [State.pick, hq, hopen, hk, if_true]

/-! ### The deadline of a tier (R186) -/

section
variable {g : Seg} {u : Fin 11} {h : BitVec 32} (hg : s.seg c = some g)
include hg

theorem exec_tierDeadline_passed (hrun : s.runs (partOf c) = true) (hlimit : s.ctxRd g.ctx 0x30 4 ≠ 0)
    (hpassed : s.ctxRd g.ctx 0x30 4 < h.toNat) (hfirst : g.tierEvent = false) (hunit : unitWorks s c u.val = true) :
    exec (.tierDeadline c u h) s
      = .next ((s.event g.ctx 7 (h.toNat + 4294967296 * u.val)).modSeg c (fun h => { h with tierEvent := true })) := by
  show execTierDeadline c u h s = _
  simp only [execTierDeadline, hg, hrun, bne_iff_ne.mpr hlimit, hpassed, hfirst, hunit, decide_true, Bool.not_false, Bool.and_self, act_true]

/-- TIER_LIMIT 0 is no limit. -/
theorem exec_tierDeadline_unlimited (hlimit : s.ctxRd g.ctx 0x30 4 = 0) : exec (.tierDeadline c u h) s = .next s := by
  show execTierDeadline c u h s = _
  simp only [execTierDeadline, hg, hlimit, bne_self_eq_false, Bool.and_false, Bool.false_and, act_false]

end

end

end Sys2Proof.Machine

namespace Sys2Proof.Proofs

open Sys2Proof.Machine

/-- Settles O46, event by event in the order of a stroke. -/
theorem strokeRows : Obligations.StrokeRows := by
  intro s c r hiss
  refine ⟨exec_hardRowStart_due hiss, exec_hardRowStart_early, fun hon hhard hpast hdue => ⟨fun hk => ?_, fun hk => ?_⟩, ?_,
    fun hon hsoft hpast hprev horder hidle hpoint hdue => ⟨fun hend => ?_, fun hend => ?_⟩,
    fun g hg hctx hslot => ⟨fun hopen => ?_, fun hopen => ?_⟩, fun hidle hdue hst => ⟨exec_pickPoll_due hidle hdue hst, fun q hopen hq => ?_⟩,
    fun g u h hg => ⟨exec_tierDeadline_passed hg, exec_tierDeadline_unlimited hg⟩⟩
  · rw [exec_preemptionPoint_due hiss hon hhard hpast hdue, if_pos hk]
  · rw [exec_preemptionPoint_due hiss hon hhard hpast hdue, hk, if_neg Bool.false_ne_true]
  · rintro v hv hrow hdue
    refine ⟨fun hhard => ⟨fun g hg hk => ?_, fun g hg hk => ?_, fun x => exec_hardRowEnd_killed hiss hv hrow hdue hhard,
      exec_hardRowEnd_idle hiss hv hrow hdue hhard⟩, fun hsoft => ⟨fun g hg hk hc => ?_, fun g hg hc => ?_,
      exec_elasticRowEnd_idle hiss hv hrow hdue hsoft⟩⟩
    · rw [exec_hardRowEnd_running hiss hv hrow hdue hhard hg, if_pos hk]
    · rw [exec_hardRowEnd_running hiss hv hrow hdue hhard hg, hk, if_neg Bool.false_ne_true]
    · rw [exec_elasticRowEnd_running hiss hv hrow hdue hsoft hg, hk, hc, Bool.not_false, Bool.and_self, if_pos rfl]
    · rw [exec_elasticRowEnd_running hiss hv hrow hdue hsoft hg, if_neg (by rcases hc with h | h <;> simp [h])]
  · rw [exec_elasticRowStart_due hiss hon hsoft hpast hprev horder hidle hpoint hdue, if_neg (Nat.not_le.mpr hend)]
  · rw [exec_elasticRowStart_due hiss hon hsoft hpast hprev horder hidle hpoint hdue, if_pos hend]
  · rw [exec_contextLoad_loaded hiss hg hctx hslot, if_pos hopen]
  · rw [exec_contextLoad_loaded hiss hg hctx hslot, hopen, if_neg Bool.false_ne_true]
  · have hpick := exec_pickPoll_due hidle hdue hst
    exact ⟨fun k hk => hpick.trans (congrArg _ (pick_some hopen hq hk)), fun hk => hpick.trans (congrArg _ (pick_none hopen hq hk))⟩

end Sys2Proof.Proofs

end

section
/-! PROOF. What a chip reset keeps (R332, R333): the module's stores, and the place of the error log, which the records of its aclk have
taken (R317, R318) whatever they sent to the companion (R321). -/

namespace Sys2Proof.Machine

/-! ### Messages to the companion (R277, R286) and the fields that they leave -/

/-- From u to t the fields with a key of K may have changed, and none of the module's stores has: memory, EEPROM, fuses and flash, of which
Calm says nothing. -/
structure Aside (K : Nat → Prop) (u t : State) : Prop where
  regs   : ∀ f : Field, ¬ K f.key → t.get f = u.get f
  stores : (t.mem, t.eeprom, t.fuses, t.flashA, t.flashB) = (u.mem, u.eeprom, u.fuses, u.flashA, u.flashB)

section
variable {K : Nat → Prop} {u s t : State}

theorem Aside.refl (s : State) : Aside K s s := ⟨fun _ _ => rfl, rfl⟩

theorem Aside.trans (h : Aside K u s) (k : Aside K s t) : Aside K u t :=
  ⟨fun f hf => (k.regs f hf).trans (h.regs f hf), k.stores.trans h.stores⟩

theorem Aside.mono {L : Nat → Prop} (h : Aside K u s) (hKL : ∀ k, K k → L k) : Aside L u s :=
  ⟨fun f hf => h.regs f fun hk => hf (hKL _ hk), h.stores⟩

/-- Nothing that Aside speaks of has changed. -/
theorem Aside.of_eq (h : Aside K u s)
    (e : (t.regs, t.mem, t.eeprom, t.fuses, t.flashA, t.flashB) = (s.regs, s.mem, s.eeprom, s.fuses, s.flashA, s.flashB)) : Aside K u t := by
  obtain ⟨eregs, estores⟩ := Prod.mk.inj e
  exact ⟨fun f hf => (congrArg (fun r => Sparse.get r f.key f.reset) eregs).trans (h.regs f hf), estores.trans h.stores⟩

theorem Aside.put (h : Aside K u s) {f : Field} (hf : K f.key) (v : Nat) : Aside K u (s.put f v) :=
  ⟨fun g hg => (State.get_put_other s f g v fun e => hg (e ▸ hf)).trans (h.regs g hg), h.stores⟩

/-- One field is put on both sides. -/
theorem Aside.put_put (h : Aside K u s) (f : Field) (v : Nat) : Aside K (u.put f v) (s.put f v) := by
  refine ⟨fun g hg => ?_, h.stores⟩
  by_cases hkey : g.key = f.key
  · have hread (t : State) : (t.put f v).get g = v % 2 ^ f.width :=
      (congrArg (fun k => Sparse.get (t.put f v).regs k g.reset) hkey).trans (Sparse.get_insert_same t.regs f.key _ g.reset)
    rw [hread, hread]
  · rw [State.get_put_other s f g v hkey, State.get_put_other u f g v hkey, h.regs g hg]

theorem Aside.flag (h : Aside K u s) {f : Field} (hf : K f.key) (m : Nat) : Aside K u (s.flag f m) :=
  (h.put hf _).of_eq (by rfl)

theorem Aside.ite {p : Prop} [Decidable p] (h : Aside K u s) (k : Aside K u t) : Aside K u (if p then s else t) := by
  split
  · exact h
  · exact k

theorem Aside.foldl {α : Type} {f : State → α → State} {l : List α} (h : Aside K u s)
    (hf : ∀ t x, x ∈ l → Aside K u t → Aside K u (f t x)) : Aside K u (l.foldl f s) :=
  List.foldlRecOn (motive := Aside K u) l f h fun t ht x hx => hf t x hx ht

theorem Aside.raise (h : Aside K u s) (r : ErrRecord) : Aside K u (s.raise r) := by
  obtain ⟨_, _, e⟩ := s.raise_eq r
  exact h.of_eq (by rw [e])

/-! #### A message leaves (R276, R286) -/

theorem Aside.closeFrame (h : Aside K u s) (l : LinkIx) : Aside K u (s.closeFrame l) := Aside.ite (h.of_eq (by rfl)) (h.of_eq (by rfl))

theorem Aside.putFlits (h : Aside K u s) (l : LinkIx) (bs : List Byte) : Aside K u (s.putFlits l bs) := by
  refine Aside.ite (h.of_eq (by rfl)) (Aside.of_eq (Aside.closeFrame ?_ l) (by rfl))
  exact h.of_eq (by rfl)

theorem Aside.frlOut (h : Aside K u s) (m : FMsg) : Aside K u (s.frlOut m) := Aside.putFlits (h.of_eq (by rfl)) _ _

theorem Aside.retag (h : Aside K u s) (k : FKind) (tag : Nat) : Aside K u (s.retag k tag) := by
  unfold State.retag
  split
  · exact h.of_eq (by rfl)
  · exact h

theorem Aside.frlTag (h : Aside K u s) {k : FKind} {p : Nat × State} (hp : s.frlTag k = some p) : Aside K u p.2 := by
  unfold State.frlTag State.freshTag at hp
  split at hp
  all_goals
    obtain ⟨i, -, rfl⟩ := Option.map_eq_some_iff.mp hp
    exact h.of_eq (by rfl)

theorem Aside.frlTry (h : Aside K u s) {x : FOut} (ht : s.frlTry x = some t) : Aside K u t := by
  unfold State.frlTry at ht
  dsimp only at ht
  split at ht
  · split at ht
    · cases ht
      exact h
    · split at ht
      · obtain ⟨p, hp, rfl⟩ := Option.map_eq_some_iff.mp ht
        exact Aside.frlOut (Aside.of_eq (Aside.retag (Aside.frlTag h hp) _ _) (by rfl)) _
      · cases ht
  · split at ht
    · cases ht
      exact h.frlOut _
    · cases ht

theorem Aside.frlPumpGo (h : Aside K u s) (l : List FOut) (b : List (BitVec 2)) : Aside K u (frlPumpGo l b s).2 := by
  induction l generalizing s b with
  | nil => exact h
  | cons m r ih =>
    unfold Machine.frlPumpGo
    split
    · next t ht =>
      refine ih (Aside.frlTry h (x := m) ?_) b
      split at ht
      · cases ht
      · exact ht
    · exact ih h _

theorem Aside.frlPush (h : Aside K u s) (x : FOut) : Aside K u (s.frlPush x) := by
  have hwait : Aside K u { s with ferrule := { s.ferrule with waiting := s.ferrule.waiting ++ [x] } } := h.of_eq (by rfl)
  exact (hwait.frlPumpGo _ []).of_eq (by rfl)

theorem Aside.frlRequest (h : Aside K u s) (m : FMsg) (n : Option Nat) (k : FKind) (i : Option Nat) : Aside K u (s.frlRequest m n k i) :=
  Aside.frlPush (h.of_eq (by rfl)) _

theorem Aside.sendIntr (h : Aside K u s) (v : Nat) : Aside K u (s.sendIntr v) := Aside.ite (h.frlRequest _ _ _ _) h

/-! #### The device cache (R280 to R282, R294) -/

section
variable (hK : K FRL.CACHE.VALID.key)
include hK

theorem Aside.setCache (h : Aside K u s) (l : List CacheLine) : Aside K u (s.setCache l) := Aside.put (h.of_eq (by rfl)) hK _

theorem Aside.putLine (h : Aside K u s) (l : CacheLine) : Aside K u (s.putLine l) := (h.setCache hK _).ite (h.setCache hK _)

theorem Aside.evict (h : Aside K u s) (l : CacheLine) : Aside K u (s.evict l) := by
  unfold State.evict
  split
  · exact h.setCache hK _
  · exact (h.putLine hK _).frlRequest _ _ _ _
  · exact (h.putLine hK _).frlRequest _ _ _ _
  · exact h

theorem Aside.frlUncached (h : Aside K u s) (x : FOut) : Aside K u (s.frlUncached x) := by
  have hev : Aside K u ((msgLines x.msg).foldl (fun t a => match lineAt t a with | some l => t.evict l | none => t) s) := by
    refine h.foldl fun t a _ ht => ?_
    split
    · exact ht.evict hK _
    · exact ht
  exact Aside.ite (hev.of_eq (by rfl)) (hev.frlPush x)

end

/-- A flush shows that it runs, and evicts line by line (R294). -/
theorem flush_aside (s : State) : Aside (fun k => k = FRL.STATUS.FLUSH_BUSY.key ∨ k = FRL.CACHE.VALID.key) s s.flush := by
  refine Aside.foldl ((Aside.refl s).put (f := FRL.STATUS.FLUSH_BUSY) (.inl rfl) 1) fun t l _ ht => ?_
  split
  · exact ht.evict (.inr rfl) _
  · exact ht

/-! ### The records of an aclk take their place in the ring (R317, R318, R321) -/

theorem Aside.mirrorRec (h : Aside K u s) (hK : K FRL.CACHE.VALID.key) (r : ErrRecord) : Aside K u (s.mirrorRec r) :=
  Aside.ite (Aside.frlUncached hK (h.of_eq (by rfl)) _) (Aside.ite (h.sendIntr _) h)

theorem Aside.ibiTry (h : Aside K u s) : Aside K u s.ibiTry := by
  obtain ⟨_, _, e⟩ := s.ibiTry_eq
  exact h.of_eq (by rw [e])

/-- Keys of the error log's domains, and of the registers behind the error log. -/
def DomainKey (k : Nat) : Prop := 0xe0040 ≤ k / 64

/-- A domain takes a level, whatever its number. -/
theorem domainStep_aside (s : State) (d b : Nat) : Aside DomainKey s (s.domainStep d b).2.2 := by
  have hkey {hi lo r : Nat} (hlo : lo < 64) : DomainKey (Field.key ⟨0xe0040 + 0x4 * d, hi, lo, r⟩) := by
    simp only [DomainKey, Field.key]
    omega
  unfold State.domainStep
  split
  · exact Aside.refl s
  · split
    · exact Aside.put (Aside.put (Aside.refl s) (hkey (by decide)) _) (hkey (by decide)) _
    · exact Aside.put (Aside.put (Aside.refl s) (hkey (by decide)) _) (hkey (by decide)) _

/-- Keys of every field but the two that say how full the ring is. -/
def LogKey (k : Nat) : Prop := k ≠ ERR.PRODUCER.SEQ.key ∧ k ≠ ERR.CONSUMER.SEQ.key

theorem logKey_of_domainKey {k : Nat} (h : DomainKey k) : LogKey k := by
  simp only [DomainKey, LogKey, Field.key] at *
  omega

/-- SEQ as the next record leaves it. -/
def State.nextSeq (s : State) : State := if s.ringFull then s else s.put ERR.PRODUCER.SEQ (s.get ERR.PRODUCER.SEQ + 1)

/-- A record counts in SEQ where the ring has room, and changes CONSUMER never. -/
theorem logRec_aside (s : State) (r : ErrRecord) (b : Nat) : Aside LogKey s.nextSeq (s.logRec r b) := by
  have hdom := (domainStep_aside s r.domain b).mono fun _ => logKey_of_domainKey
  unfold State.logRec
  generalize s.domainStep r.domain b = p at hdom ⊢
  obtain ⟨lv, nest, t⟩ := p
  have hseq : t.get ERR.PRODUCER.SEQ = s.get ERR.PRODUCER.SEQ := hdom.regs _ fun h => h.1 rfl
  have hfull : t.ringFull = s.ringFull := by rw [State.ringFull, State.ringFull, hseq, hdom.regs ERR.CONSUMER.SEQ fun h => h.2 rfl]
  rw [State.nextSeq, ← hfull, ← hseq]
  dsimp only
  split
  · refine Aside.flag (hdom.put (f := ERR.LOSS.COUNT) ?_ _) (f := ERR.DOMAIN_d.LOST_SEEN r.domain) ?_ 1
    · exact ⟨by decide, by decide⟩
    · exact logKey_of_domainKey (by simp only [DomainKey, Field.key]; omega)
  · have hput := hdom.put_put ERR.PRODUCER.SEQ (t.get ERR.PRODUCER.SEQ + 1)
    have hmirror (l : List ErrRecord) (q : ErrRecord) : Aside LogKey (s.put ERR.PRODUCER.SEQ (t.get ERR.PRODUCER.SEQ + 1))
        (State.mirrorRec (State.put { t with errs := l } ERR.PRODUCER.SEQ (t.get ERR.PRODUCER.SEQ + 1)) q) :=
      Aside.mirrorRec (hput.of_eq (by rfl)) ⟨by decide, by decide⟩ q
    exact Aside.ite (Aside.ibiTry (Aside.flag (hmirror _ _) (f := MGT.IBI_CAUSE.ERROR) ⟨by decide, by decide⟩ 1)) (hmirror _ _)

theorem nextSeq_aside (s : State) : Aside (fun _ => True) s s.nextSeq :=
  Aside.ite (Aside.refl s) ((Aside.refl s).put trivial _)

/-- The two numbers that say how full the ring is agree. -/
def sameRing (s t : State) : Prop := s.get ERR.PRODUCER.SEQ = t.get ERR.PRODUCER.SEQ ∧ s.get ERR.CONSUMER.SEQ = t.get ERR.CONSUMER.SEQ

theorem sameRing_of_aside (h : Aside LogKey s t) : sameRing t s :=
  ⟨h.regs _ fun hk => hk.1 rfl, h.regs _ fun hk => hk.2 rfl⟩

theorem sameRing_nextSeq (h : sameRing s t) : sameRing s.nextSeq t.nextSeq := by
  have hfull : s.ringFull = t.ringFull := by rw [State.ringFull, State.ringFull, h.1, h.2]
  rw [State.nextSeq, State.nextSeq, hfull, h.1]
  split
  · exact h
  · refine ⟨by rw [State.get_put_same, State.get_put_same], ?_⟩
    rw [State.get_put_other _ _ _ _ (by decide), State.get_put_other _ _ _ _ (by decide), h.2]

theorem sameRing_logRec (h : sameRing s t) (r : ErrRecord) (b : Nat) : sameRing (s.logRec r b) (t.logRec r b) := by
  obtain ⟨hseq, hcons⟩ := sameRing_of_aside (logRec_aside s r b)
  obtain ⟨hseq', hcons'⟩ := sameRing_of_aside (logRec_aside t r b)
  obtain ⟨eseq, econs⟩ := sameRing_nextSeq h
  exact ⟨(hseq.trans eseq).trans hseq'.symm, (hcons.trans econs).trans hcons'.symm⟩

/-- The same records leave SEQ the same, whatever else of the states differs. -/
theorem sameRing_writeRecs (h : sameRing s t) (hrecs : s.newErrs = t.newErrs) : sameRing s.writeRecs t.writeRecs := by
  have go (l : List (ErrRecord × Nat)) (s t : State) (h : sameRing s t) :
      sameRing (l.foldl (fun t p => t.logRec p.1 p.2) s) (l.foldl (fun t p => t.logRec p.1 p.2) t) := by
    induction l generalizing s t with
    | nil => exact h
    | cons p r ih => exact ih _ _ (sameRing_logRec h p.1 p.2)
  rw [State.writeRecs, State.writeRecs, hrecs]
  exact go _ _ _ h

theorem writeRecs_aside (s : State) : Aside (fun _ => True) s s.writeRecs := by
  refine Aside.foldl (Aside.of_eq (Aside.refl s) (by rfl)) fun t p _ ht => ?_
  exact (ht.trans (nextSeq_aside t)).trans ((logRec_aside t p.1 p.2).mono fun _ _ => trivial)

end

/-! ### What a chip reset keeps (R332, R333) -/

section
variable (s : State)

/-- A field of the registers that a chip reset keeps reads what it read, every other one its reset value. -/
theorem cleared_get (b : Bool) (f : Field) : (s.cleared b).get f = if keptKey f.key then s.get f else f.reset := by
  show Sparse.get (s.regs.filter (fun p => keptKey p.1)) f.key f.reset = _
  rw [Sparse.get, Sparse.find?_filter]
  split
  · rfl
  · rfl

/-- Keys that a chip reset writes behind the reset itself: RST.PERSIST and the domains of the error log. -/
def ResetKey (k : Nat) : Prop := k / 64 = 0xf0024 ∨ (0xe0040 ≤ k / 64 ∧ k / 64 < 0xe0080)

/-- A chip reset is the reset of all logic, behind the records of its aclk and the end of a tracing, and then its cause and its own records. -/
theorem chipReset_aside (cause : Nat) (b : Bool) : ∃ k : State, (k = s ∨ ∃ i, k = s.put (RST.TRACE_SLOT_k.STATE i) 2)
    ∧ Aside ResetKey (k.writeRecs.cleared b) (s.chipReset cause b) := by
  unfold State.chipReset
  extract_lets kept t
  refine ⟨kept, ?_, ?_⟩
  · dsimp only [kept]
    split
    · exact .inr ⟨_, rfl⟩
    · exact .inl rfl
  · have hcause : Aside ResetKey (kept.writeRecs.cleared b)
        (((kept.writeRecs.cleared b).put RST.PERSIST.LAST_CAUSE cause).bump RST.PERSIST.CHIP_RESETS 1) :=
      ((Aside.refl _).put (f := RST.PERSIST.LAST_CAUSE) (.inl rfl) _).put (f := RST.PERSIST.CHIP_RESETS) (.inl rfl) _
    have ht : Aside ResetKey (kept.writeRecs.cleared b) t := hcause.foldl fun u n _ hu => hu.ite (hu.raise _)
    refine ht.foldl fun u d hd hu => ?_
    have hlt := List.mem_range.mp hd
    have hkey {hi lo r : Nat} (hlo : lo < 64) : ResetKey (Field.key ⟨0xe0040 + 0x4 * d, hi, lo, r⟩) := by
      simp only [ResetKey, Field.key]
      omega
    exact (hu.put (f := ERR.DOMAIN_d.HANDLING d) (hkey (by decide)) _).put (f := ERR.DOMAIN_d.LEVEL d) (hkey (by decide)) _

/-- The stores and the place of the error log stay, the boot begins anew, and LAST_CAUSE names the cause. -/
theorem chipReset_keeps (cause : Nat) (b : Bool) : ((s.chipReset cause b).eeprom = s.eeprom ∧ (s.chipReset cause b).fuses = s.fuses
      ∧ (s.chipReset cause b).flashA = s.flashA ∧ (s.chipReset cause b).flashB = s.flashB)
    ∧ (s.chipReset cause b).get RST.PERSIST.LAST_CAUSE = cause % 2 ^ 3 ∧ (s.chipReset cause b).get BOOT.STATUS.STAGE = 0
    ∧ (s.chipReset cause b).get ERR.PRODUCER.SEQ = s.writeRecs.get ERR.PRODUCER.SEQ := by
  obtain ⟨k, hk, hreset⟩ := chipReset_aside s cause b
  obtain ⟨_, -, -, hcause⟩ := chipReset_showsCause s cause b
  have hring : sameRing k s ∧ k.newErrs = s.newErrs := by
    rcases hk with rfl | ⟨i, rfl⟩
    · exact ⟨⟨rfl, rfl⟩, rfl⟩
    · refine ⟨⟨?_, ?_⟩, rfl⟩
      · exact State.get_put_other _ _ _ _ (by simp only [Field.key]; omega)
      · exact State.get_put_other _ _ _ _ (by simp only [Field.key]; omega)
  have hstores : (k.mem, k.eeprom, k.fuses, k.flashA, k.flashB) = (s.mem, s.eeprom, s.fuses, s.flashA, s.flashB) := by
    rcases hk with rfl | ⟨i, rfl⟩
    · rfl
    · rfl
  have hrecs := (writeRecs_aside k).stores.trans hstores
  have hafter := hreset.stores
  simp only [Prod.mk.injEq] at hrecs hafter
  obtain ⟨-, heeprom, hfuses, hflashA, hflashB⟩ := hrecs
  obtain ⟨-, heeprom', hfuses', hflashA', hflashB'⟩ := hafter
  refine ⟨⟨heeprom'.trans heeprom, hfuses'.trans hfuses, hflashA'.trans hflashA, hflashB'.trans hflashB⟩, hcause, ?_, ?_⟩
  · rw [hreset.regs BOOT.STATUS.STAGE (by simp [ResetKey, Field.key]), cleared_get, if_neg (by decide)]
  · rw [hreset.regs ERR.PRODUCER.SEQ (by simp [ResetKey, Field.key]), cleared_get, if_pos (by decide)]
    exact (sameRing_writeRecs hring.1 hring.2).1

end

end Sys2Proof.Machine
end

section
/-! PROOF. Resets of units, partitions and the chip (R39, R320, R325, R326, R332): when each is refused, what it begins, what is late, and
how it ends. -/

namespace Sys2Proof.Machine

section
variable {s : State}

/-! ### Unit resets (R325) -/

theorem exec_unitReset_live (c : CoreIx) (u : BitVec 4) (hlive : s.live = true) : exec (.unitReset c u) s = .next (s.unitReset c u.toNat) := by
  show act s s.live _ = _
  rw [hlive, act_true]

section
variable {c : CoreIx} {u : Nat}

theorem unitReset_refused (h : 10 < u ∨ (s.part (partOf c)).inReset = true ∨ s.active (partOf c) = false ∨ s.on RST.UNIT.BUSY = true) :
    s.unitReset c u = s.flag RST.UNIT.ERR 1 := if_pos (by simpa [or_assoc] using h)

/-- The segment is killed, or its kill of this aclk has one more cause, and the unit is discarded. -/
theorem unitReset_taken {x : State} (hu : u ≤ 10) (hin : (s.part (partOf c)).inReset = false) (hact : s.active (partOf c) = true)
    (hbusy : s.on RST.UNIT.BUSY = false) (hx : x = ((s.put RST.UNIT.CORE c.val).put RST.UNIT.UNIT u).put RST.UNIT.BUSY 1) :
    s.unitReset c u = (((x.killOrAlso c 10).put (DBG.CORE_c.STEPPING c) (s.get (DBG.CORE_c.STEPPING c))).discardUnit c u).modCore c
      (fun k => { k with unitReset := some (u, s.time, false) }) := by
  subst hx
  exact if_neg (by simp [Nat.not_lt.mpr hu, hin, hact, hbusy])

end

theorem killOrAlso_running {c : CoreIx} (cause : Nat) (h : killable s c = true) : s.killOrAlso c cause = s.killSeg c cause := if_pos h

theorem killOrAlso_killed {c : CoreIx} (cause : Nat) (h : killable s c = false) : s.killOrAlso c cause = s.killAlso c cause :=
  if_neg (Bool.eq_false_iff.mp h)

/-- What only one element of a list gives, a search of the list finds. -/
theorem findSome?_of_unique {α β : Type} {f : α → Option β} {l : List α} {a : α} {b : β} (ha : a ∈ l) (hb : f a = some b)
    (huniq : ∀ d, d ≠ a → f d = none) : l.findSome? f = some b := by
  cases h : l.findSome? f with
  | none => exact absurd (hb.symm.trans (List.findSome?_eq_none_iff.mp h a ha)) (Option.some_ne_none b)
  | some b' =>
    obtain ⟨d, -, hd⟩ := List.exists_of_findSome?_eq_some h
    have hda : d = a := Classical.byContradiction fun hne => Option.some_ne_none b' (hd.symm.trans (huniq d hne))
    rw [← hd, hda, hb]

theorem mem_allCores (c : CoreIx) : c ∈ allCores := by revert c; decide

/-- The one unit reset in progress ends. -/
theorem exec_unitResetEnd_busy {c : CoreIx} {u : Nat} {t0 : Nat × Bool} (hlive : s.live = true) (hbusy : s.on RST.UNIT.BUSY = true)
    (hu : (s.core c).unitReset = some (u, t0)) (hother : ∀ d : CoreIx, d ≠ c → (s.core d).unitReset = none) :
    exec .unitResetEnd s = .next (s.unitResetOver c u) := by
  have hfind : allCores.findSome? (fun d => (s.core d).unitReset.map (fun v => (d, v.1))) = some (c, u) :=
    findSome?_of_unique (mem_allCores c) (congrArg (Option.map _) hu) fun d hd => congrArg (Option.map _) (hother d hd)
  show execUnitResetEnd s = _
  simp only [execUnitResetEnd, hfind, hlive, hbusy, Bool.and_self, act_true]

/-! ### Partition resets (R326) -/

section
variable {n : PartIx}

theorem exec_partitionReset_live (r t : Bool) (hlive : s.live = true) :
    exec (.partitionReset n r t) s = .next ((s.afterBoundary n).partReset n r t) := by
  show act s s.live _ = _
  rw [hlive, act_true]

theorem partReset_busy (r t : Bool) (hbusy : s.on (RST.PART_n.BUSY n) = true) : s.partReset n r t = s.flag (RST.PART_n.ERR n) 1 :=
  if_pos hbusy

/-- In a power transition the reset waits for its end; otherwise it begins. -/
theorem partReset_idle {x : State} {r t : Bool} (hbusy : s.on (RST.PART_n.BUSY n) = false)
    (hx : x = State.modPart (((s.putB (RST.PART_n.MODE n) r).putB (RST.PART_n.TRACE n) t).put (RST.PART_n.BUSY n) 1) n
      (fun p => { p with resetRetain := r, resetTrace := t })) : s.partReset n r t
        = if s.get (PART.POWER_n.STATE n) = 3 then x.modPart n (fun p => { p with resetWait := true }) else x.beginReset n := by
  subst hx
  exact if_neg (Bool.eq_false_iff.mp hbusy)

theorem beginReset_step (s : State) (n : PartIx) : (s.beginReset n).get (RST.PART_n.STEP n) = 1 :=
  State.get_put_same _ (RST.PART_n.STEP n) 1

theorem exec_partitionResetEnd_last (f : List (Bool × Fin 32)) (hlive : s.live = true) (hbusy : s.on (RST.PART_n.BUSY n) = true)
    (hin : (s.part n).inReset = true) (hchip : s.boot.resetDue = none) (hstep : s.get (RST.PART_n.STEP n) = 9) :
    exec (.partitionResetEnd n f) s = .next (s.endReset n f) := by
  show act s _ _ = _
  rw [hlive, hbusy, hin, hchip, hstep]
  exact act_true s _

theorem exec_partitionResetEnd_early (f : List (Bool × Fin 32)) (hstep : s.get (RST.PART_n.STEP n) ≠ 9) :
    exec (.partitionResetEnd n f) s = .next s := by
  show act s _ _ = _
  rw [beq_false_of_ne hstep, Bool.and_false, Bool.false_and, act_false]

end

/-! ### What is late (R320, R325) -/

theorem exec_resetStepLate_live (level : BitVec 3) (st t : BitVec 4) (hlive : s.live = true) :
    exec (.resetStepLate level st t) s = .next (s.stepLate level.toNat st.toNat t.toNat) := by
  show act s s.live _ = _
  rw [hlive, act_true]

section
variable {st t : Nat}

theorem stepLate_kill {d : CoreIx} (hd : (coresOf (toPart t)).find? s.lateKill = some d) : s.stepLate 1 st t
    = (s.modCore d (fun k => { k with killed := k.killed.map (fun x => { x with late := true }) })).raiseAt
        { code := 0x53, domain := domPart (toPart t), d0 := 1 + 16 * st + 256 * t } 2 := by
  simp only [State.stepLate, hd, if_true]
  rfl

theorem stepLate_unit {d : CoreIx} (hd : (coresOf (toPart t)).find? s.lateUnit = some d) : s.stepLate 2 st t
    = (s.modCore d (fun k => { k with unitReset := k.unitReset.map (fun u => (u.1, u.2.1, true)) })).raiseAt
        { code := 0x53, domain := domPart (toPart t), d0 := 2 + 16 * st + 256 * t } 3 := by
  simp only [State.stepLate, hd, if_true]
  rfl

theorem stepLate_partStep {m : PartIx} (hm : m = toPart t) (hbusy : s.on (RST.PART_n.BUSY m) = true) (hwait : (s.part m).resetWait = false)
    (hstep : s.get (RST.PART_n.STEP m) = st) (htold : (s.part m).late.contains st = false)
    (hlate : (s.part m).stepAt + partStepMax (s.part m).resetRetain st < s.time) : s.stepLate 3 st t
      = (s.modPart m (fun q => { q with late := q.late ++ [st] })).raiseAt
          { code := 0x53, domain := domPart m, d0 := 3 + 16 * st + 256 * t } 4 := by
  subst hm
  exact if_pos (by simp only [hbusy, hwait, hstep, htold, hlate, beq_self_eq_true, Bool.not_false, decide_true, Bool.and_self])

/-- No reset of the partition is in progress. -/
theorem stepLate_partIdle {m : PartIx} (hm : m = toPart t) (hbusy : s.on (RST.PART_n.BUSY m) = false) : s.stepLate 3 st t = s := by
  subst hm
  exact if_neg (by simp only [hbusy, Bool.false_and, Bool.false_eq_true, not_false_eq_true])

theorem stepLate_chipStep {at_ : Nat} (hst : st ≠ 0) (hstep : s.chipStep = (st, at_)) (htold : s.boot.late.contains st = false)
    (hlate : at_ + chipStepMax s.boot.retained st < s.time) : s.stepLate 4 st t
      = State.raiseAt { s with boot := { s.boot with late := s.boot.late ++ [st] } }
          { code := 0x53, domain := 0, d0 := 4 + 16 * st + 256 * t } 5 :=
  if_pos (by simp only [bne_iff_ne.mpr hst, hstep, htold, hlate, beq_self_eq_true, decide_true, Bool.not_false, Bool.and_self])

/-- The chip reset is in another step. -/
theorem stepLate_chipOther (h : s.chipStep.1 ≠ st) : s.stepLate 4 st t = s :=
  if_neg (by simp only [beq_false_of_ne h, Bool.and_false, Bool.false_and, Bool.false_eq_true, not_false_eq_true])

end

/-! ### The chip reset (R39, R332) -/

theorem exec_aclkLockLost_live (hlive : s.live = true) : exec .aclkLockLost s = .next (s.chipReset 3 true) := by
  show act s s.live _ = _
  rw [hlive, act_true]

theorem exec_chipReset_live (b : Bool) (hlive : s.live = true) : exec (.chipReset b) s = .next (s.softReset b) := by
  show act s s.live _ = _
  rw [hlive, act_true]

theorem softReset_again (b : Bool) (h : s.boot.resetDue.isSome = true) : s.softReset b = s := if_pos h

/-- Every partition is fenced. -/
def State.fenceAll (s : State) : State := forParts allParts (fun n t => t.modPart n (fun p => { p with inReset := true })) s

theorem State.fenceAll_eq (s : State) : ∃ ps, s.fenceAll = { s with parts := ps } := by
  rw [State.fenceAll, forParts]
  refine List.foldlRecOn (motive := fun t : State => ∃ ps, t = { s with parts := ps }) allParts _ ⟨s.parts, rfl⟩ fun t ⟨ps, ht⟩ n _ => ?_
  rw [ht]
  exact ⟨_, rfl⟩

theorem fenceAll_get (s : State) (f : Field) : s.fenceAll.get f = s.get f := by obtain ⟨_, h⟩ := s.fenceAll_eq; rw [h]; rfl
theorem fenceAll_mem (s : State) : s.fenceAll.mem = s.mem := by obtain ⟨_, h⟩ := s.fenceAll_eq; rw [h]
theorem fenceAll_fuses (s : State) : s.fenceAll.fuses = s.fuses := by obtain ⟨_, h⟩ := s.fenceAll_eq; rw [h]
theorem fenceAll_attached (s : State) : s.fenceAll.attached = s.attached := by rw [State.attached, State.attached, State.on, State.on, fenceAll_get]

theorem fenceAll_inReset (s : State) (m : PartIx) : (s.fenceAll.part m).inReset = true := by
  have go (l : List PartIx) (t : State) (h : m ∈ l ∨ (t.part m).inReset = true) :
      ((forParts l (fun n t => t.modPart n (fun p => { p with inReset := true })) t).part m).inReset = true := by
    induction l generalizing t with
    | nil => exact h.resolve_left List.not_mem_nil
    | cons n r ih =>
      refine ih _ ?_
      by_cases hn : m = n
      · exact .inr (by rw [hn, State.part_modPart_same])
      · rw [State.part_modPart_other _ _ _ _ hn]
        exact h.imp_left fun hm => (List.mem_cons.mp hm).resolve_left hn
  exact go allParts s (.inl (mem_allParts m))

/-- Step 1 of a chip reset begins behind what u has done; it lasts until due (R332). -/
def State.stepOne (u s : State) (due : Nat) (trace : Bool) : State :=
  { u with boot := { u.boot with resetDue := some due, chipTrace := trace, chipStop := false, stepAt := s.time, late := [] } }

/-- A flush behind the fence changes neither the stage of the boot nor memory nor the fuses. -/
theorem fenceAll_flush_keeps (s : State) : s.fenceAll.flush.get BOOT.STATUS.STAGE = s.get BOOT.STATUS.STAGE
    ∧ s.fenceAll.flush.mem = s.mem ∧ s.fenceAll.flush.fuses = s.fuses := by
  obtain ⟨hregs, hstores⟩ := flush_aside s.fenceAll
  simp only [Prod.mk.injEq] at hstores
  obtain ⟨hmem, -, hfuses, -, -⟩ := hstores
  exact ⟨(hregs _ (by decide)).trans (fenceAll_get s _), hmem.trans (fenceAll_mem s), hfuses.trans (fenceAll_fuses s)⟩

/-- Without the companion the reset does not wait. -/
theorem softReset_detached (b : Bool) (h : s.boot.resetDue = none) (hat : s.attached = false) :
    s.softReset b = s.fenceAll.stepOne s s.time b := by
  have hat' : s.fenceAll.attached = false := (fenceAll_attached s).trans hat
  simp only [State.fenceAll] at hat'
  simp only [State.softReset, h, hat', Option.isSome_none, Bool.false_eq_true, if_false]
  rfl

/-- An attached module flushes its cache, for at most 10 ms (R293). -/
theorem softReset_attached (b : Bool) (h : s.boot.resetDue = none) (hat : s.attached = true) :
    s.softReset b = s.fenceAll.flush.stepOne s (s.time + 8000000) b := by
  have hat' : s.fenceAll.attached = true := (fenceAll_attached s).trans hat
  simp only [State.fenceAll] at hat'
  simp only [State.softReset, h, hat', Option.isSome_none, Bool.false_eq_true, if_false, if_true]
  rfl

section
variable {d : Nat} (hd : s.boot.resetDue = some d) (htrace : s.boot.chipTrace = false)
include hd htrace

/-- Step 1 is over with the flush, or with its wait. -/
theorem chipStepOn_stops (hrun : s.boot.chipStop = false) (htracer : s.tracer = none)
    (hover : s.get FRL.STATUS.FLUSH_BUSY = 0 ∨ d ≤ s.time) :
    s.chipStepOn = { s with boot := { s.boot with chipStop := true, stepAt := s.time } } := by
  have hflush : s.flushOver (some d) = true := by simpa [State.flushOver] using hover
  simp only [State.chipStepOn, hd, htrace, hrun, htracer, hflush, Option.isNone_none, Option.isNone_some, Bool.and_self, Bool.false_eq_true,
    if_false, if_true]

theorem chipStepOn_waits (hrun : s.boot.chipStop = false) (hbusy : s.get FRL.STATUS.FLUSH_BUSY ≠ 0) (hearly : s.time < d) :
    s.chipStepOn = s := by
  have hflush : s.flushOver (some d) = false := by simpa [State.flushOver] using ⟨hbusy, hearly⟩
  simp only [State.chipStepOn, hd, htrace, hrun, hflush, Option.isNone_some, Bool.and_false, Bool.false_eq_true, if_false]

/-- With step 2 over the chip is reset. -/
theorem chipStepOn_resets (hstop : s.boot.chipStop = true) (hdraw : s.draw.1.toNat % 2 = 1) : s.chipStepOn = s.draw.2.chipReset 1 true := by
  simp only [State.chipStepOn, hd, htrace, hstop, hdraw, Option.isNone_some, Bool.false_eq_true, if_false, if_true]

end

end

end Sys2Proof.Machine

namespace Sys2Proof.Proofs

open Sys2Proof.Machine

/-- Settles O59, reset by reset. -/
theorem resetCommands : Obligations.ResetCommands := by
  intro s c n hlive
  refine ⟨fun u => ⟨fun h => ?_, fun x hu hin hact hbusy hx => ⟨fun hk => ?_, fun hk => ?_⟩⟩,
    fun u t0 hbusy hu hother => exec_unitResetEnd_busy hlive hbusy hu hother, fun v r t hv => ?_,
    fun f hbusy hin hchip => ⟨exec_partitionResetEnd_last f hlive hbusy hin hchip, exec_partitionResetEnd_early f⟩, fun st t m hm => ?_, ?_,
    fun hidle => ⟨fun hat b => ?_, fun hat b => ?_⟩, fun d hd htrace => ⟨chipStepOn_stops hd htrace, chipStepOn_waits hd htrace,
      fun t hstop hdraw ht => ?_⟩, fun b h => ?_⟩
  · rw [exec_unitReset_live c u hlive, unitReset_refused h]
  · rw [exec_unitReset_live c u hlive, unitReset_taken hu hin hact hbusy hx, killOrAlso_running 10 hk]
  · rw [exec_unitReset_live c u hlive, unitReset_taken hu hin hact hbusy hx, killOrAlso_killed 10 hk]
  · rw [exec_partitionReset_live r t hlive, ← hv]
    refine ⟨fun hbusy => congrArg _ (partReset_busy r t hbusy), fun hbusy x hx => ?_⟩
    rw [partReset_idle hbusy hx]
    exact ⟨fun hst => congrArg _ (if_pos hst), fun hst => ⟨congrArg _ (if_neg hst), beginReset_step x n⟩⟩
  · subst hm
    simp only [exec_resetStepLate_live _ st t hlive]
    exact ⟨fun d hd => congrArg _ (stepLate_kill hd), fun d hd => congrArg _ (stepLate_unit hd),
      fun hbusy hwait hstep htold hlate => congrArg _ (stepLate_partStep rfl hbusy hwait hstep htold hlate),
      fun hbusy => congrArg _ (stepLate_partIdle rfl hbusy),
      fun at_ hst hstep htold hlate => congrArg _ (stepLate_chipStep (fun h => hst (BitVec.eq_of_toNat_eq h)) hstep htold hlate),
      fun h => congrArg _ (stepLate_chipOther h)⟩
  · obtain ⟨⟨heeprom, hfuses, hflashA, hflashB⟩, hcause, hstage, hseq⟩ := chipReset_keeps s 3 true
    exact ⟨_, exec_aclkLockLost_live hlive, heeprom, hfuses, hflashA, hflashB, hcause, hstage, hseq⟩
  · refine ⟨_, exec_chipReset_live b hlive, ?_⟩
    rw [softReset_detached b hidle hat]
    exact ⟨rfl, rfl, rfl, fenceAll_inReset s, fenceAll_mem s, fenceAll_fuses s⟩
  · refine ⟨_, exec_chipReset_live b hlive, ?_⟩
    rw [softReset_attached b hidle hat]
    exact ⟨rfl, rfl, fenceAll_flush_keeps s⟩
  · obtain ⟨⟨heeprom, hfuses, hflashA, hflashB⟩, hcause, hstage, -⟩ := chipReset_keeps s.draw.2 1 true
    rw [ht, chipStepOn_resets hd htrace hstop hdraw]
    exact ⟨heeprom, hfuses, hflashA, hflashB, hcause, hstage⟩
  · rw [exec_chipReset_live b hlive, softReset_again b h]

end Sys2Proof.Proofs

end

section
/-! PROOF. The issue of a MATMUL (R61, R63, R134, R147, R149, R151, R156): the command at its core, what it waits for at its issue, the checks of
its resolved operands, and its dispatch. -/

namespace Sys2Proof.Machine

/-! ### A command at its core (R147, R177) -/

section
variable {s : State} {c : CoreIx} {g : Seg} {b : List Byte}

theorem issueReady_seg (h : issueReady s c = some (g, b)) : s.seg c = some g := by
  unfold issueReady at h
  split at h
  · cases h
  · next x hx =>
    split at h
    · cases h
    · split at h
      · cases h
        exact hx
      · cases h

theorem ready_seg {op : Nat} (h : ready s c op = some (g, b)) : s.seg c = some g := by
  unfold ready at h
  split at h
  · next hready =>
    split at h
    · cases h
      exact issueReady_seg hready
    · cases h
  · cases h

/-- Where the segment is there, its command has its own meaning. -/
theorem meanwhile_of_seg (h : s.seg c = some g) (f : State → Out) : s.meanwhile c f = f s := by
  rw [State.meanwhile, h]

/-! ### What a command waits for and checks at its issue (R156, R171, R198, R210) -/

/-- A command does not wait for ranges that lie in local memory. -/
theorem withRemote_of_local {ranges : List (Nat × Nat)} (go : State → State)
    (h : ∀ r ∈ ranges, chartRanges s c g.ctx (pageCount r.1 r.2) r.1 r.2 = []) : withRemote s c g ranges go = go s := by
  have hfar : ranges.flatMap (fun r => chartRanges s c g.ctx (pageCount r.1 r.2) r.1 r.2) = [] := List.flatMap_eq_nil_iff.mpr h
  simp only [withRemote, hfar, List.filter_nil, List.isEmpty_nil, List.all_nil, Bool.not_true, Bool.false_eq_true, if_false, if_true]

theorem localSound_nil (s : State) (c : CoreIx) (ctx : Nat) : localSound s c ctx [] := fun _ h => absurd h List.not_mem_nil

/-- Reading sound ranges meets no error. -/
theorem meetAll_of_localSound {ctx : Nat} {rs : List (Nat × Nat)} (h : localSound s c ctx rs) :
    rs.foldl (fun u r => u.meetObj c ctx r.1 r.2) s = s :=
  List.foldlRecOn (motive := fun u : State => u = s) rs _ rfl fun u hu r hr => by
    obtain ⟨-, -, hmeet⟩ := h r hr
    rw [hu, hmeet]

/-- A command without a breach, its operands translated and what it reads at its issue sound, goes on. -/
theorem checked_passes {ctx : Nat} {ranges : List (Nat × Nat × Bool)} {sound : List (Nat × Nat)} (go : State → State)
    (htr : translated s c ctx ranges) (hsound : localSound s c ctx sound) : checked s c ctx none ranges sound go = go s := by
  have htouch : touchAll c ctx ranges s = (s, none) := htr
  have hfind : sound.find? (fun r => objPoison s c ctx r.1 r.2) = none :=
    List.find?_eq_none.mpr fun r hr => by
      obtain ⟨-, hclean, -⟩ := hsound r hr
      rw [hclean]
      exact Bool.false_ne_true
  simp only [checked, htouch, hfind, meetAll_of_localSound hsound]

end

/-! ### The engine of a MATMUL (R147, R149) -/

section
variable {s : State} {c : CoreIx} {b : List Byte}

theorem mmTaker_of_named (h : engNamed b = true) : mmTaker s c b = engFor s c b := if_pos h

theorem mmTaker_of_unnamed (h : engNamed b = false) : mmTaker s c b = some 0 := if_neg (Bool.not_eq_true _ ▸ h)

/-- A MATMUL that names no engine breaks a rule: that of its header, or that of its engine. -/
theorem mmBreach_of_unnamed {n : PartIx} {mx : Option (List Byte)} (h : engNamed b = false) : mmBreach s n b mx ≠ none := by
  simp only [mmBreach, firstBreach, h, Bool.false_eq_true, if_false]
  split <;> exact Option.some_ne_none _

theorem mmTaker_of_sound {n : PartIx} {mx : Option (List Byte)} (h : mmBreach s n b mx = none) : mmTaker s c b = engFor s c b :=
  mmTaker_of_named (Bool.not_eq_false _ ▸ fun hno => mmBreach_of_unnamed hno h)

end

/-! ### The operands of a MATMUL (R61, R63, R103, R143) -/

/-- The first breach by the resolved operands of a MATMUL, `sh` being the shard descriptor of the descriptor that it names. -/
def mmOperandBreach (t : State) (c : CoreIx) (ctx : Nat) (h : Seg) (b mx : List Byte) (r : MmRes) (sh : Nat) : Option (Nat × Nat) :=
  firstBreach [(!(mmBDesc b && sh != 0 && !shardOk t c ctx sh), sh, 7),
    (decide (1 ≤ r.nv) && decide (r.nv ≤ mmN b) && decide (1 ≤ r.kv) && decide (r.kv ≤ mmK b), sh, 3),
    (t.scaleOk (partOf c) r.bEntry, 0, 4),
    (r.bPitch != 0 && r.bPitch % 64 == 0 && decide (rowBytes (mmBFmt b) (mmN b) ≤ r.bPitch), r.bBase, 3),
    (r.cPitch != 0 && decide (rowBytes (mmCFmt b) (mmN b) ≤ r.cPitch), r.cBase, 3),
    (mmDisjoint (mmSpans t (partOf c) h b mx r), r.cBase, 3)]

/-- A MATMUL with B in slot v of its descriptor is checked and dispatched to engine e, t being the state in which the slot is latched and g the
segment before. -/
def State.takeMatmul (t : State) (c : CoreIx) (e : EngIx) (g : Seg) (b : List Byte) (v : Nat) : State :=
  let h := (t.seg c).getD g
  let mx := g.mx.getD []
  let r := mmResolve t c h b mx v
  let sh := t.wd (partOf c) (mmBBase b % 4096) 0xB0 8
  checked t c g.ctx (mmOperandBreach t c g.ctx h b mx r sh) (mmRanges b mx r) (if mmBDesc b && sh != 0 then [(sh, 16)] else [])
    (fun u => u.dispatch c e ((u.seg c).getD g) b mx r)

section
variable {t : State} {c : CoreIx} {ctx : Nat} {h : Seg} {b mx : List Byte} {r : MmRes} {sh : Nat}

theorem mmOperandBreach_of_fits (hshard : mmBDesc b = true → sh ≠ 0 → shardOk t c ctx sh = true) (hfits : matmulFits t c h b mx r) :
    mmOperandBreach t c ctx h b mx r sh = none := by
  obtain ⟨hn, hnmax, hk, hkmax, hscale, hbp, hbp64, hbrow, hcp, hcrow, hdisj, -⟩ := hfits
  have hbad : (mmBDesc b && sh != 0 && !shardOk t c ctx sh) = false := by
    rw [Bool.and_eq_false_iff, Bool.and_eq_false_iff, Bool.not_eq_false', bne_eq_false_iff_eq]
    by_cases hb : mmBDesc b = true
    · by_cases hz : sh = 0
      · exact .inl (.inr hz)
      · exact .inr (hshard hb hz)
    · exact .inl (.inl (Bool.not_eq_true _ ▸ hb))
  simp [mmOperandBreach, firstBreach, hbad, hn, hnmax, hk, hkmax, hscale, hbp, hbp64, hbrow, hcp, hcrow, hdisj]

/-- A shard descriptor that breaks a rule (R143, R156). -/
theorem mmOperandBreach_of_shard (hb : mmBDesc b = true) (hz : sh ≠ 0) (hshard : shardOk t c ctx sh = false) :
    mmOperandBreach t c ctx h b mx r sh = some (sh, 7) := by
  simp [mmOperandBreach, firstBreach, hb, hz, hshard]

/-- A sound shard descriptor that gives an extent outside the command's (R134). -/
theorem mmOperandBreach_of_extent (hshard : shardOk t c ctx sh = true) (hext : r.nv = 0 ∨ mmN b < r.nv ∨ r.kv = 0 ∨ mmK b < r.kv) :
    mmOperandBreach t c ctx h b mx r sh = some (sh, 3) := by
  have hout : (decide (1 ≤ r.nv) && decide (r.nv ≤ mmN b) && decide (1 ≤ r.kv) && decide (r.kv ≤ mmK b)) = false := by
    rw [← Bool.not_eq_true]
    simp only [Bool.and_eq_true, decide_eq_true_eq]
    omega
  simp only [mmOperandBreach, firstBreach, hshard, hout, Bool.not_true, Bool.and_false, Bool.not_false, Bool.false_eq_true, if_true, if_false]

end

section
variable {t : State} {c : CoreIx} {e : EngIx} {g h : Seg} {b : List Byte} {v sh : Nat} {r : MmRes}

/-- Operands that fit are dispatched. -/
theorem takeMatmul_dispatches (hseg : t.seg c = some h) (hctx : h.ctx = g.ctx) (hsh : t.wd (partOf c) (mmBBase b % 4096) 0xB0 8 = sh)
    (hsound : mmBDesc b = true → sh ≠ 0 → localSound t c g.ctx [(sh, 16)])
    (hshard : mmBDesc b = true → sh ≠ 0 → shardOk t c g.ctx sh = true)
    (hr : mmResolve t c h b (g.mx.getD []) v = r) (hfits : matmulFits t c h b (g.mx.getD []) r) :
    t.takeMatmul c e g b v = t.dispatch c e h b (g.mx.getD []) r := by
  have hreads : localSound t c g.ctx (if mmBDesc b && sh != 0 then [(sh, 16)] else []) := by
    split
    · next hdesc =>
      obtain ⟨hb, hz⟩ := Bool.and_eq_true_iff.mp hdesc
      exact hsound hb (bne_iff_ne.mp hz)
    · exact localSound_nil t c g.ctx
  have htr : translated t c g.ctx (mmRanges b (g.mx.getD []) r) := by
    obtain ⟨-, -, -, -, -, -, -, -, -, -, -, htr⟩ := hfits
    exact hctx ▸ htr
  simp only [State.takeMatmul, hseg, Option.getD_some, hr, hsh, mmOperandBreach_of_fits hshard hfits]
  rw [checked_passes _ htr hreads, hseg, Option.getD_some]

/-- Operands with a breach are a descriptor fault (R156). -/
theorem takeMatmul_faults {a d : Nat} (hseg : t.seg c = some h) (hsh : t.wd (partOf c) (mmBBase b % 4096) 0xB0 8 = sh)
    (hr : mmResolve t c h b (g.mx.getD []) v = r) (hbreach : mmOperandBreach t c g.ctx h b (g.mx.getD []) r sh = some (a, d)) :
    t.takeMatmul c e g b v = t.descFault c a d := by
  simp only [State.takeMatmul, hseg, Option.getD_some, hr, hsh, hbreach, checked]

end

/-! ### MATMUL at its issue (R132, R133, R147, R151, R156) -/

section
variable {s : State} {c : CoreIx} {g : Seg} {b : List Byte} (hready : ready s c 0x10 = some (g, b))
include hready

/-- With no engine to take it, it waits. -/
theorem exec_matmul_waits (htaker : mmTaker s c b = none) : exec (.matmul c) s = .next s := by
  show execMatmul c s = _
  rw [execMatmul, meanwhile_of_seg (ready_seg hready)]
  simp only [hready, htaker]

theorem exec_matmul_breach {a d : Nat} (htaker : mmTaker s c b ≠ none) (hbreach : mmBreach s (partOf c) b g.mx = some (a, d)) :
    exec (.matmul c) s = .next (s.descFault c a d) := by
  obtain ⟨e, he⟩ := Option.ne_none_iff_exists'.mp htaker
  show execMatmul c s = _
  rw [execMatmul, meanwhile_of_seg (ready_seg hready)]
  simp only [hready, he, hbreach]

section
variable {e : EngIx} (hbreach : mmBreach s (partOf c) b g.mx = none) (heng : engFor s c b = some e)
include hbreach heng

/-- A sound MATMUL whose B is named by its base. -/
theorem exec_matmul_base (hb : mmBDesc b = false) : exec (.matmul c) s = .next (s.takeMatmul c e g b 0) := by
  have htaker : mmTaker s c b = some e := (mmTaker_of_sound hbreach).trans heng
  show execMatmul c s = _
  rw [execMatmul, meanwhile_of_seg (ready_seg hready)]
  simp only [hready, htaker, hbreach, hb, Bool.false_eq_true, if_false, State.takeMatmul, mmOperandBreach]

/-- A sound MATMUL whose B is named by a descriptor with its shard descriptor, if it has one, in local memory. -/
theorem exec_matmul_desc {sh : Nat} (hb : mmBDesc b = true) (hsh : s.wd (partOf c) (mmBBase b % 4096) 0xB0 8 = sh)
    (hlocal : sh ≠ 0 → localSound s c g.ctx [(sh, 16)]) : exec (.matmul c) s = .next
      (match resolveDesc s c g (mmBBase b % 4096) with
      | .fault => s.descFault c 0 7
      | .stale x => s.staleDrop c g (mmBBase b % 4096) x
      | .slot v t => t.takeMatmul c e g b v) := by
  have htaker : mmTaker s c b = some e := (mmTaker_of_sound hbreach).trans heng
  have hnear : ∀ r ∈ (if sh = 0 then [] else [(sh, 16)] : List (Nat × Nat)),
      chartRanges s c g.ctx (pageCount r.1 r.2) r.1 r.2 = [] := by
    split
    · exact fun _ h => absurd h List.not_mem_nil
    · next hz =>
      intro r hr
      obtain ⟨hnone, -, -⟩ := hlocal hz r hr
      exact hnone
  show execMatmul c s = _
  rw [execMatmul, meanwhile_of_seg (ready_seg hready)]
  simp only [hready, htaker, hbreach, if_pos hb, hsh]
  rw [withRemote_of_local _ hnear]
  cases resolveDesc s c g (mmBBase b % 4096) <;> rfl

end

end

end Sys2Proof.Machine

namespace Sys2Proof.Proofs

open Sys2Proof.Machine

/-- Settles O29, by the engine that takes the command, its own breach, and how it names B. -/
theorem matmulIssue : Obligations.MatmulIssue := by
  intro s c g b hready
  have hseg := ready_seg hready
  refine ⟨fun a d => exec_matmul_breach hready, exec_matmul_waits hready, mmTaker_of_named, fun hno => ⟨?_, mmBreach_of_unnamed hno⟩,
    fun e hbreach heng => ⟨fun r hb _ hr hfits => ?_, fun hb hsh => ?_, fun sh hb hsh hz hlocal => ?_⟩⟩
  · rw [mmTaker_of_unnamed hno]
    exact Option.some_ne_none 0
  · have hbase : mmBDesc b ≠ true := Bool.eq_false_iff.mp hb
    rw [exec_matmul_base hready hbreach heng hb, takeMatmul_dispatches hseg rfl rfl (fun h => absurd h hbase) (fun h => absurd h hbase) hr hfits]
  · rw [exec_matmul_desc hready hbreach heng hb hsh (fun h => absurd rfl h)]
    refine ⟨fun hres => ?_, fun x hres => ?_, fun v t h r hres hh hctx ht hr hfits => ?_⟩
    · rw [hres]
    · rw [hres]
    · rw [hres]
      exact congrArg _ (takeMatmul_dispatches hh hctx ht (fun _ hz => absurd rfl hz) (fun _ hz => absurd rfl hz) hr hfits)
  · rw [exec_matmul_desc hready hbreach heng hb hsh (fun _ => hlocal)]
    refine ⟨fun hres => ?_, fun v t h r hres hh hctx ht hsound hr => ?_⟩
    · rw [hres]
    · rw [hres]
      exact ⟨fun hok hfits => congrArg _ (takeMatmul_dispatches hh hctx ht (fun _ _ => hsound) (fun _ _ => hok) hr hfits),
        fun hbad => congrArg _ (takeMatmul_faults hh ht hr (mmOperandBreach_of_shard hb hz hbad)),
        fun hok hext => congrArg _ (takeMatmul_faults hh ht hr (mmOperandBreach_of_extent hok hext))⟩

end Sys2Proof.Proofs

end

section
/-! PROOF. The end of a plane load (R69, R82): which operation of the engine counts it. -/

namespace Sys2Proof.Machine

/-- A change to the operation of a command number reaches the operation found under it only where that operation has this number: the pending
operation is found under every number that the running one does not have. -/
theorem Eng.op_modOp {g : Eng} {w : Nat} {o : MatOp} (f : MatOp → MatOp) (hop : g.op w = some o) (hwork : (f o).work = o.work) :
    (g.modOp w f).op w = some (if o.work = w then f o else o) := by
  obtain ⟨a, ha⟩ : ∃ a, g.run = some a := by
    cases hrun : g.run with
    | none => simp only [Eng.op, hrun, reduceCtorEq] at hop
    | some a => exact ⟨a, rfl⟩
  simp only [Eng.op, ha] at hop
  simp only [Eng.op, Eng.modOp, ha, Option.map_some]
  by_cases hw : a.work = w
  · rw [if_pos hw, Option.some.injEq] at hop
    subst hop
    simp only [hw, if_true, hwork]
  · rw [if_neg hw] at hop
    simp only [hw, if_false, hop, Option.map_some]

@[simp] theorem State.eng_modEng_same (s : State) (c : CoreIx) (e : EngIx) (f : Eng → Eng) : (s.modEng c e f).eng c e = f (s.eng c e) := by
  rw [State.eng, State.modEng, State.core_modCore_same]
  exact Vector.getElem_set_self e.isLt

@[simp] theorem State.eng_put (s : State) (f : Field) (v : Nat) (c : CoreIx) (e : EngIx) : (s.put f v).eng c e = s.eng c e := rfl

/-- The engine when its loader has written plane l whole. -/
def Eng.planeLoaded (g : Eng) (l : Loading) : Eng :=
  { g with
    planes := g.planes.set l.plane (some { nb := l.nb, kp := l.kp, weights := l.weights, scales := l.scales })
    loading := none }.modOp l.work (fun q => { q with loads := q.loads + 1 })

theorem Eng.op_planeLoaded {g : Eng} {l : Loading} {o : MatOp} (hop : g.op l.work = some o) :
    (g.planeLoaded l).op l.work = some (if o.work = l.work then { o with loads := o.loads + 1 } else o) :=
  Eng.op_modOp (g := { g with planes := _, loading := none }) _ hop rfl

/-- A plane load whose rows and scales are all written ends. -/
theorem exec_planeLoad_full {s : State} {c : CoreIx} {e : EngIx} {o : MatOp} {l : Loading} {kp : BitVec 10}
    (hadv : s.advances (partOf c) = true) (hl : (s.eng c e).loading = some l) (hop : (s.eng c e).op l.work = some o)
    (hrow : planeLoadTime (fmtClass (mmAFmt o.cmd)) ≤ l.row) (hkp : l.kp = kp.toNat) :
    exec (.planeLoad c e kp) s = .next ((s.modEng c e (·.planeLoaded l)).put
      (if l.plane = 0 then ENG.STATE_i.PLANE0_FULL c e else ENG.STATE_i.PLANE1_FULL c e) 1) := by
  have hend : (s.advances (partOf c) && l.kp == kp.toNat && decide (planeLoadTime (fmtClass (mmAFmt o.cmd)) ≤ l.row)) = true := by
    rw [hadv, beq_iff_eq.mpr hkp, decide_eq_true hrow, Bool.and_self, Bool.and_self]
  show execPlaneLoad c e kp s = _
  simp only [execPlaneLoad, hl, hop, hend, act_true]
  rfl

/-- An operation of command number w, of the 16-bit format class. -/
def blankOp (w : Nat) : MatOp :=
  { work := w, cmd := [], mx := [], ctx := 0, bBase := 0, bPitch := 0, bScale := 0, bScaleP := 0, cBase := 0, cPitch := 0, nv := 1, kv := 1,
    eIn := 0, eC := 0, chained := false, start := 0 }

/-- A 16-bit plane of command number 2, written whole. -/
def strayLoad : Loading := { work := 2, plane := 0, nb := 0, kp := 0, rel := none, wait := 0, row := 128 }

/-- Partition 0 out of reset; operations 0 and 1 in an engine whose loader holds a plane of neither. -/
def strayState : State :=
  (State.reset.modPart 0 (fun p => { p with inReset := false })).modEng 0 0 (fun k =>
    { k with run := some (blankOp 0), pend := some (blankOp 1), loading := some strayLoad })

end Sys2Proof.Machine

namespace Sys2Proof.Proofs

open Sys2Proof.Machine

/-- Refutes O26: its clause for PLANE_LOAD ranges over every state and does not ask that the operation found under the number of the plane being
loaded has that number (`Eng.op_modOp`). In `strayState` it is a pending operation of another number, whose count of plane loads stays. -/
theorem not_engineOperations : ¬ Obligations.EngineOperations := by
  intro h
  have hadv : strayState.advances (partOf 0) = true := by decide
  have hl : (strayState.eng 0 0).loading = some strayLoad := rfl
  have hop : (strayState.eng 0 0).op strayLoad.work = some (blankOp 1) := rfl
  obtain ⟨-, -, hload, -⟩ := h strayState 0 0 (blankOp 1) hadv
  obtain ⟨hfull, -⟩ := hload strayLoad 0 hl hop
  obtain ⟨t, ht, -, -, hcount, -⟩ := hfull (by decide) rfl
  rw [exec_planeLoad_full hadv hl hop (by decide) rfl] at ht
  have hstays : ((strayState.eng 0 0).planeLoaded strayLoad).op strayLoad.work = some (blankOp 1) := Eng.op_planeLoaded hop
  cases ht
  rw [State.eng_put, State.eng_modEng_same, hstays] at hcount
  exact absurd hcount (by decide)

end Sys2Proof.Proofs

end

section
/-! PROOF. Numbers in the formats of R92: a code as its magnitude and sign, and rounding on the grid of a format (R92, R93, R95, R97). -/

namespace Sys2Proof.Machine

/-! ### Codes of a format (R92, R93) -/

section
variable {f : Fmt} {w mag : Nat} {g : Bool}

/-- The largest finite magnitude, and that of infinity above it, lie below the sign bit. -/
def Fmt.Ordered (f : Fmt) : Prop := f.maxMag < 2 ^ f.signAt ∧ ∀ m, f.infMag = some m → f.maxMag < m ∧ m < 2 ^ f.signAt

/-- A magnitude stands for a finite value or for infinity. -/
def Fmt.Numeric (f : Fmt) (mag : Nat) : Prop := mag ≤ f.maxMag ∨ f.infMag = some mag

theorem Fmt.Ordered.lt_of_numeric (hf : f.Ordered) (h : f.Numeric mag) : mag < 2 ^ f.signAt := by
  obtain ⟨hmax, hinf⟩ := hf
  obtain hle | hsome := h
  · exact hle.trans_lt hmax
  · exact (hinf mag hsome).2

/-- A code is its magnitude with the sign bit above it. -/
theorem code_eq_mag_add_sign {k : Nat} (hw : w < 2 ^ (k + 1)) : w % 2 ^ k + 2 ^ k * b2n (bit w k) = w := by
  have hlt : w / 2 ^ k < 2 := Nat.div_lt_of_lt_mul (pow_succ 2 k ▸ hw)
  have hsign : b2n (bit w k) = w / 2 ^ k := by
    rw [b2n, bit, bits, Nat.add_sub_cancel_left, pow_one, Nat.mod_eq_of_lt hlt]
    interval_cases w / 2 ^ k <;> rfl
  rw [hsign, Nat.mod_add_div]

theorem mag_of_code {k : Nat} (h : mag < 2 ^ k) : (mag + 2 ^ k * b2n g) % 2 ^ k = mag := by
  rw [Nat.add_mul_mod_self_left, Nat.mod_eq_of_lt h]

theorem sign_of_code {k : Nat} (h : mag < 2 ^ k) : bit (mag + 2 ^ k * b2n g) k = g := by
  rw [bit, bits, Nat.add_mul_div_left _ _ (Nat.two_pow_pos k), Nat.div_eq_of_lt h, Nat.zero_add, Nat.add_sub_cancel_left]
  cases g <;> rfl

/-- A numeric code stands for a value of its sign that is no NaN. -/
theorem decodeFmt_numeric (h : f.Numeric (w % 2 ^ f.signAt)) : decodeFmt f w ≠ .nan ∧ (decodeFmt f w).sign = bit w f.signAt := by
  unfold decodeFmt
  dsimp only
  split
  · next hgt =>
    rw [if_pos (h.resolve_left (Nat.not_le.mpr hgt))]
    exact ⟨nofun, rfl⟩
  · split
    · exact ⟨nofun, rfl⟩
    · exact ⟨nofun, rfl⟩

theorem encodeFmt_inf (h : f.infMag = some mag) : encodeFmt f (.inf g) = mag + 2 ^ f.signAt * b2n g := by
  simp only [encodeFmt, roundFmt, h]

/-- Every value but NaN is written as a numeric code of its sign. -/
theorem encodeFmt_numeric (f : Fmt) {v : Machine.Num} (hv : v ≠ .nan) :
    ∃ mag, f.Numeric mag ∧ encodeFmt f v = mag + 2 ^ f.signAt * b2n v.sign := by
  cases v with
  | nan => exact absurd rfl hv
  | inf g =>
    cases hinf : f.infMag with
    | some m => exact ⟨m, .inr hinf, encodeFmt_inf hinf⟩
    | none => exact ⟨f.maxMag, .inl le_rfl, by simp only [encodeFmt, roundFmt, hinf, Num.sign]⟩
  | fin g n d e =>
    unfold encodeFmt roundFmt
    dsimp -zeta only
    extract_lets sg l q p k mag
    split
    · exact ⟨0, .inl (Nat.zero_le _), (Nat.zero_add _).symm⟩
    · split
      · cases hinf : f.infMag with
        | some m => exact ⟨m, .inr hinf, rfl⟩
        | none => exact ⟨f.maxMag, .inl le_rfl, rfl⟩
      · next hle => exact ⟨mag, .inl (Nat.not_lt.mp hle), rfl⟩

/-- Encoding and decoding keeps the sign of a value and makes no NaN of it. -/
theorem decodeFmt_encodeFmt_numeric (hf : f.Ordered) {v : Machine.Num} (hv : v ≠ .nan) :
    decodeFmt f (encodeFmt f v) ≠ .nan ∧ (decodeFmt f (encodeFmt f v)).sign = v.sign := by
  obtain ⟨mag, hmag, hcode⟩ := encodeFmt_numeric f hv
  have hlt := hf.lt_of_numeric hmag
  obtain ⟨hnan, hsign⟩ := decodeFmt_numeric (w := encodeFmt f v) (by rwa [hcode, mag_of_code hlt])
  exact ⟨hnan, by rw [hsign, hcode, sign_of_code hlt]⟩

end

/-! ### Values of a format (R92, R95) -/

section
variable {f : Fmt} {n x : Nat} {g : Bool}

theorem rne_one (n : Nat) : rne n 1 = n := by
  simp [rne, Nat.mod_one]

theorem floorLog2_one (hn : n ≠ 0) (e : Int) : floorLog2 n 1 e = Nat.log2 n + e := by
  have hself := Nat.log2_self_le hn
  have hexp : pow2 (Nat.log2 n : Int) = (2 ^ Nat.log2 n, 1) := if_neg (Int.natCast_nonneg _).not_gt
  simp only [floorLog2, show Nat.log2 1 = 0 from rfl, Nat.cast_zero, sub_zero, hexp, one_mul, mul_one, if_pos hself]

/-- A value of n units, each 2^x times the format's smallest unit, fills its mantissa unless x is 0: rounding finds the same unit. -/
theorem roundExponent_grid (hn : n ≠ 0) (hlt : n < 2 ^ (f.mant + 1)) (hx : x = 0 ∨ 2 ^ f.mant ≤ n) {l : Int}
    (hl : l = floorLog2 n 1 (f.emin - f.mant + x)) : (if l < f.emin then f.emin else l) - f.mant = f.emin - f.mant + x := by
  rw [floorLog2_one hn] at hl
  have hlog : n.log2 < f.mant + 1 := (Nat.log2_lt hn).mpr hlt
  have hnormal : x = 0 ∨ f.mant ≤ n.log2 := hx.imp_right (Nat.le_log2 hn).mpr
  split <;> omega

/-- No rounding changes a value that lies on a format's grid. -/
theorem encodeFmt_grid (hlt : n < 2 ^ (f.mant + 1)) (hx : x = 0 ∨ 2 ^ f.mant ≤ n) (hmax : x * 2 ^ f.mant + n ≤ f.maxMag) :
    encodeFmt f (.fin g n 1 (f.emin - f.mant + x)) = x * 2 ^ f.mant + n + 2 ^ f.signAt * b2n g := by
  by_cases hn : n = 0
  · have hx0 : x = 0 := hx.resolve_right (by have := Nat.two_pow_pos f.mant; omega)
    simp [encodeFmt, roundFmt, hn, hx0]
  · have hexp : (f.emin - f.mant + x + f.mant - f.emin).toNat = x := by omega
    simp only [encodeFmt, roundFmt, if_neg hn, roundExponent_grid hn hlt hx rfl, sub_self, pow2, lt_irrefl, if_false, Int.natAbs_zero, pow_zero,
      mul_one, rne_one, hexp, if_neg (Nat.not_lt.mpr hmax)]

/-- The value of a finite code lies on the format's grid, its magnitude counting the units. -/
theorem decodeFmt_grid {w : Nat} (hle : w % 2 ^ f.signAt ≤ f.maxMag) : ∃ n x : Nat,
    decodeFmt f w = .fin (bit w f.signAt) n 1 (f.emin - f.mant + x) ∧ n < 2 ^ (f.mant + 1) ∧ (x = 0 ∨ 2 ^ f.mant ≤ n)
      ∧ x * 2 ^ f.mant + n = w % 2 ^ f.signAt := by
  have hunits := Nat.div_add_mod' (w % 2 ^ f.signAt) (2 ^ f.mant)
  have hmod := Nat.mod_lt (w % 2 ^ f.signAt) (Nat.two_pow_pos f.mant)
  have htwice := pow_succ 2 f.mant
  unfold decodeFmt
  extract_lets g mag ef mm
  rw [if_neg (Nat.not_lt.mpr hle)]
  split
  · next hzero =>
    refine ⟨mm, 0, by rw [Nat.cast_zero, add_zero], by omega, .inl rfl, ?_⟩
    rwa [show w % 2 ^ f.signAt / 2 ^ f.mant = 0 from hzero] at hunits
  · next hpos =>
    refine ⟨2 ^ f.mant + mm, ef - 1, rfl, by omega, .inr (Nat.le_add_right _ _), ?_⟩
    rw [← hunits, ← add_assoc, ← Nat.succ_mul, Nat.succ_eq_add_one, Nat.sub_add_cancel (Nat.pos_of_ne_zero hpos)]

/-- Encoding gives back every code but a NaN's. -/
theorem encodeFmt_decodeFmt {w : Nat} (hw : w < 2 ^ (f.signAt + 1)) (hnan : decodeFmt f w ≠ .nan) : encodeFmt f (decodeFmt f w) = w := by
  have hcode := code_eq_mag_add_sign hw
  by_cases hle : w % 2 ^ f.signAt ≤ f.maxMag
  · obtain ⟨n, x, hval, hlt, hx, hmag⟩ := decodeFmt_grid hle
    rw [hval, encodeFmt_grid hlt hx (hmag ▸ hle), hmag, hcode]
  · simp only [decodeFmt, if_pos (Nat.not_le.mp hle)] at hnan ⊢
    by_cases hinf : f.infMag = some (w % 2 ^ f.signAt)
    · rw [if_pos hinf, encodeFmt_inf hinf, hcode]
    · exact absurd (if_neg hinf) hnan

end

/-- The formats of R92 that have a NaN are in order. -/
theorem formats_ordered : ∀ f ∈ [fmtB32, fmtB16, fmtBF16, fmtE4M3, fmtE5M2], f.Ordered := by
  unfold Fmt.Ordered
  decide

end Sys2Proof.Machine

namespace Sys2Proof.Proofs

open Sys2Proof.Machine

/-- Settles O6: a value that is no NaN is written as a numeric code of its sign. -/
theorem naNsAndSigns : Obligations.NaNsAndSigns :=
  ⟨rfl, rfl, rfl, rfl, rfl, fun f hf => ⟨fun w hnan => by rw [hnan]; rfl, fun _ => decodeFmt_encodeFmt_numeric (formats_ordered f hf)⟩⟩

/-- Settles O7: finite codes stand for values on the format's grid, which no rounding changes. -/
theorem codesRoundTrip : Obligations.CodesRoundTrip := fun _ _ _ => encodeFmt_decodeFmt

end Sys2Proof.Proofs

end

section
/-! PROOF. Commands that complete at their issue (R109, R128, R150, R152, R155), and LIFT (R158). -/

namespace Sys2Proof.Machine

/-! ### Zero bytes of a command (R149) -/

section
variable {b : List Byte} {lo hi off k i m : Nat}

theorem slice_slice (h : i + m ≤ k) : slice (slice b off k) i m = slice b (off + i) m := by
  rw [slice, slice, slice, List.drop_take, List.take_take, List.drop_drop, min_eq_left (by omega)]

theorem zeroBytes_within (h : zeroBytes b lo hi = true) (hlo : lo ≤ off) (hhi : off + k ≤ hi) : ∀ x ∈ slice b off k, x = 0 := by
  intro x hx
  have hpart : slice b off k = slice (slice b lo (hi - lo)) (off - lo) k := by
    rw [slice_slice (by omega), Nat.add_sub_cancel' hlo]
  rw [hpart] at hx
  exact beq_iff_eq.mp (List.all_eq_true.mp h x (List.mem_of_mem_drop (List.mem_of_mem_take hx)))

theorem leNat_eq_zero : ∀ {l : List Byte}, (∀ x ∈ l, x = 0) → leNat l = 0
  | [], _ => rfl
  | x :: r, h => by rw [leNat, h x List.mem_cons_self, leNat_eq_zero fun y hy => h y (List.mem_cons_of_mem x hy)]; rfl

/-- A field among bytes that are zero is 0. -/
theorem fieldAt_of_zeroBytes (h : zeroBytes b lo hi = true) (hlo : lo ≤ off) (hhi : off + k ≤ hi) : fieldAt b off k = 0 :=
  leNat_eq_zero (zeroBytes_within h hlo hhi)

theorem zeroBytes_of_zeroBytes {lo' hi' : Nat} (h : zeroBytes b lo hi = true) (hlo : lo ≤ lo') (hle : lo' ≤ hi') (hhi : hi' ≤ hi) :
    zeroBytes b lo' hi' = true :=
  List.all_eq_true.mpr fun x hx => beq_iff_eq.mpr (zeroBytes_within h hlo (by omega) x hx)

theorem bits_of_lt {w : Nat} (h : w < 2 ^ (hi + 1)) : bits w hi 0 = w := by
  rw [bits, pow_zero, Nat.div_one, Nat.sub_zero, Nat.mod_eq_of_lt h]

/-- A number that fits below a bit has nothing at or above it. -/
theorem zeroBits_of_lt {w : Nat} (h : w < 2 ^ lo) : zeroBits w hi lo = true := by
  rw [zeroBits, bits, Nat.div_eq_of_lt h, Nat.zero_mod, beq_self_eq_true]

end

/-! ### The segment of a core and the registers -/

@[simp] theorem State.seg_put (s : State) (f : Field) (v : Nat) (c : CoreIx) : (s.put f v).seg c = s.seg c := rfl

theorem State.seg_modCore_keeping {s : State} {c : CoreIx} {f : Core → Core} (h : (f (s.core c)).seg = (s.core c).seg) :
    (s.modCore c f).seg c = s.seg c := by
  rw [State.seg, State.core_modCore_same, h, State.seg]

@[simp] theorem State.seg_modSeg (s : State) (c : CoreIx) (f : Seg → Seg) : (s.modSeg c f).seg c = (s.seg c).map f := by
  rw [State.seg, State.modSeg, State.core_modCore_same, State.seg]

/-! ### The issue of a command (R147, R148, R172) -/

section
variable {s : State} {c : CoreIx} {g : Seg} {b : List Byte} {op : Nat}

theorem meanwhile_of_ready (h : ready s c op = some (g, b)) (f : State → Out) : s.meanwhile c f = f s := meanwhile_of_seg (ready_seg h) f

/-- A command that does not complete at its issue leaves the wet pages of its segment. -/
theorem issueCmd_seg_wet (hseg : s.seg c = some g) : ∃ h, (s.issueCmd c g b false).seg c = some h ∧ h.wet = g.wet := by
  simp only [State.issueCmd, State.seqState, Bool.false_eq_true, if_false]
  rw [State.seg_modCore_keeping rfl]
  split
  · rw [State.seg_modCore_keeping rfl, State.seg_put, State.seg_modSeg]
    exact ⟨_, congrArg _ hseg, rfl⟩
  · rw [State.seg_put, State.seg_modSeg]
    exact ⟨_, congrArg _ hseg, rfl⟩

@[simp] theorem State.modSeg_mem (s : State) (c : CoreIx) (f : Seg → Seg) : (s.modSeg c f).mem = s.mem := rfl
@[simp] theorem State.modSeg_synd (s : State) (c : CoreIx) (f : Seg → Seg) : (s.modSeg c f).synd = s.synd := rfl

theorem issueCmd_memory (s : State) (c : CoreIx) (g : Seg) (b : List Byte) :
    (s.issueCmd c g b false).mem = s.mem ∧ (s.issueCmd c g b false).synd = s.synd := by
  simp only [State.issueCmd, State.seqState, State.bump, Bool.false_eq_true, if_false, apply_ite State.mem, apply_ite State.synd,
    State.modCore_mem, State.modCore_synd, State.put_mem, State.put_synd, State.modSeg_mem, State.modSeg_synd, ite_self, and_self]

/-- The checks of a command, one by one: the first that fails refuses it (R156). -/
theorem refuseOr_failed {ok : Bool} {a d : Nat} {r : List (Bool × Nat × Nat)} {go : State} (h : ok = false) :
    refuseOr s c (firstBreach ((ok, a, d) :: r)) go = s.descFault c a d := by
  simp only [firstBreach, h, Bool.false_eq_true, if_false, refuseOr]

theorem refuseOr_held {ok : Bool} {a d : Nat} {r : List (Bool × Nat × Nat)} {go : State} (h : ok = true) :
    refuseOr s c (firstBreach ((ok, a, d) :: r)) go = refuseOr s c (firstBreach r) go := by
  simp only [firstBreach, h, if_true]

theorem refuseOr_nil {go : State} : refuseOr s c (firstBreach []) go = go := rfl

end

/-! ### Commands that complete at their issue, and LIFT (R109, R128, R150, R152, R155) -/

section
variable {s : State} {c : CoreIx} {g : Seg} {b : List Byte}

/-- An MX_SCALES waits until the command behind it is known. -/
theorem exec_mxScales_alone (h : ready s c 0x11 = some (g, b)) (hpeek : g.peek = none) : exec (.mxScales c) s = .next s := by
  show execMxScales c s = _
  rw [execMxScales, meanwhile_of_ready h]
  simp only [h, hpeek]

theorem exec_mxScales_followed {p : Nat} {m : List Byte} (h : ready s c 0x11 = some (g, b)) (hpeek : g.peek = some (p, m)) :
    exec (.mxScales c) s = .next (refuseOr s c (firstBreach [(plainOk b 0x2C, 0, 1), (cmdOpcode m == 0x10, 0, 7)])
      (((s.issueCmd c g b true).modSeg c (fun h => { h with mx := some b, fetched := some (p, m), peek := none })).bpCheck c)) := by
  show execMxScales c s = _
  rw [execMxScales, meanwhile_of_ready h]
  simp only [h, hpeek]

theorem exec_jump_ready (h : ready s c 0x39 = some (g, b)) : exec (.jump c) s = .next
    (refuseOr s c (firstBreach [(plainOk b 0x10, 0, 1), (fieldAt b 8 8 % 64 == 0, fieldAt b 8 8, 6)])
      ((s.issueCmd c g b true).put (SEQ.CMD_PTR.ADDR c) (fieldAt b 8 8))) := by
  show execJump c s = _
  rw [execJump, meanwhile_of_ready h]
  simp only [h]

theorem exec_fence_ready (h : ready s c 0x38 = some (g, b)) : exec (.fence c) s = .next
    (refuseOr s c (firstBreach [(plainOk b 8, 0, 1)]) (s.issueCmd c g b g.work.isEmpty)) := by
  show execFence c s = _
  rw [execFence, meanwhile_of_ready h]
  simp only [h]

/-- A FENCE that every earlier command has left behind is the first command outstanding, and completes. -/
theorem exec_fence_first {w : Work} {r : List Work} (h : ready s c 0x38 = none) (hseg : s.seg c = some g) (hwork : g.work = w :: r)
    (hop : w.opcode = 0x38) (hadv : s.advances (partOf c) = true) : exec (.fence c) s = .next (s.completeWork c w.id) := by
  have hcond : (s.advances (partOf c) && w.opcode == 0x38) = true := by rw [hadv, beq_iff_eq.mpr hop, Bool.and_self]
  show execFence c s = _
  rw [execFence, meanwhile_of_seg hseg]
  simp only [h, hseg, hwork, hcond, act_true]

theorem exec_mbEnd_ready (h : ready s c 0x02 = some (g, b)) : exec (.mbEnd c) s = .next
    (refuseOr s c (firstBreach [(plainOk b 8, 0, 1), (s.ctxRd g.ctx 0x18 8 != 0, 0, 7), (g.mbSlot.isSome, 0, 7)])
      ((s.issueCmd c g b true).modSeg c (fun h => { h with mbEnd := true }))) := by
  show execMbEnd c s = _
  rw [execMbEnd, meanwhile_of_ready h]
  simp only [h]

/-- A SCALE_STEP of entries of the partition's table. -/
theorem exec_scaleStep_fits {first cnt : Nat} (h : ready s c 0x14 = some (g, b)) (hok : plainOk b 0x10 = true)
    (hfirst : fieldAt b 0x08 4 = first) (hcnt : fieldAt b 0x0C 4 = cnt) (hlow : first < 2 ^ 13) (hsome : 1 ≤ cnt)
    (hfits : first + cnt ≤ s.scaleLen (partOf c)) : exec (.scaleStep c) s = .next
      ((s.issueCmd c g b true).modSeg c (fun h =>
        { h with steps := h.steps ++ ((List.range cnt).map (fun i => first + i)).filter (fun i => i != 0) })) := by
  obtain ⟨hhead, hzero⟩ := Bool.and_eq_true_iff.mp hok
  have htable : s.scaleLen (partOf c) ≤ 8192 := Nat.min_le_left _ _
  have hmax : cnt < 2 ^ 14 := by omega
  have hcount : (cnt != 0 && decide (cnt ≤ 8192)) = true := by
    rw [Bool.and_eq_true_iff, bne_iff_ne, decide_eq_true_iff]
    omega
  show execScaleStep c s = _
  rw [execScaleStep, meanwhile_of_ready h]
  simp only [h, cmdBits, hfirst, hcnt, bits_of_lt hlow, bits_of_lt hmax, zeroBits_of_lt hlow, zeroBits_of_lt hmax, hhead, hzero, hcount,
    decide_eq_true hfits, Bool.true_or, Bool.and_self, firstBreach, if_true, refuseOr]

/-- A LIFT with its YIELD bit 0. -/
theorem exec_lift_plain (h : ready s c 0x3F = some (g, b)) (hok : plainOk b 8 = true) : exec (.lift c) s = .next
    (((s.issueCmd c g b false).modSeg c (fun h => { h with
        work := g.work, lift := some { dueC := 0, dueS := 0, flipped := false, yield := false, begun := false } })).put
      (SEQ.STATE.STATE c) 3) := by
  obtain ⟨hhead, hzero⟩ := Bool.and_eq_true_iff.mp hok
  have hyield : cmdBits b 8 1 0 0 = 0 := by rw [cmdBits, fieldAt_of_zeroBytes hzero (by decide) (by decide)]; rfl
  have hres : zeroBits (fieldAt b 8 8) 63 1 = true := by rw [fieldAt_of_zeroBytes hzero (by decide) (by decide)]; rfl
  have htail : zeroBytes b 0x10 0x40 = true := zeroBytes_of_zeroBytes hzero (by decide) (by decide) (by decide)
  show execLift c s = _
  rw [execLift, meanwhile_of_ready h]
  simp only [h, hyield, hres, htail, hhead, Bool.and_self, firstBreach, if_true, refuseOr]
  rfl

theorem exec_lift_begins (h : ready s c 0x3F = some (g, b)) (hok : plainOk b 8 = true) : Completes (.lift c) s (fun t =>
    t.get (SEQ.STATE.STATE c) = 3 ∧ t.mem = s.mem ∧ t.synd = s.synd
      ∧ ∃ h l, t.seg c = some h ∧ h.lift = some l ∧ l.yield = false ∧ l.flipped = false ∧ h.work = g.work ∧ h.wet = g.wet) := by
  obtain ⟨x, hx, hwet⟩ := issueCmd_seg_wet (b := b) (ready_seg h)
  obtain ⟨hmem, hsynd⟩ := issueCmd_memory s c g b
  refine ⟨_, exec_lift_plain h hok, State.get_put_same _ _ _, hmem, hsynd, ?_⟩
  rw [State.seg_put, State.seg_modSeg, hx]
  exact ⟨_, _, rfl, rfl, rfl, rfl, rfl, hwet⟩

end

end Sys2Proof.Machine

namespace Sys2Proof.Proofs

open Sys2Proof.Machine

/-- Settles O28: each command's checks, and then its effect. -/
theorem plainCommands : Obligations.PlainCommands := by
  intro s c g b _
  refine ⟨fun h => ?_, fun h hok => ?_, fun h hbad => ?_, fun h hok => ?_, fun w r h hseg hwork hop => exec_fence_first h hseg hwork hop,
    fun h hok hstash hslot => ?_, fun h hok hslot => ?_, fun h hok => exec_scaleStep_fits h hok rfl rfl, exec_lift_begins⟩
  · refine ⟨exec_mxScales_alone h, fun p m hpeek => ?_⟩
    rw [exec_mxScales_followed h hpeek]
    refine ⟨fun hok hmm => ?_, fun hok hmm => ?_, fun hbad => ?_⟩
    · rw [refuseOr_held hok, refuseOr_held (beq_iff_eq.mpr hmm), refuseOr_nil]
    · rw [refuseOr_held hok, refuseOr_failed (beq_eq_false_iff_ne.mpr hmm)]
    · rw [refuseOr_failed hbad]
  · rw [exec_jump_ready h, refuseOr_held hok]
    refine ⟨fun hal => ?_, fun hal => ?_⟩
    · rw [refuseOr_held (beq_iff_eq.mpr hal), refuseOr_nil]
    · rw [refuseOr_failed (beq_eq_false_iff_ne.mpr hal)]
  · rw [exec_jump_ready h, refuseOr_failed hbad]
  · rw [exec_fence_ready h, refuseOr_held hok, refuseOr_nil]
  · rw [exec_mbEnd_ready h, refuseOr_held hok, refuseOr_held (bne_iff_ne.mpr hstash), refuseOr_held hslot, refuseOr_nil]
  · have hclosed : g.mbSlot.isSome = false := Option.isSome_eq_false_iff.mpr (Option.isNone_iff_eq_none.mpr hslot)
    rw [exec_mbEnd_ready h, refuseOr_held hok]
    by_cases hstash : s.ctxRd g.ctx 0x18 8 = 0
    · rw [refuseOr_failed (bne_eq_false_iff_eq.mpr hstash)]
    · rw [refuseOr_held (bne_iff_ne.mpr hstash), refuseOr_failed hclosed]

end Sys2Proof.Proofs

end

section
/-! PROOF. The pen lift: L, C and S (R158, R160, R165, R167, R181), its landing at the end of an aclk (R109), and the ends of holds (R162, R164, R169,
R177, R180). -/

namespace Sys2Proof.Machine

/-! ### L, C and S of a lift (R158, R167, R176, R177) -/

/-- What S of a lift does before its context keeps or leaves the core. -/
def State.liftEffects (s : State) (c : CoreIx) (g : Seg) : State :=
  let u := (((g.semOps.foldl (fun t o => t.semOp c g.ctx o) s).releaseQueue c).failDetached (partOf c)).countLift c g
  if (s.core c).stepWork.isSome then (u.modCore c (fun k => { k with stepWork := none })).put (DBG.CORE_c.STEPPING c) 0 else u

section
variable {s : State} {c : CoreIx} {g : Seg} {l : LiftSt} (hseg : s.seg c = some g) (hlift : g.lift = some l)
include hseg hlift

theorem exec_penLift_lifting : exec (.penLift c) s = .next
    (if s.advances (partOf c) && !l.begun && g.work.isEmpty then s.modSeg c (fun h => { h with lift := some { l with
      begun := true, dueC := liftStart g (s.slot (partOf c)) + fillTime g + 8, tierTo := s.slot (partOf c) + fillFar g } }) else s) := by
  show execPenLift c s = _
  simp only [execPenLift, hseg, hlift, act]

/-- Before C nothing flips. -/
theorem exec_wetPageFlip_early (h : s.slot (partOf c) < l.dueC) : exec (.wetPageFlip c) s = .next s := by
  show execWetPageFlip c s = _
  rw [execWetPageFlip, meanwhile_of_seg hseg]
  simp only [hseg, hlift, decide_eq_false (Nat.not_le.mpr h), Bool.and_false, Bool.false_eq_true, if_false]

/-- C of a lift that releases nothing behind a fence. -/
theorem exec_wetPageFlip_due (hadv : s.advances (partOf c) = true) (hbegun : l.begun = true) (hflip : l.flipped = false)
    (hdue : l.dueC ≤ s.slot (partOf c)) (hfence : ∀ o ∈ g.semOps, o.delta = none → fencedFor s c o.addr = false) :
    exec (.wetPageFlip c) s = .next (match failedRelease s g with
      | some o => s.leaseLost c g o
      | none => if killDue s c then s else s.modSeg c (fun h => { h with lift := some { l with atC := true } })) := by
  have hnone : g.semOps.find? (fun o => o.delta.isNone && fencedFor s c o.addr) = none :=
    List.find?_eq_none.mpr fun o ho hbad => by
      obtain ⟨hrel, hfar⟩ := Bool.and_eq_true_iff.mp hbad
      rw [hfence o ho (Option.isNone_iff_eq_none.mp hrel)] at hfar
      cases hfar
  show execWetPageFlip c s = _
  rw [execWetPageFlip, meanwhile_of_seg hseg]
  simp only [hseg, hlift, hadv, hbegun, hflip, decide_eq_true hdue, hnone, Bool.not_false, Bool.and_self, if_true]
  cases failedRelease s g with
  | some o => rfl
  | none => cases killDue s c <;> rfl

theorem exec_penLiftComplete_due {v : State} (hv : s.liftEffects c g = v) (hadv : s.advances (partOf c) = true) (hflip : l.flipped = true)
    (hatC : l.atC = false) (hdue : l.dueS ≤ s.slot (partOf c)) : exec (.penLiftComplete c) s = .next
      (if keepsCore v c g l then (v.modCore c (fun k => { k with seg := some (newSeg v c g.ctx g.row 2) })).showSeg c g.ctx
      else (v.leaveCore c g l).pick c) := by
  rw [State.liftEffects] at hv
  show execPenLiftComplete c s = _
  simp only [execPenLiftComplete, hseg, hlift, hadv, hflip, hatC, decide_eq_true hdue, Bool.not_false, Bool.and_self, if_true, hv]
  cases keepsCore v c g l <;> rfl

theorem liftAtC_of_lift : liftAtC s c = if l.atC then some (g, l) else none := by
  simp only [liftAtC, hseg, hlift]

/-- The merges of a lift whose C is this aclk, and its scale steps. -/
theorem landMerge_atC (h : l.atC = true) : s.landMerge c = s.flip c g l := by
  simp only [State.landMerge, liftAtC_of_lift hseg hlift, h, if_true]

theorem landSteps_atC (h : l.atC = true) : s.landSteps c
    = (g.steps.foldl (fun t i => t.scaleStep (partOf c) i g.ctx) s).modSeg c (fun h =>
        { h with steps := [], lift := some { l with atC := false } }) := by
  simp only [State.landSteps, liftAtC_of_lift hseg hlift, h, if_true]

/-- A lift whose C is not this aclk does not land in it. -/
theorem land_not_atC (h : l.atC = false) : s.landMerge c = s ∧ s.landSteps c = s := by
  simp only [State.landMerge, State.landSteps, liftAtC_of_lift hseg hlift, h, Bool.false_eq_true, if_false, and_self]

end

/-! ### Ends of holds (R162, R164, R169, R180) -/

section
variable {s : State} {c : CoreIx} {g : Seg}

theorem modCore_congr {f f' : Core → Core} (h : f (s.core c) = f' (s.core c)) : s.modCore c f = s.modCore c f' := congrArg (s.setCore c) h

/-- A segment held by wet conflicts whose owners are all gone runs on. -/
theorem exec_wetConflictEnd_runs (hseg : s.seg c = some g) (hnone : (s.core c).conflict = []) (hheld : g.heldBy ≠ [])
    (hgone : ∀ p ∈ g.heldBy, ownerGone s p.1 p.2.1 = true) : exec (.wetConflictEnd c) s
      = .next (((s.modCore c (fun k => { k with conflict := [] })).modSeg c (fun h => { h with heldBy := [] })).put (SEQ.STATE.STATE c)
          (if g.lift.isSome then 3 else 1)) := by
  have hleft : g.heldBy.filter (fun p => !(ownerGone s p.1 p.2.1)) = [] :=
    List.filter_eq_nil_iff.mpr fun p hp => by rw [hgone p hp]; decide
  have hconf : s.modCore c (fun k => { k with conflict := k.conflict.filter (fun p => !(ownerGone s p.2.1 p.2.2)) })
      = s.modCore c (fun k => { k with conflict := [] }) := modCore_congr (by rw [hnone]; rfl)
  have hkept : (s.modCore c (fun k => { k with conflict := [] })).seg c = some g := (State.seg_modCore_keeping rfl).trans hseg
  show execWetConflictEnd c s = _
  simp only [execWetConflictEnd, hconf, hkept, hleft, hnone, List.filter_nil, List.foldl_nil, List.isEmpty_eq_false_iff.mpr hheld,
    List.isEmpty_nil, Bool.not_true, Bool.or_false, Bool.false_eq_true, if_false, State.seqState]

/-- A context killed for a wet conflict may be picked again once the owner is gone. -/
theorem exec_wetConflictEnd_picks {k d gen : Nat} (hseg : s.seg c = none) (hone : (s.core c).conflict = [(k, d, gen)])
    (hgone : ownerGone s d gen = true) : exec (.wetConflictEnd c) s
      = .next ((s.modCore c (fun q => { q with conflict := [] })).pickGroup k) := by
  have hconf : s.modCore c (fun q => { q with conflict := q.conflict.filter (fun p => !(ownerGone s p.2.1 p.2.2)) })
      = s.modCore c (fun q => { q with conflict := [] }) := modCore_congr (by rw [hone]; simp [hgone])
  have hkept : (s.modCore c (fun q => { q with conflict := [] })).seg c = none := (State.seg_modCore_keeping rfl).trans hseg
  have hfreed : [(k, d, gen)].filter (fun p => ownerGone s p.2.1 p.2.2) = [(k, d, gen)] := List.filter_cons_of_pos hgone
  show execWetConflictEnd c s = _
  simp only [execWetConflictEnd, hconf, hkept, hone, hfreed, List.foldl_cons, List.foldl_nil]

theorem exec_inkHoldEnd_room (hpool : (s.part (partOf c)).poolFree.any (fun l => !l.isEmpty) = true) (hroom : 0 < s.outqFree (partOf c)) :
    exec (.inkHoldEnd c) s = .next (s.modSeg c (fun g => { g with poolHold := false, queueHold := false })) := by
  show execInkHoldEnd c s = _
  simp only [execInkHoldEnd, hpool, decide_eq_true hroom, Bool.not_true, Bool.and_false]

theorem exec_seqCtrlKill_runs (hruns : s.runs (partOf c) = true) :
    exec (.seqCtrlKill c) s = .next ((s.afterBoundary (partOf c)).killOrAlso c 10) := by
  show act s (s.runs (partOf c)) _ = _
  rw [hruns, act_true]

theorem killAlso_of_no_kill {cause : Nat} (h : s.killedNow c = none) : s.killAlso c cause = s := by
  simp only [State.killAlso, h]

theorem exec_sequencerReady_due (hruns : s.runs (partOf c) = true) (hstate : s.get (SEQ.STATE.STATE c) = 4) (hseg : (s.core c).seg = none)
    (hdue : (s.core c).canIssue ≤ s.time) : exec (.sequencerReady c) s = .next ((s.put (SEQ.STATE.STATE c) 0).pick c) := by
  show act s _ _ = _
  simp only [hruns, hstate, hseg, decide_eq_true hdue, beq_self_eq_true, Option.isNone_none, Bool.and_self, act_true, State.seqState]

end

end Sys2Proof.Machine

namespace Sys2Proof.Proofs

open Sys2Proof.Machine

/-- Settles O44: L, C and S of a lift, its landing at the end of the aclk of its C, and the ends of holds. -/
theorem liftsHoldsAndKills : Obligations.LiftsHoldsAndKills := by
  refine ⟨fun s c g l hadv hseg hlift => ⟨fun hbegun hwork => ?_, fun hwork => ?_, fun hbegun hflip hdue hfence => ?_,
      exec_wetPageFlip_early hseg hlift, fun u v hflip hatC hdue hu hv => ?_⟩,
    fun s c g l hseg hlift =>
      ⟨fun h => ⟨landMerge_atC hseg hlift h, landSteps_atC hseg hlift h⟩, land_not_atC hseg hlift, rfl⟩,
    fun s c n g d gen => ⟨exec_wetConflictEnd_runs, fun k => exec_wetConflictEnd_picks, exec_inkHoldEnd_room, fun u hruns hu => ?_,
      exec_sequencerReady_due, fun w r hdry => ?_, fun w r hdry hpush => ?_, fun hdry hpush => ?_⟩⟩
  · rw [exec_penLift_lifting hseg hlift, if_pos (by simp [hadv, hbegun, hwork])]
  · rw [exec_penLift_lifting hseg hlift, if_neg (by simp [hwork])]
  · rw [exec_wetPageFlip_due hseg hlift hadv hbegun hflip hdue hfence]
    refine ⟨fun hrel hkill => ?_, fun hrel hkill => ?_, fun o hrel => ?_⟩
    · simp only [hrel, hkill, Bool.false_eq_true, if_false]
    · simp only [hrel, hkill, if_true]
    · rw [hrel]
  · have heffects : s.liftEffects c g = v := by rw [hv, hu, State.liftEffects]
    rw [exec_penLiftComplete_due hseg hlift heffects hadv hflip hatC hdue]
    exact ⟨fun hk => by rw [hk]; rfl, fun hk => by rw [hk]; rfl⟩
  · rw [exec_seqCtrlKill_runs hruns, ← hu]
    exact ⟨fun hk => by rw [killOrAlso_running 10 hk], fun hk => ⟨by rw [killOrAlso_killed 10 hk], killAlso_of_no_kill⟩⟩
  · show execDryPageReturn n s = _
    simp only [execDryPageReturn, hdry]
  · show execDryPageReturn n s = _
    simp only [execDryPageReturn, hdry, hpush]
  · show execDryPageReturn n s = _
    simp only [execDryPageReturn, hdry, hpush]

end Sys2Proof.Proofs

end

section
/-! PROOF. Operands of a command at its issue (R156, R171), and COPY in its forms (R134, R145, R150, R155, R253). -/

namespace Sys2Proof.Machine

/-! ### The checks of a command and of its operands (R156, R161, R171) -/

section
variable {s : State} {c : CoreIx} {g : Seg} {b : List Byte}

theorem firstBreach_held {ok : Bool} {a d : Nat} {r : List (Bool × Nat × Nat)} (h : ok = true) :
    firstBreach ((ok, a, d) :: r) = firstBreach r := if_pos h

theorem firstBreach_failed {ok : Bool} {a d : Nat} {r : List (Bool × Nat × Nat)} (h : ok = false) :
    firstBreach ((ok, a, d) :: r) = some (a, d) := if_neg (Bool.eq_false_iff.mp h)

theorem translated_nil (s : State) (c : CoreIx) (ctx : Nat) : translated s c ctx [] := rfl

theorem checked_refused {ctx a d : Nat} {ranges : List (Nat × Nat × Bool)} {sound : List (Nat × Nat)} (go : State → State) :
    checked s c ctx (some (a, d)) ranges sound go = s.descFault c a d := rfl

/-- A command does not wait for what it reads at its issue where that is sound and in local memory. -/
theorem withRemote_of_sound {rs : List (Nat × Nat)} (go : State → State) (h : localSound s c g.ctx rs) :
    withRemote s c g rs go = go s :=
  withRemote_of_local go fun r hr => by
    obtain ⟨hnear, -, -⟩ := h r hr
    exact hnear

/-- The segment of the core, where a command looks it up again. -/
theorem getD_seg {x : Seg} (h : s.seg c = some g) : (s.seg c).getD x = g := by rw [h, Option.getD_some]

/-- A unit that has its claim goes on, and one whose command must hold leaves what records the hold. -/
theorem Got.run_ok {r : Got} {t : State} (go : State → State) (h : r = .ok t) : r.run c go = go t := by rw [h, Got.run]

theorem Got.run_wait {r : Got} {t : State} (go : State → State) (h : r = .wait t) : r.run c go = t := by rw [h, Got.run]

end

/-! ### COPY at its issue (R134, R155, R253) -/

/-- The first rule that a gather breaks behind those of every COPY: its descriptor is valid, and of the length of the shard without its
stamp (R134, R253). -/
def gatherBreach (s : State) (n : PartIx) (b : List Byte) : Option (Nat × Nat) :=
  firstBreach [(s.descOk n (cpDst b % 4096), 0, 4),
    (cpLen b == 64 + ((gatherParts s n (cpDst b % 4096) 0).map Prod.snd).sum, 0, 7)]

section
variable {s : State} {n : PartIx} {b : List Byte}

theorem gatherBreach_of_invalid (hdesc : s.descOk n (cpDst b % 4096) = false) : gatherBreach s n b = some (0, 4) :=
  firstBreach_failed hdesc

theorem gatherBreach_of_length (hdesc : s.descOk n (cpDst b % 4096) = true)
    (hlen : cpLen b ≠ 64 + ((gatherParts s n (cpDst b % 4096) 0).map Prod.snd).sum) : gatherBreach s n b = some (0, 7) :=
  (firstBreach_held hdesc).trans (firstBreach_failed (beq_eq_false_iff_ne.mpr hlen))

theorem gatherBreach_of_fits (hdesc : s.descOk n (cpDst b % 4096) = true)
    (hlen : cpLen b = 64 + ((gatherParts s n (cpDst b % 4096) 0).map Prod.snd).sum) : gatherBreach s n b = none :=
  (firstBreach_held hdesc).trans (firstBreach_held (beq_iff_eq.mpr hlen))

end

section
variable {s : State} {c : CoreIx} {g : Seg} {b : List Byte} {form : List Byte → Bool} {more : State → List Byte → Option (Nat × Nat)}
  {ranges : State → List Byte → List (Nat × Nat × Bool)} (h : ready s c 0x20 = some (g, b))
include h

/-- A COPY waits for the mover. -/
theorem issueCopy_waits (hfree : moverFree s c = false) : issueCopy c form more ranges s = .next s := by
  simp only [issueCopy, h, hfree, Bool.and_false, Bool.false_eq_true, if_false]

section
variable (hform : form b = true) (hfree : moverFree s c = true)
include hform hfree

/-- A COPY with a breach of its fields, or, behind those, of the rules of its form. -/
theorem issueCopy_field_breach {a d : Nat} (hbreach : copyBreach b = some (a, d)) :
    issueCopy c form more ranges s = .next (s.descFault c a d) := by
  simp only [issueCopy, h, hform, hfree, hbreach, checked_refused, Bool.and_self, if_true]

theorem issueCopy_form_breach {a d : Nat} (hbreach : copyBreach b = none) (hmore : more s b = some (a, d)) :
    issueCopy c form more ranges s = .next (s.descFault c a d) := by
  simp only [issueCopy, h, hform, hfree, hbreach, hmore, checked_refused, Bool.and_self, if_true]

/-- A COPY without a breach takes its places in the outbound queue and goes to the mover. -/
theorem issueCopy_passes (hbreach : copyBreach b = none) (hmore : more s b = none) (htr : translated s c g.ctx (ranges s b)) :
    issueCopy c form more ranges s
      = .next ((s.copyClaims c g.ctx g.nextId b).run c (fun u => u.toMover c ((u.seg c).getD g) b)) := by
  simp only [issueCopy, h, hform, hfree, hbreach, hmore, checked_passes _ htr (localSound_nil s c g.ctx), Bool.and_self, if_true]

end

/-- The three forms, each with its own rules and operands. -/
theorem exec_copy_issues : exec (.copy c) s
    = issueCopy c (fun b => !cpFill b && !cpWdesc b) (fun _ _ => none) (fun _ b => copyRanges b) s :=
  meanwhile_of_ready h _

theorem exec_copyFill_issues : exec (.copyFill c) s
    = issueCopy c (fun b => cpFill b && !cpWdesc b) (fun _ _ => none) (fun _ b => copyRanges b) s :=
  meanwhile_of_ready h _

theorem exec_copyGather_issues : exec (.copyGather c) s = issueCopy c cpWdesc (fun s b => gatherBreach s (partOf c) b)
    (fun s b => [0, 1].flatMap (fun v => (gatherParts s (partOf c) (cpDst b % 4096) v).map (fun r => (r.1, r.2, true)))) s := by
  show execCopyGather c s = _
  rw [execCopyGather, meanwhile_of_ready h]
  rfl

end

/-! ### The mover has moved a command's bytes (R145, R148) -/

section
variable {s : State} {c : CoreIx} {g : Seg} {m : MovOp} {r : List MovOp} {op : Nat}

/-- The last byte of the mover's running command, of opcode op, has been moved. -/
def moverDue (s : State) (c : CoreIx) (m : MovOp) (op : Nat) : Bool :=
  s.advances (partOf c) && m.started && cmdOpcode m.cmd == op && decide (m.due ≤ s.slot (partOf c)) && remoteDone s c m.work

theorem moverDue_iff : moverDue s c m op = true ↔ s.advances (partOf c) = true ∧ m.started = true ∧ cmdOpcode m.cmd = op
    ∧ m.due ≤ s.slot (partOf c) ∧ remoteDone s c m.work = true := by
  simp only [moverDue, Bool.and_eq_true, beq_iff_eq, decide_eq_true_eq, and_assoc]

theorem exec_copyComplete_due (hseg : s.seg c = some g) (hmover : (s.core c).mover = m :: r) (hdue : moverDue s c m 0x20 = true) :
    exec (.copyComplete c) s = .next (if cpWdesc m.cmd then s.gatherStep c g m
      else (copyClaim s c g.ctx m.cmd).run c (fun t =>
        ((t.copyPoison c g.ctx m.cmd).copyOut c g.ctx m.work m.cmd (copyData t c g.ctx m.cmd).1 (copyData t c g.ctx m.cmd).2).moverDone c
          m.work)) := by
  rw [moverDue] at hdue
  show execCopyComplete c s = _
  rw [execCopyComplete, meanwhile_of_seg hseg]
  simp only [hseg, hmover, hdue, if_true]
  cases cpWdesc m.cmd <;> rfl

end

end Sys2Proof.Machine

namespace Sys2Proof.Proofs

open Sys2Proof.Machine

/-- Settles O31: the issue of a COPY, which its forms share, and the end of its move. -/
theorem copies : Obligations.Copies := by
  intro s c g b hseg
  refine ⟨fun h => ⟨fun hok hfree htr hform => ⟨fun v hv => ⟨fun hfill => ?_, fun hfill => ?_⟩, fun v hv hfill => ?_⟩,
    fun hok hfree hform hdesc hlen htr => ?_, fun a d hbad hfree => ⟨fun hform hfill => ?_, fun hform hfill => ?_, fun hform => ?_⟩,
    fun hok hfree hform => ⟨fun hdesc => ?_, fun hdesc hlen => ?_⟩, fun hbusy => ?_⟩, fun m r hmover hadv hstart hop hdue hdone => ?_⟩
  · rw [exec_copy_issues h, issueCopy_passes h (by rw [hfill, hform]; rfl) hfree hok rfl htr, Got.run_ok _ hv]
  · rw [exec_copyFill_issues h, issueCopy_passes h (by rw [hfill, hform]; rfl) hfree hok rfl htr, Got.run_ok _ hv]
  · rw [exec_copy_issues h, issueCopy_passes h (by rw [hfill, hform]; rfl) hfree hok rfl htr, Got.run_wait _ hv]
  · have hclaim : s.copyClaims c g.ctx g.nextId b = .ok s := by rw [State.copyClaims, if_pos hform]
    rw [exec_copyGather_issues h, issueCopy_passes h hform hfree hok (gatherBreach_of_fits hdesc hlen) htr, Got.run_ok _ hclaim, getD_seg hseg]
  · rw [exec_copy_issues h, issueCopy_field_breach h (by rw [hfill, hform]; rfl) hfree hbad]
  · rw [exec_copyFill_issues h, issueCopy_field_breach h (by rw [hfill, hform]; rfl) hfree hbad]
  · rw [exec_copyGather_issues h, issueCopy_field_breach h hform hfree hbad]
  · rw [exec_copyGather_issues h, issueCopy_form_breach h hform hfree hok (gatherBreach_of_invalid hdesc)]
  · rw [exec_copyGather_issues h, issueCopy_form_breach h hform hfree hok (gatherBreach_of_length hdesc hlen)]
  · rw [exec_copy_issues h, exec_copyFill_issues h, exec_copyGather_issues h]
    exact ⟨issueCopy_waits h hbusy, issueCopy_waits h hbusy, issueCopy_waits h hbusy⟩
  · rw [exec_copyComplete_due hseg hmover (moverDue_iff.mpr ⟨hadv, hstart, hop, hdue, hdone⟩)]
    exact ⟨fun hform => by rw [if_pos hform], fun hform => by rw [if_neg (Bool.eq_false_iff.mp hform)]⟩

end Sys2Proof.Proofs

end

section
/-! PROOF. ROWOP at its issue (R123, R125, R147, R153, R154), and the end of its operation (R119, R124, R148). -/

namespace Sys2Proof.Machine

/-! ### ROWOP at its issue (R125, R147, R153, R154) -/

/-- A ROWOP goes to the row engine as operation o (R147). -/
def State.toRowEngine (s : State) (c : CoreIx) (g : Seg) (b : List Byte) (o : RowOp) : State :=
  let v := s.modCore c (fun k => { k with rowEng := some o })
  (v.needRemote c 1 g.nextId (((rowRanges b o.param).filter (fun q => !q.2.2)).flatMap
    (fun q => chartRanges v c g.ctx (pageCount q.1 q.2.1) q.1 q.2.1))).issueCmd c g b false

/-- The valid elements of a row of a ROWOP, and its valid groups: its own, or those of the shard descriptor that its parameter block names
(R143, R153). -/
def rowValid (s : State) (c : CoreIx) (ctx : Nat) (b p : List Byte) : Nat :=
  if rpShard p = 0 then roDv b else (shardAt s c ctx (rpShard p)).2.2.2.1

def rowGroups (s : State) (c : CoreIx) (ctx : Nat) (b p : List Byte) : Nat :=
  if rpShard p = 0 then rowValid s c ctx b p else min (rowValid s c ctx b p) (shardAt s c ctx (rpShard p)).2.2.2.2.2

/-- The operation of a ROWOP issued now, with its parameter block. -/
def rowOperation (s : State) (c : CoreIx) (g : Seg) (b p : List Byte) : RowOp :=
  { work := g.nextId, cmd := b, param := p, dv := rowValid s c g.ctx b p, groups := rowGroups s c g.ctx b p,
    due := s.slot (partOf c) + rowTime b }

section
variable {s : State} {c : CoreIx} {g : Seg} {b : List Byte} (h : ready s c 0x12 = some (g, b))
include h

theorem exec_rowop_busy (hbusy : (s.core c).rowEng.isSome = true) : exec (.rowop c) s = .next s := by
  show execRowop c s = _
  rw [execRowop, meanwhile_of_ready h]
  simp only [h, hbusy, if_true]

section
variable (hidle : (s.core c).rowEng = none)
include hidle

theorem exec_rowop_breach {a d : Nat} (hbreach : rowBreach b = some (a, d)) : exec (.rowop c) s = .next (s.descFault c a d) := by
  show execRowop c s = _
  rw [execRowop, meanwhile_of_ready h]
  simp only [h, hidle, hbreach, checked_refused, Option.isSome_none, Bool.false_eq_true, if_false]

/-- A ROWOP without a breach, its parameter block p and its operands at hand: its marginalia are checked, and it goes to the row engine. -/
theorem exec_rowop_passes {p : List Byte} (hbreach : rowBreach b = none) (htr : translated s c g.ctx [(roParam b, 128, false)])
    (hparam : localSound s c g.ctx [(roParam b, 128)]) (hp : p = (objRead s c g.ctx (roParam b) 128).1)
    (hshard : rpShard p ≠ 0 → translated s c g.ctx [(rpShard p, 16, false)] ∧ localSound s c g.ctx [(rpShard p, 16)])
    (hrules : paramBreach s c g.ctx b p = none) (hops : translated s c g.ctx (rowRanges b p))
    (hmarg : readsMarg (roOp b) = true → roMargAddr b = true →
      chartRanges s c g.ctx (pageCount (rpMarg p) (16 * roRows b)) (rpMarg p) (16 * roRows b) = []) :
    exec (.rowop c) s = .next (if readsMarg (roOp b) && !((List.range (roRows b)).all (margReadOk s c g b p)) then s.margFault c g b p
      else s.toRowEngine c g b (rowOperation s c g b p)) := by
  have hshardTr : translated s c g.ctx (if rpShard p = 0 then [] else [(rpShard p, 16, false)]) := by
    split
    · exact translated_nil s c g.ctx
    · next hz => exact (hshard hz).1
  have hshardSound : localSound s c g.ctx (if rpShard p = 0 then [] else [(rpShard p, 16)]) := by
    split
    · exact localSound_nil s c g.ctx
    · next hz => exact (hshard hz).2
  have hmargNear : ∀ r ∈ (if readsMarg (roOp b) && roMargAddr b then [(rpMarg p, 16 * roRows b)] else [] : List (Nat × Nat)),
      chartRanges s c g.ctx (pageCount r.1 r.2) r.1 r.2 = [] := by
    split
    · next hreads =>
      obtain ⟨hop, haddr⟩ := Bool.and_eq_true_iff.mp hreads
      intro r hr
      rw [List.mem_singleton.mp hr]
      exact hmarg hop haddr
    · exact fun _ hr => absurd hr List.not_mem_nil
  have hnil := localSound_nil s c g.ctx
  show execRowop c s = _
  rw [execRowop, meanwhile_of_ready h]
  simp only [h, hidle, hbreach, Option.isSome_none, Bool.false_eq_true, if_false]
  rw [checked_passes _ htr hnil, getD_seg (ready_seg h), withRemote_of_sound _ hparam, checked_passes _ (translated_nil s c g.ctx) hparam,
    ← hp, checked_passes _ hshardTr hnil, getD_seg (ready_seg h), withRemote_of_sound _ hshardSound,
    checked_passes _ (translated_nil s c g.ctx) hshardSound, hrules, checked_passes _ hops hnil, getD_seg (ready_seg h),
    withRemote_of_local _ hmargNear]
  rfl

end

end

/-! ### The end of a row operation (R119, R124, R148) -/

/-- What a row operation writes: with MXFP8, its ranges hold the scale bytes behind each row's elements (R96, R153; log entry 32). -/
def rowWrites (b p : List Byte) : List (Nat × Nat) :=
  ((rowRanges b p).filterMap (fun r => if r.2.2 then some (r.1, r.2.1) else none)).map
    (fun r => if roOut b = 5 then (r.1, r.2 + ceilDiv (roD b) 32) else r)

theorem rowWrites_eq (b p : List Byte) : rowWrites b p =
    let w := (rowRanges b p).filterMap (fun r => if r.2.2 then some (r.1, r.2.1) else none)
    if roOut b = 5 then w.map (fun r => (r.1, r.2 + ceilDiv (roD b) 32)) else w := by
  rw [rowWrites]
  by_cases hout : roOut b = 5
  · simp only [hout, if_true]
  · simp only [hout, if_false, List.map_id']

/-- The rows of an operation are computed and stored, and its gradient vectors are sent to the bank-side adders; the row engine is free
(R119, R124). -/
def State.finishRows (t : State) (c : CoreIx) (g : Seg) (o : RowOp) : State :=
  let u := (t.writes c o.work).consume c g.ctx 8 0 o.cmd (rowReads o.cmd o.param o.dv)
  let fmt := if rpGB16 o.param then 1 else 0
  let gs := if usesGamma (roOp o.cmd) then rowValues u c g.ctx (rpGamma o.param) fmt o.dv else []
  let bs := if usesBeta (roOp o.cmd) then rowValues u c g.ctx (rpBeta o.param) fmt o.dv else []
  let zs := List.replicate (if usesDGamma (roOp o.cmd) then o.dv else 0) Num.zero
  let r := rowAll c g o gs bs (roRows o.cmd) (u, zs, if usesDBeta (roOp o.cmd) then zs else [])
  let v := if usesDGamma (roOp o.cmd) then r.1.addVec c g.ctx (rpDGamma o.param) r.2.1 else r.1
  let w := if usesDBeta (roOp o.cmd) then v.addVec c g.ctx (rpDBeta o.param) r.2.2 else v
  (w.modCore c (fun k => { k with rowEng := none })).completeWork c o.work

section
variable {s : State} {c : CoreIx} {g : Seg} {o : RowOp} (hseg : s.seg c = some g) (heng : (s.core c).rowEng = some o)
include hseg heng

/-- The rows of an operation of the row engine take their time (R120). -/
theorem exec_rowopComplete_early (hdue : s.slot (partOf c) < o.due) : exec (.rowopComplete c) s = .next s := by
  show execRowopComplete c s = _
  rw [execRowopComplete, meanwhile_of_seg hseg]
  simp only [hseg, heng, decide_eq_false (Nat.not_le.mpr hdue), Bool.and_false, Bool.false_and, Bool.false_eq_true, if_false]

/-- An operation that is due, what it reads sound and the pages of its results taken, computes its rows and completes (R124, R148). -/
theorem exec_rowopComplete_due {t : State} (hadv : s.advances (partOf c) = true) (hdone : remoteDone s c o.work = true)
    (hdue : o.due ≤ s.slot (partOf c)) (hsound : localSound s c g.ctx (rowSound o.cmd o.param))
    (hclaim : claimRanges c g.ctx (rowWrites o.cmd o.param) s = .ok t) : exec (.rowopComplete c) s = .next (t.finishRows c g o) := by
  rw [rowWrites_eq] at hclaim
  show execRowopComplete c s = _
  rw [execRowopComplete, meanwhile_of_seg hseg]
  simp only [hseg, heng, hadv, hdone, decide_eq_true hdue, Bool.and_self, if_true]
  rw [checked_passes _ (translated_nil s c g.ctx) hsound, Got.run_ok _ hclaim]
  rfl

end

end Sys2Proof.Machine

namespace Sys2Proof.Proofs

open Sys2Proof.Machine

/-- Settles O33: the issue of a ROWOP by what the row engine and the marginalia allow, and the end of its operation by its time. -/
theorem rowOperations : Obligations.RowOperations := by
  intro s c g b hseg
  refine ⟨fun h => ⟨exec_rowop_busy h, fun a d hidle => exec_rowop_breach h hidle,
    fun p dv groups hidle hbreach htr hparam hp hshard hdv hgroups hrules hops hmarg => ?_⟩,
    fun o heng hadv hdone => ⟨exec_rowopComplete_early hseg heng, ?_⟩⟩
  · rw [exec_rowop_passes h hidle hbreach htr hparam hp hshard hrules hops hmarg]
    refine ⟨fun hreads hbad => ?_, fun hok => ?_⟩
    · rw [hreads, hbad]
      rfl
    · have hgood : (readsMarg (roOp b) && !((List.range (roRows b)).all (margReadOk s c g b p))) = false := by
        rw [Bool.and_eq_false_iff, Bool.not_eq_false']
        exact hok
      subst hgroups hdv
      rw [hgood]
      exact ⟨_, rfl, rfl⟩
  · intro ws t u v1 v2 gs bs zs r hdue hsound hws hclaim hu hgs hbs hzs hr hv1 hv2
    subst hws hv2 hv1 hr hzs hbs hgs hu
    exact exec_rowopComplete_due hseg heng hadv hdone hdue hsound hclaim

end Sys2Proof.Proofs

end

section
/-! PROOF. UPDATE and the sum of squares (R135, R139, R140, R142, R148), and slot changes that wait for latches (R136). -/

namespace Sys2Proof.Machine

/-! ### UPDATE at its issue (R135, R139) -/

/-- UPD_BUF of an update: the buffer claimed before it where UPD_PENDING is set, otherwise that of ACC_SEL (R139 step 2). -/
def gradBuffer (s : State) (n : PartIx) (i : Nat) : Nat :=
  if bit (s.wd n i 0 1) 3 then bits (s.wd n i 0 1) 4 4 else bits (s.wd n i 0 1) 2 2

/-- What an update reads as it starts: its hyper-parameters, and its descriptor's shard descriptor, if it has one (R131, R140). -/
def updSmall (s : State) (n : PartIx) (i : Nat) : List (Nat × Nat) :=
  (s.wd n i 0xA8 8, 32) :: (if s.wd n i 0xB0 8 = 0 then [] else [(s.wd n i 0xB0 8, 16)])

/-- The operation of an UPDATE issued now. -/
def updOperation (s : State) (c : CoreIx) (g : Seg) (b : List Byte) : UpdOp :=
  { work := g.nextId, cmd := b, desc := upDesc b, sumsq := upSumsq b, result := upResult b, buf := gradBuffer s (partOf c) (upDesc b) }

/-- An UPDATE claims its gradient buffer and goes to the update unit (R139). -/
def State.toUpdateUnit (s : State) (c : CoreIx) (g : Seg) (b : List Byte) : State :=
  let v := (s.claimBuffer (partOf c) (upDesc b)).modCore c (fun k => { k with upd := some (updOperation s c g b) })
  (v.needRemote c 1 g.nextId ((updRanges s (partOf c) (upDesc b) (gradBuffer s (partOf c) (upDesc b)) b).flatMap (fun r =>
    chartRanges s c g.ctx (pageCount r.1 r.2.1) r.1 r.2.1))).issueCmd c g b false

section
variable {s : State} {c : CoreIx} {g : Seg} {b : List Byte} (h : ready s c 0x13 = some (g, b))
include h

theorem exec_update_issues : exec (.update c) s = issueUpdate c false s := meanwhile_of_ready h _

theorem exec_sumOfSquares_issues : exec (.sumOfSquares c) s = issueUpdate c true s := meanwhile_of_ready h _

/-- The command of an UPDATE by its SUMSQ bit. -/
theorem exec_updateForm_issues :
    exec (if upSumsq b then .sumOfSquares c else .update c) s = issueUpdate c (upSumsq b) s := by
  cases upSumsq b
  · exact exec_update_issues h
  · exact exec_sumOfSquares_issues h

theorem issueUpdate_busy {sumsq : Bool} (hbusy : (s.core c).upd.isSome = true) : issueUpdate c sumsq s = .next s := by
  simp only [issueUpdate, h, hbusy, Bool.true_or, if_true]

section
variable (hidle : (s.core c).upd = none)
include hidle

/-- An UPDATE with a breach of its fields or of its descriptor's rules is refused, and one without goes to the idle unit. -/
theorem issueUpdate_breach {a d : Nat} (hbreach : updBreach s c b = some (a, d)) :
    issueUpdate c (upSumsq b) s = .next (s.descFault c a d) := by
  simp only [issueUpdate, h, hidle, hbreach, checked_refused, Option.isSome_none, bne_self_eq_false, Bool.or_self, Bool.false_eq_true,
    if_false]

theorem issueUpdate_passes (hbreach : updBreach s c b = none)
    (hshard : s.wd (partOf c) (upDesc b) 0xB0 8 = 0 ∨ shardOk s c g.ctx (s.wd (partOf c) (upDesc b) 0xB0 8) = true)
    (htr : translated s c g.ctx ((updSmall s (partOf c) (upDesc b)).map (fun r => (r.1, r.2, false))
      ++ updRanges s (partOf c) (upDesc b) (gradBuffer s (partOf c) (upDesc b)) b))
    (hsound : localSound s c g.ctx (updSmall s (partOf c) (upDesc b))) :
    issueUpdate c (upSumsq b) s = .next (s.toUpdateUnit c g b) := by
  have hgood : (s.wd (partOf c) (upDesc b) 0xB0 8 == 0 || shardOk s c g.ctx (s.wd (partOf c) (upDesc b) 0xB0 8)) = true := by
    rw [Bool.or_eq_true, beq_iff_eq]
    exact hshard
  rw [gradBuffer, updSmall] at htr
  rw [updSmall] at hsound
  simp only [issueUpdate, h, hidle, hbreach, Option.isSome_none, bne_self_eq_false, Bool.or_self, Bool.false_eq_true, if_false,
    List.singleton_append]
  rw [checked_passes _ htr (localSound_nil s c g.ctx), getD_seg (ready_seg h), withRemote_of_sound _ hsound, firstBreach_held hgood]
  exact congrArg _ (checked_passes _ (translated_nil s c g.ctx) hsound)

end

end

/-! ### The start of an update (R139 step 4, R142) -/

/-- Latching an exponent changes at most the segment of the core (R106). -/
theorem latchExp_cases (s : State) (c : CoreIx) (i fmt : Nat) :
    (s.latchExp c i fmt).2 = s ∨ ∃ f : Seg → Seg, (s.latchExp c i fmt).2 = s.modSeg c f := by
  unfold State.latchExp
  split
  · exact .inl rfl
  · split
    · exact .inl rfl
    · split
      · exact .inl rfl
      · exact .inr ⟨_, rfl⟩

/-- Latching an exponent leaves memory and the registers. -/
theorem latchExp_frame (s : State) (c : CoreIx) (i fmt : Nat) :
    (s.latchExp c i fmt).2.mem = s.mem ∧ (s.latchExp c i fmt).2.synd = s.synd ∧ (s.latchExp c i fmt).2.regs = s.regs := by
  obtain heq | ⟨f, heq⟩ := latchExp_cases s c i fmt <;> rw [heq] <;> exact ⟨rfl, rfl, rfl⟩

/-- The update unit latches COUNT, the hyper-parameters and the exponents of the copies of the slot that is not recto, and is due after its
time (R139 step 4, R142). -/
def State.startUpdate (s : State) (c : CoreIx) (g : Seg) (u : UpdOp) : State :=
  let n := partOf c
  let v := 1 - s.recto n u.desc
  let f := s.latchExp c (s.wd n u.desc (0x14 + 0x18 * v) 2) (wdCopyFmt s n u.desc)
  let r := f.2.latchExp c (s.wd n u.desc (0x16 + 0x18 * v) 2) (wdCopyFmt s n u.desc)
  r.2.modCore c (fun k => { k with upd := some { u with
    started := true, count := s.wd n u.desc (0x70 + 4 * u.buf) 4, hyper := (objRead s c g.ctx (s.wd n u.desc 0xA8 8) 32).1,
    eFwd := f.1, eTr := r.1, due := s.slot n + updTime (s.wd n u.desc 8 4) (s.wd n u.desc 0xC 4) u.sumsq } })

theorem startUpdate_frame (s : State) (c : CoreIx) (g : Seg) (u : UpdOp) :
    (s.startUpdate c g u).mem = s.mem ∧ (s.startUpdate c g u).synd = s.synd ∧ (s.startUpdate c g u).regs = s.regs := by
  simp only [State.startUpdate, State.modCore_mem, State.modCore_synd, State.modCore_regs, latchExp_frame, and_self]

section
variable {s : State} {c : CoreIx} {g : Seg} {u : UpdOp} (hseg : s.seg c = some g) (hupd : (s.core c).upd = some u)
include hseg hupd

theorem exec_updateStart_latched (hlatched : gradLatched s (partOf c) u.desc u.buf = true) : exec (.updateStart c) s = .next s := by
  show execUpdateStart c s = _
  simp only [execUpdateStart, hseg, hupd, hlatched, Bool.not_true, Bool.and_false, Bool.false_eq_true, if_false]

theorem exec_updateStart_begins (hadv : s.advances (partOf c) = true) (hstart : u.started = false)
    (hlatched : gradLatched s (partOf c) u.desc u.buf = false) : Completes (.updateStart c) s (fun t =>
      t.mem = s.mem ∧ t.synd = s.synd ∧ t.regs = s.regs ∧ ∃ w : UpdOp, (t.core c).upd = some w ∧ w.started = true
        ∧ w.count = s.wd (partOf c) u.desc (0x70 + 4 * u.buf) 4 ∧ w.hyper = (objRead s c g.ctx (s.wd (partOf c) u.desc 0xA8 8) 32).1
        ∧ w.due = s.slot (partOf c) + updTime (s.wd (partOf c) u.desc 8 4) (s.wd (partOf c) u.desc 0xC 4) u.sumsq) := by
  obtain ⟨hmem, hsynd, hregs⟩ := startUpdate_frame s c g u
  refine ⟨s.startUpdate c g u, ?_, hmem, hsynd, hregs, ?_⟩
  · show execUpdateStart c s = _
    simp only [execUpdateStart, hseg, hupd, hadv, hstart, hlatched, Bool.not_false, Bool.and_self, if_true]
    rfl
  · rw [State.startUpdate, State.core_modCore_same]
    exact ⟨_, rfl, rfl, rfl, rfl, rfl⟩

end

/-! ### The end of an update (R139 to R142, R148) -/

/-- The update unit is idle again, and its command complete. -/
def State.updateDone (s : State) (c : CoreIx) (u : UpdOp) : State := (s.modCore c (fun k => { k with upd := none })).completeWork c u.work

/-- An update that has run is noted for the lift, `empty` where it counted nothing (R139 step 5, R141). -/
def State.noteUpdate (s : State) (c : CoreIx) (u : UpdOp) (empty : Bool) : State :=
  s.modSeg c (fun h => { h with updates := h.updates ++ [(u.desc, empty)] })

/-- The unit has read its operands, the first vr rows and vc columns of each being valid (R143, R210). -/
def State.updateReads (t : State) (c : CoreIx) (g : Seg) (u : UpdOp) (vr vc : Nat) : State :=
  (t.writes c u.work).consume c g.ctx 9 0 u.cmd (updReads t (partOf c) u vr vc)

/-- A sum of squares goes to the bank-side adder of its result (R140). -/
def State.addSumOfSquares (x : State) (c : CoreIx) (g : Seg) (u : UpdOp) (vr vc : Nat) : State :=
  x.objAdd c g.ctx u.result (to32 (sumSquares x c g.ctx u (div32N (hyp u.hyper 0x18) (round32 (.ofNat u.count))) vr vc))

/-- The rows of an update, from the valid ones, and its two copies (R140, R143). -/
def State.writeUpdate (x : State) (c : CoreIx) (g : Seg) (u : UpdOp) (vr vc : Nat) : State :=
  let r := updRows c g.ctx u (div32N (mul32N (hyp u.hyper 0x14) (hyp u.hyper 0x18)) (round32 (.ofNat u.count))) vc vr ([], x)
  r.2.writeCopies c g.ctx u r.1 vc

/-- The moments that a descriptor keeps (R131, R140). -/
def wdMoments (s : State) (n : PartIx) (i : Nat) : Nat := if momBytes (wdMomFmt s n i) = 0 then 0 else momCount (wdRecipe s n i)

/-- What an update writes: its gradients, master, blotter and moments, each a dense tensor of the descriptor's shape whose base is in a field
of the descriptor, and the storage of the slot that is not recto (R131, R140). -/
def updWrites (s : State) (n : PartIx) (u : UpdOp) : List (Nat × Nat) :=
  let mb := momBytes (wdMomFmt s n u.desc)
  ([(0x60 + 8 * u.buf, 4), (0x40, 2), (0x48, 2)] ++ (if 1 ≤ wdMoments s n u.desc then [(0x50, mb)] else [])
    ++ (if 2 ≤ wdMoments s n u.desc then [(0x58, mb)] else [])).map (fun (r : Nat × Nat) =>
      (s.wd n u.desc r.1 8, s.wd n u.desc 8 4 * densePitch (s.wd n u.desc 0xC 4) r.2))
  ++ slotRanges s n u.desc (1 - s.recto n u.desc)

section
variable {s t : State} {c : CoreIx} {g : Seg} {u : UpdOp} {vr vc : Nat} (hseg : s.seg c = some g) (hupd : (s.core c).upd = some u)
  (hadv : s.advances (partOf c) = true) (hstart : u.started = true) (hdue : u.due ≤ s.slot (partOf c))
  (hdone : remoteDone s c u.work = true) (hvalid : wdValid s c g.ctx u.desc = (vr, vc))
include hseg hupd hadv hstart hdue hdone

/-- A unit that counted nothing writes nothing (R139 step 5). -/
theorem exec_updateComplete_empty (hcount : u.count = 0) :
    exec (.updateComplete c) s = .next ((if u.sumsq then s else s.noteUpdate c u true).updateDone c u) := by
  show execUpdateComplete c s = _
  rw [execUpdateComplete, meanwhile_of_seg hseg]
  simp only [hseg, hupd, hadv, hstart, decide_eq_true hdue, hdone, Bool.and_self, hcount, if_true, beq_self_eq_true]
  rfl

section
variable (hcount : u.count ≠ 0)
include hvalid hcount

theorem exec_updateComplete_sum (hsum : u.sumsq = true) (hclaim : claimRanges c g.ctx [(u.result, 4)] s = .ok t) :
    exec (.updateComplete c) s = .next (((t.updateReads c g u vr vc).addSumOfSquares c g u vr vc).updateDone c u) := by
  show execUpdateComplete c s = _
  rw [execUpdateComplete, meanwhile_of_seg hseg]
  simp only [hseg, hupd, hadv, hstart, decide_eq_true hdue, hdone, hvalid, Bool.and_self, hcount, hsum, if_true, if_false]
  exact congrArg _ (Got.run_ok _ hclaim)

theorem exec_updateComplete_update (hsum : u.sumsq = false) (hclaim : claimRanges c g.ctx (updWrites s (partOf c) u) s = .ok t) :
    exec (.updateComplete c) s
      = .next ((((t.updateReads c g u vr vc).writeUpdate c g u vr vc).noteUpdate c u false).updateDone c u) := by
  simp only [updWrites, List.map_append, apply_ite (List.map _), List.map_cons, List.map_nil] at hclaim
  show execUpdateComplete c s = _
  rw [execUpdateComplete, meanwhile_of_seg hseg]
  simp only [hseg, hupd, hadv, hstart, decide_eq_true hdue, hdone, hvalid, Bool.and_self, hcount, hsum, if_true, if_false,
    Bool.false_eq_true, beq_eq_false_iff_ne.mpr hcount]
  exact congrArg _ (Got.run_ok _ hclaim)

end

end

/-! ### Slot changes that wait (R136) -/

section
variable {α : Type} {p : α → Bool}

theorem findIdx_of_first {x : α} {r : List α} (hx : p x = true) :
    ∀ {l : List α} (i : Nat), (∀ y ∈ l, p y = false) → findIdx p (l ++ x :: r) i = some (i + l.length, x)
  | [], _, _ => if_pos hx
  | y :: l, i, hl => by
    have hy := Bool.eq_false_iff.mp (hl y List.mem_cons_self)
    rw [List.cons_append, findIdx, if_neg hy, findIdx_of_first hx (i + 1) fun z hz => hl z (List.mem_cons_of_mem y hz),
      List.length_cons, Nat.add_right_comm, Nat.add_assoc]

theorem findIdx_of_none : ∀ {l : List α} (i : Nat), (∀ y ∈ l, p y = false) → findIdx p l i = none
  | [], _, _ => rfl
  | y :: l, i, hl => by
    have hy := Bool.eq_false_iff.mp (hl y List.mem_cons_self)
    rw [findIdx, if_neg hy, findIdx_of_none (i + 1) fun z hz => hl z (List.mem_cons_of_mem y hz)]

end

section
variable {s : State} {n : PartIx}

/-- The first waiting change whose slot no running segment latches takes effect. -/
theorem exec_deferredSlotChange_first {l r : List Deferred} {d : Deferred} (hruns : s.runs n = true)
    (hlist : (s.part n).deferred = l ++ d :: r) (hbefore : ∀ e ∈ l, slotLatched s n e.desc e.slot = true)
    (hfree : slotLatched s n d.desc d.slot = false) : exec (.deferredSlotChange n) s
      = .next ((s.modPart n (fun p => { p with deferred := l ++ r })).commitDeferred n d) := by
  have hfind : findIdx (fun d => !slotLatched s n d.desc d.slot) (s.part n).deferred 0 = some (l.length, d) := by
    rw [hlist, findIdx_of_first (by rw [hfree]; rfl) 0 fun e he => by rw [hbefore e he]; rfl, Nat.zero_add]
  have hleft : (s.part n).deferred.eraseIdx l.length = l ++ r := by
    rw [hlist, List.eraseIdx_append_of_length_le le_rfl, Nat.sub_self, List.eraseIdx_cons_zero]
  show execDeferredSlotChange n s = _
  simp only [execDeferredSlotChange, hfind, hruns, act_true, State.modPart, hleft]

theorem exec_deferredSlotChange_latched (hall : ∀ d ∈ (s.part n).deferred, slotLatched s n d.desc d.slot = true) :
    exec (.deferredSlotChange n) s = .next s := by
  have hfind : findIdx (fun d => !slotLatched s n d.desc d.slot) (s.part n).deferred 0 = none :=
    findIdx_of_none 0 fun d hd => by rw [hall d hd]; rfl
  show execDeferredSlotChange n s = _
  simp only [execDeferredSlotChange, hfind]

end

end Sys2Proof.Machine

namespace Sys2Proof.Proofs

open Sys2Proof.Machine

/-- Settles O34: UPDATE at its issue, the start and the end of the update unit's operation, and the first slot change that can take effect. -/
theorem updatesAndSlotChanges : Obligations.UpdatesAndSlotChanges := by
  refine ⟨fun s c g b hseg => ⟨fun h q sh small => ⟨fun hbusy => ?_, fun a d hidle hform hbad => ?_, fun a d hidle hform hbad => ?_,
      fun hidle hok hsh hshard hq hsmall htr hsound => ?_⟩, fun u hupd hadv => ⟨fun _ => exec_updateStart_latched hseg hupd,
      fun hstart => exec_updateStart_begins hseg hupd hadv hstart, fun hstart hdue hdone hcount => ⟨fun hsum => ?_, fun hsum => ?_⟩,
      fun t hstart hdue hdone hcount hsum hclaim => ⟨_, rfl, ?_⟩,
      fun mc rs t x y ws hstart hdue hdone hcount hsum hmc hrs hclaim hx hrows => ?_⟩⟩,
    fun s n hruns => ⟨fun l d r => exec_deferredSlotChange_first hruns, exec_deferredSlotChange_latched⟩⟩
  · rw [exec_update_issues h, exec_sumOfSquares_issues h]
    exact ⟨issueUpdate_busy h hbusy, issueUpdate_busy h hbusy⟩
  · rw [exec_update_issues h, ← hform, issueUpdate_breach h hidle hbad]
  · rw [exec_sumOfSquares_issues h, ← hform, issueUpdate_breach h hidle hbad]
  · subst hsmall hq hsh
    refine ⟨_, rfl, ?_⟩
    rw [exec_updateForm_issues h, issueUpdate_passes h hidle hok hshard htr hsound]
    rfl
  · rw [exec_updateComplete_empty hseg hupd hadv hstart hdue hdone hcount, if_pos hsum, State.updateDone]
  · rw [exec_updateComplete_empty hseg hupd hadv hstart hdue hdone hcount, if_neg (Bool.eq_false_iff.mp hsum), State.updateDone,
      State.noteUpdate]
  · exact exec_updateComplete_sum hseg hupd hadv hstart hdue hdone rfl hcount hsum hclaim
  · obtain ⟨rfl, rfl⟩ := Prod.mk.inj hrows
    subst hx hrs hmc
    exact exec_updateComplete_update hseg hupd hadv hstart hdue hdone rfl hcount hsum hclaim

end Sys2Proof.Proofs

end

section
/-! PROOF. MB_BEGIN (R127, R128), STASH_PUT and its move, and STASH_FREE (R129, R130, R155, R216). -/

namespace Sys2Proof.Machine

/-! ### MB_BEGIN (R127, R128) -/

/-- MB_BEGIN of a tag that no slot holds (R128). -/
def State.mbOpen (t : State) (c : CoreIx) (g : Seg) (b : List Byte) (tag dir : Nat) : State :=
  if dir = 1 then t.descFault c 0 7
  else match mbFree t c g with
    | none => t.pausedStart c g
    | some slot =>
      if stashRd t c g 0x4A 1 % 2 = 1 ∨ mbInflight (stashRd t c g 0x48 1) ≤ stashRd t c g 0x49 1 then t.pausedStart c g
      else (((t.stashWr c g.ctx (mbAt slot) 2 tag).stashWr c g.ctx (mbAt slot + 2) 1 1).stashWr c g.ctx 0x49 1
        (stashRd t c g 0x49 1 + 1)).mbJoin c g b slot tag dir false

/-- MB_BEGIN of a tag that a slot holds, by the slot's STATE (R128, R133). -/
def State.mbResume (t : State) (c : CoreIx) (g : Seg) (b : List Byte) (slot tag dir : Nat) : State :=
  if mbState t c g slot = 3 then t.mbJoin c g b slot tag dir true
  else if mbState t c g slot = 2 ∧ dir = 0 then t.descFault c 0 7
  else if mbState t c g slot = 1 ∧ dir = 1 then (t.stashWr c g.ctx (mbAt slot + 2) 1 2).mbJoin c g b slot tag dir false
  else t.mbJoin c g b slot tag dir false

/-- MB_BEGIN once its block is read. -/
def State.mbEnter (t : State) (c : CoreIx) (g : Seg) (b : List Byte) (tag : Nat) : State :=
  match mbFind t c g tag with
  | none => t.mbOpen c g b tag (cmdBits b 8 4 16 16)
  | some slot => t.mbResume c g b slot tag (cmdBits b 8 4 16 16)

section
variable {t : State} {c : CoreIx} {g : Seg} {b : List Byte} {tag slot : Nat}

theorem mbOpen_backward : t.mbOpen c g b tag 1 = t.descFault c 0 7 := if_pos rfl

theorem mbOpen_of_full (hfree : mbFree t c g = none) : t.mbOpen c g b tag 0 = t.pausedStart c g := by
  simp only [State.mbOpen, hfree, Nat.zero_ne_one, if_false]

theorem mbOpen_of_held (hfree : mbFree t c g = some slot)
    (hheld : stashRd t c g 0x4A 1 % 2 = 1 ∨ mbInflight (stashRd t c g 0x48 1) ≤ stashRd t c g 0x49 1) :
    t.mbOpen c g b tag 0 = t.pausedStart c g := by
  simp only [State.mbOpen, hfree, Nat.zero_ne_one, hheld, if_false, if_true]

theorem mbOpen_of_room (hfree : mbFree t c g = some slot) (hpause : stashRd t c g 0x4A 1 % 2 = 0)
    (hroom : stashRd t c g 0x49 1 < mbInflight (stashRd t c g 0x48 1)) : t.mbOpen c g b tag 0
      = (((t.stashWr c g.ctx (mbAt slot) 2 tag).stashWr c g.ctx (mbAt slot + 2) 1 1).stashWr c g.ctx 0x49 1
        (stashRd t c g 0x49 1 + 1)).mbJoin c g b slot tag 0 false := by
  have hgo : ¬(stashRd t c g 0x4A 1 % 2 = 1 ∨ mbInflight (stashRd t c g 0x48 1) ≤ stashRd t c g 0x49 1) := by omega
  simp only [State.mbOpen, hfree, Nat.zero_ne_one, hgo, if_false]

theorem mbResume_skipped {dir : Nat} (h : mbState t c g slot = 3) :
    t.mbResume c g b slot tag dir = t.mbJoin c g b slot tag dir true := if_pos h

theorem mbResume_backward_forward (h : mbState t c g slot = 2) : t.mbResume c g b slot tag 0 = t.descFault c 0 7 := by
  simp [State.mbResume, h]

theorem mbResume_backward_backward (h : mbState t c g slot = 2) :
    t.mbResume c g b slot tag 1 = t.mbJoin c g b slot tag 1 false := by simp [State.mbResume, h]

theorem mbResume_forward_forward (h : mbState t c g slot = 1) :
    t.mbResume c g b slot tag 0 = t.mbJoin c g b slot tag 0 false := by simp [State.mbResume, h]

theorem mbResume_forward_backward (h : mbState t c g slot = 1) :
    t.mbResume c g b slot tag 1 = (t.stashWr c g.ctx (mbAt slot + 2) 1 2).mbJoin c g b slot tag 1 false := by simp [State.mbResume, h]

end

section
variable {s : State} {c : CoreIx} {g : Seg} {b : List Byte} (h : ready s c 0x01 = some (g, b)) (hok : plainOk b 0x0C = true)
  (hzero : zeroBits (fieldAt b 0x08 4) 31 17 = true)
include h hok hzero

/-- MB_BEGIN with tag 0, or behind another command of its segment (R128; log entry 142). -/
theorem exec_mbBegin_refused (hbad : fieldAt b 0x08 2 = 0 ∨ g.nextId ≠ 0) : exec (.mbBegin c) s = .next (s.descFault c 0 7) := by
  obtain ⟨hhead, hbody⟩ := Bool.and_eq_true_iff.mp hok
  show execMbBegin c s = _
  rw [execMbBegin, meanwhile_of_ready h]
  simp only [h, hhead, hbody, hzero, Bool.and_self, firstBreach_held]
  by_cases htag : fieldAt b 0x08 2 = 0
  · rw [firstBreach_failed (bne_eq_false_iff_eq.mpr htag), checked_refused]
  · have hid : g.nextId ≠ 0 := hbad.resolve_left htag
    rw [firstBreach_held (bne_iff_ne.mpr htag), firstBreach_failed (beq_eq_false_iff_ne.mpr hid), checked_refused]

theorem exec_mbBegin_enters {x : Seg} (htag : fieldAt b 0x08 2 ≠ 0) (hid : g.nextId = 0) (hstash : s.ctxRd g.ctx 0x18 8 ≠ 0)
    (htr : translated s c g.ctx (stashRange s g.ctx)) (hsound : localSound s c g.ctx [(s.ctxRd g.ctx 0x18 8, 16640)])
    (hseg : (s.takeBlock c).seg c = some x) :
    exec (.mbBegin c) s = .next ((s.takeBlock c).mbEnter c x b (fieldAt b 0x08 2)) := by
  obtain ⟨hhead, hbody⟩ := Bool.and_eq_true_iff.mp hok
  show execMbBegin c s = _
  rw [execMbBegin, meanwhile_of_ready h]
  simp only [h, hhead, hbody, hzero, Bool.and_self, firstBreach_held]
  rw [firstBreach_held (bne_iff_ne.mpr htag), firstBreach_held (beq_iff_eq.mpr hid), firstBreach_held (bne_iff_ne.mpr hstash), firstBreach,
    checked_passes _ htr (localSound_nil s c g.ctx), State.readBlock, getD_seg (ready_seg h), withRemote_of_sound _ hsound,
    checked_passes _ (translated_nil s c g.ctx) hsound, getD_seg hseg]
  rfl

end

/-! ### STASH_PUT (R129, R130, R155, R216) -/

/-- A stash entry of p pages, by the tier that has room for it: it is placed there; with room in none it takes the reserve of T0, or the segment
is killed with cause 7 (R129, R130). -/
def State.stashTake (s : State) (c : CoreIx) (g : Seg) (b : List Byte) (slot p : Nat) (leaves : List Nat) : Option Nat → State
  | some tier => s.stashPlace c g b slot tier (65536 * p) leaves false
  | none =>
    if stashRd s c g 0x18 8 + 65536 * p ≤ 65536 * (stashRd s c g 0 8 / 65536) ∧ p ≤ s.stackCount (partOf c) (s.ctxTenant g.ctx) 0 then
      (s.stashFull c g).stashPlace c g b slot 0 (65536 * p) leaves true
    else (s.stashFull c g).killSeg c 7

section
variable {s : State} {c : CoreIx} {g : Seg} {b : List Byte} (h : ready s c 0x15 = some (g, b))
include h

/-- A STASH_PUT with a source waits for the mover. -/
theorem exec_stashPut_waits (hsource : spSource b ≠ 0) (hfree : moverFree s c = false) : exec (.stashPut c) s = .next s := by
  show execStashPut c s = _
  rw [execStashPut, meanwhile_of_ready h]
  rw [h]
  exact if_pos (by rw [hfree, bne_iff_ne.mpr hsource]; rfl)

theorem exec_stashPut_passes {slot : Nat} {leaves : List Nat} (hhead : headerOk b = true) (hz1 : zeroBytes b 0x14 0x18 = true)
    (hz2 : zeroBytes b 0x20 0x40 = true) (hmover : spSource b = 0 ∨ moverFree s c = true)
    (htr : translated s c g.ctx (stashRange s g.ctx ++ if spSource b = 0 then [] else [(spSource b, spLen b, false)]))
    (hsound : localSound s c g.ctx (stashReads s c g)) (hstash : s.ctxRd g.ctx 0x18 8 ≠ 0) (hslot : g.mbSlot = some slot)
    (halign : spAddr b % 65536 = 0) (hlow : stashRd s c g 0x38 8 ≤ spAddr b)
    (hhigh : spAddr b + 65536 * ceilDiv (spLen b) 65536 ≤ stashRd s c g 0x38 8 + stashRd s c g 0x40 8)
    (hroom : stashRd s c g (mbAt slot + 4) 1 < 16)
    (hleaves : leavesOf s g.ctx (spAddr b) (ceilDiv (spLen b) 65536) = some leaves) :
    exec (.stashPut c) s = .next (s.stashTake c g b slot (ceilDiv (spLen b) 65536) leaves
      (stashTier s c g (65536 * ceilDiv (spLen b) 65536) (ceilDiv (spLen b) 65536))) := by
  have hgo : (spSource b != 0 && !moverFree s c) = false := by
    rw [Bool.and_eq_false_iff, bne_eq_false_iff_eq, Bool.not_eq_false']
    exact hmover
  have hrange : (decide (stashRd s c g 0x38 8 ≤ spAddr b)
      && decide (spAddr b + 65536 * ceilDiv (spLen b) 65536 ≤ stashRd s c g 0x38 8 + stashRd s c g 0x40 8)) = true := by
    rw [decide_eq_true hlow, decide_eq_true hhigh, Bool.and_self]
  show execStashPut c s = _
  rw [execStashPut, meanwhile_of_ready h]
  simp only [h, hgo, Bool.false_eq_true, if_false, hhead, hz1, hz2, hslot, Option.isSome_some, Bool.and_self, firstBreach_held]
  rw [firstBreach_held (bne_iff_ne.mpr hstash), firstBreach_held rfl, firstBreach_held (beq_iff_eq.mpr halign), firstBreach,
    checked_passes _ htr hsound, getD_seg (ready_seg h)]
  simp only [hslot, Option.getD_some, hrange, decide_eq_true hroom, firstBreach, if_true, hleaves]
  cases stashTier s c g (65536 * ceilDiv (spLen b) 65536) (ceilDiv (spLen b) 65536) <;> rfl

end

section
variable {s : State} {c : CoreIx} {g : Seg} {b : List Byte} {slot p : Nat} {leaves : List Nat}

theorem stashTake_reserve (hquota : stashRd s c g 0x18 8 + 65536 * p ≤ 65536 * (stashRd s c g 0 8 / 65536))
    (hframes : p ≤ s.stackCount (partOf c) (s.ctxTenant g.ctx) 0) :
    s.stashTake c g b slot p leaves none = (s.stashFull c g).stashPlace c g b slot 0 (65536 * p) leaves true := if_pos ⟨hquota, hframes⟩

theorem stashTake_killed (hfull : 65536 * (stashRd s c g 0 8 / 65536) < stashRd s c g 0x18 8 + 65536 * p
    ∨ s.stackCount (partOf c) (s.ctxTenant g.ctx) 0 < p) :
    s.stashTake c g b slot p leaves none = (s.stashFull c g).killSeg c 7 :=
  if_neg (by rwa [not_and_or, Nat.not_le, Nat.not_le])

end

/-- The mover has moved the source of a stash put: it is stored as wet ink (R150, R160; log entries 45 and 173). -/
theorem exec_stashPutComplete_due {s : State} {c : CoreIx} {g : Seg} {m : MovOp} {r : List MovOp} (hseg : s.seg c = some g)
    (hmover : (s.core c).mover = m :: r) (hdue : moverDue s c m 0x15 = true) : exec (.stashPutComplete c) s
      = .next ((claimRanges c g.ctx [(spAddr m.cmd, spLen m.cmd)] s).run c (fun t =>
        ((t.consume c g.ctx 10 1 m.cmd [(spSource m.cmd, spLen m.cmd)]).objStoreBad c g.ctx (spAddr m.cmd)
          (objRead t c g.ctx (spSource m.cmd) (spLen m.cmd)).1 (objRead t c g.ctx (spSource m.cmd) (spLen m.cmd)).2).moverDone c m.work)) := by
  rw [moverDue] at hdue
  show execStashPutComplete c s = _
  rw [execStashPutComplete, meanwhile_of_seg hseg]
  simp only [hseg, hmover, hdue, if_true]

/-! ### STASH_FREE (R129, R155, R216) -/

/-- Entry e of a slot of cnt entries goes: its pages are given back, the entries behind it move down by one, and the slot counts one less
(R155, R216; log entry 36). -/
def State.stashRemove (s : State) (c : CoreIx) (g : Seg) (b : List Byte) (slot cnt e : Nat) : State :=
  let pages := stashRd s c g (stashEnt slot e + 8) 4 / 65536
  let u := (s.stashUncharge c g (fieldAt b 8 8) pages).stashDropPages c g (fieldAt b 8 8) pages
  let w := (List.range (cnt - 1 - e)).foldl (fun (x : State) i =>
    x.stashWr c g.ctx (stashEnt slot (e + i)) 16 (stashRd s c g (stashEnt slot (e + i + 1)) 16)) u
  (w.stashWr c g.ctx (mbAt slot + 4) 1 (cnt - 1)).issueCmd c ((w.seg c).getD g) b true

/-- The entry of a slot of cnt entries that holds an address. -/
def stashFind (s : State) (c : CoreIx) (g : Seg) (slot cnt a : Nat) : Option Nat :=
  (List.range cnt).find? (fun e => stashRd s c g (stashEnt slot e) 8 == a)

theorem stashFind_eq_some {s : State} {c : CoreIx} {g : Seg} {slot cnt a e : Nat} (hlt : e < cnt)
    (hhere : stashRd s c g (stashEnt slot e) 8 = a) (hbefore : ∀ i, i < e → stashRd s c g (stashEnt slot i) 8 ≠ a) :
    stashFind s c g slot cnt a = some e := by
  rw [stashFind, List.find?_range_eq_some]
  exact ⟨beq_iff_eq.mpr hhere, List.mem_range.mpr hlt, fun i hi => by rw [beq_eq_false_iff_ne.mpr (hbefore i hi)]; rfl⟩

section
variable {s : State} {c : CoreIx} {g : Seg} {b : List Byte} {slot : Nat} (h : ready s c 0x16 = some (g, b)) (hok : plainOk b 0x10 = true)
  (hstash : s.ctxRd g.ctx 0x18 8 ≠ 0) (htr : translated s c g.ctx (stashRange s g.ctx))
  (hsound : localSound s c g.ctx (stashReads s c g)) (hslot : g.mbSlot = some slot)
include h hok hstash htr hsound hslot

/-- A STASH_FREE without a breach looks for the entry that it names. -/
theorem exec_stashFree_finds : exec (.stashFree c) s
    = .next (match stashFind s c g slot (stashRd s c g (mbAt slot + 4) 1) (fieldAt b 8 8) with
      | none => s.descFault c (fieldAt b 8 8) 7
      | some e => s.stashRemove c g b slot (stashRd s c g (mbAt slot + 4) 1) e) := by
  show execStashFree c s = _
  rw [execStashFree, meanwhile_of_ready h]
  simp only [h, hok, hslot, Option.isSome_some, firstBreach_held]
  rw [firstBreach_held (bne_iff_ne.mpr hstash), firstBreach_held rfl, firstBreach, checked_passes _ htr hsound, getD_seg (ready_seg h)]
  simp only [hslot, Option.getD_some]
  rfl

end

end Sys2Proof.Machine

namespace Sys2Proof.Proofs

open Sys2Proof.Machine

/-- Settles O30: MB_BEGIN by what the block says of its tag, STASH_PUT by the tier that has room, and STASH_FREE by the entry of its
address. -/
theorem microBatchesAndStash : Obligations.MicroBatchesAndStash := by
  intro s c g b hseg htr hstash
  refine ⟨fun tag t x h hok hzero htag ht hx hctx => ⟨fun hne hid hsound hfind => ?_, fun slot hne hid hsound hfind => ?_,
      fun hbad => exec_mbBegin_refused h hok hzero (htag ▸ hbad)⟩,
    fun slot leaves h hhead hz1 hz2 hmover hops hsound hslot halign hlow hhigh hroom hleaves => ?_, exec_stashPut_waits,
    fun slot h hok hsound hslot hnone => ?_, fun slot e cnt pages u w h hok hsound hslot hcnt hlt hhere hbefore hpages hu hw => ?_,
    fun m r hmover hadv hstart hop hdue hdone =>
      exec_stashPutComplete_due hseg hmover (moverDue_iff.mpr ⟨hadv, hstart, hop, hdue, hdone⟩)⟩
  · subst ht htag
    rw [exec_mbBegin_enters h hok hzero hne hid hstash htr hsound hx, State.mbEnter, hfind, ← hctx]
    refine ⟨fun slot hdir hfree => ⟨fun hpause hopen => ?_, fun hheld => ?_⟩, fun hdir hfree => ?_, fun hdir => ?_⟩
    · simp only [hdir, mbOpen_of_room hfree hpause hopen]
    · simp only [hdir, mbOpen_of_held hfree hheld]
    · simp only [hdir, mbOpen_of_full hfree]
    · simp only [hdir, mbOpen_backward]
  · subst ht htag
    rw [exec_mbBegin_enters h hok hzero hne hid hstash htr hsound hx, State.mbEnter, hfind, ← hctx]
    refine ⟨fun hst => ?_, fun hst hdir => ?_, fun hst hdir => ?_, fun hst hdir => ?_, fun hst hdir => ?_⟩
    · simp only [mbResume_skipped hst]
    · simp only [hdir, mbResume_backward_forward hst]
    · simp only [hdir, mbResume_backward_backward hst]
    · simp only [hdir, mbResume_forward_forward hst]
    · simp only [hdir, mbResume_forward_backward hst]
  · rw [exec_stashPut_passes h hhead hz1 hz2 hmover hops hsound hstash hslot halign hlow hhigh hroom hleaves]
    refine ⟨fun tier htier => ?_, fun hnone => ⟨fun hquota hframes => ?_, fun hfull => ?_⟩⟩
    · rw [htier, State.stashTake]
    · rw [hnone, stashTake_reserve hquota hframes]
    · rw [hnone, stashTake_killed hfull]
  · have hfind : stashFind s c g slot (stashRd s c g (mbAt slot + 4) 1) (fieldAt b 8 8) = none := hnone
    rw [exec_stashFree_finds h hok hstash htr hsound hslot, hfind]
  · subst hcnt hw hu hpages
    rw [exec_stashFree_finds h hok hstash htr hsound hslot, stashFind_eq_some hlt hhere hbefore]
    rfl

end Sys2Proof.Proofs

end

section
/-! PROOF. NOP (R147, R148, R172), the fetch of commands (R146, R150, R152, R156) and the poll of TAIL (R146). -/

namespace Sys2Proof.Machine

/-! ### The issue of a command that completes at once (R147, R172) -/

/-- The registers behind the issue of a command that completes at once (R147, R172, R367). -/
def State.issued (s : State) (c : CoreIx) (b : List Byte) : State :=
  let t := (((s.put (SEQ.LAST_CMD.CMD_ID c) (cmdId b)).put (SEQ.LAST_CMD.OPCODE c) (cmdOpcode b)).bump (SEQ.CMD_PTR.ADDR c) 64).put
    (SEQ.STATE.STATE c) 1
  (if s.on (DBG.CORE_c.STEPPING c) then t.put (DBG.CORE_c.STEPPING c) 0 else t).beat c

theorem issueFields_rise (c : CoreIx) : (DBG.CORE_c.STEPPING c).key < (SEQ.STATE.STATE c).key
    ∧ (SEQ.STATE.STATE c).key < (SEQ.CMD_PTR.ADDR c).key ∧ (SEQ.CMD_PTR.ADDR c).key < (SEQ.HEARTBEAT.COUNT c).key
    ∧ (SEQ.HEARTBEAT.COUNT c).key < (SEQ.LAST_CMD.CMD_ID c).key ∧ (SEQ.LAST_CMD.CMD_ID c).key < (SEQ.LAST_CMD.OPCODE c).key
    ∧ (SEQ.LAST_CMD.OPCODE c).key < (SEQ.PROGRESS_TIME.ACLK c).key := by
  simp only [Field.key]
  omega

section
variable {s : State} {c : CoreIx} {g : Seg} {b : List Byte}

theorem State.regs_put (s : State) (f : Field) (v : Nat) : (s.put f v).regs = Sparse.insert s.regs f.key (v % 2 ^ f.width) := rfl

theorem issueCmd_get_issued (f : Field) : (s.issueCmd c g b true).get f = (s.issued c b).get f := by
  simp only [State.issueCmd, State.issued, State.seqState, State.beat, State.bump, State.modSeg, if_true, State.get, State.regs_put,
    State.modCore_regs, State.modCore_time, State.put_time, apply_ite State.regs, apply_ite State.time, ite_self]

theorem issueCmd_keeps_memory : (s.issueCmd c g b true).mem = s.mem ∧ (s.issueCmd c g b true).synd = s.synd
    ∧ (s.issueCmd c g b true).eeprom = s.eeprom ∧ (s.issueCmd c g b true).fuses = s.fuses := by
  simp only [State.issueCmd, State.seqState, State.beat, State.bump, State.modSeg, if_true, apply_ite State.mem, apply_ite State.synd,
    apply_ite State.eeprom, apply_ite State.fuses, State.modCore_mem, State.modCore_synd, State.modCore_eeprom, State.modCore_fuses,
    State.put_mem, State.put_synd, State.put_eeprom, State.put_fuses, ite_self, and_self]

theorem issued_get : (s.issued c b).get (SEQ.CMD_PTR.ADDR c) = (s.get (SEQ.CMD_PTR.ADDR c) + 64) % 2 ^ (SEQ.CMD_PTR.ADDR c).width
    ∧ (s.issued c b).get (SEQ.LAST_CMD.CMD_ID c) = cmdId b % 2 ^ (SEQ.LAST_CMD.CMD_ID c).width
    ∧ (s.issued c b).get (SEQ.LAST_CMD.OPCODE c) = cmdOpcode b % 2 ^ (SEQ.LAST_CMD.OPCODE c).width
    ∧ (s.issued c b).get (SEQ.STATE.STATE c) = 1 % 2 ^ (SEQ.STATE.STATE c).width
    ∧ (s.issued c b).get (SEQ.HEARTBEAT.COUNT c) = (s.get (SEQ.HEARTBEAT.COUNT c) + 1) % 2 ^ (SEQ.HEARTBEAT.COUNT c).width
    ∧ (s.issued c b).get (SEQ.PROGRESS_TIME.ACLK c) = s.time % 2 ^ (SEQ.PROGRESS_TIME.ACLK c).width := by
  have hrise := issueFields_rise c
  simp only [State.issued, State.beat, State.bump]
  split <;> simp (disch := omega) only [State.get_put_same, State.get_put_other, State.put_time, and_self]

theorem issued_frame : sameFieldsBut [SEQ.CMD_PTR.ADDR c, SEQ.LAST_CMD.CMD_ID c, SEQ.LAST_CMD.OPCODE c, SEQ.STATE.STATE c,
    SEQ.HEARTBEAT.COUNT c, SEQ.PROGRESS_TIME.ACLK c, DBG.CORE_c.STEPPING c] s (s.issued c b) := by
  intro f hf
  simp only [List.map_cons, List.map_nil, List.mem_cons, List.not_mem_nil, or_false, not_or] at hf
  simp only [State.issued, State.beat, State.bump]
  split <;> simp (disch := simp only [hf, ne_eq, not_false_eq_true]) only [State.get_put_other]


theorem ready_opcode {op : Nat} (h : ready s c op = some (g, b)) : cmdOpcode b = op := by
  unfold ready at h
  split at h
  · split at h
    · next hcond =>
      cases h
      simp only [Bool.and_eq_true, decide_eq_true_eq] at hcond
      obtain ⟨⟨hop, -⟩, -⟩ := hcond
      exact hop
    · cases h
  · cases h

theorem exec_nop_ready (h : ready s c 0x00 = some (g, b)) :
    exec (.nop c) s = .next (refuseOr s c (firstBreach [(plainOk b 8, 0, 1)]) (s.issueCmd c g b true)) := by
  show execNop c s = _
  rw [execNop, meanwhile_of_ready h]
  simp only [h]

end

/-! ### The fetch of a command (R146, R150, R152, R156, R368) -/

section
variable {s : State} {c : CoreIx} {g : Seg}

/-- At TAIL the sequencer waits for work. -/
theorem fetchNext_tail (hidle : g.waitTail = false) (htail : fetchAt s c g = s.ctxRd g.ctx 0x08 8) : s.fetchNext c g
    = (s.modSeg c (fun h => { h with waitTail := true, pollAt := s.time + 256 })).put (SEQ.STATE.STATE c) 2 := by
  rw [State.fetchNext, hidle, if_neg Bool.false_ne_true]
  exact if_pos htail

/-- Elsewhere the 64 bytes are fetched: the next command, or, behind a fetched MX_SCALES, the one to be known ahead. -/
theorem fetchNext_local (hseg : s.seg c = some g) (hidle : g.waitTail = false) (hmore : fetchAt s c g ≠ s.ctxRd g.ctx 0x08 8)
    (htr : translated s c g.ctx [(fetchAt s c g, 64, false)]) (hsound : localSound s c g.ctx [(fetchAt s c g, 64)]) : s.fetchNext c g
      = if g.fetched.isSome then s.modSeg c (fun h => { h with peek := some (fetchAt s c g, (objRead s c g.ctx (fetchAt s c g) 64).1) })
        else (s.modSeg c (fun h => { h with fetched := some (fetchAt s c g, (objRead s c g.ctx (fetchAt s c g) 64).1) })).bpCheck c := by
  have htail : ¬fetchAt s c g = s.ctxTail g.ctx := hmore
  rw [State.fetchNext, hidle, if_neg Bool.false_ne_true, if_neg htail, checked_passes _ htr (localSound_nil s c g.ctx), getD_seg hseg,
    withRemote_of_sound _ hsound, checked_passes _ (translated_nil s c g.ctx) hsound]

section
variable (hadv : s.advances (partOf c) = true) (hseg : s.seg c = some g) (hlift : g.lift = none) (hctx : (s.core c).ctx = none)
include hadv hseg hlift hctx

/-- A core with no command fetched, or with an MX_SCALES alone, fetches. -/
theorem exec_commandFetch_fetches (hwants : g.fetched = none ∨ wantsPeek g = true) :
    exec (.commandFetch c) s = .next (s.fetchNext c g) := by
  show execCommandFetch c s = _
  rw [execCommandFetch, meanwhile_of_seg hseg]
  simp only [hseg, hadv, hlift, hctx, Bool.not_true, Option.isSome_none, Bool.or_self, Bool.false_eq_true, if_false]
  cases hfetched : g.fetched with
  | none => rfl
  | some p => simp only [hwants.resolve_left (hfetched ▸ Option.some_ne_none p), if_true]

section
variable {p : Nat} {b : List Byte} (hfetched : g.fetched = some (p, b)) (hready : issueReady s c = some (g, b))
include hfetched hready

theorem exec_commandFetch_unknown (hskip : g.skip = false) (hunknown : knownOpcode (cmdOpcode b) = false) :
    exec (.commandFetch c) s = .next (s.descFault c 0 1) := by
  have hplain : wantsPeek g = false := by
    have hop : (cmdOpcode b == 0x11) = false := beq_eq_false_iff_ne.mpr fun hop => by
      rw [hop] at hunknown
      exact absurd hunknown (by decide)
    simp only [wantsPeek, hfetched, hop, Bool.false_and]
  show execCommandFetch c s = _
  rw [execCommandFetch, meanwhile_of_seg hseg]
  simp only [hseg, hadv, hlift, hctx, hfetched, hplain, hready, hskip, hunknown, Bool.not_true, Bool.not_false, Option.isSome_none,
    Bool.or_self, Bool.false_and, Bool.false_eq_true, if_false, if_true]

/-- A skipped micro-batch passes over the commands that it does not run (R133). -/
theorem exec_commandFetch_skips (hskip : g.skip = true) (hpassed : skipRuns (cmdOpcode b) = false) : exec (.commandFetch c) s
    = .next (((s.bump (SEQ.CMD_PTR.ADDR c) 64).modSeg c (fun h => { h with fetched := none })).modCore c (fun k =>
        { k with bpPass := false })) := by
  have hplain : wantsPeek g = false := by simp only [wantsPeek, hfetched, hskip, Bool.not_true, Bool.and_false]
  show execCommandFetch c s = _
  rw [execCommandFetch, meanwhile_of_seg hseg]
  simp only [hseg, hadv, hlift, hctx, hfetched, hplain, hready, hskip, hpassed, Bool.not_true, Bool.not_false, Option.isSome_none,
    Bool.or_self, Bool.and_self, Bool.false_eq_true, if_false, if_true]

end

end

/-! ### The poll of TAIL (R146) -/

/-- A sequencer that waits at TAIL reads it again at its time. -/
theorem exec_tailPoll_due (hadv : s.advances (partOf c) = true) (hseg : s.seg c = some g) (hwaits : g.waitTail = true)
    (hdue : g.pollAt ≤ s.time) : exec (.tailPoll c) s = .next (s.readTail c g) := by
  show execTailPoll c s = _
  simp only [execTailPoll, hseg, hadv, hwaits, hdue, decide_true, Bool.and_self, act_true]

theorem readTail_moved (h : fetchAt s c g ≠ s.ctxRd g.ctx 0x08 8) :
    s.readTail c g = (s.modSeg c (fun h => { h with waitTail := false })).put (SEQ.STATE.STATE c) 1 := if_neg h

theorem readTail_same (h : fetchAt s c g = s.ctxRd g.ctx 0x08 8) :
    s.readTail c g = s.modSeg c (fun h => { h with pollAt := s.time + 256 }) := if_pos h

end

end Sys2Proof.Machine

namespace Sys2Proof.Proofs

open Sys2Proof.Machine

/-- Settles O27: NOP with all that it changes, the fetch by what is fetched already, and the poll by what TAIL says. -/
theorem fetchPollAndNop : Obligations.FetchPollAndNop := by
  refine ⟨fun s c g b h => ⟨fun hok => ?_, fun hbad => ?_⟩,
    fun s c g hadv hseg hlift hctx => ⟨fun hwants hidle => ?_, fun p b hfetched hready =>
      ⟨exec_commandFetch_unknown hadv hseg hlift hctx hfetched hready, exec_commandFetch_skips hadv hseg hlift hctx hfetched hready⟩⟩,
    fun s c g hadv hseg hwaits hdue => ?_⟩
  · have hexec : exec (.nop c) s = .next (s.issueCmd c g b true) := by rw [exec_nop_ready h, refuseOr_held hok, refuseOr_nil]
    obtain ⟨hptr, hid, hop, hstate, hbeat, htime⟩ := issued_get (s := s) (c := c) (b := b)
    obtain ⟨hmem, hsynd, heeprom, hfuses⟩ := issueCmd_keeps_memory (s := s) (c := c) (g := g) (b := b)
    refine ⟨_, hexec, ?_⟩
    simp only [issueCmd_get_issued, hptr, hid, hop, hstate, hbeat, htime, hmem, hsynd, heeprom, hfuses, ready_opcode h, Nat.zero_mod, true_and,
      and_true]
    exact ⟨rfl, fun f hf => (issueCmd_get_issued f).trans (issued_frame f hf)⟩
  · rw [exec_nop_ready h, refuseOr_failed hbad]
  · rw [exec_commandFetch_fetches hadv hseg hlift hctx hwants]
    refine ⟨fun htail => by rw [fetchNext_tail hidle htail], fun p hp hmore htr hsound => ?_⟩
    subst hp
    rw [fetchNext_local hseg hidle hmore htr hsound]
    refine ⟨fun hnone => ⟨?_, ?_⟩, fun hsome => ⟨?_, ?_⟩⟩
    · rw [fetchAt, hnone, nextCmd]
      rfl
    · rw [hnone]
      rfl
    · rw [fetchAt, Option.isSome_iff_ne_none.mpr hsome, nextCmd]
      rfl
    · rw [if_pos (Option.isSome_iff_ne_none.mpr hsome)]
  · rw [exec_tailPoll_due hadv hseg hwaits hdue]
    exact ⟨fun hmoved => by rw [readTail_moved hmoved], fun hsame => by rw [readTail_same hsame]⟩

end Sys2Proof.Proofs

end

section
/-! PROOF. NOTIFY and the semaphore commands of a segment (R160, R164 to R167). -/

namespace Sys2Proof.Machine

section
variable {s : State} {c : CoreIx} {g : Seg} {b : List Byte}

/-! ### Room in the outbound queue (R164) -/

/-- A segment within its own limit finds room in the queue of its partition. -/
theorem queueRoom_room {ctx charge : Nat} (hseg : s.seg c = some g) (hlimit : g.outq + charge ≤ 1024 * s.ctxRd ctx 0x2E 2)
    (hfree : charge ≤ s.outqFree (partOf c)) : queueRoom s c ctx charge = .ok s := by
  simp only [queueRoom, hseg, if_neg (Nat.not_lt.mpr hlimit), if_neg (Nat.not_lt.mpr hfree), ite_self]

/-- NOTIFY of an aligned address with room in the queues is queued. -/
theorem exec_notify_room (h : ready s c 0x21 = some (g, b)) (hok : plainOk b 0x1C = true) (hres : zeroBits (fieldAt b 0x18 4) 31 1 = true)
    (halign : fieldAt b 8 8 % 8 = 0) (hlimit : g.outq + 128 ≤ 1024 * s.ctxRd g.ctx 0x2E 2) (hfree : 128 ≤ s.outqFree (partOf c)) :
    exec (.notify c) s = .next ((s.enqueue c g.ctx 128 (.notify (fieldAt b 8 8) (fieldAt b 0x10 8) (cmdBits b 0x18 4 0 0 == 1))
      g.nextId).issueCmd c g b true) := by
  obtain ⟨hhead, hzero⟩ := Bool.and_eq_true_iff.mp hok
  show execNotify c s = _
  rw [execNotify, meanwhile_of_ready h]
  simp only [h, hhead, hres, hzero, halign, beq_self_eq_true, Bool.and_self, refuseOr_held, refuseOr_nil,
    Got.run_ok _ (queueRoom_room (ready_seg h) hlimit hfree), getD_seg (ready_seg h)]

/-! ### A semaphore command at its issue (R155, R160, R165, R166) -/

/-- The check of a semaphore command, and what it does with a semaphore in local memory that is sound. -/
theorem semChecked_here {a : Nat} (hbreach : semBreach b = none) (hnear : smChart b = false)
    (htr : translated s c g.ctx [(smAddr b, 16, cmdOpcode b != 0x30)]) (hsound : localSound s c g.ctx [(smAddr b, 16)])
    (hplace : semPlace s c g.ctx b = .here a) (go : State → State) : semChecked s c g.ctx b go = go s := by
  rw [semChecked, hbreach, hnear, if_neg Bool.false_ne_true, checked_passes _ htr (localSound_nil s c g.ctx)]
  simp only [hplace, checked_passes go (translated_nil s c g.ctx) hsound]

/-- A semaphore over the Chart is not read at the issue. -/
theorem semChecked_there {a : Nat} (hbreach : semBreach b = none)
    (htr : translated s c g.ctx (if smChart b then [] else [(smAddr b, 16, cmdOpcode b != 0x30)]))
    (hplace : semPlace s c g.ctx b = .there a) (go : State → State) : semChecked s c g.ctx b go = go s := by
  rw [semChecked, hbreach, checked_passes _ htr (localSound_nil s c g.ctx)]
  simp only [hplace]

/-- Each command once its checks are behind it. -/
theorem exec_semWait_ready (h : ready s c 0x30 = some (g, b)) (hpass : ∀ go, semChecked s c g.ctx b go = go s) :
    exec (.semWait c) s = .next (s.semBegin c g b) := by
  show execSemWait c s = _
  rw [execSemWait, meanwhile_of_ready h]
  simp only [h, hpass, getD_seg (ready_seg h)]

theorem exec_semAcquire_ready (h : ready s c 0x32 = some (g, b)) (hpass : ∀ go, semChecked s c g.ctx b go = go s) :
    exec (.semAcquire c) s = .next (s.semBegin c g b) := by
  show execSemAcquire c s = _
  rw [execSemAcquire, meanwhile_of_ready h]
  simp only [h, hpass, getD_seg (ready_seg h)]

theorem exec_semAdd_ready (h : ready s c 0x31 = some (g, b)) (hpass : ∀ go, semChecked s c g.ctx b go = go s) :
    exec (.semAdd c) s = .next (s.semRecord c g b (some (smValue b))) := by
  show execSemAdd c s = _
  rw [execSemAdd, meanwhile_of_ready h]
  simp only [h, hpass, getD_seg (ready_seg h)]

theorem exec_semRelease_ready (h : ready s c 0x33 = some (g, b)) (hpass : ∀ go, semChecked s c g.ctx b go = go s) :
    exec (.semRelease c) s = .next (s.semRecord c g b none) := by
  show execSemRelease c s = _
  rw [execSemRelease, meanwhile_of_ready h]
  simp only [h, hpass, getD_seg (ready_seg h)]

theorem exec_semAdd_breach {x d : Nat} (hbreach : semBreach b = some (x, d)) (h : ready s c 0x31 = some (g, b)) :
    exec (.semAdd c) s = .next (s.descFault c x d) := by
  show execSemAdd c s = _
  rw [execSemAdd, meanwhile_of_ready h]
  simp only [h, semChecked, hbreach, checked_refused]

/-- An operation on a local semaphore is recorded for the lift. -/
theorem semRecord_here {a : Nat} {delta : Option Nat} (hplace : semPlace s c g.ctx b = .here a) : s.semRecord c g b delta
    = (s.modSeg c (fun h => { h with semOps := h.semOps ++ [⟨a, delta, smAddr b⟩] })).issueCmd c g b true := by
  simp only [State.semRecord, hplace]

/-- What is queued for a semaphore over the Chart: an addition, or a release. -/
def semFar (a : Nat) : Option Nat → OutKind
  | some d => .semAdd a d
  | none => .semRelease a

/-- An operation on a semaphore over the Chart is queued. -/
theorem semRecord_there {a : Nat} {delta : Option Nat} (hplace : semPlace s c g.ctx b = .there a) (hseg : s.seg c = some g)
    (hlimit : g.outq + 128 ≤ 1024 * s.ctxRd g.ctx 0x2E 2) (hfree : 128 ≤ s.outqFree (partOf c)) :
    s.semRecord c g b delta = (s.enqueue c g.ctx 128 (semFar a delta) g.nextId).issueCmd c g b true := by
  cases delta <;> simp only [State.semRecord, hplace, Got.run_ok _ (queueRoom_room hseg hlimit hfree), getD_seg hseg, semFar]

/-! ### The end of a wait and the grant of a lease (R53, R166, R167) -/

theorem semMet_local {w : SemWaitSt} (hnear : w.chart = false) :
    semMet s w = (w.met || semCond w.cond (s.rdLE w.addr 4) w.value) := by
  rw [semMet, hnear, Bool.not_false, Bool.true_and]

/-- The first semaphore command of a segment is over, where its latency and its condition are. -/
theorem semDone_first {op : Nat} {met : SemWaitSt → Bool} {w : SemWaitSt} {r : List SemWaitSt} (hwait : g.semWait = w :: r)
    (hop : w.opcode = op) (hnear : w.chart = false) (hdue : w.due ≤ s.time) (hmet : met w = true) : semDone s c g op met = some w := by
  rw [semDone, hwait]
  exact List.find?_cons_of_pos (by simp only [hop, hnear, hdue, hmet, beq_self_eq_true, Bool.not_false, decide_true, Bool.and_self])

theorem semDone_none {op : Nat} {met : SemWaitSt → Bool} (h : ∀ w ∈ g.semWait, w.opcode = op → met w = false) :
    semDone s c g op met = none :=
  List.find?_eq_none.mpr fun w hw hbad => by
    simp only [Bool.and_eq_true, beq_iff_eq] at hbad
    obtain ⟨⟨⟨hop, -⟩, -⟩, hmet⟩ := hbad
    exact Bool.false_ne_true ((h w hw hop).symm.trans hmet)

theorem exec_semWaitComplete_first {w : SemWaitSt} {r : List SemWaitSt} (hseg : s.seg c = some g) (hwait : g.semWait = w :: r)
    (hruns : s.runs (partOf c) = true) (hnear : w.chart = false) (hop : w.opcode = 0x30) (hdue : w.due ≤ s.time)
    (hmet : w.met = true ∨ semCond w.cond (s.rdLE w.addr 4) w.value = true) :
    exec (.semWaitComplete c) s = .next (s.semEnd c w.work) := by
  have hdone : semDone s c g 0x30 (semMet s) = some w :=
    semDone_first hwait hop hnear hdue ((semMet_local hnear).trans (Bool.or_eq_true_iff.mpr hmet))
  show execSemWaitComplete c s = _
  simp only [execSemWaitComplete, hseg, hdone, hruns, act_true]

theorem exec_semWaitComplete_none (hseg : s.seg c = some g)
    (h : ∀ w ∈ g.semWait, w.opcode = 0x30 → w.met = false ∧ semCond w.cond (s.rdLE w.addr 4) w.value = false) :
    exec (.semWaitComplete c) s = .next s := by
  have hdone : semDone s c g 0x30 (semMet s) = none := semDone_none fun w hw hop => by
    obtain ⟨hmet, hcond⟩ := h w hw hop
    rw [semMet, hmet, hcond, Bool.and_false, Bool.or_false]
  show execSemWaitComplete c s = _
  simp only [execSemWaitComplete, hseg, hdone]

/-- The first acquisition of a segment takes the lease that it finds. -/
theorem semGrant_first {w : SemWaitSt} {r : List SemWaitSt} {x : State × Bool × Bool} (hwait : g.semWait = w :: r)
    (hnear : w.chart = false) (hop : w.opcode = 0x32) (hmet : w.met = false) (hfirst : semFirst s g.ctx w = true)
    (hfinds : semAcquireAt s w.addr s.selfModule g.ctx w.value = some x) : semGrant s c g = some (w, x) := by
  rw [semGrant, hwait]
  simp only [List.findSome?_cons, hnear, hop, hmet, hfirst, hfinds, beq_self_eq_true, Bool.not_false, Bool.and_self, if_true, Option.map_some]

theorem semGrant_none (h : ∀ w ∈ g.semWait, w.opcode = 0x32 → w.met = true ∨ semAcquireAt s w.addr s.selfModule g.ctx w.value = none) :
    semGrant s c g = none :=
  List.findSome?_eq_none_iff.mpr fun w hw => by
    split
    · next hcond =>
      simp only [Bool.and_eq_true, beq_iff_eq, Bool.not_eq_true'] at hcond
      obtain ⟨⟨⟨hop, -⟩, hmet⟩, -⟩ := hcond
      rcases h w hw hop with hgranted | hnone
      · cases hmet.symm.trans hgranted
      · rw [hnone, Option.map_none]
    · rfl

section
variable (hseg : s.seg c = some g)
include hseg

theorem exec_leaseGrant_grants {w : SemWaitSt} {t : State} {anew expired : Bool} (hruns : s.runs (partOf c) = true)
    (hgrant : semGrant s c g = some (w, t, anew, expired)) : exec (.leaseGrant c) s
      = .next (if w.due ≤ s.time then (t.semGranted c w anew expired).semEnd c w.work else t.semGranted c w anew expired) := by
  show execLeaseGrant c s = _
  simp only [execLeaseGrant, hseg, hruns, hgrant, if_true]

theorem exec_leaseGrant_ends {w : SemWaitSt} (hruns : s.runs (partOf c) = true) (hgrant : semGrant s c g = none)
    (hdone : semDone s c g 0x32 (fun w => w.met) = some w) : exec (.leaseGrant c) s = .next (s.semEnd c w.work) := by
  show execLeaseGrant c s = _
  simp only [execLeaseGrant, hseg, hruns, hgrant, hdone, if_true]

theorem exec_leaseGrant_none (hgrant : semGrant s c g = none) (hdone : semDone s c g 0x32 (fun w => w.met) = none) :
    exec (.leaseGrant c) s = .next s := by
  show execLeaseGrant c s = _
  simp only [execLeaseGrant, hseg, hgrant, hdone, ite_self]

end

end

end Sys2Proof.Machine

namespace Sys2Proof.Proofs

open Sys2Proof.Machine

/-- Settles O32: NOTIFY, a semaphore command in either place and with a breach, and the ends of a wait and of an acquisition. -/
theorem notifyAndSemaphores : Obligations.NotifyAndSemaphores := by
  intro s c g b hseg
  refine ⟨exec_notify_room, fun a hbreach hnear htr hsound hplace => ?_, fun a hbreach htr hplace => ?_, fun x d => exec_semAdd_breach,
    fun w r hwait hruns hnear => ⟨exec_semWaitComplete_first hseg hwait hruns hnear, fun t anew expired hop hmet hfirst hfinds => ?_,
      fun hop hmet hdue hlast => ?_⟩,
    exec_semWaitComplete_none hseg, fun h => ?_, fun a => rfl⟩
  · have hpass := semChecked_here hbreach hnear htr hsound hplace
    exact ⟨fun h => exec_semWait_ready h hpass, fun h => exec_semAcquire_ready h hpass,
      fun h => by rw [exec_semAdd_ready h hpass, semRecord_here hplace],
      fun h => by rw [exec_semRelease_ready h hpass, semRecord_here hplace]⟩
  · have hpass := semChecked_there hbreach htr hplace
    exact ⟨fun h => exec_semWait_ready h hpass, fun h => exec_semAcquire_ready h hpass, fun hlimit hfree =>
      ⟨fun h => by rw [exec_semAdd_ready h hpass, semRecord_there hplace hseg hlimit hfree, semFar],
        fun h => by rw [exec_semRelease_ready h hpass, semRecord_there hplace hseg hlimit hfree, semFar]⟩⟩
  · exact exec_leaseGrant_grants hseg hruns (semGrant_first hwait hnear hop hmet hfirst hfinds)
  · have hgrant : semGrant s c g = none := semGrant_none fun v hv _ => by
      rw [hwait, hlast, List.mem_singleton] at hv
      exact .inl (hv ▸ hmet)
    exact exec_leaseGrant_ends hseg hruns hgrant (semDone_first hwait hop hnear hdue hmet)
  · exact exec_leaseGrant_none hseg (semGrant_none fun w hw hop => .inr (h w hw hop).2) (semDone_none fun w hw hop => (h w hw hop).1)

end Sys2Proof.Proofs

end

section
/-! PROOF. Packets that arrive (R230), and semaphores at their home (R167, R168, R234). -/

namespace Sys2Proof.Machine

/-! ### What a request at its home meets (R227, R230, R239) -/

section
variable {s : State} {p : Packet}

/-- A packet that can be taken leaves the receiver that held it. -/
theorem arrive_taken {op : Nat} (h : arrivesHere s p op) (go : State → State) : arrive s p op go = .next (go (s.unbox p)) := by
  obtain ⟨hlive, hdst, hgood, hop, hadmits⟩ := h
  simp only [arrive, hlive, hdst, hgood, hop, hadmits, beq_self_eq_true, Bool.and_self, Bool.not_true, Bool.false_eq_true, if_false, act_true]

/-- A writing request that is new passes the filter. -/
theorem filtered_unseen (h : unseen s p) (go : State → State) : filtered s p go = go s := by
  obtain ⟨hnew, hroom⟩ := h
  have hdup : s.dupOf p = none := hnew
  simp only [filtered, hdup, hroom, if_true]

theorem served_here {e : GazEntry} {len : Nat} (hserve : serveAt s (nameOf p.addr.toNat) = .at_ e)
    (hrange : s.parcelRange e (p.addr.toNat % 2097152) len = true) (go : GazEntry → Nat → State) :
    served s p len go = go e (e.at_ + p.addr.toNat % 2097152) := by
  simp only [served, hserve, hrange, if_true]

/-- A read of words without an error meets none. -/
theorem meet_of_noErrors {a k : Nat} (h : noErrors s a k) : s.meet a k = s := by
  obtain ⟨hwords, hlines⟩ := h
  have hclean : s.synd.filter (fun q => q.2 != 0x7F && decide (a < 4 * q.1 + 4) && decide (4 * q.1 < a + k)) = [] :=
    List.filter_eq_nil_iff.mpr fun q hq hbad => by
      simp only [Bool.and_eq_true, decide_eq_true_eq] at hbad
      obtain ⟨⟨-, hlow⟩, hhigh⟩ := hbad
      exact hwords q hq ⟨hlow, hhigh⟩
  simp only [State.meet, hclean, hlines, List.foldl_nil]

end

/-! ### A request that waits for its semaphore (R234) -/

/-- The answer of a request that has just come, none where it must wait. -/
def semNow (s : State) (p : Packet) (a : Nat) : Option State := if semQueued s p a (semOrder s) then none else semTry s p a

/-- A request that must wait joins the list, or is answered BUSY where the list is full. -/
def State.semHold (s : State) (p : Packet) (a : Nat) : State :=
  if s.chart.waiters.length < 1024 then
    { s with chart := { s.chart with waiters := s.chart.waiters ++ [{ pkt := p, since := s.time, at_ := a, order := semOrder s }] } }
  else s.refuse p 11 10 0 0

section
variable {s : State} {p : Packet} {a : Nat}

theorem semHold_room (h : s.chart.waiters.length < 1024) : s.semHold p a
    = { s with chart := { s.chart with waiters := s.chart.waiters ++ [{ pkt := p, since := s.time, at_ := a, order := semOrder s }] } } := if_pos h

theorem semHold_full (h : 1024 ≤ s.chart.waiters.length) : s.semHold p a = s.refuse p 11 10 0 0 := if_neg (Nat.not_lt.mpr h)

/-- Only an acquisition waits behind an earlier one. -/
theorem semNow_wait (h : p.opcode.toNat = 2) : semNow s p a = semTry s p a := by
  simp only [semNow, semQueued, h, Nat.reduceBEq, Bool.false_and, Bool.false_eq_true, if_false]

theorem semNow_first (h : semQueued s p a (semOrder s) = false) : semNow s p a = semTry s p a := by
  rw [semNow, h, if_neg Bool.false_ne_true]

theorem semNow_none (h : semQueued s p a (semOrder s) = true ∨ semTry s p a = none) : semNow s p a = none := by
  rcases h with hqueued | htry
  · rw [semNow, hqueued, if_pos rfl]
  · rw [semNow, htry, ite_self]

end

/-! ### Each semaphore request at its home (R167, R168, R234) -/

section
variable {s0 s : State} {p : Packet} {e : GazEntry} {off a : Nat} (hs : s = s0.unbox p) (hoff : off = p.addr.toNat % 2097152)
  (ha : a = e.at_ + off) (hserve : serveAt s (nameOf p.addr.toNat) = .at_ e) (hrange : s.parcelRange e off 16 = true)
include hs hoff ha hserve hrange

theorem exec_chartSemAdd_served (h : arrivesHere s0 p 0x12) (hnew : unseen s p) : exec (.chartSemAdd p) s0
    = .next (((s.semAddTo a (semVal p)).markLines e.name off 16).applied p (s.ack p)) := by
  subst hs hoff ha
  show execChartSemAdd p s0 = _
  rw [execChartSemAdd, arrive_taken h, filtered_unseen hnew, served_here hserve hrange]

/-- A release frees the lease that is live and the context's own, and is told of any other that it is lost. -/
theorem exec_chartSemRelease_served (h : arrivesHere s0 p 0x13) (hnew : unseen s p) : exec (.chartSemRelease p) s0
    = .next (if leaseOf s a = .live ∧ heldByCtx s a p.src.toNat (semCtxOf p) then
        ((s.semFree a).markLines e.name off 16).applied p (s.ack p)
      else s.applied p { s.ack p with aux := 1 }) := by
  subst hs hoff ha
  show execChartSemRelease p s0 = _
  rw [execChartSemRelease, arrive_taken h, filtered_unseen hnew, served_here hserve hrange]

section
variable (hsound : noErrors s a 16) {op : Nat} (h : arrivesHere s0 p op)
include hsound h

theorem semArrive_now {t : State} (hnow : semNow s p a = some t) : semArrive op p s0 = .next (t.markLines e.name off 16) := by
  subst hs hoff ha
  rw [semNow] at hnow
  rw [semArrive, arrive_taken h, served_here hserve hrange]
  simp only [meet_of_noErrors hsound, hnow]

theorem semArrive_holds (hnow : semNow s p a = none) : semArrive op p s0 = .next (s.semHold p a) := by
  subst hs hoff ha
  rw [semNow] at hnow
  rw [semArrive, arrive_taken h, served_here hserve hrange]
  simp only [meet_of_noErrors hsound, hnow, State.semHold]

end

/-- A cancel takes the context's requests off the list, and frees its lease. -/
theorem exec_semCancel_served (h : arrivesHere s0 p 0x04) {u : State}
    (hu : u = { s with chart := { s.chart with waiters := s.chart.waiters.filter (fun w =>
      !(w.pkt.addr == p.addr && w.pkt.src == p.src && semCtxOf w.pkt == semCtxOf p)) } }) : exec (.semCancel p) s0
    = .next (let v := if heldByCtx s a p.src.toNat (semCtxOf p) then (u.semFree a).markLines e.name off 16 else u
        v.sendPacket (v.ack p)) := by
  subst hs hoff ha hu
  show execSemCancel p s0 = _
  rw [execSemCancel, arrive_taken h, served_here hserve hrange]
  rfl

end

theorem exec_semHoldExpiry_due {s : State} {i : Nat} {w : Waiter} (hlive : s.live = true) (hw : s.chart.waiters[i]? = some w)
    (hdue : w.since + 800 * clamp 1 255 (s.inForce CHT.TIMERS2.SEM_HOLD_US) ≤ s.time) : exec (.semHoldExpiry i) s
      = .next (State.refuse { s with chart := { s.chart with waiters := s.chart.waiters.eraseIdx i } } w.pkt 10 0 0 0) := by
  show execSemHoldExpiry i s = _
  simp only [execSemHoldExpiry, hw, hlive, hdue, decide_true, Bool.and_self, act_true]

end Sys2Proof.Machine

namespace Sys2Proof.Proofs

open Sys2Proof.Machine

/-- Settles O37: each semaphore request where its parcel is served, and a request that has been held too long. -/
theorem homeSemaphores : Obligations.HomeSemaphores := by
  refine ⟨fun s0 s p e off a hs hoff ha hserve hrange => ⟨exec_chartSemAdd_served hs hoff ha hserve hrange, fun h hnew => ?_,
    fun h hsound => ?_, fun h hsound => ?_, fun h u hu => ?_⟩, fun s i w => exec_semHoldExpiry_due⟩
  · rw [exec_chartSemRelease_served hs hoff ha hserve hrange h hnew]
    refine ⟨fun hlive hown => by rw [if_pos ⟨hlive, hown⟩], fun hlost => ?_⟩
    have hrefused : ¬(leaseOf s a = .live ∧ heldByCtx s a p.src.toNat (semCtxOf p) = true) := fun ⟨hlive, hown⟩ =>
      hlost.elim (fun hdead => hdead hlive) fun hother => Bool.false_ne_true (hother.symm.trans hown)
    rw [if_neg hrefused]
  · have ⟨_, _, _, hop, _⟩ := h
    refine ⟨fun t htry => ?_, fun htry hroom => ?_, fun htry hfull => ?_⟩
    · exact semArrive_now hs hoff ha hserve hrange hsound h ((semNow_wait hop).trans htry)
    · exact semHold_room hroom ▸ semArrive_holds hs hoff ha hserve hrange hsound h ((semNow_wait hop).trans htry)
    · exact semHold_full hfull ▸ semArrive_holds hs hoff ha hserve hrange hsound h ((semNow_wait hop).trans htry)
  · refine ⟨fun t hfirst htry => ?_, fun hwait hroom => ?_, fun hwait hfull => ?_⟩
    · exact semArrive_now hs hoff ha hserve hrange hsound h ((semNow_first hfirst).trans htry)
    · exact semHold_room hroom ▸ semArrive_holds hs hoff ha hserve hrange hsound h (semNow_none hwait)
    · exact semHold_full hfull ▸ semArrive_holds hs hoff ha hserve hrange hsound h (semNow_none hwait)
  · rw [exec_semCancel_served hs hoff ha hserve hrange h hu]
    refine ⟨fun hother => ?_, fun hown v hv => ?_⟩
    · rw [hother, if_neg Bool.false_ne_true]
    · rw [hown, if_pos rfl, hv]

end Sys2Proof.Proofs

end

section
/-! PROOF. Answers to Chart requests (R231, R240), their timeouts (R237) and resends (R231). -/

namespace Sys2Proof.Machine

/-! ### Answers (R165, R168, R171, R231, R240) -/

/-- The ACK of an entry: of a release it ends the lease, and AUX[0] says that the lease was lost (R168). -/
def State.ackedEntry (x : State) (r : CReq) (p : Packet) (n : PartIx) (e : OutEntry) : State :=
  let y := if r.pkt.opcode = 0x13 then x.leaseEnds e else x
  if r.pkt.opcode = 0x13 && bit p.aux.toNat 0 then y.chartLeaseLost n e else y

section
variable {x : State} {r : CReq} {p : Packet} {n : PartIx} {e : OutEntry}

theorem ackedEntry_other (h : r.pkt.opcode ≠ 0x13) : x.ackedEntry r p n e = x := by
  simp only [State.ackedEntry, h, decide_false, Bool.false_and, Bool.false_eq_true, if_false]

theorem ackedEntry_release (h : r.pkt.opcode = 0x13) : x.ackedEntry r p n e
    = if bit p.aux.toNat 0 then (x.leaseEnds e).chartLeaseLost n e else x.leaseEnds e := by
  simp only [State.ackedEntry, h, decide_true, Bool.true_and, if_true]

end

section
variable {s0 s : State} {p : Packet} (hs : s = s0.unbox p)
include hs

/-- An answer to no request is late, whichever it is. -/
theorem exec_answer_late (hreq : s.reqFor p = none) : (arrivesHere s0 p 0x20 → exec (.chartReadData p) s0 = .next (s.late p))
    ∧ (arrivesHere s0 p 0x21 → exec (.chartAck p) s0 = .next (s.late p))
    ∧ (arrivesHere s0 p 0x22 → exec (.semResult p) s0 = .next (s.late p)) := by
  subst hs
  refine ⟨fun h => ?_, fun h => ?_, fun h => ?_⟩
  · show execChartReadData p s0 = _
    simp only [execChartReadData, arrive_taken h, hreq]
  · show execChartAck p s0 = _
    simp only [execChartAck, arrive_taken h, hreq]
  · show execSemResult p s0 = _
    simp only [execSemResult, arrive_taken h, hreq]

section
variable {r : CReq} (hreq : s.reqFor p = some r)
include hreq

theorem exec_chartReadData_read {c : Nat} (h : arrivesHere s0 p 0x20) (hkind : r.kind = .read c) : exec (.chartReadData p) s0
    = .next (((s.forget r).reqBack r.part.val).deliver (toCore c) p.tag.toNat p.payload (badWordsOf p)) := by
  subst hs
  show execChartReadData p s0 = _
  simp only [execChartReadData, arrive_taken h, hreq, hkind]

theorem exec_chartAck_entry {n id : Nat} {e : OutEntry} {x : State} (h : arrivesHere s0 p 0x21) (hkind : r.kind = .queue n id)
    (hx : (s.forget r).creditBack n = x) (he : (x.part (toPart n)).outq.find? (fun e => e.id == id) = some e) :
    exec (.chartAck p) s0 = .next ((x.ackedEntry r p (toPart n) e).queueDone (toPart n) id) := by
  subst hs hx
  show execChartAck p s0 = _
  simp only [execChartAck, arrive_taken h, hreq, hkind, he, State.ackedEntry]

theorem exec_chartAck_block {slot k : Nat} (h : arrivesHere s0 p 0x21) (hkind : r.kind = .parcel slot k) :
    exec (.chartAck p) s0 = .next ((s.forget r).blockDone slot) := by
  subst hs
  show execChartAck p s0 = _
  simp only [execChartAck, arrive_taken h, hreq, hkind]

/-- The round trip of a semaphore command ends; the answer of an acquisition grants it first. -/
theorem exec_semResult_answers {c : Nat} {g : Seg} {w : SemWaitSt} {x : State} (h : arrivesHere s0 p 0x22) (hkind : r.kind = .sem c)
    (hx : (s.forget r).reqBack r.part.val = x) (hseg : x.seg (toCore c) = some g) (hw : semOf g p.tag.toNat = some w) :
    exec (.semResult p) s0 = .next
      ((if w.opcode = 0x32 then x.semGot (toCore c) g w.addr p.tag.toNat else x).semEnd (toCore c) w.work) := by
  subst hs hx
  show execSemResult p s0 = _
  simp only [execSemResult, arrive_taken h, hreq, hkind, hseg, hw]

theorem exec_chartNack_request (h : arrivesHere s0 p 0x23) : exec (.chartNack p) s0 = .next (s.reqNack r p) := by
  subst hs
  show execChartNack p s0 = _
  simp only [execChartNack, arrive_taken h, hreq]

end

section
variable (h : arrivesHere s0 p 0x23) (hreq : s.reqFor p = none)
include h hreq

theorem exec_chartNack_directory {d : DirMsg} (hdir : s.dirFor p = some d) : exec (.chartNack p) s0 = .next (s.dirNack d p) := by
  subst hs
  show execChartNack p s0 = _
  simp only [execChartNack, arrive_taken h, hreq, hdir]

/-- A NACK that answers nothing is a parcel's refusal, or late. -/
theorem exec_chartNack_unasked (hdir : s.dirFor p = none) :
    (∀ t, s.refusedTicket p = some t → exec (.chartNack p) s0 = .next (s.releaseRefused t))
    ∧ (s.refusedTicket p = none → exec (.chartNack p) s0 = .next (s.late p)) := by
  subst hs
  have hnack : exec (.chartNack p) s0 = execChartNack p s0 := rfl
  refine ⟨fun t ht => ?_, fun ht => ?_⟩ <;> simp only [hnack, execChartNack, arrive_taken h, hreq, hdir, ht]

end

section
variable (h : arrivesHere s0 p 0x3F)
include h

theorem exec_dirAck_late (hdir : s.dirFor p = none) : exec (.dirAck p) s0 = .next (s.late p) := by
  subst hs
  show execDirAck p s0 = _
  simp only [execDirAck, arrive_taken h, hdir]

theorem exec_dirAck_ring {d : DirMsg} {i : Nat} (hdir : s.dirFor p = some d) (hkind : d.kind = .ring i) :
    exec (.dirAck p) s0 = .next (s.ringAnswer d i p) := by
  subst hs
  show execDirAck p s0 = _
  simp only [execDirAck, arrive_taken h, hdir, hkind]

/-- A DIR_ACK ends its message, but one that asks for another attempt sets its time. -/
theorem exec_dirAck_plain {d : DirMsg} (hdir : s.dirFor p = some d) (hkind : d.kind = .plain) : exec (.dirAck p) s0
    = .next (if p.status.toNat ∈ [2, 3, 10, 11] then s.modDir d (fun x => { x with again := some (s.time + 800 * p.retry.toNat) })
      else s.forgetDir d) := by
  subst hs
  show execDirAck p s0 = _
  simp only [execDirAck, arrive_taken h, hdir, hkind, List.mem_cons, List.not_mem_nil, or_false]

end

end

/-! ### Timeouts and resends (R231, R237, R244) -/

section
variable {s : State} {i : Nat}

section
variable {r : CReq} (hr : s.chart.reqs[i]? = some r)
include hr

theorem exec_responseTimeout_due (hlive : s.live = true) (hagain : r.again = none)
    (hdue : r.sent + 800 * clamp 10 10000 (s.inForce CHT.TIMERS.RESP_US) ≤ s.time) :
    exec (.responseTimeout i) s = .next (s.attemptOver r) := by
  show execResponseTimeout i s = _
  simp only [execResponseTimeout, hr, hlive, hagain, hdue, Option.isNone_none, decide_true, Bool.and_self, act_true]

theorem exec_responseTimeout_early (h : s.time < r.sent + 800 * clamp 10 10000 (s.inForce CHT.TIMERS.RESP_US)) :
    exec (.responseTimeout i) s = .next s := by
  show execResponseTimeout i s = _
  simp only [execResponseTimeout, hr, decide_eq_false (Nat.not_le.mpr h), Bool.and_false, act_false]

/-- When RETRY_AFTER of a request has run, it is sent again, or fails for good. -/
theorem exec_retryAfterExpiry_request {t : Nat} (hlive : s.live = true) (hagain : r.again = some t) (hdue : t ≤ s.time) :
    exec (.retryAfterExpiry i) s
      = .next (if s.unavailOver r.first then s.reqFailed r r.last else s.resend r (fun q => { q with hops := 0 })) := by
  show execRetryAfterExpiry i s = _
  simp only [execRetryAfterExpiry, hr, hlive, hagain, hdue, decide_true, Bool.and_self, act_true]

end

section
variable {d : DirMsg} (hlive : s.live = true) (hd : s.chart.dirs[i]? = some d)
include hlive hd

theorem exec_directoryTimeout_due (hagain : d.again = none)
    (hdue : d.sent + 800 * clamp 10 65535 (s.inForce CHT.DIR.DIR_US) ≤ s.time) : exec (.directoryTimeout i) s = .next (s.dirOver d) := by
  show execDirectoryTimeout i s = _
  simp only [execDirectoryTimeout, hd, hlive, hagain, hdue, Option.isNone_none, decide_true, Bool.and_self, act_true]

theorem exec_retryAfterExpiry_directory {t : Nat} (hkind : d.kind = .plain) (hagain : d.again = some t) (hdue : t ≤ s.time)
    (hgoes : d.tagged = false ∨ s.unavailOver d.first = false) :
    exec (.retryAfterExpiry (s.chart.reqs.length + i)) s = .next (s.resendDir d d.pkt.dst.toNat id) := by
  have hbehind : s.chart.reqs[s.chart.reqs.length + i]? = none := List.getElem?_eq_none (Nat.le_add_right _ i)
  have hlast : (d.tagged && s.unavailOver d.first) = false := by
    rcases hgoes with h | h
    · rw [h, Bool.false_and]
    · rw [h, Bool.and_false]
  show execRetryAfterExpiry (s.chart.reqs.length + i) s = _
  simp only [execRetryAfterExpiry, hbehind, Nat.add_sub_cancel_left, hd, hlive, hagain, hdue, hkind, hlast, decide_true, Bool.and_self,
    act_true, Bool.false_eq_true, if_false]

end

end

end Sys2Proof.Machine

namespace Sys2Proof.Proofs

open Sys2Proof.Machine

/-- Settles O39: each answer by what it answers, and each timer at its time. -/
theorem chartAnswersAndTimers : Obligations.ChartAnswersAndTimers := by
  refine ⟨fun s0 s p hs => ⟨fun r c h hreq hkind => exec_chartReadData_read hs hreq h hkind, exec_answer_late hs,
      fun r n id e h hreq hkind he => ?_, fun r slot k h hreq hkind => exec_chartAck_block hs hreq h hkind,
      fun r c g w h hreq hkind hseg hw => ?_, fun r h hreq => exec_chartNack_request hs hreq h,
      fun d h hreq hdir => exec_chartNack_directory hs h hreq hdir, fun h hreq hdir => exec_chartNack_unasked hs h hreq hdir,
      fun d i h hdir hkind => exec_dirAck_ring hs h hdir hkind, fun d h hdir hkind => ?_, fun h hdir => exec_dirAck_late hs h hdir⟩,
    fun s i hlive => ⟨fun r hr => ⟨exec_responseTimeout_due hr hlive, exec_responseTimeout_early hr, fun t hagain hdue => ?_⟩,
      fun d hd => exec_directoryTimeout_due hlive hd, fun d t hd => exec_retryAfterExpiry_directory hlive hd⟩⟩
  · rw [exec_chartAck_entry hs hreq h hkind rfl he]
    refine ⟨fun hop => by rw [ackedEntry_other hop], fun hop hheld => ?_, fun hop hlost => ?_⟩
    · rw [ackedEntry_release hop, hheld, if_neg Bool.false_ne_true]
    · rw [ackedEntry_release hop, hlost, if_pos rfl]
  · rw [exec_semResult_answers hs hreq h hkind rfl hseg hw]
    exact ⟨fun hop => by rw [hop, if_neg (by decide)], fun hop => by rw [if_pos hop]⟩
  · rw [exec_dirAck_plain hs h hdir hkind]
    exact ⟨fun hends => by rw [if_neg hends], fun hagain => by rw [if_pos hagain]⟩
  · rw [exec_retryAfterExpiry_request hr hlive hagain hdue]
    exact ⟨fun hover => by rw [if_pos hover], fun hgoes => by rw [hgoes, if_neg Bool.false_ne_true]⟩

end Sys2Proof.Proofs

end

section
/-! PROOF. A write that no segment makes (R163, R210). -/

namespace Sys2Proof.Machine

/-! ### Poison of words (R205) -/

section
variable {s : State} {a : Nat}

theorem State.poisonAt_eq (s : State) (a : Nat) (l : List Nat) : ∃ y, s.poisonAt a l = { s with synd := y } :=
  List.foldlRecOn (motive := fun t : State => ∃ y, t = { s with synd := y }) l _ ⟨s.synd, rfl⟩ fun t ht o _ => by
    obtain ⟨y, rfl⟩ := ht
    exact ⟨_, rfl⟩

section
variable (l : List Nat)

theorem State.poisonAt_mem : (s.poisonAt a l).mem = s.mem := by obtain ⟨y, h⟩ := s.poisonAt_eq a l; rw [h]
theorem State.poisonAt_regs : (s.poisonAt a l).regs = s.regs := by obtain ⟨y, h⟩ := s.poisonAt_eq a l; rw [h]
theorem State.poisonAt_parts : (s.poisonAt a l).parts = s.parts := by obtain ⟨y, h⟩ := s.poisonAt_eq a l; rw [h]
theorem State.poisonAt_cores : (s.poisonAt a l).cores = s.cores := by obtain ⟨y, h⟩ := s.poisonAt_eq a l; rw [h]
theorem State.poisonAt_lineErrs : (s.poisonAt a l).lineErrs = s.lineErrs := by obtain ⟨y, h⟩ := s.poisonAt_eq a l; rw [h]

end

/-- A word is poisoned where it was, and where one of the offsets names it. -/
theorem State.poisoned_poisonAt (l : List Nat) (b : Nat) :
    (s.poisonAt a l).poisoned b = true ↔ s.poisoned b = true ∨ ∃ o ∈ l, (a + o) / 4 = b / 4 := by
  induction l generalizing s with
  | nil => simp [State.poisonAt]
  | cons o r ih =>
    have hstep : (s.poison (a + o)).poisoned b = true ↔ s.poisoned b = true ∨ (a + o) / 4 = b / 4 := by
      by_cases hword : b / 4 = (a + o) / 4
      · have hsame : (s.poison (a + o)).poisoned b = (s.poison (a + o)).poisoned (a + o) := by rw [State.poisoned, hword, State.poisoned]
        simp only [hsame, State.poisoned_poison, hword, or_true]
      · rw [State.poisoned_poison_other s _ _ hword]
        simp only [Ne.symm hword, or_false]
    rw [State.poisonAt, List.foldl_cons, ← State.poisonAt, ih, hstep]
    simp only [List.mem_cons, exists_eq_or_imp, or_assoc]

/-- A word that is written whole has its check bits anew. -/
theorem State.find?_synd_wrBytes (bs : List Byte) (w : Nat) : Sparse.find? (s.wrBytes a bs).synd w
    = if a ≤ 4 * w ∧ 4 * w + 4 ≤ a + bs.length then none else Sparse.find? s.synd w := by
  have hfind := Sparse.find?_filter s.synd (fun k => !(decide (a ≤ 4 * k) && decide (4 * k + 4 ≤ a + bs.length))) w
  rw [← Bool.decide_and] at hfind
  by_cases hwhole : a ≤ 4 * w ∧ 4 * w + 4 ≤ a + bs.length
  · rw [if_pos hwhole]
    exact hfind.trans (by rw [decide_eq_true hwhole]; rfl)
  · rw [if_neg hwhole]
    exact hfind.trans (by rw [decide_eq_false hwhole]; rfl)

theorem State.poisoned_wrBytes_other {bs : List Byte} {b : Nat} (h : ¬(a ≤ 4 * (b / 4) ∧ 4 * (b / 4) + 4 ≤ a + bs.length)) :
    (s.wrBytes a bs).poisoned b = s.poisoned b := by
  rw [State.poisoned, Sparse.get, State.find?_synd_wrBytes, if_neg h, State.poisoned, Sparse.get]

theorem State.poisoned_wrBytes_whole {bs : List Byte} {b : Nat} (h : a ≤ 4 * (b / 4) ∧ 4 * (b / 4) + 4 ≤ a + bs.length) :
    (s.wrBytes a bs).poisoned b = false := by
  rw [State.poisoned, Sparse.get, State.find?_synd_wrBytes, if_pos h]
  decide

end

/-! ### What follows a write from outside (R163, R206, R210, R218) -/

section
variable {s : State} {a k : Nat}

/-- No line of the write meets an error. -/
theorem wrote_of_no_errs (h : s.errsIn a k = []) : s.wrote a k = s := by rw [State.wrote, h, List.foldl_nil]

/-- A migration's map is all that the marks of its lines change. -/
theorem migDirty_eq (s : State) (base : Nat) (ls : List Nat) : ∃ ps, s.migDirty base ls = { s with parts := ps } := by
  rw [State.migDirty, forParts]
  refine List.foldlRecOn (motive := fun t : State => ∃ ps, t = { s with parts := ps }) allParts _ ⟨s.parts, rfl⟩ fun t ⟨ps, ht⟩ n _ => ?_
  rw [ht]
  exact ⟨_, rfl⟩

theorem migDirty_deferred (s : State) (base : Nat) (ls : List Nat) (m : PartIx) :
    ((s.migDirty base ls).part m).deferred = (s.part m).deferred := by
  rw [State.migDirty, forParts]
  refine List.foldlRecOn (motive := fun t : State => (t.part m).deferred = (s.part m).deferred) allParts _ rfl fun t ht n _ => ?_
  by_cases hm : m = n
  · rw [hm, State.part_modPart_same, ← hm, ht]
  · rw [State.part_modPart_other _ _ _ _ hm, ht]

theorem linesIn_zero (off : Nat) : linesIn off 0 = [] := if_pos rfl

/-- In a page that no deferred flip holds back the write has no consequence but the marks. -/
theorem afterExtPage_eq {base off len : Nat} (h : len ≠ 0 → ∀ n, ∀ d ∈ (s.part n).deferred, ∀ w ∈ d.pages, w.dry ≠ base) :
    s.afterExtPage base off len = s.migDirty base (linesIn off len) := by
  rw [State.afterExtPage, forParts]
  congr 1
  refine List.foldlRecOn (motive := fun t : State => t = s) allParts _ rfl fun t ht n _ => ?_
  subst ht
  refine List.foldlRecOn (motive := fun u : State => u = t) _ _ rfl fun u hu d hd => ?_
  subst hu
  refine List.foldlRecOn (motive := fun v : State => v = u) _ _ rfl fun v hv w hw => ?_
  subst hv
  by_cases hlen : len = 0
  · rw [hlen, linesIn_zero, List.foldl_nil, ite_self]
  · exact if_neg (h hlen n d hd w hw)

theorem clobbered_eq (s : State) (a k : Nat) : ∃ r, s.clobbered a k = { s with regs := r } := by
  rw [State.clobbered, forCores]
  refine List.foldlRecOn (motive := fun t : State => ∃ r, t = { s with regs := r }) allCores _ ⟨s.regs, rfl⟩ fun t ⟨r, ht⟩ c _ => ?_
  rw [ht]
  split
  · exact ⟨_, rfl⟩
  · exact ⟨r, rfl⟩

/-- What one core counts of a write of k bytes at a local offset. -/
def clobbers (a k : Nat) (c : CoreIx) (t : State) : State :=
  if wroteWet t c a k then t.bump (WET.STATUS_n.CLOBBERED (partOf c)) 1 else t

theorem clobbered_eq_forCores (s : State) (a k : Nat) : s.clobbered a k = forCores allCores (clobbers a k) s := rfl

/-- Cores whose segments have written none of the lines count nothing. -/
theorem forCores_clobbers_none {l : List CoreIx} (h : ∀ c ∈ l, wroteWet s c a k = false) : forCores l (clobbers a k) s = s := by
  rw [forCores]
  refine List.foldlRecOn (motive := fun t : State => t = s) l _ rfl fun t ht c hc => ?_
  rw [ht, clobbers, h c hc, if_neg Bool.false_ne_true]

theorem clobbered_of_none (h : ∀ c, wroteWet s c a k = false) : s.clobbered a k = s := forCores_clobbers_none fun c _ => h c

/-- The one core whose segment has written a line of the write counts it. -/
theorem clobbered_of_one {c : CoreIx} (hc : wroteWet s c a k = true) (hothers : ∀ d, d ≠ c → wroteWet s d a k = false) :
    s.clobbered a k = s.bump (WET.STATUS_n.CLOBBERED (partOf c)) 1 := by
  obtain ⟨l, r, hall⟩ := List.append_of_mem (mem_allCores c)
  have hnodup : (l ++ c :: r).Nodup := hall ▸ (by decide : allCores.Nodup)
  obtain ⟨-, hright, hapart⟩ := List.nodup_append.mp hnodup
  have hbefore : forCores l (clobbers a k) s = s :=
    forCores_clobbers_none fun d hd => hothers d (hapart d hd c List.mem_cons_self)
  have hafter : forCores r (clobbers a k) (s.bump (WET.STATUS_n.CLOBBERED (partOf c)) 1) = s.bump (WET.STATUS_n.CLOBBERED (partOf c)) 1 :=
    forCores_clobbers_none fun d hd => hothers d fun hdc => (List.nodup_cons.mp hright).1 (hdc ▸ hd)
  calc s.clobbered a k = forCores (l ++ c :: r) (clobbers a k) s := by rw [clobbered_eq_forCores, hall]
    _ = forCores r (clobbers a k) (clobbers a k c (forCores l (clobbers a k) s)) := by simp only [forCores, List.foldl_append, List.foldl_cons]
    _ = s.bump (WET.STATUS_n.CLOBBERED (partOf c)) 1 := by rw [hbefore, clobbers, hc, if_pos rfl, hafter]

theorem afterExt_pages (herrs : s.errsIn a k = []) : s.afterExt a k
    = let t := (s.clobbered a k).afterExtPage (65536 * (a / 65536)) (a % 65536) (min k (65536 - a % 65536))
      if min k (65536 - a % 65536) < k then t.afterExtPage (65536 * (a / 65536 + 1)) 0 (k - min k (65536 - a % 65536)) else t := by
  rw [State.afterExt, wrote_of_no_errs herrs]

/-- A write that meets no error and no page that is held back counts for the segments whose wet ink it meets; beside that it marks the
lines of migrations. -/
theorem afterExt_eq (hheld : ∀ n, ∀ d ∈ (s.part n).deferred, ∀ w ∈ d.pages, ¬(a < w.dry + 65536 ∧ w.dry < a + k))
    (herrs : s.errsIn a k = []) : ∃ ps, s.afterExt a k = { s.clobbered a k with parts := ps } := by
  obtain ⟨r, hr⟩ := clobbered_eq s a k
  have hparts (n : PartIx) : (s.clobbered a k).part n = s.part n := by rw [hr, State.part, State.part]
  rw [afterExt_pages herrs]
  generalize s.clobbered a k = t at hparts
  have hfirst : t.afterExtPage (65536 * (a / 65536)) (a % 65536) (min k (65536 - a % 65536)) = t.migDirty _ _ :=
    afterExtPage_eq fun hlen n d hd w hw hdry => hheld n d (hparts n ▸ hd) w hw (by omega)
  have hdeferred := migDirty_deferred t (65536 * (a / 65536)) (linesIn (a % 65536) (min k (65536 - a % 65536)))
  obtain ⟨ps, hps⟩ := migDirty_eq t (65536 * (a / 65536)) (linesIn (a % 65536) (min k (65536 - a % 65536)))
  rw [hfirst]
  split
  · next hmore =>
    rw [afterExtPage_eq fun _ n d hd w hw hdry => hheld n d (hparts n ▸ hdeferred n ▸ hd) w hw (by omega), hps]
    exact migDirty_eq _ _ _
  · exact ⟨ps, hps⟩

theorem wroteWet_congr {t : State} (h : t.cores = s.cores) (c : CoreIx) : wroteWet t c a k = wroteWet s c a k := by
  rw [wroteWet, wroteWet, State.seg, State.seg, State.core, State.core, h]

end

/-! ### The write as a whole (R163) -/

section
variable {s : State} {a : Nat} {bs : List Byte} {bad : List Nat}

/-- A byte is poisoned behind the write where the payload marks its word, or where it was and its word is not written. -/
theorem poisoned_stored (b : Nat) : ((s.wrBytes a bs).poisonAt a bad).poisoned b = true ↔
    (s.poisoned b = true ∧ ¬(a ≤ 4 * (b / 4) ∧ 4 * (b / 4) + 4 ≤ a + bs.length)) ∨ ∃ o ∈ bad, (a + o) / 4 = b / 4 := by
  rw [State.poisoned_poisonAt]
  by_cases hwhole : a ≤ 4 * (b / 4) ∧ 4 * (b / 4) + 4 ≤ a + bs.length
  · simp only [State.poisoned_wrBytes_whole hwhole, hwhole, Bool.false_eq_true, not_true_eq_false, and_false, and_self]
  · simp only [State.poisoned_wrBytes_other hwhole, hwhole, not_false_eq_true, and_true]

/-- The state whose bytes and poison are written, before what follows the write: what it keeps. -/
theorem stored_cores : ((s.wrBytes a bs).poisonAt a bad).cores = s.cores := by rw [State.poisonAt_cores, State.wrBytes_cores]
theorem stored_regs : ((s.wrBytes a bs).poisonAt a bad).regs = s.regs := by rw [State.poisonAt_regs, State.wrBytes_regs]
theorem stored_part (n : PartIx) : ((s.wrBytes a bs).poisonAt a bad).part n = s.part n := by
  rw [State.part, State.poisonAt_parts, State.wrBytes_parts, State.part]
theorem stored_errsIn (k : Nat) : ((s.wrBytes a bs).poisonAt a bad).errsIn a k = s.errsIn a k := by
  rw [State.errsIn, State.poisonAt_lineErrs, State.wrBytes_lineErrs, State.errsIn]

variable (hheld : ∀ n, ∀ d ∈ (s.part n).deferred, ∀ w ∈ d.pages, ¬(a < w.dry + 65536 ∧ w.dry < a + bs.length))
  (herrs : s.errsIn a bs.length = [])
include hheld herrs

/-- The write stores its bytes and their poison, and counts for the segments whose wet ink it meets. -/
theorem extWrite_frame : (s.extWrite a bs bad).mem = (s.wrBytes a bs).mem
    ∧ (s.extWrite a bs bad).synd = ((s.wrBytes a bs).poisonAt a bad).synd ∧ (s.extWrite a bs bad).cores = s.cores
    ∧ (s.extWrite a bs bad).regs = (((s.wrBytes a bs).poisonAt a bad).clobbered a bs.length).regs := by
  obtain ⟨ps, hps⟩ := afterExt_eq (s := (s.wrBytes a bs).poisonAt a bad) (fun n => by rw [stored_part]; exact hheld n)
    ((stored_errsIn _).trans herrs)
  obtain ⟨r, hr⟩ := clobbered_eq ((s.wrBytes a bs).poisonAt a bad) a bs.length
  rw [State.extWrite, hps, hr]
  exact ⟨State.poisonAt_mem _, rfl, stored_cores, rfl⟩

theorem extWrite_poisoned (b : Nat) : (s.extWrite a bs bad).poisoned b = ((s.wrBytes a bs).poisonAt a bad).poisoned b := by
  obtain ⟨-, hsynd, -, -⟩ := extWrite_frame (bad := bad) hheld herrs
  rw [State.poisoned, hsynd, State.poisoned]

theorem extWrite_rd8 (b : Nat) : (s.extWrite a bs bad).rd8 b = (s.wrBytes a bs).rd8 b := by
  obtain ⟨hmem, -, -, -⟩ := extWrite_frame (bad := bad) hheld herrs
  rw [State.rd8, hmem, State.rd8]

theorem extWrite_seg (c : CoreIx) : (s.extWrite a bs bad).seg c = s.seg c := by
  obtain ⟨-, -, hcores, -⟩ := extWrite_frame (bad := bad) hheld herrs
  rw [State.seg, State.core, hcores, State.seg, State.core]

/-- Registers stay where no segment has written a line of the write. -/
theorem extWrite_regs_of_none (h : ∀ c, wroteWet s c a bs.length = false) : (s.extWrite a bs bad).regs = s.regs := by
  obtain ⟨-, -, -, hregs⟩ := extWrite_frame (bad := bad) hheld herrs
  rw [hregs, clobbered_of_none fun c => (wroteWet_congr stored_cores c).trans (h c), stored_regs]

/-- Where one segment has, its partition counts it. -/
theorem extWrite_get_of_one {c : CoreIx} (hc : wroteWet s c a bs.length = true)
    (hothers : ∀ d, d ≠ c → wroteWet s d a bs.length = false) (f : Field) :
    (s.extWrite a bs bad).get f = (s.bump (WET.STATUS_n.CLOBBERED (partOf c)) 1).get f := by
  obtain ⟨-, -, -, hregs⟩ := extWrite_frame (bad := bad) hheld herrs
  rw [State.get, hregs, clobbered_of_one ((wroteWet_congr stored_cores c).trans hc) fun d hd =>
    (wroteWet_congr stored_cores d).trans (hothers d hd)]
  simp only [State.get, State.bump, State.put, stored_regs]

end

end Sys2Proof.Machine

namespace Sys2Proof.Proofs

open Sys2Proof.Machine

/-- Settles O40: the bytes and the poison of the write, and what it counts. -/
theorem externalWrite : Obligations.ExternalWrite := by
  intro s a bs bad hheld herrs halign hwords hbad
  refine ⟨fun i hi => ?_, fun b hb => ⟨?_, ?_⟩, fun i hi => ?_, extWrite_regs_of_none hheld herrs, fun c hc hothers => ⟨?_, fun f hf => ?_⟩,
    extWrite_seg hheld herrs⟩
  · rw [extWrite_rd8 hheld herrs, State.rd8_wrBytes_same s a bs i hi]
  · rw [extWrite_rd8 hheld herrs, State.rd8_wrBytes_other s a bs b hb]
  · have hunwritten : ¬(a ≤ 4 * (b / 4) ∧ 4 * (b / 4) + 4 ≤ a + bs.length) := by omega
    have hunmarked : ¬∃ o ∈ bad, (a + o) / 4 = b / 4 := fun ⟨o, ho, hword⟩ => by
      have := hbad o ho
      omega
    rw [extWrite_poisoned hheld herrs, Bool.eq_iff_iff, poisoned_stored]
    simp only [hunwritten, hunmarked, not_false_eq_true, and_true, or_false]
  · have hwhole : a ≤ 4 * ((a + i) / 4) ∧ 4 * ((a + i) / 4) + 4 ≤ a + bs.length := by omega
    rw [extWrite_poisoned hheld herrs, poisoned_stored]
    simp only [hwhole, and_self, not_true_eq_false, and_false, false_or]
  · rw [extWrite_get_of_one hheld herrs hc hothers]
    exact State.get_put_same s (WET.STATUS_n.CLOBBERED (partOf c)) _
  · rw [extWrite_get_of_one hheld herrs hc hothers]
    exact State.get_put_other s (WET.STATUS_n.CLOBBERED (partOf c)) f _ fun hkey => hf (List.mem_singleton.mpr hkey)

end Sys2Proof.Proofs

end

section
/-! PROOF. Messages of the companion (R278): grants, data and snoops (R171, R277 to R282). -/

namespace Sys2Proof.Machine

/-! ### Arrival (R278) -/

section
variable {s : State} {m : FMsg} {op : Nat} (go : State → State)

/-- A message in order is taken out of its receiver and acted on. -/
theorem frlArrive_taken (h : companionSends s m op) : frlArrive s m op go = .next (go (s.frlTake m)) := by
  obtain ⟨hlive, hup, hgood, hop⟩ := h
  simp only [frlArrive, hlive, hup, hgood, hop, beq_self_eq_true, Bool.true_or, Bool.and_self, Bool.not_true, Bool.false_eq_true, if_false,
    act_true]

/-- A message out of order is a protocol error, whatever opcode was looked for. -/
theorem frlArrive_bad (hlive : s.live = true) (hup : s.get FRL.STATUS.STATE = 2) (hbad : protocolBad m = true) :
    frlArrive s m op go = .next (s.frlTake m).protocol := by
  simp only [frlArrive, hlive, hup, hbad, beq_self_eq_true, Bool.true_or, Bool.and_self, Bool.not_true, Bool.false_eq_true, if_false, if_true]

end

/-! ### Grants and data (R171, R277, R282) -/

section
variable {s0 s : State} {m : FMsg} (hs : s = s0.frlTake m)
include hs

section
variable {r : FReq} (hreq : s.frlFor m = some r)
include hreq

section
variable {l : CacheLine} (hline : lineAt s r.addr = some l) (hkind : r.kind = .fill)
include hline hkind

/-- GNT_S fills a line that RD_SHARED asked for. -/
theorem exec_gntS_fill (h : companionSends s0 m 0x24) : exec (.gntS m) s0
    = .next (if r.op = 0x01 ∧ l.st = .is_ then (s.frlDone r).lineFilled l .s m else s.protocol) := by
  subst hs
  show execGntS m s0 = _
  simp only [execGntS, frlArrive_taken _ h, hreq, hline, hkind, Bool.and_eq_true, beq_iff_eq, decide_eq_true_eq,
    true_and]

/-- GNT_E fills a line that waits for a grant: exclusive for a read, modified for a write. -/
theorem exec_gntE_fill (h : companionSends s0 m 0x25) (hst : l.st = .is_ ∨ l.st = .im ∨ l.st = .sm) : exec (.gntE m) s0
    = .next ((s.frlDone r).lineFilled l (if l.st = .is_ then .e else .m) m) := by
  have hwaits : (decide (l.st = .is_) || decide (l.st = .im) || decide (l.st = .sm)) = true := by
    simpa only [Bool.or_eq_true, decide_eq_true_eq, or_assoc] using hst
  subst hs
  show execGntE m s0 = _
  simp only [execGntE, frlArrive_taken _ h, hreq, hline, hkind, hwaits, decide_true, Bool.and_self, if_true]

end

section
variable (h : companionSends s0 m 0x26)
include h

theorem exec_rdData_core {c i : Nat} (hkind : r.kind = .rdNc c i) (hawaits : awaited s (toCore c) m.tag.toNat = true) :
    exec (.rdData m) s0 = .next ((s.frlDone r).deliver (toCore c) m.tag.toNat m.lines (maskBad m.mask.toNat 16)) := by
  subst hs
  show execRdData m s0 = _
  simp only [execRdData, frlArrive_taken _ h, hreq, hkind, hawaits, if_true]

theorem exec_rdData_shard {k i : Nat} (hkind : r.kind = .shard k i) :
    exec (.rdData m) s0 = .next ((s.frlDone r).wtsData k i r.addr r.tag m.lines (m.mask != 0)) := by
  subst hs
  show execRdData m s0 = _
  simp only [execRdData, frlArrive_taken _ h, hreq, hkind]

end

end

section
variable (hreq : s.frlFor m = none)
include hreq

theorem exec_gntS_unasked (h : companionSends s0 m 0x24) : exec (.gntS m) s0 = .next s.protocol := by
  subst hs
  show execGntS m s0 = _
  simp only [execGntS, frlArrive_taken _ h, hreq]

theorem exec_gntE_unasked (h : companionSends s0 m 0x25) : exec (.gntE m) s0 = .next s.protocol := by
  subst hs
  show execGntE m s0 = _
  simp only [execGntE, frlArrive_taken _ h, hreq]

/-- Data of several lines that answers nothing is late. -/
theorem exec_rdData_late (h : companionSends s0 m 0x26) (hlines : m.linesM1 ≠ 0) : exec (.rdData m) s0 = .next (s.frlLate m) := by
  subst hs
  show execRdData m s0 = _
  simp only [execRdData, frlArrive_taken _ h, hreq, ne_eq, hlines, not_false_eq_true, if_true]

end

end

/-! ### Snoops (R278, R282) -/

/-- What SNP_INV does to a line of the cache, by its state. -/
def State.snoopInv (x : State) (m : FMsg) (l : CacheLine) : State :=
  match l.st with
  | .s | .e => (x.snpRsp m 0).snooped l.addr
  | .m => (x.snpData m l 0).snooped l.addr
  | .sm => (x.snpRsp m 0).putLine { l with st := .im }
  | .is_ | .im | .ei => x.snpRsp m 0
  | .mi => x.snpRsp m 2

/-- What SNP_SHARED does to a line of the cache, by its state. -/
def State.snoopShared (x : State) (m : FMsg) (l : CacheLine) : State :=
  match l.st with
  | .s | .sm => x.snpRsp m 1
  | .e => (x.snpRsp m 1).putLine { l with st := .s }
  | .m => (x.snpData m l 1).putLine { l with st := .s }
  | .is_ | .im | .ei => x.snpRsp m 0
  | .mi => x.snpRsp m 2

section
variable {s0 x : State} {m : FMsg} (hx : x = (s0.frlTake m).tally FRL.CACHE_CNT.SNOOPS 1)
include hx

theorem exec_snpInv_uncached (h : companionSends s0 m 0x10) (hline : lineAt x m.addr.toNat = none) :
    exec (.snpInv m) s0 = .next (x.snpRsp m 0) := by
  subst hx
  show execSnpInv m s0 = _
  simp only [execSnpInv, frlArrive_taken _ h, hline]

theorem exec_snpInv_cached {l : CacheLine} (h : companionSends s0 m 0x10) (hline : lineAt x m.addr.toNat = some l) :
    exec (.snpInv m) s0 = .next (x.snoopInv m l) := by
  subst hx
  show execSnpInv m s0 = _
  simp only [execSnpInv, frlArrive_taken _ h, hline]
  cases hst : l.st <;> simp only [State.snoopInv, hst]

theorem exec_snpShared_uncached (h : companionSends s0 m 0x11) (hline : lineAt x m.addr.toNat = none) :
    exec (.snpShared m) s0 = .next (x.snpRsp m 0) := by
  subst hx
  show execSnpShared m s0 = _
  simp only [execSnpShared, frlArrive_taken _ h, hline]

theorem exec_snpShared_cached {l : CacheLine} (h : companionSends s0 m 0x11) (hline : lineAt x m.addr.toNat = some l) :
    exec (.snpShared m) s0 = .next (x.snoopShared m l) := by
  subst hx
  show execSnpShared m s0 = _
  simp only [execSnpShared, frlArrive_taken _ h, hline]
  cases hst : l.st <;> simp only [State.snoopShared, hst]

end

section
variable {x : State} {m : FMsg} {l : CacheLine}

/-- A shared or clean line goes, a modified one with its data, and one that waits to be written loses its sharing. -/
theorem snoopInv_cases : (l.st = .s ∨ l.st = .e → x.snoopInv m l = (x.snpRsp m 0).snooped l.addr)
    ∧ (l.st = .m → x.snoopInv m l = (x.snpData m l 0).snooped l.addr)
    ∧ (l.st = .sm → x.snoopInv m l = (x.snpRsp m 0).putLine { l with st := .im })
    ∧ (l.st = .is_ ∨ l.st = .im ∨ l.st = .ei → x.snoopInv m l = x.snpRsp m 0)
    ∧ (l.st = .mi → x.snoopInv m l = x.snpRsp m 2) := by
  rw [State.snoopInv]
  cases l.st <;> simp

/-- A line stays, shared, and a modified one sends its data. -/
theorem snoopShared_cases : (l.st = .s ∨ l.st = .sm → x.snoopShared m l = x.snpRsp m 1)
    ∧ (l.st = .e → x.snoopShared m l = (x.snpRsp m 1).putLine { l with st := .s })
    ∧ (l.st = .m → x.snoopShared m l = (x.snpData m l 1).putLine { l with st := .s })
    ∧ (l.st = .is_ ∨ l.st = .im ∨ l.st = .ei → x.snoopShared m l = x.snpRsp m 0)
    ∧ (l.st = .mi → x.snoopShared m l = x.snpRsp m 2) := by
  rw [State.snoopShared]
  cases l.st <;> simp

end

end Sys2Proof.Machine

namespace Sys2Proof.Proofs

open Sys2Proof.Machine

/-- Settles O53: grants and data by the request that they answer, snoops by the state of their line, and messages out of order. -/
theorem companionCoherence : Obligations.CompanionCoherence := by
  intro s0 s m x hs hx
  have hx0 : x = (s0.frlTake m).tally FRL.CACHE_CNT.SNOOPS 1 := hs ▸ hx
  refine ⟨fun r l hreq hline hkind => ⟨fun h hop hst => ?_, fun h hst => ?_, fun h => ⟨fun hst => ?_, fun hst => ?_⟩⟩,
    fun hreq => ⟨exec_gntS_unasked hs hreq, exec_gntE_unasked hs hreq⟩,
    fun r c i h hreq => exec_rdData_core hs hreq h, fun r k i h hreq => exec_rdData_shard hs hreq h,
    fun h hreq => exec_rdData_late hs hreq h,
    fun h => ⟨exec_snpInv_uncached hx0 h, fun l hline => ?_⟩, fun h => ⟨exec_snpShared_uncached hx0 h, fun l hline => ?_⟩,
    fun hlive hup hbad y hy => ?_⟩
  · rw [exec_gntS_fill hs hreq hline hkind h, if_pos ⟨hop, hst⟩]
  · rw [exec_gntS_fill hs hreq hline hkind h, hst, if_neg (by simp)]
  · rw [exec_gntE_fill hs hreq hline hkind h (.inl hst), if_pos hst]
  · rw [exec_gntE_fill hs hreq hline hkind h (.inr hst), if_neg (by rcases hst with hst | hst <;> simp [hst])]
  · simp only [exec_snpInv_cached hx0 h hline, Host.Outcome.next.injEq]
    exact snoopInv_cases
  · simp only [exec_snpShared_cached hx0 h hline, Host.Outcome.next.injEq]
    exact snoopShared_cases
  · have hbadly (op : Nat) (go : State → State) : frlArrive s0 m op go
        = .next (s.put FRL.ERRORS.PROTOCOL (s.get FRL.ERRORS.PROTOCOL + 1)) := hs ▸ frlArrive_bad go hlive hup hbad
    simp only [List.mem_cons, List.not_mem_nil, or_false] at hy
    rcases hy with rfl | rfl | rfl | rfl | rfl | rfl | rfl
    · show execGntS m s0 = _
      exact hbadly _ _
    · show execGntE m s0 = _
      exact hbadly _ _
    · show execRdData m s0 = _
      exact hbadly _ _
    · show execSnpInv m s0 = _
      exact hbadly _ _
    · show execSnpShared m s0 = _
      exact hbadly _ _
    · show execCmp m s0 = _
      exact hbadly _ _
    · show execFerruleNack m s0 = _
      exact hbadly _ _

end Sys2Proof.Proofs

end

section
/-! PROOF. Requests to the companion: how they end (R279, R282, R285, R287), doorbells (R288), attaching and its loss (R290, R291), and the
flush (R294). -/

namespace Sys2Proof.Machine

/-! ### The end of a request (R165, R279, R282, R285, R287) -/

/-- What CMP does for the request of its tag, by what the request is for. -/
def State.cmpEnds (s : State) (r : FReq) : State :=
  match r.kind with
  | .evict => match lineAt s r.addr with
    | some l => if l.st = .mi ∨ l.st = .ei then (s.frlDone r).lineEvicted l else s.protocol
    | none => s.protocol
  | .queue n id => ((s.frlDone r).queueDone (toPart n) id).letIntr r
  | .event | .mirror => (s.frlDone r).letIntr r
  | .intr => s.frlDone r
  | .fill | .rdNc _ _ | .shard _ _ => s.protocol

section
variable {s0 s : State} {m : FMsg} (hs : s = s0.frlTake m)
include hs

theorem exec_cmp_ends {r : FReq} (h : companionSends s0 m 0x31) (hreq : s.frlFor m = some r) :
    exec (.cmp m) s0 = .next (s.cmpEnds r) := by
  subst hs
  show execCmp m s0 = _
  simp only [execCmp, frlArrive_taken _ h, hreq]
  rfl

theorem exec_ferruleNack_fails {r : FReq} (h : companionSends s0 m 0x33) (hreq : s.frlFor m = some r) :
    exec (.ferruleNack m) s0 = .next (s.frlFailed r) := by
  subst hs
  show execFerruleNack m s0 = _
  simp only [execFerruleNack, frlArrive_taken _ h, hreq]

theorem exec_cmp_late (hreq : s.frlFor m = none) (h : companionSends s0 m 0x31) : exec (.cmp m) s0 = .next (s.frlLate m) := by
  subst hs
  show execCmp m s0 = _
  simp only [execCmp, frlArrive_taken _ h, hreq]

theorem exec_ferruleNack_late (hreq : s.frlFor m = none) (h : companionSends s0 m 0x33) :
    exec (.ferruleNack m) s0 = .next (s.frlLate m) := by
  subst hs
  show execFerruleNack m s0 = _
  simp only [execFerruleNack, frlArrive_taken _ h, hreq]

end

section
variable {s : State} {r : FReq}

theorem cmpEnds_evict {l : CacheLine} (hkind : r.kind = .evict) (hline : lineAt s r.addr = some l) (hst : l.st = .mi ∨ l.st = .ei) :
    s.cmpEnds r = (s.frlDone r).lineEvicted l := by
  simp only [State.cmpEnds, hkind, hline, hst, if_true]

theorem cmpEnds_queue {n id : Nat} (hkind : r.kind = .queue n id) :
    s.cmpEnds r = ((s.frlDone r).queueDone (toPart n) id).letIntr r := by
  simp only [State.cmpEnds, hkind]

theorem cmpEnds_record (hkind : r.kind = .event ∨ r.kind = .mirror) : s.cmpEnds r = (s.frlDone r).letIntr r := by
  rcases hkind with hkind | hkind <;> simp only [State.cmpEnds, hkind]

theorem cmpEnds_intr (hkind : r.kind = .intr) : s.cmpEnds r = s.frlDone r := by simp only [State.cmpEnds, hkind]

theorem cmpEnds_fill (hkind : r.kind = .fill) : s.cmpEnds r = s.protocol := by simp only [State.cmpEnds, hkind]

section
variable {i : Nat} (hr : s.ferrule.reqs[i]? = some r)
include hr

theorem exec_ferruleTimeout_due (hlive : s.live = true) (hout : r.out = true ∨ r.lost = true)
    (hdue : r.sent + 800 * max 10 (s.inForce FRL.TIMERS.RESP_US) ≤ s.time) : exec (.ferruleTimeout i) s
      = .next (((s.bump FRL.ERRORS.TIMEOUTS 1).raise { code := 0x38, domain := 15, addr := r.addr, d0 := r.op }).frlFailed r) := by
  have hopen : (r.out || r.lost) = true := Bool.or_eq_true_iff.mpr hout
  show execFerruleTimeout i s = _
  simp only [execFerruleTimeout, hr, hlive, hopen, hdue, decide_true, Bool.and_self, act_true]

theorem exec_ferruleTimeout_early (h : s.time < r.sent + 800 * max 10 (s.inForce FRL.TIMERS.RESP_US)) :
    exec (.ferruleTimeout i) s = .next s := by
  show execFerruleTimeout i s = _
  simp only [execFerruleTimeout, hr, decide_eq_false (Nat.not_le.mpr h), Bool.and_false, act_false]

end

end

/-! ### Doorbells, attaching, loss and flush (R288, R290, R291, R294) -/

section
variable {s : State}

theorem exec_doorbell_served (k : CtxIx) (h : s.served = true) : exec (.doorbell k) s
    = .next ((forCores (coresOf (ctxPart k.val)) (fun c t => match t.seg c with
        | some g => if g.ctx = k.val ∧ g.waitTail then t.readTail c g else t
        | none => t) s).pickGroup k.val) := by
  show execDoorbell k s = _
  rw [execDoorbell, h]
  exact act_true s _

theorem exec_attach_up (hserved : s.served = true) (hup : s.get FRL.STATUS.STATE = 2) :
    exec .attach s = .next (s.put FRL.STATUS.ATTACHED 1) := by
  show execAttach s = _
  rw [execAttach, hserved, hup]
  rfl

theorem exec_attach_down (h : s.get FRL.STATUS.STATE ≠ 2) : exec .attach s = .next s := by
  show execAttach s = _
  rw [execAttach, beq_eq_false_iff_ne.mpr h, Bool.and_false, act_false]

section
variable {t : Nat} (hleft : (s.link 10).leftUp = some t)
include hleft

theorem exec_companionLoss_due (hlive : s.live = true) (hatt : s.attached = true) (hdown : s.get FRL.STATUS.STATE ≠ 2)
    (hdue : t + 800000 * s.inForce GRT.CFG2.WARM_MS ≤ s.time) : exec .companionLoss s = .next s.companionLost := by
  show execCompanionLoss s = _
  simp only [execCompanionLoss, hleft, hlive, hatt, bne_iff_ne.mpr hdown, hdue, decide_true, Bool.and_self, act_true]

theorem exec_companionLoss_early (h : s.time < t + 800000 * s.inForce GRT.CFG2.WARM_MS) : exec .companionLoss s = .next s := by
  show execCompanionLoss s = _
  simp only [execCompanionLoss, hleft, decide_eq_false (Nat.not_le.mpr h), Bool.and_false, act_false]

end

theorem exec_cacheFlush_served (h : s.served = true) : exec .cacheFlush s = .next s.flush := by
  show act s s.served s.flush = _
  rw [h, act_true]

theorem exec_flushComplete_empty (hlive : s.live = true) (hbusy : s.on FRL.STATUS.FLUSH_BUSY = true) (hempty : flushEmpty s = true) :
    exec .flushComplete s = .next ((s.put FRL.STATUS.FLUSH_BUSY 0).wakeWaiting (fun _ => true)) := by
  show execFlushComplete s = _
  rw [execFlushComplete, hlive, hbusy, hempty]
  rfl

theorem exec_flushComplete_lines (h : flushEmpty s = false) : exec .flushComplete s = .next s := by
  show execFlushComplete s = _
  rw [execFlushComplete, h, Bool.and_false, act_false]

end

end Sys2Proof.Machine

namespace Sys2Proof.Proofs

open Sys2Proof.Machine

/-- Settles O54: the ends of a request, and what the companion's port and the flush do. -/
theorem companionRequests : Obligations.CompanionRequests := by
  intro s0 s m hs
  refine ⟨fun r h hreq => ?_, fun r h hreq => exec_ferruleNack_fails hs h hreq,
    fun hreq => ⟨exec_cmp_late hs hreq, exec_ferruleNack_late hs hreq⟩,
    fun i r hlive hr hout => ⟨exec_ferruleTimeout_due hr hlive hout, exec_ferruleTimeout_early hr⟩, exec_doorbell_served, exec_attach_up,
    exec_attach_down, fun t hlive hatt hdown hleft => ⟨exec_companionLoss_due hleft hlive hatt hdown, exec_companionLoss_early hleft⟩,
    exec_cacheFlush_served, exec_flushComplete_empty, exec_flushComplete_lines⟩
  rw [exec_cmp_ends hs h hreq]
  exact ⟨fun l hkind hline hst => by rw [cmpEnds_evict hkind hline hst], fun n id hkind => by rw [cmpEnds_queue hkind],
    fun hkind => by rw [cmpEnds_record hkind], fun hkind => by rw [cmpEnds_intr hkind], fun hkind => by rw [cmpEnds_fill hkind]⟩

end Sys2Proof.Proofs

end

section
/-! PROOF. The actions on contexts (R176, R177): what each does by the state of the context, by the action that has reached it before in the
aclk, and by the kill of the aclk. -/

namespace Sys2Proof.Machine

section
variable {s : State} {k : Nat}

/-! ### The table of R176 -/

theorem nextState_disable (cause : Nat) : s.nextState k 2 cause = s.ctxSetState k 0 := rfl

theorem nextState_preemptHold (cause : Nat) : s.nextState k 4 cause = s.ctxSetState k 3 := rfl

theorem nextState_halt (cause : Nat) : s.nextState k 6 cause = s.haltCtx k cause := rfl

/-- An action that the table does not give sets CMD_ERR. -/
theorem actOn_refused {a : Nat} (h : takesAction (s.ctxState k) a = false) : s.actOn k a = s.flag (SCH.STATUS_n.CMD_ERR (ctxPart k)) 1 :=
  if_pos (by rw [h, Bool.not_false])

/-- ENABLE and RESUME make a context READY; the boundary kills of a HELD one stay. -/
theorem actOn_ready {a : Nat} (ha : a = 1 ∨ a = 5) (h : takesAction (s.ctxState k) a = true) :
    s.actOn k a = (if s.ctxState k = 3 then s else s.ctxSetBoundaryKills k 0).makeReady k := by
  simp only [State.actOn, h, ha, Bool.not_true, Bool.false_eq_true, if_false, if_true]

/-- The actions that R177 ranks act on a RUNNING context's segment; PREEMPT leaves any other context as it is. -/
theorem actOn_ranked {a : Nat} (hr : ranked a = true) (h : takesAction (s.ctxState k) a = true) :
    s.actOn k a = if s.ctxState k = 2 then s.actOnRunning k a else if a = 3 then s else s.nextState k a 0 := by
  have ha : ¬(a = 1 ∨ a = 5) := by rintro (rfl | rfl) <;> exact absurd hr (by decide)
  simp only [State.actOn, h, ha, Bool.not_true, Bool.false_eq_true, if_false]

/-! ### An action reaches a context (R176, R177) -/

theorem action_clearEvents : s.action k 7 = s.ctxWr k 0x34 2 0 := rfl

theorem action_enable : s.action k 1 = s.actOn k 1 := rfl

theorem action_resume : s.action k 5 = s.actOn k 5 := rfl

section
variable {a : Nat} (hr : ranked a = true)
include hr

theorem ne_clearEvents_of_ranked : a ≠ 7 := by
  rintro rfl
  exact absurd hr (by decide)

theorem action_running (hst : s.ctxState k = 2) : s.action k a = (s.actOnRunning k a).noteAct k a := by
  have htakes : takesAction (s.ctxState k) a = true := by rw [hst]; exact hr
  simp only [State.action, ne_clearEvents_of_ranked hr, hr, actOn_ranked hr htakes, hst, bne_self_eq_false, Bool.and_false, Bool.false_eq_true,
    if_false, if_true]

section
variable (hst : s.ctxState k ≠ 2)
include hst

/-- A context whose segment was killed in this aclk. -/
theorem action_killed {c : CoreIx} (hkilled : killedCtx s k = some c) : s.action k a = (s.actOnKilled c k a).noteAct k a := by
  simp only [State.action, ne_clearEvents_of_ranked hr, hr, bne_iff_ne.mpr hst, hkilled, Bool.and_self, if_false, if_true]

section
variable (hkilled : killedCtx s k = none)
include hkilled

/-- Of two ranked actions of an aclk the stronger decides the state. -/
theorem action_again {b : Nat} (hacted : s.acted k = some b) :
    s.action k a = (if strongerAction b a = b then s else s.nextState k a 0).noteAct k a := by
  simp only [State.action, ne_clearEvents_of_ranked hr, hr, bne_iff_ne.mpr hst, hkilled, hacted, State.outdo, Option.isSome_some, Bool.and_self,
    if_false, if_true]

section
variable (hacted : s.acted k = none)
include hacted

/-- The first ranked action of an aclk, by the table. -/
theorem action_first (htakes : takesAction (s.ctxState k) a = true) :
    s.action k a = (if a = 3 then s else s.nextState k a 0).noteAct k a := by
  simp only [State.action, ne_clearEvents_of_ranked hr, hr, bne_iff_ne.mpr hst, hkilled, hacted, htakes, actOn_ranked hr htakes, hst,
    Option.isSome_none, Bool.and_self, Bool.false_eq_true, if_false, if_true]

theorem action_first_refused (htakes : takesAction (s.ctxState k) a = false) :
    s.action k a = s.flag (SCH.STATUS_n.CMD_ERR (ctxPart k)) 1 := by
  simp only [State.action, ne_clearEvents_of_ranked hr, hr, bne_iff_ne.mpr hst, hkilled, hacted, htakes, actOn_refused htakes,
    Option.isSome_none, Bool.and_self, Bool.false_eq_true, if_false, if_true]

end

end

end

end

/-- A context that the kill of this aclk has halted stays HALTED; HALT adds its cause to the kill. -/
theorem actOnKilled_halted {c : CoreIx} {a : Nat} {t : State} (ht : t = if a = 6 then s.killAlso c 10 else s) (hst : t.ctxState k = 4) :
    s.actOnKilled c k a = t := by
  subst ht
  exact if_pos hst

end

/-- An action is written: a boundary of the aclk comes before it (R49). -/
theorem command_served {s : State} (k : CtxIx) (a : Nat) (hs : s.served = true) :
    s.command k a = .next ((s.afterBoundary (ctxPart k)).action k a) := by
  rw [State.command, hs, act_true]

/-- Each action on a context is its number, written (R176). -/
theorem exec_contextActions_served {s : State} (k : CtxIx) (hs : s.served = true) :
    exec (.enable k) s = .next ((s.afterBoundary (ctxPart k)).action k 1)
    ∧ exec (.disable k) s = .next ((s.afterBoundary (ctxPart k)).action k 2)
    ∧ exec (.preempt k) s = .next ((s.afterBoundary (ctxPart k)).action k 3)
    ∧ exec (.preemptHold k) s = .next ((s.afterBoundary (ctxPart k)).action k 4)
    ∧ exec (.resume k) s = .next ((s.afterBoundary (ctxPart k)).action k 5)
    ∧ exec (.halt k) s = .next ((s.afterBoundary (ctxPart k)).action k 6)
    ∧ exec (.clearEvents k) s = .next ((s.afterBoundary (ctxPart k)).action k 7) :=
  ⟨command_served k 1 hs, command_served k 2 hs, command_served k 3 hs, command_served k 4 hs, command_served k 5 hs, command_served k 6 hs,
    command_served k 7 hs⟩

end Sys2Proof.Machine

namespace Sys2Proof.Proofs

open Sys2Proof.Machine

/-- Settles O45: the table by the context's state, then the actions and the kill that came before in the aclk. -/
theorem contextActions : Obligations.ContextActions := by
  rintro s u k hs rfl
  obtain ⟨henable, hdisable, hpreempt, hhold, hresume, hhalt, hclear⟩ := exec_contextActions_served k hs
  simp only [henable, hdisable, hpreempt, hhold, hresume, hhalt, hclear, List.forall_mem_cons, Host.Outcome.next.injEq]
  generalize s.afterBoundary (ctxPart k.val) = u
  have h2 : ranked 2 = true := rfl
  have h3 : ranked 3 = true := rfl
  have h4 : ranked 4 = true := rfl
  have h6 : ranked 6 = true := rfl
  refine ⟨action_clearEvents, fun hst => ?_, fun hst => ?_, fun hst => ?_, fun hst => ?_, fun hst => ?_,
    fun hst => ⟨action_running h2 hst, action_running h3 hst, action_running h4 hst, action_running h6 hst⟩,
    fun hkilled hacted => ⟨fun hst => ?_, fun hst => ?_, fun hst => ?_, fun hst => ?_, fun hst => ?_, fun hst => ?_⟩,
    fun hkilled hst b hacted => ?_, fun c hkilled hst => ?_⟩
  -- ENABLE and RESUME
  · rw [action_enable, actOn_ready (.inl rfl) (by rw [hst]; rfl), if_neg (by omega)]
  · rw [action_resume, actOn_ready (.inr rfl) (by rw [hst]; rfl), if_pos hst]
  · rw [action_resume, actOn_ready (.inr rfl) (by rw [hst]; rfl), if_neg (by omega)]
  · rw [action_enable, actOn_refused (by rcases hst with h | h | h | h <;> rw [h] <;> rfl)]
  · rw [action_resume, actOn_refused (by rcases hst with h | h | h <;> rw [h] <;> rfl)]
  -- the first ranked action of the aclk: READY, HELD, HALTED, and what the table does not give
  · have hfirst {a : Nat} (hr : ranked a = true) := action_first hr (by omega) hkilled hacted (by rw [hst]; exact hr)
    exact ⟨hfirst h2, hfirst h3, hfirst h4, hfirst h6⟩
  · have hne : u.ctxState k ≠ 2 := by omega
    exact ⟨action_first h2 hne hkilled hacted (by rw [hst]; rfl), action_first h6 hne hkilled hacted (by rw [hst]; rfl)⟩
  · exact action_first h2 (by omega) hkilled hacted (by rw [hst]; rfl)
  · have hne : u.ctxState k ≠ 2 := by omega
    exact ⟨action_first_refused h3 hne hkilled hacted (by rcases hst with h | h | h <;> rw [h] <;> rfl),
      action_first_refused h4 hne hkilled hacted (by rcases hst with h | h | h <;> rw [h] <;> rfl), List.forall_mem_nil _⟩
  · exact action_first_refused h2 (by omega) hkilled hacted (by rw [hst]; rfl)
  · exact action_first_refused h6 (by omega) hkilled hacted (by rcases hst with h | h <;> rw [h] <;> rfl)
  -- one ranked action after another
  · rw [action_again h2 hst hkilled hacted, action_again h3 hst hkilled hacted, action_again h4 hst hkilled hacted,
      action_again h6 hst hkilled hacted, nextState_disable, nextState_preemptHold, nextState_halt]
    exact ⟨fun h => by rw [if_pos h], fun h => by rw [if_neg h], fun h => by rw [if_pos h], fun h => by rw [if_pos h],
      fun h => by rw [if_neg h], fun h => by rw [if_pos h], fun h => by rw [if_neg h]⟩
  -- a kill of the aclk halted the context
  · have hne : u.ctxState k ≠ 2 := by omega
    rw [action_killed h2 hne hkilled, action_killed h3 hne hkilled, action_killed h4 hne hkilled, action_killed h6 hne hkilled,
      actOnKilled_halted (if_neg (by decide)).symm hst, actOnKilled_halted (if_neg (by decide)).symm hst,
      actOnKilled_halted (if_neg (by decide)).symm hst]
    exact ⟨rfl, rfl, rfl, fun h => by rw [actOnKilled_halted (if_pos rfl).symm h]⟩

end Sys2Proof.Proofs

end

section
/-! PROOF. Applying a profile (R190, R191): how an apply begins or is refused, the write of its fields and its end. -/

namespace Sys2Proof.Machine

section
variable {s : State} {n : PartIx}

/-! ### The begin of an apply (R191 steps 1 and 2) -/

theorem exec_profileApply_served (i : Fin 16) (hs : s.served = true) : exec (.profileApply n i) s
    = .next (((s.afterBoundary n).put (SCH.PROFILE_n.INDEX n) i.val).applyProfile n i.val) := by
  show act s s.served _ = _
  rw [hs, act_true]

/-- INDEX is a field of its own: writing it leaves what the apply looks at. -/
theorem profileIndex_key (n : PartIx) : SCH.PROFILES.LOADED.key ≠ (SCH.PROFILE_n.INDEX n).key
    ∧ (SCH.PROFILE_n.BUSY n).key ≠ (SCH.PROFILE_n.INDEX n).key ∧ (PART.POWER_n.STATE n).key ≠ (SCH.PROFILE_n.INDEX n).key
    ∧ (STK.CTRL_n.RUNNING n).key ≠ (SCH.PROFILE_n.INDEX n).key := by
  simp only [Field.key]
  omega

theorem applyOk_put_index (i v : Nat) : applyOk (s.put (SCH.PROFILE_n.INDEX n) v) n i = applyOk s n i := by
  obtain ⟨hloaded, hbusy, hstate, -⟩ := profileIndex_key n
  simp only [applyOk, State.on, State.active, State.get_put_other s _ _ v hloaded, State.get_put_other s _ _ v hbusy,
    State.get_put_other s _ _ v hstate]

/-- An index that is not loaded is refused. -/
theorem applyProfile_unloaded {i : Nat} (h : s.get SCH.PROFILES.LOADED ≤ i) :
    s.applyProfile n i = s.flag (SCH.STATUS_n.PROFILE_ERR n) 1 :=
  if_neg (by simp [applyOk, Nat.not_lt.mpr h])

/-- The apply that begins: its boundary is this aclk, or the next one of a running timer. -/
def State.applyBegun (s : State) (n : PartIx) (i : Nat) : Apply :=
  { index := i, b1 := if s.on (STK.CTRL_n.RUNNING n) then none else some s.time, ran := s.on (STK.CTRL_n.RUNNING n), written := false }

theorem applyProfile_taken {i : Nat} (h : applyOk s n i = true) : s.applyProfile n i
    = (s.put (SCH.PROFILE_n.BUSY n) 1).modPart n (fun p => { p with apply_ := some (s.applyBegun n i) }) := if_pos h

theorem applyBegun_put_index (i v : Nat) : (s.put (SCH.PROFILE_n.INDEX n) v).applyBegun n i = s.applyBegun n i := by
  obtain ⟨-, -, -, hrunning⟩ := profileIndex_key n
  have hran : (s.put (SCH.PROFILE_n.INDEX n) v).on (STK.CTRL_n.RUNNING n) = s.on (STK.CTRL_n.RUNNING n) :=
    congrArg (· == 1) (State.get_put_other s _ _ v hrunning)
  rw [State.applyBegun, hran]
  rfl

/-- A profile's INDEX is written and its apply begins. -/
theorem applyProfile_put_index {i : Nat} (h : applyOk s n i = true) : (s.put (SCH.PROFILE_n.INDEX n) i).applyProfile n i
    = ((s.put (SCH.PROFILE_n.INDEX n) i).put (SCH.PROFILE_n.BUSY n) 1).modPart n (fun p =>
        { p with apply_ := some (s.applyBegun n i) }) := by
  rw [applyProfile_taken ((applyOk_put_index i i).trans h), applyBegun_put_index]

section
variable {i : Nat} {g : Part → Part} {t : State} (ht : t = ((s.put (SCH.PROFILE_n.INDEX n) i).put (SCH.PROFILE_n.BUSY n) 1).modPart n g)
include ht

theorem profileShown_get (hi : i < 16) : t.get (SCH.PROFILE_n.INDEX n) = i ∧ t.on (SCH.PROFILE_n.BUSY n) = true := by
  subst ht
  obtain ⟨-, hbusy, -⟩ := profileIndex_key n
  refine ⟨?_, beq_iff_eq.mpr (State.get_put_same _ (SCH.PROFILE_n.BUSY n) 1)⟩
  rw [State.get_modPart, State.get_put_other _ _ _ 1 hbusy.symm, State.get_put_same]
  exact Nat.mod_eq_of_lt hi

theorem profileShown_fields : sameFieldsBut [SCH.PROFILE_n.INDEX n, SCH.PROFILE_n.BUSY n] s t := by
  subst ht
  intro f hf
  simp only [List.map_cons, List.map_nil, List.mem_cons, List.not_mem_nil, or_false, not_or] at hf
  rw [State.get_modPart, State.get_put_other _ _ _ 1 hf.2, State.get_put_other _ _ _ i hf.1]

end

/-! ### The fields are written, and the apply ends (R191 steps 3 and 4) -/

section
variable {a : Apply} {b : Nat} (hlive : s.live = true) (ha : (s.part n).apply_ = some a) (hb : a.b1 = some b)
include hlive ha hb

theorem exec_profileFieldWrite_due (hnew : a.written = false) (hdue : b + 64 ≤ s.time) (hwin : (s.part n).window = false) :
    exec (.profileFieldWrite n) s = .next ((s.writeProfile n (s.profiles.getD a.index [])).modPart n
      (fun p => { p with apply_ := some { a with written := true } })) := by
  show execProfileFieldWrite n s = _
  simp only [execProfileFieldWrite, ha, hb, hlive, hnew, hdue, hwin, Bool.not_false, decide_true, Bool.and_self, act_true]

/-- A timer that ran is started again where nothing has started it. -/
theorem exec_profileApplyEnd_due (hwritten : a.written = true) (hdue : b + 2048 ≤ s.time) : exec (.profileApplyEnd n) s
    = .next (if a.ran && !(s.endApply n a.index).on (STK.CTRL_n.RUNNING n) then (s.endApply n a.index).startTimer n (b + 2048 + 16)
        else s.endApply n a.index) := by
  show execProfileApplyEnd n s = _
  simp only [execProfileApplyEnd, ha, hb, hlive, hwritten, hdue, decide_true, Bool.and_self, if_true]

end

end

end Sys2Proof.Machine

namespace Sys2Proof.Proofs

open Sys2Proof.Machine

/-- Settles O47: the begin, the refusal, the write of the fields, and the end with and without a timer that ran. -/
theorem profiles : Obligations.Profiles := by
  rintro s _ n i hs rfl
  have hlive : s.live = true := (Bool.and_eq_true_iff.mp hs).1
  simp only [Completes, exec_profileApply_served i hs]
  refine ⟨fun hloaded hbusy hact => ?_, fun hloaded => ?_, fun a b ha hb => ⟨exec_profileFieldWrite_due hlive ha hb,
    fun hwritten hdue hran => ?_, fun hwritten hdue hran hstopped => ?_⟩⟩
  · have hok : applyOk (s.afterBoundary n) n i.val = true := by
      simp only [applyOk, hloaded, hbusy, hact, decide_true, Bool.not_false, Bool.and_self]
    rw [applyProfile_put_index hok]
    obtain ⟨hindex, hbegun⟩ := profileShown_get rfl i.isLt
    exact ⟨_, rfl, hindex, hbegun, ⟨_, congrArg Part.apply_ (State.part_modPart_same _ n _), rfl, rfl, rfl, rfl⟩,
      profileShown_fields rfl, rfl, rfl⟩
  · rw [applyProfile_unloaded ((State.get_put_other _ _ _ _ (profileIndex_key n).1).trans_le hloaded)]
  · rw [exec_profileApplyEnd_due hlive ha hb hwritten hdue, hran]
    rfl
  · rw [exec_profileApplyEnd_due hlive ha hb hwritten hdue, hran, hstopped]
    rfl

end Sys2Proof.Proofs

end

section
/-! PROOF. The canonical form of memory (R193, R194; log entry 2): at reset, and after every step. -/

namespace Sys2Proof.Proofs

open Sys2Proof.Machine

/-- Settles O3: reset lists no byte and no syndrome, and the empty list is in canonical form. -/
theorem resetMemoryCanonical : Obligations.ResetMemoryCanonical := ⟨rfl, rfl, rfl⟩

/-- Settles O4: a step keeps the canonical form from the state whose queue has lost its front, and that state has the memory of `s`. -/
theorem stepsKeepMemoryCanonical : Obligations.StepsKeepMemoryCanonical := by
  intro s t hcanonical hstep
  have hpopped : State.memWf { s with pending := s.pending.tail } = true := hcanonical
  exact (step_keeps hstep).mem hpopped

end Sys2Proof.Proofs

end

section
/-! PROOF. Memory management: invalidations (R199), frame operations (R215, R221), the patrol scrubber (R205 to R213; log entries 53, 143, 167),
error windows (R211) and the temperature of a device (R206). -/

namespace Sys2Proof.Machine

/-! ### Invalidation (R199) -/

section
variable {s : State}

/-- What every step of a loop over cores leaves, the loop leaves. -/
theorem forCores_leaves {α : Type} {f : CoreIx → State → State} {view : State → α} (hf : ∀ c t, view (f c t) = view t) (l : List CoreIx) :
    view (forCores l f s) = view s := by
  induction l generalizing s with
  | nil => rfl
  | cons c r ih => exact ih.trans (hf c s)

theorem core_forCores_modCore {l : List CoreIx} (hl : l.Nodup) (f : Core → Core) (c : CoreIx) :
    (forCores l (fun d t => t.modCore d f) s).core c = if c ∈ l then f (s.core c) else s.core c := by
  induction l generalizing s with
  | nil => rfl
  | cons d r ih =>
    obtain ⟨hd, hr⟩ := List.nodup_cons.mp hl
    have hrest := ih (s := s.modCore d f) hr
    by_cases hc : c = d
    · subst hc
      rw [if_neg hd, State.core_modCore_same] at hrest
      rwa [if_pos List.mem_cons_self]
    · rw [State.core_modCore_other s d c f hc] at hrest
      simp only [List.mem_cons, hc, false_or]
      exact hrest

/-- The entries of a translation cache that are not dropped. -/
def Core.dropEntries (gone : TEntry → Bool) (k : Core) : Core := { k with tcache := k.tcache.filter (fun e => !gone e) }

/-- Every core drops the entries of its translation cache that `gone` names (R199). -/
def State.dropEntries (s : State) (gone : TEntry → Bool) : State := forCores allCores (fun c t => t.modCore c (Core.dropEntries gone)) s

theorem dropEntries_tcache (gone : TEntry → Bool) (c : CoreIx) :
    ((s.dropEntries gone).core c).tcache = (s.core c).tcache.filter (fun e => !gone e) := by
  rw [State.dropEntries, core_forCores_modCore (by decide), if_pos (mem_allCores c)]
  rfl

theorem dropEntries_leaves {α : Type} {view : State → α} (hview : ∀ t c k, view (State.setCore t c k) = view t) (gone : TEntry → Bool) :
    view (s.dropEntries gone) = view s := by
  rw [State.dropEntries]
  exact forCores_leaves (fun c t => hview t c _) allCores

section
variable (page : BitVec 30) (ctx : BitVec 12) (n : PartIx) (all : Bool)

/-- MEM.INV_ADDR and MEM.INV_CTRL as the command writes them. -/
def State.invShown (s : State) : State :=
  (((s.put MEM.INV_ADDR.PAGE page.toNat).put MEM.INV_CTRL.CONTEXT ctx.toNat).put MEM.INV_CTRL.PARTITION n.val).putB MEM.INV_CTRL.ALL all

/-- The state in which an invalidation has begun: the entries it names are dropped, and BUSY reads 1. -/
def State.invalidated (s : State) : State :=
  ((s.invShown page ctx n all).dropEntries (fun e => e.ctx == 4096 * n.val + ctx.toNat && (all || e.page == page.toNat))).put
    MEM.INV_CTRL.BUSY 1

theorem exec_translationInvalidation_served (hs : s.served = true) :
    exec (.translationInvalidation page ctx n all) s = .next (s.invalidated page ctx n all) := by
  show act s s.served _ = _
  rw [hs, act_true]
  rfl

theorem invalidated_busy : (s.invalidated page ctx n all).on MEM.INV_CTRL.BUSY = true :=
  beq_iff_eq.mpr (State.get_put_same _ MEM.INV_CTRL.BUSY 1)

theorem invalidated_tcache (c : CoreIx) : ((s.invalidated page ctx n all).core c).tcache
    = (s.core c).tcache.filter (fun e => !(e.ctx == 4096 * n.val + ctx.toNat && (all || e.page == page.toNat))) := by
  rw [State.invalidated, State.core_put, dropEntries_tcache]
  rfl

theorem invalidated_mem : (s.invalidated page ctx n all).mem = s.mem := by
  rw [State.invalidated, State.put_mem, dropEntries_leaves (view := State.mem) (fun _ _ _ => rfl)]
  rfl

theorem invalidated_synd : (s.invalidated page ctx n all).synd = s.synd := by
  rw [State.invalidated, State.put_synd, dropEntries_leaves (view := State.synd) (fun _ _ _ => rfl)]
  rfl

theorem invalidated_fields : sameFieldsBut [MEM.INV_ADDR.PAGE, MEM.INV_CTRL.CONTEXT, MEM.INV_CTRL.PARTITION, MEM.INV_CTRL.ALL,
    MEM.INV_CTRL.BUSY] s (s.invalidated page ctx n all) := by
  intro f hf
  simp only [List.map_cons, List.map_nil, List.mem_cons, List.not_mem_nil, or_false, not_or] at hf
  obtain ⟨hpage, hcontext, hpartition, hall, hbusy⟩ := hf
  rw [State.invalidated, State.get_put_other _ _ _ _ hbusy, dropEntries_leaves (view := fun t => t.get f) (fun _ _ _ => rfl), State.invShown,
    State.putB, State.get_put_other _ _ _ _ hall, State.get_put_other _ _ _ _ hpartition, State.get_put_other _ _ _ _ hcontext,
    State.get_put_other _ _ _ _ hpage]

end

end

/-! ### Frame operations (R215) -/

/-- MEM.FRAME_CMD as an operation on a frame is written to it (R221). -/
def State.frameShown (s : State) (op : Nat) (n : PartIx) (t tenant f : Nat) : State :=
  ((((s.put MEM.FRAME_CMD.FRAME f).put MEM.FRAME_CMD.TIER t).put MEM.FRAME_CMD.PARTITION n.val).put MEM.FRAME_CMD.TENANT tenant).put
    MEM.FRAME_CMD.OP op

theorem frameOp_tier3 {s : State} {n : PartIx} {t tenant f : Nat} (op : Nat) (ht : t = 3) :
    s.frameOp op n t tenant f = (s.frameShown op n t tenant f).frameEnd 4 := if_pos ht

section
variable {s u : State} {n : PartIx} {t tenant f : Nat} (ht : t ≠ 3)
include ht

section
variable (hu : u = s.frameShown 1 n t tenant f)
include hu

theorem frameOp_grant : s.frameOp 1 n t tenant f
    = if u.rdLE (u.quotaAddr n tenant t) 4 ≤ u.quotaHeld n tenant t then u.frameEnd 1
      else if !u.frameBacked n t f then u.frameEnd 3
      else ((u.pushFrame n tenant t f).setHeld n tenant t (u.quotaHeld n tenant t + 1)).frameEnd 0 := by
  subst hu
  exact (if_neg ht).trans (if_pos rfl)

theorem frameOp_grant_full (hfull : u.rdLE (u.quotaAddr n tenant t) 4 ≤ u.quotaHeld n tenant t) :
    s.frameOp 1 n t tenant f = u.frameEnd 1 := (frameOp_grant ht hu).trans (if_pos hfull)

variable (hroom : u.quotaHeld n tenant t < u.rdLE (u.quotaAddr n tenant t) 4)
include hroom

theorem frameOp_grant_unbacked (hgone : u.frameBacked n t f = false) : s.frameOp 1 n t tenant f = u.frameEnd 3 := by
  rw [frameOp_grant ht hu, if_neg (Nat.not_le.mpr hroom), hgone]
  rfl

theorem frameOp_grant_done (hbacked : u.frameBacked n t f = true) : s.frameOp 1 n t tenant f
    = ((u.pushFrame n tenant t f).setHeld n tenant t (u.quotaHeld n tenant t + 1)).frameEnd 0 := by
  rw [frameOp_grant ht hu, if_neg (Nat.not_le.mpr hroom), hbacked]
  rfl

end

section
variable (hu : u = s.frameShown 3 n t tenant f)
include hu

theorem frameOp_return : s.frameOp 3 n t tenant f
    = if !u.frameBacked n t f then u.frameEnd 3
      else if u.stackCount n tenant t = u.quotaHeld n tenant t then u.frameEnd 5
      else (u.pushFrame n tenant t f).frameEnd 0 := by
  subst hu
  exact (if_neg ht).trans ((if_neg (by decide)).trans (if_pos rfl))

theorem frameOp_return_unbacked (hgone : u.frameBacked n t f = false) : s.frameOp 3 n t tenant f = u.frameEnd 3 := by
  rw [frameOp_return ht hu, hgone]
  rfl

variable (hbacked : u.frameBacked n t f = true)
include hbacked

theorem frameOp_return_none_out (hin : u.stackCount n tenant t = u.quotaHeld n tenant t) : s.frameOp 3 n t tenant f = u.frameEnd 5 := by
  rw [frameOp_return ht hu, hbacked]
  exact if_pos hin

theorem frameOp_return_done (hout : u.stackCount n tenant t ≠ u.quotaHeld n tenant t) :
    s.frameOp 3 n t tenant f = (u.pushFrame n tenant t f).frameEnd 0 := by
  rw [frameOp_return ht hu, hbacked]
  exact if_neg hout

end

section
variable {op : Nat} (hop : op = 2 ∨ op = 4) (hu : u = s.frameShown op n t tenant f)
include hop hu

/-- REVOKE and TAKE pop; REVOKE takes 1 from HELD. -/
theorem frameOp_pop : s.frameOp op n t tenant f
    = match u.popFrame n tenant t with
      | none => u.frameEnd 2
      | some (g, v) => (if op = 2 then (v.put MEM.FRAME_CMD.FRAME g).setHeld n tenant t (u.quotaHeld n tenant t - 1)
          else v.put MEM.FRAME_CMD.FRAME g).frameEnd 0 := by
  subst hu
  exact (if_neg ht).trans ((if_neg (by omega)).trans ((if_neg (by omega)).trans (if_pos hop)))

theorem frameOp_pop_empty (hempty : u.stackCount n tenant t = 0) : s.frameOp op n t tenant f = u.frameEnd 2 := by
  have hnone : u.popFrame n tenant t = none := if_pos hempty
  rw [frameOp_pop ht hop hu, hnone]

theorem frameOp_pop_top (htop : u.stackCount n tenant t ≠ 0) {a : Nat}
    (ha : a = velBase n + u.rdLE (u.quotaAddr n tenant t + 8) 4 + 4 * (u.stackCount n tenant t - 1)) {v : State}
    (hv : v = ((u.meet a 4).wrLE (u.quotaAddr n tenant t + 0xC) 4 (u.stackCount n tenant t - 1)).put MEM.FRAME_CMD.FRAME (u.rdLE a 4)) :
    s.frameOp op n t tenant f = (if op = 2 then v.setHeld n tenant t (u.quotaHeld n tenant t - 1) else v).frameEnd 0 := by
  subst ha hv
  have hsome : u.popFrame n tenant t = some (_, _) := if_neg htop
  rw [frameOp_pop ht hop hu, hsome]
  rfl

end

end

section
variable {s : State} (n : PartIx) (tier : BitVec 2) (tn : Byte) (f : BitVec 21) (hs : s.served = true)
include hs

theorem exec_frameGrant_served : exec (.frameGrant n tier tn f) s = .next (s.frameOp 1 n tier.toNat tn.toNat f.toNat) := by
  show act s s.served _ = _
  rw [hs, act_true]

theorem exec_frameReturn_served : exec (.frameReturn n tier tn f) s = .next (s.frameOp 3 n tier.toNat tn.toNat f.toNat) := by
  show act s s.served _ = _
  rw [hs, act_true]

theorem exec_frameRevoke_served :
    exec (.frameRevoke n tier tn) s = .next (s.frameOp 2 n tier.toNat tn.toNat (s.get MEM.FRAME_CMD.FRAME)) := by
  show act s s.served _ = _
  rw [hs, act_true]

theorem exec_frameTake_served :
    exec (.frameTake n tier tn) s = .next (s.frameOp 4 n tier.toNat tn.toNat (s.get MEM.FRAME_CMD.FRAME)) := by
  show act s s.served _ = _
  rw [hs, act_true]

end

/-! ### What the read of a line meets (R205 to R211) -/

section
variable {v : State} {e : LineErr} {t o : Nat} {n : PartIx} (hplace : place e.line = some (t, n, o))
include hplace

/-- T0 and T2 show nothing but the words in error. -/
theorem lineMet_no_words (ht : t ≠ 1) (hwords : e.read.words = []) (a k : Nat) : v.lineMet e a k = v := by
  simp only [State.lineMet, hplace, ht, hwords, false_and, if_false, List.filter_nil, List.foldl_nil]

/-- One word in error that is not poisoned is treated by its syndrome. -/
theorem lineMet_one_word (ht : t ≠ 1) {i : Fin 32} {y : BitVec 7} (hwords : e.read.words = [(i, y)])
    (hsound : v.poisoned (e.line + 4 * i.val) = false) : v.lineMet e e.line 128 = v.meetWord (e.line + 4 * i.val) y.toNat e.again := by
  have hlow : e.line < e.line + 4 * i.val + 4 := by omega
  have hhigh : e.line + 4 * i.val < e.line + 128 := by omega
  simp only [State.lineMet, hplace, ht, hwords, false_and, if_false, List.filter_cons, hlow, hhigh, decide_true, Bool.and_self, if_true,
    List.filter_nil, List.foldl_cons, List.foldl_nil, hsound, Bool.false_eq_true]

/-- The bursts of a T1 line are read; what follows goes by the TAG of the check record. -/
theorem lineMet_other_tag (ht : t = 1) (htag : e.read.tag.toNat ≠ lineTag e.line) (a k : Nat) : v.lineMet e a k
    = ((burstsOf e.line a k).foldl (fun u i => u.burst e.line o n e.read.crc e.again i) v).badWords e.line (List.range 32) e.again := by
  simp only [State.lineMet, hplace, ht, htag, ne_eq, not_false_eq_true, and_self, if_true]

theorem lineMet_own_tag (ht : t = 1) (htag : e.read.tag.toNat = lineTag e.line) (hwords : e.read.words = []) (a k : Nat) :
    v.lineMet e a k = (burstsOf e.line a k).foldl (fun u i => u.burst e.line o n e.read.crc e.again i) v := by
  simp only [State.lineMet, hplace, ht, htag, hwords, ne_eq, not_true_eq_false, and_false, if_true, if_false, List.filter_nil, List.foldl_nil]

end

/-! ### The patrol scrubber (R213) -/

section
variable {s : State} {n : PartIx} {t o : Nat} (r : LineRead) (again : Bool)

theorem exec_patrolScrub_off (hoff : s.inForce MEM.SCRUB.HOURS = 0) : exec (.patrolScrub r again) s = .next s := by
  show execPatrolScrub r again s = _
  simp only [execPatrolScrub, hoff, bne_self_eq_false, Bool.and_false, Bool.false_eq_true, if_false]

section
variable (hlive : s.live = true) (hon : s.inForce MEM.SCRUB.HOURS ≠ 0) (hplace : place s.scrub = some (t, n, o))
include hlive hon hplace

theorem exec_patrolScrub_place : exec (.patrolScrub r again) s
    = if s.unavailable t n || !s.frameBacked n t (o / 65536) then .next s.scrubOn
      else .next ((s.meet s.scrub 128).lineMet { line := s.scrub, read := r, again := again, write := [] } s.scrub 128).scrubOn := by
  show execPatrolScrub r again s = _
  simp only [execPatrolScrub, hlive, bne_iff_ne.mpr hon, Bool.and_self, if_true, hplace]

theorem exec_patrolScrub_over (hgone : s.unavailable t n = true ∨ s.frameBacked n t (o / 65536) = false) :
    exec (.patrolScrub r again) s = .next s.scrubOn :=
  (exec_patrolScrub_place r again hlive hon hplace).trans (if_pos (by simpa using hgone))

theorem exec_patrolScrub_read (havail : s.unavailable t n = false) (hbacked : s.frameBacked n t (o / 65536) = true) :
    exec (.patrolScrub r again) s
      = .next ((s.meet s.scrub 128).lineMet { line := s.scrub, read := r, again := again, write := [] } s.scrub 128).scrubOn :=
  (exec_patrolScrub_place r again hlive hon hplace).trans (if_neg (by simp [havail, hbacked]))

end

end

end Sys2Proof.Machine

namespace Sys2Proof.Proofs

open Sys2Proof.Machine

/-- Settles O48: the invalidation, the frame operations by tier and outcome, the scrubber's line by what the read of it meets, and the windows. -/
theorem memoryManagement : Obligations.MemoryManagement := by
  intro s n ctx page tier tn f hs
  have hlive : s.live = true := (Bool.and_eq_true_iff.mp hs).1
  refine ⟨fun all => ?_, fun hbusy => ?_, fun x q st h k hx hq hst hh hk => ⟨fun htier => ?_, fun htier u y hu hy => ?_,
    fun htier g u y hg hu hy => ?_⟩, fun r again hoff => exec_patrolScrub_off r again hoff, fun r again t o hon hplace => ⟨
    exec_patrolScrub_over r again hlive hon hplace, fun havail hbacked => ?_⟩, fun hdue => ?_, fun dev d hoff => ?_⟩
  -- the invalidation and its end
  · exact ⟨_, exec_translationInvalidation_served page ctx n all hs, invalidated_busy page ctx n all, invalidated_tcache page ctx n all,
      invalidated_mem page ctx n all, invalidated_synd page ctx n all, invalidated_fields page ctx n all⟩
  · show act s (s.live && s.on MEM.INV_CTRL.BUSY) _ = _
    rw [hlive, hbusy, Bool.and_self, act_true]
  -- frame operations: tier 3
  · have ht : tier.toNat = 3 := congrArg BitVec.toNat htier
    rw [exec_frameGrant_served n tier tn f hs, exec_frameReturn_served n tier tn f hs, exec_frameRevoke_served n tier tn hs,
      exec_frameTake_served n tier tn hs, frameOp_tier3 1 ht, frameOp_tier3 2 ht, frameOp_tier3 3 ht, frameOp_tier3 4 ht, hx, hx, hx, hx]
    exact ⟨rfl, rfl, rfl, rfl⟩
  -- GRANT and RETURN
  · have ht : tier.toNat ≠ 3 := fun e => htier (BitVec.eq_of_toNat_eq e)
    have hgrant := hu.trans (hx 1 f.toNat)
    have hreturn := hy.trans (hx 3 f.toNat)
    simp only [hst, hh, hk, hq, ← hu, ← hy]
    rw [exec_frameGrant_served n tier tn f hs, exec_frameReturn_served n tier tn f hs]
    exact ⟨fun hfull => congrArg Host.Outcome.next (frameOp_grant_full ht hgrant hfull),
      fun hroom hgone => congrArg Host.Outcome.next (frameOp_grant_unbacked ht hgrant hroom hgone),
      fun hroom hbacked => congrArg Host.Outcome.next (frameOp_grant_done ht hgrant hroom hbacked),
      fun hgone => congrArg Host.Outcome.next (frameOp_return_unbacked ht hreturn hgone),
      fun hbacked hin => congrArg Host.Outcome.next (frameOp_return_none_out ht hreturn hbacked hin),
      fun hbacked hout => congrArg Host.Outcome.next (frameOp_return_done ht hreturn hbacked hout)⟩
  -- REVOKE and TAKE
  · have ht : tier.toNat ≠ 3 := fun e => htier (BitVec.eq_of_toNat_eq e)
    subst hg
    have hrevoke := hu.trans (hx 2 _)
    have htake := hy.trans (hx 4 _)
    simp only [hst, hh, hk, hq, ← hu, ← hy]
    rw [exec_frameRevoke_served n tier tn hs, exec_frameTake_served n tier tn hs]
    exact ⟨fun hempty => congrArg Host.Outcome.next (frameOp_pop_empty ht (.inl rfl) hrevoke hempty),
      fun htop => congrArg Host.Outcome.next (frameOp_pop_top ht (.inl rfl) hrevoke htop rfl rfl),
      fun hempty => congrArg Host.Outcome.next (frameOp_pop_empty ht (.inr rfl) htake hempty),
      fun htop => congrArg Host.Outcome.next (frameOp_pop_top ht (.inr rfl) htake htop rfl rfl)⟩
  -- the scrubber reads a line
  · rintro v rfl
    rw [exec_patrolScrub_read r again hlive hon hplace havail hbacked]
    refine ⟨fun ht hwords => ?_, fun i y ht hwords hsound => ?_, ?_⟩
    · rw [lineMet_no_words hplace ht hwords]
    · rw [lineMet_one_word hplace ht hwords hsound]
    · rintro b ht rfl
      refine ⟨fun htag => ?_, fun htag hwords => ?_⟩
      · rw [lineMet_other_tag hplace ht htag]
      · rw [lineMet_own_tag hplace ht htag hwords]
  -- the error window and the temperature
  · show act s (s.live && decide _) _ = _
    rw [hlive, decide_eq_true hdue, Bool.and_self, act_true]
  · show act s (s.live && !s.poweredOff _) _ = _
    rw [hlive, hoff, Bool.not_false, Bool.and_self, act_true]

end Sys2Proof.Proofs

end

section
/-! PROOF. Migration between tiers (R217, R218; log entries 52, 170): a request is taken up or refused, a page is copied, switched and counted. -/

namespace Sys2Proof.Machine

/-! ### The request (R217) -/

/-- The ring entry at a, with the word w at its offset 8, breaks no rule. -/
def State.migEntryOk (s : State) (a w : Nat) : Bool :=
  bits w 13 12 != 3 && s.rdLE (a + 0xC) 4 != 0 && zeroBits w 31 14 && s.rdLE a 2 == 0 && zeroBits (s.rdLE (a + 0x10) 4) 31 4

theorem migEntryOk_eq_true (s : State) (a w : Nat) : s.migEntryOk a w = true ↔ bits w 13 12 ≠ 3 ∧ s.rdLE (a + 0xC) 4 ≠ 0
    ∧ zeroBits w 31 14 = true ∧ s.rdLE a 2 = 0 ∧ zeroBits (s.rdLE (a + 0x10) 4) 31 4 = true := by
  simp only [State.migEntryOk, Bool.and_eq_true, bne_iff_ne, beq_iff_eq, and_assoc]

theorem migEntryOk_eq_false (s : State) (a w : Nat) : s.migEntryOk a w = false ↔ bits w 13 12 = 3 ∨ s.rdLE (a + 0xC) 4 = 0
    ∨ zeroBits w 31 14 = false ∨ s.rdLE a 2 ≠ 0 ∨ zeroBits (s.rdLE (a + 0x10) 4) 31 4 = false := by
  simp only [State.migEntryOk, Bool.and_eq_false_iff, bne_eq_false_iff_eq, beq_eq_false_iff_ne, or_assoc]

/-- The migration that the ring entry of index h, at a with the word w, asks for. -/
def State.migAsked (s : State) (n : PartIx) (h a w : Nat) : Migration :=
  { index := h, ctx := 4096 * n.val + bits w 11 0, first := s.rdLE a 8 / 65536, pages := s.rdLE (a + 0xC) 4, dest := bits w 13 12,
    next := 0, moved := 0, open_ := [], wait := [], fail := none }

section
variable {s : State} {n : PartIx} (hruns : s.runs n = true)
include hruns

theorem exec_migrationRequest_waiting (hnone : (s.part n).mig = none) {h a w : Nat} (hh : h = s.get (MEM.MIG_HEAD_n.INDEX n))
    (ha : a = s.migAddr n h) (hw : w = s.rdLE (a + 8) 4) (hwaiting : h % s.migSize n ≠ s.get (MEM.MIG_TAIL_n.INDEX n) % s.migSize n) :
    exec (.migrationRequest n) s = if !s.migEntryOk a w then .next (s.migEnd n h 4 0)
      else .next (s.modPart n (fun p => { p with mig := some (s.migAsked n h a w) })) := by
  subst hw ha hh
  refine if_pos ?_
  rw [hruns, hnone, beq_eq_false_iff_ne.mpr hwaiting]
  rfl

end

/-! ### The copy of a page (R218 steps 1 to 4) -/

/-- Four pages are in flight. -/
theorem exec_migrationCopy_full {s : State} {n : PartIx} {m : Migration} (hmig : (s.part n).mig = some m) (asked : BitVec 48)
    (hfull : 4 ≤ m.open_.length) : exec (.migrationCopy n asked) s = .next s := by
  show execMigrationCopy n asked s = _
  simp only [execMigrationCopy, hmig, decide_eq_false (Nat.not_lt.mpr hfull), Bool.and_false, Bool.false_and, Bool.false_eq_true, if_false]

section
variable {s : State} {n : PartIx} {m : Migration} (hruns : s.runs n = true) (hmig : (s.part n).mig = some m)
include hruns hmig

section
variable {asked : BitVec 48} (hfail : m.fail = none) (hroom : m.open_.length < 4)
include hfail hroom

theorem exec_migrationCopy_next (hmore : m.next < m.pages) (hnext : asked.toNat = m.first + m.next) : exec (.migrationCopy n asked) s
    = .next (((s.modMig n (fun q => { q with next := q.next + 1, wait := q.wait.filter (fun x => x != asked.toNat) })).migPage n m
        asked.toNat).migDone n) := by
  show execMigrationCopy n asked s = _
  simp only [execMigrationCopy, hmig, hruns, hfail, hroom, hmore, hnext, Option.isNone_none, decide_true, beq_self_eq_true, Bool.and_self,
    Bool.true_or, if_true]

theorem exec_migrationCopy_waited (hwaited : asked.toNat ∈ m.wait) (hnext : asked.toNat ≠ m.first + m.next) :
    exec (.migrationCopy n asked) s
      = .next (((s.modMig n (fun q => { q with wait := q.wait.filter (fun x => x != asked.toNat) })).migPage n m asked.toNat).migDone n) := by
  show execMigrationCopy n asked s = _
  simp only [execMigrationCopy, hmig, hruns, hfail, hroom, beq_eq_false_iff_ne.mpr hnext, List.contains_iff_mem.mpr hwaited,
    Option.isNone_none, decide_true, Bool.and_false, Bool.and_self, Bool.false_or, Bool.false_eq_true, if_true, if_false]

end

end

/-! ### The switch to the new frame (R218 step 5) -/

/-- The lines of a page that were written since the copy are copied again, with their poison. -/
def State.recopied (s : State) (p : MigPage) : State :=
  p.dirty.foldl (fun t l => (((t.meet (p.src + 128 * l) 128).wrBytes (p.dst + 128 * l) ((t.meet (p.src + 128 * l) 128).rdBytes
    (p.src + 128 * l) 128)).poisonAt (p.dst + 128 * l) ((t.meet (p.src + 128 * l) 128).poisonIn (p.src + 128 * l) 128)).wrote
    (p.dst + 128 * l) 128) s

section
variable {s : State} {n : PartIx} {m : Migration} (hruns : s.runs n = true) (hmig : (s.part n).mig = some m)
include hruns hmig

theorem exec_migrationSwitch_copied {page : BitVec 30} {p : MigPage}
    (hp : m.open_.find? (fun p => p.page == page.toNat && p.copied && !p.switched) = some p) : exec (.migrationSwitch n page) s
    = if !s.fencedOff n p.leaf && !s.fencedOff n p.src then
        .next ((((s.recopied p).setLeaf p.leaf (putBits (putBits ((s.recopied p).rdLE p.leaf 8 % 65536) 5 5 0) 2 1 p.dstTier
            + p.dst)).moveCharge n m.ctx p.page p.srcTier p.dstTier).modMig n (fun q => { q with open_ := q.open_.map (fun x =>
              if x.page = p.page then { x with switched := true, dirty := [] } else x) }))
      else .next s := by
  show execMigrationSwitch n page s = _
  simp only [execMigrationSwitch, hmig, hp, hruns, Bool.true_and]
  rfl

/-! ### The source frame goes back (R218 step 6) -/

theorem exec_migrationSourcePush_switched {page : BitVec 30} {p : MigPage}
    (hp : m.open_.find? (fun p => p.page == page.toNat && p.switched) = some p) : exec (.migrationSourcePush n page) s
      = .next (((s.pushFrame n p.tenant p.srcTier (frameNo p.src)).modMig n (fun q =>
          { q with moved := q.moved + 1, open_ := q.open_.filter (fun x => x.page != p.page) })).migDone n) := by
  show execMigrationSourcePush n page s = _
  simp only [execMigrationSourcePush, hmig, hp, hruns, if_true]

end

end Sys2Proof.Machine

namespace Sys2Proof.Proofs

open Sys2Proof.Machine

/-- Settles O49: the request by its ring entry, the copy by what is asked and what is open, the switch by the fences, and the push. -/
theorem migrations : Obligations.Migrations := by
  intro s n hruns
  refine ⟨fun h a w hnone hh ha hw hwaiting => ?_, fun m page asked hmig => ⟨exec_migrationCopy_next hruns hmig,
    exec_migrationCopy_waited hruns hmig, exec_migrationCopy_full hmig asked, fun p hp => ⟨?_, fun hfence => ?_⟩,
    fun p => exec_migrationSourcePush_switched hruns hmig⟩⟩
  · rw [exec_migrationRequest_waiting hruns hnone hh ha hw hwaiting]
    refine ⟨fun hdest hpages hzero haddr hrest => ?_, fun hbroken => ?_⟩
    · rw [(migEntryOk_eq_true s a w).mpr ⟨hdest, hpages, hzero, haddr, hrest⟩]
      rfl
    · rw [(migEntryOk_eq_false s a w).mpr hbroken]
      rfl
  · rintro v rfl hleaf hsrc
    rw [exec_migrationSwitch_copied hruns hmig hp, hleaf, hsrc]
    rfl
  · rw [exec_migrationSwitch_copied hruns hmig hp]
    exact if_neg (by rcases hfence with h | h <;> simp [h])

end Sys2Proof.Proofs

end

section
/-! PROOF. Packets by their opcode (R230) and their way (R241, R262, R263): which command takes one, what is discarded, and what goes on. -/

namespace Sys2Proof.Machine

/-! ### A packet that a command does not take (R230) -/

section
variable {s : State} {p : Packet} {op : Nat} (go : State → State)

theorem arrive_elsewhere (hdst : p.dst.toNat ≠ s.selfModule) : arrive s p op go = .next s := by
  simp only [arrive, beq_eq_false_iff_ne.mpr hdst, Bool.and_false, Bool.not_false, if_true]

theorem arrive_malformed (hlive : s.live = true) (hdst : p.dst.toNat = s.selfModule) (hbad : malformed p = true) : arrive s p op go
    = .next ((s.unbox p).put (CHT.COUNTS_n.MALFORMED p.part) ((s.unbox p).get (CHT.COUNTS_n.MALFORMED p.part) + 1)) := by
  simp only [arrive, hlive, hdst, hbad, beq_self_eq_true, Bool.and_self, Bool.not_true, Bool.false_eq_true, if_false, if_true]
  rfl

/-- A well formed packet of another opcode, or one that cannot be taken yet, is left where it is. -/
theorem arrive_untaken (hgood : malformed p = false) (hnot : op ≠ p.opcode.toNat ∨ admits s p = false) : arrive s p op go = .next s := by
  have hact : (p.opcode.toNat == op && admits s p) = false := by
    rcases hnot with hop | hadmits
    · rw [beq_eq_false_iff_ne.mpr hop.symm, Bool.false_and]
    · rw [hadmits, Bool.and_false]
  simp only [arrive, hgood, hact, act_false, Bool.false_eq_true, if_false, ite_self]

end

/-! ### The commands that take packets (R230) -/

/-- A command takes the packets of one opcode. -/
def TakesPacket (p : Packet) (op : Nat) (c : Instr) : Prop := ∃ go : State → State, ∀ s, exec c s = arrive s p op go

/-- The commands that take packets, each with its opcode; COLL_CTL is apart, for its commands share an opcode. -/
def packetCommands (p : Packet) : List (Nat × Instr) :=
  [(1, .chartRead p), (2, .chartSemWait p), (3, .chartSemAcquire p), (4, .semCancel p), (0x10, .chartWrite p), (0x11, .add32 p),
    (0x12, .chartSemAdd p), (0x13, .chartSemRelease p), (0x14, .parcelData p), (0x15, .collData p), (0x20, .chartReadData p),
    (0x21, .chartAck p), (0x22, .semResult p), (0x23, .chartNack p), (0x30, .ticketReq p), (0x31, .ticketOffer p),
    (0x32, .ticketAnswer p), (0x33, .commit p), (0x34, .prepared p), (0x35, .chartRelease p), (0x36, .releaseAck p), (0x37, .abort p),
    (0x38, .statusQuery p), (0x39, .statusAnswer p), (0x3A, .pointerUpdate p), (0x3B, .freed p), (0x3C, .ticketDone p), (0x3D, .landed p),
    (0x3F, .dirAck p)]

/-- The commands of COLL_CTL, each with its kind. -/
def ctlCommands (p : Packet) : List (Nat × Instr) := [(0, .collCtlAbort p), (1, .collCtlDone p), (2, .collCtlFinal p)]

section
variable {p : Packet} {x : Nat × Instr}

/-- Each but COLL_CTL is `arrive` of its opcode by definition; SEM_WAIT and SEM_ACQUIRE are so through `semArrive`. -/
theorem takesPacket_of_mem (h : x ∈ packetCommands p) : TakesPacket p x.1 x.2 := by
  fin_cases h <;> exact ⟨_, fun s => by dsimp only [exec, execChartSemWait, execChartSemAcquire, semArrive] <;> rfl⟩

/-- A command of COLL_CTL takes the packets of its kind, and no other. -/
theorem exec_ctl_of_mem (h : x ∈ ctlCommands p) : (bits p.aux.toNat 1 0 = x.1 → TakesPacket p 0x3E x.2)
    ∧ (bits p.aux.toNat 1 0 ≠ x.1 → ∀ s, exec x.2 s = .next s) := by
  fin_cases h <;> exact ⟨fun hkind => ⟨_, fun _ => if_pos hkind⟩, fun hkind _ => if_neg hkind⟩

/-- Every command of a packet takes its opcode, or is one of COLL_CTL of another kind than the packet's. -/
theorem takesPacket_or_idle (h : x ∈ packetCommands p ++ (ctlCommands p).map (fun k => (0x3E, k.2))) :
    TakesPacket p x.1 x.2 ∨ (x.1 = 0x3E ∧ ∀ s, exec x.2 s = .next s) := by
  rcases List.mem_append.mp h with hplain | hctl
  · exact .inl (takesPacket_of_mem hplain)
  · obtain ⟨k, hk, rfl⟩ := List.mem_map.mp hctl
    obtain ⟨htakes, hidle⟩ := exec_ctl_of_mem hk
    by_cases hkind : bits p.aux.toNat 1 0 = k.1
    · exact .inl (htakes hkind)
    · exact .inr ⟨rfl, hidle hkind⟩

end

section
variable {p : Packet} {op : Nat} {c : Instr} (htakes : TakesPacket p op c)
include htakes

theorem TakesPacket.exec_elsewhere {s : State} (hdst : p.dst.toNat ≠ s.selfModule) : exec c s = .next s := by
  obtain ⟨go, hgo⟩ := htakes
  rw [hgo, arrive_elsewhere go hdst]

theorem TakesPacket.exec_malformed {s : State} (hlive : s.live = true) (hdst : p.dst.toNat = s.selfModule) (hbad : malformed p = true) :
    exec c s
      = .next ((s.unbox p).put (CHT.COUNTS_n.MALFORMED p.part) ((s.unbox p).get (CHT.COUNTS_n.MALFORMED p.part) + 1)) := by
  obtain ⟨go, hgo⟩ := htakes
  rw [hgo, arrive_malformed go hlive hdst hbad]

theorem TakesPacket.exec_untaken {s : State} (hgood : malformed p = false) (hnot : op ≠ p.opcode.toNat ∨ admits s p = false) :
    exec c s = .next s := by
  obtain ⟨go, hgo⟩ := htakes
  rw [hgo, arrive_untaken go hgood hnot]

end

/-! ### Forwarding (R241, R262, R263) -/

theorem unbox_unheld {s : State} {p : Packet} (h : s.heldAt p = none) : s.unbox p = s := by
  simp only [State.unbox, h]

section
variable {s : State} {p : Packet}

theorem exec_packetForward_here (hdst : p.dst.toNat = s.selfModule) : exec (.packetForward p) s = .next s := by
  have hact : (s.live && p.dst.toNat != s.selfModule) = false := by rw [hdst, bne_self_eq_false, Bool.and_false]
  show execPacketForward p s = _
  rw [execPacketForward, hact]
  exact act_false s _

section
variable (hlive : s.live = true) (hdst : p.dst.toNat ≠ s.selfModule)
include hlive hdst

/-- A packet goes to its port out of the receiver that holds it, if one does. -/
theorem exec_packetForward_port {i : Nat} (hroute : s.route p.dst.toNat = some i) :
    (∀ q, s.heldAt p = some q → exec (.packetForward p) s = .next ((s.takeRx p q).toPortOut (toLink i) p (some q)))
    ∧ (s.heldAt p = none → exec (.packetForward p) s = .next (s.toPortOut (toLink i) p none)) := by
  have hforward : exec (.packetForward p) s = execPacketForward p s := rfl
  refine ⟨fun q hheld => ?_, fun hheld => ?_⟩ <;>
    simp only [hforward, execPacketForward, hroute, hheld, hlive, bne_iff_ne.mpr hdst, Bool.and_self, act_true]

theorem exec_packetForward_dropped (hroute : s.route p.dst.toNat = none) : exec (.packetForward p) s = .next (s.unbox p) := by
  show execPacketForward p s = _
  simp only [execPacketForward, hroute, hlive, bne_iff_ne.mpr hdst, Bool.and_self, act_true]

end

end

end Sys2Proof.Machine

namespace Sys2Proof.Proofs

open Sys2Proof.Machine

/-- Settles O35: every command of the list takes the packets of one opcode, or of one kind of COLL_CTL; `arrive` says what becomes of the
rest. -/
theorem packetArrival : Obligations.PacketArrival := by
  intro s p l hlive hl
  have hmem : ∀ x ∈ l, TakesPacket p x.1 x.2 ∨ (x.1 = 0x3E ∧ ∀ s, exec x.2 s = .next s) := by
    subst hl
    exact fun x hx => takesPacket_or_idle hx
  refine ⟨fun hdst => ⟨fun i q hroute hheld => ?_, fun i hroute hheld => ?_, exec_packetForward_dropped hlive hdst, fun x hx => ?_⟩,
    fun hdst => ⟨exec_packetForward_here hdst, fun hbad x hx hplain => ?_, fun k hk => ?_, fun hgood x hx hnot => ?_⟩, unbox_unheld⟩
  · exact (exec_packetForward_port hlive hdst hroute).1 q hheld
  · exact (exec_packetForward_port hlive hdst hroute).2 hheld
  · rcases hmem x hx with htakes | ⟨-, hidle⟩
    · exact htakes.exec_elsewhere hdst
    · exact hidle s
  · rcases hmem x hx with htakes | ⟨hctl, -⟩
    · exact htakes.exec_malformed hlive hdst hbad
    · exact absurd hctl hplain
  · obtain ⟨htakes, hidle⟩ := exec_ctl_of_mem hk
    exact ⟨fun hbad hkind => (htakes hkind).exec_malformed hlive hdst hbad, fun hkind => hidle hkind s⟩
  · rcases hmem x hx with htakes | ⟨-, hidle⟩
    · exact htakes.exec_untaken hgood hnot
    · exact hidle s

end Sys2Proof.Proofs

end

section
/-! PROOF. READ, WRITE and ADD32 at their home, and the duplicate filter (R227, R233, R239). -/

namespace Sys2Proof.Machine

/-! ### Words without an error (R205) -/

theorem Sparse.get_unlisted {α : Type} {m : Sparse α} {a : Nat} (h : ∀ q ∈ m, q.1 ≠ a) (d : α) : Sparse.get m a d = d := by
  have hnone : Sparse.find? m a = none := by
    induction m with
    | nil => rfl
    | cons q r ih =>
      rw [Sparse.find?, if_neg (h q List.mem_cons_self)]
      exact ih fun x hx => h x (List.mem_cons_of_mem q hx)
  rw [Sparse.get, hnone]
  rfl

section
variable {s : State} {a k : Nat} (h : noErrors s a k)
include h

theorem poisonIn_of_noErrors : s.poisonIn a k = [] := by
  obtain ⟨hwords, -⟩ := h
  refine List.filterMap_eq_nil_iff.mpr fun i hi => ?_
  have hlt : 4 * i < k := by
    have hceil : i < (k + 4 - 1) / 4 := List.mem_range.mp hi
    omega
  have hclean : Sparse.get s.synd ((a + 4 * i) / 4) 0 = 0 := Sparse.get_unlisted (fun q hq heq => hwords q hq (by omega)) 0
  rw [hclean]
  rfl

/-- A read that meets no error answers with the bytes alone. -/
theorem readAnswer_of_noErrors (p : Packet) :
    (s.meet a k).readAnswer p a k = s.sendPacket (carry (s.answer p 2 0x20 0) (s.rdBytes a k) []) := by
  rw [meet_of_noErrors h, State.readAnswer, poisonIn_of_noErrors h]
  rfl

end

/-! ### What a request of lines meets (R227, R232, R239) -/

section
variable {s : State} {p : Packet} {len : Nat}

theorem servedLines_here {e : GazEntry} (hserve : serveAt s (nameOf p.addr.toNat) = .at_ e) (go : GazEntry → Nat → State) :
    servedLines s p len go = if lineRange p len && s.parcelRange e (p.addr.toNat % 2097152) len then
      go e (e.at_ + p.addr.toNat % 2097152) else s.refuse p 5 0 0 0 := by
  simp only [servedLines, hserve]

theorem servedLines_elsewhere {st r m x : Nat} (hserve : serveAt s (nameOf p.addr.toNat) = .no st r m x) (go : GazEntry → Nat → State) :
    servedLines s p len go = s.refuse p st r m x := by
  simp only [servedLines, hserve]

theorem filtered_seen {d : DupRec} (hdup : s.dupOf p = some d) (go : State → State) : filtered s p go = s.sendPacket d.resp := by
  simp only [filtered, hdup]

/-- While the filter is full no new request of WRITE class is taken (R239). -/
theorem admits_full (hop : p.opcode.toNat = 0x10) (hfull : 16384 ≤ s.chart.dups.length) (hnew : s.dupOf p = none) :
    admits s p = false := by
  simp only [admits, hop, hnew, Option.isSome_none, decide_eq_false (Nat.not_lt.mpr hfull), Nat.reduceLT, decide_false, Bool.or_self,
    Bool.and_false, if_true]

end

/-! ### READ, WRITE and ADD32 (R233) -/

section
variable {s0 s : State} {p : Packet} (hs : s = s0.unbox p)
include hs

theorem exec_chartRead_eq (h : arrivesHere s0 p 0x01) : exec (.chartRead p) s0
    = .next (servedLines s p (bits p.aux.toNat 9 0 + 1) (fun _ a =>
        (s.meet a (bits p.aux.toNat 9 0 + 1)).readAnswer p a (bits p.aux.toNat 9 0 + 1))) := by
  subst hs
  show execChartRead p s0 = _
  rw [execChartRead, arrive_taken h]

theorem exec_chartRead_elsewhere {st r m x : Nat} (hserve : serveAt s (nameOf p.addr.toNat) = .no st r m x)
    (h : arrivesHere s0 p 0x01) : exec (.chartRead p) s0 = .next (s.refuse p st r m x) := by
  rw [exec_chartRead_eq hs h, servedLines_elsewhere hserve]

theorem exec_chartRead_here {e : GazEntry} {off len : Nat} (hoff : off = p.addr.toNat % 2097152)
    (hserve : serveAt s (nameOf p.addr.toNat) = .at_ e) (h : arrivesHere s0 p 0x01) (hlen : len = bits p.aux.toNat 9 0 + 1)
    (hline : lineRange p len = true) (hrange : s.parcelRange e off len = true) :
    exec (.chartRead p) s0 = .next ((s.meet (e.at_ + off) len).readAnswer p (e.at_ + off) len) := by
  subst hoff hlen
  rw [exec_chartRead_eq hs h, servedLines_here hserve, hline, hrange]
  rfl

/-- A WRITE or ADD32 that was applied before is answered again (R239). -/
theorem exec_write_seen {d : DupRec} (hdup : s.dupOf p = some d) :
    (arrivesHere s0 p 0x10 → exec (.chartWrite p) s0 = .next (s.sendPacket d.resp))
    ∧ (arrivesHere s0 p 0x11 → exec (.add32 p) s0 = .next (s.sendPacket d.resp)) := by
  subst hs
  refine ⟨fun h => ?_, fun h => ?_⟩
  · show execChartWrite p s0 = _
    rw [execChartWrite, arrive_taken h, filtered_seen hdup]
  · show execAdd32 p s0 = _
    rw [execAdd32, arrive_taken h, filtered_seen hdup]

section
variable {e : GazEntry} {off : Nat} (hoff : off = p.addr.toNat % 2097152) (hserve : serveAt s (nameOf p.addr.toNat) = .at_ e)
  (hnew : unseen s p)
include hoff hserve hnew

theorem exec_chartWrite_here (h : arrivesHere s0 p 0x10) : exec (.chartWrite p) s0
    = .next (if lineRange p p.payload.length && s.parcelRange e off p.payload.length then
        ((s.extWrite (e.at_ + off) p.payload (badWordsOf p)).markLines e.name off p.payload.length).applied p (s.ack p)
      else s.refuse p 5 0 0 0) := by
  subst hs hoff
  show execChartWrite p s0 = _
  rw [execChartWrite, arrive_taken h, filtered_unseen hnew, servedLines_here hserve]

theorem exec_add32_here (h : arrivesHere s0 p 0x11) : exec (.add32 p) s0
    = .next (if lineRange p p.payload.length && s.parcelRange e off p.payload.length then
        (((s.extAdd (e.at_ + off) (wordsOf p)).poisonAt (e.at_ + off) (badWordsOf p)).markLines e.name off p.payload.length).applied p
          (s.ack p)
      else s.refuse p 5 0 0 0) := by
  subst hs hoff
  show execAdd32 p s0 = _
  rw [execAdd32, arrive_taken h, filtered_unseen hnew, servedLines_here hserve]

end

end

theorem exec_chartWrite_full {s : State} {p : Packet} (hgood : malformed p = false) (hop : p.opcode.toNat = 0x10)
    (hfull : 16384 ≤ s.chart.dups.length) (hnew : s.dupOf p = none) : exec (.chartWrite p) s = .next s := by
  show execChartWrite p s = _
  rw [execChartWrite, arrive_untaken _ hgood (.inr (admits_full hop hfull hnew))]

theorem exec_duplicateWindowExpiry_live {s : State} (hlive : s.live = true) : exec .duplicateWindowExpiry s
    = .next { s with chart := { s.chart with dups := s.chart.dups.filter (fun d => decide (s.time < d.due)) } } := by
  show execDuplicateWindowExpiry s = _
  rw [execDuplicateWindowExpiry, hlive]
  exact act_true s _

end Sys2Proof.Machine

namespace Sys2Proof.Proofs

open Sys2Proof.Machine

/-- Settles O36: each request by its filter, its entry and its range. -/
theorem homeServes : Obligations.HomeServes := by
  refine ⟨fun s0 s p e off hs hoff => ⟨fun hserve => ⟨fun len h hlen hline hrange => ⟨?_, fun hsound => readAnswer_of_noErrors hsound p⟩,
      fun h hnew hline hrange => ?_, fun h hnew hline hrange => ?_, fun hnew hbad => ⟨fun h => ?_, fun h => ?_⟩⟩,
    fun st r m x => exec_chartRead_elsewhere hs, fun d => exec_write_seen hs⟩,
    fun s p hlive => ⟨exec_chartWrite_full, exec_duplicateWindowExpiry_live hlive⟩⟩
  · exact exec_chartRead_here hs hoff hserve h hlen hline hrange
  · rw [exec_chartWrite_here hs hoff hserve hnew h, hline, hrange]
    rfl
  · rw [exec_add32_here hs hoff hserve hnew h, hline, hrange]
    rfl
  · rw [exec_chartWrite_here hs hoff hserve hnew h, hbad, if_neg Bool.false_ne_true]
  · rw [exec_add32_here hs hoff hserve hnew h, hbad, if_neg Bool.false_ne_true]

end Sys2Proof.Proofs

end

section
/-! PROOF. Tickets at the home and at the destination (R244 to R247): request, offer, answer, commit and release. -/

namespace Sys2Proof.Machine

/-! ### The Chart, open or closed (R223) -/

section
variable {α : Type} {a b : α} {s : State}

theorem ite_chart_open (hopen : s.chartOpen = true) : (if !s.chartOpen then a else b) = b := by
  rw [hopen]
  rfl

theorem ite_chart_closed (hclosed : s.chartOpen = false) : (if !s.chartOpen then a else b) = a := by
  rw [hclosed]
  rfl

end

/-! ### TICKET_REQ (R246) -/

section
variable {s0 s : State} {p : Packet} (hs : s = s0.unbox p)
include hs

section
variable (h : arrivesHere s0 p 0x30)
include h

theorem exec_ticketReq_closed (hclosed : s.chartOpen = false) : exec (.ticketReq p) s0 = .next (s.dirAck p 3 100) := by
  subst hs
  show execTicketReq p s0 = _
  simp only [execTicketReq, arrive_taken h, ite_chart_closed hclosed]

section
variable (hopen : s.chartOpen = true)
include hopen

theorem exec_ticketReq_unknown (hgaz : s.gazAt (pktName p) = none) : exec (.ticketReq p) s0
    = .next (s.dirAck p (if s.isOrigin (pktName p) then 5 else 4) 0) := by
  subst hs
  show execTicketReq p s0 = _
  simp only [execTicketReq, arrive_taken h, ite_chart_open hopen, hgaz]

section
variable {e : GazEntry} (hgaz : s.gazAt (pktName p) = some e)
include hgaz

/-- At its home a request goes to the ticket in hand, or begins one. -/
theorem exec_ticketReq_home (hst : e.st = .home) :
    (∀ t, s.outOf (pktName p) = some t → exec (.ticketReq p) s0 = .next (s.reqActive p t))
    ∧ (s.outOf (pktName p) = none → exec (.ticketReq p) s0 = .next (s.reqIdle p e)) := by
  subst hs
  have hreq : exec (.ticketReq p) s0 = execTicketReq p s0 := rfl
  refine ⟨fun t hout => ?_, fun hout => ?_⟩ <;>
    simp only [hreq, execTicketReq, arrive_taken h, ite_chart_open hopen, hgaz, hst, hout]

/-- A FORWARD or RECEIVING entry redirects a request to the module it names. -/
theorem exec_ticketReq_redirected (hst : e.st = .forward ∨ e.st = .receiving) : exec (.ticketReq p) s0
    = .next (s.sendPacket { s.answer p 3 0x3F 1 with aux := BitVec.ofNat 32 e.module, epoch := BitVec.ofNat 16 e.epoch }) := by
  subst hs
  show execTicketReq p s0 = _
  rcases hst with hst | hst <;>
    simp only [execTicketReq, arrive_taken h, ite_chart_open hopen, hgaz, hst]

theorem exec_ticketReq_unsettled (hst : e.st = .prepared ∨ e.st = .inDoubt) : exec (.ticketReq p) s0 = .next (s.dirAck p 3 100) := by
  subst hs
  show execTicketReq p s0 = _
  rcases hst with hst | hst <;>
    simp only [execTicketReq, arrive_taken h, ite_chart_open hopen, hgaz, hst]

theorem exec_ticketReq_lost (hst : e.st = .lost) : exec (.ticketReq p) s0 = .next (s.dirAck p 6 0) := by
  subst hs
  show execTicketReq p s0 = _
  simp only [execTicketReq, arrive_taken h, ite_chart_open hopen, hgaz, hst]

end

end

end

/-! ### TICKET_OFFER (R247) -/

section
variable (h : arrivesHere s0 p 0x31)
include h

theorem exec_ticketOffer_closed (hclosed : s.chartOpen = false) : exec (.ticketOffer p) s0 = .next (s.ticketAnswer p 3) := by
  subst hs
  show execTicketOffer p s0 = _
  simp only [execTicketOffer, arrive_taken h, ite_chart_closed hclosed]

section
variable (hopen : s.chartOpen = true) (hnew : s.inId (tkId p) = none)
include hopen hnew

theorem exec_ticketOffer_present (hhere : absent (s.gazAt (pktName p)) = false) : exec (.ticketOffer p) s0 = .next s := by
  subst hs
  show execTicketOffer p s0 = _
  simp only [execTicketOffer, arrive_taken h, ite_chart_open hopen, hnew, hhere, Bool.not_false, if_true]

/-- An offer is accepted where its set has a way, an incoming slot is free, the host refuses none and its stack gives a slot. -/
theorem exec_ticketOffer_accepted {i b : Nat} {t : State} (habsent : absent (s.gazAt (pktName p)) = true)
    (hway : ((s.gazAt (pktName p)).isSome || s.hasWay (pktName p)) = true)
    (hslot : (List.range 64).find? (fun i => s.chart.inT.all (fun t => t.slot != i)) = some i)
    (hroom : s.slotRefusal (toPart (tkPart p)) (tkTier p) true = none) (hpop : s.popHost (toPart (tkPart p)) (tkTier p) = some (b, t)) :
    exec (.ticketOffer p) s0 = .next (t.receive p b i) := by
  subst hs
  show execTicketOffer p s0 = _
  simp only [execTicketOffer, arrive_taken h, ite_chart_open hopen, hnew, habsent, hway, hslot, hroom, hpop, Option.isSome_some, Bool.and_self,
    Bool.not_true, Bool.false_eq_true, if_false]

end

end

/-! ### TICKET_ANSWER, PREPARED and RELEASE_ACK at the home (R246) -/

section
variable {t : OutTicket} (hid : s.outId p.nonce.toNat = some t)
include hid

/-- The answer to an offer begins the copy, or ends the ticket with the refusal's status. -/
theorem exec_ticketAnswer_offered (h : arrivesHere s0 p 0x32) (hphase : t.phase = .offered) : exec (.ticketAnswer p) s0
    = .next (if p.status.toNat = 0 then
        (s.dropDirs (fun d => d.kind == .offer t.slot)).modOut t.slot (fun t => { t with phase := .copying })
      else s.endTicket t (ringStatus p.status.toNat)) := by
  subst hs
  show execTicketAnswer p s0 = _
  simp only [execTicketAnswer, arrive_taken h, hid, hphase, reduceCtorEq, if_false, if_true]

theorem exec_ticketAnswer_forwarded (h : arrivesHere s0 p 0x32) (hphase : t.phase = .forwarded) : exec (.ticketAnswer p) s0 = .next s := by
  subst hs
  show execTicketAnswer p s0 = _
  simp only [execTicketAnswer, arrive_taken h, hid, hphase, if_true]

theorem exec_prepared_known (h : arrivesHere s0 p 0x34) : exec (.prepared p) s0
    = .next (if t.phase = .frozen then s.forwardParcel t else s) := by
  subst hs
  show execPrepared p s0 = _
  simp only [execPrepared, arrive_taken h, hid]

theorem exec_releaseAck_known (h : arrivesHere s0 p 0x36) : exec (.releaseAck p) s0
    = .next (if t.phase = .forwarded then s.settle t else s) := by
  subst hs
  show execReleaseAck p s0 = _
  simp only [execReleaseAck, arrive_taken h, hid]

end

/-! ### COMMIT and RELEASE at the destination (R247) -/

theorem exec_commit_closed (h : arrivesHere s0 p 0x33) (hclosed : s.chartOpen = false) : exec (.commit p) s0 = .next (s.nack p 3 100) := by
  subst hs
  show execCommit p s0 = _
  simp only [execCommit, arrive_taken h, ite_chart_closed hclosed]

theorem exec_chartRelease_closed (h : arrivesHere s0 p 0x35) (hclosed : s.chartOpen = false) :
    exec (.chartRelease p) s0 = .next (s.nack p 3 100) := by
  subst hs
  show execChartRelease p s0 = _
  simp only [execChartRelease, arrive_taken h, ite_chart_closed hclosed]

section
variable (hopen : s.chartOpen = true)
include hopen

theorem exec_commit_receiving {t : InTicket} {e : GazEntry} (h : arrivesHere s0 p 0x33) (hid : s.inId p.nonce.toNat = some t)
    (hgaz : s.gazAt (pktName p) = some e) (hst : e.st = .receiving) {v : State}
    (hv : v = (s.modGaz e.name (fun e =>
      { e with st := .prepared, epoch := (p.epoch.toNat + 1) % 65536, hold := tkPromoter p })).heard t.id) :
    exec (.commit p) s0 = .next (v.sendPacket (v.answer p 3 0x34 0)) := by
  subst hs hv
  show execCommit p s0 = _
  simp only [execCommit, arrive_taken h, ite_chart_open hopen, hid, hgaz, hst, if_true]

/-- A COMMIT without its ticket is answered by what became of it: completed here, unknown, or neither. -/
theorem exec_commit_unknown (h : arrivesHere s0 p 0x33) (hid : s.inId p.nonce.toNat = none) : exec (.commit p) s0
    = .next (if s.chart.doneIn.contains p.nonce.toNat then s.sendPacket (s.answer p 3 0x34 0)
      else if absent (s.gazAt (pktName p)) then s.nack p 8 0 else s) := by
  subst hs
  show execCommit p s0 = _
  simp only [execCommit, arrive_taken h, ite_chart_open hopen, hid]

theorem exec_chartRelease_known {t : InTicket} {e : GazEntry} (h : arrivesHere s0 p 0x35) (hid : s.inId p.nonce.toNat = some t)
    (hgaz : s.gazAt (pktName p) = some e) : exec (.chartRelease p) s0
      = .next (if e.st = .prepared ∨ e.st = .inDoubt then s.becomeHome t p else s) := by
  subst hs
  show execChartRelease p s0 = _
  simp only [execChartRelease, arrive_taken h, ite_chart_open hopen, hid, hgaz]

end

end

end Sys2Proof.Machine

namespace Sys2Proof.Proofs

open Sys2Proof.Machine

/-- Settles O42: each message of a ticket by the Chart, the entry of its name and the phase of its ticket. -/
theorem ticketHandover : Obligations.TicketHandover := by
  intro s0 s p hs
  refine ⟨fun h => ⟨exec_ticketReq_closed hs h, exec_ticketReq_unknown hs h, fun e hopen hgaz => ⟨fun t hst => ?_, fun hst => ?_,
      exec_ticketReq_redirected hs h hopen hgaz, exec_ticketReq_unsettled hs h hopen hgaz, exec_ticketReq_lost hs h hopen hgaz⟩⟩,
    fun h => ⟨exec_ticketOffer_closed hs h, exec_ticketOffer_present hs h, fun i b t hopen hnew => exec_ticketOffer_accepted hs h hopen hnew⟩,
    fun t h hid => ⟨fun hphase hyes => ?_, fun hphase hno => ?_, exec_ticketAnswer_forwarded hs hid h⟩,
    exec_commit_closed hs, exec_chartRelease_closed hs,
    fun h hopen => ⟨fun t e hid hgaz hst => ⟨_, exec_commit_receiving hs hopen h hid hgaz hst rfl, _, rfl, rfl⟩, fun hid hdone => ?_,
      fun hid hnot habsent => ?_⟩,
    fun t h hid => ?_, fun t e h hopen hid hgaz => ?_, fun t h hid => ?_⟩
  · exact (exec_ticketReq_home hs h hopen hgaz hst).1 t
  · exact (exec_ticketReq_home hs h hopen hgaz hst).2
  · rw [exec_ticketAnswer_offered hs hid h hphase, hyes]
    rfl
  · rw [exec_ticketAnswer_offered hs hid h hphase, if_neg hno]
  · rw [exec_commit_unknown hs hopen h hid, if_pos hdone]
  · rw [exec_commit_unknown hs hopen h hid, hnot, habsent]
    rfl
  · rw [exec_prepared_known hs hid h]
    exact ⟨fun hfrozen => by rw [if_pos hfrozen], fun hother => by rw [if_neg hother]⟩
  · rw [exec_chartRelease_known hs hopen h hid hgaz]
    exact ⟨fun hready => by rw [if_pos hready], fun hst => by rw [if_neg (by simp [hst])]⟩
  · rw [exec_releaseAck_known hs hid h]
    exact ⟨fun hforwarded => by rw [if_pos hforwarded], fun hother => by rw [if_neg hother]⟩

end Sys2Proof.Proofs

end

section
/-! PROOF. Tickets by their other messages (R231, R244 to R248): aborts, status, data and pointers, the ticket ring, and the timers of the
destination. -/

namespace Sys2Proof.Machine

/-! ### The Chart is closed (R223) -/

section
variable {s0 s : State} {p : Packet} (hs : s = s0.unbox p)
include hs

/-- While the Chart is closed, what a ticket asks for is answered UNAVAILABLE. -/
theorem exec_ticketMessages_closed (hclosed : s.chartOpen = false) :
    (arrivesHere s0 p 0x37 → exec (.abort p) s0 = .next (s.dirAck p 3 100))
    ∧ (arrivesHere s0 p 0x38 → exec (.statusQuery p) s0 = .next (s.sendPacket { s.answer p 3 0x39 3 with retry := 100 }))
    ∧ (arrivesHere s0 p 0x3C → exec (.ticketDone p) s0 = .next (s.dirAck p 3 100))
    ∧ (arrivesHere s0 p 0x3D → exec (.landed p) s0 = .next (s.dirAck p 3 100)) := by
  subst hs
  refine ⟨fun h => ?_, fun h => ?_, fun h => ?_, fun h => ?_⟩
  · show execAbort p s0 = _
    simp only [execAbort, arrive_taken h, ite_chart_closed hclosed]
  · show execStatusQuery p s0 = _
    simp only [execStatusQuery, arrive_taken h, ite_chart_closed hclosed]
  · show execTicketDone p s0 = _
    simp only [execTicketDone, arrive_taken h, ite_chart_closed hclosed]
  · show execLanded p s0 = _
    simp only [execLanded, arrive_taken h, ite_chart_closed hclosed]

/-! ### ABORT and STATUS_ANSWER at the destination, STATUS_QUERY (R246, R247) -/

theorem exec_abort_known {t : InTicket} {e : GazEntry} (h : arrivesHere s0 p 0x37) (hopen : s.chartOpen = true)
    (hid : s.inId p.nonce.toNat = some t) (hgaz : s.gazAt (pktName p) = some e) : exec (.abort p) s0
      = .next (if e.st = .receiving ∨ e.st = .prepared then (s.restore t).dirAck p 0 0 else s.dirAck p 0 0) := by
  subst hs
  show execAbort p s0 = _
  simp only [execAbort, arrive_taken h, ite_chart_open hopen, hid, hgaz]

/-- A status query is answered with the entry's state and module, 0 where there is none. -/
theorem exec_statusQuery_open (h : arrivesHere s0 p 0x38) (hopen : s.chartOpen = true) :
    (∀ e, s.gazAt (pktName p) = some e → exec (.statusQuery p) s0
      = .next (s.sendPacket { s.answer p 3 0x39 0 with aux := BitVec.ofNat 32 (gazCode e.st + 8 * e.module) }))
    ∧ (s.gazAt (pktName p) = none → exec (.statusQuery p) s0 = .next (s.sendPacket { s.answer p 3 0x39 0 with aux := 0 })) := by
  subst hs
  have hquery : exec (.statusQuery p) s0 = execStatusQuery p s0 := rfl
  refine ⟨fun e hgaz => ?_, fun hgaz => ?_⟩
  · simp only [hquery, execStatusQuery, arrive_taken h, ite_chart_open hopen, hgaz]
  · simp only [hquery, execStatusQuery, arrive_taken h, ite_chart_open hopen, hgaz]
    rfl

/-- The answer settles a PREPARED parcel: home here where the source forwards to this module, else restored. -/
theorem exec_statusAnswer_prepared {t : InTicket} {e : GazEntry} (h : arrivesHere s0 p 0x39) (hstatus : p.status = 0)
    (hid : s.inId p.nonce.toNat = some t) (hgaz : s.gazAt (pktName p) = some e) (hst : e.st = .prepared) : exec (.statusAnswer p) s0
      = .next (if bits p.aux.toNat 2 0 == 2 && bits p.aux.toNat 14 3 == s.selfModule then s.becomeHome t p else s.restore t) := by
  subst hs
  show execStatusAnswer p s0 = _
  simp only [execStatusAnswer, arrive_taken h, hstatus, hid, hgaz, hst, ne_eq, not_true_eq_false, if_false, if_true]

theorem exec_statusAnswer_unavailable {d : DirMsg} (h : arrivesHere s0 p 0x39) (hstatus : p.status ≠ 0) (hdir : s.dirFor p = some d) :
    exec (.statusAnswer p) s0 = .next (s.modDir d (fun x => { x with again := some (s.time + 800 * p.retry.toNat) })) := by
  subst hs
  show execStatusAnswer p s0 = _
  simp only [execStatusAnswer, arrive_taken h, hstatus, hdir, ne_eq, not_false_eq_true, if_true]

/-! ### PARCEL_DATA (R247) -/

section
variable {t : InTicket} {e : GazEntry} (h : arrivesHere s0 p 0x14) (hnew : unseen s p) (hopen : s.chartOpen = true)
  (hof : s.inOf (pktName p) = some t) (hgaz : s.gazAt (pktName p) = some e)
include h hnew hopen hof hgaz

/-- A block from the ticket's source lands in its slot. -/
theorem exec_parcelData_source {a : Nat} {v : State} (hsrc : t.src = p.src.toNat) (hstored : s.storageOut e.base = false)
    (ha : a = e.at_ + p.addr.toNat % 2097152)
    (hv : v = (((s.wrBytes a p.payload).poisonAt a (badWordsOf p)).wrote a p.payload.length).heard t.id) :
    exec (.parcelData p) s0 = .next (v.applied p (v.ack p)) := by
  subst hs ha hv
  show execParcelData p s0 = _
  rw [execParcelData, arrive_taken h, filtered_unseen hnew]
  simp only [ite_chart_open hopen, hof, hgaz, hsrc, hstored, Bool.false_eq_true, if_false, if_true]

theorem exec_parcelData_stranger (hsrc : t.src ≠ p.src.toNat) : exec (.parcelData p) s0 = .next (s.refuse p 8 0 0 0) := by
  subst hs
  show execParcelData p s0 = _
  rw [execParcelData, arrive_taken h, filtered_unseen hnew]
  simp only [ite_chart_open hopen, hof, hgaz, hsrc, if_false]

end

/-! ### The origin's pointer (R248) -/

section
variable {e : GazEntry} (hopen : s.chartOpen = true) (hgaz : s.gazAt (pktName p) = some e)
include hopen hgaz

theorem exec_pointerUpdate_known (h : arrivesHere s0 p 0x3A) : exec (.pointerUpdate p) s0
    = .next (if e.st = .forward ∧ e.origin ∧ newer p.epoch.toNat e.epoch then
        (s.modGaz e.name (fun e => { e with module := bits p.aux.toNat 11 0, epoch := p.epoch.toNat })).dirAck p 0 0
      else s.dirAck p 0 0) := by
  subst hs
  show execPointerUpdate p s0 = _
  simp only [execPointerUpdate, arrive_taken h, ite_chart_open hopen, hgaz]

theorem exec_freed_known (h : arrivesHere s0 p 0x3B) : exec (.freed p) s0
    = .next (if e.st = .forward ∧ e.origin ∧ !newer e.epoch p.epoch.toNat then (s.freeGaz e.name).dirAck p 0 0 else s.dirAck p 0 0) := by
  subst hs
  show execFreed p s0 = _
  simp only [execFreed, arrive_taken h, ite_chart_open hopen, hgaz]

end

/-! ### TICKET_DONE and LANDED at the ring (R244) -/

section
variable (hopen : s.chartOpen = true)
include hopen

theorem exec_ticketDone_entry {e : RingEnt} (h : arrivesHere s0 p 0x3C)
    (hentry : s.chart.ring.find? (fun e => e.id == p.nonce.toNat && !e.final) = some e) : exec (.ticketDone p) s0
      = .next (((s.dropDirs (fun d => d.kind == .ring e.index)).ringFinal e.index (bits p.aux.toNat 3 0) p.epoch.toNat).dirAck p 0 0) := by
  subst hs
  show execTicketDone p s0 = _
  simp only [execTicketDone, arrive_taken h, ite_chart_open hopen, hentry]

theorem exec_landed_entry {e : RingEnt} (h : arrivesHere s0 p 0x3D)
    (hentry : s.chart.ring.find? (fun e => e.id == p.nonce.toNat && e.wait && !e.final) = some e) : exec (.landed p) s0
      = .next (((s.modRing e.index (fun x => { x with wait := false })).askTicket e.index e.id (bits p.aux.toNat 11 0)).dirAck p 0 0) := by
  subst hs
  show execLanded p s0 = _
  simp only [execLanded, arrive_taken h, ite_chart_open hopen, hentry]

/-- With no entry in flight both are only acknowledged. -/
theorem exec_ring_empty (hempty : s.chart.ring = []) : (arrivesHere s0 p 0x3C → exec (.ticketDone p) s0 = .next (s.dirAck p 0 0))
    ∧ (arrivesHere s0 p 0x3D → exec (.landed p) s0 = .next (s.dirAck p 0 0)) := by
  subst hs
  refine ⟨fun h => ?_, fun h => ?_⟩
  · show execTicketDone p s0 = _
    simp only [execTicketDone, arrive_taken h, ite_chart_open hopen, hempty, List.find?_nil]
  · show execLanded p s0 = _
    simp only [execLanded, arrive_taken h, ite_chart_open hopen, hempty, List.find?_nil]

end

end

/-! ### The next entry of the ticket ring (R244) -/

/-- A rule of a ring entry is broken: its tier or its kind is none that there is, or its name has low bits set. -/
def State.ringEntryBad (s : State) (a : Nat) : Prop :=
  bits (s.rdLE (a + 8) 4) 15 14 = 3 ∨ (bits (s.rdLE (a + 8) 4) 17 16 ≠ 1 ∧ bits (s.rdLE (a + 8) 4) 17 16 ≠ 2) ∨ s.rdLE a 8 % 2097152 ≠ 0

theorem ringEntryBad_iff (s : State) (a : Nat) : s.ringEntryBad a
    ↔ bits (s.rdLE (a + 8) 4) 15 14 = 3 ∨ bits (s.rdLE (a + 8) 4) 17 16 ∉ [1, 2] ∨ s.rdLE a 8 % 2097152 ≠ 0 := by
  simp only [State.ringEntryBad, List.mem_cons, List.not_mem_nil, or_false, not_or, ne_eq]

section
variable {s x : State} {i : Nat} (hlive : s.live = true) (hopen : s.chartOpen = true)
  (hi : i = (s.get GAZ.TRING_HEAD.INDEX + s.chart.taken) % 65536)
  (hmore : i % s.tringSize ≠ s.get GAZ.TRING_TAIL.INDEX % s.tringSize) (hfew : (s.chart.ring.filter (fun e => !e.final)).length < 16)
  (hroom : s.chart.taken < s.tringSize)
  (hx : x = { s with chart := { s.chart with
    ring := s.chart.ring ++ [{ index := i, id := s.selfModule * 2 ^ 20 + s.chart.ticketNo % 2 ^ 20 }]
    taken := s.chart.taken + 1
    ticketNo := s.chart.ticketNo + 1 } })
include hlive hopen hi hmore hfew hroom hx

/-- The agent takes the next entry: refused where it breaks a rule, else its ticket is asked for. -/
theorem exec_ticketRingEntry_next :
    (s.ringEntryBad (s.tringAt i) → exec .ticketRingEntry s = .next (x.ringFinal i 3 0))
    ∧ (¬s.ringEntryBad (s.tringAt i) → exec .ticketRingEntry s = .next ((x.target (nameOf (s.rdLE (s.tringAt i) 8))).2.askTicket i
        (s.selfModule * 2 ^ 20 + s.chart.ticketNo % 2 ^ 20) (x.target (nameOf (s.rdLE (s.tringAt i) 8))).1)) := by
  subst hi hx
  have hring : exec .ticketRingEntry s = execTicketRingEntry s := rfl
  refine ⟨fun hbad => ?_, fun hgood => ?_⟩ <;>
    simp only [hring, execTicketRingEntry, hlive, hopen, hmore, hfew, hroom, decide_false, decide_true, Bool.not_false, Bool.and_self, if_true]
  · exact if_pos hbad
  · exact if_neg hgood

end

/-! ### The timers of a parcel that is coming (R247) -/

section
variable {s : State} {name : BitVec 43} {t : InTicket} {e : GazEntry} (hlive : s.live = true) (hof : s.inOf name.toNat = some t)
  (hgaz : s.gazAt name.toNat = some e)
include hlive hof hgaz

theorem exec_receivingTimeout_due (hst : e.st = .receiving)
    (hdue : t.last + 800 * clamp 10 65535 (s.inForce CHT.DIR.DIR_US) * (clamp 1 255 (s.inForce CHT.TIMERS2.DIR_RETRIES) + 1) ≤ s.time) :
    exec (.receivingTimeout name) s = .next (s.restore t) := by
  show execReceivingTimeout name s = _
  simp only [execReceivingTimeout, hof, hgaz, hlive, hst, hdue, decide_true, Bool.and_self, act_true]

/-- A parcel PREPARED for DIR_US asks its source, unless a query is under way. -/
theorem exec_preparedTimeout_due (hst : e.st = .prepared) (hdue : e.time + 800 * clamp 10 65535 (s.inForce CHT.DIR.DIR_US) ≤ s.time)
    (hunasked : ∀ d ∈ s.chart.dirs, d.kind ≠ .query t.slot) : exec (.preparedTimeout name) s
      = .next (s.sendDir (s.dirMsg (slotPart e.base) 0x38 t.src t.id t.name e.epoch 0) (.query t.slot)) := by
  have hall : s.chart.dirs.all (fun d => d.kind != .query t.slot) = true :=
    List.all_eq_true.mpr fun d hd => bne_iff_ne.mpr (hunasked d hd)
  show execPreparedTimeout name s = _
  simp only [execPreparedTimeout, hof, hgaz, hlive, hst, hdue, hall, decide_true, Bool.and_self, act_true]

end

end Sys2Proof.Machine

namespace Sys2Proof.Proofs

open Sys2Proof.Machine

/-- Settles O43: each message by the Chart and the entry it finds, the next entry of the ring by its rules, and each timer at its time. -/
theorem ticketMessages : Obligations.TicketMessages := by
  refine ⟨fun s0 s p hs => ⟨exec_ticketMessages_closed hs, fun t e h hopen hid hgaz => ?_, exec_statusQuery_open hs,
      fun t e h hstatus hid hgaz hst => ?_, fun d => exec_statusAnswer_unavailable hs,
      fun t e h hnew hopen hof hgaz => ⟨fun hsrc hstored =>
          ⟨_, exec_parcelData_source hs h hnew hopen hof hgaz hsrc hstored rfl rfl, _, rfl, rfl⟩,
        exec_parcelData_stranger hs h hnew hopen hof hgaz⟩,
      fun e h hopen hgaz => ?_, fun e h hopen hgaz => ?_,
      fun h hopen => ⟨fun e => exec_ticketDone_entry hs hopen h, fun hempty => (exec_ring_empty hs hopen hempty).1 h⟩,
      fun h hopen => ⟨fun e => exec_landed_entry hs hopen h, fun hempty => (exec_ring_empty hs hopen hempty).2 h⟩⟩,
    fun s hlive => ⟨fun i x hopen hi hmore hfew hroom hx => ?_,
      fun name t e hof hgaz => ⟨exec_receivingTimeout_due hlive hof hgaz, exec_preparedTimeout_due hlive hof hgaz⟩⟩⟩
  · rw [exec_abort_known hs h hopen hid hgaz]
    exact ⟨fun hcoming => by rw [if_pos hcoming], fun hst => by rw [if_neg (by simp [hst])]⟩
  · rw [exec_statusAnswer_prepared hs h hstatus hid hgaz hst]
    refine ⟨fun hforward hmine => ?_, fun hother => ?_⟩
    · rw [hforward, hmine, beq_self_eq_true, beq_self_eq_true]
      rfl
    · have hnot : ¬((bits p.aux.toNat 2 0 == 2 && bits p.aux.toNat 14 3 == s.selfModule) = true) := by
        rcases hother with h | h <;> simp [h]
      rw [if_neg hnot]
  · rw [exec_pointerUpdate_known hs hopen hgaz h]
    exact ⟨fun hst horigin hnewer => by rw [if_pos ⟨hst, horigin, hnewer⟩], fun holder => by rw [if_neg (by simp [holder])]⟩
  · rw [exec_freed_known hs hopen hgaz h]
    exact ⟨fun hst horigin hnewer => by rw [if_pos ⟨hst, horigin, by rw [hnewer]; rfl⟩], fun hst => by rw [if_neg (by simp [hst])]⟩
  · obtain ⟨hbad, hgood⟩ := exec_ticketRingEntry_next hlive hopen hi hmore hfew hroom hx
    refine ⟨fun h => hbad ((ringEntryBad_iff s _).mpr h), fun htier hkind hname => hgood fun h => ?_⟩
    rcases (ringEntryBad_iff s _).mp h with h | h | h
    · exact htier h
    · exact h hkind
    · exact h hname

end Sys2Proof.Proofs

end

section
/-! PROOF. The operations of GAZ.CMD (R224, R243, R246, R252, R257), the opening of the Chart (R223), its hints (R228), and what ages in the
gazetteer (R226, R247). -/

namespace Sys2Proof.Machine

/-! ### An entry changed -/

/-- A change of an entry that keeps its name leaves the name known. -/
theorem gazAt_modGaz_isSome {s : State} {n : Nat} {f : GazEntry → GazEntry} (hname : ∀ e, (f e).name = e.name)
    (h : (s.gazAt n).isSome = true) : ((s.modGaz n f).gazAt n).isSome = true := by
  obtain ⟨e, hmem, hn⟩ := List.find?_isSome.mp h
  refine List.find?_isSome.mpr ⟨_, List.mem_map_of_mem hmem, ?_⟩
  rw [if_pos (eq_of_beq hn)]
  show (if (f e).st = e.st ∧ (f e).hold = e.hold then f e else { f e with time := s.time }).name == n
  split <;> exact (hname e).symm ▸ hn

/-! ### Commands on the Chart while the module serves (R223, R228, R257) -/

theorem live_of_served {s : State} (h : s.served = true) : s.live = true := (Bool.and_eq_true_iff.mp h).1

theorem settable_of_served {s : State} (h : s.served = true) : s.settable = true := by
  obtain ⟨hlive, hstarted⟩ := Bool.and_eq_true_iff.mp h
  rw [State.settable, hlive, hstarted]
  rfl

section
variable {s : State} (hs : s.served = true)
include hs

theorem exec_openChart_served : exec .openChart s = .next (s.put GAZ.CTRL.OPEN 1) := by
  show execOpenChart s = _
  rw [execOpenChart, settable_of_served hs, act_true]

theorem exec_hintFlush_served : exec .hintFlush s = .next { s with chart := { s.chart with hints := [] } } := by
  show execHintFlush s = _
  rw [execHintFlush, hs]
  exact act_true s _

theorem exec_pushSlot_served (n : PartIx) (t : BitVec 2) (base : BitVec 31) : exec (.pushSlot n t base) s
    = .next (((s.gazArg 8 n t.toNat).put GAZ.CMD_ARG.BASE base.toNat).gazPush n t.toNat base.toNat) := by
  show execPushSlot n t base s = _
  rw [execPushSlot, hs, act_true]

theorem exec_popSlot_served (n : PartIx) (t : BitVec 2) : exec (.popSlot n t) s = .next ((s.gazArg 9 n t.toNat).gazPop n t.toNat) := by
  show execPopSlot n t s = _
  rw [execPopSlot, hs, act_true]

end

/-! ### An operation runs on the state that shows it in GAZ.CMD (R257) -/

/-- GAZ.CMD shows an operation and its name. -/
def State.gazShown (s : State) (op name : Nat) : State := (s.put GAZ.CMD.NAME name).put GAZ.CMD.OP op

theorem gazOp_served {s : State} (op name : Nat) (hs : s.served = true) (f : State → State) :
    gazOp s op name f = .next (f (s.gazShown op name)) := by
  rw [gazOp, hs, act_true]
  rfl

section
variable {s : State} (hs : s.served = true) (name : BitVec 43)
include hs

theorem exec_create_served (base : BitVec 31) : exec (.create name base) s
    = .next (((s.gazShown 1 name.toNat).put GAZ.CMD_ARG.BASE base.toNat).gazCreate name.toNat) := by
  show execCreate name base s = _
  rw [execCreate, gazOp_served _ _ hs]

theorem exec_destroy_served : exec (.destroy name) s = .next ((s.gazShown 2 name.toNat).gazDestroy name.toNat) := by
  show execDestroy name s = _
  rw [execDestroy, gazOp_served _ _ hs]

theorem exec_pin_served : exec (.pin name) s = .next ((s.gazShown 3 name.toNat).gazPin name.toNat true) := by
  show execPin name s = _
  rw [execPin, gazOp_served _ _ hs]

theorem exec_unpin_served : exec (.unpin name) s = .next ((s.gazShown 4 name.toNat).gazPin name.toNat false) := by
  show execUnpin name s = _
  rw [execUnpin, gazOp_served _ _ hs]

theorem exec_restore_served (base : BitVec 31) (ep : BitVec 16) (md : BitVec 12) : exec (.restore name base ep md) s
    = .next (((((s.gazShown 5 name.toNat).put GAZ.CMD_ARG.BASE base.toNat).put GAZ.CMD_ARG.EPOCH ep.toNat).put GAZ.CMD_ARG.MODULE
        md.toNat).gazRestore name.toNat base.toNat ep.toNat md.toNat) := by
  show execRestore name base ep md s = _
  rw [execRestore, gazOp_served _ _ hs]

theorem exec_resolveKeep_served : exec (.resolveKeep name) s = .next ((s.gazShown 6 name.toNat).gazKeep name.toNat) := by
  show execResolveKeep name s = _
  rw [execResolveKeep, gazOp_served _ _ hs]

theorem exec_resolveGone_served : exec (.resolveGone name) s = .next ((s.gazShown 7 name.toNat).gazGone name.toNat) := by
  show execResolveGone name s = _
  rw [execResolveGone, gazOp_served _ _ hs]

theorem exec_lookup_served : exec (.lookup name) s = .next ((s.gazShown 10 name.toNat).gazLookup name.toNat) := by
  show execLookup name s = _
  rw [execLookup, gazOp_served _ _ hs]

theorem exec_markLost_served : exec (.markLost name) s = .next ((s.gazShown 11 name.toNat).gazMarkLost name.toNat) := by
  show execMarkLost name s = _
  rw [execMarkLost, gazOp_served _ _ hs]

end

/-! ### The operations on a known name (R224, R246, R247, R252, R257) -/

section
variable {x : State} {name : Nat} {e : GazEntry} (hgaz : x.gazAt name = some e)
include hgaz

theorem gazCreate_known : x.gazCreate name = x.gazEnd 1 := by
  rw [State.gazCreate, hgaz]
  rfl

/-- A quiet parcel at its origin goes, and its slot is free. -/
theorem gazDestroy_quiet (hst : e.st = .home) (hticket : e.ticket = none) (horigin : e.origin = true) :
    x.gazDestroy name = ((x.releaseSlot e.base).freeGaz name).gazEnd 0 := by
  simp only [State.gazDestroy, hgaz, hst, hticket, horigin, and_self, if_true]

theorem gazPin_home (hst : e.st = .home) (v : Bool) : x.gazPin name v = (x.modGaz name (fun e => { e with pinned := v })).gazEnd 0 := by
  simp only [State.gazPin, hgaz, hst, true_or, if_true]

theorem gazMarkLost_quiet (hst : e.st = .home) (hticket : e.ticket = none) :
    x.gazMarkLost name = (x.modGaz name (fun e => { e with st := .lost })).gazEnd 0 := by
  simp only [State.gazMarkLost, hgaz, hst, hticket, and_self, if_true]

theorem gazLookup_known : x.gazLookup name = ((((x.put GAZ.CMD.STATE (gazCode e.st)).put GAZ.CMD_ARG.BASE e.base).put GAZ.CMD_ARG.EPOCH
    e.epoch).put GAZ.CMD_ARG.MODULE e.module).gazEnd 0 := by
  simp only [State.gazLookup, hgaz]

/-- A parcel in doubt with no ticket at hand is kept: home here, and its origin is told. -/
theorem gazKeep_inDoubt (hst : e.st = .inDoubt) (hout : x.outOf name = none) (hin : x.inOf name = none) {v : State}
    (hv : v = x.modGaz name (fun e => { e with st := .home, module := 0 })) :
    ∃ g, v.gazAt name = some g ∧ x.gazKeep name = (v.pointerUpdate g x.selfModule x.selfModule).gazEnd 0 := by
  subst hv
  have hknown : (x.gazAt name).isSome = true := hgaz ▸ rfl
  obtain ⟨g, hg⟩ := Option.isSome_iff_exists.mp (gazAt_modGaz_isSome (f := fun e => { e with st := .home, module := 0 }) (fun _ => rfl) hknown)
  refine ⟨g, hg, ?_⟩
  simp only [State.gazKeep, hgaz, hst, hout, hin, hg, ne_eq, not_true_eq_false, if_false]

/-- A parcel in doubt at its source is given up: its ticket settles. -/
theorem gazGone_source {o : OutTicket} (hst : e.st = .inDoubt) (hout : x.outOf name = some o) :
    x.gazGone name = (x.settle o).gazEnd 0 := by
  simp only [State.gazGone, hgaz, hst, hout, ne_eq, not_true_eq_false, if_false]

/-- A parcel that is not in doubt is not resolved. -/
theorem gazResolve_settled (hst : e.st ≠ .inDoubt) : x.gazKeep name = x.gazEnd 4 ∧ x.gazGone name = x.gazEnd 4 := by
  simp only [State.gazKeep, State.gazGone, hgaz, hst, ne_eq, not_false_eq_true, if_true, and_self]

end

/-! ### The operations on an unknown name (R224, R226, R252, R257) -/

section
variable {x : State} {name : Nat} (hgaz : x.gazAt name = none)
include hgaz

theorem gazCreate_elsewhere (horigin : x.isOrigin name = false) : x.gazCreate name = x.gazEnd 7 := by
  rw [State.gazCreate, hgaz, horigin]
  rfl

theorem gazCreate_unbacked (horigin : x.isOrigin name = true) (hslot : x.slotBacked (name % 2 ^ 31) = false) :
    x.gazCreate name = x.gazEnd 5 := by
  rw [State.gazCreate, hgaz, horigin, hslot]
  rfl

theorem gazCreate_added {u : State} (horigin : x.isOrigin name = true) (hslot : x.slotBacked (name % 2 ^ 31) = true)
    (hadd : x.addGaz { name := name, st := .home, origin := true, base := name % 2 ^ 31, stored := true, time := x.time } = some u) :
    x.gazCreate name = u.gazEnd 0 := by
  simp only [State.gazCreate, hgaz, horigin, hslot, hadd, Option.isSome_none, Bool.not_true, Bool.false_eq_true, if_false]

/-- An entry of another module is restored as FORWARD to it. -/
theorem gazRestore_away {u : State} {epoch module : Nat} (base : Nat) (haway : module ≠ x.selfModule)
    (hadd : x.addGaz { name := name, st := .forward, origin := x.isOrigin name, epoch := epoch, module := module, base := 0, stored := false,
                       time := x.time } = some u) : x.gazRestore name base epoch module = u.gazEnd 0 := by
  simp only [State.gazRestore, hgaz, beq_eq_false_iff_ne.mpr haway, hadd, Option.isSome_none, Bool.false_and, Bool.false_eq_true, if_false]

theorem gazDestroy_unknown : x.gazDestroy name = x.gazEnd 2 := by
  simp only [State.gazDestroy, hgaz]

theorem gazLookup_unknown : x.gazLookup name = (x.put GAZ.CMD.STATE 0).gazEnd 2 := by
  simp only [State.gazLookup, hgaz]

end

/-! ### Host slots (R243) -/

section
variable {x u : State} {n : PartIx} {t base : Nat}

theorem gazPush_room (ht : t ≠ 3) (hbacked : x.slotBacked base = true) (hplace : slotPlace base = some (t, n))
    (hpush : x.pushHost n t base = some u) : x.gazPush n t base = u.gazEnd 0 := by
  simp only [State.gazPush, ht, hbacked, hplace, hpush, beq_self_eq_true, Bool.and_self, Bool.not_true, Bool.false_eq_true, if_false]

theorem gazPop_top (ht : t ≠ 3) (hpop : x.popHost n t = some (base, u)) : x.gazPop n t = (u.put GAZ.CMD_ARG.BASE base).gazEnd 0 := by
  simp only [State.gazPop, ht, hpop, if_false]

theorem gazPop_tier3 : x.gazPop n 3 = x.gazEnd 7 := if_pos rfl

end

/-! ### Ageing (R226, R247) -/

section
variable {s : State} {name : BitVec 43} {e : GazEntry} (hlive : s.live = true) (hgaz : s.gazAt name.toNat = some e)
include hlive hgaz

theorem exec_forwardLifetimeExpiry_due (hfree : freeable e = true)
    (hdue : e.time + 800000 * clamp 1 65535 (s.inForce GAZ.CFG.FWD_MS) ≤ s.time) :
    exec (.forwardLifetimeExpiry name) s = .next (s.freeGaz name.toNat) := by
  show execForwardLifetimeExpiry name s = _
  simp only [execForwardLifetimeExpiry, hgaz, hlive, hfree, hdue, decide_true, Bool.and_self, act_true]

theorem exec_promotionHoldExpiry_due (hhold : e.hold.isSome = true)
    (hdue : e.time + 800 * clamp 1 255 (s.inForce GAZ.CFG.PROMO_HOLD_US) ≤ s.time) :
    exec (.promotionHoldExpiry name) s = .next (s.modGaz name.toNat (fun e => { e with hold := none })) := by
  show execPromotionHoldExpiry name s = _
  simp only [execPromotionHoldExpiry, hgaz, hlive, hhold, hdue, decide_true, Bool.and_self, act_true]

end

end Sys2Proof.Machine

namespace Sys2Proof.Proofs

open Sys2Proof.Machine

/-- Settles O50: each operation runs on the state that shows it, and ends by what the gazetteer holds of the name. -/
theorem gazetteerOperations : Obligations.GazetteerOperations := by
  intro s name base ep md n t shown hs hshown
  obtain rfl : shown = fun op => s.gazShown op name.toNat := funext hshown
  refine ⟨exec_openChart_served hs, exec_hintFlush_served hs, fun e hgaz => ?_, fun hgaz => ?_, fun u x hx ht hbacked hplace hpush => ?_,
    fun b u x hx ht hpop => ?_, ?_⟩
  · have hknown (op : Nat) : (s.gazShown op name.toNat).gazAt name.toNat = some e := hgaz
    refine ⟨?_, fun hst hticket horigin => ?_, fun hst => ⟨?_, ?_⟩, fun hst hticket => ?_, ?_, fun hst hout hin => ?_, fun o hst hout => ?_,
      fun hst => ⟨?_, ?_⟩, exec_forwardLifetimeExpiry_due (live_of_served hs) hgaz, exec_promotionHoldExpiry_due (live_of_served hs) hgaz⟩
    · rw [exec_create_served hs, gazCreate_known (x := (s.gazShown 1 name.toNat).put GAZ.CMD_ARG.BASE base.toNat) hgaz]
    · rw [exec_destroy_served hs, gazDestroy_quiet (hknown 2) hst hticket horigin]
    · rw [exec_pin_served hs, gazPin_home (hknown 3) hst]
    · rw [exec_unpin_served hs, gazPin_home (hknown 4) hst]
    · rw [exec_markLost_served hs, gazMarkLost_quiet (hknown 11) hst hticket]
    · rw [exec_lookup_served hs, gazLookup_known (hknown 10)]
    · obtain ⟨g, hg, hkeep⟩ := gazKeep_inDoubt (hknown 6) hst hout hin rfl
      exact ⟨_, exec_resolveKeep_served hs name, _, g, rfl, hg, hkeep⟩
    · rw [exec_resolveGone_served hs, gazGone_source (hknown 7) hst hout]
    · rw [exec_resolveKeep_served hs, (gazResolve_settled (hknown 6) hst).1]
    · rw [exec_resolveGone_served hs, (gazResolve_settled (hknown 7) hst).2]
  · have hunknown (op : Nat) : (s.gazShown op name.toNat).gazAt name.toNat = none := hgaz
    refine ⟨fun u x hx => ?_, fun u x hx haway hadd => ?_, ?_, ?_⟩
    · have hnone : x.gazAt name.toNat = none := hx ▸ hgaz
      have hnow : x.time = s.time := hx ▸ rfl
      have hcreate : exec (.create name base) s = .next (x.gazCreate name.toNat) := hx ▸ exec_create_served hs name base
      rw [hcreate, ← hnow]
      exact ⟨fun horigin => congrArg _ (gazCreate_elsewhere hnone horigin),
        fun horigin hslot => congrArg _ (gazCreate_unbacked hnone horigin hslot),
        fun horigin hslot hadd => congrArg _ (gazCreate_added hnone horigin hslot hadd)⟩
    · have hnone : x.gazAt name.toNat = none := hx ▸ hgaz
      have hnow : x.time = s.time := hx ▸ rfl
      have hrestore : exec (.restore name base ep md) s = .next (x.gazRestore name.toNat base.toNat ep.toNat md.toNat) :=
        hx ▸ exec_restore_served hs name base ep md
      rw [hrestore, gazRestore_away hnone base.toNat haway (hnow ▸ hadd)]
    · rw [exec_destroy_served hs, gazDestroy_unknown (hunknown 2)]
    · rw [exec_lookup_served hs, gazLookup_unknown (hunknown 10)]
  · subst hx
    exact (exec_pushSlot_served hs n t base).trans (congrArg _ (gazPush_room ht hbacked hplace hpush))
  · subst hx
    exact (exec_popSlot_served hs n t).trans (congrArg _ (gazPop_top ht hpop))
  · exact (exec_popSlot_served hs n 3).trans (congrArg _ gazPop_tier3)

end Sys2Proof.Proofs

end

section
/-! PROOF. Frames and lanes of a port that is UP: what becomes of a frame received (R264 to R267, R272), replay (R267), sparing (R273, R274), the
threshold window (R272, R275) and the loss of signal (R271, R272). -/

namespace Sys2Proof.Machine

theorem live_of_linkUp {s : State} {l : LinkIx} (h : s.linkUp l = true) : s.live = true := (Bool.and_eq_true_iff.mp h).1

theorem linkState_of_linkUp {s : State} {l : LinkIx} (h : s.linkUp l = true) : s.get (linkState l) = 2 :=
  eq_of_beq (Bool.and_eq_true_iff.mp h).2

theorem State.link_modLink_same (s : State) (l : LinkIx) (f : LinkSt → LinkSt) : (s.modLink l f).link l = f (s.link l) :=
  Vector.getElem_set_self l.isLt

theorem State.get_modLink (s : State) (l : LinkIx) (f : LinkSt → LinkSt) (g : Field) : (s.modLink l f).get g = s.get g := rfl

/-! ### A frame received (R264 to R267, R272) -/

/-- What a port makes of a frame's codewords, once their corrected symbols are counted and it is still UP. -/
def State.framed (s : State) (l : LinkIx) : Rx → State
  | .nothing => s
  | .ucw n => (s.tally (linkUcw l) 1).badFrame l n
  | .crc => (s.tally (linkCrc l) 1).badFrame l 1
  | .frame seq replay body => s.goodFrame l seq replay body

section
variable {s u : State} {l : LinkIx} {f : RxFrame} {x : Rx}

theorem exec_frameReceive_up (hup : s.linkUp l = true) (hx : rxFrame (s.link l).lanes f.words = x)
    (hu : u = s.laneErrors l (rxErrors (s.link l).lanes (s.link l).spare (s.shadowed l x) f.words)) :
    exec (.frameReceive l f) s = .next (if u.linkUp l then u.framed l x else u) := by
  show execFrameReceive l f s = _
  simp only [execFrameReceive, hup, if_true, hx, ← hu]
  cases hstill : u.linkUp l
  · rfl
  · cases x <;> rfl

end

/-! #### A frame whose CRC matches (R267) -/

section
variable {u : State} {l : LinkIx} {seq : Nat} {replay : Bool} {body : List Byte}

section
variable (hnext : seq = ((u.link l).ackRx + 1) % 4096)
include hnext

theorem goodFrame_taken (h : (u.link l).awaiting = false ∨ replay = true) : u.goodFrame l seq replay body
    = ((u.modLink l (fun k => { k with ackRx := seq, awaiting := false, news := true })).takeBody l body).control l (ctrlOf (isFrl l) body) := by
  have htaken : ¬ ((u.link l).awaiting && !replay) = true := by
    rcases h with h | h <;> simp only [h, Bool.false_and, Bool.not_true, Bool.and_false, Bool.false_eq_true, not_false_eq_true]
  rw [State.goodFrame, if_pos hnext, if_neg htaken]

theorem goodFrame_unreplayed (hawait : (u.link l).awaiting = true) (hreplay : replay = false) : u.goodFrame l seq replay body = u := by
  rw [State.goodFrame, if_pos hnext, hawait, hreplay]
  rfl

end

section
variable (hother : seq ≠ ((u.link l).ackRx + 1) % 4096)
include hother

theorem goodFrame_duplicate (h : seqBehind (u.link l).ackRx seq < 2048) : u.goodFrame l seq replay body = u := by
  rw [State.goodFrame, if_neg hother, if_pos h]

theorem goodFrame_gap (h : 2048 ≤ seqBehind (u.link l).ackRx seq) :
    u.goodFrame l seq replay body = u.modLink l (fun k => { k with awaiting := true }) := by
  rw [State.goodFrame, if_neg hother, if_neg (Nat.not_lt.mpr h)]

end

end

section
variable {s : State} {l : LinkIx} (hup : s.linkUp l = true)
include hup

/-! ### Replay (R267) -/

theorem exec_replayTimeout_due (hbuf : (s.link l).buf ≠ [])
    (hdue : (s.link l).lastAck + 800 * max 1 (s.inForce GRT.CFG2.REPLAY_TIMEOUT_US) ≤ s.time) :
    exec (.replayTimeout l) s = .next (s.replayLink l) := by
  have hout : (s.link l).buf.isEmpty = false := List.isEmpty_eq_false_iff.mpr hbuf
  show execReplayTimeout l s = _
  simp only [execReplayTimeout, live_of_linkUp hup, linkState_of_linkUp hup, hout, hdue, beq_self_eq_true, Bool.not_false, decide_true,
    Bool.and_self, act_true]

omit hup in
/-- With no frame outstanding there is nothing to replay, whatever the state of the port. -/
theorem exec_replayTimeout_idle (hbuf : (s.link l).buf = []) : exec (.replayTimeout l) s = .next s := by
  show execReplayTimeout l s = _
  simp only [execReplayTimeout, hbuf, List.isEmpty_nil, Bool.not_true, Bool.and_false, Bool.false_and, act_false]

/-! ### Lane operations (R271, R273, R274) -/

theorem exec_spareReq_up (lane : BitVec 4) : exec (.spareReq l lane) s = .next (s.spareAsked l lane.toNat) := by
  show act s (s.linkUp l) _ = _
  rw [hup, act_true]

theorem exec_spareDone_up (lane : BitVec 4) : exec (.spareDone l lane) s = .next (s.spareEnded l lane.toNat) := by
  show act s (s.linkUp l) _ = _
  rw [hup, act_true]

theorem exec_halfReq_up : exec (.halfReq l) s = .next (s.leaveUp l) := by
  show act s (s.linkUp l) _ = _
  rw [hup, act_true]
  rfl

/-- The receiver reads the logical lane from the spare, and the next control word says SPARE_DONE (R273). -/
def State.spareOver (s : State) (l : LinkIx) (p : Sparing) : State :=
  (s.modLink l (fun k => { k with lanes := k.lanes.set p.logical (k.spare.getD 8), spareUsed := true, sparing := none, heldLanes := [],
                                  laneOp := .spareDone, laneArg := p.logical })).tell l

section
variable {p : Sparing} {t : Nat} (hsparing : (s.link l).sparing = some p) (hlock : p.lock = some t) (hdue : t ≤ s.time)
include hsparing hlock hdue

theorem exec_spareSwitch_alone (hheld : (s.link l).heldLanes = []) : exec (.spareSwitch l) s = .next (s.spareOver l p) := by
  show execSpareSwitch l s = _
  simp only [execSpareSwitch, hsparing, hlock, hup, hdue, hheld, decide_true, Bool.and_self, if_true]
  rfl

/-- The word SPARE_DONE goes before the lanes held back, where the replay buffer has room for its frame. -/
theorem exec_spareSwitch_held {h : Nat × Nat} {r : List (Nat × Nat)} (hheld : (s.link l).heldLanes = h :: r) :
    exec (.spareSwitch l) s = .next ((if ((s.spareOver l p).link l).buf.length < 512 then (s.spareOver l p).closeFrame l
      else s.spareOver l p).halfWidth l (h :: r)) := by
  show execSpareSwitch l s = _
  simp only [execSpareSwitch, hsparing, hlock, hup, hdue, hheld, decide_true, Bool.and_self, if_true]
  rfl

end

theorem exec_shadowRotation_due (hspare : (s.link l).txSpare.isSome = true) (hfree : (s.link l).shadowHeld = false)
    (hms : s.inForce GRT.CFG3.SHADOW_MS ≠ 0) (hdue : (s.link l).rotateAt ≤ s.time) :
    exec (.shadowRotation l) s = .next (s.modLink l (fun k =>
      { k with shadowTx := if k.shadowTx < 7 then k.shadowTx + 1 else 0, rotateAt := s.time + 800000 * s.inForce GRT.CFG3.SHADOW_MS,
               news := true })) := by
  show execShadowRotation l s = _
  simp only [execShadowRotation, hup, hspare, hfree, bne_iff_ne.mpr hms, hdue, Bool.not_false, decide_true, Bool.and_self, act_true]

omit hup in
theorem exec_shadowRotation_unspared (hspare : (s.link l).txSpare = none) : exec (.shadowRotation l) s = .next s := by
  show execShadowRotation l s = _
  simp only [execShadowRotation, hspare, Option.isSome_none, Bool.and_false, Bool.false_and, act_false]

/-! ### The threshold window (R272, R275) -/

/-- GRT.LANE_CE_p or FRL.LANE_CE shows the corrected symbols of each lane. -/
def State.ceShown (s : State) (l : LinkIx) : State :=
  ((s.put (linkCe l 0) (ceWord (s.link l).laneErr 0)).put (linkCe l 1) (ceWord (s.link l).laneErr 1)).put (linkCe l 2)
    (ceWord (s.link l).laneErr 2)

/-- The counts of a link start again for the next window, of some microseconds. -/
def LinkSt.nextWindow (k : LinkSt) (us : Nat) : LinkSt :=
  { k with laneErr := List.replicate 9 0, badFrames := 0, ucwOver := false, windowEnd := k.windowEnd + 800 * us }

theorem exec_thresholdWindowEnd_due (hdue : (s.link l).windowEnd ≤ s.time) :
    exec (.thresholdWindowEnd l) s = .next ((s.ceShown l).modLink l (fun k => k.nextWindow (max 1 (s.inForce GRT.CFG.WINDOW_US)))) := by
  show execThresholdWindowEnd l s = _
  rw [execThresholdWindowEnd, hup, decide_eq_true hdue]
  exact act_true s _

omit hup

theorem linkCe_width (l : LinkIx) : (linkCe l 0).width = 64 := by
  unfold linkCe
  split <;> rfl

theorem linkCe_keys (l : LinkIx) : (linkCe l 0).key ≠ (linkCe l 1).key ∧ (linkCe l 0).key ≠ (linkCe l 2).key := by
  simp only [linkCe, if_true, one_ne_zero, OfNat.ofNat_ne_zero, OfNat.ofNat_ne_one, if_false]
  split <;> simp only [Field.key] <;> omega

/-- Digits of 16 bits, the lowest first. -/
theorem digits16_lt {d : Nat → Nat} (hd : ∀ j, d j < 2 ^ 16) (k : Nat) :
    (List.range k).foldl (fun w j => w + d j * 2 ^ (16 * j)) 0 < 2 ^ (16 * k) := by
  induction k with
  | zero => exact Nat.one_pos
  | succ k ih =>
    rw [List.range_succ, List.foldl_concat]
    calc _ < 2 ^ (16 * k) + d k * 2 ^ (16 * k) := Nat.add_lt_add_right ih _
      _ = (d k + 1) * 2 ^ (16 * k) := by ring
      _ ≤ 2 ^ 16 * 2 ^ (16 * k) := Nat.mul_le_mul_right _ (hd k)
      _ = 2 ^ (16 * (k + 1)) := by ring

theorem ceWord_lt (errs : List Nat) (i : Nat) : ceWord errs i < 2 ^ 64 := by
  rw [ceWord]
  exact digits16_lt (fun j => Nat.lt_of_le_of_lt (Nat.min_le_left 65535 _) (by decide)) 4

theorem ceShown_get : (s.ceShown l).get (linkCe l 0) = ceWord (s.link l).laneErr 0 := by
  obtain ⟨h1, h2⟩ := linkCe_keys l
  rw [State.ceShown, State.get_put_other _ _ _ _ h2, State.get_put_other _ _ _ _ h1, State.get_put_same, linkCe_width,
    Nat.mod_eq_of_lt (ceWord_lt _ _)]

theorem ceShown_fields : sameFieldsBut [linkCe l 0, linkCe l 1, linkCe l 2] s (s.ceShown l) := by
  intro f hf
  simp only [List.map_cons, List.map_nil, List.mem_cons, List.not_mem_nil, or_false, not_or] at hf
  obtain ⟨h0, h1, h2⟩ := hf
  rw [State.ceShown, State.get_put_other _ _ _ _ h2, State.get_put_other _ _ _ _ h1, State.get_put_other _ _ _ _ h0]

end

/-! ### Loss of signal (R271, R272) -/

/-- The lanes that a loss of signal names. -/
def lostLanes (m : BitVec 9) : List Nat := (List.range 9).filter (fun i => bit m.toNat i)

theorem mem_lostLanes {m : BitVec 9} (i : Fin 9) : i.val ∈ lostLanes m ↔ bit m.toNat i.val = true := by
  rw [lostLanes, List.mem_filter, List.mem_range]
  exact and_iff_right i.isLt

theorem lostLanes_single {m : BitVec 9} {i : Fin 9} (h : ∀ j : Fin 9, bit m.toNat j.val = true ↔ j = i) : lostLanes m = [i.val] := by
  have hbit : ∀ j ∈ List.range 9, bit m.toNat j = (j == i.val) := fun j hj =>
    Bool.eq_iff_iff.mpr ((h ⟨j, List.mem_range.mp hj⟩).trans (Fin.ext_iff.trans beq_iff_eq.symm))
  rw [lostLanes, List.filter_congr hbit, List.filter_beq, List.count_eq_one_of_mem List.nodup_range (List.mem_range.mpr i.isLt)]
  rfl

section
variable {s : State} {l : LinkIx} (hup : s.linkUp l = true) {m : BitVec 9}
include hup

theorem exec_lossOfSignal_none (h : lostLanes m = []) : exec (.lossOfSignal l m) s = .next s := by
  show execLossOfSignal l m s = _
  rw [lostLanes] at h
  simp only [execLossOfSignal, hup, h, if_true]

theorem exec_lossOfSignal_single {i : Nat} (h : lostLanes m = [i]) : exec (.lossOfSignal l m) s = .next (s.retire l i 2) := by
  show execLossOfSignal l m s = _
  rw [lostLanes] at h
  simp only [execLossOfSignal, hup, h, if_true]

theorem exec_lossOfSignal_several {i j : Nat} (hi : i ∈ lostLanes m) (hj : j ∈ lostLanes m) (hne : i ≠ j) :
    exec (.lossOfSignal l m) s = .next ((s.linkRecord l 0x30 16).leaveUp l) := by
  show execLossOfSignal l m s = _
  rw [execLossOfSignal, if_pos hup]
  match hlost : lostLanes m, hi, hj with
  | [a], hi, hj => exact absurd ((List.mem_singleton.mp hi).trans (List.mem_singleton.mp hj).symm) hne
  | a :: b :: r, _, _ =>
    rw [lostLanes] at hlost
    simp only [hlost]

end

end Sys2Proof.Machine

namespace Sys2Proof.Proofs

open Sys2Proof.Machine

/-- Settles O51: a frame by what its codewords make and by its SEQ, then each event of the lanes of a port that is UP. -/
theorem linkFrames : Obligations.LinkFrames := by
  intro s l hup
  refine ⟨fun f u x hx hu => ?_, fun x r hbuf => exec_replayTimeout_due hup (hbuf ▸ List.cons_ne_nil x r), exec_replayTimeout_idle,
    fun lane => ⟨exec_spareReq_up hup lane, exec_spareDone_up hup lane⟩, exec_halfReq_up hup,
    fun p t v hsparing hlock hdue hv => ?_, exec_shadowRotation_due hup, exec_shadowRotation_unspared, fun hdue => ?_,
    fun m i hone => exec_lossOfSignal_single hup (lostLanes_single hone),
    fun m i j hne hi hj => exec_lossOfSignal_several hup ((mem_lostLanes i).mpr hi) ((mem_lostLanes j).mpr hj) (Fin.val_ne_of_ne hne),
    exec_lossOfSignal_none hup rfl⟩
  · have hframe := exec_frameReceive_up hup hx hu
    refine ⟨fun hleft => ?_, fun hstill => ?_⟩
    · rw [hframe, hleft, if_neg Bool.false_ne_true]
    · rw [if_pos hstill] at hframe
      rw [hframe]
      refine ⟨?_, ?_, ?_, ?_⟩
      · rintro rfl
        rfl
      · rintro n rfl
        rfl
      · rintro rfl
        rfl
      · rintro seq replay body rfl
        exact ⟨fun hnext => ⟨fun h => congrArg _ (goodFrame_taken hnext h), fun h h' => congrArg _ (goodFrame_unreplayed hnext h h')⟩,
          fun hother => ⟨fun h => congrArg _ (goodFrame_duplicate hother h), fun h => congrArg _ (goodFrame_gap hother h)⟩⟩
  · obtain rfl : v = s.spareOver l p := hv
    refine ⟨exec_spareSwitch_alone hup hsparing hlock hdue, fun h r hheld => ?_⟩
    have hswitch := exec_spareSwitch_held hup hsparing hlock hdue hheld
    refine ⟨fun hroom => ?_, fun hfull => ?_⟩
    · rw [hswitch, if_pos hroom]
    · rw [hswitch, if_neg (Nat.not_lt.mpr hfull)]
  · have hlink := State.link_modLink_same (s.ceShown l) l (fun k => k.nextWindow (max 1 (s.inForce GRT.CFG.WINDOW_US)))
    exact ⟨_, exec_thresholdWindowEnd_due hup hdue, congrArg LinkSt.laneErr hlink, congrArg LinkSt.badFrames hlink,
      congrArg LinkSt.windowEnd hlink, (State.get_modLink _ l _ _).trans ceShown_get,
      fun f hf => (State.get_modLink _ l _ f).trans (ceShown_fields f hf), rfl, rfl⟩

end Sys2Proof.Proofs

end

section
/-! PROOF. Training of a port (R269 to R271, R276): identity words, its end, a failed step and the backoff; and what waits at the port and what
software asks of it (R263, R271, R274). -/

namespace Sys2Proof.Machine

section
variable {s : State} {l : LinkIx} (hlive : s.live = true)
include hlive

/-! ### Identity words (R269, R271) -/

theorem exec_identityWord_training (w : Identity) (h : s.get (linkState l) = 1) : exec (.identityWord l w) s = .next (s.identify l w) := by
  show execIdentityWord l w s = _
  rw [execIdentityWord, hlive, h]
  rfl

theorem exec_identityWord_up (w : Identity) (h : s.get (linkState l) = 2) :
    exec (.identityWord l w) s = .next ((s.leaveUp l).identify l w) := by
  show execIdentityWord l w s = _
  rw [execIdentityWord, hlive, h]
  rfl

omit hlive in
theorem exec_identityWord_other (w : Identity) (h1 : s.get (linkState l) ≠ 1) (h2 : s.get (linkState l) ≠ 2) :
    exec (.identityWord l w) s = .next s := by
  show execIdentityWord l w s = _
  simp only [execIdentityWord, beq_false_of_ne h1, beq_false_of_ne h2, Bool.or_self, Bool.and_false, Bool.false_eq_true, if_false]

omit hlive in
/-- An identity word that does not agree shows its sender, and makes a Graticule port MISWIRED. -/
theorem identify_miswired {w : Identity} (hport : isFrl l = false) (hbad : (s.sendIdent l).identOk l w = false) : s.identify l w
    = (((((s.sendIdent l).put (GRT.PSTATE_p.PEER_MODULE (toPort l.val)) w.module.toNat).put (GRT.PSTATE_p.PEER_PORT (toPort l.val))
        w.port.toNat)).linkRecord l 0x33 (16 * w.module.toNat + 65536 * w.port.toNat)).linkTo l 3 := by
  simp only [State.identify, hbad, hport, Bool.not_false, if_true, Bool.false_eq_true, if_false]

/-! ### The end of a training (R269 to R271) -/

theorem exec_trainingComplete_identified {d : Trained} {warm : Bool} {m x : List Nat × Option Nat × Bool}
    (h : s.get (linkState d.link) = 1) (hident : (s.link d.link).ident = some warm)
    (hm : laneMap ((s.prbs d.link d.errs).get (linkFailed d.link)) = some m) (hx : laneMap d.peer.toNat = some x) :
    exec (.trainingComplete d) s = .next ((s.prbs d.link d.errs).linkStart d.link m x warm) := by
  show execTrainingComplete d s = _
  simp only [execTrainingComplete, hident, hm, hx, hlive, h, beq_self_eq_true, Bool.and_self, act_true]

omit hlive in
theorem exec_trainingComplete_unidentified {d : Trained} (hident : (s.link d.link).ident = none) :
    exec (.trainingComplete d) s = .next s := by
  show execTrainingComplete d s = _
  simp only [execTrainingComplete, hident]

/-! ### A failed step, and the backoff (R269, R271, R276) -/

section
variable {how : TrainFail} {u v : State} (hu : u = if 5 ≤ how.step.val then s.prbs l how.errs else s)
  (hv : v = if 7 ≤ how.step.val then u.sendIdent l else u) (h : s.get (linkState l) = 1) (hstill : u.get (linkState l) = 1)
  (hulive : u.live = true)
include hu hv h hstill hulive

/-- A Graticule port whose attempts are used up is held. -/
theorem exec_trainingFailure_held (hport : isFrl l = false) (hused : u.retrainLimit ≤ (u.link l).k + 1) :
    exec (.trainingFailure l how) s = .next ((v.linkRecord l 0x34 0).linkTo l 4) := by
  show execTrainingFailure l how s = _
  simp only [execTrainingFailure, hlive, h, beq_self_eq_true, Bool.and_self, Bool.true_and, decide_eq_true_eq, ← hu, hulive, hstill, if_true,
    ← hv, hport, hused, Bool.not_false, decide_true]

/-- The backoff doubles with each attempt; the Ferrule port's attempts do not run out (R276). -/
theorem exec_trainingFailure_backoff {e : Nat} (hgrt : isFrl l = false → (u.link l).k + 1 < u.retrainLimit ∧ e = (u.link l).k)
    (hfrl : isFrl l = true → e = min (u.link l).k (u.retrainLimit - 1)) : exec (.trainingFailure l how) s
      = .next (((((v.linkRecord l 0x32 (16 * how.step.val + 256 * (u.link l).k)).modLink l (fun x =>
        { x with backoff := some (u.time + 8000000 * 2 ^ min e 10) })).setK l (min 254 ((u.link l).k + 1)))).linkTo l 0) := by
  show execTrainingFailure l how s = _
  simp only [execTrainingFailure, hlive, h, beq_self_eq_true, Bool.and_self, Bool.true_and, decide_eq_true_eq, ← hu, hulive, hstill, if_true,
    ← hv]
  cases hport : isFrl l with
  | true => rw [hfrl hport, Bool.not_true, Bool.false_and, if_neg Bool.false_ne_true, if_pos rfl]
  | false =>
    obtain ⟨hleft, rfl⟩ := hgrt hport
    rw [decide_eq_false (Nat.not_le.mpr hleft), Bool.and_false, if_neg Bool.false_ne_true, if_neg Bool.false_ne_true]

end

theorem exec_backoffEnd_due {t : Nat} (hback : (s.link l).backoff = some t) (hrel : (s.link l).released = true)
    (hdown : s.get (linkState l) = 0) (hdue : t ≤ s.time) : exec (.backoffEnd l) s = .next (s.train l) := by
  show execBackoffEnd l s = _
  simp only [execBackoffEnd, hback, hlive, hrel, hdown, hdue, beq_self_eq_true, decide_true, Bool.and_self, act_true]

omit hlive in
theorem exec_backoffEnd_early {t : Nat} (hback : (s.link l).backoff = some t) (hearly : s.time < t) : exec (.backoffEnd l) s = .next s := by
  show execBackoffEnd l s = _
  simp only [execBackoffEnd, hback, decide_eq_false (Nat.not_le.mpr hearly), Bool.and_false, act_false]

/-! ### The warm window (R263, R276) -/

theorem exec_warmWindowExpiry_closed (hport : isFrl l = false) (hdown : s.get (linkState l) ≠ 2) (hleft : (s.link l).leftUp.isSome = true)
    (hclosed : s.warmOpen l = false) : exec (.warmWindowExpiry l) s = .next (s.dropWaiting l) := by
  show execWarmWindowExpiry l s = _
  simp only [execWarmWindowExpiry, hlive, hport, bne_iff_ne.mpr hdown, hleft, hclosed, Bool.not_false, Bool.and_self, act_true]

omit hlive in
theorem exec_warmWindowExpiry_ferrule (hfrl : isFrl l = true) : exec (.warmWindowExpiry l) s = .next s := by
  show execWarmWindowExpiry l s = _
  simp only [execWarmWindowExpiry, hfrl, Bool.not_true, Bool.and_false, Bool.false_and, act_false]

end

/-! ### Port control (R271, R274) -/

section
variable {s : State} {l : LinkIx}

theorem exec_portDisable_settable (hset : s.settable = true) : exec (.portDisable l) s = .next (s.disablePort l) := by
  show act s s.settable _ = _
  rw [hset, act_true]

theorem exec_portEnable_settable (hset : s.settable = true) : exec (.portEnable l) s = .next (s.enablePort l) := by
  show act s s.settable _ = _
  rw [hset, act_true]

theorem exec_portRetrain_served (hs : s.served = true) : exec (.portRetrain l) s = .next (s.retrainPort l) := by
  show act s s.served _ = _
  rw [hs, act_true]

theorem exec_laneRetire_served (hs : s.served = true) (lane : BitVec 4) :
    exec (.laneRetire l lane) s = .next ((s.put (linkLane l) lane.toNat).retire l lane.toNat 3) := by
  show act s s.served _ = _
  rw [hs, act_true]

theorem retrainPort_unreleased (hrel : (s.link l).released = false) : s.retrainPort l = s := by
  rw [State.retrainPort, hrel]
  rfl

section
variable (hrel : (s.link l).released = true)
include hrel

theorem retrainPort_up (h : s.get (linkState l) = 2) : s.retrainPort l = s.leaveUp l := by
  rw [State.retrainPort, hrel, h]
  rfl

theorem retrainPort_down_or_training (h : s.get (linkState l) = 0 ∨ s.get (linkState l) = 1) : s.retrainPort l = s.train l := by
  rcases h with h | h <;> rw [State.retrainPort, hrel, h] <;> rfl

theorem retrainPort_miswired_or_held (h : s.get (linkState l) = 3 ∨ s.get (linkState l) = 4) : s.retrainPort l = (s.setK l 0).train l := by
  rcases h with h | h <;> rw [State.retrainPort, hrel, h] <;> rfl

end

end

end Sys2Proof.Machine

namespace Sys2Proof.Proofs

open Sys2Proof.Machine

/-- Settles O52: an identity word by the state of the port, the end of a training, a failed step by the attempts used, then the timers and what
software asks of the port. -/
theorem linkTraining : Obligations.LinkTraining := by
  intro s l hlive
  refine ⟨fun w => ⟨exec_identityWord_training hlive w, exec_identityWord_up hlive w, exec_identityWord_other w, fun h hport hbad => ?_⟩,
    ?_, ?_, fun how u v hu hv h hstill hulive => ⟨exec_trainingFailure_held hlive hu hv h hstill hulive,
      fun e => exec_trainingFailure_backoff hlive hu hv h hstill hulive⟩,
    fun t hback hrel hdown => ⟨exec_backoffEnd_due hlive hback hrel hdown, exec_backoffEnd_early hback⟩,
    fun hdown hleft hclosed => ⟨fun hport => exec_warmWindowExpiry_closed hlive hport hdown hleft hclosed, exec_warmWindowExpiry_ferrule⟩,
    fun hset => ⟨exec_portDisable_settable hset, exec_portEnable_settable hset⟩, fun hs => ?_⟩
  · rw [exec_identityWord_training hlive w h, identify_miswired hport hbad]
  · rintro d warm m x rfl
    exact exec_trainingComplete_identified hlive
  · rintro d rfl
    exact exec_trainingComplete_unidentified
  · rw [exec_portRetrain_served hs]
    exact ⟨fun hrel => congrArg _ (retrainPort_unreleased hrel), fun hrel h => congrArg _ (retrainPort_up hrel h),
      fun hrel h => congrArg _ (retrainPort_down_or_training hrel h), fun hrel h => congrArg _ (retrainPort_miswired_or_held hrel h),
      exec_laneRetire_served hs⟩

end Sys2Proof.Proofs

end

section
/-! PROOF. In-Band Interrupts (R372), the common command codes of the management bus (R371), and what the tray controller asks of the
module (R373, R374). -/

namespace Sys2Proof.Machine

/-! ### In-Band Interrupts (R372) -/

/-- A cause of an In-Band Interrupt is set and enabled. -/
def State.ibiWanted (s : State) : Bool :=
  (s.on MGT.IBI_CAUSE.HEALTH && s.on MGT.IBI_CFG.HEALTH) || (s.on MGT.IBI_CAUSE.ERROR && s.on MGT.IBI_CFG.ERROR)
    || (s.on MGT.IBI_CAUSE.TRAY && s.on MGT.IBI_CFG.TRAY) || (s.on MGT.IBI_CAUSE.THERMAL && s.on MGT.IBI_CFG.THERMAL)

/-- The state behind an In-Band Interrupt that carries IBI_CAUSE. -/
def State.ibiSend (s : State) : State :=
  { s with
    mgt := { s.mgt with ibiSent := true }
    i3cTx := s.i3cTx ++ [.ibi (BitVec.ofNat 8 (s.get MGT.IBI_CAUSE.HEALTH + 2 * s.get MGT.IBI_CAUSE.ERROR
      + 4 * s.get MGT.IBI_CAUSE.TRAY + 8 * s.get MGT.IBI_CAUSE.THERMAL))] }

section
variable {s : State}

theorem State.ibiTry_eq_ite (s : State) : s.ibiTry = if s.mgt.ibiOn && s.ibiWanted && !s.mgt.ibiSent then s.ibiSend else s := rfl

theorem State.ibiTry_sends (hon : s.mgt.ibiOn = true) (hsent : s.mgt.ibiSent = false) (hwant : s.ibiWanted = true) :
    s.ibiTry = s.ibiSend := by
  rw [State.ibiTry_eq_ite, hon, hsent, hwant]
  rfl

theorem State.ibiTry_off (hon : s.mgt.ibiOn = false) : s.ibiTry = s := by
  rw [State.ibiTry_eq_ite, hon]
  rfl

theorem State.ibiTry_sent (hsent : s.mgt.ibiSent = true) : s.ibiTry = s := by
  rw [State.ibiTry_eq_ite, hsent, Bool.not_true, Bool.and_false]
  rfl

theorem State.ibiTry_unwanted (hwant : s.ibiWanted = false) : s.ibiTry = s := by
  rw [State.ibiTry_eq_ite, hwant, Bool.and_false]
  rfl

/-- The registers, memory and the target's address stay when an interrupt is tried, and so does whether interrupts are enabled. -/
theorem State.ibiTry_frame (s : State) : s.ibiTry.mgt.ibiOn = s.mgt.ibiOn ∧ s.ibiTry.mgt.addr = s.mgt.addr ∧ s.ibiTry.regs = s.regs
    ∧ s.ibiTry.mem = s.mem ∧ s.ibiTry.synd = s.synd := by
  rw [State.ibiTry_eq_ite]
  split <;> exact ⟨rfl, rfl, rfl, rfl, rfl⟩

theorem State.ibiWanted_iff : s.ibiWanted = true ↔
    (s.on MGT.IBI_CAUSE.HEALTH = true ∧ s.on MGT.IBI_CFG.HEALTH = true)
      ∨ (s.on MGT.IBI_CAUSE.ERROR = true ∧ s.on MGT.IBI_CFG.ERROR = true)
      ∨ (s.on MGT.IBI_CAUSE.TRAY = true ∧ s.on MGT.IBI_CFG.TRAY = true)
      ∨ (s.on MGT.IBI_CAUSE.THERMAL = true ∧ s.on MGT.IBI_CFG.THERMAL = true) := by
  simp only [State.ibiWanted, Bool.or_eq_true, Bool.and_eq_true, or_assoc]

theorem State.ibiWanted_eq_false_iff : s.ibiWanted = false ↔
    (s.on MGT.IBI_CAUSE.HEALTH = false ∨ s.on MGT.IBI_CFG.HEALTH = false)
      ∧ (s.on MGT.IBI_CAUSE.ERROR = false ∨ s.on MGT.IBI_CFG.ERROR = false)
      ∧ (s.on MGT.IBI_CAUSE.TRAY = false ∨ s.on MGT.IBI_CFG.TRAY = false)
      ∧ (s.on MGT.IBI_CAUSE.THERMAL = false ∨ s.on MGT.IBI_CFG.THERMAL = false) := by
  simp only [State.ibiWanted, Bool.or_eq_false_iff, Bool.and_eq_false_iff, and_assoc]

/-- With every cause clear no interrupt is wanted. -/
theorem State.ibiAfter_clear (hh : s.on MGT.IBI_CAUSE.HEALTH = false) (he : s.on MGT.IBI_CAUSE.ERROR = false)
    (ht : s.on MGT.IBI_CAUSE.TRAY = false) (hth : s.on MGT.IBI_CAUSE.THERMAL = false) :
    s.ibiAfter = { s with mgt := { s.mgt with ibiSent := false } } := by
  have hnone : s.ibiAfter = State.ibiTry { s with mgt := { s.mgt with ibiSent := false } } := by
    rw [State.ibiAfter, hh, he, ht, hth]
    rfl
  exact hnone.trans (State.ibiTry_unwanted (State.ibiWanted_eq_false_iff.mpr ⟨.inl hh, .inl he, .inl ht, .inl hth⟩))

theorem State.ibiAfter_standing (h : s.on MGT.IBI_CAUSE.HEALTH = true ∨ s.on MGT.IBI_CAUSE.ERROR = true
    ∨ s.on MGT.IBI_CAUSE.TRAY = true ∨ s.on MGT.IBI_CAUSE.THERMAL = true) : s.ibiAfter = s.ibiTry := by
  have hstands : (s.on MGT.IBI_CAUSE.HEALTH || s.on MGT.IBI_CAUSE.ERROR || s.on MGT.IBI_CAUSE.TRAY || s.on MGT.IBI_CAUSE.THERMAL) = true := by
    simpa only [Bool.or_eq_true, or_assoc] using h
  rw [State.ibiAfter, hstands]
  rfl

end

/-! ### Common command codes (R371) -/

/-- The most significant byte first is the least significant first, turned round. -/
theorem toBE_eq_reverse (k v : Nat) : toBE k v = (toLE k v).reverse := by
  have hbyte : ∀ (k v i : Nat), i < k → (toLE k v)[i]? = some (BitVec.ofNat 8 (v / 256 ^ i)) := by
    intro k
    induction k with
    | zero => exact fun _ _ h => absurd h (Nat.not_lt_zero _)
    | succ k ih =>
      intro v i hi
      cases i with
      | zero => simp only [toLE, List.getElem?_cons_zero, Nat.pow_zero, Nat.div_one]
      | succ i => rw [toLE, List.getElem?_cons_succ, ih _ _ (Nat.lt_of_succ_lt_succ hi), Nat.div_div_eq_div_mul, Nat.pow_succ']
  refine List.ext_getElem? fun i => ?_
  by_cases hi : i < k
  · rw [List.getElem?_reverse ((length_toLE k v).symm ▸ hi), length_toLE, hbyte _ _ _ (by omega), toBE, List.getElem?_map,
      List.getElem?_range hi]
    rfl
  · rw [List.getElem?_eq_none (by rw [toBE, List.length_map, List.length_range]; omega),
      List.getElem?_eq_none (by rw [List.length_reverse, length_toLE]; omega)]

/-- A target (bits [7:6] 0) without HDR modes (bit 5), whose interrupts (bit 1) carry a byte (bit 2). -/
theorem i3cBcr_fixed : i3cBcr &&& 0xE6 = 6 := by
  rw [i3cBcr]
  generalize Config.i3cBcr = x
  revert x
  decide

section
variable {s : State} {k : Nat} (hp : s.power.phase = .up k) (hk : 3 ≤ k)
include hp hk

theorem act_mgmtUp_unaddressed (haddr : s.mgt.addr = none) (t : State) : act s (s.mgmtUp && s.mgt.addr.isNone) t = .next t := by
  rw [haddr, Option.isNone_none, Bool.and_true, act_mgmtUp hp hk]

theorem exec_entdaa_unaddressed (haddr : s.mgt.addr = none) (a : BitVec 7) : exec (.entdaa a) s = .next { s with
    i3cTx := s.i3cTx ++ [.data ((toLE 6 s.dieId).reverse ++ [i3cBcr, Config.i3cDcr])], mgt := { s.mgt with addr := some a } } := by
  rw [← toBE_eq_reverse]
  exact act_mgmtUp_unaddressed hp hk haddr _

theorem exec_enec_up : exec .enec s = .next (s.modMgt (fun m => { m with ibiOn := true })).ibiTry := act_mgmtUp hp hk _

theorem exec_getpid_up : exec .getpid s = .next { s with i3cTx := s.i3cTx ++ [.data (toLE 6 s.dieId).reverse] } := by
  rw [← toBE_eq_reverse]
  exact act_mgmtUp hp hk _

theorem exec_getbcr_up : exec .getbcr s = .next { s with i3cTx := s.i3cTx ++ [.data [i3cBcr]] } := act_mgmtUp hp hk _

end

/-! ### What the tray controller asks (R373, R374) -/

section
variable {s : State}

/-- No interrupt goes to a companion that is not attached (R290). -/
theorem sendIntr_detached (h : s.attached = false) (v : Nat) : s.sendIntr v = s := by
  rw [State.sendIntr, h]
  rfl

theorem attached_put_linkState (s : State) (l : LinkIx) (v : Nat) : (s.put (linkState l) v).attached = s.attached := by
  have hkey : FRL.STATUS.ATTACHED.key ≠ (linkState l).key := by
    unfold linkState
    split
    · decide
    · simp only [Field.key]
      omega
  rw [State.attached, State.on, State.get_put_other _ _ _ _ hkey]
  rfl

theorem linkTo_detached (h : s.attached = false) (l : LinkIx) (v : Nat) : s.linkTo l v = s.put (linkState l) v := by
  rw [State.linkTo]
  split
  · exact sendIntr_detached ((attached_put_linkState s l v).trans h) _
  · rfl

/-- A link that neither trains nor waits to. -/
def State.linkQuiet (s : State) (l : LinkIx) : Prop := (s.link l).released = false ∧ (s.link l).backoff = none

theorem State.link_modLink_other (s : State) {l m : LinkIx} (f : LinkSt → LinkSt) (h : m ≠ l) : (s.modLink l f).link m = s.link m :=
  Vector.getElem_set_ne l.isLt m.isLt fun e => h (Fin.ext e.symm)

/-- What a link that goes quiet while no companion is attached leaves of the module. -/
theorem quietLink_detached (h : s.attached = false) (l : LinkIx) :
    (s.quietLink l).attached = false ∧ (s.quietLink l).mgt = s.mgt ∧ (s.quietLink l).mem = s.mem ∧ (s.quietLink l).synd = s.synd
    ∧ (s.quietLink l).linkQuiet l ∧ ∀ m, s.linkQuiet m → (s.quietLink l).linkQuiet m := by
  unfold State.quietLink
  extract_lets up
  generalize hf : (fun k : LinkSt => { k with released := false, backoff := none, leftUp := if up then some s.time else k.leftUp }) = f
  have hquiet (k : LinkSt) : (f k).released = false ∧ (f k).backoff = none := by rw [← hf]; exact ⟨rfl, rfl⟩
  have hself : (s.modLink l f).linkQuiet l := by
    rw [State.linkQuiet, State.link_modLink_same]
    exact hquiet _
  rw [linkTo_detached (s := s.modLink l f) h]
  refine ⟨(attached_put_linkState _ l 0).trans h, rfl, rfl, rfl, hself, fun m hm => ?_⟩
  by_cases hlm : m = l
  · exact hlm ▸ hself
  · exact (congrArg (fun k : LinkSt => k.released = false ∧ k.backoff = none) (State.link_modLink_other s f hlm)).mpr hm

/-- So does a list of links that go quiet one by one. -/
theorem foldl_quietLink_detached (h : s.attached = false) (ls : List LinkIx) :
    (ls.foldl State.quietLink s).mgt = s.mgt ∧ (ls.foldl State.quietLink s).mem = s.mem ∧ (ls.foldl State.quietLink s).synd = s.synd
    ∧ ∀ m, m ∈ ls ∨ s.linkQuiet m → (ls.foldl State.quietLink s).linkQuiet m := by
  induction ls generalizing s with
  | nil => exact ⟨rfl, rfl, rfl, fun m hm => hm.resolve_left List.not_mem_nil⟩
  | cons l r ih =>
    obtain ⟨hatt, hmgt, hmem, hsynd, hself, hkept⟩ := quietLink_detached h l
    obtain ⟨imgt, imem, isynd, iquiet⟩ := ih hatt
    refine ⟨imgt.trans hmgt, imem.trans hmem, isynd.trans hsynd, fun m hm => iquiet m ?_⟩
    rcases hm with hm | hm
    · rcases List.mem_cons.mp hm with rfl | hm
      · exact .inr hself
      · exact .inl hm
    · exact .inr (hkept m hm)

theorem mem_allLinks (l : LinkIx) : l ∈ allLinks := by revert l; decide

theorem quiesce_detached (h : s.attached = false) : s.quiesce.on MGT.NOTICE.QUIESCED = true ∧ s.quiesce.mgt.notice = none
    ∧ s.quiesce.mem = s.mem ∧ s.quiesce.synd = s.synd ∧ ∀ l : LinkIx, s.quiesce.linkQuiet l := by
  obtain ⟨hmgt, hmem, hsynd, hquiet⟩ :=
    foldl_quietLink_detached (s := { s with mgt := { s.mgt with notice := none } }) h allLinks
  rw [State.quiesce]
  generalize allLinks.foldl State.quietLink { s with mgt := { s.mgt with notice := none } } = t at hmgt hmem hsynd hquiet
  refine ⟨?_, congrArg MgtSt.notice hmgt, hmem, hsynd, fun l => hquiet l (.inl (mem_allLinks l))⟩
  rw [State.on, State.get_put_same]
  rfl

/-- A code of TRAY_REQ: 3 is taken as 0. -/
def trayCode (v : Nat) : Nat := if v = 3 then 0 else v

theorem trayReq_eq (s : State) (v : Nat) : s.trayReq v
    = if s.get MGT.TRAY_REQ.CODE = 0 ∧ trayCode v ≠ 0 then (s.put MGT.TRAY_REQ.CODE (trayCode v)).ibiCause MGT.IBI_CAUSE.TRAY
      else s.put MGT.TRAY_REQ.CODE (trayCode v) := rfl

/-- A cause that is set stays set when its interrupt is tried. -/
theorem on_ibiCause (s : State) (f : Field) (hw : f.width = 1) : (s.ibiCause f).on f = true := by
  obtain ⟨-, -, hregs, -, -⟩ := (s.flag f 1).ibiTry_frame
  have hon := s.on_flag_one f hw
  rw [State.on, State.get] at hon ⊢
  rwa [State.ibiCause, hregs]

theorem trayReq_frame (s : State) {v : Nat} (hv : v < 4) : (s.trayReq v).get MGT.TRAY_REQ.CODE = trayCode v
    ∧ sameFieldsBut [MGT.TRAY_REQ.CODE, MGT.IBI_CAUSE.TRAY] s (s.trayReq v) ∧ (s.trayReq v).mem = s.mem ∧ (s.trayReq v).synd = s.synd := by
  have hcode : (s.put MGT.TRAY_REQ.CODE (trayCode v)).get MGT.TRAY_REQ.CODE = trayCode v := by
    refine (State.get_put_same _ _ _).trans (Nat.mod_eq_of_lt ?_)
    unfold trayCode
    split
    · decide
    · exact hv
  have hother (f : Field) (hf : f.key ≠ MGT.TRAY_REQ.CODE.key) : (s.put MGT.TRAY_REQ.CODE (trayCode v)).get f = s.get f :=
    State.get_put_other _ _ _ _ hf
  rw [trayReq_eq]
  split
  · obtain ⟨hget, -, -, hmem, hsynd⟩ := ibiCause_frame (s.put MGT.TRAY_REQ.CODE (trayCode v)) MGT.IBI_CAUSE.TRAY
    refine ⟨(hget _ (by decide)).trans hcode, fun f hf => ?_, hmem, hsynd⟩
    simp only [List.map_cons, List.map_nil, List.mem_cons, List.not_mem_nil, or_false, not_or] at hf
    exact (hget f hf.2).trans (hother f hf.1)
  · refine ⟨hcode, fun f hf => hother f fun hkey => hf ?_, rfl, rfl⟩
    rw [hkey]
    exact List.mem_cons_self

theorem trayReq_cause {v : Nat} (h0 : s.get MGT.TRAY_REQ.CODE = 0) (hv : v = 1 ∨ v = 2) : (s.trayReq v).on MGT.IBI_CAUSE.TRAY = true := by
  have hc : trayCode v ≠ 0 := by rcases hv with rfl | rfl <;> decide
  rw [trayReq_eq, if_pos ⟨h0, hc⟩]
  exact on_ibiCause _ _ rfl

end

end Sys2Proof.Machine

namespace Sys2Proof.Proofs

open Sys2Proof.Machine

/-- Settles O10: when an interrupt is tried, and what a write of the two registers leaves to try. -/
theorem inBandInterrupt : Obligations.InBandInterrupt := by
  intro s
  refine ⟨fun hon hsent hwant => State.ibiTry_sends hon hsent (State.ibiWanted_iff.mpr hwant), ?_,
    fun _ hh he ht hth => State.ibiAfter_clear hh he ht hth,
    fun h hsent => (State.ibiAfter_standing h).trans (State.ibiTry_sent hsent)⟩
  rintro (hon | hsent | hwant)
  · exact State.ibiTry_off hon
  · exact State.ibiTry_sent hsent
  · exact State.ibiTry_unwanted (State.ibiWanted_eq_false_iff.mpr hwant)

/-- Settles O8, code by code. -/
theorem managementCodes : Obligations.ManagementCodes := by
  intro s k hp hk
  have getbcr := exec_getbcr_up hp hk
  refine ⟨fun a haddr => ⟨⟨i3cBcr, i3cBcr_fixed, getbcr, exec_entdaa_unaddressed hp hk haddr a⟩, act_mgmtUp_unaddressed hp hk haddr _⟩,
    act_mgmtUp hp hk _, ?_, act_mgmtUp hp hk _, exec_getpid_up hp hk, ⟨i3cBcr, i3cBcr_fixed, getbcr⟩, act_mgmtUp hp hk _,
    ⟨_, _, act_mgmtUp hp hk _⟩, act_mgmtUp hp hk _⟩
  obtain ⟨hon, haddr, hregs, hmem, hsynd⟩ := (s.modMgt fun m => { m with ibiOn := true }).ibiTry_frame
  exact ⟨_, exec_enec_up hp hk, hon, haddr, hregs, hmem, hsynd, fun hsent =>
    (congrArg State.i3cTx (State.ibiTry_sent (s := s.modMgt fun m => { m with ibiOn := true }) hsent)).trans rfl⟩

/-- Settles O11: the notice with and without a companion, and the code with its cause. -/
theorem offNoticeAndTrayRequest : Obligations.OffNoticeAndTrayRequest := by
  intro s hlive
  have notice : exec .offNotice s = .next s.offNotice := by
    show act s s.live _ = _
    rw [hlive, act_true]
  refine ⟨fun h => ?_, fun h => ?_, fun code => ?_⟩
  · rw [notice, State.offNotice, h]
    rfl
  · exact ⟨s.quiesce, by rw [notice, State.offNotice, h]; rfl, quiesce_detached h⟩
  · obtain ⟨hcode, hfields, hmem, hsynd⟩ := trayReq_frame s code.isLt
    refine ⟨s.trayReq code.toNat, ?_, hcode, trayReq_cause, hfields, hmem, hsynd⟩
    show act s s.live _ = _
    rw [hlive, act_true]

end Sys2Proof.Proofs

end

section
/-! PROOF. The Onaut port: which requests it performs (R363, R364), unlock (R365), READ and WRITE of local memory (R364, R284), and halt,
step and breakpoints (R366 to R368). -/

namespace Sys2Proof.Machine

/-! ### Requests (R363, R364) -/

/-- The kept request, if there is one, has another SEQ. -/
def State.onautNew (s : State) (q : Nat) : Prop := ∀ r, s.onaut.kept = some r → r.seq ≠ q

section
variable {s : State} {q : BitVec 16} {op need : Nat} {early : Bool} {eff : State → OnautOut} (hlive : s.live = true)
  (hnew : s.onautNew q.toNat)
include hlive hnew

theorem onautReq_new : onautReq s op q need early eff =
    let x : OnautOut :=
      if s.onautScope < need then (2, 0, s)
      else if !early && !(s.on BOOT.STATUS.STARTED) then (5, 0, s)
      else eff s
    .next (x.2.2.onautAnswer { status := x.1, op := op, seq := q.toNat, data := x.2.1 }) := by
  have hnone : s.onaut.kept.filter (fun r => r.seq == q.toNat) = none := by
    cases hkept : s.onaut.kept with
    | none => rfl
    | some r => exact if_neg (by simpa only [beq_iff_eq] using hnew r hkept)
  simp only [onautReq, hlive, act_true, State.onautAsk, hnone]

/-- A request that its scope allows, at a port that serves it, is performed. -/
theorem onautReq_performed (hscope : need ≤ s.onautScope) (hstart : early = true ∨ s.on BOOT.STATUS.STARTED = true) :
    onautReq s op q need early eff
      = .next ((eff s).2.2.onautAnswer { status := (eff s).1, op := op, seq := q.toNat, data := (eff s).2.1 }) := by
  have hserved : (!early && !(s.on BOOT.STATUS.STARTED)) = false := by
    rcases hstart with h | h <;> rw [h]
    · rfl
    · exact Bool.and_false _
  simp only [onautReq_new hlive hnew, if_neg (Nat.not_lt.mpr hscope), hserved, Bool.false_eq_true, if_false]

end

theorem onautScope_unlocked {s : State} (hopen : s.on DBG.STATUS.UNLOCKED = true) : s.onautScope = s.get DBG.STATUS.SCOPE := by
  rw [State.onautScope, hopen, if_pos rfl]

theorem onautAnswer_tx (s : State) (r : OnautResp) : (s.onautAnswer r).onaut.tx = s.onaut.tx ++ [r.frame] := rfl

/-! ### Unlock (R365) -/

section
variable {s : State} {seq : Nat} {nonce token : List Byte}

/-- The port once the oldest token being verified has been taken. -/
def State.tokenTaken (s : State) (rest : List (Nat × List Byte × List Byte)) : State :=
  { s with onaut := { s.onaut with verify := rest } }

theorem exec_unlockVerified_pending (hlive : s.live = true) {rest : List (Nat × List Byte × List Byte)}
    (hv : s.onaut.verify = (seq, nonce, token) :: rest) : exec .unlockVerified s
      = .next ((s.tokenTaken rest).unlockEnd seq nonce token) := by
  show execUnlockVerified s = _
  simp only [execUnlockVerified, hv, hlive, act_true, State.tokenTaken]

theorem exec_unlockBackoffEnd_due (hlive : s.live = true) (hback : s.on DBG.STATUS.BACKOFF = true) (hdue : s.onaut.due ≤ s.time) :
    exec .unlockBackoffEnd s = .next (s.put DBG.STATUS.BACKOFF 0) := by
  show execUnlockBackoffEnd s = _
  simp only [execUnlockBackoffEnd, hlive, hback, hdue, decide_true, Bool.and_self, act_true]

/-- A token that passes names scope 1 or 2. -/
theorem tokenScope_lt (h : s.tokenOk nonce token = true) : fieldAt token 0 4 < 4 := by
  simp only [State.tokenOk, Bool.and_eq_true, Bool.or_eq_true, beq_iff_eq] at h
  obtain ⟨⟨-, hscope⟩, -⟩ := h
  omega

theorem unlockEnd_passed (h : s.tokenOk nonce token = true) : s.unlockEnd seq nonce token
    = (((s.put DBG.STATUS.UNLOCKED 1).put DBG.STATUS.SCOPE (fieldAt token 0 4)).put DBG.STATUS.FAILS 0).onautOutcome seq 0 := if_pos h

/-- The port after a failed verification: FAILS is raised, and a backoff begins. -/
def State.unlockFailed (s : State) : State :=
  let t := (s.bumpSat DBG.STATUS.FAILS 1).put DBG.STATUS.BACKOFF 1
  { t with onaut := { t.onaut with due := t.time + backoffAclk (t.get DBG.STATUS.FAILS) } }

theorem unlockEnd_failed (h : s.tokenOk nonce token = false) : s.unlockEnd seq nonce token = s.unlockFailed.onautOutcome seq 8 := by
  rw [State.unlockEnd, h]
  rfl

theorem unlockEnd_passed_shows (h : s.tokenOk nonce token = true) :
    (s.unlockEnd seq nonce token).on DBG.STATUS.UNLOCKED = true
    ∧ (s.unlockEnd seq nonce token).get DBG.STATUS.SCOPE = fieldAt token 0 4 ∧ (s.unlockEnd seq nonce token).get DBG.STATUS.FAILS = 0
    ∧ (s.unlockEnd seq nonce token).onaut.verify = s.onaut.verify
    ∧ (s.unlockEnd seq nonce token).mem = s.mem ∧ (s.unlockEnd seq nonce token).synd = s.synd
    ∧ sameFieldsBut [DBG.STATUS.UNLOCKED, DBG.STATUS.SCOPE, DBG.STATUS.FAILS] s (s.unlockEnd seq nonce token) := by
  rw [unlockEnd_passed h]
  have hunl : (((s.put DBG.STATUS.UNLOCKED 1).put DBG.STATUS.SCOPE (fieldAt token 0 4)).put DBG.STATUS.FAILS 0).get DBG.STATUS.UNLOCKED = 1 := by
    rw [State.get_put_other _ _ _ _ (by decide), State.get_put_other _ _ _ _ (by decide), State.get_put_same]
    rfl
  have hscope : (((s.put DBG.STATUS.UNLOCKED 1).put DBG.STATUS.SCOPE (fieldAt token 0 4)).put DBG.STATUS.FAILS 0).get DBG.STATUS.SCOPE
      = fieldAt token 0 4 := by
    rw [State.get_put_other _ _ _ _ (by decide), State.get_put_same]
    exact Nat.mod_eq_of_lt (tokenScope_lt h)
  refine ⟨beq_iff_eq.mpr hunl, hscope, State.get_put_same _ _ _, rfl, rfl, rfl, fun f hf => ?_⟩
  simp only [List.map_cons, List.map_nil, List.mem_cons, List.not_mem_nil, or_false, not_or] at hf
  obtain ⟨h1, h2, h3⟩ := hf
  exact (State.get_put_other _ _ f _ h3).trans ((State.get_put_other _ _ f _ h2).trans (State.get_put_other _ _ f _ h1))

theorem unlockFailed_shows (s : State) :
    s.unlockFailed.get DBG.STATUS.FAILS = min (s.get DBG.STATUS.FAILS + 1) (2 ^ DBG.STATUS.FAILS.width - 1)
    ∧ s.unlockFailed.on DBG.STATUS.BACKOFF = true ∧ sameFieldsBut [DBG.STATUS.FAILS, DBG.STATUS.BACKOFF] s s.unlockFailed := by
  have hfails : ((s.bumpSat DBG.STATUS.FAILS 1).put DBG.STATUS.BACKOFF 1).get DBG.STATUS.FAILS
      = min (s.get DBG.STATUS.FAILS + 1) (2 ^ DBG.STATUS.FAILS.width - 1) := by
    rw [State.get_put_other _ _ _ _ (by decide), State.bumpSat, State.get_put_same, satAdd]
    have htop : 2 ^ DBG.STATUS.FAILS.width = 16 := rfl
    rw [htop]
    split <;> omega
  refine ⟨hfails, ?_, fun f hf => ?_⟩
  · exact beq_iff_eq.mpr (State.get_put_same _ DBG.STATUS.BACKOFF 1)
  · simp only [List.map_cons, List.map_nil, List.mem_cons, List.not_mem_nil, or_false, not_or] at hf
    exact (State.get_put_other _ _ f _ hf.2).trans (State.get_put_other _ _ f _ hf.1)

theorem backoffAclk_eq (fails : Nat) : backoffAclk fails = 2 ^ min (fails - 1) 6 * 800000000 := Nat.mul_comm _ _

end

/-! ### READ and WRITE of local memory (R364, R284) -/

theorem rdBytes_of_mem {s t : State} (h : t.mem = s.mem) (a k : Nat) : t.rdBytes a k = s.rdBytes a k := by
  simp only [State.rdBytes, State.rd8, h]

/-- What a write from outside can change, where it meets no flip that is held back and no error. -/
theorem extWrite_eq {s : State} {a : Nat} {bs : List Byte} {bad : List Nat}
    (hheld : ∀ n, ∀ d ∈ (s.part n).deferred, ∀ w ∈ d.pages, ¬(a < w.dry + 65536 ∧ w.dry < a + bs.length))
    (herrs : s.errsIn a bs.length = []) : ∃ m y ps r, s.extWrite a bs bad = { s with mem := m, synd := y, parts := ps, regs := r } := by
  obtain ⟨ps, hps⟩ := afterExt_eq (s := (s.wrBytes a bs).poisonAt a bad) (fun n => by rw [stored_part]; exact hheld n)
    ((stored_errsIn _).trans herrs)
  obtain ⟨r, hr⟩ := clobbered_eq ((s.wrBytes a bs).poisonAt a bad) a bs.length
  obtain ⟨y, hy⟩ := (s.wrBytes a bs).poisonAt_eq a bad
  rw [State.extWrite, hps, hr, hy]
  exact ⟨_, y, ps, r, rfl⟩

/-- A write from outside that meets no wet ink, no flip that is held back and no error stores its bytes and leaves the rest. -/
theorem extWrite_stores {s : State} {a : Nat} {bs : List Byte} (h : noWetInk s a bs.length) :
    (s.extWrite a bs []).rdBytes a bs.length = bs
    ∧ (∀ b, b < a ∨ a + bs.length ≤ b → (s.extWrite a bs []).rd8 b = s.rd8 b) ∧ (s.extWrite a bs []).regs = s.regs
    ∧ (s.extWrite a bs []).onaut = s.onaut := by
  obtain ⟨hwet, hheld, herrs⟩ := h
  obtain ⟨hmem, -, -, -⟩ := extWrite_frame (bad := []) hheld herrs
  refine ⟨(rdBytes_of_mem hmem a _).trans (s.rdBytes_wrBytes a bs), fun b hb => ?_, extWrite_regs_of_none hheld herrs hwet, ?_⟩
  · rw [extWrite_rd8 hheld herrs, State.rd8_wrBytes_other s a bs b hb]
  · obtain ⟨_, _, _, _, h⟩ := extWrite_eq (bad := []) hheld herrs
    rw [h]

section
variable {s : State} {a len : Nat} (hmem : regOffset a = none)
include hmem

theorem onautReach_memory (hstart : s.on BOOT.STATUS.STARTED = true) (hreach : s.reach a len = 0) : s.onautReach a len = 0 := by
  simp only [State.onautReach, hmem, hstart, hreach, Bool.not_true, Bool.false_eq_true, if_false]

theorem onautWrite_memory (v : Nat) : s.onautWrite a len v = (s.setAgent .onaut none none).extWrite a (toLE len v) [] := by
  simp only [State.onautWrite, hmem]

theorem onautRead_memory (h : noErrors s a len) : s.onautRead a len = (s.rdLE a len, s.setAgent .onaut none none) := by
  have hgood : s.anyPoison a len = false := List.any_eq_false.mpr fun p hp hbad => by
    simp only [Bool.and_eq_true, decide_eq_true_eq] at hbad
    exact h.1 p hp ⟨hbad.1.2, hbad.2⟩
  have hmeet : (s.setAgent .onaut none none).meet a len = s.setAgent .onaut none none := meet_of_noErrors h
  have hclean : (s.setAgent .onaut none none).anyPoison a len = false := hgood
  simp only [State.onautRead, hmem, hmeet, hclean, Bool.false_eq_true, if_false]
  rfl

end

/-! ### Halt, resume and breakpoints (R366, R368) -/

theorem bit_eq_testBit (w i : Nat) : bit w i = w.testBit i := by
  have hone : i + 1 - i = 1 := by omega
  rw [bit, bits, hone, Nat.pow_one, Nat.testBit_eq_decide_div_mod_eq]
  exact rfl

theorem maskCores_eq (m : BitVec 16) : maskCores m = allCores.filter (fun d => m.getLsbD d.val) :=
  List.filter_congr fun d _ => bit_eq_testBit m.toNat d.val

theorem mem_maskCores (m : BitVec 16) (d : CoreIx) : d ∈ maskCores m ↔ m.getLsbD d.val = true := by
  simp only [maskCores_eq, List.mem_filter, mem_allCores, true_and]

section
variable {s : State} {c d : CoreIx}

/-- The halt of one core: its fields. -/
theorem haltReq_self (s : State) (c : CoreIx) : (s.haltReq c).get (DBG.CORE_c.HALT_REQ c) = 1
    ∧ (s.haltReq c).get (DBG.CORE_c.BP_HIT c) = if s.on (DBG.CORE_c.HALT_REQ c) then s.get (DBG.CORE_c.BP_HIT c) else 0 := by
  rw [State.haltReq]
  split
  · next h => exact ⟨beq_iff_eq.mp h, rfl⟩
  · refine ⟨?_, State.get_put_same _ _ _⟩
    rw [State.get_put_other _ _ _ _ (by simp only [Field.key]; omega)]
    exact State.get_put_same _ _ _

theorem haltReq_other {f : Field} (hreq : f.key ≠ (DBG.CORE_c.HALT_REQ c).key) (hhit : f.key ≠ (DBG.CORE_c.BP_HIT c).key) :
    (s.haltReq c).get f = s.get f := by
  rw [State.haltReq]
  split
  · rfl
  · rw [State.get_put_other _ _ _ _ hhit, State.get_put_other _ _ _ _ hreq]

theorem haltKeys_ne (h : d ≠ c) :
    (DBG.CORE_c.HALT_REQ d).key ≠ (DBG.CORE_c.HALT_REQ c).key ∧ (DBG.CORE_c.HALT_REQ d).key ≠ (DBG.CORE_c.BP_HIT c).key
    ∧ (DBG.CORE_c.BP_HIT d).key ≠ (DBG.CORE_c.HALT_REQ c).key ∧ (DBG.CORE_c.BP_HIT d).key ≠ (DBG.CORE_c.BP_HIT c).key := by
  have hval : d.val ≠ c.val := fun e => h (Fin.ext e)
  simp only [Field.key]
  omega

/-- A core of the list is asked to halt; a halt asked for anew does not come from a breakpoint. -/
theorem haltAll_fields (l : List CoreIx) (s : State) (d : CoreIx) :
    (forCores l (fun c u => u.haltReq c) s).get (DBG.CORE_c.HALT_REQ d) = (if d ∈ l then 1 else s.get (DBG.CORE_c.HALT_REQ d))
    ∧ (forCores l (fun c u => u.haltReq c) s).get (DBG.CORE_c.BP_HIT d)
      = (if d ∈ l then (if s.on (DBG.CORE_c.HALT_REQ d) then s.get (DBG.CORE_c.BP_HIT d) else 0) else s.get (DBG.CORE_c.BP_HIT d)) := by
  induction l generalizing s with
  | nil => exact ⟨rfl, rfl⟩
  | cons c r ih =>
    have hstep : forCores (c :: r) (fun c u => u.haltReq c) s = forCores r (fun c u => u.haltReq c) (s.haltReq c) := rfl
    obtain ⟨hreq, hhit⟩ := ih (s.haltReq c)
    rw [hstep, hreq, hhit]
    by_cases hd : d = c
    · obtain ⟨sreq, shit⟩ := haltReq_self s c
      subst hd
      have hon : (s.haltReq d).on (DBG.CORE_c.HALT_REQ d) = true := beq_iff_eq.mpr sreq
      rw [sreq, shit, hon, if_pos rfl, ite_self, ite_self, if_pos List.mem_cons_self, if_pos List.mem_cons_self]
      exact ⟨rfl, rfl⟩
    · obtain ⟨h1, h2, h3, h4⟩ := haltKeys_ne hd
      simp only [State.on, haltReq_other h1 h2, haltReq_other h3 h4, List.mem_cons, hd, false_or, true_and]
      rfl

theorem haltAll_other (l : List CoreIx) {f : Field}
    (hf : ∀ d : CoreIx, f.key ≠ (DBG.CORE_c.HALT_REQ d).key ∧ f.key ≠ (DBG.CORE_c.BP_HIT d).key) :
    (forCores l (fun c u => u.haltReq c) s).get f = s.get f :=
  List.foldlRecOn (motive := fun t : State => t.get f = s.get f) l _ rfl fun _ ht c _ => (haltReq_other (hf c).1 (hf c).2).trans ht

theorem haltReq_regs (s : State) (c : CoreIx) : ∃ r, s.haltReq c = { s with regs := r } := by
  unfold State.haltReq
  split
  · exact ⟨s.regs, rfl⟩
  · exact ⟨_, rfl⟩

theorem haltAll_regs (l : List CoreIx) (s : State) : ∃ r, forCores l (fun c u => u.haltReq c) s = { s with regs := r } :=
  List.foldlRecOn (motive := fun t : State => ∃ r, t = { s with regs := r }) l _ ⟨s.regs, rfl⟩ fun t ⟨r, ht⟩ c _ => by
    obtain ⟨r', h⟩ := haltReq_regs t c
    exact ⟨r', h.trans (by rw [ht])⟩

end

theorem exec_coreHalted_quiet {s : State} {c : CoreIx} (hlive : s.live = true) (hreq : s.on (DBG.CORE_c.HALT_REQ c) = true)
    (hrun : s.on (DBG.CORE_c.HALTED c) = false) (hout : nothingOut s c = true) :
    exec (.coreHalted c) s = .next (s.put (DBG.CORE_c.HALTED c) 1) := by
  show execCoreHalted c s = _
  simp only [execCoreHalted, hlive, hreq, hrun, hout, Bool.not_false, Bool.and_self, act_true]

/-! ### Requests in full scope (R364, R366 to R368) -/

section
variable {s : State} {q : BitVec 16} {c : CoreIx} (hlive : s.live = true) (hnew : s.onautNew q.toNat)
  (hopen : s.on DBG.STATUS.UNLOCKED = true) (hscope : s.get DBG.STATUS.SCOPE = 2) (hstart : s.on BOOT.STATUS.STARTED = true)
include hlive hnew hopen hscope hstart

/-- In full scope after the start every operation is performed. -/
theorem onautReq_full {op need : Nat} {early : Bool} {eff : State → OnautOut} (hneed : need ≤ 2) :
    onautReq s op q need early eff
      = .next ((eff s).2.2.onautAnswer { status := (eff s).1, op := op, seq := q.toNat, data := (eff s).2.1 }) :=
  onautReq_performed hlive hnew (by rwa [onautScope_unlocked hopen, hscope]) (.inr hstart)

theorem exec_onautHalt_full (m : BitVec 16) : exec (.onautHalt q m) s
    = .next ((forCores (maskCores m) (fun c u => u.haltReq c) s).onautAnswer { status := 0, op := 0x20, seq := q.toNat, data := 0 }) :=
  onautReq_full hlive hnew hopen hscope hstart (Nat.le_refl 2)

theorem exec_onautResume_full (m : BitVec 16) : exec (.onautResume q m) s
    = .next ((forCores (maskCores m) (fun c u => u.resumeCore c) s).onautAnswer { status := 0, op := 0x21, seq := q.toNat, data := 0 }) :=
  onautReq_full hlive hnew hopen hscope hstart (Nat.le_refl 2)

theorem exec_step_full : exec (.step q c) s = .next (if s.on (DBG.CORE_c.HALTED c) && !(s.on (DBG.CORE_c.STEPPING c))
    then ((s.put (DBG.CORE_c.STEPPING c) 1).bpCheck c).onautAnswer { status := 0, op := 0x22, seq := q.toNat, data := 0 }
    else s.onautAnswer { status := 5, op := 0x22, seq := q.toNat, data := 0 }) := by
  refine (onautReq_full hlive hnew hopen hscope hstart (Nat.le_refl 2)).trans ?_
  split <;> rfl

theorem exec_bpSet_fits {i : Fin 4} {v : Word} (hv : v.toNat < 2 ^ 57) : exec (.bpSet q c i v) s
    = .next (((s.put (DBG.BP_c_i.MATCH c i) v.toNat).bpCheck c).onautAnswer { status := 0, op := 0x23, seq := q.toNat, data := 0 }) :=
  (if_neg (Nat.not_le.mpr hv)).trans (onautReq_full hlive hnew hopen hscope hstart (Nat.le_refl 2))

theorem exec_bpClear_full (i : Fin 4) : exec (.bpClear q c i) s
    = .next ((s.put (DBG.BP_c_i.MATCH c i) 0).onautAnswer { status := 0, op := 0x24, seq := q.toNat, data := 0 }) :=
  onautReq_full hlive hnew hopen hscope hstart (Nat.le_refl 2)

theorem exec_onautWrite_memory {z : Bool} {a d : Word} (hmem : regOffset a.toNat = none)
    (hreach : s.reach a.toNat (if z then 8 else 4) = 0) : exec (.onautWrite q z a d) s
      = .next (((s.setAgent .onaut none none).extWrite a.toNat (toLE (if z then 8 else 4) d.toNat) []).onautAnswer
          { status := 0, op := 0x11, seq := q.toNat, data := 0 }) := by
  refine (onautReq_full hlive hnew hopen hscope hstart (Nat.le_refl 2)).trans ?_
  simp only [onautReach_memory hmem hstart hreach, if_true, onautWrite_memory hmem]

theorem exec_onautRead_memory {z : Bool} {a : Word} (hmem : regOffset a.toNat = none)
    (hreach : s.reach a.toNat (if z then 8 else 4) = 0) (h : noErrors s a.toNat (if z then 8 else 4)) : exec (.onautRead q z a) s
      = .next ((s.setAgent .onaut none none).onautAnswer
          { status := 0, op := 0x10, seq := q.toNat, data := s.rdLE a.toNat (if z then 8 else 4) }) := by
  refine (onautReq_full hlive hnew hopen hscope hstart (Nat.le_succ 1)).trans ?_
  simp only [onautReach_memory hmem hstart hreach, if_true, onautRead_memory hmem h]

end

/-- A breakpoint with a reserved bit set is answered BAD_OP, whatever the scope of the port. -/
theorem exec_bpSet_reserved {s : State} {q : BitVec 16} (hlive : s.live = true) (hnew : s.onautNew q.toNat) (c : CoreIx) (i : Fin 4) {v : Word}
    (hv : 2 ^ 57 ≤ v.toNat) :
    exec (.bpSet q c i v) s = .next (s.onautAnswer { status := 4, op := 0x23, seq := q.toNat, data := 0 }) :=
  (if_pos hv).trans (onautReq_performed hlive hnew (Nat.zero_le _) (.inl rfl))

end Sys2Proof.Machine

namespace Sys2Proof.Proofs

open Sys2Proof.Machine

/-- Settles O13: in full scope after the start each request is performed as it stands. -/
theorem haltAndStep : Obligations.HaltAndStep := by
  intro s q c hlive hnew hopen hscope hstart
  refine ⟨fun m => ?_, fun m => ?_, fun hhalted hidle => ?_, fun hnot => ?_,
    fun i v hv => exec_bpSet_fits hlive hnew hopen hscope hstart hv, fun i v hv => exec_bpSet_reserved hlive hnew c i hv,
    fun i => exec_bpClear_full hlive hnew hopen hscope hstart i, exec_coreHalted_quiet hlive⟩
  · have hfields := haltAll_fields (maskCores m) s
    have hother := fun f : Field => haltAll_other (s := s) (maskCores m) (f := f)
    obtain ⟨r, hr⟩ := haltAll_regs (maskCores m) s
    refine ⟨_, exec_onautHalt_full hlive hnew hopen hscope hstart m, ?_⟩
    generalize forCores (maskCores m) (fun c u => u.haltReq c) s = t at hfields hother hr
    refine ⟨by rw [hr]; rfl, fun d hd => ?_, fun d hd => ?_, hother, by rw [hr]; rfl, by rw [hr]; rfl, by rw [hr]; rfl⟩
    · obtain ⟨hreq, hhit⟩ := hfields d
      rw [if_pos ((mem_maskCores m d).mpr hd)] at hreq hhit
      exact ⟨beq_iff_eq.mpr hreq, hhit⟩
    · have hout : d ∉ maskCores m := fun h => Bool.false_ne_true (hd.symm.trans ((mem_maskCores m d).mp h))
      obtain ⟨hreq, hhit⟩ := hfields d
      rw [if_neg hout] at hreq hhit
      exact ⟨hreq, hhit⟩
  · rw [exec_onautResume_full hlive hnew hopen hscope hstart m, maskCores_eq]
    rfl
  · rw [exec_step_full hlive hnew hopen hscope hstart, hhalted, hidle]
    rfl
  · have hrefused : (s.on (DBG.CORE_c.HALTED c) && !(s.on (DBG.CORE_c.STEPPING c))) = false := by
      rcases hnot with h | h <;> rw [h]
      · rfl
      · exact Bool.and_false _
    rw [exec_step_full hlive hnew hopen hscope hstart, hrefused]
    rfl

/-- Settles O14: both are performed, on memory that they find without wet ink and without errors. -/
theorem onautMemory : Obligations.OnautMemory := by
  intro s q a d z hlive hnew hopen hscope hstart hmem hreach
  refine ⟨fun hink => ?_, fun hgood => ⟨_, exec_onautRead_memory hlive hnew hopen hscope hstart hmem hreach hgood, rfl, rfl, rfl, rfl⟩⟩
  have hlen : (toLE (if z then 8 else 4) d.toNat).length = if z then 8 else 4 := length_toLE _ _
  have hstored := extWrite_stores (s := s.setAgent .onaut none none) (a := a.toNat) (bs := toLE (if z then 8 else 4) d.toNat)
    (by rw [hlen]; exact hink)
  rw [hlen] at hstored
  obtain ⟨hbytes, hothers, hregs, honaut⟩ := hstored
  exact ⟨_, exec_onautWrite_memory hlive hnew hopen hscope hstart hmem hreach, by rw [onautAnswer_tx, honaut]; rfl, hbytes, hothers, hregs⟩

/-- Settles O15: the verification that passes, the one that fails, and the end of the backoff. -/
theorem unlockEnds : Obligations.UnlockEnds := by
  intro s hlive
  refine ⟨fun seq nonce token rest hv => ⟨fun hok => ?_, fun hbad => ?_⟩, exec_unlockBackoffEnd_due hlive⟩
  · exact ⟨_, exec_unlockVerified_pending hlive hv, unlockEnd_passed_shows (s := s.tokenTaken rest) hok⟩
  · obtain ⟨hfails, hback, hfields⟩ := unlockFailed_shows (s.tokenTaken rest)
    refine ⟨_, exec_unlockVerified_pending hlive hv, ?_⟩
    rw [unlockEnd_failed (s := s.tokenTaken rest) hbad]
    exact ⟨hfails, hback, congrArg (s.time + ·) (backoffAclk_eq _), rfl, rfl, rfl, hfields⟩

/-- Refutes O12: its clauses of a locked port and of a port before the start range over every value of BP_SET, and one with a reserved bit set
(here bit 57) is answered BAD_OP at any port (R364). -/
theorem not_onautRequests : ¬ Obligations.OnautRequests := by
  rintro ⟨-, h⟩
  obtain ⟨-, -, hlocked, -⟩ := h State.reset 0 rfl
  have hnew : State.reset.onautNew 0 := fun r hr => nomatch hr
  have hbad := hlocked hnew rfl 0 0 (2 ^ 57) 0 0 false (.bpSet 0 0 0 (2 ^ 57), 0x23) (by simp)
  rw [exec_bpSet_reserved rfl hnew 0 0 (by decide)] at hbad
  injection hbad with hstate
  have hstatus : some 4 = some 2 := congrArg (fun t : State => t.onaut.kept.map OnautResp.status) hstate
  simp at hstatus

end Sys2Proof.Proofs

end

section
/-! PROOF. The companion's reads and writes of local memory (R277, R284, R285). -/

namespace Sys2Proof.Machine

/-! ### Words stored one by one (R277) -/

/-- Words of the 64 bytes at a take their bytes of a line. -/
def State.storeWords (s : State) (a : Nat) (line : List Byte) (ws : List Nat) : State :=
  ws.foldl (fun t w => t.wrBytes (a + 4 * w) (slice line (4 * w) 4)) s

section
variable {a : Nat} {line : List Byte}

theorem storeWords_eq (s : State) (ws : List Nat) : ∃ m y, s.storeWords a line ws = { s with mem := m, synd := y } :=
  List.foldlRecOn (motive := fun t : State => ∃ m y, t = { s with mem := m, synd := y }) ws _ ⟨s.mem, s.synd, rfl⟩
    fun t ⟨m, y, ht⟩ w _ => by
      rw [ht]
      exact ⟨_, _, rfl⟩

/-- A byte of one word of a line that is stored. -/
theorem rd8_storeWord {s : State} (hline : line.length = 64) {w : Nat} (hw : w < 16) (b : Nat) :
    (s.wrBytes (a + 4 * w) (slice line (4 * w) 4)).rd8 b = if a ≤ b ∧ (b - a) / 4 = w then line.getD (b - a) 0 else s.rd8 b := by
  have hlen : (slice line (4 * w) 4).length = 4 := by
    rw [slice, List.length_take, List.length_drop, hline]
    omega
  split
  · next h =>
    obtain ⟨hab, hword⟩ := h
    have hin : b - (a + 4 * w) < (slice line (4 * w) 4).length := by omega
    have hplace : a + 4 * w + (b - (a + 4 * w)) = b := by omega
    have hbyte : 4 * w + (b - (a + 4 * w)) = b - a := by omega
    have hread := State.rd8_wrBytes_same s (a + 4 * w) (slice line (4 * w) 4) _ hin
    rw [hplace] at hread
    rw [hread, List.getD_eq_getElem?_getD, slice, List.getElem?_take_of_lt (by omega), List.getElem?_drop, hbyte,
      List.getD_eq_getElem?_getD]
  · next h => exact State.rd8_wrBytes_other s _ _ b (by omega)

theorem rd8_storeWords {s : State} (hline : line.length = 64) {ws : List Nat} (hws : ∀ w ∈ ws, w < 16) (b : Nat) :
    (s.storeWords a line ws).rd8 b = if a ≤ b ∧ (b - a) / 4 ∈ ws then line.getD (b - a) 0 else s.rd8 b := by
  induction ws generalizing s with
  | nil => exact (if_neg fun h => List.not_mem_nil h.2).symm
  | cons w r ih =>
    have hstep : s.storeWords a line (w :: r) = (s.wrBytes (a + 4 * w) (slice line (4 * w) 4)).storeWords a line r := rfl
    rw [hstep, ih fun x hx => hws x (List.mem_cons_of_mem w hx), rd8_storeWord hline (hws w List.mem_cons_self)]
    by_cases hr : a ≤ b ∧ (b - a) / 4 ∈ r
    · rw [if_pos hr, if_pos ⟨hr.1, List.mem_cons_of_mem w hr.2⟩]
    · have hcons : a ≤ b ∧ (b - a) / 4 = w ↔ a ≤ b ∧ (b - a) / 4 ∈ w :: r := by
        rw [List.mem_cons]
        exact ⟨fun ⟨h1, h2⟩ => ⟨h1, .inl h2⟩, fun ⟨h1, h2⟩ => ⟨h1, h2.resolve_right fun h => hr ⟨h1, h⟩⟩⟩
      rw [if_neg hr]
      exact if_congr hcons rfl rfl

end

/-! ### MWR and MRD (R277, R284, R285) -/

/-- A message that leaves for the companion leaves memory. -/
theorem frlPush_mem (s : State) (x : FOut) : (s.frlPush x).mem = s.mem :=
  congrArg Prod.fst (Aside.frlPush (Aside.refl (K := fun _ => False) s) x).stores

theorem frlCmp_rd8 (s : State) (m : FMsg) (b : Nat) : (s.frlCmp m).rd8 b = s.rd8 b := by
  rw [State.rd8, State.frlCmp, State.frlSend, frlPush_mem, State.rd8]

section
variable {s0 s : State} {m : FMsg} (hs : s = s0.frlTake m) (hbehind : s0.frlBehind m = false) (halign : m.addr.toNat % 64 = 0)
  (hmem : regOffset m.addr.toNat = none)
include hs hbehind halign hmem

/-- An MWR to memory is stored, or answered with the reason why not. -/
theorem exec_mwr_memory (h : companionSends s0 m 0x27) : exec (.mwr m) s0
    = .next (if s.reach m.addr.toNat m.lines.length = 0 then (s.noReg.mwrStore m).frlCmp m
        else s.noReg.frlNack m (s.reach m.addr.toNat m.lines.length)) := by
  have hdry : ¬(m.addr.toNat % 64 ≠ 0) := fun h => h halign
  show execMwr m s0 = _
  simp only [execMwr, frlOrdered, hbehind, Bool.false_eq_true, if_false, frlArrive_taken _ h, if_neg hdry, hmem, hs]

/-- An MRD of memory is answered with what it reads, or with the reason why not. -/
theorem exec_mrd_memory (h : companionSends s0 m 0x06) (hroom : s0.mrdFull = false) : exec (.mrd m) s0
    = .next (if s.reach m.addr.toNat (64 * (m.linesM1.toNat + 1)) = 0
        then s.noReg.mrdData m m.addr.toNat (64 * (m.linesM1.toNat + 1))
        else s.noReg.frlNack m (s.reach m.addr.toNat (64 * (m.linesM1.toNat + 1)))) := by
  have hdry : ¬(m.addr.toNat % 64 ≠ 0) := fun h => h halign
  show execMrd m s0 = _
  simp only [execMrd, hroom, frlOrdered, hbehind, Bool.false_eq_true, if_false, frlArrive_taken _ h, if_neg hdry, hmem, hs]

end

theorem exec_mrd_full {s : State} {m : FMsg} (hfull : s.mrdFull = true) : exec (.mrd m) s = .next s := if_pos hfull

section
variable {s : State} {m : FMsg} {a : Nat}

/-- Whole lines are written as from outside. -/
theorem mwrStore_lines (h : m.linesM1 ≠ 0) : s.mwrStore m = s.extWrite m.addr.toNat m.lines [] := if_pos h

/-- The words that an MWR of one line enables. -/
def mwrWords (m : FMsg) : List Nat := (List.range 16).filter (fun w => bit m.mask.toNat w)

theorem mem_mwrWords (m : FMsg) (w : Nat) : w ∈ mwrWords m ↔ w < 16 ∧ m.mask.toNat.testBit w = true := by
  simp only [mwrWords, List.mem_filter, List.mem_range, bit_eq_testBit]

theorem mwrStore_line_eq (h : m.linesM1 = 0) : s.mwrStore m = if (mwrWords m).isEmpty then s
    else (s.storeWords m.addr.toNat m.lines (mwrWords m)).afterExt m.addr.toNat 64 := if_neg fun hne => hne h

/-- One line stores the words that the mask enables. -/
theorem mwrStore_line (h : m.linesM1 = 0) (hline : m.lines.length = 64) (hink : noWetInk s m.addr.toNat 64) (b : Nat) :
    (s.mwrStore m).rd8 b = if m.addr.toNat ≤ b ∧ (b - m.addr.toNat) / 4 ∈ mwrWords m then m.lines.getD (b - m.addr.toNat) 0 else s.rd8 b := by
  rw [mwrStore_line_eq h]
  split
  · next hnone =>
    rw [List.isEmpty_iff.mp hnone]
    exact (if_neg fun h => List.not_mem_nil h.2).symm
  · obtain ⟨-, hheld, herrs⟩ := hink
    have hwords := rd8_storeWords (s := s) (a := m.addr.toNat) hline (fun w hw => ((mem_mwrWords m w).mp hw).1) b
    obtain ⟨c, y, hstored⟩ := storeWords_eq (a := m.addr.toNat) (line := m.lines) s (mwrWords m)
    rw [hstored] at hwords ⊢
    obtain ⟨ps, hafter⟩ := afterExt_eq (s := { s with mem := c, synd := y }) hheld herrs
    obtain ⟨r, hclob⟩ := clobbered_eq { s with mem := c, synd := y } m.addr.toNat 64
    rw [hafter, hclob, ← hwords]
    rfl

/-- A read that meets no error is answered by one message, whose mask marks no word. -/
theorem mrdData_of_noErrors (h : noErrors s a (64 * (m.linesM1.toNat + 1))) : s.mrdData m a (64 * (m.linesM1.toNat + 1))
    = s.frlSend { fmsg 3 0x26 m.tag.toNat a with
        linesM1 := m.linesM1, lines := s.rdBytes a (64 * (m.linesM1.toNat + 1)) } := by
  have hlines : BitVec.ofNat 3 ((s.rdBytes a (64 * (m.linesM1.toNat + 1))).length / 64 - 1) = m.linesM1 := by
    have hcount : (s.rdBytes a (64 * (m.linesM1.toNat + 1))).length / 64 - 1 = m.linesM1.toNat := by
      rw [State.rdBytes, List.length_map, List.length_range]
      omega
    rw [hcount, BitVec.ofNat_toNat, BitVec.setWidth_eq]
  have hclean : badMask [] = 0 := rfl
  simp only [State.mrdData, meet_of_noErrors h, poisonIn_of_noErrors h, List.foldl_nil, List.filterMap_nil, hclean, hlines, bne_self_eq_false,
    Bool.and_false, List.filter_false]
  rfl

end

end Sys2Proof.Machine

namespace Sys2Proof.Proofs

open Sys2Proof.Machine

/-- Settles O18: an MWR of several lines, one of one line, and an MRD, each with what keeps it from being served. -/
theorem companionMemory : Obligations.CompanionMemory := by
  intro s0 s m hs hlive hup hgood hbehind halign hmem
  have mwr (hop : m.opcode = 0x27) := exec_mwr_memory hs hbehind halign hmem ⟨hlive, hup, hgood, by rw [hop]; rfl⟩
  have mrd (hop : m.opcode = 0x06) := exec_mrd_memory hs hbehind halign hmem ⟨hlive, hup, hgood, by rw [hop]; rfl⟩
  refine ⟨fun hop hlines hreach hink => ?_, fun hop hone hline hreach hink => ?_, fun hop hreach => ?_, fun hop hroom hreach hclean => ?_,
    fun hop hroom hreach => ?_, fun _ => exec_mrd_full⟩
  · obtain ⟨hbytes, hothers, -, -⟩ := extWrite_stores (s := s.noReg) hink
    refine ⟨_, (mwr hop).trans (congrArg _ (if_pos hreach)), ?_, fun b hb => ?_⟩
    · rw [mwrStore_lines hlines]
      simp only [State.rdBytes, frlCmp_rd8] at hbytes ⊢
      exact hbytes
    · rw [mwrStore_lines hlines, frlCmp_rd8]
      exact hothers b hb
  · refine ⟨_, (mwr hop).trans (congrArg _ (if_pos (hline.symm ▸ hreach))), fun b => ?_⟩
    have hword : (m.addr.toNat ≤ b ∧ (b - m.addr.toNat) / 4 ∈ mwrWords m)
        ↔ (m.addr.toNat ≤ b ∧ b < m.addr.toNat + 64 ∧ m.mask.toNat.testBit ((b - m.addr.toNat) / 4) = true) := by
      rw [mem_mwrWords]
      refine and_congr_right fun hlow => and_congr_left fun _ => ?_
      omega
    rw [frlCmp_rd8, mwrStore_line (s := s.noReg) hone hline hink]
    simp only [hword]
    rfl
  · rw [mwr hop, if_neg hreach]
  · rw [mrd hop hroom, if_pos hreach, mrdData_of_noErrors (s := s.noReg) hclean]
    rfl
  · rw [mrd hop hroom, if_neg hreach]

end Sys2Proof.Proofs

end

section
/-! PROOF. The error log's commands (R317 to R319), health (R334, R335), the job (R336) and tracing slots (R331). -/

namespace Sys2Proof.Machine

section
variable {s : State} (hlive : s.live = true)
include hlive

theorem exec_errAck_live (d : BitVec 4) : exec (.errAck d) s = .next (s.clearDomain d.toNat) := by
  show act s s.live _ = _
  rw [hlive, act_true]

theorem exec_consumerWrite_live (v : BitVec 32) : exec (.consumerWrite v) s = .next (s.setConsumer v.toNat) := by
  show act s s.live _ = _
  rw [hlive, act_true]

theorem exec_coalesceIntervalEnd_due {d : BitVec 4} {code : BitVec 16} {iv : RateIv}
    (hiv : s.rates.find? (fun i => i.domain == d.toNat && i.code == code.toNat) = some iv) (hdue : iv.due ≤ s.time) :
    exec (.coalesceIntervalEnd d code) s = .next (s.closeRate iv) := by
  show execCoalesceIntervalEnd d code s = _
  simp only [execCoalesceIntervalEnd, hiv, hlive, hdue, decide_true, Bool.and_self, act_true]

theorem exec_healthWindowEnd_over {n : PartIx} (hover : (s.part n).health.from_ + s.healthWindow ≤ s.time) :
    exec (.healthWindowEnd n) s = .next (s.healthEnd n) := by
  show act s (s.live && decide _) _ = _
  rw [hlive, decide_eq_true hover, Bool.and_self, act_true]

theorem exec_traceSlotRelease_kept {k : Fin 2} (h : s.get (RST.TRACE_SLOT_k.STATE k) = 2) :
    exec (.traceSlotRelease k) s = .next (s.put (RST.TRACE_SLOT_k.STATE k) 0) := by
  show act s (s.live && _) _ = _
  rw [hlive, h, beq_self_eq_true, Bool.and_self, act_true]

end

section
variable {s : State}

/-- A value from PRODUCER − 4,096 to PRODUCER is taken. -/
theorem setConsumer_near {v : Nat} (hle : v ≤ s.get ERR.PRODUCER.SEQ)
    (hnear : s.get ERR.PRODUCER.SEQ - v ≤ 4096) : s.setConsumer v = s.put ERR.CONSUMER.SEQ v := if_pos (by omega)

theorem setConsumer_far {v : Nat} (hp : s.get ERR.PRODUCER.SEQ < 2 ^ 32) (hle : v ≤ s.get ERR.PRODUCER.SEQ)
    (hfar : 4096 < s.get ERR.PRODUCER.SEQ - v) : s.setConsumer v = s := if_neg (by omega)

theorem setConsumer_ahead {v : Nat} (hv : v < 2 ^ 32) (hlt : s.get ERR.PRODUCER.SEQ < v) (hle : v ≤ s.get ERR.PRODUCER.SEQ + 1000) :
    s.setConsumer v = s := if_neg (by omega)

theorem exec_healthWindowEnd_open {n : PartIx} (hopen : s.time < (s.part n).health.from_ + s.healthWindow) :
    exec (.healthWindowEnd n) s = .next s := by
  show act s (s.live && decide _) _ = _
  rw [decide_eq_false (Nat.not_le.mpr hopen), Bool.and_false, act_false]

theorem exec_probation_served (n : PartIx) (hs : s.served = true) :
    exec (.probation n) s = .next (((s.afterBoundary n).put (HLT.SCORE_n.CLEAN n) 0).healthTo n 1) := by
  show act s s.served _ = _
  rw [hs, act_true]

theorem exec_resetState_failing {n : PartIx} (hs : s.served = true) (h : s.get (HLT.SCORE_n.STATE n) = 2) :
    exec (.resetState n) s = .next (((s.afterBoundary n).put (HLT.SCORE_n.CLEAN n) 0).healthTo n 1) := by
  show act s (s.served && _) _ = _
  rw [hs, h, beq_self_eq_true, Bool.and_self, act_true]

theorem exec_resetState_other {n : PartIx} (h : s.get (HLT.SCORE_n.STATE n) ≠ 2) : exec (.resetState n) s = .next s := by
  show act s (s.served && _) _ = _
  rw [beq_eq_false_iff_ne.mpr h, Bool.and_false, act_false]

theorem exec_stateLost_served (hs : s.served = true) : exec .stateLost s = .next ((s.raise
    { code := 0x56, domain := 0, d0 := s.get HLT.JOB.JOB_ID + 4294967296 * s.get HLT.JOB.LOGICAL }).put HLT.JOB.LOST 1) := by
  show act s s.served _ = _
  rw [hs, act_true]

theorem exec_traceSlotRelease_other {k : Fin 2} (h : s.get (RST.TRACE_SLOT_k.STATE k) ≠ 2) : exec (.traceSlotRelease k) s = .next s := by
  show act s (s.live && _) _ = _
  rw [beq_eq_false_iff_ne.mpr h, Bool.and_false, act_false]

/-- The job that a write of HLT.JOB shows. -/
def State.jobShown (s : State) (v : Nat) : State :=
  ((s.put HLT.JOB.JOB_ID (bits v 31 0)).put HLT.JOB.LOGICAL (bits v 47 32)).put HLT.JOB.LOST 0

theorem exec_jobWrite_settable (w : Word) (hset : s.settable = true) : exec (.jobWrite w) s = .next (s.jobShown w.toNat) := by
  show act s s.settable _ = _
  rw [hset, act_true]
  rfl

theorem jobShown_fields (s : State) (v : Nat) : (s.jobShown v).get HLT.JOB.JOB_ID = v % 2 ^ 32
    ∧ (s.jobShown v).get HLT.JOB.LOGICAL = v / 2 ^ 32 % 2 ^ 16 ∧ (s.jobShown v).get HLT.JOB.LOST = 0
    ∧ sameFieldsBut [HLT.JOB.JOB_ID, HLT.JOB.LOGICAL, HLT.JOB.LOST] s (s.jobShown v) := by
  have hid : bits v 31 0 = v % 2 ^ 32 := by rw [bits, Nat.pow_zero, Nat.div_one]
  have hlogical : bits v 47 32 = v / 2 ^ 32 % 2 ^ 16 := rfl
  unfold State.jobShown
  refine ⟨?_, ?_, State.get_put_same _ _ _, fun f hf => ?_⟩
  · rw [State.get_put_other _ _ _ _ (by decide), State.get_put_other _ _ _ _ (by decide), State.get_put_same, hid]
    exact Nat.mod_mod _ _
  · rw [State.get_put_other _ _ _ _ (by decide), State.get_put_same, hlogical]
    exact Nat.mod_mod _ _
  · simp only [List.map_cons, List.map_nil, List.mem_cons, List.not_mem_nil, or_false, not_or] at hf
    obtain ⟨h1, h2, h3⟩ := hf
    exact (State.get_put_other _ _ f _ h3).trans ((State.get_put_other _ _ f _ h2).trans (State.get_put_other _ _ f _ h1))

end

end Sys2Proof.Machine

namespace Sys2Proof.Proofs

open Sys2Proof.Machine

/-- Settles O58, command by command. -/
theorem healthAndErrors : Obligations.HealthAndErrors := by
  intro s n d v hlive
  refine ⟨exec_errAck_live hlive d,
    fun hp hle => ⟨fun hnear => ?_, fun hfar => ?_⟩, fun hlt hle => ?_, fun code iv => exec_coalesceIntervalEnd_due hlive,
    exec_healthWindowEnd_over hlive, exec_healthWindowEnd_open, exec_probation_served n, exec_resetState_failing, exec_resetState_other,
    fun w hset => ?_, exec_stateLost_served, fun k => ⟨exec_traceSlotRelease_kept hlive, exec_traceSlotRelease_other⟩⟩
  · rw [exec_consumerWrite_live hlive, setConsumer_near hle hnear]
  · rw [exec_consumerWrite_live hlive, setConsumer_far hp hle hfar]
  · rw [exec_consumerWrite_live hlive, setConsumer_ahead v.isLt hlt hle]
  · obtain ⟨hid, hlogical, hlost, hfields⟩ := jobShown_fields s w.toNat
    exact ⟨_, exec_jobWrite_settable w hset, hid, hlogical, hlost, hfields, rfl, rfl⟩

end Sys2Proof.Proofs

end

section
/-! PROOF. The weight service: commands to a model (R301), its load (R302 to R308), drains (R309, R310), streams (R311) and seal sweeps
(R312). -/

namespace Sys2Proof.Machine

/-! ### Commands to a model (R301) -/

/-- The state that shows a command in WTS.CMD. -/
def State.wtsShown (s : State) (m op : Nat) : State := (s.put WTS.CMD.MODEL m).put WTS.CMD.OP op

section
variable {s : State} (hs : s.served = true) (m : Byte)
include hs

theorem exec_modelLoad_served : exec (.modelLoad m) s = .next (s.wtsCmd m.toNat 1) := by
  show act s s.served _ = _
  rw [hs, act_true]

theorem exec_modelReplace_served : exec (.modelReplace m) s = .next (s.wtsCmd m.toNat 2) := by
  show act s s.served _ = _
  rw [hs, act_true]

theorem exec_modelStop_served : exec (.modelStop m) s = .next (s.wtsCmd m.toNat 3) := by
  show act s s.served _ = _
  rw [hs, act_true]

theorem exec_modelResume_served : exec (.modelResume m) s = .next (s.wtsCmd m.toNat 4) := by
  show act s s.served _ = _
  rw [hs, act_true]

theorem exec_modelEvict_served : exec (.modelEvict m) s = .next (s.wtsCmd m.toNat 5) := by
  show act s s.served _ = _
  rw [hs, act_true]

theorem exec_modelRelease_served : exec (.modelRelease m) s = .next (s.wtsCmd m.toNat 6) := by
  show act s s.served _ = _
  rw [hs, act_true]

end

section
variable (s : State) (m : Nat)

theorem wtsCmd_load : s.wtsCmd m 1 = if s.mdState m = 0 ∨ s.mdState m = 6 ∨ s.mdState m = 7
    then (s.wtsShown m 1).mayLoad m ((((s.wtsShown m 1).takeTenant m).holdGroup m).beginLoad m 1 none)
    else (s.wtsShown m 1).wtsResult 2 := rfl

theorem wtsCmd_replace : s.wtsCmd m 2 =
    if s.mdState m = 2 then (s.wtsShown m 2).mayLoad m (((s.wtsShown m 2).takeTenant m).beginDrain m 2 none)
    else if s.mdState m = 4 then (s.wtsShown m 2).mayLoad m ((((s.wtsShown m 2).takeTenant m).mdSetGoal m 2).beginLoad m 5 none)
    else (s.wtsShown m 2).wtsResult 2 := rfl

theorem wtsCmd_stop : s.wtsCmd m 3 = if s.mdState m = 2 then ((s.wtsShown m 3).beginDrain m 1 none).wtsResult 0
    else (s.wtsShown m 3).wtsResult 2 := rfl

theorem wtsCmd_resume : s.wtsCmd m 4 =
    if s.mdState m = 4 then ((((s.wtsShown m 4).mdSetGoal m 0).mdTo m 2).resumeGroup m).wtsResult 0
    else (s.wtsShown m 4).wtsResult 2 := rfl

theorem wtsCmd_evict : s.wtsCmd m 5 = if s.mdState m = 2 then ((s.wtsShown m 5).beginDrain m 3 none).wtsResult 0
    else if s.mdState m = 4 then (((s.wtsShown m 5).evictModel m true).mdTo m 6).wtsResult 0
    else (s.wtsShown m 5).wtsResult 2 := rfl

theorem wtsCmd_release : s.wtsCmd m 6 = if s.mdState m = 0 ∨ s.mdState m = 6 ∨ s.mdState m = 7 then ((s.wtsShown m 6).mdClear m).wtsResult 0
    else if s.mdState m = 4 then (((s.wtsShown m 6).evictModel m false).mdClear m).wtsResult 0
    else (s.wtsShown m 6).wtsResult 2 := rfl

variable {s m} {go : State}

theorem mayLoad_free (hfree : loadBusy s m = false) (hact : s.active (s.mdPart m) = true) (hout : (s.part (s.mdPart m)).inReset = false) :
    s.mayLoad m go = go.wtsResult 0 := by
  rw [State.mayLoad, hfree, hact, hout]
  rfl

theorem mayLoad_busy (hbusy : loadBusy s m = true) : s.mayLoad m go = s.wtsResult 3 := if_pos hbusy

theorem mayLoad_inactive (hfree : loadBusy s m = false) (hact : s.active (s.mdPart m) = false) : s.mayLoad m go = s.wtsResult 4 := by
  rw [State.mayLoad, hfree, hact]
  rfl

end

/-! ### Placement (R302) -/

section
variable {s : State} {m : Byte} {l : LoadSt} (hlive : s.live = true) (hload : s.load m.toNat = some l) (hplaced : l.placed = false)
include hlive hload hplaced

theorem exec_modelPlacement_live : exec (.modelPlacement m) s
    = if l.dirBad || l.shards.any (fun i => decide (l.count ≤ i) && !l.entries.isEmpty) then .next (s.loadFail m.toNat 3 0)
      else if l.entries.isEmpty || l.ranges.any (fun i => !(l.heads.any (fun h => h.1 == i))) then .next s
      else .next (s.tryPlace m.toNat l) := by
  show execModelPlacement m s = _
  simp only [execModelPlacement, hload, hlive, hplaced, Bool.not_true, Bool.or_self, Bool.false_eq_true, if_false]

theorem exec_modelPlacement_dirBad (hbad : l.dirBad = true) : exec (.modelPlacement m) s = .next (s.loadFail m.toNat 3 0) := by
  rw [exec_modelPlacement_live hlive hload hplaced, hbad, Bool.true_or, if_pos rfl]

/-- Nothing comes of it while the directory's entries have not come. -/
theorem exec_modelPlacement_unread (hbad : l.dirBad = false) (hnone : l.entries = []) : exec (.modelPlacement m) s = .next s := by
  have hcount : l.shards.any (fun i => decide (l.count ≤ i) && !l.entries.isEmpty) = false :=
    List.any_eq_false.mpr fun i _ => by rw [hnone, List.isEmpty_nil, Bool.not_true, Bool.and_false]; exact Bool.false_ne_true
  rw [exec_modelPlacement_live hlive hload hplaced, hbad, hcount, hnone]
  rfl

theorem exec_modelPlacement_beyond (hsome : l.entries ≠ []) (hbeyond : ∃ i ∈ l.shards, l.count ≤ i) :
    exec (.modelPlacement m) s = .next (s.loadFail m.toNat 3 0) := by
  have hany : l.shards.any (fun i => decide (l.count ≤ i) && !l.entries.isEmpty) = true := by
    obtain ⟨i, hi, hle⟩ := hbeyond
    exact List.any_eq_true.mpr ⟨i, hi, by rw [decide_eq_true hle, List.isEmpty_eq_false_iff.mpr hsome]; rfl⟩
  rw [exec_modelPlacement_live hlive hload hplaced, hany, Bool.or_true, if_pos rfl]

theorem exec_modelPlacement_read (hbad : l.dirBad = false) (hsome : l.entries ≠ []) (hwithin : ∀ i ∈ l.shards, i < l.count)
    (hheads : ∀ i ∈ l.ranges, ∃ h ∈ l.heads, h.1 = i) : exec (.modelPlacement m) s = .next (s.tryPlace m.toNat l) := by
  have hcount : l.shards.any (fun i => decide (l.count ≤ i) && !l.entries.isEmpty) = false :=
    List.any_eq_false.mpr fun i hi => by
      rw [decide_eq_false (Nat.not_le.mpr (hwithin i hi)), Bool.false_and]
      exact Bool.false_ne_true
  have hread : l.ranges.any (fun i => !(l.heads.any (fun h => h.1 == i))) = false :=
    List.any_eq_false.mpr fun i hi => by
      obtain ⟨h, hh, heq⟩ := hheads i hi
      have hany : l.heads.any (fun h => h.1 == i) = true := List.any_eq_true.mpr ⟨h, hh, beq_iff_eq.mpr heq⟩
      rw [hany]
      exact Bool.false_ne_true
  rw [exec_modelPlacement_live hlive hload hplaced, hbad, hcount, hread, List.isEmpty_eq_false_iff.mpr hsome]
  rfl

end

/-! ### Shards arrive, are polled, time out and are converted (R304 to R307) -/

section
variable {s : State} {m : Byte} {l : LoadSt} (hlive : s.live = true) (hload : s.load m.toNat = some l) {i : BitVec 16} {r : WtsRead}
include hlive hload

theorem exec_shardArrival_whole (hread : s.wtsRead m.toNat i.toNat = some r) (hplaced : l.placed = true) (hwhat : r.what = .shard)
    (hwhole : r.whole = true) : exec (.shardArrival m i) s = .next (s.shardIn m.toNat l r) := by
  show execShardArrival m i s = _
  simp only [execShardArrival, hload, hread, hlive, hplaced, hwhat, hwhole, decide_true, Bool.and_self, act_true]

omit hlive in
theorem exec_shardArrival_partly (hread : s.wtsRead m.toNat i.toNat = some r) (hpart : r.whole = false) :
    exec (.shardArrival m i) s = .next s := by
  show execShardArrival m i s = _
  simp only [execShardArrival, hload, hread, hpart, Bool.and_false, act_false]

theorem exec_shardTimeout_over {j : Nat} (hun : unpassed s l = some j)
    (hover : l.start + 800000 * max 1 (s.inForce WTS.CFG2.SHARD_TIMEOUT_MS) ≤ s.time) :
    exec (.shardTimeout m) s = .next (s.loadFail m.toNat 2 j) := by
  show execShardTimeout m s = _
  simp only [execShardTimeout, hload, hun, hlive, hover, decide_true, Bool.and_self, act_true]

/-- The completion of a load whose every shard has landed (R308). -/
theorem exec_loadCompletion_landed (hplaced : l.placed = true) (hlanded : ∀ i ∈ l.shards, ∃ x ∈ l.landed, x.idx = i) :
    exec (.loadCompletion m) s = .next (((if s.mdState m.toNat = 5 then ((s.complete m.toNat l).endLoad m.toNat).mdSetGoal m.toNat 0
      else (s.complete m.toNat l).endLoad m.toNat).mdTo m.toNat 2).resumeGroup m.toNat) := by
  have hall : l.shards.all (fun i => l.landed.any (fun x => x.idx == i)) = true :=
    List.all_eq_true.mpr fun i hi => by
      obtain ⟨x, hx, heq⟩ := hlanded i hi
      exact List.any_eq_true.mpr ⟨x, hx, beq_iff_eq.mpr heq⟩
  show execLoadCompletion m s = _
  simp only [execLoadCompletion, hload, hlive, hplaced, hall, Bool.and_self, if_true]

end

/-- A shard whose bytes came bad is corrupt. -/
theorem shardIn_bad (s : State) (m : Nat) (l : LoadSt) {r : WtsRead} (hbad : r.bad = true) : s.shardIn m l r = s.corruptShard m l r.idx := by
  simp only [State.shardIn, hbad, Bool.not_true, Bool.false_and, Bool.not_false, Bool.true_or, if_true]

/-! ### A drain at its deadline (R309, R310) -/

/-- The contexts of a drain that are still READY or RUNNING. -/
def DrainSt.left (d : DrainSt) (s : State) : List (Nat × Nat) := d.marks.filter (fun p => s.ctxState p.1 == 1 || s.ctxState p.1 == 2)

/-- The segment of a context is past C of its lift. -/
def liftPastC (s : State) (p : Nat × Nat) : Bool :=
  match onCore s p.1 with
  | some c => !killable s c
  | none => false

/-- Those of the contexts left that are rejected only once they are held. -/
def DrainSt.past (d : DrainSt) (s : State) : List (Nat × Nat) := (d.left s).filter (liftPastC s)

/-- The contexts left are held, and those that are not past C are told. -/
def State.drainReject (s : State) (d : DrainSt) : State :=
  ((d.left s).filter (fun p => !(d.past s).contains p)).foldl (fun t p => t.rejectCtx d.model p.1 p.2)
    ((d.left s).foldl (fun t p => t.action p.1 4) s)

/-- The contexts that a drain still has to reject. -/
def State.drainLate (s : State) (m : Nat) (late : List Nat) : State :=
  s.modWts (fun w => { w with drains := w.drains.map (fun x => if x.model = m then { x with late := late } else x) })

section
variable {s : State} {m : Byte} (hlive : s.live = true)
include hlive

theorem exec_shardPoll_due {i : BitVec 16} {r : WtsRead} {t : Nat} (hread : s.wtsRead m.toNat i.toNat = some r) (hpoll : r.poll = some t)
    (hdue : t ≤ s.time) : exec (.shardPoll m (some i)) s = .next (s.wtsPoll m.toNat i.toNat) := by
  show execShardPoll m (some i) s = _
  simp only [execShardPoll, hread, hpoll, hlive, hdue, decide_true, Bool.and_self, act_true]

theorem exec_shardConversion_due {i : BitVec 16} {c : Conv}
    (hconv : s.wts.convs.find? (fun c => c.model == m.toNat && c.idx == i.toNat) = some c) (hdue : c.due ≤ s.time) :
    exec (.shardConversion m i) s = .next (((s.meetPages c.pages).convert c).modWts (fun w =>
      { w with convs := w.convs.filter (fun x => !(x.model == c.model && x.idx == c.idx)) })).fillLoads := by
  show execShardConversion m i s = _
  simp only [execShardConversion, hconv, hlive, hdue, decide_true, Bool.and_self, act_true]

section
variable {d : DrainSt} (hdrain : s.wts.drains.find? (fun d => d.model == m.toNat) = some d)
include hdrain

omit hlive in
theorem exec_drainDeadline_early (hearly : s.time < d.due) : exec (.drainDeadline m) s = .next s := by
  show execDrainDeadline m s = _
  simp only [execDrainDeadline, hdrain, decide_eq_false (Nat.not_le.mpr hearly), Bool.and_false, Bool.false_eq_true, if_false]

/-- What a drain does at its deadline with the contexts that are left. -/
theorem exec_drainDeadline_due (hdue : d.due ≤ s.time) : exec (.drainDeadline m) s
    = .next ((s.drainReject d).drainLate d.model ((d.past s).map Prod.fst)).checkDrains := by
  show execDrainDeadline m s = _
  simp only [execDrainDeadline, hdrain, hlive, decide_eq_true hdue, Bool.and_self, if_true]
  rfl

/-- No context is left: the drain goes on. -/
theorem exec_drainDeadline_none (hdue : d.due ≤ s.time) (hgone : ∀ p ∈ d.marks, s.ctxState p.1 ≠ 1 ∧ s.ctxState p.1 ≠ 2) :
    exec (.drainDeadline m) s = .next (s.drainLate d.model []).checkDrains := by
  have hleft : d.left s = [] :=
    List.filter_eq_nil_iff.mpr fun p hp => by
      obtain ⟨h1, h2⟩ := hgone p hp
      rw [beq_eq_false_iff_ne.mpr h1, beq_eq_false_iff_ne.mpr h2]
      exact Bool.false_ne_true
  rw [exec_drainDeadline_due hlive hdrain hdue, State.drainReject, DrainSt.past, hleft]
  rfl

/-- The one context that is left is held and told, where no lift of it is past C. -/
theorem exec_drainDeadline_one {p : Nat × Nat} (hdue : d.due ≤ s.time) (hmarks : d.marks = [p])
    (hleft : s.ctxState p.1 = 1 ∨ s.ctxState p.1 = 2) (hkill : ∀ c, onCore s p.1 = some c → killable s c = true) :
    exec (.drainDeadline m) s = .next (((s.action p.1 4).rejectCtx d.model p.1 p.2).drainLate d.model []).checkDrains := by
  have hone : d.left s = [p] := by
    rw [DrainSt.left, hmarks]
    have hstate : (s.ctxState p.1 == 1 || s.ctxState p.1 == 2) = true := by rwa [Bool.or_eq_true, beq_iff_eq, beq_iff_eq]
    rw [List.filter_cons, hstate]
    rfl
  have hpast : d.past s = [] := by
    have hnot : liftPastC s p = false := by
      unfold liftPastC
      cases hcore : onCore s p.1 with
      | none => rfl
      | some c => exact congrArg (!·) (hkill c hcore)
    rw [DrainSt.past, hone, List.filter_cons, hnot]
    rfl
  rw [exec_drainDeadline_due hlive hdrain hdue, State.drainReject, hone, hpast]
  rfl

end

/-! ### Streams (R311) -/

section
variable {x : StreamSt} (hstream : s.wts.streams.find? (fun x => x.model == m.toNat) = some x)
include hstream

theorem exec_streamStart_due (hres : s.mdState m.toNat = 2) {blk : Nat} (hblk : blk = s.md m.toNat 0x28 8) (hoff : x.on = false)
    (hdue : x.bnd + bits (s.rdLE (blk + 0x20) 4) 26 0 ≤ s.time) : exec (.streamStart m) s
      = .next ((((s.streamSem m.toNat (s.rdLE (blk + 0x10) 8) 0).streamSem m.toNat (s.rdLE (blk + 0x18) 8) 0)).modStream m.toNat
          (fun y => { y with on := true })) := by
  show execStreamStart m s = _
  simp only [execStreamStart, hstream, ← hblk, hlive, hoff, hres, hdue, Bool.not_false, beq_self_eq_true, decide_true, Bool.and_self, act_true]

/-- A shard of the stroke before the window is full is copied without waiting (R311). -/
theorem exec_streamShardCopy_room (hres : s.mdState m.toNat = 2) {blk w : Nat} (hblk : blk = s.md m.toNat 0x28 8) (hon : x.on = true)
    (hmore : x.j < x.list.length) (hw : w = s.rdLE (blk + 0xC) 1) (hw0 : w ≠ 0) (hroom : x.j < w) : exec (.streamShardCopy m) s
      = .next ((((List.range (recRange s m.toNat (x.list.getD x.j 0)).2).foldl (fun t p => t.streamPage m.toNat
          ((recRange s m.toNat (x.list.getD x.j 0)).1 + p) (s.rdLE blk 8 / 65536 + x.j % w * s.rdLE (blk + 8) 4 + p)) s).streamSem
            m.toNat (s.rdLE (blk + 0x10) 8) (x.j + 1)).modStream m.toNat (fun y => { y with j := x.j + 1 })) := by
  show execStreamShardCopy m s = _
  simp only [execStreamShardCopy, hstream, ← hblk, ← hw, hlive, hon, hres, decide_eq_true hmore, bne_iff_ne.mpr hw0, decide_eq_true hroom,
    beq_self_eq_true, Bool.true_or, Bool.and_self, if_true]

omit hlive in
theorem exec_streamShardCopy_over (hover : x.list.length ≤ x.j) : exec (.streamShardCopy m) s = .next s := by
  show execStreamShardCopy m s = _
  simp only [execStreamShardCopy, hstream, decide_eq_false (Nat.not_lt.mpr hover), Bool.and_false, Bool.false_and, Bool.false_eq_true,
    if_false]

end

/-! ### Seal sweeps (R312) and frames that go back (R303, R308) -/

section
variable {k i : Nat} {rest : List (Nat × Nat)} (hsweeps : s.wts.sweeps = (k, i) :: rest) (hlane : s.lanes < 32)
include hsweeps hlane

theorem exec_sealSweep_empty (hempty : s.mdState k = 0) : exec .sealSweep s = .next (s.modWts (fun w => { w with sweeps := rest })) := by
  have hunswept : ¬((s.mdState k = 2 ∨ s.mdState k = 3) ∧ s.md4 k 7 7 = 1 ∧ s.active (s.mdPart k) ∧ i < s.mdCount k) := by omega
  show execSealSweep s = _
  simp only [execSealSweep, hsweeps, hlive, hlane, decide_true, Bool.and_self, if_true, if_neg hunswept]

/-- A shard of a model that is swept is compared with its digest. -/
theorem exec_sealSweep_swept {t u : State} (ht : t = s.modWts (fun w => { w with sweeps := rest }))
    (hst : s.mdState k = 2 ∨ s.mdState k = 3) (hon : s.md4 k 7 7 = 1) (hact : s.active (s.mdPart k) = true) (hi : i < s.mdCount k)
    (hu : u = (shardRanges t k i).foldl (fun v p => ownerMeet (t.mdOwner k) (pageCount p.1 p.2) p.1 p.2 v) t) :
    exec .sealSweep s = .next (if (shardInPlace u k i).2 && sha384 (shardInPlace u k i).1 == u.rdBytes (s.shardAddr k i) 48
      then (u.wrLE (s.shardAddr k i + 0x48) 8 (u.rdLE (s.shardAddr k i + 0x48) 8 + s.sweepGap)).bump WTS.SWEEPS.COUNT 1
      else u.sweepMismatch k i) := by
  have hswept : (s.mdState k = 2 ∨ s.mdState k = 3) ∧ s.md4 k 7 7 = 1 ∧ s.active (s.mdPart k) ∧ i < s.mdCount k := ⟨hst, hon, hact, hi⟩
  show execSealSweep s = _
  simp only [execSealSweep, hsweeps, hlive, hlane, decide_true, Bool.and_self, if_true, if_pos hswept, ← ht, ← hu]

end

theorem exec_modelFramePush_first {n tn t f : Nat} {rest : List (Nat × Nat × Nat × Nat × Nat)}
    (hpush : s.wts.pushes = (m.toNat, n, tn, t, f) :: rest) : exec (.modelFramePush m) s
      = .next ((s.modWts (fun w => { w with pushes := rest })).pushFrame (toPart n) tn t f) := by
  show execModelFramePush m s = _
  simp only [execModelFramePush, hpush, findIdx, beq_self_eq_true, if_true, hlive, act_true, State.modWts, List.eraseIdx_cons_zero]

end

theorem exec_sealSweep_none {s : State} (h : s.wts.sweeps = []) : exec .sealSweep s = .next s := by
  show execSealSweep s = _
  simp only [execSealSweep, h]

theorem exec_modelFramePush_none {s : State} {m : Byte} (h : s.wts.pushes = []) : exec (.modelFramePush m) s = .next s := by
  show execModelFramePush m s = _
  simp only [execModelFramePush, h, findIdx]

end Sys2Proof.Machine

namespace Sys2Proof.Proofs

open Sys2Proof.Machine

/-- Settles O55, by the state of the model. -/
theorem modelCommands : Obligations.ModelCommands := by
  intro s m shown hs hshown
  obtain rfl : shown = s.wtsShown m.toNat := funext hshown
  rw [exec_modelLoad_served hs, exec_modelReplace_served hs, exec_modelStop_served hs, exec_modelResume_served hs, exec_modelEvict_served hs,
    exec_modelRelease_served hs, wtsCmd_load, wtsCmd_replace, wtsCmd_stop, wtsCmd_resume, wtsCmd_evict, wtsCmd_release]
  generalize s.mdState m.toNat = st
  refine ⟨fun hidle => ?_, fun hresident => ?_, fun hbusy => ?_, fun hstopped => ?_⟩
  · have h2 : st ≠ 2 := by omega
    have h4 : st ≠ 4 := by omega
    simp only [if_pos hidle, if_neg h2, if_neg h4, and_self, and_true]
    exact ⟨fun hfree hact hout => congrArg _ (mayLoad_free hfree hact hout), fun h => congrArg _ (mayLoad_busy h),
      fun hfree hact => congrArg _ (mayLoad_inactive hfree hact)⟩
  · have hidle : ¬(st = 0 ∨ st = 6 ∨ st = 7) := by omega
    have h4 : st ≠ 4 := by omega
    simp only [if_pos hresident, if_neg hidle, if_neg h4, and_self, and_true]
    exact fun hfree hact hout => congrArg _ (mayLoad_free hfree hact hout)
  · have hidle : ¬(st = 0 ∨ st = 6 ∨ st = 7) := by omega
    have h2 : st ≠ 2 := by omega
    have h4 : st ≠ 4 := by omega
    simp only [if_neg hidle, if_neg h2, if_neg h4, and_self]
  · have hidle : ¬(st = 0 ∨ st = 6 ∨ st = 7) := by omega
    have h2 : st ≠ 2 := by omega
    simp only [if_neg hidle, if_neg h2, if_pos hstopped, and_self, and_true]
    exact fun hfree hact hout => congrArg _ (mayLoad_free hfree hact hout)

/-- Settles O56, from the placement to the completion. -/
theorem modelLoading : Obligations.ModelLoading := by
  intro s m l hlive hload
  refine ⟨fun hplaced => ⟨exec_modelPlacement_dirBad hlive hload hplaced, exec_modelPlacement_unread hlive hload hplaced,
      exec_modelPlacement_beyond hlive hload hplaced, exec_modelPlacement_read hlive hload hplaced⟩,
    fun i r hread => ⟨fun hplaced hwhat hwhole => ?_, exec_shardArrival_partly hload hread, fun t => exec_shardPoll_due hlive hread⟩,
    fun i => exec_shardTimeout_over hlive hload, fun i c => exec_shardConversion_due hlive, fun hplaced hlanded => ?_⟩
  · have harrive := exec_shardArrival_whole hlive hload hread hplaced hwhat hwhole
    exact ⟨harrive, fun hbad => by rw [harrive, shardIn_bad s m.toNat l hbad]⟩
  · rw [exec_loadCompletion_landed hlive hload hplaced hlanded]
    exact ⟨fun h => by rw [if_neg h], fun h => by rw [if_pos h]⟩

/-- Settles O57: drains, streams, sweeps and pushes in turn. -/
theorem weightsOverTime : Obligations.WeightsOverTime := by
  intro s m hlive
  refine ⟨fun d hdrain => ⟨exec_drainDeadline_early hdrain, exec_drainDeadline_none hlive hdrain, fun p => exec_drainDeadline_one hlive hdrain⟩,
    fun x blk hstream hblk hres => ⟨exec_streamStart_due hlive hstream hres hblk,
      fun w hon hmore hw hw0 hroom => exec_streamShardCopy_room hlive hstream hres hblk hon hmore hw hw0 hroom, exec_streamShardCopy_over hstream⟩,
    fun k i r hsweeps hlane t ht => ⟨fun hempty => ht ▸ exec_sealSweep_empty hlive hsweeps hlane hempty, fun u hst hon hact hi hu => ?_⟩,
    exec_sealSweep_none, fun n tn t f r => exec_modelFramePush_first hlive, exec_modelFramePush_none⟩
  rw [exec_sealSweep_swept hlive hsweeps hlane ht hst hon hact hi hu]
  refine ⟨fun hgood hsame => ?_, fun hbad => ?_⟩
  · rw [hgood, beq_iff_eq.mpr hsame, Bool.and_self, if_pos rfl]
  · have hmismatch : ((shardInPlace u k i).2 && sha384 (shardInPlace u k i).1 == u.rdBytes (s.shardAddr k i) 48) = false := by
      rcases hbad with h | h
      · rw [h, Bool.false_and]
      · rw [beq_eq_false_iff_ne.mpr h, Bool.and_false]
    rw [hmismatch, if_neg Bool.false_ne_true]

end Sys2Proof.Proofs

end
